-- ==== Sys2Proof/Word.lean ====
section
/-! DEFINITION. The word types of the model and their plainest arithmetic. -/

namespace Sys2Proof

/-- A 32-bit register word (R6). -/
abbrev Word := BitVec 32

/-- One byte. -/
abbrev Byte := BitVec 8

/-- A replicated object kept sparsely: pairs of an index and a value, indices strictly rising, and no entry equal to the
value an unlisted index has (the default that each use of the table names). -/
abbrev Tbl (α : Type) := List (Nat × α)

/-- The register word of a number, wrapping at 32 bits. -/
def word (n : Nat) : Word := BitVec.ofNat 32 n

/-- Bits [lo + len - 1 : lo] of a number. -/
def field (n lo len : Nat) : Nat := (n >>> lo) % 2 ^ len

/-- Bit `i` of a number as a Bool. -/
def bitAt (n i : Nat) : Bool := (n >>> i) % 2 == 1

/-- A Bool as the number 0 or 1. -/
def bit (b : Bool) : Nat := if b then 1 else 0

/-- The larger of a saturating sum and its ceiling: `a + b`, held at `top`. -/
def satAdd (top a b : Nat) : Nat := min top (a + b)

end Sys2Proof
end

