-- ==== Sys2Proof/Syntax.lean ====
section
/-! DEFINITION. The commands of the block: one constructor of `Instr` per row of spec/opcode_table.json, and the plain data
their operands are made of. A command's operands are what the outside world decides: the register value written, the packet
received, the measured voltage, the outcome of a signature check (assumption log 3). -/

namespace Sys2Proof

/-- The states of a virtual subsystem (R231), coded as VSS_STATE STATE. -/
inductive VssState where
  | free | active | resetting | removing | sanitizing | sanFailed
  deriving DecidableEq, Repr

/-- The catalog record of a virtual subsystem (R229, R231, R242, R244). -/
structure VssRec where
  /-- 3; R229; 0. AUTH_REQUIRED [0], SHARED_RECV [1], VDQ_ALLOWED [2]. -/
  flags    : Nat := 0
  /-- 17; R229; 0. -/
  slots    : Nat := 0
  /-- 12; R229; 0. -/
  cocMib   : Nat := 0
  /-- 21; R229; 0. -/
  quantum  : Nat := 0
  /-- 22; R229; 0. -/
  shape    : Nat := 0
  /-- 17; R229; 0. -/
  burst    : Nat := 0
  /-- 13; R229; 0. -/
  maxAssoc : Nat := 0
  /-- 15; R229; 0. -/
  tqQuota  : Nat := 0
  /-- 223 bytes; R229; empty. SUBNQN without its zero bytes. -/
  nqn      : List Byte := []
  /-- 3; R231 R247; 0. -/
  state    : VssState := .free
  /-- 3; R231; M active. The state before a reset of the subsystem. -/
  prior    : VssState := .active
  /-- 3; R242; 0. SANACT of the running or last sanitize. -/
  sanAct   : Nat := 0
  /-- 1; R242; 0. AUSE of the last sanitize. -/
  ause     : Bool := false
  /-- 3; R244 R247; 0. -/
  sstat    : Nat := 0
  /-- 32; R244; 0. -/
  scdw10   : Nat := 0
  /-- 23; R243 R244; 0. Chunks erased: the checkpoint. -/
  sanDone  : Nat := 0
  /-- 23; R244; 0. -/
  sanTotal : Nat := 0
  /-- 1; R242; M false. Step 3 (keys replaced, pages released) is done. -/
  sanKeys  : Bool := false
  deriving DecidableEq, Repr

/-- The catalog record of a namespace (R234, R245). -/
structure NsRec where
  /-- 12; R234 R247; 0. -/
  vss      : Nat := 0
  /-- 11; R234 R247; 0. -/
  nsid     : Nat := 0
  /-- 1; R234; 0. -/
  group    : Nat := 0
  /-- 1; R234; 0. -/
  lbaf     : Nat := 0
  /-- 2; R234; 0. -/
  pi       : Nat := 0
  /-- 1; R234; 0. -/
  mirror   : Bool := false
  /-- 1; R234; 0. -/
  fed      : Bool := false
  /-- 39; R234; 0. -/
  nsze     : Nat := 0
  /-- 16; R234; 0. -/
  profile  : Nat := 0
  /-- 1; R235; 0. -/
  attached : Bool := false
  /-- 22; R318; 0. The first global chunk of its run. -/
  first    : Nat := 0
  /-- 23; R247 R318; 0. -/
  chunks   : Nat := 0
  /-- 1; R245; 0. A format runs. -/
  fmt      : Bool := false
  /-- 2; R245 R247; 0. SES of the running or last format. -/
  ses      : Nat := 0
  /-- 23; R243 R245; 0. Chunks erased by the running format: the checkpoint. -/
  fmtDone  : Nat := 0
  /-- 23; R242 R243; 0. Chunks erased by the running sanitize: the checkpoint. -/
  erased   : Nat := 0
  /-- 1; R245; M false. The key and map of the running format are replaced. -/
  fmtKeys  : Bool := false
  /-- 3; R245; M 0. LBAF and PI of the running format: LBAF + 2 x PI. -/
  fmtTo    : Nat := 0
  /-- 32; R245; M 0. The key epoch of the last format: drive blocks of earlier epochs read as unwritten. -/
  blank    : Nat := 0
  deriving DecidableEq, Repr

/-- A host entry (R230). -/
structure HostRec where
  vss     : Nat := 0
  nqn     : List Byte := []
  hasHost : Bool := false
  hasCtrl : Bool := false
  host    : List Byte := []
  ctrl    : List Byte := []
  deriving DecidableEq, Repr

/-- The key record of a key slot (R343 to R346). -/
structure KeyRec where
  /-- 32; R344 R350; 0. The slot's last epoch. -/
  epoch : Nat := 0
  /-- 256; R344; none. The current key, unwrapped. -/
  cur   : Option Nat := none
  /-- 32 + 256; R343 R346; none. The previous epoch and key. -/
  prev  : Option (Nat × Nat) := none
  /-- 1; R346; 0. The rekey pass runs. -/
  pass  : Bool := false
  /-- 23; R346 R350; 0. Chunks rekeyed: the checkpoint. -/
  done  : Nat := 0
  deriving DecidableEq, Repr

/-- The state of a member of a chunk (R323). -/
inductive MemState where
  | inService | missing | rebuilding
  deriving DecidableEq, Repr

/-- A member slot of a chunk-map entry (R323). -/
structure Member where
  bay   : Nat := 0
  st    : MemState := .inService
  start : Nat := 0
  deriving DecidableEq, Repr

/-- A chunk-map entry (R323). -/
structure MapEnt where
  valid   : Bool := false
  fed     : Bool := false
  unread  : Bool := false
  k       : Nat := 0
  m       : Nat := 0
  profile : Nat := 0
  ns      : Nat := 0
  group   : Nat := 0
  index   : Nat := 0
  stripes : Nat := 0
  place   : Nat := 0
  mem     : List Member := []
  deriving DecidableEq, Repr

/-- A member-table entry (R353). -/
structure FedMember where
  state : Nat := 0
  v6    : Bool := false
  a     : Nat := 0
  b     : Nat := 0
  deriving DecidableEq, Repr

/-- A member slot of a placement entry (R355). -/
structure PSlot where
  shelf : Nat := 0
  st    : MemState := .inService
  bay   : Nat := 0
  start : Nat := 0
  deriving DecidableEq, Repr

/-- A placement entry (R355). -/
structure PlaceEnt where
  valid  : Bool := false
  hosted : Bool := false
  k      : Nat := 0
  m      : Nat := 0
  group  : Nat := 0
  chunks : Nat := 0
  stripes : Nat := 0
  origin : Nat := 0
  oent   : Nat := 0
  spares : List Nat := []
  slots  : List PSlot := []
  deriving DecidableEq, Repr

/-- What a map-journal record changes (R325, R353, R354): a chunk-map entry, a placement entry or a member-table entry, by number. -/
inductive JVal where
  | map (e : Nat) (x : MapEnt)
  | place (k : Nat) (x : PlaceEnt)
  | member (shelf : Nat) (m : FedMember)
  deriving DecidableEq, Repr

/-- A map-journal record (R325): its sequence, the change it records and the drives that have not confirmed its block. -/
structure JRec where
  seq  : Nat
  val  : JVal
  wait : List Nat
  deriving DecidableEq, Repr

/-- What a transfer was issued for, with the instar it carries (R37, R210, R232): a virtual controller, or a tenant queue by 16 x queue pair + QIDX. -/
inductive IssuedFor where
  | vc (a tag : Nat)
  | tq (k tag : Nat)
  deriving DecidableEq, Repr

/-- What a service-port DMA read brings (R477, R479): submission entries of a queue, or data for a context. -/
inductive DmaRead where
  | entries (q : Nat)
  | data (ctx : Nat)
  deriving DecidableEq, Repr

/-- The controls in a function's configuration space that a host's write leaves beside Bus Master Enable (R481, R486): MSI-X Enable, the
Function Mask, and on PF1 the VFs in force (NumVFs under VF Enable). -/
structure FnCfg where
  msixEn : Bool := false
  fnMask : Bool := false
  vfs    : Nat := 0
  deriving DecidableEq, Repr

/-- One edit of a catalog change (R225). -/
inductive CatEdit where
  | vss (n : Nat) (r : Option VssRec)
  | ns (n : Nat) (r : Option NsRec)
  | host (i : Nat) (r : Option HostRec)
  | key (n : Nat) (r : KeyRec)
  | member (n : Nat) (r : FedMember)
  /-- A map-journal record is written (R325). -/
  | journal (r : JRec)
  /-- A map-journal record is dropped. -/
  | journalDrop (seq : Nat)
  /-- The binding of a service-port function is set (R478): 0 unbound. -/
  | bind (side : Bool) (fn vss : Nat)
  /-- The pair wrapping key is created (R344). -/
  | pairKey (k : Nat)
  deriving DecidableEq, Repr

/-- The part of a catalog that a copy carries (R226): everything but the sealed pair keys and the bay identity table. -/
structure Catalog where
  /-- 4,095; R224 R231; empty. -/
  vss     : Tbl (Option VssRec) := []
  /-- 65,536; R234; empty. -/
  ns      : Tbl (Option NsRec) := []
  /-- 65,536; R230; empty. Host entries, keyed VSS x 256 + index. -/
  hosts   : Tbl (Option HostRec) := []
  /-- 65,536; R344; empty. -/
  keys    : Tbl KeyRec := []
  /-- 4,096; R325; empty. The map journal. -/
  journal : List JRec := []
  /-- 512; R353; empty. The member table of the federation, by shelf. -/
  members : Tbl FedMember := []
  /-- 65 x 12 x 2; R478; 0. The VSS each service-port function of each side is bound to, keyed function + 128 x side. -/
  binds   : Tbl Nat := []
  /-- 64; R225 R247; 0. Generation. -/
  gen     : Nat := 0
  /-- 64; R226; 0. Sync generation. -/
  sync    : Nat := 0
  /-- 256; R344; none. The pair wrapping key. -/
  pairKey : Option Nat := none
  deriving DecidableEq, Repr

/-- A commit record (R286). -/
structure CommitRec where
  kind   : Nat := 1
  enc    : Bool := true
  pi     : Bool := false
  mirror : Bool := false
  fed    : Bool := false
  group  : Nat := 0
  ns     : Nat := 0
  lba    : Nat := 0
  len    : Nat := 0
  seq    : Nat := 0
  last   : Nat := 0
  ord    : Nat := 0
  epoch  : Nat := 0
  ctr    : Nat := 0
  tag    : Nat := 0
  piData : Nat := 0
  deriving DecidableEq, Repr

/-- One block of host data: its 4,096 bytes as a little-endian number, and its protection information (guard, application tag,
reference tag) (R347). -/
structure Blk where
  data  : Nat := 0
  guard : Nat := 0
  app   : Nat := 0
  ref   : Nat := 0
  deriving DecidableEq, Repr

/-- One range of a Dataset Management command. -/
structure DsmRange where
  lba : Nat
  len : Nat
  deriving DecidableEq, Repr

/-- A block as a drive returns it (R321, R335): whether the drive could read it and its stored bytes are those written (`good`),
its location metadata as it passes the CRC and place checks (`placed`), its kind (0 unwritten, 1, 2, 3), key slot, epoch, counter and content. -/
structure DriveBlk where
  good   : Bool
  placed : Bool
  kind   : Nat
  slot   : Nat
  epoch  : Nat
  ctr    : Nat
  blk    : Blk
  deriving DecidableEq, Repr

/-- What a reconstruction of a block finds in its row (R336): for each other position in reading order, whether it passes R335
and whether its stored bytes are those written; and the block's content. -/
structure RowRead where
  others : List (Bool × Bool)
  blk    : DriveBlk
  deriving DecidableEq, Repr

/-- What reading a memory line found (R492, R311, R313): clean, corrected, or uncorrectable at the read, with the outcome of
the one reread. -/
inductive LineRead where
  | clean
  | corrected
  | badThenGood
  | badTwice
  deriving DecidableEq, Repr

/-- The step word of R251 without its opcode. -/
structure StepW where
  a     : Nat := 0
  b     : Nat := 0
  cond  : Nat := 0
  tmo   : Nat := 0
  flags : Nat := 0
  imm   : Nat := 0
  deriving DecidableEq, Repr

/-- The three access paths of R11. -/
inductive Path where
  | bar0 | mgmt | cores
  deriving DecidableEq, Repr

/-- Who sent a command that is answered with a completion: PF0's management queue, an MCTP endpoint, a fabric association
(by its number) on its admin queue or on an I/O queue, another service-port function, or a tenant queue (16 x queue pair +
QIDX). -/
inductive Origin where
  | pf0
  | mctp (eid : Nat)
  | assoc (id : Nat)
  | ioq (assoc qid : Nat)
  | fn (n : Nat)
  | tq (key : Nat)
  deriving DecidableEq, Repr

/-- One access of the register space: the path it takes, its byte offset and its size in bytes (R4, R6, R11). -/
structure Access where
  path : Path
  off  : Nat
  size : Nat
  deriving DecidableEq, Repr

/-- A submission entry's identity: who sent it and its command identifier. -/
structure Cid where
  org : Origin
  cid : Nat
  deriving DecidableEq, Repr

/-- An event that changes the mode, in the priority order of R48 (its number there). -/
inductive ModeEvent where
  | pwron | pwrfail | fatal | reset | drain | group
  deriving DecidableEq, Repr

/-- What a command that may change the mode meets at its tick: the mode events of the same timebase tick (R48), and which PLLs lock at
the first try of step 1 and after its one reset, should a start-up begin (R56, R57): bit 4 the root PLL, bits 3 to 0 those of the
Ethernet ports, the spokes, the tandem and the service port. -/
structure Moment where
  rivals : List ModeEvent := []
  lock1  : BitVec 5 := 31
  lock2  : BitVec 5 := 31
  deriving DecidableEq, Repr

/-- The straps and the test pin of R538, as sampled. -/
structure Straps where
  tdmSide   : Bool
  norLayout : Bool
  testEn    : Bool
  deriving DecidableEq, Repr

/-- What the recovery scan met that only the hardware knows: whether it exceeded its limit and again in the rerun (R57), its time in
microseconds, the records that are uncorrectable after one reread (mirror partition, page), and the counter lines that are. -/
structure ScanReport where
  late1 : Bool
  late2 : Bool
  us    : Nat
  bad   : List (Bool × Nat)
  ctrs  : List Nat
  deriving DecidableEq, Repr

/-- What reading the NOR in step 3 met (R79, R88): the density of each device in bytes (none when its SFDP table cannot be read), whether
each slot's header is read at the first and at the second attempt, and whether the chosen slot's read and reread succeed. -/
structure NorReport where
  dens0 : Option Nat
  dens1 : Option Nat
  hdrA1 : Bool
  hdrA2 : Bool
  hdrB1 : Bool
  hdrB2 : Bool
  ok1   : Bool
  ok2   : Bool
  deriving DecidableEq, Repr

/-- The verdicts of the two image signatures (R86). -/
structure ImageVerdict where
  ed : Bool
  ml : Bool
  deriving DecidableEq, Repr

/-- An SPDM request (R128), its operands as in the row of its name. -/
inductive SpdmReq where
  | getVersion
  | getCapabilities
  | negotiateAlgorithms (asym hash measHash dmtf : Bool)
  | getDigests
  | getCertificate (slot offset length : Nat)
  | challenge (slot summary nonce : Nat)
  | getMeasurements (index : Nat) (signed : Bool) (nonce : Nat)
  | other (code : Nat)
  deriving DecidableEq, Repr





/-- The verdicts of the two authorization signatures of an owner operation (R114). -/
structure AuthVerdict where
  ed : Bool
  ml : Bool
  deriving DecidableEq, Repr


/-- The SecTAG of a secured frame, and the verdict on its ICV (R149). -/
structure SecTag where
  /-- The secure channel whose SCI the tag carries; none when it matches none. -/
  sc  : Option Nat
  an  : Nat
  e   : Bool
  c   : Bool
  pn  : Nat
  icv : Bool
  deriving DecidableEq, Repr

/-- What a frame that reaches check 9 carries (R139, R377). -/
inductive L4 where
  | roce (isAck : Bool)
  | icmp
  | other
  deriving DecidableEq, Repr

/-- A received Ethernet frame, as the ingress checks of R139 see it, on sub-port 4 x port + sub-port or on the management port (32). The
fields after `sec` are those of the frame once decrypted. -/
structure EthFrame where
  sub   : Nat
  len   : Nat
  /-- The uncorrectable FEC codewords that the frame holds (R138, R155). -/
  fecBad : Nat
  fcsOk : Bool
  /-- The destination MAC address, its first byte in bits 47:40. -/
  dst   : Nat
  /-- The EtherType of the frame as it comes: 0x88E5 where it carries a SecTAG. -/
  ety   : Nat
  macOp : Nat
  /-- PFC: the priorities whose enable bit is set, with their quanta. -/
  pfc   : List (Nat × Nat)
  sec   : Option SecTag
  /-- The 802.1Q tags: VLAN ID + 4,096 x PCP. -/
  tags  : List Nat
  ety2  : Nat
  /-- Check 7 of R139 on the IP header. -/
  ipOk  : Bool
  dstIp : Nat
  dscp  : Nat
  l4    : L4
  deriving DecidableEq, Repr

/-- What stands at the head of the payload of a capsule or a push and the front end reads with its first packet (R23, R194, R204): the command
identifier, whether SGL1 is one descriptor of a supported type, and the staging pages the command takes. -/
structure CapHdr where
  cid   : Nat := 0
  sglOk : Bool := true
  need  : Nat := 0
  deriving DecidableEq, Repr

/-- What the read of a context from DRAM finds (R162, R493): the address of a line that is uncorrectable or poisoned, in the queue-pair context or in that
of one of its tenant queues. -/
inductive CtxFetch where
  | good
  | lost (addr : Nat)
  | tqLost (addr qidx : Nat)
  deriving DecidableEq, Repr

/-- What the DRAM reads of a MAP step find (R326, R493): the address of a poisoned line, of a map entry or of a match table spilled from chip. -/
inductive MapRead where
  | good
  | entryLost (addr : Nat)
  | tableLost (addr : Nat)
  deriving DecidableEq, Repr

/-- What a context needs as it resumes and cannot be read (R273, R493): a word of step memory, of command context memory, or a line of pool 2. -/
inductive ResumeLoss where
  | steps
  | context
  | spill (addr : Nat)
  deriving DecidableEq, Repr

/-- A received RoCEv2 packet (R156, R157). -/
structure RocePkt where
  icrc   : Bool := true
  ver    : Nat := 0
  pkey   : Nat := 0xFFFF
  qpn    : Nat := 0
  src    : Nat := 0
  op     : Nat := 0
  psn    : Nat := 0
  ackReq : Bool := false
  ce     : Bool := false
  len    : Nat := 0
  /-- RETH: R_Key, virtual address and length. -/
  rkey   : Nat := 0
  va     : Nat := 0
  dlen   : Nat := 0
  imm    : Nat := 0
  /-- AETH syndrome. -/
  syn    : Nat := 0
  /-- The frame was read back from overflow with a word that is still uncorrectable after one reread: its address (R379). -/
  poison : Option Nat := none
  /-- The source of the read response is uncorrectable or poisoned (R179). -/
  srcBad : Bool := false
  /-- The head of a capsule or a push, in its first packet. -/
  cap    : Option CapHdr := none
  /-- The on-chip cells it holds, set as it leaves its ingress queue (R30). -/
  cells  : Nat := 0
  /-- The line of the dirty-log bitmap word that the packet's acknowledgement writes, when it is poisoned (R493). -/
  dlogBad : Option Nat := none
  /-- For QPN 1: the poisoned line of firmware data that the management core reads in handling it, and the PLLs of the warm reset (R493). -/
  fwBad   : Option (Nat × Moment) := none
  deriving DecidableEq, Repr

/-- A connection REQ on QPN 1 (R160, R191, R202, R361). -/
structure CmReq where
  sub    : Nat
  src    : Nat
  rqpn   : Nat
  pmtu   : Nat
  depth  : Nat
  recfmt : Nat
  cntlid : Nat
  member : Nat
  fedId  : Nat
  /-- The R_Key and slot count of the window that a Porpor requester grants (log 26). -/
  peerKey   : Nat := 0
  peerSlots : Nat := 0
  deriving DecidableEq, Repr

/-- An object whose instar bump is held back (R38, R39). -/
inductive InstarObj where
  | vss (n : Nat)
  | vc (assoc : Nat)
  | qp (n : Nat)
  | tq (key : Nat)
  | spoke (n : Nat)
  | drive (n : Nat)
  | window (n : Nat)
  | fn (n : Nat)
  deriving DecidableEq, Repr

/-- A Fabrics Connect (R192). -/
structure ConnectReq where
  subnqn  : List Byte
  hostnqn : List Byte
  qid     : Nat
  sqsize  : Nat
  kato    : Nat
  cntlid  : Nat
  deriving DecidableEq, Repr

/-- A DH-HMAC-CHAP message from the host (R195). -/
inductive AuthMsg where
  /-- AUTH_Negotiate: whether SHA-384, ffdhe3072 and ffdhe4096 are offered, and whether it asks for secure channel concatenation. -/
  | negotiate (sha384 g3072 g4096 secure : Bool)
  /-- DH-HMAC-CHAP_Reply: whether the response verifies, and whether the host asks for the controller's response. -/
  | reply (ok bidir : Bool)
  /-- DH-HMAC-CHAP_Success2, after a bidirectional exchange. -/
  | success2
  /-- DH-HMAC-CHAP_Failure2. -/
  | failure2
  deriving DecidableEq, Repr

/-- A command of the NVM command set, from a capsule, an SQ entry or a push (R194, R204). -/
structure HostCmd where
  c      : Cid
  nsid   : Nat := 1
  slba   : Nat := 0
  /-- 0-based block count. -/
  nlb    : Nat := 0
  addr   : Nat := 0
  rkey   : Nat := 0
  len    : Nat := 0
  /-- The data travels in the capsule or the push. -/
  inl    : Bool := false
  /-- SGL1 is one descriptor of a supported type (R194). -/
  sglOk  : Bool := true
  /-- Reserved fields are 0 (R204), PRACT and unsupported attributes are clear. -/
  fieldsOk : Bool := true
  /-- PRCHK: guard [0], application tag [1], reference tag [2]. -/
  prchk  : Nat := 0
  reftag : Nat := 0
  apptag : Nat := 0
  appmask : Nat := 0
  ranges : List DsmRange := []
  payload : List Blk := []
  /-- The push slot of a push. -/
  push   : Option Nat := none
  /-- SEC-DED cannot correct the entry of the dispatch table that it is looked up by (R273). -/
  tableBad : Bool := false
  deriving DecidableEq, Repr

/-- What a catalog copy brings (R226): the partner's catalog and its counter area (slot: epoch, RESERVED_TO). -/
structure CatCopy where
  cat  : Catalog
  ctrs : List (Nat × Nat × Nat)
  deriving DecidableEq, Repr



/-- A page as the tandem link carries it: page index, commit record, data. -/
structure PageMsg where
  page : Nat
  r    : CommitRec
  blk  : Blk
  deriving DecidableEq, Repr



/-- A Porpor message as it lies in a window slot (R363): the 128 bytes of its header, and of each row it carries the 4,096 data bytes and the 64
bytes of metadata. -/
structure PorporIn where
  head : List Byte := []
  rows : List (Nat × Nat) := []
  deriving DecidableEq, Repr

/-- The header of a Porpor message, field by field (R363). -/
structure PorporMsg where
  /-- MAGIC, FORMAT and CRC are right. -/
  headOk : Bool := true
  fedId  : Nat := 0
  origin : Nat := 0
  entry  : Nat := 0
  lslot  : Nat := 0
  chunk  : Nat := 0
  stripe : Nat := 0
  member : Nat := 0
  group  : Nat := 0
  rows   : Nat := 0
  reqSlot : Nat := 0
  repSlot : Nat := 0xFFFF
  lba    : Nat := 0
  tag    : Nat := 0
  /-- ALLOC: K, M, CHUNKS, S. ALLOC_REPLY: BAY, START. READ_DATA: 0 or 1, mask of unreadable rows. -/
  params : List Nat := []
  /-- Every carried block's metadata CRC matches its LBA. -/
  metaOk : Bool := true
  /-- The rows carried. -/
  data   : List (Nat × Nat) := []
  deriving DecidableEq, Repr



/-- What Identify Controller, Identify Namespace for NSID 1 and Set Features Number of Queues of a drive return: the fields that
R417 and R424 read. -/
structure Ident where
  /-- Both Identify commands completed. -/
  identifyOk : Bool
  /-- The version register: 0x10400 is NVMe 1.4. -/
  ver        : Nat
  cmic       : Nat
  /-- NSID 1 is present. -/
  nsid1      : Bool
  nmic       : Nat
  /-- The active LBA format: the power of 2 of its data size, and its metadata size. -/
  lbads      : Nat
  ms         : Nat
  flbas      : Nat
  mc         : Nat
  dps        : Nat
  dlfeat     : Nat
  oncs       : Nat
  /-- The blocks of the namespace. -/
  blocks     : Nat
  /-- The I/O queues granted. -/
  ioqGranted : Nat
  /-- SN (20 bytes), MN (40 bytes) and the NGUID of NSID 1 (16 bytes). -/
  idBytes    : List Byte
  deriving DecidableEq, Repr

/-- What a completion of a drive answers. -/
inductive DriveResult where
  | io (ok : Bool)
  | ident (r : Ident)
  | aborted
  | formatted (ok : Bool)
  deriving DecidableEq, Repr

/-- Where a DMA request of a drive falls (R416). -/
inductive DmaTarget where
  | queueMem
  | buffer (slot : Nat)
  | other
  deriving DecidableEq, Repr



/-- The items of a cadence frame received from the partner (R461, R462). -/
structure FrameItems where
  tick     : Nat
  mode     : Nat
  owned    : Nat
  seq0     : Nat
  seq1     : Nat
  catGen   : Nat
  releases : List (Nat × Nat)
  unmirrored : List Nat
  latched  : List Nat
  retries  : List (Nat × Nat)
  repairs  : List Nat
  awaiting : List Nat
  orphans  : Nat
  endings  : List Nat
  addrs    : List (Nat × Bool × Nat) := []
  deriving DecidableEq, Repr

/-- Whose echo has not come (R26, R459): a command's, or that of a page the re-mirror of a group has copied. -/
inductive EchoWaiter where
  | ctx (n : Nat)
  | remirror (group : Nat)
  deriving DecidableEq, Repr

/-- Map and placement entries as they come from the drives or from the partner (R326, R354, R463). -/
structure AreaRead where
  map   : List (Nat × MapEnt) := []
  place : List (Nat × PlaceEnt) := []
  deriving DecidableEq, Repr





/-- A die with a temperature sensor (R540). -/
inductive Die where
  | logic | bay
  deriving DecidableEq, Repr

/-- The commands of the block, one constructor per row of the table of operations and events, in the table's order. -/
inductive Instr where

  /-- PLAIN_REGISTER_WRITE (R6): `hwSet` holds the bits the hardware sets in the same cycle (R519), `m` what the write meets should it
  change the mode (R48). -/
  | plainRegisterWrite (a : Access) (val : Word) (hwSet : Word) (m : Moment)
  /-- READ_CLEAR_COUNTER (R10): `hwInc` is what the hardware adds in the same cycle (R519). -/
  | readClearCounter (a : Access) (hwInc : Nat)
  /-- LO_REGISTER_READ (R11). -/
  | loRegisterRead (a : Access)
  /-- HI_REGISTER_WRITE (R12). -/
  | hiRegisterWrite (a : Access) (val : Word)
  /-- LO_REGISTER_WRITE (R12). -/
  | loRegisterWrite (a : Access) (val : Word)
  /-- SELECT_REGISTER_WRITE (R13). -/
  | selectRegisterWrite (a : Access) (val : Word)
  /-- REGISTER_READ (R520). -/
  | registerRead (c : Cid) (cdw10 cdw11 cdw12 cdw13 : Word)
  /-- REGISTER_WRITE (R520); `m` is what the write meets should it change the mode (R48). -/
  | registerWrite (c : Cid) (cdw10 cdw11 cdw12 cdw13 cdw14 : Word) (m : Moment)
  /-- PWRON_L_ASSERTED (R47). -/
  | pwronLAsserted
  /-- PWRON_L_RELEASED (R47): the sampled straps, and the PLLs that lock in step 1 (R57). -/
  | pwronLReleased (straps : Straps) (m : Moment)
  /-- MEMORY_PREPARATION_DONE (R59): the memory that mismatches in the first test and in the rerun. -/
  | memoryPreparationDone (bad1 bad2 : Option Nat)
  /-- IMAGE_LOAD_DONE (R88). -/
  | imageLoadDone (r : NorReport)
  /-- IMAGE_VERIFICATION_DONE (R86): the verdicts of the two signatures for the first check, whether the reread of the slot succeeds
  (R57), and the verdicts of the re-verification. -/
  | imageVerificationDone (v1 : ImageVerdict) (reread : Bool) (v2 : ImageVerdict)
  /-- CONFIGURATION_DONE (R98). -/
  | configurationDone
  /-- DRAM_TRAINING_DONE (R57): the GiB that training finds on each channel, 0 for a channel that fails, at the first training and at
  the retraining of the channels that failed. -/
  | dramTrainingDone (fit1 fit2 : List Nat)
  /-- DRAM_SWEEP_DONE (R61): the regions whose sweep has completed, and whether the sweep exceeded its limit at the first run and at the
  rerun (R57). -/
  | dramSweepDone (swept : List Nat) (late1 late2 : Bool)
  /-- RECOVERY_SCAN_DONE (R308): what the scan met that only the hardware knows. -/
  | recoveryScanDone (r : ScanReport)
  /-- BOOT_RECORD_WRITTEN (R63): whether the write of the record succeeds at the first try and at the retry, and the
  milliseconds since the release or reset (BOOT_MS, R76). -/
  | bootRecordWritten (ok1 ok2 : Bool) (ms : Nat)
  /-- BOOT_STAGE_LIMIT_EXPIRY (R57). -/
  | bootStageLimitExpiry
  /-- WATCHDOG_EXPIRY (R58). -/
  | watchdogExpiry (m : Moment)
  /-- SHUTDOWN_REQUEST (R50): GBL_MODE_REQ written with REQ 4. -/
  | shutdownRequest (m : Moment)
  /-- SAFE_REQUEST (R73): GBL_MODE_REQ written with REQ 5. -/
  | safeRequest (m : Moment)
  /-- WARM_RESET_REQUEST (R74): the word written to GBL_RESET_CTL. -/
  | warmResetRequest (val : Word) (m : Moment)
  /-- COLD_RESET_REQUEST (R74): the word written to GBL_RESET_CTL. -/
  | coldResetRequest (val : Word) (m : Moment)
  /-- DRAIN_SHUTDOWN_COMPLETE (R50). -/
  | drainShutdownComplete (m : Moment)
  /-- DRAIN_LIMIT_EXPIRY (R50). -/
  | drainLimitExpiry (m : Moment)
  /-- PWRFAIL_L_ASSERTED (R67). -/
  | pwrfailLAsserted (m : Moment)
  /-- PWRFAIL_STABLE_RELEASE (R71). -/
  | pwrfailStableRelease (m : Moment)
  /-- IMAGE_STAGE_WRITE (R101): the bytes, CDW10 OFFSET, CDW11 LENGTH, CDW12 BEGIN. -/
  | imageStageWrite (c : Cid) (offset length : Nat) (begin_ : Bool) (data : List Byte)
  /-- IMAGE_STAGE_COMMIT (R101): CDW10 IMAGE_LEN and the verdicts of the staged image's signatures. -/
  | imageStageCommit (c : Cid) (imageLen : Nat) (v : ImageVerdict)
  /-- IMAGE_ACTIVATE_LIVE (R105): Image Activate with MODE 0. -/
  | imageActivateLive (c : Cid) (m : Moment)
  /-- IMAGE_ACTIVATE_WARM (R104): Image Activate with MODE 1. -/
  | imageActivateWarm (c : Cid) (m : Moment)
  /-- IMAGE_SLOT_INFO (R101). -/
  | imageSlotInfo (c : Cid)
  /-- STAGING_SESSION_TIMEOUT (R102). -/
  | stagingSessionTimeout
  /-- IMAGE_SWAP (R105): whether the activation record can be written (R126) and the hold time in ms. -/
  | imageSwap (recordOk : Bool) (holdMs : Nat) (m : Moment)
  /-- ACTIVATION_HOLD_EXPIRY (R215): the command whose hold reached 100 ms. -/
  | activationHoldExpiry (c : Cid)
  /-- TRS_ENROLL (R111): the word written to TRS_AUTH_CTL with OP 1. -/
  | trsEnroll (val : Word)
  /-- TRS_REVOKE (R114): the word written with OP 2. -/
  | trsRevoke (val : Word)
  /-- TRS_ADVANCE_MIN_SVN (R117): the word written with OP 3. -/
  | trsAdvanceMinSvn (val : Word)
  /-- OTP_BURN_COMPLETE (R115): whether the burn completed. -/
  | otpBurnComplete (ok : Bool)
  /-- TRS_KEY_READ (R133): the word written. -/
  | trsKeyRead (val : Word)
  /-- SPDM_EXCHANGE (R128): the request message's length and the request. -/
  | spdmExchange (c : Cid) (length : Nat) (req : SpdmReq)
  /-- GET_VERSION (R128), from an endpoint. -/
  | getVersion (ep : Origin)
  /-- GET_CAPABILITIES (R128). -/
  | getCapabilities (ep : Origin)
  /-- NEGOTIATE_ALGORITHMS (R128): whether the request offers Ed25519, SHA-384, SHA-384 measurements and DMTF. -/
  | negotiateAlgorithms (ep : Origin) (asym hash measHash dmtf : Bool)
  /-- GET_DIGESTS (R128). -/
  | getDigests (ep : Origin)
  /-- GET_CERTIFICATE (R128): slot, offset and length. -/
  | getCertificate (ep : Origin) (slot offset length : Nat)
  /-- CHALLENGE (R129): slot and summary hash type (0 none, 1 TCB, 0xFF all). -/
  | challenge (ep : Origin) (slot summary nonce : Nat)
  /-- GET_MEASUREMENTS (R129): operation (index, 0xFF all, 0 count) and whether a signature is asked. -/
  | getMeasurements (ep : Origin) (index : Nat) (signed : Bool) (nonce : Nat)
  /-- SPDM_UNSUPPORTED_REQUEST (R128): the request code. -/
  | spdmUnsupportedRequest (ep : Origin) (code : Nat)
  /-- SPDM_CONTEXT_IDLE_EXPIRY (R131): the endpoint whose context has seen no request for 60 s. -/
  | spdmContextIdleExpiry (ep : Origin)
  /-- ETH_FRAME_RECEIVE (R139). -/
  | ethFrameReceive (f : EthFrame)
  /-- LINK_TRAIN_TIMEOUT (R138), of sub-port 4 x port + sub-port. -/
  | linkTrainTimeout (sub : Nat)
  /-- LINK_TRAIN_RETRY_TIMER (R138). -/
  | linkTrainRetryTimer (sub : Nat)
  /-- SUBPORT_LINK_UP (R138): the link partner has trained; the MODE whose PMD it runs (R136), and whether it runs RS(544,514) FEC (R137). -/
  | subportLinkUp (sub pmd : Nat) (rs : Bool)
  /-- SUBPORT_LINK_DOWN (R138). -/
  | subportLinkDown (sub : Nat)
  /-- PFC_PAUSE_EXPIRY (R143). -/
  | pfcPauseExpiry (sub prio : Nat)
  /-- PFC_WATCHDOG_EXPIRY (R144): whether the pause ends in the same tick (R145). -/
  | pfcWatchdogExpiry (sub prio : Nat) (endsNow : Bool)
  /-- PFC_WATCHDOG_RESUME (R144). -/
  | pfcWatchdogResume (sub prio : Nat)
  /-- ADDRESS_SLOT_APPLY (R141): the word written to PRT_ADDR_CTL, on the port that PRT_SEL selects. -/
  | addressSlotApply (val : Word)
  /-- MACSEC_RX_SA_INSTALL (R151): the port, secure channel, its sub-port (0-3), AN and first expected PN. -/
  | macsecRxSaInstall (port sc sub an pn : Nat)
  /-- MACSEC_TX_SA_INSTALL (R151). -/
  | macsecTxSaInstall (port sc sub an pn : Nat)
  /-- MACSEC_RX_SA_RETIRE (R151). -/
  | macsecRxSaRetire (port sc an : Nat)
  /-- SUBPORT_TRANSMIT (R390): a frame that the management cores hand over for the sub-port first (R384, R389), with whether it is EAPOL
  (R148) and its length; a transmit association installed in the same cycle: its secure channel, AN and first PN (R151); and whether SEC-DED
  fails on a cell of the frame to be sent (R379). -/
  | subportTransmit (sub : Nat) (core : Option (Bool × Nat)) (install : Option (Nat × Nat × Nat)) (lost : Bool)
  /-- ROCE_PACKET_RECEIVE (R157): the ingress queue it is taken from (sub-port, priority) and the packet. -/
  | rocePacketReceive (sub prio : Nat) (p : RocePkt)
  /-- CM_REQ (R160). -/
  | cmReq (r : CmReq)
  /-- CM_RTU (R164). -/
  | cmRtu (qp : Nat)
  /-- CM_DREQ (R164). -/
  | cmDreq (qp : Nat)
  /-- QP_TEARDOWN (R164): the word written to QP_CTL, on the context that QP_SEL selects. -/
  | qpTeardown (val : Word)
  /-- QP_CONTEXT_FREE (R164). -/
  | qpContextFree (qp : Nat)
  /-- QP_CONTEXT_FETCH_DONE (R162): how the read of the context from DRAM comes out (R163, R493). -/
  | qpContextFetchDone (qp : Nat) (r : CtxFetch)
  /-- ACK_COALESCE_EXPIRY (R168): the PSN of the executed packet whose delay has passed (R175). -/
  | ackCoalesceExpiry (qp psn : Nat)
  /-- ACK_TIMEOUT (R173): the PSN of the packet that has waited (R175). -/
  | ackTimeout (qp psn : Nat)
  /-- RNR_WAIT_EXPIRY (R173). -/
  | rnrWaitExpiry (qp : Nat)
  /-- MESSAGE_LIFETIME_EXPIRY (R174): the timebase at which the message was handed to the transport (R175). -/
  | messageLifetimeExpiry (qp at_ : Nat)
  /-- RATE_ALPHA_TIMER (R182): whether a CNP arrives in the same cycle (R175). -/
  | rateAlphaTimer (qp : Nat) (cnpToo : Bool)
  /-- RATE_INCREASE_TIMER (R182): whether a CNP arrives in the same cycle (R175). -/
  | rateIncreaseTimer (qp : Nat) (cnpToo : Bool)
  /-- QP_PACKET_SEND (R181): the number 0-99 drawn for the marking probability of R146. -/
  | qpPacketSend (qp draw : Nat)
  /-- DLOG_ENABLE (R183): the word written to RDT_DLOG_CFG, on the slot that RDT_DLOG_ADDR selects. -/
  | dlogEnable (val : Word)
  /-- DLOG_DISABLE (R183). -/
  | dlogDisable (val : Word)
  /-- QP_DLOG_JOIN (R183): the word written to QP_DLOG. -/
  | qpDlogJoin (val : Word)
  /-- DLOG_HARVEST_READ (R186): a read of RDT_DLOG_DATA_LO on a path, and the bits set in the same cycle. -/
  | dlogHarvestRead (path : Path) (setNow : Nat)
  /-- INSTAR_BUMP_DEFERRED (R39). -/
  | instarBumpDeferred (o : InstarObj)
  /-- FABRICS_CONNECT (R192): the queue pair, the command identifier and the Connect data. -/
  | fabricsConnect (qp cid : Nat) (r : ConnectReq)
  /-- AUTHENTICATION_SEND (R195). -/
  | authenticationSend (c : Cid) (qid : Nat) (m : AuthMsg)
  /-- AUTHENTICATION_RECEIVE (R195). -/
  | authenticationReceive (c : Cid) (qid : Nat)
  /-- AUTH_TIMEOUT (R195): the association and the queue (0 the admin queue). -/
  | authTimeout (assoc qid : Nat)
  /-- PROPERTY_GET (R195): the property offset. -/
  | propertyGet (c : Cid) (off : Nat)
  /-- PROPERTY_SET (R232). -/
  | propertySet (c : Cid) (off val : Nat)
  /-- KEEP_ALIVE (R196). -/
  | keepAlive (c : Cid)
  /-- KEEP_ALIVE_EXPIRY (R196). -/
  | keepAliveExpiry (assoc : Nat)
  /-- IDENTIFY (R198): CNS and NSID. -/
  | identify (c : Cid) (cns nsid : Nat)
  /-- GET_LOG_PAGE (R197): the page and Retain Asynchronous Event. -/
  | getLogPage (c : Cid) (lid : Nat) (rae : Bool)
  /-- GET_FEATURES (R197). -/
  | getFeatures (c : Cid) (fid : Nat)
  /-- SET_FEATURES (R197). -/
  | setFeatures (c : Cid) (fid val : Nat)
  /-- ASYNC_EVENT_REQUEST (R200). -/
  | asyncEventRequest (c : Cid)
  /-- ABORT (R214): the command it names. -/
  | abort (c : Cid) (qid cid : Nat)
  /-- SANITIZE (R242): CDW10. -/
  | sanitize (c : Cid) (cdw10 : Nat)
  /-- FORMAT_NVM (R245): NSID and CDW10. -/
  | formatNvm (c : Cid) (nsid cdw10 : Nat)
  /-- VDQ_CREATE (R202): the 64-byte descriptor. -/
  | vdqCreate (c : Cid) (desc : List Byte)
  /-- VDQ_DELETE (R210): CDW10. -/
  | vdqDelete (c : Cid) (cdw10 : Nat)
  /-- NVM_READ (R261). -/
  | nvmRead (h : HostCmd)
  /-- NVM_WRITE (R25). -/
  | nvmWrite (h : HostCmd)
  /-- NVM_FLUSH (R214). -/
  | nvmFlush (h : HostCmd)
  /-- WRITE_ZEROES (R259). -/
  | writeZeroes (h : HostCmd)
  /-- DATASET_MANAGEMENT (R259). -/
  | datasetManagement (h : HostCmd)
  /-- NVM_COMPARE (R259). -/
  | nvmCompare (h : HostCmd)
  /-- ADMISSION_REOPEN (R212). -/
  | admissionReopen (vss : Nat)
  /-- SQ_TAIL_DOORBELL (R207): the queue pair and the immediate. -/
  | sqTailDoorbell (qp imm : Nat)
  /-- CQ_HEAD_DOORBELL (R209). -/
  | cqHeadDoorbell (qp imm : Nat)
  /-- PUSH_DOORBELL (R208): the immediate, the 64 bytes of the entry, and the data behind it as blocks or as ranges. -/
  | pushDoorbell (qp imm : Nat) (entry : List Byte) (payload : List Blk) (ranges : List DsmRange)
  /-- VDQ_FETCH (R207). -/
  | vdqFetch
  /-- VDQ_FETCH_RESPONSE (R207): the instar the read carries and the entries, 64 bytes each. -/
  | vdqFetchResponse (qp qidx tag : Nat) (entries : List (List Byte))
  /-- CQ_STALL_EXPIRY (R209). -/
  | cqStallExpiry (qp qidx : Nat)
  /-- NOTIFY_TIMER_EXPIRY (R209). -/
  | notifyTimerExpiry (qp qidx : Nat)
  /-- TENANT_QUEUE_FREE (R210). -/
  | tenantQueueFree (qp qidx : Nat)
  /-- IDLE_LEVEL1_ENTRY (R216). -/
  | idleLevel1Entry
  /-- IDLE_LEVEL2_ENTRY (R216). -/
  | idleLevel2Entry
  /-- MANAGEMENT_CHALLENGE (R224). -/
  | managementChallenge (c : Cid)
  /-- MANAGEMENT_PROVE (R224): the anchor, the 3,376 bytes, and the verdicts of the two signatures in them. -/
  | managementProve (c : Cid) (anchor : Nat) (data : List Byte) (v : AuthVerdict)
  /-- MGMT_AUTH_TIMEOUT (R223). -/
  | mgmtAuthTimeout (assoc : Nat)
  /-- VSS_CREATE (R229): the 256-byte descriptor. -/
  | vssCreate (c : Cid) (desc : List Byte)
  /-- VSS_CHANGE_SHARE (R233): bytes 0-31 of the descriptor. -/
  | vssChangeShare (c : Cid) (desc : List Byte)
  /-- VSS_RESET (R231): CDW10. -/
  | vssReset (c : Cid) (cdw10 : Nat)
  /-- VSS_REMOVE (R231). -/
  | vssRemove (c : Cid) (cdw10 : Nat)
  /-- HOST_ENTRY_SET (R230): the 384 bytes. -/
  | hostEntrySet (c : Cid) (data : List Byte)
  /-- CATALOG_READ (R227). -/
  | catalogRead (c : Cid) (cdw10 cdw11 cdw12 : Nat)
  /-- TENANT_QUEUE_FREEZE (R238): CDW10 and LIMIT_MS. -/
  | tenantQueueFreeze (c : Cid) (cdw10 cdw11 : Nat)
  /-- TENANT_QUEUE_SAVE (R239): CDW10, the byte offset and the length of the data buffer. -/
  | tenantQueueSave (c : Cid) (cdw10 cdw11 len : Nat)
  /-- TENANT_QUEUE_RESTORE (R240): the byte offset, LAST and the bytes. -/
  | tenantQueueRestore (c : Cid) (off : Nat) (last : Bool) (data : List Byte)
  /-- TENANT_QUEUE_THAW (R238). -/
  | tenantQueueThaw (c : Cid) (cdw10 : Nat)
  /-- DIRTY_LOG_CONTROL (R241). -/
  | dirtyLogControl (c : Cid) (cdw10 cdw11 cdw12 cdw13 : Nat)
  /-- DIRTY_LOG_HARVEST (R241). -/
  | dirtyLogHarvest (c : Cid) (cdw10 cdw11 cdw12 : Nat)
  /-- VIRTUAL_CONTROLLER_RESET (R232). -/
  | virtualControllerReset (c : Cid) (cdw10 : Nat)
  /-- NAMESPACE_CREATE (R234): the 128-byte descriptor. -/
  | namespaceCreate (c : Cid) (desc : List Byte)
  /-- NAMESPACE_DELETE (R236): NSID, the global namespace number + 1. -/
  | namespaceDelete (c : Cid) (nsid : Nat)
  /-- NAMESPACE_ATTACH (R235): NSID and the controller list. -/
  | namespaceAttach (c : Cid) (nsid : Nat) (ctrls : List Nat)
  /-- NAMESPACE_DETACH (R235). -/
  | namespaceDetach (c : Cid) (nsid : Nat) (ctrls : List Nat)
  /-- CATALOG_CHANGE_RECEIVE (R225): whether it is a request forwarded by side B, its number and its edits. -/
  | catalogChangeReceive (fwd : Bool) (id : Nat) (edits : List CatEdit)
  /-- CATALOG_ECHO_RECEIVE (R225): the number of the change. -/
  | catalogEchoReceive (id : Nat)
  /-- CATALOG_PARTNER_TIMEOUT (R225). -/
  | catalogPartnerTimeout (id : Nat)
  /-- CATALOG_COPY_DONE (R226): the partner's catalog and counter lines as it holds them. -/
  | catalogCopyDone (partner : CatCopy)
  /-- VSS_RESET_DONE (R231). -/
  | vssResetDone (vss : Nat)
  /-- VSS_REMOVE_DONE (R231). -/
  | vssRemoveDone (vss : Nat)
  /-- TQ_FREEZE_COMPLETE (R238). -/
  | tqFreezeComplete (qp qidx : Nat)
  /-- TQ_FREEZE_TIMEOUT (R238). -/
  | tqFreezeTimeout (qp qidx : Nat)
  /-- SANITIZE_QUIESCED (R242). -/
  | sanitizeQuiesced (vss : Nat)
  /-- SANITIZE_CHUNK_ERASED (R243): the namespace, its chunk, and the bay of a drive whose write failed twice. -/
  | sanitizeChunkErased (ns chunk : Nat) (failed : Option Nat)
  /-- FORMAT_NVM_QUIESCED (R245). -/
  | formatNvmQuiesced (ns : Nat)
  /-- NOP (R253): the step of a context. -/
  | nop (ctx : Nat) (w : StepW)
  /-- END (R253): the step of a context. -/
  | end_ (ctx : Nat) (w : StepW)
  /-- JMP (R253): the step of a context. -/
  | jmp (ctx : Nat) (w : StepW)
  /-- BR (R253): the step of a context. -/
  | br (ctx : Nat) (w : StepW)
  /-- CALL (R253): the step of a context. -/
  | call (ctx : Nat) (w : StepW)
  /-- RET (R253): the step of a context. -/
  | ret (ctx : Nat) (w : StepW)
  /-- FAIL (R253): the step of a context. -/
  | fail (ctx : Nat) (w : StepW)
  /-- WAIT (R253): the step of a context. -/
  | wait (ctx : Nat) (w : StepW)
  /-- LDI (R253): the step of a context. -/
  | ldi (ctx : Nat) (w : StepW)
  /-- MOV (R253): the step of a context. -/
  | mov (ctx : Nat) (w : StepW)
  /-- ADD (R253): the step of a context. -/
  | add (ctx : Nat) (w : StepW)
  /-- ADDI (R253): the step of a context. -/
  | addi (ctx : Nat) (w : StepW)
  /-- SUB (R253): the step of a context. -/
  | sub (ctx : Nat) (w : StepW)
  /-- AND (R253): the step of a context. -/
  | and_ (ctx : Nat) (w : StepW)
  /-- SHR (R253): the step of a context. -/
  | shr (ctx : Nat) (w : StepW)
  /-- SHL (R253): the step of a context. -/
  | shl (ctx : Nat) (w : StepW)
  /-- CMP (R253): the step of a context. -/
  | cmp (ctx : Nat) (w : StepW)
  /-- CMPI (R253): the step of a context. -/
  | cmpi (ctx : Nat) (w : StepW)
  /-- MARK (R253): the step of a context. -/
  | mark (ctx : Nat) (w : StepW)
  /-- ILOCK (R264): the step of a context: whether SEC-DED cannot correct its entry of the interlock array (R273). -/
  | ilock (ctx : Nat) (w : StepW) (lost : Bool)
  /-- IWAIT (R265): the step of a context. -/
  | iwait (ctx : Nat) (w : StepW)
  /-- IREL (R266): the step of a context. -/
  | irel (ctx : Nat) (w : StepW)
  /-- NSFENCE (R267): the step of a context. -/
  | nsfence (ctx : Nat) (w : StepW)
  /-- TREF (R42): the step of a context. -/
  | tref (ctx : Nat) (w : StepW)
  /-- TDROP (R44): the step of a context. -/
  | tdrop (ctx : Nat) (w : StepW)
  /-- CLOOK (R297): the step of a context: whether the index entry is uncorrectable (R298). -/
  | clook (ctx : Nat) (w : StepW) (bad : Bool)
  /-- CSTAGE (R290): the step of a context: whether the write queues of the stacks take its lines now (R380). -/
  | cstage (ctx : Nat) (w : StepW) (taken : Bool)
  /-- CCOMMIT (R289): the step of a context. -/
  | ccommit (ctx : Nat) (w : StepW)
  /-- CREAD (R291): the step of a context: what reading the lines of each page finds, and whether every tag verifies. -/
  | cread (ctx : Nat) (w : StepW) (reads : List LineRead) (tagOk : Bool)
  /-- CDEALLOC (R253): the step of a context. -/
  | cdealloc (ctx : Nat) (w : StepW)
  /-- ECHOWAIT (R253): the step of a context. -/
  | echowait (ctx : Nat) (w : StepW)
  /-- HREAD (R253): the step of a context. -/
  | hread (ctx : Nat) (w : StepW)
  /-- HWRITE (R253): the step of a context. -/
  | hwrite (ctx : Nat) (w : StepW)
  /-- CPL (R253): the step of a context. -/
  | cpl (ctx : Nat) (w : StepW)
  /-- COMPARE (R253): the step of a context. -/
  | compare (ctx : Nat) (w : StepW)
  /-- PICHK (R347): the step of a context. -/
  | pichk (ctx : Nat) (w : StepW)
  /-- MAP (R324): the step of a context: how its reads of DRAM come out (R326, R493). -/
  | map (ctx : Nat) (w : StepW) (r : MapRead)
  /-- DREAD (R337): the step of a context: the rows of the blocks that are decoded because their member is not readable, in block order. -/
  | dread (ctx : Nat) (w : StepW) (rows : List RowRead)
  /-- DVERIFY (R335): the step of a context: the blocks read from drives, in block order. -/
  | dverify (ctx : Nat) (w : StepW) (found : List DriveBlk)
  /-- RECON (R336): the step of a context: the rows of the blocks that failed, in block order. -/
  | recon (ctx : Nat) (w : StepW) (rows : List RowRead)
  /-- DWRITE (R334): the step of a context. -/
  | dwrite (ctx : Nat) (w : StepW)
  /-- PARITY (R329): the step of a context: the old blocks the flush read. -/
  | parity (ctx : Nat) (w : StepW) (olds : List DriveBlk)
  /-- DZERO (R333): the step of a context. -/
  | dzero (ctx : Nat) (w : StepW)
  /-- FRAG (R368): the step of a context. -/
  | frag (ctx : Nat) (w : StepW)
  /-- CRELEASE (R290): the step of a context. -/
  | crelease (ctx : Nat) (w : StepW)
  /-- COUNT (R253): the step of a context: the skid of a sample it triggers (R274). -/
  | count_ (ctx : Nat) (w : StepW) (skid : Nat) (parked : Bool)
  /-- EVENT (R253): the step of a context. -/
  | event (ctx : Nat) (w : StepW)
  /-- CONTEXT_RESUME (R250): the core, and what the reads that resume the context find lost (R273, R493). -/
  | contextResume (core : Nat) (lost : Option ResumeLoss)
  /-- INTERNAL_CONTEXT_START (R260): the poisoned line of pool 2, when the context is lost there (R493). -/
  | internalContextStart (lost : Option Nat)
  /-- WAIT_TIMEOUT (R255): the context, and the wait number and instar its timeout entry carries. -/
  | waitTimeout (ctx waitNo instar : Nat)
  /-- INTERLOCK_GRANT (R264): the parked context. -/
  | interlockGrant (ctx : Nat)
  /-- NSFENCE_DONE (R267). -/
  | nsfenceDone (ctx : Nat)
  /-- HOST_TRANSFER_COMPLETE (R253): the context, what the transfer was issued for, whether it succeeded, and the data. -/
  | hostTransferComplete (ctx : Nat) (by_ : IssuedFor) (ok : Bool) (data : List Blk) (ranges : List DsmRange)
  /-- TABLE_SLOT_RETRY (R270): the table, 0-4. -/
  | tableSlotRetry (table : Nat)
  /-- SEQ_SAMPLE_READ (R274): a read of SEQ_SAMPLE_DATA0 on a path. -/
  | seqSampleRead (path : Path)
  /-- FORMAT_COCOON (R284): CDW10. -/
  | formatCocoon (c : Cid) (cdw10 : Nat)
  /-- ODOMETER_PERSIST (R283). -/
  | odometerPersist
  /-- ODOMETER_TICK (R503). -/
  | odometerTick
  /-- MIRROR_LINE_RECEIVE (R293): the page and its block (the whole page's lines are carried as one). -/
  | mirrorLineReceive (page : Nat) (blk : Blk)
  /-- MIRROR_RECORD_RECEIVE (R293): the page, the record and the CRC it arrives with. -/
  | mirrorRecordReceive (page : Nat) (r : CommitRec) (crc : Nat)
  /-- MIRROR_RESET_RECEIVE (R296). -/
  | mirrorResetReceive (group : Nat)
  /-- INDEX_REBUILD_DONE (R298). -/
  | indexRebuildDone
  /-- FLUSH_STRIPE_START (R300). -/
  | flushStripeStart
  /-- MIRROR_ADOPTION_DONE (R306). -/
  | mirrorAdoptionDone (group : Nat)
  /-- HANDBACK_PAGE_RECEIVE (R307): the namespace, its group and the pages. -/
  | handbackPageReceive (group ns : Nat) (pages : List PageMsg)
  /-- HANDBACK_CONFIRM_RECEIVE (R307). -/
  | handbackConfirmReceive (group : Nat)
  /-- LINE_FETCH_RESPONSE (R312, R548): the partition (true: the fetch repairs a mirror page's owner copy), the page, whether it
  was the record that was bad, and what the partner's record and data are; none when it cannot be read. -/
  | lineFetchResponse (page : Nat) (isRec : Bool) (got : Option PageMsg)
  /-- COUNTER_RESERVE_ECHO (R309): the key slot and the value echoed. -/
  | counterReserveEcho (slot to_ : Nat)
  /-- COUNTER_RESERVE_TIMEOUT (R309). -/
  | counterReserveTimeout (slot : Nat)
  /-- COCOON_SCRUB_LINE (R313): the line's cocoon address and what its read finds. -/
  | cocoonScrubLine (addr : Nat) (r : LineRead)
  /-- STACK_ACCESS_TIMEOUT (R314). -/
  | stackAccessTimeout (stack : Nat) (m : Moment)
  /-- COC_PAGE_RECORD_READ (R317): a read of COC_PAGE_REC0 on a path. -/
  | cocPageRecordRead (path : Path)
  /-- MAP_RELOAD_DONE (R326): the chunk. -/
  | mapReloadDone (chunk : Nat)
  /-- REBUILD_DELAY_EXPIRY (R338): the bay whose drive has been absent. -/
  | rebuildDelayExpiry (bay : Nat)
  /-- REBUILD_START (R338): CDW10 of Rebuild Control with OP 0. -/
  | rebuildStart (c : Cid) (cdw10 : Nat)
  /-- REBUILD_CANCEL (R348): CDW10 of Rebuild Control with OP 1. -/
  | rebuildCancel (c : Cid) (cdw10 : Nat)
  /-- CHUNK_MAP_READ (R348). -/
  | chunkMapRead (c : Cid) (cdw10 : Nat)
  /-- KEY_ROTATE (R346). -/
  | keyRotate (c : Cid) (cdw10 : Nat)
  /-- REKEY_PASS_START (R346): the key slot. -/
  | rekeyPassStart (slot : Nat)
  /-- RECON_WRITEBACK (R336): the chunk, stripe, row and the positions that still fail R335 or their tag. -/
  | reconWriteback (chunk stripe row : Nat) (still : List Nat)
  /-- STRIP_WRITE (R365): the queue pair, the slot written and the message. -/
  | stripWrite (qp slot : Nat) (d : PorporIn)
  /-- STRIP_READ (R371). -/
  | stripRead (qp slot : Nat) (d : PorporIn)
  /-- ALLOC (R357). -/
  | alloc (qp slot : Nat) (d : PorporIn)
  /-- LEASE_FREE (R364). -/
  | leaseFree (qp slot : Nat) (d : PorporIn)
  /-- PORPOR_ACCEPT (R368): the request's slot. -/
  | porporAccept (qp slot : Nat)
  /-- PORPOR_REFUSE (R368): the request's slot and the code. -/
  | porporRefuse (qp slot code : Nat)
  /-- READ_DATA (R371). -/
  | readData (qp : Nat) (d : PorporIn)
  /-- ALLOC_REPLY (R357). -/
  | allocReply (qp : Nat) (d : PorporIn)
  /-- FRAG_TIMEOUT (R368): the TAG of the unanswered request, and whether its accept falls in the same cycle (R369). -/
  | fragTimeout (tag : Nat) (acceptToo : Bool)
  /-- PEER_WINDOW_APPLY (R359): the word written to COC_PWIN_CTL. -/
  | peerWindowApply (val : Word)
  /-- FEDERATION_MEMBER_SET (R373): the 64-byte entry. -/
  | federationMemberSet (c : Cid) (data : List Byte)
  /-- LEASE_CREATE (R357): CDW10, CDW11 and the shelf and spare IDs. -/
  | leaseCreate (c : Cid) (cdw10 cdw11 : Nat) (data : List Byte)
  /-- LEASE_READ (R373). -/
  | leaseRead (c : Cid) (cdw10 : Nat)
  /-- LEASE_RELEASE (R373). -/
  | leaseRelease (c : Cid) (cdw10 : Nat)
  /-- PFC_XOFF_REFRESH (R377). -/
  | pfcXoffRefresh (sub prio : Nat)
  /-- MCAST_DEST_TIMEOUT (R381): the destination (true the tandem link, false a stack of the cocoon), the command's context, and
  whether the acceptance falls in the same cycle. -/
  | mcastDestTimeout (tandem : Bool) (ctx : Nat) (accepted : Bool)
  /-- BUCKET_RETURN (R386). -/
  | bucketReturn (bucket : Nat)
  /-- LEAK_AUDIT_PASS (R388): the cells the pass finds without a live owner, with their owner kinds. -/
  | leakAuditPass (found : List (Nat × Nat))
  /-- SHAPER_REFILL (R392). -/
  | shaperRefill
  /-- POLICER_REFILL (R393). -/
  | policerRefill
  /-- SCH_SAMPLE_SELECT (R399): the word written to SCH_SAMPLE_ADDR. -/
  | schSampleSelect (val : Word)
  /-- BAY_SCAN_FRAME (R408): the bays whose presence and whose button read 1. -/
  | bayScanFrame (presence buttons : List Nat)
  /-- LINK_UP_TIMEOUT (R406). -/
  | linkUpTimeout (spoke : Nat)
  /-- SPOKE_LINK_UP (R412): the trained speed code and width. -/
  | spokeLinkUp (spoke gts width : Nat)
  /-- SPOKE_DPC (R407): the trigger: 0 DL_Down, 1 fatal error, 2 poisoned completion. -/
  | spokeDpc (spoke trigger : Nat)
  /-- CONTAINMENT_RELEASE (R412). -/
  | containmentRelease (spoke : Nat)
  /-- BUTTON_TIMER_EXPIRY (R414). -/
  | buttonTimerExpiry (spoke : Nat)
  /-- ORDERLY_REMOVAL_PROGRESS (R414): CSTS.SHST reads 10b, or its 10 s have passed. -/
  | orderlyRemovalProgress (spoke : Nat) (shstDone : Bool)
  /-- SPOKE_CTL_RESET (R412). -/
  | spokeCtlReset (spoke : Nat)
  /-- SPOKE_CTL_POWER_OFF (R412). -/
  | spokeCtlPowerOff (spoke : Nat)
  /-- SPOKE_CTL_POWER_ON (R412). -/
  | spokeCtlPowerOn (spoke : Nat)
  /-- SPOKE_CTL_DISABLE (R412). -/
  | spokeCtlDisable (spoke : Nat)
  /-- SPOKE_CTL_ENABLE (R412). -/
  | spokeCtlEnable (spoke : Nat)
  /-- SLOT_ATTENTION_WRITE (R411): the word written to SPK_SLOT_CTL. -/
  | slotAttentionWrite (spoke : Nat) (val : Word)
  /-- DRIVE_DMA_REQUEST (R416). -/
  | driveDmaRequest (spoke addr : Nat) (t : DmaTarget)
  /-- DRIVE_COMPLETION (R419): the command identifier's slot and high byte, and what the completion answers. -/
  | driveCompletion (spoke slot hi : Nat) (r : DriveResult)
  /-- DRIVE_READY_TIMEOUT (R417). -/
  | driveReadyTimeout (spoke : Nat)
  /-- ABORT_TIMEOUT (R421). -/
  | abortTimeout (spoke : Nat)
  /-- SPOKE_RESET_RDY_TIMEOUT (R422). -/
  | spokeResetRdyTimeout (spoke : Nat)
  /-- SPOKE_RESET_LIMIT (R422). -/
  | spokeResetLimit (spoke : Nat)
  /-- DRIVE_IDLE_TIMER (R425): the deepest power state the drive offers within DRV_PS_MAX_LAT_US. -/
  | driveIdleTimer (spoke : Nat) (ps : Option Nat)
  /-- DRIVE_FORMAT (R426): CDW10, and whether the drive offers the LBA format. -/
  | driveFormat (c : Cid) (cdw10 : Nat) (offered : Bool)
  /-- PRESENCE_STABLE (R432): the bay. -/
  | presenceStable (bay : Nat)
  /-- RAMP_END (R432). -/
  | rampEnd (bay : Nat)
  /-- BAY_POWER_GOOD (R432): the cause of a trip that falls in the same tick, if one does (R438). -/
  | bayPowerGood (bay : Nat) (tripToo : Option Nat)
  /-- FAST_TRIP (R433): the current. -/
  | fastTrip (bay iMa : Nat)
  /-- BREAKER_TRIP (R433). -/
  | breakerTrip (bay iMa : Nat)
  /-- UNDERVOLTAGE_TRIP (R433). -/
  | undervoltageTrip (bay iMa : Nat)
  /-- COOL_DOWN_END (R434): whether presence has been stable for 100 ms (R436). -/
  | coolDownEnd (bay : Nat) (stable : Bool)
  /-- RETRY_COUNT_REFRESH (R435). -/
  | retryCountRefresh (bay : Nat)
  /-- BAY_CLEAR (R434): the word written to BAY_CTL. -/
  | bayClear (bay : Nat) (val : Word)
  /-- FEED_GOOD (R439): the group and the feed (false A, true B). -/
  | feedGood (group : Nat) (feedB : Bool)
  /-- FEED_BAD (R439). -/
  | feedBad (group : Nat) (feedB : Bool)
  /-- FEED_BBM_END (R439). -/
  | feedBbmEnd (group : Nat)
  /-- FEED_REVERT (R439). -/
  | feedRevert (group : Nat)
  /-- FEED_SWITCH_TO_A (R439): the word written to FEED_CTL. -/
  | feedSwitchToA (group : Nat) (val : Word)
  /-- FEED_SWITCH_TO_B (R439). -/
  | feedSwitchToB (group : Nat) (val : Word)
  /-- FEED_SWITCH_SETTLE (R440). -/
  | feedSwitchSettle (group : Nat)
  /-- BAY_TELEMETRY_SAMPLE (R443): a channel's current, voltage and captured peak, and the feed voltages of its group. -/
  | bayTelemetrySample (bay iMa vMv peak aMv bMv : Nat)
  /-- OUTPUT_HOLD_EXPIRY (R441). -/
  | outputHoldExpiry
  /-- BAY_RAIL_LOSS (R528). -/
  | bayRailLoss
  /-- BAY_RAIL_RETURN (R528): the bays whose VSNS is at power-good level. -/
  | bayRailReturn (powered : List Nat)
  /-- OWN_FEED (R449): the path of the write and the word written to TDM_OWN_FEED; whether a release cause falls in the same
  tick (R454). -/
  | ownFeed (path : Path) (val : Word)
  /-- HEARTBEAT_GAP (R449): the group. -/
  | heartbeatGap (group : Nat)
  /-- HEARTBEAT_LAPSE (R449): whether a feed falls in the same tick (R454). -/
  | heartbeatLapse (group : Nat) (fedNow : Bool) (m : Moment)
  /-- LINE_RELEASED_SEEN (R464). -/
  | lineReleasedSeen (group : Nat)
  /-- LINE_GAP_SEEN (R450). -/
  | lineGapSeen (group : Nat)
  /-- LINE_STUCK (R450). -/
  | lineStuck (group : Nat)
  /-- LINE_QUIET_EXPIRY (R452). -/
  | lineQuietExpiry (group : Nat)
  /-- BOOT_CLAIM_EXPIRY (R452). -/
  | bootClaimExpiry (group : Nat)
  /-- CHECK_GAP_SAMPLE (R453): the level read (true: low), the mode events of the same tick, and the bays whose VSNS is at
  power-good level, whether feed B conducts (R442), and the map and placement entries on the drives that the partner wrote (R326, R354). -/
  | checkGapSample (group : Nat) (low : Bool) (m : Moment) (powered : List Nat) (feedB : Option Bool) (area : AreaRead)
  /-- OUTPUT_HANDOVER_RELEASE (R467). -/
  | outputHandoverRelease (group : Nat)
  /-- TAKEOVER_ADMISSION_OPEN (R464). -/
  | takeoverAdmissionOpen (group : Nat)
  /-- TANDEM_FLIT_RECEIVE (R455): whether the CRC passes, the flit sequence, and how many of this side's flits its acknowledged sequence
  newly covers; what the flit carries is a command of its own. -/
  | tandemFlitReceive (crcOk : Bool) (seq acked : Nat)
  /-- TANDEM_LINK_UP (R456): the partner's side, federation and shelf identity, and the lanes trained (32 or 16). -/
  | tandemLinkUp (side : Bool) (fed shelf lanes : Nat)
  /-- TANDEM_FLIT_SILENCE (R456). -/
  | tandemFlitSilence
  /-- PEER_ALIVE_FALL (R456). -/
  | peerAliveFall
  /-- TANDEM_RETRAIN_TIMER (R456). -/
  | tandemRetrainTimer
  /-- TANDEM_ECHO_ARRIVAL (R458): the page, the SEQ the echo carries and the round trip in ns. -/
  | tandemEchoArrival (page seq ns : Nat)
  /-- ECHO_TIMEOUT (R26, R459): whose echo has not come. -/
  | echoTimeout (who : EchoWaiter)
  /-- CADENCE_TICK (R460): whether a valid frame arrived since the last tick. -/
  | cadenceTick (heard : Bool)
  /-- CADENCE_FRAME_RECEIVE (R460). -/
  | cadenceFrameReceive (crcOk : Bool) (f : FrameItems)
  /-- STANDING_MAP_RECEIVE (R463): the group, the map and placement entries received, and whether they are the last. -/
  | standingMapReceive (group : Nat) (entries : AreaRead) (last : Bool)
  /-- TANDEM_RELEASE_GROUP (R471): CDW10. -/
  | tandemReleaseGroup (c : Cid) (cdw10 : Nat) (m : Moment)
  /-- ABANDON_HANDBACK (R471): CDW10 and CDW11. -/
  | abandonHandback (c : Cid) (cdw10 cdw11 : Nat)
  /-- SVC_PERST_ASSERT (R480): SVC_PERST_L asserted, or a hot reset (false). -/
  | svcPerstAssert (pin : Bool)
  /-- SVC_LINK_UP (R474): the trained speed code and width. -/
  | svcLinkUp (gts width : Nat)
  /-- SVC_LINK_DOWN (R485). -/
  | svcLinkDown
  /-- BME_CLEAR (R479): the function, and its other configuration controls as the host leaves them. -/
  | bmeClear (fn : Nat) (cfg : FnCfg)
  /-- BME_SET (R479): as BME_CLEAR. -/
  | bmeSet (fn : Nat) (cfg : FnCfg)
  /-- BME_HOLD_EXPIRY (R479). -/
  | bmeHoldExpiry (fn : Nat)
  /-- FLR_INITIATE (R480). -/
  | flrInitiate (fn : Nat)
  /-- FLR_COMPLETE (R480). -/
  | flrComplete (fn : Nat)
  /-- MSIX_UNMASK (R481): the vector unmasked, and whether a new event on it lands in the same cycle. -/
  | msixUnmask (fn vec : Nat) (newEvent : Bool)
  /-- D3HOT_ENTRY (R482): the function, and PME_En of the same write. -/
  | d3hotEntry (fn : Nat) (pmeEn : Bool)
  /-- D0_RETURN (R482): the function, and PME_En of the same write. -/
  | d0Return (fn : Nat) (pmeEn : Bool)
  /-- MCTP_CONTROL (R483): the control command code (1 Set Endpoint ID, 2 Get Endpoint ID, 4 Get Version Support, 5 Get
  Message Type Support) and its argument. -/
  | mctpControl (cmd arg : Nat)
  /-- MCTP_SPDM (R483): the requesting endpoint, the message length and the request. -/
  | mctpSpdm (eid length : Nat) (req : SpdmReq)
  /-- MCTP_VENDOR_MANAGEMENT (R483): the endpoint, the data length the command needs, and the command. -/
  | mctpVendorManagement (eid dataLen opcode cid cdw10 cdw11 cdw12 cdw13 cdw14 : Nat) (m : Moment)
  /-- SERVICE_FUNCTION_BIND (R478): CDW10. -/
  | serviceFunctionBind (c : Cid) (cdw10 : Nat)
  /-- EVENT_QUEUE_DRAIN (R499). -/
  | eventQueueDrain
  /-- EVR_SUPPRESSED_SUMMARY (R500). -/
  | evrSuppressedSummary
  /-- EVENT_READ (R502): CDW10, CDW11 (first sequence) and CDW12 (count). -/
  | eventRead (c : Cid) (cdw10 cdw11 cdw12 : Nat)
  /-- EVR_WINDOW_READ (R501): a read of word 0 on a path. -/
  | evrWindowRead (path : Path)
  /-- CYC_FREEZE (R508): the word written to CYC_CTL. -/
  | cycFreeze (val : Word)
  /-- CYC_RESUME (R508): the word written to CYC_CTL. -/
  | cycResume (val : Word)
  /-- CYC_CLEAR_ALL (R516): the word written to CYC_CTL. -/
  | cycClearAll (val : Word)
  /-- FREEZE_PIN_EDGE (R508): whether the edge falls. -/
  | freezePinEdge (falling : Bool)
  /-- CYC_WINDOW_END (R507). -/
  | cycWindowEnd
  /-- FLIP_ARM (R496): the word written to MEM_FLIP_CTL. -/
  | flipArm (val : Word)
  /-- DRAM_SCRUB_LINE (R495): the region, the line's address, what its read finds and the pass's progress in percent. -/
  | dramScrubLine (region addr : Nat) (r : LineRead) (pct : Nat)
  /-- FIELD_LOCK (R510): CDW10. -/
  | fieldLock (c : Cid) (cdw10 : Nat)
  /-- PTB_ARM (R512): the injector and the word written to PTB_CFG. -/
  | ptbArm (injector : Nat) (val : Word)
  /-- PTB_DISARM (R512). -/
  | ptbDisarm (injector : Nat) (val : Word)
  /-- INJECTOR_RELEASE (R512): the injector, and the item it releases. -/
  | injectorRelease (injector item : Nat)
  /-- PTB_CAPTURE_READ (R516): a read of PTB_CAP_DATA0 on a path. -/
  | ptbCaptureRead (path : Path)
  /-- TEMP_WARNING (R541): the die, its temperature, and whether it has stayed 5 °C below its warning level for 10 s since the last
  TEMP_HIGH. -/
  | tempWarning (die : Die) (tempC : Nat) (rearmed : Bool)
  /-- TEMP_SHUTDOWN_LIMIT (R541). -/
  | tempShutdownLimit (die : Die) (m : Moment)
  /-- LOGIC_HARDWARE_TRIP (R541). -/
  | logicHardwareTrip
  /-- BAY_HARDWARE_TRIP (R541). -/
  | bayHardwareTrip
  /-- RAIL_MONITOR_TRIP (R527): the rail (0 VDD_CORE, 1 VDD_SDS, 2 VDD_COC, 3 VDD_COCH). -/
  | railMonitorTrip (rail : Nat) (m : Moment)
  /-- REFCLK_LOSS (R535): the PLLs affected. -/
  | refclkLoss (plls : BitVec 4) (m : Moment)
  /-- REFCLK_RESTORED (R535). -/
  | refclkRestored (m : Moment)
  /-- PLL_LOCK_LOST (R518): the PLL, 0 Ethernet, 1 spokes, 2 tandem, 3 service port. -/
  | pllLockLost (pll : Nat)
  /-- JTAG_BYPASS (R539). -/
  | jtagBypass
  /-- JTAG_IDCODE (R539). -/
  | jtagIdcode
  /-- JTAG_SAMPLE_PRELOAD (R539). -/
  | jtagSamplePreload
  /-- JTAG_EXTEST (R539). -/
  | jtagExtest
  /-- JTAG_CLAMP (R539). -/
  | jtagClamp
  /-- MGMT_PORT_LINK_UP (R152). -/
  | mgmtPortLinkUp
  /-- MGMT_PORT_LINK_DOWN (R152). -/
  | mgmtPortLinkDown
  /-- PEER_ALIVE_RISE (R447). -/
  | peerAliveRise
  /-- REMIRROR_RETRY_TIMER (R459): the group. -/
  | remirrorRetryTimer (group : Nat)
  /-- FLUSH_AGE_EXPIRY (R300): the chunk and stripe whose oldest page has aged. -/
  | flushAgeExpiry (chunk stripe : Nat)
  /-- OWNER_AUTH_VERIFICATION_DONE (R115): the verdicts. -/
  | ownerAuthVerificationDone (v : AuthVerdict)
  /-- SVC_PERST_RELEASE (R482). -/
  | svcPerstRelease
  /-- SVC_NVME_REGISTER_WRITE (R477): the function, the byte offset within its controller registers and the value. -/
  | svcNvmeRegisterWrite (fn off : Nat) (val : Word)
  /-- SVC_DMA_READ_COMPLETION (R479): the function, the instar tag the completion bears, the command it serves and whether
  it carries UR or CA status. -/
  | svcDmaReadCompletion (fn tag : Nat) (what : DmaRead) (urca : Bool)
  /-- CSTS_RDY_REACHED (R417). -/
  | cstsRdyReached (spoke : Nat)
  /-- CSTS_RDY_CLEARED (R422). -/
  | cstsRdyCleared (spoke : Nat)
  /-- CSTS_CFS_SET (R421). -/
  | cstsCfsSet (spoke : Nat)
  /-- DRIVE_ADMIN_COMMAND_TIMEOUT (R421). -/
  | driveAdminCommandTimeout (spoke : Nat)
  deriving DecidableEq, Repr

end Sys2Proof
end

