-- ==== Sys2Proof/Decode.lean ====
section
/-! DEFINITION. The decoder of the table of operations and events. No row of the table gives bits: a command of this block
reaches it as a register access, a packet, a capsule, a pin or a timer, and its operands are read where its family's meaning
reads them. So no word spells a command. -/

namespace Sys2Proof

/-- The command a word of the table's bits spells: none, since no row of the table gives bits. -/
def decodeTableWord (_nbits _w : Nat) : Option Instr := none

end Sys2Proof
end

