-- ==== Sys2Proof/Config.lean ====
section
/-! DEFINITION. What the spec leaves to the part or to chance: constants without a body, so that no proof can see a value of
them (assumption log 4). -/

namespace Sys2Proof.Config

/-- A fresh random or unstated value: the n-th free value the machine takes (nonces, random starting PSNs, unstated
results). The counter it is applied to is `State.freeCtr`. -/
opaque freeValue : Nat → Nat

/-- SHA-384 of a string of numbers (bytes or fields), as a number (R547 takes its low 64 bits). -/
opaque sha384 : List Nat → Nat

/-- The device identity's Ed25519 signature of a message (R106). -/
opaque signEd : List Nat → Nat

/-- The device identity's ML-DSA-65 signature of a message (R106). -/
opaque signMl : List Nat → Nat

/-- The device identity's Ed25519 public key (R108). -/
opaque identityEd : Nat

/-- The device identity's ML-DSA-65 public key (R108). -/
opaque identityMl : Nat

/-- Measurement 1: the digest of the boot ROM and trust-engine ROM, which Aceaga publishes (R118). -/
opaque romDigest : Nat

/-- The certificate chain of SPDM slot 0, as bytes in OTP (R108, R109). -/
opaque certChain : List Nat

/-- Aceaga's PCI-SIG vendor ID, 16 bits (R129, R475). -/
opaque vendorId : Nat

/-- AES-256-GCM of a data block under a key and a nonce: the ciphertext (chapter 11). -/
opaque gcmSeal : Nat → Nat → Nat → Nat

/-- The authentication tag of that operation. -/
opaque gcmTag : Nat → Nat → Nat → Nat

/-- The QPN generation of a context at a Boot, less 1 and modulo 255: random at each Boot (R159). -/
opaque qpnStart : Nat → Nat → Nat

/-- A step of the built-in ROM by its index: the spec gives the lists 256 to 263 but not where each lies in the ROM, and not the
steps of 264 to 266 (log 12). -/
opaque romStep : Nat → Nat

/-- The number that an event carries for a cause, a trigger, a direction or a first status that the spec names and does not number:
of the event's number and the model's own label of the thing. -/
opaque code : Nat → Nat → Nat

/-- The base of the 33 MAC addresses in OTP, 48 bits (R155). -/
opaque macBase : Nat

/-- The words of an outgoing IPv4 header whose values the spec leaves open: identification (0), flags and fragment offset (1), time to live and
protocol (2), by the word and the timebase (R146). -/
opaque ipWord : Nat → Nat → Nat

end Sys2Proof.Config
end

