-- ==== Sys2Proof/Machine/State.lean ====
section
/-! DEFINITION. The state of the machine as plain data. Every field's docstring gives its width, the rules of spec/ that name
it and its reset value: a bare value is the spec's, `D1 v` is the design choice of assumption log 1 (the spec gives none),
`M v` marks the model's own bookkeeping (assumption log 2). The default of each field is its reset value. -/

namespace Sys2Proof.Machine

/-- Why a step stops with a fault. -/
inductive Fault where
  /-- Raised when a command names an instance that the spec says does not exist (a ninth port, a spoke above 63): the
  outside world cannot send it. Safe: the machine stops, and no claim about a next state follows. -/
  | noSuchInstance (what : String)
  deriving DecidableEq, Repr

/-- Why a step refuses a command. -/
inductive Refusal where
  /-- Raised by the dispatch of a command that has no meaning yet, under its mnemonic. Safe: nothing follows from it. -/
  | notModelled (mnemonic : String)
  deriving DecidableEq, Repr

/-- The six device modes (R45). -/
inductive Mode where
  | held | boot | standby | active | drain | safe
  deriving DecidableEq, Repr

/-- The pairing state (R51). -/
inductive Pair where
  | solo | paired | degraded
  deriving DecidableEq, Repr

/-- The reason for a drain (R72). -/
inductive DrainReason where
  | none | activation | shutdown | powerFail
  deriving DecidableEq, Repr

/-- The generation number of a resettable object (R37 to R41). -/
structure Instar where
  /-- 16; R37 R41; 0. -/
  val      : BitVec 16 := 0
  /-- 64; R39; M none. The timebase of the last bump. -/
  lastBump : Option Nat := none
  /-- 16; R39; M 0. The bumps that the spacing rule holds back. -/
  pending  : Nat := 0
  /-- 1; R37; M false. The first discard since the last bump has been reported. -/
  reported : Bool := false
  deriving DecidableEq, Repr

/-- A completion status of the controller: the NVMe statuses it returns and the vendor statuses of R545. -/
inductive Status where
  | success
  | invalidOpcode | invalidField | invalidNs | cidConflict | sglTypeInvalid | featureNotChangeable
  | connectInvalidParams | connectInvalidHost | compareFailure | unrecoveredRead
  | guardCheck | appTagCheck | refTagCheck | nsAlreadyAttached | nsNotAttached
  | dataTransferError | internalError | abortRequested | abortSqDeletion | abortLimit | controllerBusy
  | authRequired | sanitizeInProgress | formatInProgress | commandInterrupted | nsNotReady
  | anaInaccessible | anaTransition | lbaOutOfRange | aerLimit
  | vendor (code : Nat)
  /-- A status an image list names in the immediate of FAIL or CPL: SCT and SC (R251). -/
  | nvme (sct sc : Nat)
  deriving DecidableEq, Repr

/-- The responses of the SPDM responder (R128). -/
inductive SpdmRsp where
  | version | capabilities | algorithms | digests | certificate | challengeAuth | measurements
  | errorUnsupported | errorInvalid | errorBusy
  deriving DecidableEq, Repr

/-- What the controller sends out: the items its commands give to the world outside, newest first in `State.out`. -/
inductive Out where
  /-- The trust engine or the boot code checks a signature: the algorithm (0 Ed25519, 1 ML-DSA-65), the key, the message and the signature
  (R85, R86, R112, R114). The verdict comes back as an operand of the command (log 3). -/
  | verify (alg : Nat) (key msg sig : List Nat)
  /-- A completion: to whom, its status, DNR, DW0 and the data it returns (R520, R545). -/
  | reply (c : Cid) (st : Status) (dnr : Bool) (dw0 : Nat) (data : List Nat)
  /-- A register access at BAR0 answered with its value. -/
  | readData (v : Word)
  /-- An Unsupported Request at BAR0 (R6). -/
  | unsupportedRequest
  /-- An MSI-X message of a function (R481). -/
  | msix (fn vec : Nat)
  /-- A PM_PME message of a function (R482). -/
  | pme (fn : Nat)
  /-- An SPDM response to an endpoint, and its fields in order (R128, R129). -/
  | spdm (ep : Origin) (r : SpdmRsp) (fields : List Nat)
  /-- An MCTP response: its type and its fields. -/
  | mctp (typ : Nat) (fields : List Nat)
  /-- A JTAG scan-out (R539); `none` is a refused instruction. -/
  | jtag (v : Option Nat)
  /-- An RDMA packet sent on a queue pair: kind, PSN and further fields. -/
  | packet (qp kind psn : Nat) (fields : List Nat)
  /-- The data buffer of a command handed to the transport as RDMA WRITE (R253): queue pair, address, R_Key and the blocks. -/
  | hostWrite (qp va rkey : Nat) (data : List Blk)
  /-- An Ethernet frame sent on sub-port 4 x port + sub-port: its kind (4,096 + traffic class, or a PFC frame), its length and its fields
  (R142, R143, R146). -/
  | frame (subport kind len : Nat) (fields : List Nat)
  /-- Autonegotiation and training begin on a sub-port (R136 to R138): whether Clause 73 autonegotiation runs first, the PMD as the MODE it
  belongs to, with RS(544,514) FEC, and the lanes. -/
  | train (subport : Nat) (an : Bool) (pmd : Nat) (lanes : List Nat)
  /-- A received frame is handed to the management cores: its sub-port (32 the management port) and its EtherType (R139, R152). -/
  | cores (subport ety : Nat)
  /-- What the controller does on an ownership line (R449, R453): 0 drives it, 1 releases it, 2 a heartbeat gap, 3 a check gap. -/
  | line (group kind : Nat)
  /-- A message on the tandem link: kind and fields. -/
  | tandem (kind : Nat) (fields : List Nat)
  /-- A command or control action to a drive or its spoke: kind and fields. -/
  | drive (spoke kind : Nat) (fields : List Nat)
  /-- A Porpor message to a federation member: kind and fields. -/
  | porpor (member kind : Nat) (fields : List Nat)
  /-- The indicator bits of a scan frame that are lit: 3 x bay + 0 attention, 1 power, 2 fault (R408). -/
  | scan (lit : List Nat)
  /-- An asynchronous event notice of a controller: its type and information. -/
  | aen (org : Origin) (info log : Nat)
  deriving DecidableEq, Repr

/-- The `GBL` block and start-up (chapters 02, 19, 20). -/
structure Glb where
  /-- 3; R45 R72; 0 (Held at power-on; GBL_MODE reads 1 as soon as it can be read, R46). -/
  mode        : Mode := .held
  /-- 2; R51 R72; 0. -/
  pair        : Pair := .solo
  /-- 3; R72; 0. -/
  drainReason : DrainReason := .none
  /-- 3; R47 R49; M standby. The mode held before Drain (activation). -/
  drainReturn : Mode := .standby
  /-- 1; R72; 0. -/
  bootHalted  : Bool := false
  /-- 2; R73; 0. GBL_MODE_REQ STATUS. -/
  reqStatus   : Nat := 0
  /-- 3; R75; 0 (power-on). -/
  resetCause  : Nat := 0
  /-- 4; R76; 1. -/
  bootStep    : Nat := 1
  /-- 1; R76; 0. -/
  bootSlot    : Nat := 0
  /-- 1; R76; 0. -/
  fallback    : Bool := false
  /-- 1; R76; 0. -/
  unformatted : Bool := false
  /-- 1; R76; 0. -/
  transientSeen : Bool := false
  /-- 16; R76; 0. -/
  bootMs      : Nat := 0
  /-- 8; R77; 0. -/
  safeCause   : Nat := 0
  /-- 16; R77; 0. -/
  safeDetail  : Nat := 0
  /-- 2; R78 R538; D1 0 (strap). The straps of the last sample. -/
  straps      : Straps := ⟨false, false, false⟩
  /-- 1; R7 R53; 0. -/
  bootLock    : Bool := false
  /-- 1; R57; M false. The current stage has exceeded its limit once. -/
  stageLate   : Bool := false
  /-- 1; R88; M false. The slot that is tried has been read twice. -/
  reread      : Bool := false
  /-- 4; R65 R88; M 0. The step at which slot A was rejected in this Boot, 0 when it was not. -/
  failA       : Nat := 0
  /-- 4; R65 R88; M 0. As `failA`, for slot B. -/
  failB       : Nat := 0
  /-- 1; R88 R89; M false. Slot A failed only on anti-rollback in this Boot. -/
  rollA       : Bool := false
  /-- 1; R88 R89; M false. As `rollA`, for slot B. -/
  rollB       : Bool := false
  /-- 1; R88; M false. Densities and headers of the NOR have been read in this Boot. -/
  norRead     : Bool := false
  /-- 1; R57 R62; M false. Step 9 runs and its limit counts: from Standby, or from the completion of Format Cocoon, until the first
  acquisition. -/
  step9       : Bool := false
  /-- 1; R61 R308; M false. The DRAM sweep of step 7 is done. -/
  sweepDone   : Bool := false
  /-- R61 R308; M none. The recovery scan has ended and its results wait for the DRAM regions to be initialised. -/
  scanWait    : Option ScanReport := none
  /-- 1; R308; M false. The recovery scan of step 7 is done. -/
  scanDone    : Bool := false
  /-- 1; R47; 1 asserted. The filtered level of PWRON_L (true: asserted). -/
  pwronL      : Bool := true
  /-- 1; R67 R71; M false. PWRFAIL_L is asserted, or its actions are being held. -/
  pwrfail     : Bool := false
  /-- 1; R535; M false. REFCLK has been lost. -/
  refclkLost  : Bool := false
  /-- 1; R541; M false. Held by a logic-die hardware trip until PWRON_L is asserted. -/
  tripHeld    : Bool := false
  /-- 1; R58; M false. The last reset was a watchdog reset. -/
  wdOnce      : Bool := false
  /-- 64; R58 R493; M 0. Timebase ticks spent in Standby or Active since the last reset. -/
  runTicks    : Nat := 0
  /-- 1; R493; M false. The last reset followed a firmware-data poison. -/
  fwPoison    : Bool := false
  /-- 4; R518; 0. GBL_CLK_STATUS LOCK. -/
  clkLock     : BitVec 4 := 0
  /-- 4; R518; 0. GBL_CLK_STATUS LOST. -/
  clkLost     : BitVec 4 := 0
  /-- 8; R518; 0. GBL_TEMP LOGIC_C. -/
  tempLogic   : BitVec 8 := 0
  /-- 8; R518; 0. GBL_TEMP BAY_C. -/
  tempBay     : BitVec 8 := 0
  /-- 8; R518; 0. GBL_TEMP LOGIC_MAX_C. -/
  tempMax     : BitVec 8 := 0
  /-- 1; R541; M false. The logic-die warning has been written and not re-armed. -/
  warnLogic   : Bool := false
  /-- 1; R541; M false. As `warnLogic`, for the bay die. -/
  warnBay     : Bool := false
  deriving DecidableEq, Repr

/-- A value held by a snapshot (R11, R521): the instance it belongs to, and whether an atomic read took it. -/
structure Snap where
  atomic : Bool := false
  inst   : Nat := 0
  val    : Nat := 0
  deriving DecidableEq, Repr

/-- The register file: the registers that hold what was written or counted, keyed by offset + 2^20 x instance. -/
structure Regs where
  /-- 32 each; R6 R517; 0. Every RW register, select registers included, as last written. -/
  rw   : Tbl Nat := []
  /-- 32 each; R10 R517; 0. Every RC counter. -/
  rc   : Tbl Nat := []
  /-- 32 each; R6 R517; 0. Every W1C register. -/
  w1c  : Tbl Nat := []
  /-- 32 each; R12; none. The `_HI` value each path holds, keyed by offset + 2^20 x path. -/
  held : Tbl (Option Nat) := []
  /-- 32 each; R11 R521; none. The snapshots each path holds, keyed as `held`. -/
  snap : Tbl (Option Snap) := []
  deriving DecidableEq, Repr

/-- An image staging session (R101, R102). -/
structure Session where
  /-- The agent that opened it. -/
  owner  : Origin
  /-- The 64 header bytes held in the controller, none before they are written. -/
  header : List Byte
  /-- Timebase of the last Image Stage Write or commit. -/
  last   : Nat
  deriving DecidableEq, Repr

/-- The xSPI NOR and the staging session (R79 to R103). -/
structure Nor where
  /-- 8 each; R79; D1 0xFF (erased; kept by every reset). Slot bytes, keyed by offset + 2^26 x slot. -/
  flash   : List Host.Cell := []
  /-- 40; R79; M none. The size of slot A found from SFDP, none when the slot is unreadable. -/
  sizeA   : Option Nat := none
  /-- 40; R79; M none. As `sizeA`, for slot B. -/
  sizeB   : Option Nat := none
  /-- 1 each; R88; M true. The header of slot A, then of slot B, could be read. -/
  hdrA    : Bool := true
  /-- 1; R88; M true. As `hdrA`, for slot B. -/
  hdrB    : Bool := true
  /-- 64; R101 R102; no session. -/
  session : Option Session := none
  /-- 1; R105; M false. An image has been committed since Boot to the slot that is not running. -/
  committed : Bool := false
  /-- R105 R126; M none. The Image Activate command of the live activation under way. -/
  activating : Option Cid := none
  deriving DecidableEq, Repr

/-- What the running image configured (R81 to R105). -/
structure Cfg where
  /-- 1; R86; M false. An image has verified in this Boot. -/
  valid    : Bool := false
  /-- 64 x 8; R81; empty. The running image's header bytes. -/
  header   : List Byte := []
  /-- list; R83; empty. The running image's sections in table order: type, image offset and bytes. -/
  sections : List (Nat × Nat × List Byte) := []
  /-- 384; R85 R121; M 0. The R85 digest of the image that runs. -/
  digest   : Nat := 0
  /-- 1; R84; M true. The ROM firmware runs. -/
  romFw    : Bool := true
  deriving DecidableEq, Repr

/-- One owner key slot in OTP (R110). -/
structure OwnerSlot where
  /-- 1; R110; D1 0 (OTP as from the factory; kept by every reset). -/
  enrolled : Bool := false
  /-- 1; R110; D1 0. -/
  void     : Bool := false
  /-- 256; R110; D1 blank. The Ed25519 key. -/
  ed       : List Byte := []
  /-- 15,616; R110; D1 blank. The ML-DSA-65 key. -/
  ml       : List Byte := []
  /-- 1; R110; M true. The keys match the digest burned with them. -/
  keysOk   : Bool := true
  deriving DecidableEq, Repr

/-- A boot record (R121): its fields; its signatures and CRC are computed from them. -/
structure BootRec where
  rtype    : Nat := 1
  outcome  : Nat := 0
  index    : Nat := 0
  cycles   : Nat := 0
  odometer : Nat := 0
  timebase : Nat := 0
  safeCause : Nat := 0
  safeDetail : Nat := 0
  bootMs   : Nat := 0
  flags    : Nat := 0
  straps   : Nat := 0
  svn      : Nat := 0
  minSvn   : Nat := 0
  keySlot  : Nat := 0
  owners   : Nat := 0
  seq      : Nat := 0
  version  : Nat := 0
  prev     : Nat := 0
  digest   : Nat := 0
  meas     : List Nat := []
  priorSeq : Nat := 0
  priorSlot : Nat := 0
  deriving DecidableEq, Repr

/-- One slot of the boot region (R124, R125, R133): all zeros, a valid record, a torn record, or any of these with lines (0 to 63) that the
strong code cannot correct. -/
inductive BootSlot where
  | zero
  | record (r : BootRec)
  | torn
  | bad (of_ : BootSlot) (lines : List Nat)
  deriving DecidableEq, Repr

/-- An owner operation under way (R114, R115). -/
structure AuthOp where
  op      : Nat
  target  : Nat
  signer  : Nat
  value   : Nat
  burning : Bool
  /-- The new keys, taken from TRS_BUF when the operation is written (R113, R116). -/
  ed      : List Byte
  ml      : List Byte
  deriving DecidableEq, Repr

/-- An SPDM transcript context (R131). -/
structure SpdmCtx where
  /-- The endpoint it belongs to. -/
  ep     : Origin
  /-- The transcript: the codes, operands and fields of the requests and responses exchanged since GET_VERSION. -/
  script : List Nat
  /-- Timebase of the last request. -/
  last   : Nat
  deriving DecidableEq, Repr

/-- The trust engine, its OTP, the boot region and SPDM (chapter 04). -/
structure Trs where
  /-- 4 slots; R110; D1 empty (factory; kept by every reset). -/
  owner   : Tbl OwnerSlot := []
  /-- 256 x 16; R117; D1 none burned (kept by every reset). The burned entries of the SVN bank, oldest first. -/
  svnBank : List Nat := []
  /-- 1; R510 R516; D1 0 (OTP; kept by every reset). The field lock. -/
  fieldLock : Bool := false
  /-- 64; R112 R132; random at Boot (D1 0 in Held). The authorization nonce. -/
  nonce   : BitVec 64 := 0
  /-- 8 KiB; R113 R134; 0. TRS_BUF. -/
  buf     : List Host.Cell := []
  /-- 1; R132; 0 (no operation). TRS_AUTH_STATUS BUSY with the operation that runs. -/
  busy    : Option AuthOp := none
  /-- 4; R132; 0. TRS_AUTH_STATUS RESULT. -/
  result  : Nat := 0
  /-- 8 x 384; R118; 0. The measurements, index 1 first. -/
  meas    : List Nat := [0, 0, 0, 0, 0, 0, 0, 0]
  /-- 4,096 x 4 KiB; R124; all zeros (kept by every reset, R53). The boot region in the cocoon. -/
  region  : Tbl BootSlot := []
  /-- 4 KiB; R62 R123 R127; none. The record held in on-chip memory. -/
  heldRec : Option BootRec := none
  /-- 8 contexts; R131; none open. -/
  spdm    : List SpdmCtx := []
  deriving DecidableEq, Repr

/-- One Ethernet sub-port (chapter 05), numbered 4 x port + sub-port. -/
structure SubPort where
  /-- 1; R138 R155; 0. -/
  up       : Bool := false
  /-- 1; R138 R155; 0. -/
  training : Bool := false
  /-- 2; R138; M 0. Failed training attempts since the link was last up. -/
  fails    : Nat := 0
  /-- 4 x (1 + 128); R141; empty. The address slots: family (true IPv6) and address, by slot. -/
  addrs    : Tbl (Option (Bool × Nat)) := []
  /-- 8; R143 R155; 0. The paused priorities with the quanta that remain as given. -/
  paused   : Tbl Nat := []
  /-- 8; R144; M empty. The priorities whose watchdog has fired and that drop. -/
  storm    : List Nat := []
  /-- 1; R139; M false. An 802.3x pause has been reported since the last link-up. -/
  pauseRep : Bool := false
  deriving DecidableEq, Repr

/-- One MACsec secure channel of a port (R147 to R151). -/
structure SecChan where
  /-- 2; R147; M 0. The sub-port it is bound to. -/
  sub    : Nat := 0
  /-- 2; R147; none. AN and next PN of the transmit SA. -/
  tx     : Option (Nat × Nat) := none
  /-- 1; R150; M false. The transmit SA has sent its last PN. -/
  spent  : Bool := false
  /-- 2 x (2 + 64); R147 R149; none. The receive SAs: AN and next expected PN. -/
  rx     : List (Nat × Nat) := []
  deriving DecidableEq, Repr

/-- The port complex. -/
structure Prt where
  /-- 32; R136; each at its reset value. -/
  subs : Tbl SubPort := []
  /-- 256; R147; each at its reset value. Keyed 32 x port + SC. -/
  scs  : Tbl SecChan := []
  /-- 8 x 64; R140; M 0. The second of the timebase the counts of `mgmtCnt` belong to. -/
  mgmtSec : Nat := 0
  /-- 8 x 14; R140; M 0. Frames passed to the management cores in that second, by port. -/
  mgmtCnt : Tbl Nat := []
  /-- 8; R140; M empty. Ports whose rate drop has been reported in that second. -/
  mgmtRep : List Nat := []
  /-- 1; R152; D1 0. The management port's link. -/
  mgmtUp : Bool := false
  deriving DecidableEq, Repr

/-- A frame in an ingress queue (R377, R378, R399). -/
structure InFrame where
  cells : Nat
  /-- Its cells lie in the DRAM overflow pool. -/
  ovf   : Bool
  stamp : Nat
  deriving DecidableEq, Repr

/-- An ingress queue: one priority of one sub-port (R377). -/
structure IngQ where
  /-- R377; empty. -/
  frames : List InFrame := []
  /-- 1; R377; M false. XOFF has been sent and XON not yet. -/
  xoff   : Bool := false
  deriving DecidableEq, Repr

/-- What an outbound frame is (R389, R390): `mgmt` and `eapol` are the management cores' own. -/
inductive TxKind where
  | data | readReq | completion | ack | nak | cnp | readResp | mgmt | eapol
  deriving DecidableEq, Repr

/-- A frame in an egress class queue (R389 to R391). -/
structure TxFrame where
  qp    : Nat := 0
  vss   : Nat := 0
  kind  : TxKind := .data
  psn   : Nat := 0
  len   : Nat := 0
  /-- RoCEv2 payload length, the DRR cost. -/
  cost  : Nat := 0
  /-- ECN: Not-ECT frames are never marked. -/
  ect   : Bool := true
  ce    : Bool := false
  /-- The derailleur bucket and the version it looked up (R42, R384). -/
  bucket : Option (Nat × Nat) := none
  stamp : Nat := 0
  deriving DecidableEq, Repr

/-- An entry of a versioned match table (R42 to R44, R268, R269): the version in force with the references on it, and the old
versions still held. -/
structure VEnt (α : Type) where
  ver  : Nat
  refs : Nat
  cur  : α
  old  : List (Nat × Nat × α)
  deriving DecidableEq, Repr

/-- A derailleur bucket (R383 to R386): the sub-port it names and its initial member. -/
structure Bucket where
  sub   : Nat
  init  : Nat
  deriving DecidableEq, Repr

/-- The switch core (chapter 13). -/
structure Swc where
  /-- 20; R376 R402; set at Boot (M 524,288). -/
  shared  : Nat := 524288
  /-- 5 x 17; R395 R402; floor size (M 0 before the image is configured). Free cells of the floors, class 1 first. -/
  floors  : List Nat := [0, 0, 0, 0, 0]
  /-- 5 x 17; R395 R398; M 0. The floor sizes in force. -/
  floorSz : List Nat := [0, 0, 0, 0, 0]
  /-- 19; R376 R382; 0. Free cells of pool 0. -/
  pool0   : Nat := 0
  /-- 27; R378 R402; 0. Overflow cells in use. -/
  ovfUsed : Nat := 0
  /-- 27; R378; M 0. Size of the overflow pool in cells. -/
  ovfSize : Nat := 0
  /-- 1; R378 R402; 0. -/
  ovfOn   : Bool := false
  /-- 64, 17; R378; M 0. Bytes written to and read from overflow in a microsecond: its number since Boot, and the bytes. -/
  ovfUs   : Nat := 0
  ovfMoved : Nat := 0
  /-- 1; R396; M false. SWC_CONGESTED has been written and not re-armed. -/
  congRep : Bool := false
  /-- 256; R377; each at its reset value. Keyed 8 x sub-port + priority. -/
  ing     : Tbl IngQ := []
  /-- 128 queues; R389; empty. Keyed 4 x sub-port + traffic class. -/
  eg      : Tbl (List TxFrame) := []
  /-- 32 x 2; R390; M 0. Bytes sent of class 2 and of class 1 since both were last backlogged, by sub-port. -/
  wrr2    : Tbl Nat := []
  wrr1    : Tbl Nat := []
  /-- 32; R390; M 0. Bytes of class 3 sent in the current millisecond: stamp x 2^20 + bytes. -/
  tc3     : Tbl Nat := []
  /-- 4,096; R268 R383; empty. The derailleur table. -/
  derail  : Tbl (Option (VEnt Bucket)) := []
  /-- 4,096 x 64; R386; M 0. The timebase each bucket was last used. -/
  used    : Tbl Nat := []
  /-- 16; R402; 0. Audit passes since Boot. -/
  passes  : Nat := 0
  /-- list; R388 R402; 0. The cells marked by the last pass. -/
  marked  : List Nat := []
  deriving DecidableEq, Repr

/-- The scheduler (chapter 13). -/
structure Sch where
  /-- 33 lists; R391; empty. The tenants active at each point, in order: 0 fetch, sub-port + 1 egress. -/
  active  : Tbl (List Nat) := []
  /-- 33 x 4,095 x 32; R391 R403; 0. Deficits, keyed 4,096 x point + VSS. -/
  deficit : Tbl Int := []
  /-- 33; R391; M false. The tenant at the head of a point's list has had its quantum of this turn. -/
  turn    : List Nat := []
  /-- 4,095; R392 R403; full at creation. Shaper buckets in 1/1,024 bytes. -/
  tokens  : Tbl Int := []
  /-- list; R394 R403; 0. Marks of the share changes not yet in full effect: 4,096 + tenant until the next refill, 4,096 x (point + 2) + tenant until the next turn at a point. -/
  change  : List Nat := []
  /-- 16; R393; full (D1). Policer buckets in 1/1,024 bytes, as the amount below full. -/
  polDebt : Tbl Nat := []
  /-- 16 x 64; R393; M 0. The second in which each policer last reported, plus 1. -/
  polSec  : Tbl Nat := []
  /-- 16; R393; M 0. Drops since that report. -/
  polCnt  : Tbl Nat := []
  deriving DecidableEq, Repr

/-- The states of a queue pair (R164), coded as QP_STATE STATE. -/
inductive QpState where
  | reset | init | rtr | rts | error
  deriving DecidableEq, Repr

/-- What a message of the send side is (R176, R389). -/
inductive MsgKind where
  | send | write | writeImm | read
  deriving DecidableEq, Repr

/-- A message waiting to be sent or not yet acknowledged (R171, R172). -/
structure Msg where
  kind : MsgKind := .send
  len  : Nat := 0
  va   : Nat := 0
  rkey : Nat := 0
  imm  : Nat := 0
  /-- It is of the completion class (R181, R389). -/
  cpl  : Bool := false
  /-- The context it serves, if any; a fetch of a tenant queue carries its key. -/
  ctx  : Option Nat := none
  fetch : Option Nat := none
  /-- It is the response to an Abort (R214). -/
  abort : Bool := false
  /-- Bytes already handed to the port. -/
  sent : Nat := 0
  /-- Timebase at which it was handed to the transport: its lifetime counts from there (R174). -/
  at_  : Nat := 0
  deriving DecidableEq, Repr

/-- A packet sent and retained until acknowledged (R172). -/
structure Pkt where
  psn   : Nat
  /-- PSNs it covers: the response packets of a read, else 1. -/
  span  : Nat
  len   : Nat
  kind  : MsgKind
  va    : Nat
  cpl   : Bool
  ctx   : Option Nat
  fetch : Option Nat
  /-- It is the first, and the last, packet of its message (R156). -/
  first : Bool
  last  : Bool
  /-- Timebase at which its message was handed to the transport (R174). -/
  at_   : Nat
  cells : Nat
  /-- The R_Key, the message's length, and the immediate, which a resent packet carries as the original did (R172). -/
  rkey  : Nat
  mlen  : Nat
  imm   : Nat
  /-- The dirty-log slot it was last handed to the port under (R183, R184). -/
  slot  : Nat
  deriving DecidableEq, Repr

/-- An inbound SEND or RDMA WRITE message whose first packet has been executed (R169, R170, R177, R178). -/
structure InMsg where
  /-- 24. The PSN of its first packet. -/
  psn   : Nat
  /-- A SEND. -/
  send  : Bool
  /-- Bytes received, and the length of the RETH. -/
  got   : Nat := 0
  len   : Nat := 0
  rkey  : Nat := 0
  va    : Nat := 0
  /-- The immediate, once the last packet has brought it. -/
  imm   : Option Nat := none
  /-- The peer window it matched and the version of it (R42, R178). -/
  win   : Option (Nat × Nat) := none
  /-- Packet-buffer cells of its packets (R30). -/
  cells : Nat := 0
  /-- Its last packet has been executed. -/
  whole : Bool := false
  /-- The front end has acted on its header (R23). -/
  taken : Bool := false
  /-- The command context that its payload belongs to. -/
  ctx   : Option Nat := none
  /-- The head of a capsule or a push. -/
  cap   : Option CapHdr := none
  deriving DecidableEq, Repr

/-- An entry of the read history (R167). -/
structure HistEnt where
  psn  : Nat
  /-- Response packets. -/
  span : Nat
  len  : Nat
  rkey : Nat
  va   : Nat
  /-- The window and the version of it that the request matched. -/
  win  : Nat
  ver  : Nat
  deriving DecidableEq, Repr

/-- A read response packet that waits to be sent (R181). -/
structure Resp where
  op  : Nat
  psn : Nat
  len : Nat
  deriving DecidableEq, Repr

/-- A queue-pair context (chapter 06). -/
structure Qp where
  /-- 3; R164 R190; 0. -/
  state  : QpState := .reset
  /-- 2; R176 R190; 0. -/
  kind   : Nat := 0
  /-- 16; R38 R190; 0. -/
  instar : Instar := {}
  /-- 8; R159; random 1-255 at each Boot (the start is `Config.qpnStart`). Bumps of the generation since Boot. -/
  gens   : Nat := 0
  /-- 24; R190; 0. -/
  rqpn   : Nat := 0
  /-- 128; R157; D1 0. Remote address. -/
  rip    : Nat := 0
  /-- 3; R158 R190; 0. Path MTU code. -/
  pmtu   : Nat := 0
  /-- 5; R383; M 0. The sub-port its REQ arrived on. -/
  sub    : Nat := 0
  /-- 24; R166 R190; 0. -/
  epsn   : Nat := 0
  /-- 24; R168; M 0. -/
  msn    : Nat := 0
  /-- 1; R166; M false. A sequence NAK has been sent since the last executed packet. -/
  nakSent : Bool := false
  /-- 7; R168; M 0. Packets executed since the last ACK. -/
  ackPend : Nat := 0
  /-- 24; R168; M 0. The PSN of the oldest executed packet that no ACK covers. -/
  ackFrom : Nat := 0
  /-- 1; R168 R169; M false. A packet with AckReq set waits for the front end's decision on its message. -/
  ackDue  : Bool := false
  /-- list; R169 R170 R177 R178; M empty. The inbound messages in progress or not yet taken by their owner, oldest first. -/
  inMsgs : List InMsg := []
  /-- 16; R167; empty. The read history, oldest first. -/
  hist   : List HistEnt := []
  /-- list; R181; empty. Read response packets that wait to be sent. -/
  respq  : List Resp := []
  /-- 24; R190; 0. -/
  next   : Nat := 0
  /-- list; R172 R190; empty. Packets not yet acknowledged, oldest first; QP_UNACKED_PSN is the first one's PSN. -/
  unacked : List Pkt := []
  /-- 10; R173; M 0. Packets of `unacked` that are to be sent again. -/
  resend : Nat := 0
  /-- list; R171; empty. Messages waiting, oldest first. -/
  sendq  : List Msg := []
  /-- 3; R173 R190; 0. -/
  retry  : Nat := 0
  /-- 3; R173 R190; 0. -/
  rnr    : Nat := 0
  /-- 1; R173; M false. An RNR wait runs. -/
  rnrWait : Bool := false
  /-- 24; R173; M none. The PSN the previous NAK named, with no advance since. -/
  lastNak : Option Nat := none
  /-- 5; R171; M 0. RDMA READ requests that may be outstanding, as agreed at set-up. -/
  depth  : Nat := 0
  /-- 5; R167 R187; M 0. READ_DEPTH of the connection. -/
  rdepth : Nat := 0
  /-- 5; R187; M 0. ACK_TIMEOUT, RETRY_CNT, RNR_RETRY and SEND_WINDOW of the connection. -/
  ackTmo : Nat := 0
  retry0 : Nat := 0
  rnr0   : Nat := 0
  window : Nat := 0
  /-- 13; R169 R190; 0. Free entries of the own receive queue. -/
  recv   : Nat := 0
  /-- 8; R169 R193; none. -/
  srq    : Option Nat := none
  /-- 16; R193 R217; D. SRQ_DEPTH as its connection was set up. -/
  srqDepth : Nat := 4096
  /-- 19; R181 R190; 0. Current rate. -/
  cr     : Nat := 0
  /-- 19; R181 R190; 0. Target rate. -/
  tr     : Nat := 0
  /-- 11; R181 R190; 0. -/
  alpha  : Nat := 0
  /-- 1; R182 R190; 0. -/
  paced  : Bool := false
  /-- 4; R182 R190; 0. -/
  tStage : Nat := 0
  /-- 4; R182 R190; 0. -/
  bStage : Nat := 0
  /-- 31; R182; M 0. Bytes towards the next byte stage. -/
  bytes  : Nat := 0
  /-- 32; R181; M 0. The token bucket in bits x 100 and the timebase of its last fill. -/
  bucket : Int := 0
  fillAt : Nat := 0
  /-- 64; R180; M none. The timebase of the last CNP sent. -/
  cnpAt  : Option Nat := none
  /-- 32; R180; M 0. CE packets that came within CNP_INTERVAL_US of it. -/
  ceSeen : Nat := 0
  /-- 7; R183 R190; 0. -/
  dlog   : Nat := 0
  /-- 4; R188 R190; 0. -/
  err    : Nat := 0
  /-- 16; R192; M none. The association of a kind 0 or 1 queue pair. -/
  assoc  : Option Nat := none
  /-- 10; R361; M 0. The member of a Porpor queue pair, and the window granted to it. -/
  member : Nat := 0
  grant  : Nat := 0
  /-- 32; R361; D1 0. The R_Key and slot count the peer granted. -/
  peerKey : Nat := 0
  peerSlots : Nat := 0
  deriving DecidableEq, Repr

/-- A dirty-log slot (R183). -/
structure Dlog where
  /-- 1; R190; 0. -/
  enable : Bool := false
  /-- 1; R190; 0. -/
  page2m : Bool := false
  /-- 1; R184 R190; 0. -/
  overflow : Bool := false
  /-- 1; R190; 0. -/
  nospace : Bool := false
  /-- 64; R190; 0. -/
  base  : Nat := 0
  /-- 32; R190; 0. -/
  pages : Nat := 0
  /-- 1 per page; R183; cleared by an enable. 64-page words by number. -/
  bits  : Tbl Nat := []
  /-- 12; R241; M none. The VSS whose queue pairs join while the slot is enabled. -/
  vss   : Option Nat := none
  deriving DecidableEq, Repr

/-- The RDMA transport. -/
structure Rdt where
  /-- 65,536; R159; each at its reset value. -/
  qps    : Tbl Qp := []
  /-- 64; R159; M 0. Boots so far: what the starting generations depend on. -/
  boot   : Nat := 0
  /-- 17; R160; M 0. Contexts below this number have been used since Boot. -/
  fresh  : Nat := 0
  /-- list; R160; empty. Contexts returned to Reset, the longest there first. -/
  resetQ : List Nat := []
  /-- 8,192; R162; M empty. Contexts in the on-chip cache, most recently used first. -/
  cache  : List Nat := []
  /-- list; R162; M empty. Contexts under fetch, each with the packets that wait for it, the oldest first. -/
  fetching : List (Nat × List RocePkt) := []
  /-- 64; R183; each at its reset value. -/
  dlogs  : Tbl Dlog := []
  /-- 256 x 16; R193; M 0. Free entries of each shared receive queue, as the number taken. -/
  srqUsed : Tbl Nat := []
  deriving DecidableEq, Repr

/-- An I/O queue of an association (R192). -/
structure IoQ where
  qid  : Nat
  qp   : Nat
  size : Nat
  /-- It awaits authentication (R195). -/
  auth : Bool
  /-- ICD_KIB as its connection was set up (R217). -/
  icd  : Nat := 16
  deriving DecidableEq, Repr

/-- An association and its virtual controller (R191 to R200, R222 to R224, R232). -/
structure Assoc where
  /-- 12; R192; 0. -/
  vss    : Nat := 0
  /-- 223 bytes; R192; empty. HOSTNQN. -/
  host   : List Byte := []
  /-- 16; R192; M 0. The admin queue pair. -/
  qp     : Nat := 0
  /-- list; R192; empty. -/
  ioqs   : List IoQ := []
  /-- 16, 7, 5; R217; D. MAX_QD, MAX_IO_QUEUES and ICD_KIB as the association was set up. -/
  maxQd  : Nat := 1024
  maxIo  : Nat := 16
  icd    : Nat := 16
  /-- list; R194; M empty. What is wrong with a capsule of the admin queue, by CID: 1 its SGL descriptor, 2 more than 8 KiB in the capsule. -/
  caps   : Tbl Nat := []
  /-- 7; R197; M none. I/O queues granted by Number of Queues. -/
  granted : Option Nat := none
  /-- 16; R196; M 0. KATO in ms. -/
  kato   : Nat := 0
  /-- 32; R232; 0. The property CC. -/
  cc     : Nat := 0
  /-- 1; R232; 0. CSTS.RDY. -/
  rdy    : Bool := false
  /-- 2; R232; 0. CSTS.SHST. -/
  shst   : Nat := 0
  /-- 1; R195; M false. The admin queue awaits authentication. -/
  auth   : Bool := false
  /-- 5; R195; M empty. The state of each queue's DH-HMAC-CHAP exchange, by QID: 1 challenge due, 2 success1 due, 3 done, 5 reply awaited, 6
  success2 awaited, 7 success1 due in a bidirectional exchange, 16 + n failure due with reason code n. -/
  chap   : Tbl Nat := []
  /-- 4; R200; none. Outstanding Asynchronous Event Requests. -/
  aers   : List Nat := []
  /-- 32; R197; D1 0. Asynchronous Event Configuration. -/
  aenCfg : Nat := 0
  /-- list; R200; M empty. Held notices: 0 ANA Change, 1 Namespace Attribute Changed. -/
  notices : List Nat := []
  /-- list; R200; M empty. Notices reported and not yet covered by a log read. -/
  masked : List Nat := []
  /-- 1; R222; M false. A management association. -/
  mgmt   : Bool := false
  /-- 1; R201; M false. A discovery controller. -/
  disc   : Bool := false
  /-- 256; R224; none. The fresh nonce. -/
  nonce  : Option Nat := none
  /-- 2; R223; M 0. Failed proofs. -/
  proofs : Nat := 0
  /-- 3; R223 R224; M none. The roles held: Manage [0], Read [1], Image [2] (R120); none unproved. -/
  roles  : Option Nat := none
  deriving DecidableEq, Repr

/-- The states of a tenant queue (R210). -/
inductive TqState where
  | free | active | paused | error | deleting
  deriving DecidableEq, Repr

/-- A completion entry of a VDQ (R205). -/
structure Cqe where
  result : Nat := 0
  cid    : Nat := 0
  status : Status := .success
  /-- Do Not Retry, as the completion was given. -/
  dnr    : Bool := false
  push   : Option Nat := none
  deriving DecidableEq, Repr

/-- A tenant queue, keyed 16 x context + QIDX (R202 to R210, R238). -/
structure Tq where
  /-- 3; R210; 0. -/
  state  : TqState := .free
  /-- 64 bytes; R203; none. The descriptor in force. -/
  desc   : List Byte := []
  /-- 16; R207; 0. -/
  head   : Nat := 0
  /-- 16; R207; 0. -/
  tail   : Nat := 0
  /-- 16; R209; 0. -/
  cqHead : Nat := 0
  /-- 16; R209; 0. -/
  cqTail : Nat := 0
  /-- 1; R209; 1. -/
  phase  : Bool := true
  /-- list; R209; empty. -/
  held   : List Cqe := []
  /-- 8; R209; 0. Entries written since the last notification. -/
  since  : Nat := 0
  /-- 64; R208; 0. Busy push slots. -/
  busy   : List Nat := []
  /-- 7; R207; 0. Entries of the fetch under way. -/
  fetch  : Nat := 0
  /-- 9; R213; M 0. Entries left in the queue's turn. -/
  turn   : Nat := 0
  /-- list; R207; empty. Entries fetched and not yet admitted, with their opcodes. -/
  wait   : List (Nat × HostCmd) := []
  /-- 16; R38 R210; 0. -/
  instar : Instar := {}
  /-- 3; R218; 0. Cause of the last entry to Error. -/
  cause  : Nat := 0
  /-- 1; R238; M false. Frozen. -/
  frozen : Bool := false
  /-- R238; none. The Freeze command under way. -/
  freezer : Option Cid := none
  /-- 32; R202; 0. The push window's R_Key. -/
  rkey   : Nat := 0
  /-- 12; R202; M 0. Its VSS and association. -/
  vss    : Nat := 0
  assoc  : Nat := 0
  deriving DecidableEq, Repr

/-- The volatile part of a virtual subsystem (R212, R231, R247). -/
structure VssRt where
  /-- 16; R231 R247; 0. -/
  instar  : Instar := {}
  /-- 1; R212 R247; 0. -/
  stopped : Bool := false
  /-- 21; R212; M 0. The largest command pending, in bytes. -/
  pending : Nat := 0
  deriving DecidableEq, Repr

/-- A catalog change that waits for the partner (R225). -/
structure CatPend where
  id    : Nat
  edits : List CatEdit
  /-- The command it completes, with DW0 and data; none for a change of the partner or of the controller itself. -/
  who   : Option Cid
  dw0   : Nat
  kind  : Nat
  obj   : Nat
  /-- This side is side B and has forwarded it. -/
  fwd   : Bool
  deriving DecidableEq, Repr

/-- A Restore under way (R240). -/
structure Restore where
  who  : Origin
  data : List Byte
  deriving DecidableEq, Repr

/-- The command front end (chapters 07, 08). -/
structure Cfe where
  /-- 4,096; R192; empty. The associations, by CNTLID. -/
  assocs : Tbl (Option Assoc) := []
  /-- 65,602 x 16; R38 R39 R232; 0. The instar of each virtual controller, by CNTLID (65,536 + its number for a service-port function); it stays when
  the association ends. -/
  vci    : Tbl Instar := []
  /-- 16; R192; M 1. The next controller ID to try. -/
  nextId : Nat := 1
  /-- 16,384; R210; each at its reset value. -/
  tqs    : Tbl Tq := []
  /-- 4,096; R231; each at its reset value. -/
  rt     : Tbl VssRt := []
  /-- 64; R200 R219; 0. -/
  anaCnt : Nat := 0
  /-- 2 x 2; R199; M inaccessible. The ANA state last reported for each group: 0 Optimized, 1 Non-optimized, 2 Inaccessible, 3 Change. -/
  ana0   : Nat := 2
  ana1   : Nat := 2
  /-- list; R215; empty. The contexts held under the activation hold. -/
  holds  : List Nat := []
  /-- 1; R215; M false. CFE_HOLD_EXPIRED has been written in this activation. -/
  holdRep : Bool := false
  /-- 2; R216 R219; 0. -/
  idle   : Nat := 0
  /-- list; R225; empty. -/
  pend   : List CatPend := []
  /-- 64; R225; M 0. The number of the next change this side starts. -/
  nextCat : Nat := 0
  /-- 1; R344; M false. This side's sealed copy of the pair wrapping key exists (kept by every reset). -/
  sealed_ : Bool := false
  /-- list; R240; none. -/
  restore : List Restore := []
  /-- 32; R201; 0. Generation counter of the Discovery log. -/
  discGen : Nat := 0
  /-- R207; M none. The tenant queue served last within each tenant. -/
  rr     : Tbl Nat := []
  deriving DecidableEq, Repr

/-- What ends a parked step (R253, R255, R423). -/
inductive Wake where
  | ok
  | fail
  | driveReset
  | timeout
  deriving DecidableEq, Repr

/-- What a parked context waits for. -/
inductive Wait where
  | timer | ilock | iwait | nsfence | echo | host | drives | recon | writes | zero | frag | index | map | counter | repair
  deriving DecidableEq, Repr

/-- Where a context stands (R250, R253). -/
inductive Run where
  | thread (n : Nat)
  | ready
  | parked (w : Wait)
  | held
  deriving DecidableEq, Repr

/-- The result flags of R252. -/
structure Flg where
  ok : Bool := false
  fail : Bool := false
  hit : Bool := false
  miss : Bool := false
  tagFail : Bool := false
  poison : Bool := false
  timeout : Bool := false
  eq : Bool := false
  lt : Bool := false
  deriving DecidableEq, Repr

/-- The state of a context's interlock entry (R264 to R266). -/
inductive Lock where
  | none_ | taken | released | withdrawn
  deriving DecidableEq, Repr

/-- A block in a context's buffer: its content when it holds good data, and where it came from. -/
structure BufBlk where
  /-- 0 not read, 1 from the cocoon, 2 from a drive and not yet verified, 3 verified, 4 failed. -/
  st  : Nat := 0
  blk : Blk := {}
  /-- The block is unwritten (R322), so PI checks skip it. -/
  unw : Bool := false
  deriving DecidableEq, Repr

/-- The work of an internal context (R260). A range record carries the stripes it touches; `nothing` is left of an operation whose
pages are released. -/
inductive IntOp where
  | flush (chunk stripe : Nat) (pages : List (Bool × Nat))
  | range (mirror : Bool) (page : Nat) (sts : List (Nat × Nat))
  | rebuild (group chunk stripe : Nat)
  | rekey (slot chunk stripe : Nat)
  | writeback (chunk stripe row : Nat)
  | fedRebuild (entry slot chunk stripe : Nat)
  | inbound (qp slot : Nat)
  | nothing
  deriving DecidableEq, Repr

/-- A block of a stripe that the stripe engine has prepared (R329): its place and its 4,144 coded bytes. -/
structure StripBlk where
  chunk  : Nat
  stripe : Nat
  pos    : Nat
  row    : Nat
  coded  : Nat
  deriving DecidableEq, Repr

/-- A command context (R249). -/
structure Ctx where
  /-- The command image; none for an internal context. -/
  cmd   : Option HostCmd := none
  /-- The internal work; none for a command. -/
  op    : Option IntOp := none
  opc   : Nat := 0
  /-- 12; R249. -/
  vss   : Nat := 0
  /-- 16; R249. Global namespace. -/
  ns    : Nat := 0
  /-- 16; R232. The association (0 none) and the virtual controller's instar. -/
  assoc : Nat := 0
  vci   : Nat := 0
  /-- R209. The tenant queue key of a VDQ command. -/
  tq    : Option Nat := none
  /-- 16 x 64; R249; C8-C14 0. -/
  regs  : Tbl Nat := []
  flg   : Flg := {}
  list  : Nat := 0
  step  : Nat := 0
  /-- 4; R249. Return points: list and step. -/
  stack : List (Nat × Nat) := []
  core  : Nat := 0
  /-- 3; R397. The drain class of the event that made it ready. -/
  drain : Nat := 5
  run   : Run := .ready
  /-- 8; R255. -/
  waitNo : Nat := 0
  /-- 3; R254. The timeout class of the wait. -/
  cls   : Nat := 0
  /-- 32; R262. -/
  adm   : Nat := 0
  lock  : Lock := .none_
  /-- 1; R264. Write kind. -/
  wr    : Bool := false
  /-- 1; R258. The dispatch entry's LOCK. -/
  locks : Bool := false
  /-- list; R290. Own pages staged or committed by the command. -/
  pages : List Nat := []
  /-- list; R458. Pages whose echo is awaited. -/
  echo  : List Nat := []
  committed : Bool := false
  durable : Bool := false
  /-- list; R42. Table references: table, key, version. -/
  refs  : List (Nat × Nat × Nat) := []
  /-- list; R253. The data buffer, one entry per block. -/
  buf   : List BufBlk := []
  /-- list; R329 R331. The blocks the stripe engine has prepared. -/
  strips : List StripBlk := []
  /-- list; R336. What the reconstruction under way will yield. -/
  plan  : List BufBlk := []
  /-- 32; R272. Steps executed. -/
  steps : Nat := 0
  /-- 1; R196 R210 R232. Its queue no longer exists: it finishes without a completion. -/
  gone  : Bool := false
  /-- 1; R272. The completion has been handed to the scheduler. -/
  done  : Bool := false
  /-- 64; R215. Timebase of admission. -/
  at_   : Nat := 0
  /-- 16; R423. Drive commands outstanding, and whether one failed. -/
  out   : Nat := 0
  bad   : Bool := false
  /-- list; R267. Namespaces NSFENCE still has to wait for. -/
  fence : List Nat := []
  /-- 1; R23. The payload that travels with the command has arrived whole. -/
  whole : Bool := true
  /-- 1; R253. CSTAGE has taken its pages and streams the payload into them. -/
  staging : Bool := false
  /-- 20; R30 R380. Packet-buffer cells of the payload, held until it is copied into the cocoon. -/
  cells : Nat := 0
  /-- 2 x 2; R380; none. The multicast record of the lines: the destinations required, and those that have accepted (1 cocoon, 2 tandem link). -/
  mcast : Option (Nat × Nat) := none
  deriving DecidableEq, Repr

/-- A step of step memory (R251): its opcode and the rest. -/
structure Step where
  opc : Nat := 0
  w   : StepW := {}
  deriving DecidableEq, Repr

/-- A step-sample record (R274). -/
structure SampleRec where
  time    : Nat
  core    : Nat
  thread  : Nat
  skid    : Nat
  parked  : Bool
  step    : Nat
  list    : Nat
  ctx     : Nat
  counter : Nat
  deriving DecidableEq, Repr

/-- An update of a match table by the controller itself (R270). -/
inductive TabUpd where
  | derail (key : Nat) (x : Bucket)
  | map (key : Nat) (x : MapEnt)
  | place (key : Nat) (x : PlaceEnt)
  | win (key : Nat)
  deriving DecidableEq, Repr

/-- The sequencers and the range interlock (chapter 09). -/
structure Seq where
  /-- 65,536 + pool 2; R249 R260; none in use. Contexts; internal ones are numbered from 65,536 on. -/
  ctxs  : Tbl (Option Ctx) := []
  /-- 32 queues; R250; empty. Ready contexts of each core, in the order their events arrived. -/
  ready : Tbl (List Nat) := []
  /-- 65,536 x 32; R262; 0. Admission counters, by namespace. -/
  adm   : Tbl Nat := []
  /-- 4,096; R257 R268; defaults. Dispatch entries of the image, keyed 256 x class + policy: list + 512 x LOCK. -/
  disp  : Tbl (Option (VEnt Nat)) := []
  /-- 4,096 x 64; R251 R275; empty. Step memory. -/
  steps : List Step := []
  /-- 256; R275; empty. Lists: first step and length. -/
  lists : List (Nat × Nat) := []
  /-- 16; R278; 0. Dispatch-table loads since Boot. -/
  loads : Nat := 0
  /-- list; R260; empty. Internal operations that wait for an internal context. -/
  queue : List IntOp := []
  /-- list; R270; empty. Internal table updates that wait for a spare slot. -/
  slotWait : List TabUpd := []
  /-- 256; R274; empty. -/
  fifo  : List SampleRec := []

  deriving DecidableEq, Repr

/-- The states of an own-staging page (R290), coded as COC_PAGE_STATE STATE; `held` and `adopted` are those of mirror staging. -/
inductive PgState where
  | free | staged | committed | mirrored | flushing | flushed | superseded | held | adopted
  deriving DecidableEq, Repr

/-- A staging page and its commit record (R285, R290). -/
structure Page where
  /-- 3; R290 R317; 0. -/
  st     : PgState := .free
  /-- 64 B; R286; none (a line of zeros). The commit record. -/
  rc     : Option CommitRec := none
  /-- 4 KiB; R285; unwritten. The block as it was sealed: its content and protection information. -/
  blk    : Blk := {}
  /-- 8; R291 R317; 0. -/
  pins   : Nat := 0
  /-- 1; R295 R317; 0. -/
  unmir  : Bool := false
  /-- 1; R458; M false. The wait for the echo of its record has ended without it. -/
  late   : Bool := false
  /-- 1; R307 R317; 0. -/
  orphan : Bool := false
  /-- 1; R312; 0. Its data is poisoned. -/
  poison : Bool := false
  /-- 1; R548; 0. Its record cannot be used: held by the scan until the first acquisition. -/
  unus   : Bool := false
  /-- 12; R299; M 0. The tenant whose quota it counts against, 0 none. -/
  vss    : Nat := 0
  /-- 3; R290; M committed. The state held before Flushing. -/
  prior  : PgState := .committed
  /-- 1; R332; M false. The recovery scan kept it. -/
  kept   : Bool := false
  /-- 1; R291; M false. It is released when its last pin goes. -/
  release : Bool := false
  /-- 64; R300; M 0. Timebase of the commit. -/
  at_    : Nat := 0
  deriving DecidableEq, Repr

/-- A line of the nonce counter area (R309). -/
structure CtrLine where
  epoch : Nat := 0
  to_   : Nat := 0
  /-- The line is lost (R310). -/
  lost  : Bool := false
  deriving DecidableEq, Repr

/-- The counter in use of a key slot (R309, R345). -/
structure CtrRun where
  /-- 48; R345 R350; 0. Next block counter. -/
  next  : Nat := 0
  /-- 48; R309; M 0. Counters below this are usable. -/
  limit : Nat := 0
  /-- 1; R309; M none. The RESERVED_TO that awaits the partner's echo. -/
  await : Option Nat := none
  /-- 1; R345 R350; 0. -/
  warned : Bool := false
  /-- 1; R345 R350; 0. -/
  spent : Bool := false
  /-- 32; R345; M 0. The epoch these belong to. -/
  epoch : Nat := 0
  /-- 6 and 1; R328; M none. CTR_WARN_LOG2 and AUTO_ROTATE of a key that was made before a live activation. -/
  rule  : Option (Nat × Nat) := none
  deriving DecidableEq, Repr

/-- The cocoon (chapter 10). -/
structure Coc where
  /-- 1; R283; M false. Brought up in this Boot. -/
  up        : Bool := false
  /-- 1; R282 R317; 0 (a new part is unformatted; kept by every reset). -/
  formatted : Bool := false
  /-- 1; R314; M false. Stack 0 has stopped. -/
  stackBad0 : Bool := false
  /-- 1; R314; M false. As `stackBad0`, for stack 1. -/
  stackBad1 : Bool := false
  /-- 1; R67 R317; 0. Write protect. -/
  protect   : Bool := false
  /-- 40; R282; D1 0 (kept by every reset). Odometer in the header copies. -/
  hdrOdo    : Nat := 0
  /-- 32; R282; D1 0 (kept). Power-cycle count in the header copies. -/
  hdrCycles : Nat := 0
  /-- 32; R282 R284; D1 0 (kept). FORMAT_COUNT. -/
  formats   : Nat := 0
  /-- 40; R282 R284; D1 0 (kept). FORMAT_ODOMETER_S. -/
  fmtOdo    : Nat := 0
  /-- 1 each; R283 R312; D1 good (kept). Copy A, then copy B, of the header is readable. -/
  hdrA      : Bool := true
  hdrB      : Bool := true
  /-- 1; R308 R317; 0. -/
  scanned   : Bool := false
  /-- 917,504; R279 R285; empty (kept by every reset, as records). Own staging. -/
  own       : Tbl Page := []
  /-- 917,504; R279 R285; empty (kept). Mirror staging. -/
  mir       : Tbl Page := []
  /-- 65,536; R309; zeros (kept). The counter area. -/
  ctrs      : Tbl CtrLine := []
  /-- 65,536; R345; each at its reset value. -/
  runs      : Tbl CtrRun := []
  /-- 64; R287 R317; set by the scan (M 0). Next commit sequence of group 0. -/
  seq0      : Nat := 0
  /-- 64; R287 R317; set by the scan (M 0). Of group 1. -/
  seq1      : Nat := 0
  /-- 1; R298 R317; 0. -/
  rebuildIx : Bool := false
  /-- 21 each; R308 R317; 0. Kept, discarded, superseded and lost of the last scan, and its time in us. -/
  kept      : Nat := 0
  discarded : Nat := 0
  superseded : Nat := 0
  lost      : Nat := 0
  scanUs    : Nat := 0
  /-- list; R300; empty. Stripes in flush, rebuild or rekey: chunk and stripe. -/
  busy      : List (Nat × Nat) := []
  /-- 64 MiB; R302; M empty. The rebuild area: the blocks of the strips that rebuilds are writing. -/
  rbArea    : List StripBlk := []
  /-- list; R332; empty. Stripes marked for recompute. -/
  recomp    : List (Nat × Nat) := []
  /-- list; R300; empty. Stripes and range pages whose oldest page has aged. -/
  aged      : List (Nat × Nat) := []
  /-- list; R334; M empty. Stripes whose holding has been reported. -/
  heldRep   : List (Nat × Nat) := []
  /-- 1; R303; M false. COC_OCCUPANCY_HIGH has been written and not re-armed. -/
  occRep    : Bool := false
  /-- 7; R313 R317; 0. -/
  scrubPct  : Nat := 0
  /-- 16; R313 R317; 0. -/
  scrubPasses : Nat := 0
  /-- 64; R311; M 0. The hour the corrections below belong to, and their count. -/
  corrHour  : Nat := 0
  corrCnt   : Nat := 0
  /-- list; R312; M empty. Line addresses marked with poison that no other field holds. -/
  poison    : List Nat := []
  /-- list; R312; empty. Own page fetches under way: page and whether the record is fetched. -/
  fetches   : List (Nat × Bool) := []
  /-- 2; R296 R459; M 0. Re-mirrored pages whose echo is awaited, by group. -/
  remir0    : List Nat := []
  remir1    : List Nat := []
  /-- 20; R296; M 0. Pages copied by the re-mirror under way. -/
  remirCnt0 : Nat := 0
  remirCnt1 : Nat := 0
  /-- 2 x list; R307; empty. Pages handed back by or to this side and awaiting confirmation, by group. -/
  handed    : List Nat := []
  deriving DecidableEq, Repr

/-- A rebuild of a group (R338, R339). -/
structure Rebuild where
  active  : Bool := false
  inPlace : Bool := false
  bay     : Nat := 0
  target  : Nat := 0
  /-- Chunks still to rebuild, the current one first. -/
  left    : List Nat := []
  /-- Stripes of the current chunk that are done. -/
  prog    : Nat := 0
  count   : Nat := 0
  cancel  : Bool := false
  deriving DecidableEq, Repr

/-- A namespace being created whose entries are written to the drives (R325): its number and record, the command, and the bays that have
not confirmed its map blocks. -/
structure Create where
  ns   : Nat
  rec_ : NsRec
  who  : Cid
  wait : List Nat
  deriving DecidableEq, Repr

/-- The transform engines (chapter 11). -/
structure Xfm where
  /-- 4,194,304; R268 R324; empty (a DRAM copy, loaded at acquisition). The chunk map. -/
  map     : Tbl (Option (VEnt MapEnt)) := []
  /-- 4,194,304; R320 R325; D1 empty (on the drives: kept by every reset). The map area of the drives. -/
  area    : Tbl MapEnt := []
  /-- 64; R325; D1 0 (kept). The journal sequence. -/
  jseq    : Nat := 0
  /-- 1; R326 R350; 0. Group 0's map is loading; then group 1's. -/
  load0   : Bool := false
  load1   : Bool := false
  /-- list; R326; empty. Chunks whose entry is being reloaded. -/
  reload  : List Nat := []
  /-- R338 R350; idle. -/
  rb0     : Rebuild := {}
  /-- R338 R350; idle. -/
  rb1     : Rebuild := {}
  /-- list; R338; empty. Members waiting for a rebuild of their group: bay and target. -/
  rbWait  : List (Nat × Nat) := []
  /-- list; R325; M empty. Namespaces whose map blocks are being written. -/
  creates : List Create := []
  /-- 6; R328; M none. BG_PCT of the rebuild or rekey that began before a live activation, while it runs. -/
  bgPct   : Option Nat := none
  /-- list; R334; M empty. Strip writes that have failed once: chunk, stripe, member. -/
  retried : List (Nat × Nat × Nat) := []
  /-- list; R337; M empty. Bays whose drive is absent, as the flush sees it, with chunks marked. -/
  unread  : List Nat := []
  deriving DecidableEq, Repr

/-- The active set of a peer window (R359). -/
structure WinSet where
  /-- 17; R375; 0. -/
  base   : Nat := 0
  /-- 18; R375; 0. -/
  limit  : Nat := 0
  /-- 13; R375; 0. MEMBER, WRITE, READ, ENABLE. -/
  ctl    : Nat := 0
  deriving DecidableEq, Repr

/-- A peer window (R358 to R360): shadow, active set and instar. -/
structure PWin where
  /-- 17; R375; 0. Shadow base. -/
  sBase  : Nat := 0
  /-- 18; R375; 0. Shadow limit. -/
  sLimit : Nat := 0
  /-- 10 + 3; R375; 0. Shadow MEMBER [9:0], WRITE [10], READ [11], ENABLE [12]. -/
  sCtl   : Nat := 0
  /-- R42 R268 R359; the active set in force under version 0. Its version is the window's instar. -/
  ent    : VEnt WinSet := ⟨0, 0, {}, []⟩
  /-- 16; R359 R375; 0. -/
  instar : Instar := {}
  /-- 1; R375; 0. -/
  rejected : Bool := false
  /-- list; R360; empty. Reserved pages: base and limit of requests unanswered outside the active range. -/
  kept   : List (Nat × Nat) := []
  deriving DecidableEq, Repr

/-- A request this controller has sent and that is not answered (R366, R368). -/
structure Frag where
  tag    : Nat
  /-- Message type (R364). -/
  typ    : Nat
  ctx    : Option Nat
  entry  : Nat
  member : Nat
  shelf  : Nat
  /-- The side it went to, the sides tried without an answer, refusals of another code so far. -/
  side   : Nat
  tried  : List Nat
  refused : Nat
  qp     : Nat
  slot   : Nat
  chunk  : Nat
  stripe : Nat
  /-- The rows it carries or asks for, as the drive LBA of row 0 and a mask. -/
  lba    : Nat
  rows   : Nat
  /-- It has been handed to the queue pair and holds its slot (R366). -/
  sent   : Bool
  /-- The group of the receiving shelf (R363). -/
  group  : Nat := 0
  deriving DecidableEq, Repr

/-- A request hosted here that is being served (R365): the rows still to be written on the drive. -/
structure Hosted where
  qp    : Nat
  slot  : Nat
  spoke : Nat
  lba   : Nat
  rows  : Nat
  retried : Bool
  /-- It is a STRIP_READ. -/
  reading : Bool
  /-- The request. -/
  msg   : PorporMsg
  deriving DecidableEq, Repr

/-- A Lease Create under way (R357). -/
structure LeaseOp where
  c      : Cid
  entry  : Nat
  wait   : List Nat
  got    : List Nat
  refused : Option (Nat × Nat)
  deriving DecidableEq, Repr

/-- The federation (chapter 12). -/
structure Fed where
  /-- 1; R351; M false. The partner's identities differ. -/
  mismatch : Bool := false
  /-- 2; R354 R375; 0. The groups whose placement area is usable. -/
  areaOk  : Nat := 0
  /-- 65,536; R268 R355; empty (loaded at acquisition). The placement map. -/
  place   : Tbl (Option (VEnt PlaceEnt)) := []
  /-- 65,536; R354; D1 empty (on the drives: kept by every reset). The placement area of the drives. -/
  area    : Tbl PlaceEnt := []
  /-- 1,024; R358; each at its reset value. -/
  wins    : Tbl PWin := []
  /-- list; R366; empty. -/
  frags   : List Frag := []
  /-- list; R365; empty. -/
  hosted  : List Hosted := []
  /-- list; R357; empty. -/
  leases  : List LeaseOp := []
  /-- 32; R363; M 0. The next TAG. -/
  nextTag : Nat := 0
  /-- list; R382; M empty. Pool-0 cells held by the fan-out of a stripe: chunk, stripe, cells. -/
  fanout  : List (Nat × Nat × Nat) := []
  /-- list; R372; M empty. Leases of replaced members still to be freed: entry and shelf. -/
  tofree  : List (Nat × Nat) := []
  /-- list; R372; M empty. Progress of member rebuilds: entry, slot, chunks left, stripe. -/
  rebuilds : List (Nat × Nat × List Nat × Nat) := []
  deriving DecidableEq, Repr

/-- The states of a spoke (R412), coded as SPK_STATE STATE. -/
inductive SpkState where
  | disabled | empty | powering | training | initializing | ready | contained | resetting | off | unusable | failed
  deriving DecidableEq, Repr

/-- A command outstanding on a drive (R419, R420). -/
structure DriveSlot where
  /-- The context that waits on it; none for the spoke's own commands. -/
  ctx    : Option Nat := none
  /-- The virtual controller whose reset withdrew that context's command (R232). -/
  vc     : Option Nat := none
  /-- Its opcode. -/
  opcode : Nat := 0
  /-- The spoke and drive instars at issue. -/
  spoke  : Nat := 0
  drive  : Nat := 0
  /-- The cocoon pages it pins and the cells it holds (R423). -/
  pins   : List Nat := []
  cells  : Nat := 0
  /-- The bytes it moves (R505). -/
  bytes  : Nat := 0
  /-- It serves a rebuild or a rekey (R339). -/
  bg     : Bool := false
  /-- It has timed out and an Abort is under way (R420). -/
  timedOut : Bool := false
  /-- What it writes: the stripe and member of a strip write, the map journal record, the map blocks of a new namespace, else none. -/
  strip  : Option (Nat × Nat × Nat) := none
  journal : Option Nat := none
  create : Option Nat := none
  deriving DecidableEq, Repr

/-- One spoke (chapter 14). -/
structure Spoke where
  /-- 4; R412 R429; 0. -/
  state  : SpkState := .disabled
  /-- 4; R417 R429; 0. -/
  reason : Nat := 0
  /-- 16; R412 R429; 0. -/
  instar : Instar := {}
  /-- 16; R412 R429; 0. -/
  drive  : Instar := {}
  /-- 3; R429; 0. -/
  gts    : Nat := 0
  /-- 2; R429; 0. -/
  width  : Nat := 0
  /-- 1; R429; 0. -/
  dl     : Bool := false
  /-- 5; R425 R429; 0. DRV_PS. -/
  drvPs  : Nat := 0
  /-- 2; R411 R429; 11b. ATTN_IND. -/
  attn   : Nat := 3
  /-- 1; R409 R429; 0. Presence after the filter (PDS). -/
  present : Bool := false
  /-- 11; R409; M 0. Scans in a row that read the other presence. -/
  presCnt : Nat := 0
  /-- 1; R409; 0. The button after the filter. -/
  button : Bool := false
  /-- 11; R409; M 0. As `presCnt`, for the button. -/
  btnCnt : Nat := 0
  /-- 1; R414 R429; 0. BUTTON_PENDING. -/
  pendBtn : Bool := false
  /-- 1; R413; M false. A press held until the spoke reaches Ready, Unusable or Failed. -/
  heldBtn : Bool := false
  /-- 2; R406; M 0. Training attempts that failed. -/
  tries  : Nat := 0
  /-- 2; R414; M 0. Orderly removal: 0 none, 1 draining, 2 shutdown under way. -/
  removal : Nat := 0
  /-- 1; R412; M false. The removal under way ends in Disabled. -/
  disabling : Bool := false
  /-- list; R412; M empty. Timebases of the resets of the last hour. -/
  resets : List Nat := []
  /-- 4; R422 R428; M 0. The cause of the reset under way, whose SPK_RESET its step 5 writes; 0 once written. -/
  rcause : Nat := 0
  /-- 9; R423 R428; M 0. The slots that the last containment reclaimed. -/
  reclaimed : Nat := 0
  /-- 2; R412; M 0. Failed resets in a row. -/
  failed : Nat := 0
  /-- 2; R417; M 0. Bring-up: 0 idle, 1 enabled and waiting for RDY, 2 Identify issued. -/
  bring  : Nat := 0
  /-- 1; R451; M false. Fenced. -/
  fenced : Bool := false
  /-- 64; R416; M none. The timebase of the last DMA violation. -/
  violAt : Option Nat := none
  /-- 256; R418 R419; none outstanding. The commands outstanding, by slot. -/
  slots  : Tbl (Option DriveSlot) := []
  /-- 5; R417 R429; 0. I/O queue pairs created. -/
  ioq    : Nat := 0
  /-- 64; R424 R429; 0. The drive's identity. -/
  id     : Nat := 0
  /-- 32; R320; 0. The blocks of NSID 1. -/
  blocks : Nat := 0
  /-- R426; none. The Drive Format command under way. -/
  format : Option Cid := none
  deriving DecidableEq, Repr

/-- The spoke complex (chapter 14). -/
structure Spk where
  /-- 64; R404; each at its reset value. -/
  spokes : Tbl Spoke := []
  /-- 1; R408 R429; 0. SPK_SCAN RUNNING. -/
  scanning : Bool := false
  /-- 16; R429; 0. SPK_SCAN FRAMES. -/
  frames : Nat := 0
  /-- 64 x 64; R412; none recorded (in the catalog: kept by every reset). The bay identity table. -/
  bayIds : Tbl Nat := []
  deriving DecidableEq, Repr

/-- The states of a bay channel (R437), coded as BAY_STATE STATE. -/
inductive ChState where
  | disabled | off | waiting | ramping | on | cooling | latched
  deriving DecidableEq, Repr

/-- What drives a gate output (R431, R441). -/
inductive Gate where
  | hiZ | ramp | full | sink
  deriving DecidableEq, Repr

/-- One bay-power channel (R430 to R443). -/
structure Channel where
  /-- 3; R437 R446; 0. -/
  state   : ChState := .disabled
  /-- 3; R435 R446; 0. RETRIES_LEFT. -/
  retries : Nat := 0
  /-- 1; R436 R446; 0. -/
  cancelled : Bool := false
  /-- 1; R438; M false. The cool-down ends in Off because an off request cancelled the retry. -/
  offReq  : Bool := false
  /-- 2; R431; high impedance. The gate output. -/
  gate    : Gate := .hiZ
  /-- 1; R441 R446; 0. HOLDING. -/
  holding : Bool := false
  /-- 2; R433 R446; 0. LAST_TRIP. -/
  lastTrip : Nat := 0
  /-- 16; R443 R446; 0. -/
  iMa     : Nat := 0
  /-- 16; R443 R446; 0. -/
  vMv     : Nat := 0
  /-- 16; R443 R446; 0. BAY_I_PEAK. -/
  iPeak   : Nat := 0
  /-- 16; R443 R446; 0xFFFF. BAY_V_MIN. -/
  vMin    : Nat := 0xFFFF
  /-- 16; R446; 0. BAY_TRIPS TRIPS. -/
  trips   : Nat := 0
  /-- 16; R446; 0. BAY_TRIPS TRANSIENT. -/
  transients : Nat := 0
  /-- 3; R435; M 0. Retries taken since the count was last set. -/
  taken   : Nat := 0
  deriving DecidableEq, Repr

/-- The states of a feed selector (R439), coded as FEED_STATE STATE. -/
inductive FeedState where
  | off | onA | onB | toA | toB
  deriving DecidableEq, Repr

/-- One feed selector (R439). -/
structure Feed where
  /-- 3; R439 R446; 0. -/
  state  : FeedState := .off
  /-- 1; R439 R446; 0. -/
  aGood  : Bool := false
  /-- 1; R439 R446; 0. -/
  bGood  : Bool := false
  /-- 1; R446; 0. DRIVING. -/
  driving : Bool := false
  /-- 2; R439; M 0. The cause of the switch under way: 1 bad, 2 revert, 3 request. -/
  cause  : Nat := 0
  /-- 1; R439; M false. FEED_BOTH_BAD has been written for the present condition. -/
  bothBad : Bool := false
  /-- 1; R440; M false. The breaker timers and undervoltage checks of the group are suspended. -/
  settling : Bool := false
  /-- 16; R446; 0. -/
  aMv    : Nat := 0
  /-- 16; R446; 0. -/
  bMv    : Nat := 0
  /-- 16; R443 R446; 0xFFFF. -/
  aMin   : Nat := 0xFFFF
  /-- 16; R443 R446; 0xFFFF. -/
  bMin   : Nat := 0xFFFF
  deriving DecidableEq, Repr

/-- The bay die (chapter 15), which keeps running through a warm reset. -/
structure Bay where
  /-- 64; R430; each at its reset value. -/
  chans : Tbl Channel := []
  /-- selector of group 0; R439. -/
  feed0 : Feed := {}
  /-- selector of group 1; R439. -/
  feed1 : Feed := {}
  /-- 1; R528; M true. VDD_BAY and VDD_GATE are within their limits. -/
  rails : Bool := true
  /-- 1; R441; M false. The outputs hold their value after a cold reset or PWRON_L. -/
  outHold : Bool := false
  deriving DecidableEq, Repr

/-- The class of an ownership line as this controller holds it (R454), coded as TDM_OWN. -/
inductive Line where
  | released | acquiring | mine | partner | stuck
  deriving DecidableEq, Repr

/-- One drive group's ownership and pairing (chapter 16). -/
structure Grp where
  /-- 3; R454 R473; 0. The line's state; the group is owned while it is `mine` (R448) or held unpaired (R469). -/
  line     : Line := .released
  /-- 1; R448 R469; 0. This controller owns the group. -/
  owned    : Bool := false
  /-- 1; R452 R473; 0. BARRED: released by choice. -/
  barred   : Bool := false
  /-- 1; R453; M false. Side A has met a collision through 3 periods: no acquisition until a reset. -/
  collided : Bool := false
  /-- 1; R452; M false. BOOT_CLAIM_MS has passed with the line Released. -/
  claimed  : Bool := false
  /-- 64; R449; M 0. The timebase of the last feed of the heartbeat, or of the acquisition. -/
  fedAt    : Nat := 0
  /-- 1; R287 R464; M false. The partner was the last seen to hold the line, so that an acquisition takes the group over from it. -/
  fromPartner : Bool := false
  /-- 1; R452; M false. The group has been acquired, or its line seen held, since Boot. -/
  seen     : Bool := false
  /-- 3; R453; M 0. Clean check gaps of the present period. -/
  clean    : Nat := 0
  /-- 2; R453; M 0. Periods that met a collision. -/
  periods  : Nat := 0
  /-- 1; R467 R473; 0. HOLD: the outputs are held after a release. -/
  hold     : Bool := false
  /-- 2; R459 R473; 0. The pairing state of the group. -/
  pair     : Pair := .solo
  /-- 1; R296 R459; M false. A re-mirror runs. -/
  remirror : Bool := false
  /-- 1; R463; 0. The standing copy is whole; STANDING reads whether it is also current. -/
  standing : Bool := false
  /-- list; R463; empty. The standing copy of the chunk map, as received. -/
  standingMap : Tbl MapEnt := []
  /-- 1; R464; M false. A take-over of the group is under way. -/
  taking   : Bool := false
  /-- 64; R464; M 0. The timebase when the release was seen. -/
  takeAt   : Nat := 0
  /-- 1; R464; M false. Part 4a (bays) is done. -/
  bayDone  : Bool := false
  /-- 1; R464; M false. Part 4b (map) is done. -/
  mapDone  : Bool := false
  /-- 1; R464; M false. Part 4c (mirror pages) is done. -/
  pagesDone : Bool := false
  /-- 1; R464 R473; 0. The map of the take-over comes from the drives: the standing copy was not current when the release was seen. -/
  fromDrives : Bool := false
  /-- list; R465 R473; empty. The namespaces that await hand-back. -/
  await    : List Nat := []
  /-- 1; R471; M false. Tandem Control Release Group is draining the group, for this command. -/
  releasing : Option Cid := none
  /-- 1; R448 R464; M false. Admission to the group's namespaces is open. -/
  open_    : Bool := false
  deriving DecidableEq, Repr

/-- The partner's last valid cadence frame, the items a take-over needs (R461, R462). -/
structure Cadence where
  /-- 64; R461 R473; 0. TICK. -/
  tick     : Nat := 0
  /-- 3; R461; 0. -/
  mode     : Nat := 0
  /-- 2; R461; 0. -/
  owned    : Nat := 0
  /-- 64; R461; 0. -/
  seq0     : Nat := 0
  /-- 64; R461; 0. -/
  seq1     : Nat := 0
  /-- 64; R461; 0. -/
  catGen   : Nat := 0
  /-- list; R462; empty. Unmirrored namespaces: namespace + 2^16 x group. -/
  unmirrored : List Nat := []
  /-- list; R462; empty. Bays shown latched, and their retries left. -/
  latched  : List Nat := []
  /-- list; R442 R462; empty. Retry counts by bay, plus 1; 0 for a bay the frame does not show. -/
  retries  : Tbl Nat := []
  /-- list; R462; empty. Namespaces whose hand-back the owner awaits: namespace + 2^16 x group. -/
  awaiting : List Nat := []
  /-- 2; R462; 0. Groups of which the sender holds orphans. -/
  orphans  : Nat := 0
  /-- list; R201 R462; empty. The partner's sub-port addresses: 4 x port + sub-port, IPv6, address. -/
  addrs    : List (Nat × Bool × Nat) := []
  deriving DecidableEq, Repr

/-- The tandem (chapter 16). -/
structure Tdm where
  /-- group 0; R448. -/
  grp0 : Grp := {}
  /-- group 1; R448. -/
  grp1 : Grp := {}
  /-- 1; R456 R473; 0. -/
  linkUp   : Bool := false
  /-- 11; R455; M 0. Flits sent and not yet acknowledged, which the sender keeps for replay. -/
  txOut    : Nat := 0
  /-- 1; R455 R473; 0. -/
  half     : Bool := false
  /-- 1; R447 R473; 0. PEER_ALIVE as filtered. -/
  peerAlive : Bool := false
  /-- 1; R456 R473; 0. -/
  sideConflict : Bool := false
  /-- 12; R455; M 0. The flit sequence expected next. -/
  rxFlit   : Nat := 0
  /-- 5; R455; M 0. Replays of the present flit without progress. -/
  replays  : Nat := 0
  /-- 5; R456; M 0. Cadence ticks in a row without a valid frame. -/
  missed   : Nat := 0
  /-- 64; R460 R473; 0. TICK of the last frame sent. -/
  tickTx   : Nat := 0
  /-- R460; none kept. The newest valid frame of the partner. -/
  frame    : Cadence := {}
  /-- 1; R226 R459; M false. The catalog comparison of the present link-up has ended. -/
  compared : Bool := false
  /-- list; R294 R305; empty. Release messages queued for the next frames: page + 2^20 x SEQ. -/
  releases : List Nat := []
  /-- list; R462; empty. Repair requests queued for the next frame (mirror pages). -/
  repairs  : List Nat := []
  /-- list; R462; empty. Hand-back endings queued: namespace + 2^16 x group + 2^17 x abandoned. -/
  endings  : List Nat := []
  /-- 1; R473; 0. Group of the last take-over. -/
  lastGroup : Nat := 0
  /-- 1; R473; 0. MAP_FROM_DRIVES of the last take-over. -/
  lastFromDrives : Bool := false
  /-- 24; R473; 0. GAP_US. -/
  gapUs    : Nat := 0
  deriving DecidableEq, Repr

/-- One service-port function (R474 to R486): 0 PF0, 1 PF1, n + 1 VF n. -/
structure SvcFn where
  /-- 1; R482 R486; 0. D3hot. -/
  d3hot   : Bool := false
  /-- 1; R486; 0. Bus Master Enable. -/
  bme     : Bool := false
  /-- 1; R481 R486; 0. -/
  msixEn  : Bool := false
  /-- 1; R481 R486; 0. -/
  fnMask  : Bool := false
  /-- 1 each; R481; D1 unmasked. The masked vectors. -/
  masked  : List Nat := []
  /-- 1 each; R481; 0. The pending-bit array. -/
  pending : List Nat := []
  /-- 1; R480 R486; 0. Steps 1-4 of an FLR are under way. -/
  flr     : Bool := false
  /-- 1; R482; D1 0. PME_En. -/
  pmeEn   : Bool := false
  /-- 16; R480 R486; 0. -/
  instar  : Instar := {}
  /-- list; R479 R482; empty. Completion-queue writes and messages that wait. -/
  holding : List Out := []
  /-- 1; R479; M false. Bus Master Enable was cleared with DMA outstanding: the hold runs. -/
  hold    : Bool := false
  /-- list; R479; empty. The outstanding DMA reads: tag (the instar at issue) and the context they serve. -/
  dma     : List (Nat × Nat) := []
  /-- 32; R477; 0. The controller configuration register CC. -/
  cc      : Nat := 0
  /-- 1; R477 R486; 0. CSTS.RDY. -/
  rdy     : Bool := false
  /-- 1; R479; 0. CSTS.CFS. -/
  cfs     : Bool := false
  /-- 2; R477; 0. CSTS.SHST. -/
  shst    : Nat := 0
  /-- 32; R476; 0. AQA. -/
  aqa     : Nat := 0
  /-- 64; R476; 0. ASQ. -/
  asq     : Nat := 0
  /-- 64; R476; 0. ACQ. -/
  acq     : Nat := 0
  /-- 16 each; R477; 0. The tail of each submission queue and the head of each completion queue, by doorbell index. -/
  bells   : Tbl Nat := []
  /-- 1 each; R477; none. The queues that have a fetch started. -/
  fetching : List Nat := []
  deriving DecidableEq, Repr

/-- The service port (chapter 17). -/
structure Svc where
  /-- 1; R486; 0. -/
  linkUp  : Bool := false
  /-- 3; R486; 0. -/
  gts     : Nat := 0
  /-- 4; R486; 0. -/
  width   : Nat := 0
  /-- 1; R486; 0. SVC_PERST_L asserted. -/
  perst   : Bool := false
  /-- 1; R482 R486; 0. SVC_WAKE_L driven. -/
  wake    : Bool := false
  /-- 7; R485; M 0. The function whose PME first drove SVC_WAKE_L. -/
  wakeFn  : Nat := 0
  /-- 7; R486; 0. NumVFs in force. -/
  vfs     : Nat := 0
  /-- 66 functions; R475; each at its reset value. -/
  fns     : Tbl SvcFn := []
  /-- 8; R483; D1 0 (unassigned). The endpoint ID of PF0. -/
  eid     : Nat := 0
  /-- 1; R483; M false. An MCTP message is in assembly. -/
  mctpAsm : Bool := false
  deriving DecidableEq, Repr

/-- One event record (R497); its CRC is computed from its bytes. -/
structure EvRec where
  seq      : Nat := 0
  num      : Nat := 0
  cls      : Nat := 0
  late     : Bool := false
  cycles   : Nat := 0
  timebase : Nat := 0
  odometer : Nat := 0
  inst     : Nat := 0xFFFF
  instar   : Nat := 0
  vss      : Nat := 0xFFFF
  detail   : List Nat := []
  deriving DecidableEq, Repr

/-- One slot of the event ring (R498, R501): empty, a record, or a record that is torn or uncorrectable. -/
inductive RingSlot where
  | empty
  | ok (r : EvRec)
  | torn (seq : Nat)
  | bad (seq : Nat)
  deriving DecidableEq, Repr

/-- The event recorder (R497 to R503). -/
structure Evr where
  /-- 64; R498 R516; set in Boot (M 0 until the scan). The next sequence to be assigned. -/
  head    : Nat := 0
  /-- 1; R498 R499; M false. The Boot scan of the ring has found the next sequence. -/
  scanned : Bool := false
  /-- 262,144 slots of 256 B; R498; empty (kept by every reset, R53). -/
  ring    : Tbl RingSlot := []
  /-- up to 1,024 records; R499; empty. The on-chip queue, oldest first. -/
  queue   : List EvRec := []
  /-- list; R501; empty. The sequences dropped or suppressed. -/
  lost    : List Nat := []
  /-- 32; R499; M 0. The drops not yet reported by an EVR_RECORDS_LOST record. -/
  lostNew : Nat := 0
  /-- 64; R500; M 0. The second of the timebase the rate counts below belong to. -/
  sec     : Nat := 0
  /-- 32; R500; M 0. Records written in that second, per event number. -/
  perNum  : Tbl Nat := []
  /-- 32; R500; M 0. Records written in that second, all numbers. -/
  total   : Nat := 0
  /-- 48 each; R500; M 0. Records suppressed since the last summary, per event number. -/
  supp    : Tbl Nat := []
  /-- 40; R503; header (0 unformatted). The odometer in seconds. -/
  odo     : Nat := 0
  /-- 32; R53 R516; header (0 unformatted). The power-cycle count. -/
  cycles  : Nat := 0
  deriving DecidableEq, Repr

/-- One cyclometer counter (R504 to R507). -/
structure CycCtr where
  /-- 16; R516; 0. -/
  event : Nat := 0
  /-- 1; R516; 0. -/
  enable : Bool := false
  /-- 1; R506 R516; 0. -/
  chain : Bool := false
  /-- 1; R507 R516; 0. -/
  window : Bool := false
  /-- 1; R504 R516; 0. -/
  vssFilter : Bool := false
  /-- 12; R504 R516; 0. -/
  vss : Nat := 0
  /-- 16; R504 R516; 0. -/
  inst : Nat := 0
  /-- 1; R504 R516; 0. -/
  instFilter : Bool := false
  /-- 48; R504 R516; 0. -/
  value : Nat := 0
  /-- 1; R504 R516; 0. -/
  ovf : Bool := false
  /-- 48; R507 R516; 0. Count of the last completed window. -/
  windowVal : Nat := 0
  deriving DecidableEq, Repr

/-- The cyclometer (R504 to R509). -/
structure Cyc where
  /-- 512; R504; 0. -/
  ctrs   : Tbl CycCtr := []
  /-- 1; R516; 0. -/
  frozen : Bool := false
  /-- 2; R516; 0. -/
  cause  : Nat := 0
  /-- 1; R516; 0. -/
  onPin  : Bool := false
  /-- 1; R516; 0. -/
  onEvent : Bool := false
  /-- 16; R516; 0. -/
  freezeEvent : Nat := 0
  deriving DecidableEq, Repr

/-- What an item held at a point is: the command it came by, with its operands (R511). -/
inductive HeldCmd where
  /-- ROCE_PACKET_RECEIVE: a packet out of an ingress queue. -/
  | packet (sub : Nat) (p : RocePkt)
  /-- The six host command rows: an SQE, by the operation's number (0 read to 5 compare). -/
  | sqe (op : Nat) (h : HostCmd)
  /-- TANDEM_ECHO_ARRIVAL. -/
  | echo (page seq ns : Nat)
  /-- DRIVE_COMPLETION. -/
  | drive (spoke slot hi : Nat) (r : DriveResult)
  /-- SVC_DMA_READ_COMPLETION. -/
  | dma (fn tag : Nat) (what : DmaRead) (urca : Bool)
  /-- PORPOR_ACCEPT. -/
  | accept (qp slot : Nat)
  /-- PORPOR_REFUSE. -/
  | refuse (qp slot code : Nat)
  deriving DecidableEq, Repr

/-- An item an injector holds (R512): where it was taken from and the command it will be released as. -/
structure HeldItem where
  inst  : Nat
  delay : Nat
  cmd   : HeldCmd
  deriving DecidableEq, Repr

/-- One perturbation injector (R511, R512). -/
structure Injector where
  /-- 4; R516; 0. -/
  point : Nat := 0
  /-- 3; R516; 0. -/
  kind  : Nat := 0
  /-- 1; R516; 0. -/
  armed : Bool := false
  /-- 1; R516; 0. -/
  instFilter : Bool := false
  /-- 16; R516; 0. -/
  inst  : Nat := 0
  /-- 16; R516; 0. MIN, ON or N. -/
  pmin  : Nat := 0
  /-- 12; R516; 0. MAX or OFF. -/
  pmax  : Nat := 0
  /-- 32; R511; M 0. Items seen since the arm, for kind 4. -/
  seen  : Nat := 0
  /-- list; R512; empty. The items it holds, in arrival order. -/
  items : List HeldItem := []
  deriving DecidableEq, Repr

/-- One capture record (R512). -/
structure CapRec where
  timebase : Nat := 0
  injector : Nat := 0
  point    : Nat := 0
  kind     : Nat := 0
  action   : Nat := 0
  inst     : Nat := 0
  delay    : Nat := 0
  deriving DecidableEq, Repr

/-- The perturbation block (R510 to R512). -/
structure Ptb where
  /-- 1; R511 R516; 0. Test features in effect. -/
  available : Bool := false
  /-- 1; R516; 0. -/
  badCfg : Bool := false
  /-- 8; R511; each at its reset value. -/
  injs   : Tbl Injector := []
  /-- pool 3 / 32 B records; R512; empty. -/
  caps   : Tbl CapRec := []
  /-- 32; R512; M 0. The next capture record to be written. -/
  capNext : Nat := 0
  deriving DecidableEq, Repr

/-- One DRAM region (R61, R92, R516). -/
structure Region where
  /-- 2; R516; image (0 not declared). 1 strong, 2 light. -/
  code : Nat := 0
  /-- 6; R516 R92; image (0). -/
  use  : Nat := 0
  /-- 32; R92; image (0). Base in MiB. -/
  base : Nat := 0
  /-- 32; R92; image (0). Length in MiB. -/
  len  : Nat := 0
  /-- 1; R61 R516; 0. Swept. -/
  init : Bool := false
  /-- 7; R516; 0. SCRUB_PCT. -/
  scrubPct : Nat := 0
  /-- 32; R492; M 0. Corrections in the current hour. -/
  corrHour : Nat := 0
  /-- 64; R492; M 0. The hour they belong to. -/
  hour : Nat := 0
  /-- list; R492 R493; empty. The poisoned line addresses. -/
  poison : List Nat := []
  deriving DecidableEq, Repr

/-- The memory controllers and the flip mask (R491 to R496). -/
structure MemCtl where
  /-- 16; R92 R516; image. -/
  regions : Tbl Region := []
  /-- 5; R516; 0. -/
  flipTarget : Nat := 0
  /-- 3; R516; 0. -/
  flipWord : Nat := 0
  /-- 1; R516; 0. -/
  flipArm : Bool := false
  /-- 1; R516; 0. -/
  flipRefused : Bool := false
  /-- 64; R516; 0. -/
  flipAddr : Nat := 0
  /-- list; R496; empty. The flipped lines that nothing has read or rewritten yet: target, address, and whether their code only detects
  the flip. -/
  flips : List (Nat × Nat × Bool) := []
  deriving DecidableEq, Repr

/-- The whole machine. -/
structure State where
  /-- list; (the block's interface); empty. The commands that wait, first in, first out. -/
  pending : List Instr := []
  /-- list; (the block's interface); M empty. What the block has sent out, newest first. -/
  out     : List Out := []
  /-- 64; R518; 0. The timebase in 10 ns ticks, GBL_TIMEBASE. -/
  now     : Nat := 0
  /-- counter; (log 4); M 0. Advances with every free value taken. -/
  freeCtr : Nat := 0
  glb  : Glb := {}
  regs : Regs := {}
  nor  : Nor := {}
  cfg  : Cfg := {}
  trs  : Trs := {}
  prt  : Prt := {}
  rdt  : Rdt := {}
  cfe  : Cfe := {}
  cat  : Catalog := {}
  seq  : Seq := {}
  coc  : Coc := {}
  xfm  : Xfm := {}
  fed  : Fed := {}
  swc  : Swc := {}
  sch  : Sch := {}
  spk  : Spk := {}
  bay  : Bay := {}
  tdm  : Tdm := {}
  svc  : Svc := {}
  evr  : Evr := {}
  cyc  : Cyc := {}
  ptb  : Ptb := {}
  mem  : MemCtl := {}
  deriving DecidableEq, Repr

/-- The machine right after power-on reset: Held, PWRON_L asserted (R47), every field at its reset value. -/
def State.reset : State := {}

end Sys2Proof.Machine
end

