-- ==== Sys2Proof/Machine/Operands.lean ====
section
/-! DEFINITION. The forms in which operands and state are read and written: sparse tables and byte memories in canonical form,
byte strings in the byte order of R5, checksums and digests. -/

namespace Sys2Proof.Machine

/-! ### Sparse tables -/

/-- The value a table holds at an index; `d` is what an unlisted index holds. -/
def tget {α : Type} (t : Tbl α) (d : α) (k : Nat) : α :=
  match t with
  | [] => d
  | (i, v) :: r => if i = k then v else tget r d k

/-- The table without the index `k`. -/
def tdel {α : Type} (t : Tbl α) (k : Nat) : Tbl α :=
  match t with
  | [] => []
  | (i, v) :: r => if i = k then r else if k < i then (i, v) :: r else (i, v) :: tdel r k

/-- The table with `v` at the index `k`, its indices kept rising. -/
def tins {α : Type} (t : Tbl α) (k : Nat) (v : α) : Tbl α :=
  match t with
  | [] => [(k, v)]
  | (i, w) :: r => if i = k then (k, v) :: r else if k < i then (k, v) :: (i, w) :: r else (i, w) :: tins r k v

/-- Write a table: a value equal to the default removes the entry, so that equal tables are equal data. -/
def tput {α : Type} [DecidableEq α] (t : Tbl α) (d : α) (k : Nat) (v : α) : Tbl α :=
  if v = d then tdel t k else tins t k v

/-- The canonical form: indices strictly rising, all at or above `lo`, and no entry equal to the default. -/
def twf {α : Type} [DecidableEq α] (d : α) (lo : Nat) (t : Tbl α) : Bool :=
  match t with
  | [] => true
  | (i, v) :: r => decide (lo ≤ i) && decide (v ≠ d) && twf d (i + 1) r

/-! ### Byte memories -/

/-- The byte a memory holds at an address; an unlisted address reads as `d`. -/
def memRead (d : Byte) (m : List Host.Cell) (a : Nat) : Byte := tget m d a

/-- Write one byte. -/
def memWrite (d : Byte) (m : List Host.Cell) (a : Nat) (b : Byte) : List Host.Cell := tput m d a b

/-- The canonical form of a byte memory. -/
def Memory.wf (d : Byte) (m : List Host.Cell) : Bool := twf d 0 m

/-- Write a string of bytes from an address on. -/
def memWriteBytes (d : Byte) (m : List Host.Cell) (a : Nat) (bs : List Byte) : List Host.Cell :=
  match bs with
  | [] => m
  | b :: r => memWriteBytes d (memWrite d m a b) (a + 1) r

/-- Read `n` bytes from an address on. -/
def memReadBytes (d : Byte) (m : List Host.Cell) (a n : Nat) : List Byte :=
  (List.range n).map fun i => memRead d m (a + i)

/-! ### Byte strings (R5) -/

/-- A little-endian byte string as a number. -/
def leNat (bs : List Byte) : Nat :=
  match bs with
  | [] => 0
  | b :: r => b.toNat + 256 * leNat r

/-- The `n` bytes of a number, lowest first. -/
def leBytes (n v : Nat) : List Nat :=
  match n with
  | 0 => []
  | k + 1 => v % 256 :: leBytes k (v / 256)

/-- The little-endian field of `len` bytes at byte `off`; bytes past the end read as 0. -/
def leAt (bs : List Byte) (off len : Nat) : Nat := leNat ((bs.drop off).take len)

/-- One bit step of CRC-32C (Castagnoli, reflected polynomial 0x82F6_3B78). -/
def crcBit (c : Nat) : Nat := if c % 2 = 1 then (c / 2) ^^^ 0x82F63B78 else c / 2

/-- CRC-32C of a byte string (R497, R121). -/
def crc32c (bs : List Nat) : Nat :=
  (bs.foldl (fun c b => crcBit (crcBit (crcBit (crcBit (crcBit (crcBit (crcBit (crcBit (c ^^^ b))))))))) 0xFFFFFFFF)
    ^^^ 0xFFFFFFFF

/-- The low 64 bits of a SHA-384 digest (R547). -/
def digest64 (d : Nat) : Nat := d % 2 ^ 64

end Sys2Proof.Machine
end

