-- ==== Sys2Proof/Machine/Ops.lean ====
section
/-! DEFINITION. The named operations every family shares: counters, instars, the cyclometer, the event recorder, MSI-X messages and outputs. -/

namespace Sys2Proof.Machine

/-! ### Registers that count or latch -/

/-- The key of a register: its offset and its instance. -/
def rk (off inst : Nat) : Nat := off + 2 ^ 20 * inst

/-- Add to an RC counter, which saturates at 32 bits. -/
def rcAdd (s : State) (off inst n : Nat) : State :=
  { s with regs := { s.regs with
      rc := tput s.regs.rc 0 (rk off inst) (satAdd 0xFFFFFFFF (tget s.regs.rc 0 (rk off inst)) n) } }

/-- Raise an RC register that keeps a maximum. -/
def rcMax (s : State) (off inst n : Nat) : State :=
  { s with regs := { s.regs with rc := tput s.regs.rc 0 (rk off inst) (max (tget s.regs.rc 0 (rk off inst)) n) } }

/-- Set bits of a W1C register. -/
def w1cSet (s : State) (off inst bits : Nat) : State :=
  { s with regs := { s.regs with w1c := tput s.regs.w1c 0 (rk off inst) (tget s.regs.w1c 0 (rk off inst) ||| bits) } }

/-- The value of an RW register. -/
def rwGet (s : State) (off inst : Nat) : Nat := tget s.regs.rw 0 (rk off inst)

/-- Store an RW register. -/
def rwPut (s : State) (off inst v : Nat) : State :=
  { s with regs := { s.regs with rw := tput s.regs.rw 0 (rk off inst) v } }

/-! ### Outputs and free values -/

/-- Send one item out. -/
def emit (s : State) (o : Out) : State := { s with out := o :: s.out }

/-- The next free value, and the state that has taken it (log 4). -/
def takeFree (s : State) : Nat × State := (Config.freeValue s.freeCtr, { s with freeCtr := s.freeCtr + 1 })

/-- As many free values as are asked for. -/
def takeFrees (s : State) (n : Nat) : List Nat × State :=
  ((List.range n).map fun i => Config.freeValue (s.freeCtr + i), { s with freeCtr := s.freeCtr + n })

/-! ### Parameters of the running image -/

/-- The bytes of the running image's section of a type, if it is present (R83). -/
def sectionOf (c : Cfg) (ty : Nat) : Option (List Byte) :=
  (c.sections.find? fun x => x.1 == ty).map fun x => x.2.2

/-- A parameter of the running image: `len` bytes at byte `off` of section `ty`, or the chapter's default `dflt` when the
section is absent (R83). -/
def par (s : State) (ty off len dflt : Nat) : Nat :=
  match sectionOf s.cfg ty with
  | some bs => leAt bs off len
  | none => dflt

/-! ### The mode priority rule -/

/-- The place of a mode event in the list of R48. -/
def modeRank : ModeEvent → Nat
  | .pwron => 1 | .pwrfail => 2 | .fatal => 3 | .reset => 4 | .drain => 5 | .group => 6

/-- R48: an event of the same tick stands before this one, so this one is discarded. -/
def outranked (rivals : List ModeEvent) (e : ModeEvent) : Bool := rivals.any fun r => modeRank r < modeRank e

/-- The milliseconds, microseconds and seconds of the timebase, in its 10 ns ticks. -/
def ticksUs (n : Nat) : Nat := 100 * n
/-- Milliseconds in ticks. -/
def ticksMs (n : Nat) : Nat := 100000 * n
/-- Seconds in ticks. -/
def ticksS (n : Nat) : Nat := 100000000 * n

/-! ### Instars (R37 to R41) -/

/-- The spacing rule lets an instar be bumped now (R39). -/
def bumpRoom (i : Instar) (now gap : Nat) : Bool :=
  match i.lastBump with
  | none => true
  | some t => decide (t + gap ≤ now)

/-- One of the bumps that an instar owes, if the spacing rule lets it follow now (R39). -/
def lateBump (i : Instar) (now gap : Nat) : Instar :=
  if 0 < i.pending && bumpRoom i now gap then
    { val := i.val + 1, lastBump := some now, pending := i.pending - 1, reported := false }
  else i

/-- Bump an instar at most once per `gap` ticks; an earlier request is held back, and every one held back follows (R38, R39). -/
def bumpInstar (i : Instar) (now gap : Nat) : Instar := lateBump { i with pending := i.pending + 1 } now gap

/-- The tag of what is issued now: the instar as if the bumps held back had taken place (R39). -/
def tagOfInstar (i : Instar) : Nat := (i.val.toNat + i.pending) % 65536

/-- An arrival that bears an old instar; while a bump is held back, every arrival issued before it is old (R37, R39, R41). -/
def stale (i : Instar) (tag : Nat) : Bool := tagOfInstar i != tag

/-! ### Service-port functions and MSI-X (R481, R482) -/

/-- A function of the service port. -/
def fnOf (s : State) (fn : Nat) : SvcFn := tget s.svc.fns {} fn

/-- Write a function of the service port. -/
def setFn (s : State) (fn : Nat) (f : SvcFn) : State :=
  { s with svc := { s.svc with fns := tput s.svc.fns {} fn f } }

/-- An interrupt source of a function (R479, R481, R482): in D3cold a PME that drives SVC_WAKE_L; nothing while MSI-X is off; the pending
bit while masked; a message that waits while Bus Master Enable is clear or in D3hot, where it may be a PME; else the message itself. -/
def raiseVec (s : State) (fn vec : Nat) : State :=
  let f := fnOf s fn
  if s.svc.perst then
    (if f.pmeEn then
      rcAdd { s with svc := { s.svc with wake := true, wakeFn := if s.svc.wake then s.svc.wakeFn else fn } } 0xD001C 0 1
     else s)
  else if !f.msixEn then s
  else if f.fnMask || f.masked.contains vec then
    setFn s fn { f with pending := if f.pending.contains vec then f.pending else f.pending ++ [vec] }
  else if f.d3hot then
    let s := setFn s fn { f with holding := f.holding ++ [.msix fn vec] }
    if f.pmeEn then emit (rcAdd s 0xD001C 0 1) (.pme fn) else s
  else if !f.bme then setFn s fn { f with holding := f.holding ++ [.msix fn vec] }
  else emit s (.msix fn vec)

/-- The word GBL_MODE reads (R72); PAIR reads Solo in Boot and Safe (R51); the owned groups are those whose line the controller holds. -/
def gblModeWord (s : State) : Nat :=
  (match s.glb.mode with | .held => 0 | .boot => 1 | .standby => 2 | .active => 3 | .drain => 4 | .safe => 5)
  + 8 * (if s.glb.mode = .boot || s.glb.mode = .safe then 0 else match s.glb.pair with | .solo => 0 | .paired => 1 | .degraded => 2)
  + 32 * (match s.glb.drainReason with | .none => 0 | .activation => 1 | .shutdown => 2 | .powerFail => 3)
  + 256 * bit s.tdm.grp0.owned + 512 * bit s.tdm.grp1.owned + 1024 * bit s.glb.bootHalted

/-- Raise PF0 vector 1 when GBL_MODE has changed since `s0` (R481). -/
def noteMode (s0 s1 : State) : State := if gblModeWord s0 = gblModeWord s1 then s1 else raiseVec s1 0 1

/-! ### The cyclometer (R504 to R508) -/

/-- Whether a counter counts an event (R504). -/
def cycMatch (c : CycCtr) (num : Nat) (inst vss : Option Nat) : Bool :=
  c.enable && c.event == num && (!c.instFilter || inst == some c.inst) && (!c.vssFilter || vss == some c.vss)

/-- A counter after adding `n`: at 2^48 it wraps and sets OVF (R504). -/
def cycAdd (c : CycCtr) (n : Nat) : CycCtr :=
  if c.value + n < 2 ^ 48 then { c with value := c.value + n }
  else { c with value := (c.value + n) % 2 ^ 48, ovf := true }

/-- The overflow of counter `k` counts in its odd partner when it is chained (R506). -/
def cycChainUp (t : Tbl CycCtr) (k : Nat) (c : CycCtr) (n : Nat) : Tbl CycCtr :=
  if c.chain && k % 2 == 0 && decide (2 ^ 48 ≤ c.value + n) then
    tput t {} (k + 1) (cycAdd (tget t {} (k + 1)) 1)
  else t

/-- One counter's share of an event; the odd partner of a chained counter counts overflows only (R506). -/
def cycOne (t0 : Tbl CycCtr) (num : Nat) (inst vss : Option Nat) (n : Nat) (t : Tbl CycCtr) (k : Nat) : Tbl CycCtr :=
  let c := tget t {} k
  if k % 2 == 1 && (tget t0 {} (k - 1)).chain then t
  else if cycMatch c num inst vss then cycChainUp (tput t {} k (cycAdd c n)) k c n
  else t

/-- Whether an event makes a counter overflow. -/
def cycOverflows (t0 : Tbl CycCtr) (num : Nat) (inst vss : Option Nat) (n k : Nat) : Bool :=
  let c := tget t0 {} k
  !(k % 2 == 1 && (tget t0 {} (k - 1)).chain) && cycMatch c num inst vss && decide (2 ^ 48 ≤ c.value + n)

/-- Count a cyclometer event with its instance and tenant; nothing while frozen (R504, R508). -/
def count (s : State) (num : Nat) (inst vss : Option Nat := none) (n : Nat := 1) : State :=
  if s.cyc.frozen then s
  else { s with cyc := { s.cyc with
           ctrs := (s.cyc.ctrs.map Prod.fst).foldl (cycOne s.cyc.ctrs num inst vss n) s.cyc.ctrs } }

/-- A message goes out on the tandem link; the spec does not fix how many flits it takes, so the flits sent, which stay in the replay buffer until
they are acknowledged (R455), grow by a free value (R505, log 4). -/
def tdmSend (s : State) (o : Out) : State :=
  let (n, s) := takeFree s
  emit (count { s with tdm := { s.tdm with txOut := s.tdm.txOut + n } } 0x0B01 none none n) o

/-! ### The event recorder (R490, R497 to R500) -/

/-- What an event carries when it arises. -/
structure Ev where
  num    : Nat
  inst   : Nat := 0xFFFF
  instar : Nat := 0
  vss    : Nat := 0xFFFF
  detail : List Nat := []

/-- The class of an event number (R490): 1 Notice, 2 Transient, 3 Lasting, 4 Critical. -/
def eventClass (num : Nat) : Nat :=
  if num % 256 = 0 then 2
  else if [0x0103, 0x0201, 0x0301, 0x0603, 0x0706, 0x0807, 0x0820, 0x0902, 0x0904, 0x0909, 0x0A03, 0x0A04, 0x0A11,
           0x0B04, 0x0B0D, 0x0B08, 0x0B0E, 0x0F02, 0x0F03].contains num then 3
  else if [0x0C41, 0x0C40, 0x0710, 0x0708, 0x0704, 0x070E, 0x0806, 0x080A, 0x080D, 0x0802, 0x0822, 0x0517,
           0x0C02].contains num then 4
  else if 0x0D01 ≤ num ∧ num ≤ 0x0D43 then 4
  else 1

/-- The ring can be written: the cocoon is up and formatted, both stacks work and are not write-protected (R499). -/
def ringWritable (s : State) : Bool :=
  s.coc.up && s.coc.formatted && !s.coc.stackBad0 && !s.coc.stackBad1 && !s.coc.protect

/-- RATE_MAX and RING_RATE_MAX (R513). -/
def rateMax (s : State) : Nat := par s 0x13 2 2 100
/-- RING_RATE_MAX (R513). -/
def ringRateMax (s : State) : Nat := par s 0x13 4 4 1000
/-- NOTIFY_CLASS (R513). -/
def notifyClass (s : State) : Nat := par s 0x13 0 1 3

/-- What becomes of an event. -/
inductive Fate where
  | ring | queued | dropped | suppressed
  deriving DecidableEq, Repr

/-- The rate counts of the current second of the timebase (R500). -/
def rollSecond (s : State) : State :=
  if s.evr.sec = s.now / 100000000 then s
  else { s with evr := { s.evr with sec := s.now / 100000000, perNum := [], total := 0 } }

/-- Critical records and the summary pass both limits (R500). -/
def rateExempt (num : Nat) : Bool := eventClass num == 4 || num == 0x0C30

/-- What becomes of an event of a number, in the second that is current (R499, R500). -/
def fateOf (s : State) (num : Nat) : Fate :=
  if s.coc.up && !s.coc.formatted then .dropped
  else if !rateExempt num && (decide (rateMax s ≤ tget s.evr.perNum 0 num) || decide (ringRateMax s ≤ s.evr.total)) then
    .suppressed
  else if ringWritable s && s.evr.scanned && s.evr.queue.isEmpty then .ring
  else if s.evr.queue.length < 1024 then .queued
  else .dropped

/-- The record of an event, under the sequence that is next (R497). -/
def recordOf (s : State) (e : Ev) (late : Bool) : EvRec :=
  { seq := s.evr.head, num := e.num, cls := eventClass e.num, late := late, cycles := s.evr.cycles, timebase := s.now,
    odometer := s.evr.odo, inst := e.inst, instar := e.instar, vss := e.vss, detail := e.detail.take 26 }

/-- Take the next sequence number, once the Boot scan has found it (R498, R499). -/
def takeSeq (s : State) : State :=
  if s.evr.scanned then { s with evr := { s.evr with head := s.evr.head + 1 } } else s

/-- Write a record into its ring slot (R498) and notify PF0 by its class (R481). -/
def ringPut (s : State) (r : EvRec) : State :=
  let s := { s with evr := { s.evr with ring := tput s.evr.ring .empty (r.seq % 262144) (.ok r) } }
  if notifyClass s ≤ r.cls then raiseVec s 0 2 else s

/-- Count a record against the limits of R500. -/
def countRate (s : State) (num : Nat) : State :=
  if rateExempt num then s
  else { s with evr := { s.evr with perNum := tput s.evr.perNum 0 num (tget s.evr.perNum 0 num + 1),
                                    total := s.evr.total + 1 } }

/-- The sequence that is next is lost (R501). -/
def loseSeq (s : State) : State :=
  if s.evr.scanned then takeSeq { s with evr := { s.evr with lost := s.evr.head :: s.evr.lost } } else s

/-- An event, without the freeze of R508: written, queued, dropped and counted, or suppressed and counted. -/
def placeEvent (s : State) (e : Ev) : State :=
  let s := rollSecond s
  match fateOf s e.num with
  | .ring => takeSeq (ringPut (countRate s e.num) (recordOf s e false))
  | .queued =>
    takeSeq { (countRate s e.num) with
      evr := { (countRate s e.num).evr with queue := s.evr.queue ++ [recordOf s e true] } }
  | .dropped =>
    let s := rcAdd s 0x18014 0 1
    let s := { s with evr := { s.evr with lostNew := s.evr.lostNew + 1 } }
    if s.coc.up && !s.coc.formatted then s else loseSeq s
  | .suppressed =>
    let s := rcAdd s 0x18018 0 1
    loseSeq { s with evr := { s.evr with supp := tput s.evr.supp 0 e.num (tget s.evr.supp 0 e.num + 1) } }

/-- Freeze every counter and write CYC_FROZEN with the cause: 1 register, 2 pin, 3 event (R508). -/
def freezeNow (s : State) (cause : Nat) : State :=
  if s.cyc.frozen then s
  else placeEvent { s with cyc := { s.cyc with frozen := true, cause := cause } } { num := 0x0C50, detail := [cause] }

/-- The writing of a record freezes the counters when its number is FREEZE_EVENT (R508). -/
def freezeOn (s : State) (num : Nat) : State :=
  if s.cyc.onEvent && s.cyc.freezeEvent == num then freezeNow s 3 else s

/-- An event arises (R498 to R500, R508); a take-over or ANA event also raises PF0 vector 3 (R481). -/
def writeEvent (s : State) (e : Ev) : State :=
  let f := fateOf (rollSecond s) e.num
  let s := placeEvent s e
  let s := if f = .ring then freezeOn s e.num else s
  if [0x0B05, 0x0B06, 0x0505].contains e.num then raiseVec s 0 3 else s

/-- A transient fault of a range: its cyclometer event and its transient record (R487, R488). -/
def transient (s : State) (range obj status lasting : Nat) : State :=
  writeEvent (count s (range * 256) (some obj)) { num := range * 256, inst := obj, detail := [obj, Config.code (range * 256) status, lasting] }

/-- An arrival under an old instar is discarded: counted, and reported once per bump (R37). Gives the instar as it now
stands. -/
def discardStale (s : State) (range ev obj : Nat) (i : Instar) : State × Instar :=
  let s := count s (range * 256 + 0xF0) (some obj)
  if i.reported then (s, i)
  else (writeEvent s { num := ev, inst := obj, instar := i.val.toNat, detail := [obj] }, { i with reported := true })

/-! ### Boot stages (R56, R57) -/

/-- The range a boot stage reports under (R488). -/
def stepRange (n : Nat) : Nat :=
  match n with
  | 3 | 5 => 0x0D
  | 4 | 8 => 0x0C
  | _ => 0x0F

/-- A retry has cured a stage (R57). -/
def cured (s : State) (n obj : Nat) : State :=
  transient { s with glb := { s.glb with transientSeen := true } } (stepRange n) obj 1 0x0C41

end Sys2Proof.Machine
end

