-- ==== Sys2Proof/Machine/ImageCheck.lean ====
section
/-! DEFINITION. The configuration image as bytes: its header and section table (R81, R82), the verification of step 4 (R86), and
the engine that range-checks sections by the rows of their layout tables (R98, R546). -/

namespace Sys2Proof.Machine

/-! ### Step 4 -/

/-- A reject: its code (R99), the section type (0 for the header) and the image byte offset. -/
structure Reject where
  code : Nat
  ty   : Nat
  off  : Nat
  /-- What CFG_CLAIM_CONFLICT also carries: kind, resource, both claimants and both entry indices. -/
  more : List Nat := []
  deriving DecidableEq, Repr

/-- The reject of a broken condition. -/
def rejectIf (bad : Bool) (code ty off : Nat) : Option Reject := if bad then some { code := code, ty := ty, off := off } else none

/-- The first reject of a list of checks, in order. -/
def firstReject (l : List (Option Reject)) : Option Reject := l.findSome? id

/-- The decoded state of an owner slot (R110). -/
def ownerState (o : OwnerSlot) : Nat :=
  if !o.enrolled && !o.void && o.ed.isEmpty && o.ml.isEmpty then 0
  else if o.enrolled && o.void then 2
  else if o.enrolled && !o.void && o.keysOk then 1
  else 3

/-- An owner key slot. -/
def ownerOf (s : State) (i : Nat) : OwnerSlot := tget s.trs.owner {} i

/-- Some slot is enrolled (R111). -/
def owned (s : State) : Bool := [0, 1, 2, 3].any fun i => ownerState (ownerOf s i) == 1

/-- The four slot states, two bits each, slot 0 lowest (R132). -/
def ownerStates (s : State) : Nat :=
  ownerState (ownerOf s 0) + 4 * ownerState (ownerOf s 1) + 16 * ownerState (ownerOf s 2) + 64 * ownerState (ownerOf s 3)

/-- The minimum security version: the last entry burned, 0 when none (R117). -/
def minSvn (s : State) : Nat := s.trs.svnBank.getLastD 0

/-- The header checks of R81 in byte order. -/
def headerReject (s : State) (slotSize : Nat) (b : List Byte) : Option Reject :=
  firstReject [
    rejectIf (leAt b 0 4 != 0x4D49594C) 0x0D01 0 0,
    rejectIf (leAt b 4 2 != 1) 0x0D02 0 4,
    rejectIf (leAt b 6 2 != 64) 0x0D02 0 6,
    rejectIf (decide (50331648 < leAt b 8 4) || decide (slotSize < leAt b 8 4)) 0x0D03 0 8,
    rejectIf (leAt b 18 2 == 0 || decide (32 < leAt b 18 2)) 0x0D20 0 18,
    rejectIf (leAt b 20 4 != 64) 0x0D02 0 20,
    rejectIf (leAt b 24 4 % 16 != 0) 0x0D03 0 24,
    rejectIf (leAt b 8 4 != leAt b 24 4 + 3392) 0x0D03 0 24,
    rejectIf (leAt b 28 4 != 0x6400A1C0) 0x0D04 0 28,
    rejectIf (field (leAt b 32 1) 2 6 != 0) 0x0D25 0 32,
    rejectIf (decide (3 < leAt b 33 1) || ownerState (ownerOf s (leAt b 33 1)) != 1) 0x0D05 0 33,
    rejectIf (leAt b 34 2 != 0) 0x0D25 0 34,
    rejectIf (leAt b 44 20 != 0) 0x0D25 0 44]

/-- The first byte from `lo` to `hi` - 1 that is not zero. -/
def firstUsed (b : List Byte) (lo hi : Nat) : Option Nat :=
  (((b.drop lo).take (hi - lo)).findIdx? fun x => x != 0).map fun k => lo + k

/-- One entry of the section table, in byte order, and then the unused bytes before its section; `prevEnd` is the end of the
part before it. After the last entry, the unused bytes up to SIG_OFFSET (R82). -/
def tableReject (b : List Byte) (n i prevEnd : Nat) : Option Reject :=
  let unused := fun (hi : Nat) => (firstUsed b prevEnd hi).map fun k => ({ code := 0x0D20, ty := 0, off := k } : Reject)
  match n with
  | 0 => unused (leAt b 24 4)
  | k + 1 =>
    let e := 64 + 16 * i
    let off := leAt b (e + 4) 4
    let len := leAt b (e + 8) 4
    match firstReject [
      rejectIf (leAt b (e + 2) 2 != 0) 0x0D25 0 (e + 2),
      rejectIf (off % 16 != 0 || decide (off < prevEnd) || decide (leAt b 24 4 < off + len)
                || (i != 0 && decide (off ≤ leAt b (e - 12) 4))) 0x0D20 0 (e + 4),
      rejectIf (leAt b (e + 12) 4 != 0) 0x0D25 0 (e + 12),
      unused off] with
    | some r => some r
    | none => tableReject b k (i + 1) (off + len)

/-- The checks of step 4 in the order of R86; the signature verdicts come from outside (log 3). No reject is named for a non-zero reserved or
pad byte of the signature block (bytes 8 to 15 and 3,389 to 3,391), so such a block is accepted (DESIGN CHOICE, log 62). -/
def verifyImage (s : State) (slotSize : Nat) (b : List Byte) (v : ImageVerdict) : Option Reject :=
  match headerReject s slotSize b with
  | some r => some r
  | none =>
    let sg := leAt b 24 4
    match tableReject b (leAt b 18 2) 0 (64 + 16 * leAt b 18 2) with
    | some r => some r
    | none => firstReject [
        rejectIf (leAt b sg 4 != 3392 || leAt b (sg + 4) 2 != 64 || leAt b (sg + 6) 2 != 3309) 0x0D10 0 sg,
        rejectIf (!v.ed) 0x0D11 0 (sg + 16),
        rejectIf (!v.ml) 0x0D12 0 (sg + 80),
        rejectIf (decide (leAt b 16 2 < minSvn s)) 0x0D13 0 16]

/-- The sections of an image, in section-table order: type, image offset, bytes. -/
def sectionsOf (b : List Byte) : List (Nat × Nat × List Byte) :=
  (List.range (leAt b 18 2)).map fun i =>
    let e := 64 + 16 * i
    (leAt b e 2, leAt b (e + 4) 4, (b.drop (leAt b (e + 4) 4)).take (leAt b (e + 8) 4))

/-! ### The range-check engine of step 5 -/

/-- What a field of a layout table may hold. -/
inductive Rng where
  | resv
  | any
  | range (lo hi : Nat)
  | oneOf (l : List Nat)
  /-- A rule that ties the field to others of the same entry: the section's bytes and the entry's first byte. -/
  | tie (ok : List Byte → Nat → Bool)

/-- One row of a layout table: byte offset and length, and the bits within (all bits when `bits` is 0). -/
structure Fld where
  off  : Nat
  len  : Nat
  lo   : Nat
  bits : Nat
  rng  : Rng

/-- A row of whole bytes. -/
def fB (off len : Nat) (r : Rng) : Fld := ⟨off, len, 0, 0, r⟩
/-- A row of some bits of one byte. -/
def fb (off lo bits : Nat) (r : Rng) : Fld := ⟨off, 1, lo, bits, r⟩

/-- The value of a row's field. -/
def fldVal (bs : List Byte) (base : Nat) (f : Fld) : Nat :=
  let v := leAt bs (base + f.off) f.len
  if f.bits = 0 then v else field v f.lo f.bits

/-- The reject code of a row, none when it passes; `off` marks a switched-off entry, whose fields may also be 0 (R546). -/
def fldReject (bs : List Byte) (base : Nat) (off : Bool) (f : Fld) : Option Nat :=
  let v := fldVal bs base f
  match f.rng with
  | .resv => if v = 0 then none else some 0x0D25
  | .any => none
  | .range lo hi => if (lo ≤ v ∧ v ≤ hi) ∨ (off = true ∧ v = 0) then none else some 0x0D30
  | .oneOf l => if l.contains v || (off && v == 0) then none else some 0x0D30
  | .tie ok => if ok bs base then none else some 0x0D30

/-- The first reject among the rows of one entry: code and byte offset within the section. -/
def rowsReject (bs : List Byte) (base : Nat) (off : Bool) (fs : List Fld) : Option (Nat × Nat) :=
  fs.findSome? fun f => (fldReject bs base off f).map fun c => (c, base + f.off)

/-- The first reject among `n` entries of `size` bytes from `base` on; `isOff` tells a switched-off entry. -/
def entriesReject (bs : List Byte) (base size n : Nat) (isOff : List Byte → Nat → Bool) (fs : List Fld) :
    Option (Nat × Nat) :=
  (List.range n).findSome? fun i => rowsReject bs (base + size * i) (isOff bs (base + size * i)) fs

/-- No entry is switched off. -/
def neverOff (_ : List Byte) (_ : Nat) : Bool := false

end Sys2Proof.Machine
end

