-- ==== Sys2Proof/Machine/Trust.lean ====
section
/-! DEFINITION. Trust, identity and the boot record (chapter 04): owner operations, measurements, the boot record and its region,
and the SPDM responder. -/

namespace Sys2Proof.Machine

/-! ### Owner operations (R110 to R117) -/

/-- A fresh authorization nonce (R114). -/
def newNonce (s : State) : State :=
  let (v, s) := takeFree s
  { s with trs := { s.trs with nonce := BitVec.ofNat 64 v } }

/-- The result of an owner operation: BUSY clears, RESULT is set, results 0, 2, 3 and 8 replace the nonce, and every failure
writes TRS_OWNER_AUTH_FAIL (R114). -/
def authResult (s : State) (op res : Nat) : State :=
  let s := { s with trs := { s.trs with busy := none, result := res } }
  let s := if [0, 2, 3, 8].contains res then newNonce s else s
  if res = 0 then s else writeEvent s { num := 0x0C12, detail := [op, res] }

/-- The modes that serve an owner operation (R114, check 1). -/
def authMode (s : State) : Bool :=
  match s.glb.mode with
  | .standby | .active | .drain | .safe => true
  | .held | .boot => false

/-- Some other slot than `t` is enrolled (R114, check 6). -/
def otherEnrolled (s : State) (t : Nat) : Bool :=
  [0, 1, 2, 3].any fun i => i != t && ownerState (ownerOf s i) == 1

/-- The SVN of the image that runs; none in Safe (R114, check 7). -/
def runningSvn (s : State) : Option Nat :=
  if s.glb.mode = .safe || !s.cfg.valid then none else some (leAt s.cfg.header 16 2)

/-- Checks 5 to 7 of R114, for an operation whose signatures have been dealt with: the first failure, 0 when they pass. -/
def authTarget (s : State) (op target value : Nat) : Nat :=
  match op with
  | 1 => if ownerState (ownerOf s target) = 0 && (owned s || target == 0) then 0 else 5
  | 2 => if ownerState (ownerOf s target) ≠ 1 then 5 else if otherEnrolled s target then 0 else 6
  | _ => match runningSvn s with
         | some r => if minSvn s < value ∧ value ≤ r then 0 else 7
         | none => 7

/-- Start the OTP burn (R115). -/
def startBurn (s : State) (o : AuthOp) : State := { s with trs := { s.trs with busy := some { o with burning := true } } }

/-- The bytes of a byte string as numbers. -/
def natsOf (bs : List Byte) : List Nat := bs.map BitVec.toNat

/-- The digest of a key pair (R112). -/
def keyDigest (ed ml : List Byte) : Nat := Config.sha384 (natsOf (ed ++ ml))

/-- The fingerprint of the device identity (R108). -/
def identityFp : Nat := Config.sha384 (leBytes 32 Config.identityEd ++ leBytes 1952 Config.identityMl)

/-- The 112-byte authorization body (R112), which the trust engine builds from the word written, the nonce, the new keys and its own
fingerprint (R113): OP, TARGET_SLOT, VALUE, four reserved bytes, NONCE, KEY_DIGEST and IDENTITY_FP. -/
def authBody (s : State) (o : AuthOp) : List Nat :=
  [o.op, if o.op = 3 then 0 else o.target] ++ leBytes 2 (if o.op = 3 then o.value else 0) ++ [0, 0, 0, 0] ++ leBytes 8 s.trs.nonce.toNat ++
  leBytes 48 (if o.op = 1 then keyDigest o.ed o.ml else 0) ++ leBytes 48 identityFp

/-- The 64-byte message that both authorization signatures sign (R106, R112): "LYSAR-OWNER-V1", two zero bytes and the digest of the
body. -/
def authMessage (s : State) (o : AuthOp) : List Nat :=
  [0x4C, 0x59, 0x53, 0x41, 0x52, 0x2D, 0x4F, 0x57, 0x4E, 0x45, 0x52, 0x2D, 0x56, 0x31, 0, 0] ++
  leBytes 48 (Config.sha384 (authBody s o))

/-- The operation that a word written to TRS_AUTH_CTL starts, with the new keys that TRS_BUF holds at the write (R113, R116). -/
def authOpOf (s : State) (v : Nat) : AuthOp :=
  { op := field v 0 3, target := field v 4 2, signer := field v 6 2, value := field v 16 16, burning := false,
    ed := memReadBytes 0 s.trs.buf 0 32, ml := memReadBytes 0 s.trs.buf 32 1952 }

/-- The signatures of TRS_BUF are checked under the signer's keys over the message of the operation (R112 to R114). -/
def checkAuthSigs (s : State) (o : AuthOp) : State :=
  let k := ownerOf s o.signer
  emit (emit s (.verify 0 (natsOf k.ed) (authMessage s o) (natsOf (memReadBytes 0 s.trs.buf 2048 64))))
    (.verify 1 (natsOf k.ml) (authMessage s o) (natsOf (memReadBytes 0 s.trs.buf 2112 3309)))

/-- A write of TRS_AUTH_CTL (R114, R116): ignored and counted while an operation runs; else checks 1 and 4, and the signature
verification starts. An unowned controller checks no signature and burns nothing but an Enroll into slot 0 (R111). -/
def authStart (s : State) (val : Word) : State :=
  let o := authOpOf s val.toNat
  if s.trs.busy.isSome then count s 0x0002
  else if !authMode s || o.op = 0 || 3 < o.op then authResult s o.op 1
  else if owned s then
    if ownerState (ownerOf s o.signer) ≠ 1 then authResult s o.op 4
    else checkAuthSigs { s with trs := { s.trs with busy := some o } } o
  else if authTarget s o.op o.target o.value ≠ 0 then authResult s o.op (authTarget s o.op o.target o.value)
  else if o.op = 1 then startBurn s o
  else authResult s o.op 4

/-- The signature verification of an owner operation ends (R114, R115). -/
def authVerified (s : State) (v : AuthVerdict) : State :=
  match s.trs.busy with
  | none => s
  | some o =>
    if o.burning then s
    else if !v.ed then authResult s o.op 2
    else if !v.ml then authResult s o.op 3
    else if authTarget s o.op o.target o.value ≠ 0 then authResult s o.op (authTarget s o.op o.target o.value)
    else startBurn s o


/-- Write an owner slot. -/
def setOwner (s : State) (i : Nat) (o : OwnerSlot) : State :=
  { s with trs := { s.trs with owner := tput s.trs.owner {} i o } }

/-- The OTP burn ends (R115): the slot is enrolled or voided, or the SVN bank takes one entry; a burn that did not complete,
or an Advance with every entry burned, is result 8 and leaves OTP unchanged (R114, R117). -/
def burnDone (s : State) (ok : Bool) : State :=
  match s.trs.busy with
  | none => s
  | some o =>
    if !o.burning then s
    else if !ok then authResult s o.op 8
    else match o.op with
      | 1 => writeEvent (authResult (setOwner s o.target
               { enrolled := true, void := false, ed := o.ed, ml := o.ml, keysOk := true }) 1 0)
               { num := 0x0C10, inst := o.target, detail := [o.target, digest64 (keyDigest o.ed o.ml)] }
      | 2 => writeEvent (authResult (setOwner s o.target { ownerOf s o.target with void := true }) 2 0)
               { num := 0x0C11, inst := o.target, detail := [o.target] }
      | _ => if 256 ≤ s.trs.svnBank.length then authResult s o.op 8
             else writeEvent (authResult { s with trs := { s.trs with svnBank := s.trs.svnBank ++ [o.value] } } 3 0)
                    { num := 0x0C13, detail := [minSvn s, o.value] }

/-- Power lost during an Enroll burn leaves the key area no longer blank (R115). Which bits are burned by then is open: the slot holds both
keys whole with a digest that does not match, which reads state 3 as the rule says (DESIGN CHOICE, log 61). -/
def burnLost (t : Trs) : Tbl OwnerSlot :=
  match t.busy with
  | some o => if o.burning && o.op == 1 then
                tput t.owner {} o.target { enrolled := false, void := false, ed := o.ed, ml := o.ml, keysOk := false }
              else t.owner
  | none => t.owner

/-- TRS_ENROLL. -/
def execTrsEnroll (val : Word) (s : State) : Host.Outcome State Fault Refusal := .next (authStart s val)
/-- TRS_REVOKE. -/
def execTrsRevoke (val : Word) (s : State) : Host.Outcome State Fault Refusal := .next (authStart s val)
/-- TRS_ADVANCE_MIN_SVN. -/
def execTrsAdvanceMinSvn (val : Word) (s : State) : Host.Outcome State Fault Refusal := .next (authStart s val)
/-- OTP_BURN_COMPLETE. -/
def execOtpBurnComplete (ok : Bool) (s : State) : Host.Outcome State Fault Refusal := .next (burnDone s ok)
/-- OWNER_AUTH_VERIFICATION_DONE. -/
def execOwnerAuthVerificationDone (v : AuthVerdict) (s : State) : Host.Outcome State Fault Refusal :=
  .next (authVerified s v)

/-- The keys TRS_KEY_READ copies: an enrolled slot's, zeros for any other, the identity's for 4 (R133). -/
def keyBytes (s : State) (what : Nat) : List Byte :=
  if what = 4 then (leBytes 32 Config.identityEd ++ leBytes 1952 Config.identityMl).map (BitVec.ofNat 8)
  else if ownerState (ownerOf s what) = 1 then
    ((ownerOf s what).ed ++ (ownerOf s what).ml ++ List.replicate 1984 0).take 1984
  else List.replicate 1984 0

/-- A write of TRS_KEY_READ copies keys into TRS_BUF bytes 0-1,983 (R133); WHAT above 4 names no key. -/
def keyRead (s : State) (val : Word) : State :=
  if !authMode s then s else
  if 4 < field val.toNat 0 3 then s
  else { s with trs := { s.trs with buf := memWriteBytes 0 s.trs.buf 0 (keyBytes s (field val.toNat 0 3)) } }

/-- TRS_KEY_READ. -/
def execTrsKeyRead (val : Word) (s : State) : Host.Outcome State Fault Refusal := .next (keyRead s val)

/-! ### Measurements (R118) -/

/-- Set one measurement, index 1 to 8. -/
def setMeas (s : State) (i v : Nat) : State := { s with trs := { s.trs with meas := s.trs.meas.set (i - 1) v } }

/-- The bytes of an owner slot that measurement 5 covers. -/
def ownerMeasured (s : State) (i : Nat) : List Nat :=
  let o := ownerOf s i
  ownerState o :: natsOf ((o.ed ++ List.replicate 32 0).take 32 ++ (o.ml ++ List.replicate 1952 0).take 1952)

/-- The 16 bytes of a section-table entry (R82). -/
def tableEntry (x : Nat × Nat × List Byte) : List Nat :=
  leBytes 2 x.1 ++ [0, 0] ++ leBytes 4 x.2.1 ++ leBytes 4 x.2.2.length ++ [0, 0, 0, 0]

/-- Measurements 2 to 4: header, firmware section, section table and every other section. -/
def measureImage (s : State) : State :=
  let fw := match sectionOf s.cfg 5 with
    | some b => Config.sha384 (natsOf b)
    | none => 0
  let rest := s.cfg.sections.flatMap tableEntry ++ (s.cfg.sections.filter fun x => x.1 != 5).flatMap fun x => natsOf x.2.2
  setMeas (setMeas (setMeas s 2 (Config.sha384 (natsOf s.cfg.header))) 3 fw) 4 (Config.sha384 rest)

/-- Measurements 5 and 6: the owner slots, the minimum SVN and the advances burned. -/
def measureOwner (s : State) : State :=
  setMeas (setMeas s 5 (Config.sha384 (ownerMeasured s 0 ++ ownerMeasured s 1 ++ ownerMeasured s 2 ++ ownerMeasured s 3)))
    6 (Config.sha384 (leBytes 2 (minSvn s) ++ leBytes 2 s.trs.svnBank.length))

/-- The word GBL_STRAPS reads (R78). -/
def strapsWord (s : State) : Nat := bit s.glb.straps.tdmSide + 2 * bit s.glb.straps.norLayout

/-- Measurement 7: identity, straps and the test and lock bits. -/
def measureHw (s : State) : State :=
  setMeas s 7 (Config.sha384 (leBytes 4 0x6400A1C0 ++ leBytes 4 (strapsWord s) ++
    [bit s.ptb.available + 2 * bit s.trs.fieldLock]))

/-! ### The boot record and its region (R121 to R127) -/

/-- The 640 signed bytes of a boot record (R121). -/
def bootSigned (r : BootRec) : List Nat :=
  [0x4C, 0x59, 0x42, 0x52] ++ leBytes 2 1 ++ [r.rtype, r.outcome] ++ leBytes 4 r.index ++ leBytes 4 r.cycles ++
  leBytes 8 r.odometer ++ leBytes 8 r.timebase ++ leBytes 4 0x6400A1C0 ++ [r.safeCause, 0] ++ leBytes 2 r.safeDetail ++
  leBytes 2 r.bootMs ++ [r.flags, r.straps] ++ leBytes 2 r.svn ++ leBytes 2 r.minSvn ++ [r.keySlot, r.owners, 0, 0] ++
  leBytes 4 r.seq ++ leBytes 8 r.version ++ leBytes 48 r.prev ++ leBytes 48 r.digest ++ r.meas.flatMap (leBytes 48) ++
  leBytes 48 identityFp ++ leBytes 4 r.priorSeq ++ [r.priorSlot] ++ List.replicate 43 0

/-- The signed message of a boot record: its prefix and the digest of the signed bytes (R106, R121). -/
def bootMessage (r : BootRec) : List Nat :=
  [0x4C, 0x59, 0x53, 0x41, 0x52, 0x2D, 0x42, 0x4F, 0x4F, 0x54, 0x52, 0x45, 0x43, 0x2D, 0x56, 0x31] ++
  leBytes 48 (Config.sha384 (bootSigned r))

/-- Bytes 0-4,091 of a boot record. -/
def bootBody (r : BootRec) : List Nat :=
  bootSigned r ++ leBytes 64 (Config.signEd (bootMessage r)) ++ leBytes 3309 (Config.signMl (bootMessage r)) ++
  List.replicate 79 0

/-- The 4,096 bytes of a boot record, its CRC last (R121, R124). -/
def bootBytes (r : BootRec) : List Nat := bootBody r ++ leBytes 4 (crc32c (bootBody r))

/-- A slot of the boot region. -/
def brSlot (s : State) (i : Nat) : BootSlot := tget s.trs.region .zero i

/-- The slots no longer all zeros (TRS_BR_COUNT). -/
def brUsed (s : State) : Nat := s.trs.region.length

/-- The lowest index from `k` on that a table does not list. -/
def lowestFree (t : Tbl BootSlot) (k : Nat) : Nat :=
  match t with
  | [] => k
  | (i, _) :: r => if i = k then lowestFree r (k + 1) else k

/-- The slot that the next record takes: the lowest that is all zeros, 4,096 when there is none (R124). -/
def brNext (s : State) : Nat := lowestFree s.trs.region 0

/-- One past the highest slot that is no longer all zeros. -/
def brTop (s : State) : Nat :=
  match s.trs.region.getLast? with
  | some x => x.1 + 1
  | none => 0

/-- A slot holds the seal. -/
def isSeal (b : BootSlot) : Bool :=
  match b with
  | .record r | .bad (.record r) _ => r.rtype == 3
  | _ => false

/-- The region carries its seal: slot 4,095 holds a record of type 3 (R127). -/
def brSealed (s : State) : Bool := isSeal (brSlot s 4095)

/-- The last valid record below slot `n` (R125). -/
def lastValid (s : State) (n : Nat) : Option BootRec :=
  match n with
  | 0 => none
  | k + 1 => match brSlot s k with
             | .record r => some r
             | _ => lastValid s k

/-- The torn slots above the last valid record, among the slots below `n`, lowest first (R125). -/
def tornAbove (s : State) (n : Nat) : List Nat :=
  match n with
  | 0 => []
  | k + 1 => match brSlot s k with
             | .record _ => []
             | .torn | .bad _ _ => tornAbove s k ++ [k]
             | .zero => tornAbove s k

/-- A slot is torn: neither all zeros nor valid, so one with an uncorrectable line is too (R125). -/
def isTorn (b : BootSlot) : Bool :=
  match b with
  | .torn | .bad _ _ => true
  | _ => false

/-- Complete a record for the slot it takes: its index, the digest of the last valid record and TORN_BEFORE (R125). -/
def chainRec (s : State) (r : BootRec) (i : Nat) : BootRec :=
  { r with
    index := i
    prev := match lastValid s i with
      | some p => Config.sha384 (bootBody p)
      | none => 0
    flags := r.flags + (if decide (0 < i) && isTorn (brSlot s (i - 1)) then 32 else 0) }

/-- Write a slot of the boot region. -/
def setBr (s : State) (i : Nat) (b : BootSlot) : State :=
  { s with trs := { s.trs with region := tput s.trs.region .zero i b } }

/-- The fields of a record of the current Boot (R121, R122); `rtype` and `outcome` as given. COCOON_UNFORMATTED is set in a record that
will be held until Format Cocoon (R62). ROM_FIRMWARE says what runs the cores, so it is 1 where no image has verified: whether R122 counts
it among the image fields is open (DESIGN CHOICE, log 65). -/
def bootRecOf (s : State) (rtype outcome : Nat) : BootRec :=
  let img := s.cfg.valid
  { rtype := rtype, outcome := outcome, cycles := s.evr.cycles, odometer := s.evr.odo, timebase := s.now,
    safeCause := if outcome = 1 then s.glb.safeCause else 0,
    safeDetail := if outcome = 1 then s.glb.safeDetail else 0,
    bootMs := s.glb.bootMs,
    flags := s.glb.bootSlot + 2 * bit s.glb.fallback + 4 * bit (!s.coc.formatted) + 8 * bit s.glb.transientSeen
             + 16 * bit s.ptb.available + 64 * bit s.cfg.romFw,
    straps := strapsWord s,
    svn := if img then leAt s.cfg.header 16 2 else 0,
    minSvn := minSvn s,
    keySlot := if img then leAt s.cfg.header 33 1 else 0,
    owners := ownerStates s,
    seq := if img then leAt s.cfg.header 12 4 else 0,
    version := if img then leAt s.cfg.header 36 8 else 0,
    digest := if img then s.cfg.digest else 0,
    meas := s.trs.meas }

/-- Slot 3,840 or a later one is used (R127). -/
def brLow (s : State) : Bool := decide (3841 ≤ brTop s)

/-- The events of R127 and R125 that each Boot writes about its region. -/
def brEvents (s : State) (torn : List Nat) : State :=
  let s := torn.foldl (fun s i => writeEvent s { num := 0x0C03, inst := i, detail := [i] }) s
  let s := if brLow s then writeEvent s { num := 0x0C01, detail := [4095 - brUsed s] } else s
  if brSealed s then writeEvent s { num := 0x0C02 } else s

/-- A record for the slot that is next: of type 3, with OUTCOME 3 in place of 0, in the slot reserved for the seal (R127). -/
def sealRec (s : State) (r : BootRec) : BootRec :=
  if brNext s = 4095 then { r with rtype := 3, outcome := if r.outcome = 1 then 1 else 3 } else r

/-- One try to write a record into the slot that is next (R124, R125): the state, the slots it tore, and whether it was written. A region
that has no zero slot left and no seal, its slot 4,095 torn, takes no record: the write fails (DEDUCED, log 65). -/
def tryBootRec (s : State) (r : BootRec) (ok : Bool) : State × List Nat × Bool :=
  let i := brNext s
  if 4096 ≤ i then (s, [], false)
  else if ok then (setBr s i (.record (chainRec s (sealRec s r) i)), [], true)
  else (setBr s i .torn, [i], false)

/-- Write the record of a Boot (R63, R123 to R127): held on chip while the cocoon is unformatted or once the region is sealed;
else into the lowest zero slot, and once more into the next when the write fails. Gives whether a record was written or held. -/
def writeBootRec (s : State) (r : BootRec) (ok1 ok2 : Bool) : State × Bool :=
  let torn0 := tornAbove s (brTop s)
  if !s.coc.formatted then ({ s with trs := { s.trs with heldRec := some r } }, true)
  else if brSealed s then (brEvents { s with trs := { s.trs with heldRec := some r } } torn0, true)
  else
    let (a, t1, d1) := tryBootRec s r ok1
    if d1 then (brEvents a torn0, true)
    else
      let (b, t2, d2) := tryBootRec a r ok2
      (brEvents b (torn0 ++ t1 ++ t2), d2)

/-! ### SPDM (R128 to R131) -/

/-- The context of an endpoint. -/
def spdmCtxOf (s : State) (ep : Origin) : Option SpdmCtx := s.trs.spdm.find? fun c => c.ep == ep

/-- Close the context of an endpoint (R131). -/
def closeCtx (s : State) (ep : Origin) : State :=
  { s with trs := { s.trs with spdm := s.trs.spdm.filter fun c => !(c.ep == ep) } }

/-- A request finds its endpoint's context, or opens one of the eight (R131). -/
def ctxRoom (s : State) (ep : Origin) : Bool := (spdmCtxOf s ep).isSome || decide (s.trs.spdm.length < 8)

/-- Append a message to an endpoint's transcript and note the request's time. -/
def ctxNote (s : State) (ep : Origin) (msg : List Nat) : State :=
  let old := match spdmCtxOf s ep with
    | some c => c.script
    | none => []
  let s := closeCtx s ep
  { s with trs := { s.trs with spdm := s.trs.spdm ++ [{ ep := ep, script := old ++ msg, last := s.now }] } }

/-- The modes that serve SPDM: every mode with full management access, and Safe (R45, R64). -/
def spdmServed (s : State) : Bool := authMode s

/-- The message that the ML-DSA-65 signature of a response signs (R106, R129): "LYSAR-SPDM-MLDSA" and the digest of the transcript up to but
excluding OpaqueDataLength. -/
def spdmMlMessage (script : List Nat) : List Nat :=
  [0x4C, 0x59, 0x53, 0x41, 0x52, 0x2D, 0x53, 0x50, 0x44, 0x4D, 0x2D, 0x4D, 0x4C, 0x44, 0x53, 0x41] ++
  leBytes 48 (Config.sha384 script)

/-- The 3,320 bytes of OpaqueData (R129, R130): the general opaque-data format with one element of the PCI-SIG registry (number 3) under
Aceaga's vendor ID, whose value is the 3,309 bytes of the ML-DSA-65 signature, and one byte of padding. -/
def opaqueData (ml : Nat) : List Nat :=
  [1, 0, 0, 0, 3, 2] ++ leBytes 2 Config.vendorId ++ leBytes 2 3309 ++ leBytes 3309 ml ++ [0]

/-- The 100 bytes of the combined SPDM 1.2 signing prefix: "dmtf-spdm-v1.2.*" four times, zeros, and the context (PRESUMED, log 66). -/
def spdmPrefix (ctx : List Nat) : List Nat :=
  let p := [0x64, 0x6D, 0x74, 0x66, 0x2D, 0x73, 0x70, 0x64, 0x6D, 0x2D, 0x76, 0x31, 0x2E, 0x32, 0x2E, 0x2A]
  p ++ p ++ p ++ p ++ List.replicate (36 - ctx.length) 0 ++ ctx

/-- "responder-challenge_auth signing". -/
def ctxChallenge : List Nat :=
  [0x72, 0x65, 0x73, 0x70, 0x6F, 0x6E, 0x64, 0x65, 0x72, 0x2D, 0x63, 0x68, 0x61, 0x6C, 0x6C, 0x65, 0x6E, 0x67, 0x65, 0x5F, 0x61, 0x75,
   0x74, 0x68, 0x20, 0x73, 0x69, 0x67, 0x6E, 0x69, 0x6E, 0x67]

/-- "responder-measurements signing". -/
def ctxMeasurements : List Nat :=
  [0x72, 0x65, 0x73, 0x70, 0x6F, 0x6E, 0x64, 0x65, 0x72, 0x2D, 0x6D, 0x65, 0x61, 0x73, 0x75, 0x72, 0x65, 0x6D, 0x65, 0x6E, 0x74, 0x73,
   0x20, 0x73, 0x69, 0x67, 0x6E, 0x69, 0x6E, 0x67]

/-- What follows the other fields of a signed response whose transcript is `script` up to there (R106, R129, R130): OpaqueDataLength,
OpaqueData with the ML-DSA-65 signature, and the Ed25519 signature over the full response under the combined prefix. -/
def spdmSigned (ctx script : List Nat) : List Nat :=
  let opq := leBytes 2 3320 ++ opaqueData (Config.signMl (spdmMlMessage script))
  opq ++ leBytes 64 (Config.signEd (spdmPrefix ctx ++ leBytes 48 (Config.sha384 (script ++ opq))))

/-- The SPDM value types of R118, index 1 first, in DMTF's codes: 0 immutable ROM, 1 mutable firmware, 2 hardware configuration,
3 firmware configuration (PRESUMED, log 66). -/
def measTypes : List Nat := [0, 3, 1, 3, 3, 3, 2, 1]

/-- A measurement block: its index, its value type and the digest (R118). -/
def measBlock (s : State) (i : Nat) : List Nat := [i, measTypes.getD (i - 1) 0, s.trs.meas.getD (i - 1) 0]

/-- The measurements an index names, after their count: one, all eight for 0xFF, the count alone for 0x00 (R128). -/
def measValues (s : State) (index : Nat) : Option (List Nat) :=
  if index = 0 then some [8]
  else if index = 0xFF then some (8 :: [1, 2, 3, 4, 5, 6, 7, 8].flatMap (measBlock s))
  else if index ≤ 8 then some (1 :: measBlock s index)
  else none

/-- A request as the transcript holds it: its DMTF code (PRESUMED, log 66) and its operands. -/
def reqCode (r : SpdmReq) : List Nat :=
  match r with
  | .getVersion => [0x84]
  | .getCapabilities => [0xE1]
  | .negotiateAlgorithms a h m d => [0xE3, bit a, bit h, bit m, bit d]
  | .getDigests => [0x81]
  | .getCertificate slot off len => [0x82, slot, off, len]
  | .challenge slot summary nonce => [0x83, slot, summary, nonce]
  | .getMeasurements index signed nonce => [0xE0, index, bit signed, nonce]
  | .other code => [code]

/-- A response as the transcript holds it: its DMTF code, with that of the error (PRESUMED, log 66). -/
def rspCode (r : SpdmRsp) : List Nat :=
  match r with
  | .version => [0x04]
  | .capabilities => [0x61]
  | .algorithms => [0x63]
  | .digests => [0x01]
  | .certificate => [0x02]
  | .challengeAuth => [0x03]
  | .measurements => [0x60]
  | .errorInvalid => [0x7F, 0x01]
  | .errorBusy => [0x7F, 0x03]
  | .errorUnsupported => [0x7F, 0x07]

/-- The response to a request (R128, R129), as its kind and its fields; a signed one takes a fresh nonce. -/
def spdmAnswer (s : State) (ep : Origin) (req : SpdmReq) : State × SpdmRsp × List Nat :=
  let script := (match spdmCtxOf s ep with
    | some c => c.script
    | none => []) ++ reqCode req
  match req with
  | .getVersion => (s, .version, [0x12])
  | .getCapabilities => (s, .capabilities, [1, 1, 2, 8192, 8192])
  | .negotiateAlgorithms a h m d =>
    if a || h || m || d then (s, .algorithms, [bit a, bit h, bit m, bit d]) else (s, .errorInvalid, [])
  | .getDigests => (s, .digests, [0, Config.sha384 Config.certChain])
  | .getCertificate slot off len =>
    if slot = 0 then
      (s, .certificate, [((Config.certChain.drop off).take len).length, (Config.certChain.drop (off + len)).length] ++
        (Config.certChain.drop off).take len)
    else (s, .errorInvalid, [])
  | .challenge slot summary nonce =>
    if slot = 0 && [0, 1, 0xFF].contains summary then
      let (n, s) := takeFree s
      let sum := match summary with
        | 0 => []
        | 1 => [Config.sha384 (s.trs.meas.take 7)]
        | _ => [Config.sha384 s.trs.meas]
      let fs := [Config.sha384 Config.certChain, n] ++ sum
      (s, .challengeAuth, fs ++ spdmSigned ctxChallenge (script ++ rspCode .challengeAuth ++ fs))
    else (s, .errorInvalid, [])
  | .getMeasurements index signed nonce =>
    match measValues s index with
    | none => (s, .errorInvalid, [])
    | some vs =>
      if signed then
        let (n, s) := takeFree s
        (s, .measurements, vs ++ [n] ++ spdmSigned ctxMeasurements (script ++ rspCode .measurements ++ vs ++ [n]))
      else (s, .measurements, vs)
  | .other _ => (s, .errorUnsupported, [])

/-- One SPDM request of an endpoint: a ninth endpoint is answered Busy and reported; GET_VERSION restarts the transcript
(R128, R131). -/
def spdmServe (s : State) (ep : Origin) (req : SpdmReq) : State × SpdmRsp × List Nat :=
  if !ctxRoom s ep then (writeEvent s { num := 0x0C20 }, .errorBusy, [])
  else
    let s := if req = .getVersion then closeCtx s ep else s
    let (s, r, fs) := spdmAnswer s ep req
    (ctxNote s ep (reqCode req ++ rspCode r ++ fs), r, fs)

/-- A request in the modes that serve SPDM, with its response sent to the endpoint. -/
def spdmRequest (s : State) (ep : Origin) (req : SpdmReq) : State :=
  if spdmServed s then
    let (s, r, fs) := spdmServe s ep req
    emit s (.spdm ep r fs)
  else s

/-- GET_VERSION. -/
def execGetVersion (ep : Origin) (s : State) : Host.Outcome State Fault Refusal := .next (spdmRequest s ep .getVersion)
/-- GET_CAPABILITIES. -/
def execGetCapabilities (ep : Origin) (s : State) : Host.Outcome State Fault Refusal :=
  .next (spdmRequest s ep .getCapabilities)
/-- NEGOTIATE_ALGORITHMS. -/
def execNegotiateAlgorithms (ep : Origin) (a h m d : Bool) (s : State) : Host.Outcome State Fault Refusal :=
  .next (spdmRequest s ep (.negotiateAlgorithms a h m d))
/-- GET_DIGESTS. -/
def execGetDigests (ep : Origin) (s : State) : Host.Outcome State Fault Refusal := .next (spdmRequest s ep .getDigests)
/-- GET_CERTIFICATE. -/
def execGetCertificate (ep : Origin) (slot off len : Nat) (s : State) : Host.Outcome State Fault Refusal :=
  .next (spdmRequest s ep (.getCertificate slot off len))
/-- CHALLENGE. -/
def execChallenge (ep : Origin) (slot summary nonce : Nat) (s : State) : Host.Outcome State Fault Refusal :=
  .next (spdmRequest s ep (.challenge slot summary nonce))
/-- GET_MEASUREMENTS. -/
def execGetMeasurements (ep : Origin) (index : Nat) (signed : Bool) (nonce : Nat) (s : State) :
    Host.Outcome State Fault Refusal := .next (spdmRequest s ep (.getMeasurements index signed nonce))
/-- SPDM_UNSUPPORTED_REQUEST. -/
def execSpdmUnsupportedRequest (ep : Origin) (code : Nat) (s : State) : Host.Outcome State Fault Refusal :=
  .next (spdmRequest s ep (.other code))

/-- A context closes after 60 s without a request (R131). -/
def execSpdmContextIdleExpiry (ep : Origin) (s : State) : Host.Outcome State Fault Refusal := .next (closeCtx s ep)

end Sys2Proof.Machine
end

