-- ==== Sys2Proof/Machine/Shared.lean ====
section
/-! DEFINITION. Operations that cross subsystems: bringing the cocoon up, releasing the groups, the resets, Safe and power failure. -/

namespace Sys2Proof.Machine

/-- The highest sequence the ring holds under a good CRC (R498). -/
def ringHighest (t : Tbl RingSlot) : Option Nat :=
  t.foldl (fun m x => match x.2 with
    | .ok r => some (match m with | some v => max v r.seq | none => r.seq)
    | _ => m) none

/-- Number the queued records in queue order from the number the scan found (R499). -/
def numberQueue (q : List EvRec) (n : Nat) : List EvRec :=
  match q with
  | [] => []
  | r :: t => { r with seq := n } :: numberQueue t (n + 1)

/-- The Boot scan of the event ring: the next sequence is 16 + the highest, or 0 (R498); on an unformatted cocoon every queued
event is dropped and counted (R499). -/
def ringScan (s : State) : State :=
  if s.evr.scanned then s
  else if s.coc.formatted then
    let n := match ringHighest s.evr.ring with
      | some h => h + 16
      | none => 0
    { s with evr := { s.evr with scanned := true, queue := numberQueue s.evr.queue n, head := n + s.evr.queue.length } }
  else
    let s := rcAdd s 0x18014 0 s.evr.queue.length
    { s with evr := { s.evr with lostNew := s.evr.lostNew + s.evr.queue.length, queue := [] } }

/-- The 64 bytes of a header copy (R282). -/
def headerBytes (s : State) : List Nat :=
  let b := [0x4C, 0x59, 0x43, 0x4F, 1, 0, 0, 0] ++ leBytes 4 s.coc.formats ++ leBytes 4 s.coc.hdrCycles ++ leBytes 8 (s.coc.hdrOdo % 2 ^ 40)
    ++ leBytes 8 (s.coc.fmtOdo % 2 ^ 40) ++ List.replicate 28 0
  b ++ leBytes 4 (crc32c b)

/-- Write odometer and power-cycle count to the cocoon header, both copies (R67, R283, R503). -/
def persistOdo (s : State) : State :=
  if s.coc.up && s.coc.formatted && !s.coc.protect then
    { s with coc := { s.coc with hdrOdo := s.evr.odo, hdrCycles := s.evr.cycles } }
  else s

/-- Bring the cocoon up as far as its header: the odometer resumes from it with the seconds of this Boot added (R503), the
power-cycle count is read and written back incremented (R53), and the event ring is scanned (R498). -/
def cocoonUp (s : State) : State :=
  if s.coc.up then s
  else
    let s := { s with coc := { s.coc with up := true },
                      evr := { s.evr with odo := (if s.coc.formatted then s.coc.hdrOdo else 0) + s.evr.odo,
                                          cycles := (if s.coc.formatted then s.coc.hdrCycles else 0) + 1 },
                      glb := { s.glb with unformatted := !s.coc.formatted } }
    ringScan (persistOdo s)

end Sys2Proof.Machine
end

