-- ==== Sys2Proof/Machine/Channels.lean ====
section
/-! DEFINITION. Drive groups, bay-power channels and feed selectors (chapters 14, 15): the operations the spokes, the bay rows and
the tandem share. -/

namespace Sys2Proof.Machine

/-! ### Groups -/

/-- A drive group: 0 or 1. -/
def grpOf (s : State) (g : Nat) : Grp := if g = 0 then s.tdm.grp0 else s.tdm.grp1

/-- Write a drive group. -/
def setGrp (s : State) (g : Nat) (x : Grp) : State :=
  if g = 0 then { s with tdm := { s.tdm with grp0 := x } } else { s with tdm := { s.tdm with grp1 := x } }

/-- The bays of a group, as a 64-bit mask (R427). -/
def groupMask (s : State) (g : Nat) : Nat := if g = 0 then par s 0x0E 0 8 0 else par s 0x0E 8 8 0

/-- A group has a bay (R452). -/
def groupHasBay (s : State) (g : Nat) : Bool := groupMask s g != 0

/-- The group of a bay (R427). -/
def groupOfBay (s : State) (b : Nat) : Option Nat :=
  if bitAt (groupMask s 0) b then some 0 else if bitAt (groupMask s 1) b then some 1 else none

/-- The bays of a group, lowest first. -/
def groupBays (s : State) (g : Nat) : List Nat := (List.range 64).filter fun b => bitAt (groupMask s g) b

/-- A spare bay (R427). -/
def isSpareBay (s : State) (b : Nat) : Bool := bitAt (par s 0x0E 16 8 0) b

/-- This controller owns the group of a bay. -/
def ownsBay (s : State) (b : Nat) : Bool :=
  match groupOfBay s b with
  | some g => (grpOf s g).owned
  | none => false

/-- This controller drives the bay and feed outputs of a group: it owns the group, or holds them after a release, and the bay
die's rails are up (R431, R467, R528). -/
def drivesGroup (s : State) (g : Nat) : Bool := s.bay.rails && ((grpOf s g).owned || (grpOf s g).hold)

/-- As `drivesGroup`, for the group of a bay. -/
def drivesBay (s : State) (b : Nat) : Bool :=
  match groupOfBay s b with
  | some g => drivesGroup s g
  | none => false

/-! ### Channels -/

/-- A bay channel. -/
def chanOf (s : State) (b : Nat) : Channel := tget s.bay.chans {} b

/-- Write a bay channel. -/
def setChan (s : State) (b : Nat) (c : Channel) : State := { s with bay := { s.bay with chans := tput s.bay.chans {} b c } }

/-- ENABLE of a channel (R444). -/
def chanEnabled (s : State) (b : Nat) : Bool := bitAt (par s 0x0F (32 + 4 * b) 1 0) 0
/-- ILIM_MA of a channel (R444). -/
def chanIlim (s : State) (b : Nat) : Nat := par s 0x0F (34 + 4 * b) 2 0
/-- RETRY_COUNT (R444). -/
def retryCount (s : State) : Nat := field (par s 0x0F 3 1 3) 0 3

/-- A gate condition as the controller drives it: high impedance on a group it does not drive (R431). -/
def driveGate (s : State) (b : Nat) (g : Gate) : Gate := if drivesBay s b then g else .hiZ

/-- Start a ramp: the gate rises under the regulator (R432). -/
def startRamp (s : State) (b : Nat) (c : Channel) : State := setChan s b { c with state := .ramping, gate := driveGate s b .ramp }

/-- A fresh insertion of an Off channel with presence set: its retries are set and it waits for stable presence (R435, R437).
Safe starts no insertion (R441). -/
def chanInsert (s : State) (b : Nat) : State :=
  let c := chanOf s b
  if c.state = .off && s.glb.mode ≠ .safe then
    setChan s b { c with state := .waiting, retries := retryCount s, taken := 0, cancelled := false, offReq := false }
  else s

/-- A trip of a channel that is Ramping or On: the gate sinks, the cause is recorded, BAY_TRIP is written and PFD set, and the
cool-down starts (R433, R437). -/
def chanTrip (s : State) (b cause iMa : Nat) : State :=
  let c := chanOf s b
  if c.state = .ramping || c.state = .on then
    let s := setChan s b { c with state := .cooling, gate := driveGate s b .sink, lastTrip := cause,
                                  trips := satAdd 0xFFFF c.trips 1, cancelled := false, offReq := false }
    w1cSet (writeEvent s { num := 0x0A02, inst := b, detail := [b, cause, iMa] }) 0xA0018 b 2
  else s

/-- The retry of a Cooling channel is cancelled: the count is reset and BAY_RETRY_CANCELLED written; the cool-down runs on
(R436, R438). -/
def chanCancel (s : State) (b : Nat) (off : Bool) : State :=
  let c := chanOf s b
  writeEvent (setChan s b { c with cancelled := true, offReq := off, retries := retryCount s, taken := 0 })
    { num := 0x0A06, inst := b, detail := [b] }

/-- A latch is cleared: 1 CLEAR, 2 RESET, 3 presence (R434, R437). -/
def chanUnlatch (s : State) (b why : Nat) : State :=
  let c := chanOf s b
  writeEvent (setChan s b { c with state := .off, retries := retryCount s, taken := 0 })
    { num := 0x0A05, inst := b, detail := [b, Config.code 0x0A05 why] }

/-- Presence clears, on the channel (R437). -/
def chanPresenceLost (s : State) (b : Nat) : State :=
  let c := chanOf s b
  match c.state with
  | .waiting => setChan s b { c with state := .off }
  | .ramping | .on => setChan s b { c with state := .off, gate := driveGate s b .sink }
  | .cooling => if c.cancelled then s else chanCancel s b false
  | .latched => chanUnlatch s b 3
  | .disabled | .off => s

/-- An off request from the spoke (R414, R437, R438). -/
def chanOffRequest (s : State) (b : Nat) : State :=
  let c := chanOf s b
  match c.state with
  | .ramping | .on => setChan s b { c with state := .off, gate := driveGate s b .sink }
  | .waiting => setChan s b { c with state := .off }
  | .cooling => if c.cancelled then setChan s b { c with offReq := true } else chanCancel s b true
  | .disabled | .off | .latched => s

/-! ### Feed selectors -/

/-- The feed selector of a group. -/
def feedOf (s : State) (g : Nat) : Feed := if g = 0 then s.bay.feed0 else s.bay.feed1

/-- Write a feed selector. -/
def setFeed (s : State) (g : Nat) (f : Feed) : State :=
  if g = 0 then { s with bay := { s.bay with feed0 := f } } else { s with bay := { s.bay with feed1 := f } }

/-- The byte of a feed entry's flags (R444). -/
def feedFlags (s : State) (g : Nat) : Nat := par s 0x0F (288 + 16 * g) 1 0
/-- ENABLE of a selector. -/
def feedEnabled (s : State) (g : Nat) : Bool := bitAt (feedFlags s g) 0
/-- REVERT of a selector. -/
def feedReverts (s : State) (g : Nat) : Bool := bitAt (feedFlags s g) 1
/-- PREFERRED of a selector: true is feed B. -/
def feedPrefersB (s : State) (g : Nat) : Bool := bitAt (feedFlags s g) 2

/-- The feed A or B of a selector is good. -/
def feedIsGood (f : Feed) (b : Bool) : Bool := if b then f.bGood else f.aGood

/-- Write FEED_BOTH_BAD with both voltages. -/
def feedBothBad (s : State) (g : Nat) (f : Feed) : State :=
  writeEvent (setFeed s g { f with bothBad := true }) { num := 0x0A11, inst := g, detail := [g, f.aMv, f.bMv] }

/-- An Off selector of a group this controller drives: the preferred feed if it is good, else the other; FEED_BOTH_BAD when
neither is (R439). -/
def feedStart (s : State) (g : Nat) : State :=
  let f := feedOf s g
  if feedEnabled s g && drivesGroup s g && f.state == .off then
    let p := feedPrefersB s g
    if feedIsGood f p then setFeed s g { f with state := if p then .onB else .onA, driving := true }
    else if feedIsGood f (!p) then setFeed s g { f with state := if p then .onA else .onB, driving := true }
    else feedBothBad s g f
  else s

/-- Start a switch away from the present feed: its gate sinks, and the break-before-make wait runs (R439, R440). -/
def feedSwitchTo (s : State) (g : Nat) (toB : Bool) (cause : Nat) : State :=
  setFeed s g { feedOf s g with state := if toB then .toB else .toA, cause := cause, settling := true }

/-- The outputs of a group go high impedance: channel gates and feed gates (R439, R467). -/
def groupOutputsOff (s : State) (g : Nat) : State :=
  let s := (groupBays s g).foldl (fun s b =>
    let c := chanOf s b
    setChan s b { c with gate := .hiZ, state := if c.state = .disabled then .disabled else .off, holding := false }) s
  setFeed s g { feedOf s g with state := .off, driving := false, settling := false }

/-- Adopt the channels and the feed selector of a group taken over (R442): latches and retry counts from the partner's last
cadence frame, On where VSNS is at power-good level, else Off; the selector on the feed that the bus voltage shows to conduct, and
where neither does, as an Off selector starts (R439). -/
def adoptOutputs (s : State) (g : Nat) (powered : List Nat) (feedB : Option Bool) : State :=
  let s := (groupBays s g).foldl (fun s b =>
    let c := chanOf s b
    if !chanEnabled s b then s
    else
      let c := { c with retries := match tget s.tdm.frame.retries 0 b with
        | 0 => retryCount s
        | k + 1 => k }
      if powered.contains b then setChan s b { c with state := .on, gate := driveGate s b .full }
      else if s.tdm.frame.latched.contains b then setChan s b { c with state := .latched, gate := driveGate s b .sink }
      else setChan s b { c with state := .off, gate := driveGate s b .sink }) s
  match feedB with
  | some b => if feedEnabled s g then setFeed s g { feedOf s g with state := if b then .onB else .onA, driving := drivesGroup s g }
              else s
  | none => feedStart s g

end Sys2Proof.Machine
end

