-- ==== Sys2Proof/Machine/Flags.lean ====
section
/-! DEFINITION. Status words with their DNR bit, and the result flags of the sequencers (chapters 09, 20). -/

namespace Sys2Proof.Machine

/-! ### Completion statuses (R545) -/

/-- Each named status with its SCT, SC and DNR. DNR is as R545 lists it; the statuses it does not list follow its principle
(DEDUCED, log 14). -/
def statusTable : List (Status × Nat × Nat × Bool) :=
  [(.success, 0, 0x00, false), (.invalidOpcode, 0, 0x01, true), (.invalidField, 0, 0x02, true),
   (.cidConflict, 0, 0x03, true), (.dataTransferError, 0, 0x04, false), (.internalError, 0, 0x06, false),
   (.abortRequested, 0, 0x07, false), (.abortSqDeletion, 0, 0x08, false), (.invalidNs, 0, 0x0B, true),
   (.sglTypeInvalid, 0, 0x11, true), (.sanitizeInProgress, 0, 0x1D, false),
   (.commandInterrupted, 0, 0x21, false), (.lbaOutOfRange, 0, 0x80, true), (.nsNotReady, 0, 0x82, false),
   (.formatInProgress, 0, 0x84, false), (.abortLimit, 1, 0x03, false), (.aerLimit, 1, 0x05, false),
   (.featureNotChangeable, 1, 0x0E, true), (.nsAlreadyAttached, 1, 0x18, true),
   (.nsNotAttached, 1, 0x1A, true), (.controllerBusy, 1, 0x81, false), (.connectInvalidParams, 1, 0x82, true),
   (.connectInvalidHost, 1, 0x84, true), (.authRequired, 1, 0x91, false), (.unrecoveredRead, 2, 0x81, true),
   (.guardCheck, 2, 0x82, true), (.appTagCheck, 2, 0x83, true), (.refTagCheck, 2, 0x84, true),
   (.compareFailure, 2, 0x85, true), (.anaInaccessible, 3, 0x02, false), (.anaTransition, 3, 0x03, false)]

/-- The vendor statuses of SCT 7h that carry DNR 1 (R545). -/
def vendorDnr : List Nat := [0xC0, 0xC2, 0xC3, 0xD2, 0xE1, 0xE2, 0xE5, 0xE9, 0xF0, 0xF2, 0xF3]

/-- SCT and SC of a status. -/
def statusCode (st : Status) : Nat × Nat :=
  match st with
  | .vendor c => (7, c)
  | .nvme t c => (t, c)
  | _ => match statusTable.find? fun x => x.1 == st with
    | some x => (x.2.1, x.2.2.1)
    | none => (0, 0)

/-- The DNR bit of a status (R545). -/
def statusDnr (st : Status) : Bool :=
  match st with
  | .vendor c => vendorDnr.contains c
  | .nvme _ _ => false
  | _ => match statusTable.find? fun x => x.1 == st with
    | some x => x.2.2.2
    | none => false

/-- The status as a step's immediate and C15 hold it (R251): SC [7:0], SCT [10:8], DNR [15]. -/
def statusWord (st : Status) : Nat := (statusCode st).2 + 256 * (statusCode st).1 + 32768 * bit (statusDnr st)

/-- The status a word of that layout names. -/
def statusOfWord (w : Nat) : Status :=
  let sc := field w 0 8
  let sct := field w 8 3
  if sct = 7 then .vendor sc
  else match statusTable.find? fun x => x.2.1 == sct && x.2.2.1 == sc with
    | some x => x.1
    | none => .nvme sct sc

/-! ### Result flags (R252) -/

/-- After an engine step that held its thread: OK or FAIL, and POISON. The results of the last CLOOK, DVERIFY, comparison and
parking step stand. -/
def flgHold (f : Flg) (ok poison : Bool) : Flg := { f with ok := ok, fail := !ok, poison := poison }

/-- After an engine step that parked: as `flgHold`, and TIMEOUT says whether the timeout ended it. -/
def flgPark (f : Flg) (ok poison tmo : Bool) : Flg := { f with ok := ok, fail := !ok, poison := poison, timeout := tmo }

/-- The flags a comparison sets: EQ and LT alone. -/
def flgCmp (f : Flg) (a b : Nat) : Flg := { f with eq := decide (a = b), lt := decide (a < b) }

/-- After CLOOK: HIT or MISS. -/
def flgLook (f : Flg) (hit : Bool) : Flg := { flgHold f true false with hit := hit, miss := !hit }

/-- After DVERIFY: TAGFAIL when a tag mismatched. -/
def flgVerify (f : Flg) (ok : Bool) : Flg := { flgHold f ok false with tagFail := !ok }

end Sys2Proof.Machine
end

