-- ==== Sys2Proof/Machine/Cells.lean ====
section
/-! DEFINITION. Packet-buffer cells, versioned match tables, and the egress queues (chapters 01, 09, 13): the operations the ports, the
transport and the sequencers share. -/

namespace Sys2Proof.Machine

/-! ### Cells (R376, R395, R396) -/

/-- The cells a frame or message of `n` bytes holds. -/
def cellsOf (n : Nat) : Nat := (n + 255) / 256

/-- The MiB of a shared pool: the parameter of the claim of the claimant it serves, 0 without the claim (R94 to R96, R376, R378). -/
def poolMib (s : State) (pool : Nat) : Nat :=
  let by_ := ([0x60, 0x61, 0x62, 0x40][pool]?).getD 0
  match sectionOf s.cfg 0x02 with
  | none => 0
  | some bs => ((List.range (bs.length / 16)).find? fun i => leAt bs (16 * i) 1 == 3 && leAt bs (16 * i + 2) 2 == pool
                  && leAt bs (16 * i + 4) 2 == by_).elim 0 fun i => leAt bs (16 * i + 8) 4

/-- The cells of the shared part at Boot: every cell outside the floors and pool 0 (R376). -/
def sharedSize (s : State) : Nat := 524288 - s.swc.floorSz.foldl (· + ·) 0 - 4096 * poolMib s 0

/-- Take `need` cells from the floors of classes 5 down to `k` (R396): the floors are listed class 1 first. -/
def takeFloors (fl : List Nat) (k need : Nat) : List Nat × Nat :=
  let r := fl.reverse.zipIdx.foldl (fun (acc : List Nat × Nat) x =>
    let cls := 5 - x.2
    if k ≤ cls then (acc.1 ++ [x.1 - min x.1 acc.2], acc.2 - min x.1 acc.2) else (acc.1 ++ [x.1], acc.2)) ([], need)
  (r.1.reverse, r.2)

/-- The shared part has emptied: SWC_CONGESTED is written once until it has risen above 1 % (R396). -/
def noteCongested (s : State) : State :=
  if s.swc.shared = 0 && !s.swc.congRep then
    writeEvent { s with swc := { s.swc with congRep := true } } { num := 0x0306 }
  else if s.swc.congRep && decide (sharedSize s < 100 * s.swc.shared) then { s with swc := { s.swc with congRep := false } }
  else s

/-- Overflow starts and stops with the free shared cells (R378). -/
def noteOverflow (s : State) : State :=
  let pct := par s 0x0D 25 1 0
  let size := sharedSize s
  if pct = 0 then { s with swc := { s.swc with ovfOn := false } }
  else if 100 * s.swc.shared < pct * size then { s with swc := { s.swc with ovfOn := true } }
  else if 2 * pct * size ≤ 100 * s.swc.shared then { s with swc := { s.swc with ovfOn := false } }
  else s

/-- A class-k request for `n` cells (R396): none when it is refused. -/
def cellAlloc (s : State) (k n : Nat) : Option State :=
  if n ≤ s.swc.shared then some (noteOverflow (noteCongested { s with swc := { s.swc with shared := s.swc.shared - n } }))
  else
    let need := n - s.swc.shared
    let (fl, short) := takeFloors s.swc.floors k need
    if short = 0 then
      some (noteOverflow (noteCongested (count { s with swc := { s.swc with shared := 0, floors := fl } } 0x0301 (some k)
        none need)))
    else none

/-- Refill the floors below their size, lowest class first (R396); gives the cells left over. -/
def refillFloors (fl sz : List Nat) (n : Nat) : List Nat × Nat :=
  match fl, sz with
  | f :: fr, z :: zr =>
    let g := min n (z - f)
    let r := refillFloors fr zr (n - g)
    ((f + g) :: r.1, r.2)
  | _, _ => (fl, n)

/-- Freed cells refill the floors, then the shared part (R396). -/
def freeCells (s : State) (n : Nat) : State :=
  let r := refillFloors s.swc.floors s.swc.floorSz n
  noteOverflow (noteCongested { s with swc := { s.swc with floors := r.1, shared := s.swc.shared + r.2 } })

/-! ### Versioned match tables (R42 to R44, R268 to R270) -/

/-- A new entry of a match table. -/
def vNew {α : Type} (x : α) : VEnt α := { ver := 0, refs := 0, cur := x, old := [] }

/-- Take a reference on the version in force. -/
def vRef {α : Type} (e : VEnt α) : VEnt α := { e with refs := e.refs + 1 }

/-- Drop a reference on an old version: at zero its slot returns to the pool (R44). -/
def vDropOld {α : Type} (l : List (Nat × Nat × α)) (v : Nat) : List (Nat × Nat × α) :=
  match l with
  | [] => []
  | (w, n, x) :: r => if w = v then (if n ≤ 1 then r else (w, n - 1, x) :: r) else (w, n, x) :: vDropOld r v

/-- Drop a reference on a version (R44). -/
def vDrop {α : Type} (e : VEnt α) (v : Nat) : VEnt α :=
  if v = e.ver then { e with refs := e.refs - 1 } else { e with old := vDropOld e.old v }

/-- A new version of an entry (R43): the old one stays while it is held. -/
def vUpdate {α : Type} (e : VEnt α) (x : α) : VEnt α :=
  { ver := (e.ver + 1) % 65536, refs := 0, cur := x,
    old := if e.refs = 0 then e.old else e.old ++ [(e.ver, e.refs, e.cur)] }

/-- The content of a version. -/
def vGet {α : Type} (e : VEnt α) (v : Nat) : Option α :=
  if v = e.ver then some e.cur else (e.old.find? fun x => x.1 == v).map fun x => x.2.2

/-- A key loses its entry: its slot is free at once, or its last version leaves the key and stays for those that hold one (R44). -/
def vClear {α : Type} (e : VEnt α) (x : α) : Option (VEnt α) := if e.refs = 0 && e.old.isEmpty then none else some (vUpdate e x)

/-- A key takes an entry: the next version, or its first. -/
def vPut {α : Type} (e : Option (VEnt α)) (x : α) : VEnt α :=
  match e with
  | some v => vUpdate v x
  | none => vNew x

/-- The version of a key that a holder's references name: the last that it took (R42). -/
def heldVer (refs : List (Nat × Nat × Nat)) (table key : Nat) : Option Nat :=
  (refs.reverse.find? fun r => r.1 == table && r.2.1 == key).map fun r => r.2.2

/-- The content that a holder of references sees of an entry: that of the version it matched, or with no reference that in force (R42,
R43). -/
def vHeldBy {α : Type} (e : VEnt α) (refs : List (Nat × Nat × Nat)) (table key : Nat) : α :=
  match heldVer refs table key with
  | some n => (vGet e n).getD e.cur
  | none => e.cur

/-- The spare slots that the old versions of a table hold. -/
def vHeld {α : Type} (t : Tbl (Option (VEnt α))) : Nat :=
  t.foldl (fun n x => match x.2 with
    | some e => n + e.old.length
    | none => n) 0

/-- A peer window. -/
def winOf (s : State) (w : Nat) : PWin := tget s.fed.wins {} w

/-- Write a peer window. -/
def setWin (s : State) (w : Nat) (x : PWin) : State := { s with fed := { s.fed with wins := tput s.fed.wins {} w x } }

/-- The old versions of the peer windows, each held by the messages and reads that matched it (R167, R178). -/
def pwinHeld (s : State) : Nat := s.fed.wins.foldl (fun n x => n + x.2.ent.old.length) 0

/-- Spare slots in a match table (R268). -/
def spareSize (table : Nat) : Nat :=
  match table with
  | 0 => 4096 | 1 => 256 | 2 => 65536 | 3 => 4096 | _ => 1024

/-- Spare slots free (R278). -/
def spareFree (s : State) (table : Nat) : Nat :=
  match table with
  | 0 => 4096 - vHeld s.swc.derail
  | 1 => 256 - vHeld s.seq.disp
  | 2 => 65536 - vHeld s.xfm.map
  | 3 => 4096 - vHeld s.fed.place
  | _ => 1024 - pwinHeld s

/-- A chunk-map entry, if a run holds the chunk. -/
def mapEnt (s : State) (e : Nat) : Option (VEnt MapEnt) := tget s.xfm.map none e

/-- Write a chunk-map slot. -/
def setMap (s : State) (e : Nat) (v : Option (VEnt MapEnt)) : State := { s with xfm := { s.xfm with map := tput s.xfm.map none e v } }

/-- A placement entry. -/
def placeEnt (s : State) (e : Nat) : Option (VEnt PlaceEnt) := tget s.fed.place none e

/-- Write a placement slot. -/
def setPlace (s : State) (e : Nat) (v : Option (VEnt PlaceEnt)) : State :=
  { s with fed := { s.fed with place := tput s.fed.place none e v } }

/-- The built-in default of a key: list + 512 x LOCK (R259). -/
def defaultEntry (cls policy : Nat) : Nat :=
  let pi := bitAt policy 2 || bitAt policy 3
  match cls with
  | 0 => 512 + (if pi then 258 else 256)
  | 1 => 512 + (if pi then 259 else 257)
  | 2 => 260
  | 3 => 512 + 261
  | 4 => 512 + 262
  | _ => 512 + 263

/-- The entry of a dispatch key: a key that the image leaves without one has its built-in default (R259). -/
def dispEnt (s : State) (key : Nat) : VEnt Nat := (tget s.seq.disp none key).getD (vNew (defaultEntry (key / 256) (key % 256)))

/-- Write a dispatch slot. -/
def setDisp (s : State) (key : Nat) (e : VEnt Nat) : State := { s with seq := { s.seq with disp := tput s.seq.disp none key (some e) } }

/-- The keys of a match table (R268). -/
def tableKeys (table : Nat) : Nat :=
  match table with
  | 0 => 4096 | 1 => 4096 | 2 => 4194304 | 3 => 65536 | _ => 1024

/-- Take a reference on a key of a match table: the version matched, none for a key without an entry (R42). -/
def tableRef (s : State) (table key : Nat) : Option Nat × State :=
  match table with
  | 0 => match tget s.swc.derail none key with
    | some e => (some e.ver, { s with swc := { s.swc with derail := tput s.swc.derail none key (some (vRef e)) } })
    | none => (none, s)
  | 1 => (some (dispEnt s key).ver, setDisp s key (vRef (dispEnt s key)))
  | 2 => match mapEnt s key with
    | some e => (some e.ver, setMap s key (some (vRef e)))
    | none => (none, s)
  | 3 => match placeEnt s key with
    | some e => (some e.ver, setPlace s key (some (vRef e)))
    | none => (none, s)
  | _ => if key < 1024 then (some (winOf s key).ent.ver, setWin s key { winOf s key with ent := vRef (winOf s key).ent })
         else (none, s)

/-- Drop a reference on a version of a key (R44). -/
def tableDrop (s : State) (table key ver : Nat) : State :=
  match table with
  | 0 => match tget s.swc.derail none key with
    | some e => { s with swc := { s.swc with derail := tput s.swc.derail none key (some (vDrop e ver)) } }
    | none => s
  | 1 => setDisp s key (vDrop (dispEnt s key) ver)
  | 2 => match mapEnt s key with
    | some e => setMap s key (some (vDrop e ver))
    | none => s
  | 3 => match placeEnt s key with
    | some e => setPlace s key (some (vDrop e ver))
    | none => s
  | _ => setWin s key { winOf s key with ent := vDrop (winOf s key).ent ver }

/-- Drop every reference of a list. -/
def dropRefs (s : State) (refs : List (Nat × Nat × Nat)) : State :=
  refs.foldl (fun s r => tableDrop s r.1 r.2.1 r.2.2) s

/-- A window takes a set as its next version, whose number is the window's instar (R268, R359). -/
def winTake (x : PWin) (b : WinSet) : PWin := { x with ent := { vUpdate x.ent b with ver := x.instar.val.toNat } }

/-- The shadow becomes the active set. -/
def winFlip (x : PWin) : PWin := winTake x ⟨x.sBase, x.sLimit, x.sCtl⟩

/-- A flip finds its spare slot: the one shadow of the window holds no older version (R268). -/
def winRoom (x : PWin) : Bool := x.ent.refs == 0 || x.ent.old.isEmpty

/-! ### Egress queues (R146, R389) -/

/-- A sub-port. -/
def subOf (s : State) (n : Nat) : SubPort := tget s.prt.subs {} n

/-- Write a sub-port. -/
def setSub (s : State) (n : Nat) (p : SubPort) : State := { s with prt := { s.prt with subs := tput s.prt.subs {} n p } }

/-- Byte `o` of a port's entry of section 0x0006 (R153). -/
def prtPar (s : State) (port o len dflt : Nat) : Nat := par s 0x06 (16 * port + o) len dflt
/-- MODE of a port (R136). -/
def prtMode (s : State) (port : Nat) : Nat := prtPar s port 0 1 0
/-- ACK_PRIO of a port. -/
def ackPrio (s : State) (port : Nat) : Nat := prtPar s port 3 1 0
/-- PFC_MASK of a port. -/
def pfcMask (s : State) (port : Nat) : Nat := prtPar s port 2 1 0

/-- The sub-port exists in the mode of its port (R136). -/
def subExists (s : State) (n : Nat) : Bool :=
  decide (n < 32) && decide (n % 4 < match prtMode s (n / 4) with
    | 1 => 1 | 2 => 2 | 3 => 4 | _ => 0)

/-- The lanes of a sub-port in the mode of its port (R136). -/
def subLanes (s : State) (n : Nat) : List Nat :=
  match prtMode s (n / 4) with
  | 1 => if n % 4 = 0 then [0, 1, 2, 3] else []
  | 2 => if n % 4 < 2 then [2 * (n % 4), 2 * (n % 4) + 1] else []
  | 3 => [n % 4]
  | _ => []

/-- The lanes of a port that are powered: those its sub-ports use, none in mode 0 (R136). -/
def poweredLanes (s : State) (port : Nat) : List Nat := (List.range 4).flatMap fun i => subLanes s (4 * port + i)

/-- AN of a port: Clause 73 autonegotiation comes before training (R137). -/
def anOn (s : State) (port : Nat) : Bool := bitAt (prtPar s port 1 1 0) 0

/-- A sub-port begins autonegotiation, where AN is set, and training: it advertises and runs only the PMD of its mode (R137, R138). -/
def beginTraining (s : State) (n : Nat) : State :=
  emit (setSub s n { subOf s n with training := true }) (.train n (anOn s (n / 4)) (prtMode s (n / 4)) (subLanes s n))

/-- The rate of a sub-port in Mb/s (R136), and of the management port (R152). -/
def subRate (s : State) (n : Nat) : Nat :=
  if n = 32 then 1000 else match prtMode s (n / 4) with
  | 1 => 400000 | 2 => 200000 | 3 => 100000 | _ => 0

/-- The frames of an egress class queue. -/
def egOf (s : State) (sub cls : Nat) : List TxFrame := tget s.swc.eg [] (4 * sub + cls)

/-- Write an egress class queue. -/
def setEg (s : State) (sub cls : Nat) (q : List TxFrame) : State :=
  { s with swc := { s.swc with eg := tput s.swc.eg [] (4 * sub + cls) q } }

/-- The traffic class of an outbound frame (R389); ACKs, NAKs and CNPs leave on ACK_PRIO's class on every queue pair (R168,
DEDUCED, log 13). -/
def txClass (porpor : Bool) (k : TxKind) : Nat :=
  match k with
  | .ack | .nak | .cnp | .completion => 0
  | .mgmt | .eapol => 3
  | _ => if porpor then 2 else 1

/-- The kinds of frame whose cells a queue pair's retention list holds until the acknowledgement (R172); the others hold their own until
they leave. -/
def retained (k : TxKind) : Bool :=
  match k with
  | .data | .readReq | .completion => true
  | _ => false

/-- A frame that is dropped on its way out, or has left: its own cells are free, and so is the bucket version it looked up (R44). -/
def dropTx (s : State) (f : TxFrame) : State :=
  let s := match f.bucket with
    | some (k, v) => tableDrop s 0 k v
    | none => s
  if retained f.kind then s else freeCells s (cellsOf f.len)

/-- The priority that a traffic class carries on a sub-port (R389). -/
def classPrio (s : State) (sub cls : Nat) : Nat :=
  match cls with
  | 0 => ackPrio s (sub / 4)
  | 1 => par s 0x0D 0 1 3
  | 2 => par s 0x0D 1 1 4
  | _ => par s 0x0D 2 1 0

/-- The depth of a class queue in KiB. -/
def egKib (q : List TxFrame) : Nat := (q.foldl (fun n f => n + f.len) 0) / 1024

/-- The marking decision of R146 on the depth of the class queue, with `draw` the number drawn (0-99). -/
def ecnMark (s : State) (sub cls depth draw : Nat) : Bool :=
  let port := sub / 4
  let kmin := prtPar s port 6 2 0
  let kmax := prtPar s port 8 2 0
  if cls = 0 || kmax = 0 then false
  else if depth < kmin then false
  else if kmax ≤ depth then true
  else decide (draw * (kmax - kmin) < prtPar s port 10 1 0 * (depth - kmin))

/-- The sampler measures a joining frame (R399): the largest depth of the queue that SCH_SAMPLE_ADDR selects. -/
def sampleDepth (s : State) (egress : Bool) (sub q cells : Nat) : State :=
  let a := rwGet s 0x50040 0
  if bitAt a 0 = egress && field a 1 5 = sub && field a 6 3 = q then rcMax s 0x50048 0 cells else s

/-- The bin of a sojourn in ticks of 10 ns (R399). -/
def sojournBin (t : Nat) : Nat :=
  if t < 100 then 0 else if t < 200 then 1 else if t < 400 then 2 else if t < 800 then 3 else if t < 1600 then 4
  else if t < 6400 then 5 else if t < 25600 then 6 else 7

/-- The sampler measures a departing frame (R399). -/
def sampleLeave (s : State) (egress : Bool) (sub q stamp : Nat) : State :=
  let a := rwGet s 0x50040 0
  if bitAt a 0 = egress && field a 1 5 = sub && field a 6 3 = q then
    rcAdd (rcMax s 0x5004C 0 (s.now - stamp)) (0x50050 + 4 * sojournBin (s.now - stamp)) 0 1
  else s

/-- A frame joins an egress class queue; an ECN-capable one is marked by the queue's depth at that moment (R146). A priority whose watchdog has
fired drops it (R144). The management cores send their own frames, which the management port has no queues for (R152, R222; log 67). -/
def egPush (s : State) (sub : Nat) (porpor : Bool) (f : TxFrame) (draw : Nat) : State :=
  let cls := txClass porpor f.kind
  if (subOf s sub).storm.contains (classPrio s sub cls) then dropTx s f
  else if sub = 32 then s
  else
  let q := egOf s sub cls
  let mark := f.ect && ecnMark s sub cls (egKib q) draw
  let s := if mark then rcAdd s 0x20018 (sub / 4) 1 else s
  let q := q ++ [{ f with ce := f.ce || mark, stamp := s.now }]
  sampleDepth (setEg s sub cls q) true sub cls (q.foldl (fun n x => n + cellsOf x.len) 0)

end Sys2Proof.Machine
end

