-- ==== Sys2Proof/Machine/Inject.lean ====
section
/-! DEFINITION. The perturbation injectors at their points (R511, R512): an item that an armed injector takes is held as the command it
arrived by, until it is released. -/

namespace Sys2Proof.Machine

/-- An injector. -/
def injOf (s : State) (i : Nat) : Injector := tget s.ptb.injs {} i
/-- Write an injector. -/
def setInj (s : State) (i : Nat) (j : Injector) : State := { s with ptb := { s.ptb with injs := tput s.ptb.injs {} i j } }

/-- The armed injector that acts at a point on an instance: the lowest. -/
def injectorAt (s : State) (point inst : Nat) : Option Nat :=
  if !s.ptb.available then none
  else (List.range 8).find? fun i =>
    (injOf s i).armed && (injOf s i).point == point && (!(injOf s i).instFilter || (injOf s i).inst == inst)

/-- The capture records pool 3 holds. -/
def capSlots (s : State) : Nat := 32768 * poolMib s 3

/-- An action is counted and written to the capture buffer: 1 delayed, 2 stalled, 3 dropped. -/
def injNote (s : State) (i action inst delay : Nat) : State :=
  let s := rcAdd s 0xF0010 i 1
  let r : CapRec := { timebase := s.now, injector := i, point := (injOf s i).point, kind := (injOf s i).kind, action := action,
                      inst := inst, delay := delay }
  if capSlots s = 0 then s
  else { s with ptb := { s.ptb with caps := tput s.ptb.caps {} s.ptb.capNext r, capNext := (s.ptb.capNext + 1) % capSlots s } }

/-- The clocks an injector delays an item: fixed, random between its bounds (free where they cross), or a stall of up to ON clocks, by where in the ON and OFF
clocks the item falls (R511, log 4). -/
def injDelay (s : State) (i : Nat) : Nat × State :=
  let j := injOf s i
  match j.kind with
  | 1 => (j.pmin, s)
  | 2 =>
    let (v, s) := takeFree s
    (if j.pmax < j.pmin then v % 4096 else j.pmin + v % (j.pmax - j.pmin + 1), s)
  | _ =>
    let (v, s) := takeFree s
    (v % (j.pmin + 1), s)

/-- An item arrives at a point: it goes on, or an injector drops, delays or stalls it; behind a stalled item of its instance it waits too. -/
def atPoint (s : State) (point inst : Nat) (c : HeldCmd) (f : State → State) : State :=
  match injectorAt s point inst with
  | none => f s
  | some i =>
    let j := injOf s i
    if j.kind = 4 then
      let s := setInj s i { j with seen := j.seen + 1 }
      if (j.seen + 1) % j.pmin = 0 then injNote s i 3 inst 0 else f s
    else
      let (d, s) := injDelay s i
      if d = 0 && !(j.kind == 3 && (injOf s i).items.any fun x => x.inst == inst) then f s
      else
        let s := setInj s i { injOf s i with items := (injOf s i).items ++ [{ inst := inst, delay := d, cmd := c }] }
        injNote s i (if j.kind = 3 then 2 else 1) inst d

/-- A point that does not take commands is stalled: its step or frame stays where it is and comes again. -/
def stallAt (s : State) (point inst : Nat) : Bool × State :=
  match injectorAt s point inst with
  | none => (false, s)
  | some i =>
    let (d, s) := injDelay s i
    if d = 0 then (false, s) else (true, injNote s i 2 inst d)

end Sys2Proof.Machine
end

