-- ==== Sys2Proof/Machine/Pages.lean ====
section
/-! DEFINITION. Staging pages, commit records, the cocoon index, nonce counters and at-rest sealing (chapters 10, 11).

`Out.tandem` kinds: 1 staging line, 2 mirror record, 3 mirror reset, 4 echo, 5 catalog request forwarded to side A, 6 catalog change,
7 catalog echo, 8 counter reservation, 9 counter echo, 10 hand-back page, 11 hand-back confirmation, 12 line fetch, 13 cadence
frame, 14 flit acknowledge, 15 flit replay request, 16 standing-map entry, 17 catalog copy, 18 training, 19 identities. -/

namespace Sys2Proof.Machine

/-! ### Catalog lookups -/

/-- The catalog record of a namespace. -/
def nsOf (s : State) (n : Nat) : Option NsRec := tget s.cat.ns none n

/-- The catalog record of a virtual subsystem. -/
def vssOf (s : State) (v : Nat) : Option VssRec := tget s.cat.vss none v

/-- The volatile part of a virtual subsystem. -/
def rtOf (s : State) (v : Nat) : VssRt := tget s.cfe.rt {} v

/-- Write the volatile part of a virtual subsystem. -/
def setRt (s : State) (v : Nat) (r : VssRt) : State := { s with cfe := { s.cfe with rt := tput s.cfe.rt {} v r } }

/-- The partner answers on the tandem link (R225). -/
def partnerAnswers (s : State) : Bool := s.tdm.linkUp

/-- The group of a namespace is Paired and the namespace requires mirroring: the condition MIRROR (R252). -/
def mirrorOn (s : State) (ns : NsRec) : Bool := ns.mirror && (grpOf s ns.group).pair == .paired

/-- Lines and records are multicast to the tandem link: as `mirrorOn`, and during a re-mirror of the group (R296). -/
def mirrorSend (s : State) (ns : NsRec) : Bool := mirrorOn s ns || (ns.mirror && (grpOf s ns.group).remirror)

/-! ### Commit records (R286) -/

/-- Bytes 0 to 59 of a commit record. -/
def recBody (r : CommitRec) : List Nat :=
  leBytes 1 r.kind
  ++ leBytes 1 (bit r.enc + 2 * bit r.pi + 4 * bit r.mirror + 8 * bit r.fed + 16 * (r.group % 2))
  ++ leBytes 2 r.ns ++ leBytes 8 r.lba ++ leBytes 4 r.len ++ leBytes 8 r.seq ++ leBytes 1 r.last ++ leBytes 1 r.ord
  ++ leBytes 4 r.epoch ++ leBytes 6 r.ctr ++ leBytes 16 r.tag ++ leBytes 8 r.piData

/-- The record's CRC, seeded with the page index. -/
def recCrc (p : Nat) (r : CommitRec) : Nat := crc32c (leBytes 4 p ++ recBody r)

/-- The 64 bytes of record line `p`: zeros when it holds none. -/
def recBytes (p : Nat) (rc : Option CommitRec) : List Nat :=
  match rc with
  | none => List.replicate 64 0
  | some r => recBody r ++ leBytes 4 (recCrc p r)

/-- A block lies in what a record covers. -/
def recCovers (r : CommitRec) (ns lba : Nat) : Bool :=
  r.ns == ns && (if r.kind == 1 then r.lba == lba else decide (r.lba ≤ lba) && decide (lba < r.lba + r.len))

/-! ### Pages (R290, R291) -/

/-- An own-staging page. -/
def ownPg (s : State) (p : Nat) : Page := tget s.coc.own {} p
/-- Write an own-staging page. -/
def setOwn (s : State) (p : Nat) (g : Page) : State := { s with coc := { s.coc with own := tput s.coc.own {} p g } }
/-- A mirror-staging page. -/
def mirPg (s : State) (p : Nat) : Page := tget s.coc.mir {} p
/-- Write a mirror-staging page. -/
def setMir (s : State) (p : Nat) (g : Page) : State := { s with coc := { s.coc with mir := tput s.coc.mir {} p g } }
/-- A page of either partition. -/
def anyPg (s : State) (m : Bool) (p : Nat) : Page := if m then mirPg s p else ownPg s p
/-- Write a page of either partition. -/
def setPg (s : State) (m : Bool) (p : Nat) (g : Page) : State := if m then setMir s p g else setOwn s p g

/-- The pages of a partition. -/
def pageCount : Nat := 917504

/-- Own pages not Free. -/
def ownUsed (s : State) : Nat := (s.coc.own.filter fun x => x.2.st != .free).length

/-- Own pages counted against a tenant's quota (R299). -/
def tenantPages (s : State) (v : Nat) : Nat := (s.coc.own.filter fun x => x.2.st != .free && x.2.vss == v).length

/-- Live own range records (R288). -/
def rangeCount (s : State) : Nat :=
  (s.coc.own.filter fun x => match x.2.rc with
    | some r => r.kind != 1
    | none => false).length

/-- The lowest page not listed, from `k` on. -/
def gapFrom (t : Tbl Page) (k : Nat) : Nat :=
  match t with
  | [] => k
  | (i, _) :: r => if i < k then gapFrom r k else if i = k then gapFrom r (k + 1) else k

/-- The lowest free own page. -/
def freePage (s : State) : Option Nat := if gapFrom s.coc.own 0 < pageCount then some (gapFrom s.coc.own 0) else none

/-- Own-staging occupancy crosses OCC_WARN_PCT upward: the event, again only 10 points below (R303). -/
def noteOccupancy (s : State) : State :=
  let pct := 100 * ownUsed s / pageCount
  let w := par s 0x0A 3 1 90
  if !s.coc.occRep && decide (w ≤ pct) then
    writeEvent { s with coc := { s.coc with occRep := true } } { num := 0x070F, detail := [pct] }
  else if s.coc.occRep && decide (pct + 10 ≤ w) then { s with coc := { s.coc with occRep := false } }
  else s

/-- Free a page now: zeros over its record, and a release message while a partner answers (R290, R294). -/
def freeNow (s : State) (m : Bool) (p : Nat) : State :=
  let g := anyPg s m p
  let s := match g.rc with
    | some r => if !m && partnerAnswers s then
        { s with tdm := { s.tdm with releases := s.tdm.releases ++ [p + 2 ^ 20 * r.seq] } } else s
    | none => s
  noteOccupancy (setPg s m p {})

/-- Release a page: at once, or when its last pin goes (R291). -/
def releasePage (s : State) (m : Bool) (p : Nat) : State :=
  let g := anyPg s m p
  if g.st = .free then s
  else if 0 < g.pins then setPg s m p { g with release := true }
  else freeNow s m p

/-- Take a pin. -/
def pinPage (s : State) (m : Bool) (p : Nat) : State :=
  setPg s m p { anyPg s m p with pins := (anyPg s m p).pins + 1 }

/-- Drop a pin; the last one carries out a waiting release (R291). -/
def unpinPage (s : State) (m : Bool) (p : Nat) : State :=
  let g := { anyPg s m p with pins := (anyPg s m p).pins - 1 }
  let s := setPg s m p g
  if g.release && g.pins == 0 then freeNow s m p else s

/-- Drop the pins of a drive command: pages of mirror staging are listed as page + 2^20. -/
def unpinPages (s : State) (ps : List Nat) : State :=
  ps.foldl (fun s p => unpinPage s (decide (2 ^ 20 ≤ p)) (p % 2 ^ 20)) s

/-! ### Commit sequences (R287) -/

/-- The next commit sequence of a group. -/
def nextSeq (s : State) (g : Nat) : Nat := if g = 0 then s.coc.seq0 else s.coc.seq1

/-- Set the next commit sequence of a group. -/
def setSeq (s : State) (g n : Nat) : State :=
  if g = 0 then { s with coc := { s.coc with seq0 := n } } else { s with coc := { s.coc with seq1 := n } }

/-! ### The cocoon index (R297) -/

/-- A page state that the index shows: the newest committed pages of owned groups, and adopted mirror pages. -/
def indexed (g : Page) : Bool :=
  match g.st with
  | .committed | .mirrored | .flushing | .flushed | .adopted => !g.orphan && !g.unus
  | _ => false

/-- Every indexed record: partition, page, record. -/
def indexedRecs (s : State) : List (Bool × Nat × CommitRec) :=
  (s.coc.own.filterMap fun x => match x.2.rc with
    | some r => if indexed x.2 && (grpOf s r.group).owned then some (false, x.1, r) else none
    | none => none)
  ++ (s.coc.mir.filterMap fun x => match x.2.rc with
    | some r => if x.2.st = .adopted then some (true, x.1, r) else none
    | none => none)

/-- The newest record that covers a block, by SEQ (R287). -/
def newest (s : State) (ns lba : Nat) : Option (Bool × Nat × CommitRec) :=
  ((indexedRecs s).filter fun x => recCovers x.2.2 ns lba).foldl (fun b x =>
    match b with
    | none => some x
    | some y => if y.2.2.seq < x.2.2.seq then some x else some y) none

/-- The blocks of a command. -/
def blocksOf (lba n : Nat) : List Nat := (List.range n).map fun i => lba + i

/-- A newer committed page of a block makes the older own pages Superseded (R292); a Flushing page finishes its flush. -/
def supersede (s : State) (p : Nat) (r : CommitRec) : State :=
  if r.kind ≠ 1 then s
  else s.coc.own.foldl (fun s x =>
    match x.2.rc with
    | some o => if x.1 ≠ p && o.kind = 1 && o.ns = r.ns && o.lba = r.lba && decide (o.seq < r.seq)
                    && (x.2.st == .committed || x.2.st == .mirrored)
                then setOwn s x.1 { ownPg s x.1 with st := .superseded } else s
    | none => s) s

/-- A newer page of a block is durable: its superseded predecessors are freed (R290). -/
def freeSuperseded (s : State) (ns lba : Nat) : State :=
  s.coc.own.foldl (fun s x =>
    match x.2.rc with
    | some o => if x.2.st = .superseded && o.kind = 1 && o.ns = ns && o.lba = lba then releasePage s false x.1 else s
    | none => s) s

/-- The committed pages of a namespace are released without a flush (R236, R242, R245). -/
def releaseNs (s : State) (ns : Nat) : State :=
  let s := s.coc.own.foldl (fun s x =>
    match x.2.rc with
    | some o => if o.ns = ns then releasePage s false x.1 else s
    | none => s) s
  s.coc.mir.foldl (fun s x =>
    match x.2.rc with
    | some o => if o.ns = ns then releasePage s true x.1 else s
    | none => s) s

/-! ### Nonce counters (R309, R310, R345) -/

/-- The counter in use of a key slot; a run of an older epoch, or none since Boot, starts at the counter area's line. -/
def ctrRun (s : State) (slot : Nat) : CtrRun :=
  let k := (tget s.cat.keys {} slot).epoch
  let l := tget s.coc.ctrs {} slot
  let r := tget s.coc.runs {} slot
  if r.epoch = k then r
  else if l.epoch = k then { next := l.to_, limit := l.to_, epoch := k, spent := l.lost }
  else { epoch := k }

/-- Write the counter in use. -/
def setRun (s : State) (slot : Nat) (r : CtrRun) : State := { s with coc := { s.coc with runs := tput s.coc.runs {} slot r } }

/-- COUNTER_RESERVE_LOG2 (R315). -/
def reserveStep (s : State) : Nat := 2 ^ par s 0x0A 5 1 16

/-- Start a reservation when half of the present one is used: written to the own counter area, and to the partner's while it
answers; the new counters are usable after both (R309). -/
def reserve (s : State) (slot : Nat) : State :=
  let r := ctrRun s slot
  if r.await.isSome || decide (reserveStep s < 2 * (r.limit - r.next)) then s
  else
    let lim := r.limit + reserveStep s
    let s := { s with coc := { s.coc with ctrs := tput s.coc.ctrs {} slot { epoch := r.epoch, to_ := lim } } }
    if partnerAnswers s then tdmSend (setRun s slot { r with await := some lim }) (.tandem 8 [slot, r.epoch, lim])
    else setRun s slot { r with limit := lim }

/-- What taking a run of `n` counters of a slot gives. -/
inductive CtrTake where
  | exhausted
  | wait
  | from_ (ctr : Nat)
  deriving DecidableEq, Repr

/-- Take a run of counters (R309, R345): refused when it would reach 2^48 - 1 or the line is lost, waiting for a reservation, or
taken. -/
def takeCtrs (s : State) (slot n : Nat) : CtrTake × State :=
  let r := ctrRun s slot
  if r.spent || decide (2 ^ 48 ≤ r.next + n) then
    let s := if r.spent then s else writeEvent s { num := 0x0802, inst := slot, detail := [slot] }
    (.exhausted, setRun s slot { r with spent := true })
  else
    let s := if r.next + n ≤ r.limit then s else reserve (setRun s slot r) slot
    let r := ctrRun s slot
    if r.next + n ≤ r.limit then (.from_ r.next, reserve (setRun s slot { r with next := r.next + n }) slot) else (.wait, s)

/-- CTR_WARN_LOG2 and AUTO_ROTATE of a key: those of the image under which it was made, as far as this Boot has seen it (R328, DESIGN CHOICE,
log 73). -/
def ctrRule (s : State) (slot : Nat) : Nat × Nat := (ctrRun s slot).rule.getD (par s 0x0B 1 1 47, par s 0x0B 2 1 1 % 2)

/-- The keys that exist keep their rule over a live activation (R328). -/
def latchRules (s : State) : State :=
  s.cat.keys.foldl (fun s x => if x.2.cur.isSome then setRun s x.1 { ctrRun s x.1 with rule := some (ctrRule s x.1) } else s) s

/-- The block counter has passed the warning of its epoch, for the first time (R345). -/
def ctrWarns (s : State) (slot : Nat) : Bool :=
  let r := ctrRun s slot
  !r.warned && decide (2 ^ (ctrRule s slot).1 < r.next)

/-! ### At-rest sealing (R341, R342) -/

/-- The nonce of R341 as a number: key slot, epoch, counter. -/
def nonceOf (slot epoch ctr : Nat) : Nat := slot + 2 ^ 16 * epoch + 2 ^ 48 * ctr

/-- The 8 bytes of protection information of a block as they are stored (R347): guard, application tag, reference tag, each
big-endian. -/
def piBytes (b : Blk) : Nat :=
  leAt ((((leBytes 2 b.guard).reverse ++ (leBytes 2 b.app).reverse ++ (leBytes 4 b.ref).reverse)).map (BitVec.ofNat 8 ·)) 0 8

/-- The authentication tag of a block: over its address, its PI and its data (R341, R342). -/
def tagOf (key slot epoch ctr lba pi data : Nat) : Nat :=
  Config.gcmTag key (nonceOf slot epoch ctr) (lba + 2 ^ 64 * (pi + 2 ^ 64 * data))

/-- The stored bytes of a sealed block. -/
def sealed (enc : Bool) (key slot epoch ctr data : Nat) : Nat :=
  if enc then Config.gcmSeal key (nonceOf slot epoch ctr) data else data

end Sys2Proof.Machine
end

