-- ==== Sys2Proof/Machine/Front.lean ====
section
/-! DEFINITION. What every sender of commands is answered through: queue pairs and their send queues, associations, tenant queues
and their completion rings, and completions (chapters 06, 07). -/

namespace Sys2Proof.Machine

/-! ### Queue pairs -/

/-- A queue-pair context. -/
def qpOf (s : State) (q : Nat) : Qp := tget s.rdt.qps {} q

/-- Write a queue-pair context. -/
def setQp (s : State) (q : Nat) (x : Qp) : State := { s with rdt := { s.rdt with qps := tput s.rdt.qps {} q x } }

/-- The RDMA messages that carry one transfer: at most 1 MiB each; an immediate goes with the last (R171). -/
def splitMsg (m : Msg) : List Msg :=
  if m.len ≤ 2 ^ 20 then [m]
  else
    let n := (m.len + 2 ^ 20 - 1) / 2 ^ 20
    (List.range n).map fun i =>
      { m with len := min (2 ^ 20) (m.len - 2 ^ 20 * i), va := m.va + 2 ^ 20 * i,
               kind := if m.kind = .writeImm && i + 1 < n then .write else m.kind }

/-- A message joins the send queue of a connected queue pair (R171). -/
def sendMsg (s : State) (q : Nat) (m : Msg) : State :=
  let x := qpOf s q
  if x.state = .rtr || x.state = .rts then setQp s q { x with sendq := x.sendq ++ splitMsg { m with at_ := s.now } } else s

/-! ### Associations and tenant queues -/

/-- A live association. -/
def assocOf (s : State) (a : Nat) : Option Assoc := tget s.cfe.assocs none a

/-- Write an association. -/
def setAssoc (s : State) (a : Nat) (x : Option Assoc) : State :=
  { s with cfe := { s.cfe with assocs := tput s.cfe.assocs none a x } }

/-- The sender that an association's admin queue is: a service-port function's virtual controller is held as the association 65,536 + its
number (R477). -/
def vcOrg (a : Nat) : Origin := if 65536 ≤ a then .fn (a - 65536) else .assoc a

/-- The queue pair of an association's queue: 0 the admin queue. -/
def assocQp (x : Assoc) (qid : Nat) : Option Nat :=
  if qid = 0 then some x.qp else (x.ioqs.find? fun q => q.qid == qid).map fun q => q.qp

/-- A tenant queue, by 16 x queue pair + QIDX. -/
def tqOf (s : State) (k : Nat) : Tq := tget s.cfe.tqs {} k

/-- Write a tenant queue. -/
def setTq (s : State) (k : Nat) (t : Tq) : State := { s with cfe := { s.cfe with tqs := tput s.cfe.tqs {} k t } }

/-- An arrival under an old instar of a tenant queue is discarded: counted, and reported once per bump (R37, R210, R218). -/
def tqStale (s : State) (k : Nat) : State :=
  let (s, i) := discardStale s 5 0x0506 k (tqOf s k).instar
  setTq s k { tqOf s k with instar := i }

/-- Entries of the SQ of a descriptor (R203). -/
def sqSize (d : List Byte) : Nat := 2 ^ leAt d 24 1
/-- Entries of the CQ of a descriptor. -/
def cqSize (d : List Byte) : Nat := 2 ^ leAt d 25 1

/-! ### Completion rings (R205, R209) -/

/-- The 16 bytes of a CQ entry (R205); CRD and M are 0 (DESIGN CHOICE, log 28). -/
def cqeBytes (t : Tq) (c : Cqe) (phase : Bool) : List Nat :=
  leBytes 4 c.result ++ leBytes 4 0 ++ leBytes 2 t.head
  ++ leBytes 2 (match c.push with | some n => n + 32768 | none => 0)
  ++ leBytes 2 c.cid
  ++ leBytes 2 (bit phase + 2 * (statusCode c.status).2 + 512 * (statusCode c.status).1 + 32768 * bit c.dnr)

/-- The CQ is full: one entry stays free (R209). -/
def cqFull (t : Tq) : Bool := (t.cqTail + 1) % cqSize t.desc == t.cqHead

/-- Write one CQ entry (R209): the push slot it names is free again, and at NOTIFY_COUNT entries the write carries the type 3
immediate with the new tail. -/
def cqWrite (s : State) (k : Nat) (c : Cqe) : State :=
  let t := tqOf s k
  let tail := (t.cqTail + 1) % cqSize t.desc
  let n := leAt t.desc 27 1
  let notify := n != 0 && decide (n ≤ t.since + 1)
  let s := setTq s k { t with
    cqTail := tail, phase := if tail = 0 then !t.phase else t.phase,
    since := if n = 0 || notify then 0 else t.since + 1,
    busy := match c.push with | some p => t.busy.filter (· != p) | none => t.busy }
  sendMsg (emit s (.reply ⟨.tq k, c.cid⟩ c.status c.dnr c.result (cqeBytes t c t.phase))) (k / 16)
    { kind := if notify then .writeImm else .write, len := 16, va := leAt t.desc 8 8 + 16 * t.cqTail, rkey := leAt t.desc 20 4,
      imm := if notify then 0xC0000000 + 2 ^ 26 * (k % 16) + tail else 0, cpl := true }

/-- A completion of a tenant queue: written, or held while the CQ is full or others are held; dropped once the queue is in Error
or Deleting (R209, R210). -/
def tqComplete (s : State) (k : Nat) (c : Cqe) : State :=
  let t := tqOf s k
  match t.state with
  | .active | .paused =>
    if t.held.isEmpty && !cqFull t then cqWrite s k c else setTq s k { t with held := t.held ++ [c] }
  | _ => s

/-- Write the held completions in order while the CQ has room (R209). -/
def cqDrain (s : State) (k : Nat) (held : List Cqe) : State :=
  match held with
  | [] => setTq s k { tqOf s k with held := [] }
  | c :: r =>
    if cqFull (tqOf s k) then setTq s k { tqOf s k with held := c :: r }
    else cqDrain (cqWrite s k c) k r

/-! ### Completions -/

/-- Post an item of a service-port function: while Bus Master Enable is clear or the function is in D3hot it waits (R479,
R482). -/
def postFn (s : State) (fn : Nat) (o : Out) : State :=
  let f := fnOf s fn
  if f.d3hot || !f.bme then setFn s fn { f with holding := f.holding ++ [o] } else emit s o

/-- A receive entry returns (R30, R169, R193): to the shared receive queue, or to the queue pair's own. That of an admin capsule returns with its
response (DESIGN CHOICE, log 23), that of an I/O command when it is accepted, refused or answered. -/
def recvReturn (s : State) (q : Nat) : State :=
  let x := qpOf s q
  match x.srq with
  | some r => { s with rdt := { s.rdt with srqUsed := tput s.rdt.srqUsed 0 r (tget s.rdt.srqUsed 0 r - 1) } }
  | none => setQp s q { x with recv := min 4096 (x.recv + 1) }

/-- A response capsule on a queue of an association (R194), as a SEND of 16 bytes behind what the queue pair already holds; dropped where the queue no
longer exists. -/
def postCapsule (s : State) (a qid : Nat) (o : Out) : State :=
  match assocOf s a with
  | none => s
  | some x => match assocQp x qid with
    | none => s
    | some q =>
      if (qpOf s q).state = .rtr || (qpOf s q).state = .rts then
        sendMsg (if qid = 0 then recvReturn (emit s o) q else emit s o) q { kind := .send, len := 16, cpl := true }
      else s

/-- A completion under a given DNR, to whoever sent the command. -/
def replyD (s : State) (c : Cid) (push : Option Nat) (st : Status) (dnr : Bool) (dw0 : Nat) (data : List Nat) : State :=
  match c.org with
  | .pf0 => raiseVec (postFn s 0 (.reply c st dnr dw0 data)) 0 0
  | .fn n =>
    let (v, s) := takeFree (postFn s n (.reply c st dnr dw0 data))
    raiseVec s n (v % if n = 1 then 65 else 17)
  | .mctp _ => emit s (.reply c st dnr dw0 data)
  | .assoc a => postCapsule s a 0 (.reply c st dnr dw0 data)
  | .ioq a q => postCapsule s a q (.reply c st dnr dw0 data)
  | .tq k => tqComplete s k { result := dw0, cid := c.cid, status := st, dnr := dnr, push := push }

/-- A completion, with DNR as R545 fixes for its status. -/
def reply (s : State) (c : Cid) (st : Status) (dw0 : Nat := 0) (data : List Nat := []) : State :=
  replyD s c none st (statusDnr st) dw0 data

/-! ### Roles (R120, R223, R227) -/

/-- What is wrong with the capsule that brought a command of an admin queue (R194): its SGL descriptor, or more than 8 KiB in it; the status of the
second is open (log 27). -/
def capBad (x : Assoc) (cid : Nat) : Option Status :=
  match tget x.caps 0 cid with
  | 1 => some .sglTypeInvalid
  | 2 => some .invalidField
  | _ => none

/-- Whether the sender of a management command holds a role (0 Manage, 1 Read, 2 Image), or the status that refuses it: service
port PF0 and its MCTP endpoints hold every role; a tenant's queue that awaits authentication is told so (R195); an unproved management
association is Not Authenticated; any other sender has no such command. -/
def hasRole (s : State) (c : Cid) (r : Nat) : Option Status :=
  match c.org with
  | .pf0 | .mctp _ => none
  | .assoc a => match assocOf s a with
    | some x =>
      if !x.mgmt then some (if x.auth then .authRequired else .invalidOpcode)
      else match x.roles with
        | none => some (.vendor 0xE4)
        | some m => if bitAt m r then capBad x c.cid else some (.vendor 0xE5)
    | none => some .invalidOpcode
  | _ => some .invalidOpcode

/-- The modes with full management access (R45). -/
def mgmtFull (s : State) : Bool :=
  match s.glb.mode with
  | .standby | .active | .drain => true
  | .held | .boot | .safe => false

/-- A management command in the modes that serve it: refused without its role, else run. In another mode it has no answer (R45,
R64). -/
def asManagerIn (s : State) (c : Cid) (r : Nat) (served : Bool) (f : State → State) : State :=
  if !served then s
  else match hasRole s c r with
    | some st => reply s c st
    | none => f s

/-- A management command of the modes with full management access. -/
def asManager (s : State) (c : Cid) (r : Nat) (f : State → State) : State := asManagerIn s c r (mgmtFull s) f

end Sys2Proof.Machine
end

