-- ==== Sys2Proof/Machine/SpkBase.lean ====
section
/-! DEFINITION. Spokes and their command slots, as the sequencers and the flush use them (chapter 14). -/

namespace Sys2Proof.Machine

/-- A spoke. -/
def spkOf (s : State) (b : Nat) : Spoke := tget s.spk.spokes {} b

/-- Write a spoke. -/
def setSpk (s : State) (b : Nat) (p : Spoke) : State := { s with spk := { s.spk with spokes := tput s.spk.spokes {} b p } }

/-- A command about spoke `b`: the outside world cannot name a spoke above 63 (R13). -/
def onSpoke (b : Nat) (s : State) (f : State → State) : Host.Outcome State Fault Refusal :=
  if b < 64 then .next (f s) else .fault (.noSuchInstance "spoke")

/-! ### Parameters (R427) -/

/-- The flags of a spoke entry. -/
def spkFlags (s : State) (b : Nat) : Nat := par s 0x0E (48 + 2 * b) 2 0
/-- ENABLE of a spoke. -/
def spkEnabled (s : State) (b : Nat) : Bool := bitAt (spkFlags s b) 0
/-- WIDTH_X1 of a spoke. -/
def spkX1 (s : State) (b : Nat) : Bool := bitAt (spkFlags s b) 1
/-- MAX_GTS of a spoke. -/
def spkMaxGts (s : State) (b : Nat) : Nat := field (spkFlags s b) 2 3
/-- SCAN_FILTER_SCANS. -/
def scanFilter (s : State) : Nat := par s 0x0E 30 2 4
/-- DRV_TMO_MS. -/
def drvTmoMs (s : State) : Nat := par s 0x0E 24 2 5000
/-- DRV_IDLE_MS. -/
def drvIdleMs (s : State) : Nat := par s 0x0E 34 2 100
/-- IOQ_COUNT. -/
def ioqCount (s : State) : Nat := par s 0x0E 28 1 16

/-! ### Slots (R418 to R423) -/

/-- The commands outstanding on a spoke. -/
def slotsUsed (p : Spoke) : Nat := p.slots.length

/-- The high byte of a command identifier: the sum of the two instars, modulo 256 (R419). -/
def slotTag (sp dr : Nat) : Nat := (sp + dr) % 256

/-- Free one slot: its pins and cells are released (R423). -/
def dropSlot (s : State) (b n : Nat) : State :=
  let p := spkOf s b
  match tget p.slots none n with
  | none => s
  | some d => freeCells (unpinPages (setSpk s b { p with slots := tput p.slots none n none }) d.pins) d.cells

/-- The lowest free slot of a spoke's 256. -/
def freeSlot (p : Spoke) : Option Nat := (List.range 256).find? fun n => (tget p.slots none n).isNone

/-- Who a drive command serves: a host command leaves the flush its floor of slots (R395), the flush may use every slot, and
rebuild and rekey together keep to BG_PCT (R339). -/
inductive DrvUse where
  | host | flush | bg
  deriving DecidableEq, Repr

/-- BG_PCT, as the rebuild or rekey that runs began with (R328, R339). -/
def bgPct (s : State) : Nat := s.xfm.bgPct.getD (par s 0x0B 3 1 20)

/-- A slot of a spoke is open to a use. -/
def slotOpen (s : State) (p : Spoke) (u : DrvUse) : Bool :=
  match u with
  | .host => decide (slotsUsed p + par s 0x0D 27 1 32 < 256)
  | .flush => decide (slotsUsed p < 256)
  | .bg => decide (slotsUsed p < 256) && decide (100 * ((p.slots.filter fun x => match x.2 with
      | some d => d.bg
      | none => false).length + 1) ≤ 256 * bgPct s)

/-- Issue a command to a drive: it takes the lowest free slot and records both instars (R418, R419); a fenced spoke issues
none (R451). -/
def issueDrive (s : State) (b : Nat) (u : DrvUse) (d : DriveSlot) (fields : List Nat) : State × Bool :=
  let p := spkOf s b
  if p.fenced || p.state ≠ .ready || p.removal ≠ 0 || !slotOpen s p u then (s, false)
  else match freeSlot p with
    | none => (s, false)
    | some n =>
      let d := { d with spoke := tagOfInstar p.instar, drive := tagOfInstar p.drive, bg := u == .bg }
      let s := setSpk s b { p with slots := tput p.slots none n (some d), drvPs := 0 }
      (emit (count s 0x0901 (some b)) (.drive b d.opcode ((n + 256 * slotTag d.spoke d.drive) :: fields)), true)

end Sys2Proof.Machine
end

