-- ==== Sys2Proof/Machine/Ctx.lean ====
section
/-! DEFINITION. Command contexts: threads, ready queues, waits, the range interlock, completions, list ends and list faults, and the
built-in lists (chapter 09). -/

namespace Sys2Proof.Machine

/-! ### Contexts -/

/-- A context in use. -/
def ctxOf (s : State) (n : Nat) : Option Ctx := tget s.seq.ctxs none n

/-- Write a context. -/
def setCtx (s : State) (n : Nat) (c : Option Ctx) : State := { s with seq := { s.seq with ctxs := tput s.seq.ctxs none n c } }

/-- Change a context that is in use. -/
def onCtx (s : State) (n : Nat) (f : Ctx → Ctx) : State :=
  match ctxOf s n with
  | some c => setCtx s n (some (f c))
  | none => s

/-- The contexts in use that satisfy a test. -/
def ctxFilter (s : State) (p : Ctx → Bool) : List (Nat × Ctx) :=
  s.seq.ctxs.filterMap fun x => match x.2 with
    | some c => if p c then some (x.1, c) else none
    | none => none

/-- Command slots taken (R211, R219). -/
def slotsTaken (s : State) : Nat := (ctxFilter s fun c => c.cmd.isSome).length

/-- Command slots held by a tenant. -/
def slotsOf (s : State) (v : Nat) : Nat := (ctxFilter s fun c => c.cmd.isSome && c.vss == v).length

/-- Commands in flight on a namespace; a Flush of every namespace is one on each (R214). -/
def nsInflight (s : State) (ns : Nat) : Nat :=
  (ctxFilter s fun c => c.cmd.isSome && (c.ns == ns || (c.ns == 65536 && c.fence.any fun f => f % 65536 == ns))).length

/-- The lowest free command context. -/
def freeCtx (s : State) : Option Nat :=
  if (s.seq.ctxs.filter fun x => x.1 < 65536).length < 65536 then
    (List.range ((s.seq.ctxs.filter fun x => x.1 < 65536).length + 1)).find? fun n => (ctxOf s n).isNone
  else none

/-- A register C0 to C15. -/
def creg (c : Ctx) (i : Nat) : Nat := tget c.regs 0 i

/-- Write a register, modulo 2^64. -/
def setReg (c : Ctx) (i v : Nat) : Ctx := { c with regs := tput c.regs 0 i (v % 2 ^ 64) }

/-- A failing primitive: FAIL, and C15 takes the status it implies (R253). -/
def failWith (c : Ctx) (st : Status) : Ctx := setReg { c with flg := flgHold c.flg false false } 15 (statusWord st)

/-- As `failWith`, having met poison. -/
def failPoison (c : Ctx) : Ctx :=
  setReg { c with flg := flgHold c.flg false true } 15 (statusWord .unrecoveredRead)

/-- An engine step that succeeded. -/
def okHold (c : Ctx) : Ctx := { c with flg := flgHold c.flg true false }

/-! ### Threads (R248, R250, R397) -/

/-- The contexts bound to a thread of a core. -/
def boundOn (s : State) (core : Nat) : List Nat :=
  (ctxFilter s fun c => c.core == core).filterMap fun x => match x.2.run with
    | .thread t => some t
    | _ => none

/-- Free threads of a core. -/
def freeThreads (s : State) (core : Nat) : Nat := 16 - (boundOn s core).length

/-- Cores not gated (R216, R248). -/
def coresOn (s : State) : Nat := if s.cfe.idle = 0 then 32 else 4

/-- The core with the most free threads, the lower on a tie (R250). -/
def bestCore (s : State) : Nat :=
  (List.range (coresOn s)).foldl (fun b k => if freeThreads s b < freeThreads s k then k else b) 0

/-- THREAD_FLOOR (R400). -/
def threadFloor (s : State) : Nat := par s 0x0D 24 1 1

/-- A context of a drain class may take a free thread of a core (R397). -/
def entitled (s : State) (core cls : Nat) : Bool := decide ((cls - 1) * threadFloor s < freeThreads s core)

/-- Bind a context to the lowest free thread of its core. -/
def bindThread (s : State) (n : Nat) (c : Ctx) : State :=
  let used := boundOn s c.core
  let t := ((List.range 16).find? fun t => !used.contains t).getD 0
  setCtx s n (some { c with run := .thread t })

/-- The ready queue of a core. -/
def readyQ (s : State) (core : Nat) : List Nat := tget s.seq.ready [] core

/-- Write the ready queue of a core. -/
def setReadyQ (s : State) (core : Nat) (q : List Nat) : State :=
  { s with seq := { s.seq with ready := tput s.seq.ready [] core q } }

/-- A context waits in its core's ready queue behind those whose events came before (R250). -/
def makeReady (s : State) (n : Nat) (c : Ctx) (drain : Nat) : State :=
  setReadyQ (setCtx s n (some { c with run := .ready, drain := drain })) c.core (readyQ s c.core ++ [n])

/-- The first ready context of a core that its drain class entitles to a thread. -/
def nextReady (s : State) (core : Nat) : Option Nat :=
  (readyQ s core).find? fun n => match ctxOf s n with
    | some c => entitled s core c.drain
    | none => false

/-- It takes the thread (R250, R397). -/
def resumeCore (s : State) (core : Nat) : State :=
  match nextReady s core with
  | none => s
  | some n => match ctxOf s n with
    | none => s
    | some c => bindThread (setReadyQ s core ((readyQ s core).filter (· != n))) n c

/-- Dispatch a context to the core with the most free threads: a free thread at once, or the ready queue (R250). -/
def dispatchCtx (s : State) (n : Nat) (c : Ctx) : State :=
  let core := bestCore s
  let c := { c with core := core }
  if entitled s core c.drain && (readyQ s core).isEmpty then bindThread s n c else makeReady s n c c.drain

/-! ### Waits (R253 to R256) -/

/-- The wait a context is parked on. -/
def waitOf (c : Ctx) : Option Wait :=
  match c.run with
  | .parked w => some w
  | _ => none

/-- An arrival ends a wait: the wait number advances and the context is ready (R255). -/
def arrive (s : State) (n : Nat) (c : Ctx) (drain : Nat) : State :=
  makeReady s n { c with waitNo := (c.waitNo + 1) % 256 } drain

/-- An arrival that no wait expects is counted (R256). -/
def staleArrival (s : State) : State := rcAdd s 0x70018 0 1

/-- The instar of a virtual controller (R38, R232). -/
def vcInstar (s : State) (a : Nat) : Instar := tget s.cfe.vci {} a

/-- Write it. -/
def setVcInstar (s : State) (a : Nat) (i : Instar) : State := { s with cfe := { s.cfe with vci := tput s.cfe.vci {} a i } }

/-- An arrival for a command under an old instar of its virtual controller is discarded: counted under both names, and reported once per bump (R37,
R232, R256). -/
def vcStale (s : State) (a : Nat) : State :=
  let (s, i) := discardStale (staleArrival s) 6 0x0604 a (vcInstar s a)
  setVcInstar s a i

/-- Resume every context parked on a kind of wait that satisfies a test, at the step it parked on. -/
def resumeAll (s : State) (w : Wait) (p : Ctx → Bool) : State :=
  (ctxFilter s fun c => waitOf c == some w && p c).foldl (fun s x => arrive s x.1 x.2 x.2.drain) s

/-! ### The range interlock (R264 to R267) -/

/-- Number a is earlier than b (R262). -/
def earlier (a b : Nat) : Bool :=
  let d := (b + 2 ^ 32 - a) % 2 ^ 32
  decide (1 ≤ d) && decide (d < 2 ^ 31)

/-- The block range of an entry: first block and the block past the last. Dataset Management spans its ranges; before its range
list has arrived it spans the whole namespace (log 15). -/
def lockRange (c : Ctx) : Nat × Nat :=
  match c.cmd with
  | none => (0, 0)
  | some h =>
    if c.opc = 4 then
      match h.ranges with
      | [] => (0, 2 ^ 64)
      | r :: rs => rs.foldl (fun (a : Nat × Nat) x => (min a.1 x.lba, max a.2 (x.lba + x.len))) (r.lba, r.lba + r.len)
    else (h.slba, h.slba + h.nlb + 1)

/-- Two entries conflict (R265). -/
def conflicts (a b : Ctx) : Bool :=
  a.ns == b.ns && (a.wr || b.wr)
    && decide ((lockRange a).1 < (lockRange b).2) && decide ((lockRange b).1 < (lockRange a).2)

/-- ILOCK may proceed: every earlier number of the namespace has taken its entry, takes none, or is withdrawn (R264). -/
def ilockFree (s : State) (c : Ctx) : Bool :=
  (ctxFilter s fun d => d.cmd.isSome && d.ns == c.ns && d.locks && d.lock == .none_ && earlier d.adm c.adm).isEmpty

/-- IWAIT may proceed: no live earlier entry conflicts (R265). -/
def iwaitFree (s : State) (c : Ctx) : Bool :=
  (ctxFilter s fun d => d.cmd.isSome && d.lock == .taken && earlier d.adm c.adm && conflicts d c).isEmpty

/-- The namespaces a fence still waits for (R267): each carries the admission number it was set at, as namespace + 2^16 x
number. -/
def fenceLeft (s : State) (c : Ctx) : List Nat :=
  c.fence.filter fun f =>
    !(ctxFilter s fun d => d.cmd.isSome && d.ns == f % 65536 && d.wr && !d.durable && d.lock != .withdrawn
        && earlier d.adm (f / 65536)).isEmpty

/-- Release the interlock entry (R266). -/
def irel (c : Ctx) : Ctx := if c.lock = .taken then { c with lock := .released } else c

/-! ### The ends of a list (R266, R272) -/

/-- A staged page that has not committed is abandoned (R290). -/
def dropStaged (s : State) (pages : List Nat) : State :=
  pages.foldl (fun s p => if (ownPg s p).st = .staged then noteOccupancy (setOwn s p {}) else s) s

/-- SEQ_LIST_FAULT with the list, the step and the context. -/
def listFaultEvent (s : State) (n : Nat) (c : Ctx) : State :=
  writeEvent s { num := 0x0601, vss := if c.vss = 0 then 0xFFFF else c.vss, detail := [c.list, c.step, n] }

/-- Free a context: its staged pages, references, payload cells and thread. -/
def freeCtxNow (s : State) (n : Nat) (c : Ctx) : State :=
  setCtx (dropRefs (dropStaged (freeCells s c.cells) c.pages) c.refs) n none

/-- Hand a completion of a context to the scheduler (R253); that of a command whose queue no longer exists is dropped (R196, R210, R232). -/
def completeCtx (s : State) (n : Nat) (c : Ctx) (st : Status) (dnr : Bool) (dw0 : Nat) : State :=
  let s := setCtx s n (some { c with done := true })
  match c.cmd with
  | some h => if c.gone then s else replyD s h.c h.push st dnr dw0 []
  | none => s

/-- A list fault (R272): Internal Error when no completion was handed over, the event, and everything it holds released. -/
def listFault (s : State) (n : Nat) (c : Ctx) : State :=
  let s := if c.done then s else completeCtx s n c .internalError (statusDnr .internalError) 0
  freeCtxNow (listFaultEvent s n c) n c

/-- The list ends (R253): with no completion handed over it is a list fault; an entry still held is released with the event
(R266). An internal context has no completion. -/
def endCtx (s : State) (n : Nat) (c : Ctx) : State :=
  if c.cmd.isSome && !c.done then listFault s n c
  else if c.lock = .taken then freeCtxNow (listFaultEvent s n c) n c
  else freeCtxNow s n c

/-! ### The built-in lists (R259, R261) -/

/-- A step of the ROM. -/
def romS (opc : Nat) (cond tmo flags imm : Nat := 0) : Step := { opc := opc, w := { cond := cond, tmo := tmo, flags := flags, imm := imm } }

/-- The drive part of the read lists, which begins at step `b` and leaves for the buffered data at `d` or the failure path at
`f`. -/
def romDrive (d f : Nat) : List Step :=
  [romS 0x50, romS 0x51 0 1, romS 0x52, romS 0x03 1 0 0 d, romS 0x51 0 1, romS 0x52 0 0 1, romS 0x03 1 0 0 d,
   romS 0x53 0 1, romS 0x03 2 0 0 f]

/-- The failure path: IREL, CPL from C15, END. -/
def romTail : List Step := [romS 0x22, romS 0x42 0 0 1, romS 0x01]

/-- The built-in lists 256 to 263. PICHK of lists 258 and 259, and the HREAD of list 263, are followed by a BR FAIL to the
failure path as the HREAD of list 257 is, and NSFENCE of list 260 by a BR TIMEOUT to a completion from C15 (DEDUCED, log 12). -/
def romList (n : Nat) : List Step :=
  match n with
  | 256 => [romS 0x20 0 3, romS 0x21 0 3, romS 0x03 7 0 0 21, romS 0x30, romS 0x03 4 0 0 8, romS 0x33, romS 0x03 1 0 0 17,
            romS 0x02 0 0 0 21] ++ romDrive 17 21 ++ [romS 0x22, romS 0x41, romS 0x42, romS 0x01] ++ romTail
  | 257 => [romS 0x20 0 3 1, romS 0x03 11 0 0 4, romS 0x40 0 2, romS 0x03 2 0 0 13, romS 0x31 0 0 1, romS 0x03 2 0 0 13,
            romS 0x21 0 3, romS 0x03 7 0 0 13, romS 0x32, romS 0x22, romS 0x38, romS 0x42, romS 0x01] ++ romTail
  | 258 => [romS 0x20 0 3, romS 0x21 0 3, romS 0x03 7 0 0 23, romS 0x30, romS 0x03 4 0 0 8, romS 0x33, romS 0x03 1 0 0 17,
            romS 0x02 0 0 0 23] ++ romDrive 17 23 ++ [romS 0x44, romS 0x03 2 0 0 23, romS 0x22, romS 0x41, romS 0x42, romS 0x01]
            ++ romTail
  | 259 => [romS 0x20 0 3 1, romS 0x03 11 0 0 4, romS 0x40 0 2, romS 0x03 2 0 0 15, romS 0x44, romS 0x03 2 0 0 15,
            romS 0x31 0 0 1, romS 0x03 2 0 0 15, romS 0x21 0 3, romS 0x03 7 0 0 15, romS 0x32, romS 0x22, romS 0x38, romS 0x42,
            romS 0x01] ++ romTail
  | 260 => [romS 0x23 0 3, romS 0x03 7 0 0 4, romS 0x42, romS 0x01, romS 0x42 0 0 1, romS 0x01]
  | 261 => [romS 0x20 0 3 1, romS 0x31 0 0 3, romS 0x03 2 0 0 10, romS 0x21 0 3, romS 0x03 7 0 0 10, romS 0x32, romS 0x22,
            romS 0x38, romS 0x42, romS 0x01] ++ romTail
  | 262 => [romS 0x20 0 3 1, romS 0x03 11 0 0 4, romS 0x40 0 2, romS 0x03 2 0 0 12, romS 0x21 0 3, romS 0x03 7 0 0 12,
            romS 0x34, romS 0x32, romS 0x22, romS 0x38, romS 0x42, romS 0x01] ++ romTail
  | 263 => [romS 0x20 0 3, romS 0x03 11 0 0 4, romS 0x40 0 2, romS 0x03 2 0 0 25, romS 0x21 0 3, romS 0x03 7 0 0 25,
            romS 0x30, romS 0x03 4 0 0 11, romS 0x33, romS 0x03 1 0 0 20, romS 0x02 0 0 0 25] ++ romDrive 20 25
            ++ [romS 0x22, romS 0x43, romS 0x03 2 0 0 25, romS 0x42, romS 0x01] ++ romTail
  | _ => []

/-- What stands at a step of a list: a known step, none past its end, or, for the internal lists 264 to 266 whose steps the spec
does not give, any step. -/
inductive StepAt where
  | known (x : Step)
  | past
  | any
  deriving DecidableEq, Repr

/-- The step at an index of a list. -/
def stepAt (s : State) (list step : Nat) : StepAt :=
  if 264 ≤ list then .any
  else if 256 ≤ list then match (romList list)[step]? with
    | some x => .known x
    | none => .past
  else match s.seq.lists[list]? with
    | none => .past
    | some (first, len) => if step < len then match s.seq.steps[first + step]? with
        | some x => .known x
        | none => .past
      else .past

/-- STEP_LIMIT (R275). -/
def stepLimit (s : State) : Nat := par s 0x09 6 2 1024

/-! ### Multicast records (R380, R381) -/

/-- A destination (1 cocoon, 2 tandem link) has accepted the lines of a context's record, or is declared failed for it: with the last one required
the record is done and its cells are free. -/
def mcastDone (s : State) (n : Nat) (c : Ctx) (dest : Nat) : State :=
  match c.mcast with
  | none => s
  | some (need, got) =>
    let got := got ||| dest
    if need &&& got = need then setCtx (freeCells s c.cells) n (some { c with cells := 0, mcast := none })
    else setCtx s n (some { c with mcast := some (need, got) })

/-- A record still waits for a destination. -/
def mcastWaits (c : Ctx) (dest : Nat) : Bool :=
  match c.mcast with
  | none => false
  | some (need, got) => need &&& dest != 0 && got &&& dest == 0

/-- The tandem link has room in its replay buffer, or is down: the records that wait for it go on. -/
def mcastTandem (s : State) : State := (ctxFilter s fun c => mcastWaits c 2).foldl (fun s x => mcastDone s x.1 x.2 2) s

/-- Flits that the sender keeps for replay (R455). -/
def replayFlits : Nat := 1024

/-- The replay buffer takes lines (R380). -/
def replayRoom (s : State) : Bool := decide (s.tdm.txOut < replayFlits)

/-! ### Step sampling (R274) -/

/-- A record of the sampler joins its FIFO, or is counted as dropped. -/
def samplePush (s : State) (r : SampleRec) : State :=
  if s.seq.fifo.length < 256 then { s with seq := { s.seq with fifo := s.seq.fifo ++ [r] } } else rcAdd s 0x70058 0 1

/-- A step of a context counts an event; when that makes the counter of SEQ_SAMPLE_CTL overflow, the thread is sampled with the skid,
the parked flag and the next step of the thread given (R274). -/
def countStep (s : State) (c : Ctx) (n num skid : Nat) (parked : Bool) (next : Nat) : State :=
  let ctl := rwGet s 0x70050 0
  let k := field ctl 1 9
  let hit := bitAt ctl 0 && !s.cyc.frozen && cycOverflows s.cyc.ctrs num (some c.core) (some c.vss) 1 k
  let s := count s num (some c.core) (some c.vss)
  match c.run with
  | .thread t => if hit then samplePush s { time := s.now % 2 ^ 32, core := c.core, thread := t, skid := skid, parked := parked,
                                            step := next, list := c.list, ctx := n, counter := k } else s
  | _ => s

/-- As `countStep`, for an event that a step counts by itself: how far the thread runs on before the capture is a free value (log
4). -/
def countSkid (s : State) (c : Ctx) (n num : Nat) (parked : Bool) : State :=
  let (v, s) := takeFree s
  if parked then countStep s c n num (v % 4) true c.step
  else countStep s c n num (v % 4) false (if v % 4 = 0 then c.step + 1 else v / 4 % 4096)

/-- Park a context: its thread is free, and its wait carries the timeout class (R254). -/
def parkCtx (s : State) (n : Nat) (c : Ctx) (w : Wait) (cls : Nat) : State :=
  setCtx (countSkid s { c with step := c.step - 1 } n 0x0602 true) n (some { c with run := .parked w, cls := cls })

/-- Park at the same step, which is taken again when the wait ends (R298, R309, R312, R326). -/
def parkRetry (s : State) (n : Nat) (c : Ctx) (w : Wait) (cls : Nat) : State := parkCtx s n { c with step := c.step - 1 } w cls

/-- The sequencers run: not in Held, Boot or Safe (R45, R64). -/
def dataRuns (s : State) : Bool :=
  match s.glb.mode with
  | .standby | .active | .drain => true
  | _ => false

/-- The row of a step (R248): it runs when its context is on a thread and this step is the one it stands at. The step counter and
the cyclometer count it, STEP_LIMIT ends the command (R272), and the effect runs with the context past the step. -/
def runStep (s : State) (n opc : Nat) (w : StepW) (f : Ctx → State → State) : State :=
  match ctxOf s n with
  | none => s
  | some c => match c.run with
    | .thread _ =>
      let here := match stepAt s c.list c.step with
        | .known x => x == { opc := opc, w := w }
        | .any => true
        | .past => false
      if !here || !dataRuns s then s
      else if stepLimit s ≤ c.steps && c.cmd.isSome then listFault (rcAdd s 0x70010 0 1) n c
      else f { c with steps := c.steps + 1, step := c.step + 1 } (countSkid s c n 0x0601 false)
    | _ => s

/-- A step that only changes its context. -/
def runPlain (s : State) (n opc : Nat) (w : StepW) (f : Ctx → Ctx) : State :=
  runStep s n opc w fun c s => setCtx s n (some (f c))

/-! ### Internal contexts (R260) -/

/-- Internal contexts in use. -/
def internalUsed (s : State) : Nat := (s.seq.ctxs.filter fun x => 65536 ≤ x.1).length

/-- The lowest free internal context: pool 2 holds 1,024 for each MiB. -/
def freeInternal (s : State) : Option Nat :=
  if internalUsed s < 1024 * poolMib s 2 then
    (List.range (internalUsed s + 1)).findSome? fun i => if (ctxOf s (65536 + i)).isNone then some (65536 + i) else none
  else none

/-- The built-in list of an internal operation (R259): flush 264, rebuild and rekey 265, Porpor inbound 266. -/
def internalList : IntOp → Nat
  | .flush _ _ _ | .range _ _ _ | .nothing => 264
  | .rebuild _ _ _ | .rekey _ _ _ | .writeback _ _ _ | .fedRebuild _ _ _ _ => 265
  | .inbound _ _ => 266

/-- The pages whose echoes a command no longer awaits count as unmirrored (R295). -/
def noEcho (s : State) (c : Ctx) : State :=
  c.echo.foldl (fun s p => let g := ownPg s p; if g.st = .free then s else setOwn s p { g with unmir := true, late := true }) s

end Sys2Proof.Machine
end

