-- ==== Sys2Proof/Machine/Catalog.lean ====
section
/-! DEFINITION. The catalog and its changes, asynchronous event notices and the ANA states (chapters 07, 08). -/

namespace Sys2Proof.Machine

/-! ### Notices (R200, R235) -/

/-- The live associations. -/
def assocList (s : State) : List (Nat × Assoc) :=
  s.cfe.assocs.filterMap fun x => x.2.map fun a => (x.1, a)

/-- The live associations of a virtual subsystem. -/
def assocsOf (s : State) (v : Nat) : List Nat := ((assocList s).filter fun x => x.2.vss == v && !x.2.disc).map Prod.fst

/-- A kind of notice is enabled (0 ANA Change, 1 Namespace Attribute Changed): Asynchronous Event Configuration bits 11 and 8 as
NVMe lays them out (PRESUMED, log 17). -/
def aenEnabled (a : Assoc) (kind : Nat) : Bool := bitAt a.aenCfg (if kind = 0 then 11 else 8)

/-- DW0 of a notice: type 2, the information and the log page (PRESUMED, log 17). -/
def aenDw0 (kind : Nat) : Nat := if kind = 0 then 2 + 256 * 3 + 65536 * 0x0C else 2 + 65536 * 0x04

/-- Raise a notice on a virtual controller: it completes one outstanding request, or is held; a held ANA notice covers the next change until the
log is read, also once a later request has brought it to the host (R200). -/
def raiseAen (s : State) (a kind : Nat) : State :=
  match assocOf s a with
  | none => s
  | some x =>
    if !aenEnabled x kind || x.notices.contains kind || x.masked.contains kind then s
    else match x.aers with
      | [] => setAssoc s a (some { x with notices := x.notices ++ [kind] })
      | cid :: r =>
        let s := setAssoc s a (some { x with aers := r })
        reply s ⟨vcOrg a, cid⟩ .success (aenDw0 kind)

/-- Namespace Attribute Changed on every virtual controller of a virtual subsystem (R235, R245). -/
def noteNsChange (s : State) (v : Nat) : State := (assocsOf s v).foldl (fun s a => raiseAen s a 1) s

/-! ### Asymmetric namespace access (R199, R200) -/

/-- The ANA state of a group: 0 Optimized, 1 Non-optimized, 2 Inaccessible, 3 Change. -/
def anaState (s : State) (g : Nat) : Nat :=
  let x := grpOf s g
  if x.taking then 3
  else if !x.owned || x.releasing.isSome then 2
  else match s.glb.mode with
    | .active => if x.pair = .degraded then 1 else 0
    | .drain => if s.glb.drainReason = .activation then (if x.pair = .degraded then 1 else 0) else 2
    | _ => 2

/-- An association's virtual controller lists a group: an attached namespace of its subsystem lies in it. -/
def listsGroup (s : State) (v g : Nat) : Bool :=
  s.cat.ns.any fun x => match x.2 with
    | some r => r.vss == v && r.attached && r.group == g
    | none => false

/-- The last reported ANA state of a group. -/
def anaSeen (s : State) (g : Nat) : Nat := if g = 0 then s.cfe.ana0 else s.cfe.ana1

/-- A changed ANA state of a group is counted, recorded and notified (R200). -/
def noteAnaOf (s : State) (g : Nat) : State :=
  let old := anaSeen s g
  let now := anaState s g
  if old = now then s
  else
    let s := { s with cfe := { s.cfe with anaCnt := (s.cfe.anaCnt + 1) % 2 ^ 64,
                                          ana0 := if g = 0 then now else s.cfe.ana0,
                                          ana1 := if g = 0 then s.cfe.ana1 else now } }
    let s := writeEvent s { num := 0x0505, inst := g, detail := [g, Config.code 0x0505 old, Config.code 0x0505 now, s.cfe.anaCnt] }
    (assocList s).foldl (fun s x => if listsGroup s x.2.vss g then raiseAen s x.1 0 else s) s

/-- Both groups. -/
def noteAna (s : State) : State := noteAnaOf (noteAnaOf s 0) 1

/-! ### The chunk map's copies (R325, R463) -/

/-- The map area of the drives takes an entry. -/
def setArea (s : State) (e : Nat) (x : MapEnt) : State :=
  { s with xfm := { s.xfm with area := tput s.xfm.area {} e x } }

/-- The standing copy of a group that the partner holds takes an entry (R463). -/
def setStanding (s : State) (e : Nat) (x : MapEnt) : State :=
  let g := grpOf s x.group
  setGrp s x.group { g with standingMap := tput g.standingMap {} e x }

/-- The journal replay of R326 and R463: a record newer than what it names. -/
def noteJournal (s : State) (r : JRec) : State :=
  match r.val with
  | .map e x => if (grpOf s x.group).owned then s else setStanding s e x
  | .place _ _ | .member _ _ => s

/-- The chunks of a namespace, as global numbers (R318). -/
def nsChunks (r : NsRec) : List Nat := (List.range r.chunks).map fun i => r.first + i

/-- The chunks of a deleted namespace return to the group: their keys are free, and commands that still hold a version keep it
(R236, R44). -/
def dropChunks (s : State) (r : NsRec) : State :=
  (nsChunks r).foldl (fun s e =>
    let s := match mapEnt s e with
      | some v => setMap s e (vClear v {})
      | none => s
    setArea (setStanding s e { group := r.group }) e {}) s

/-! ### Changes (R225) -/

/-- Side A orders catalog changes: TDM_SIDE 0. -/
def isSideA (s : State) : Bool := !s.glb.straps.tdmSide

/-- The controller runs as one without a partner: UNPAIRED, or an image without section 0x0010 (R81, R469). -/
def unpaired (s : State) : Bool := bitAt (leAt s.cfg.header 32 1) 1 || (sectionOf s.cfg 0x10).isNone

/-- The partner holds an ownership line. -/
def partnerHolds (s : State) : Bool := s.tdm.grp0.line == .partner || s.tdm.grp1.line == .partner

/-- How a catalog change is made. -/
inductive CatWay where
  | alone | sideA | forward
  | refused (st : Status)
  deriving DecidableEq, Repr

/-- The condition of R225 that holds; a catalog with a lost line is not writable (R312). -/
def catWay (s : State) : CatWay :=
  if s.coc.poison.any fun a => decide (0x1EB500000 ≤ a) && decide (a < 0x1ED500000) then .refused (.vendor 0xE7)
  else if unpaired s then .alone
  else if partnerAnswers s then (if isSideA s then .sideA else .forward)
  else if partnerHolds s then .refused (.vendor 0xE7)
  else .alone

/-- Whether a key record replaces the keys of its slot at once: the current key changes and no previous one stays (R242, R245). -/
def keyReplaced (old new : KeyRec) : Bool := old.cur.isSome && old.cur != new.cur && new.prev.isNone

/-- One edit, and what it brings about on this side: pages of a deleted or rekeyed namespace go without a flush (R236, R242,
R245), an attachment is notified (R235), a key rotation is recorded (R349), a journal record reaches the standing map (R463). -/
def catEdit (s : State) (e : CatEdit) : State :=
  match e with
  | .vss n r =>
    let s := { s with cat := { s.cat with vss := tput s.cat.vss none n r } }
    if r.isNone then { s with cat := { s.cat with hosts := s.cat.hosts.filter fun x => x.1 / 256 ≠ n } } else s
  | .ns n r =>
    let old := nsOf s n
    let s := { s with cat := { s.cat with ns := tput s.cat.ns none n r } }
    let s := match old, r with
      | some o, none => dropChunks (releaseNs s n) o
      | _, _ => s
    match old, r with
    | some o, some x => if o.attached = x.attached then s else noteNsChange s x.vss
    | _, _ => s
  | .host i r => { s with cat := { s.cat with hosts := tput s.cat.hosts none i r } }
  | .key n r =>
    let old := tget s.cat.keys {} n
    let s := { s with cat := { s.cat with keys := tput s.cat.keys {} n r } }
    let s := if keyReplaced old r then releaseNs s n else s
    if old.epoch ≠ r.epoch && r.prev.isSome then
      writeEvent s { num := 0x0803, inst := n, detail := [n, r.epoch] } else s
  | .member n r => { s with cat := { s.cat with members := tput s.cat.members {} n r } }
  | .journal r => noteJournal { s with cat := { s.cat with journal := s.cat.journal ++ [r] } } r
  | .journalDrop q => { s with cat := { s.cat with journal := s.cat.journal.filter fun x => x.seq ≠ q } }
  | .bind side f v => { s with cat := { s.cat with binds := tput s.cat.binds 0 (f + 128 * bit side) v } }
  | .pairKey k => { s with cat := { s.cat with pairKey := some k } }

/-- Write a change to this side's catalog: its edits, and the generation advances (R225). -/
def catApply (s : State) (edits : List CatEdit) : State :=
  let s := edits.foldl catEdit s
  { s with cat := { s.cat with gen := (s.cat.gen + 1) % 2 ^ 64 } }

/-- A change completes: CFE_CATALOG_CHANGED and the command's completion (R246). The kinds 0 to 2 are those of Catalog Read (R227);
the numbers of the others are open (log 22). -/
def catDone (s : State) (who : Option Cid) (dw0 kind obj : Nat) : State :=
  let s := writeEvent s { num := 0x0511, detail := [s.cat.gen, if kind ≤ 2 then kind else Config.code 0x0511 kind, obj] }
  match who with
  | some c => reply s c .success dw0
  | none => s

/-- Make a change for a command (R225): locally, or with the partner, completing on the echo; refused when the catalog is not
writable. Kinds: 0 VSS, 1 namespace, 2 host entry, 3 key, 4 member, 5 journal, 6 binding. -/
def catChange (s : State) (who : Option Cid) (edits : List CatEdit) (dw0 kind obj : Nat) : State :=
  match catWay s with
  | .refused st => match who with
    | some c => reply s c st
    | none => s
  | .alone => catDone (catApply s edits) who dw0 kind obj
  | .sideA =>
    let id := 2 * s.cfe.nextCat
    let s := catApply { s with cfe := { s.cfe with nextCat := s.cfe.nextCat + 1 } } edits
    let p : CatPend := ⟨id, edits, who, dw0, kind, obj, false⟩
    tdmSend { s with cfe := { s.cfe with pend := s.cfe.pend ++ [p] } } (.tandem 6 [id, s.cat.gen])
  | .forward =>
    let id := 2 * s.cfe.nextCat + 1
    let p : CatPend := ⟨id, edits, who, dw0, kind, obj, true⟩
    tdmSend { s with cfe := { s.cfe with nextCat := s.cfe.nextCat + 1, pend := s.cfe.pend ++ [p] } } (.tandem 5 [id])

/-- A record the controller writes by itself: a map-journal record, an erase or rekey checkpoint, an automatic rotation, the end of
a rekey. It is written here at once and sent to the partner as a change while it answers (log 16). -/
def catRecord (s : State) (edits : List CatEdit) (kind obj : Nat) : State :=
  let s := catDone (catApply s edits) none 0 kind obj
  if partnerAnswers s then
    tdmSend { s with cfe := { s.cfe with nextCat := s.cfe.nextCat + 1 } }
      (.tandem 6 [2 * s.cfe.nextCat + (if isSideA s then 0 else 1), s.cat.gen])
  else s

/-! ### Keys (R344) -/

/-- A fresh 256-bit key from the trust engine's generator. -/
def freshKey (s : State) : Nat × State :=
  let (k, s) := takeFree s
  (k % 2 ^ 256, s)

/-- The record of a slot under a new key: its last epoch + 1, with the present key kept as previous or not. -/
def newKey (old : KeyRec) (k : Nat) (keep : Bool) : KeyRec :=
  { epoch := old.epoch + 1, cur := some k,
    prev := if keep then old.cur.map fun c => (old.epoch, c) else none }

/-- The key of a slot under an epoch (R343). -/
def keyAt (s : State) (slot epoch : Nat) : Option Nat :=
  let k := tget s.cat.keys {} slot
  if epoch = k.epoch then k.cur
  else match k.prev with
    | some (e, v) => if e = epoch then some v else none
    | none => none

end Sys2Proof.Machine
end

