-- ==== Sys2Proof/Machine/Geometry.lean ====
section
/-! DEFINITION. Where a namespace block lies, and the stripe engine: geometry, the code over GF(2^8), block metadata, drive extents
(chapter 11, R318 to R330). -/

namespace Sys2Proof.Machine

/-! ### Geometry (R318, R319) -/

/-- Stripes of a chunk with K data positions: the ceiling of 4,096 / K. -/
def stripesOf (k : Nat) : Nat := (4096 + k - 1) / k

/-- A block's place: global chunk, stripe, position and row. -/
structure Place where
  chunk  : Nat
  stripe : Nat
  pos    : Nat
  row    : Nat
  deriving DecidableEq, Repr

/-- The place of block `lba` of a namespace whose run begins at chunk `first`, with K data positions (R319). -/
def placeOf (first k lba : Nat) : Place :=
  let b := lba % 65536
  let strip := b / 16
  { chunk := first + lba / 65536, stripe := strip / k, pos := strip % k, row := b % 16 }

/-- The namespace block at a data position, none past the chunk's 4,096 strips (R319). -/
def blockAt (ent : MapEnt) (stripe pos row : Nat) : Option Nat :=
  if ent.k * stripe + pos < 4096 then some (65536 * ent.index + 16 * (ent.k * stripe + pos) + row) else none

/-- The member that holds a position of a stripe. -/
def memberAt (k m stripe pos : Nat) : Nat := (pos + stripe) % (k + m)

/-- The position a member holds in a stripe. -/
def posOfMember (k m stripe mem : Nat) : Nat := (mem + (k + m) - stripe % (k + m)) % (k + m)

/-- The drive LBA of row `row` of a stripe on a member whose extent begins at strip `start`. -/
def driveLba (start stripe row : Nat) : Nat := 262144 + 16 * (start + stripe) + row

/-- A member slot of an entry. -/
def memOf (e : MapEnt) (i : Nat) : Member := (e.mem[i]?).getD {}

/-- Members of an entry that are Missing. -/
def missingCount (e : MapEnt) : Nat := (e.mem.filter fun x => x.st == .missing).length

/-! ### The code (R329) -/

/-- Multiply in GF(2^8) modulo 0x11D, bit by bit from the top of `b`. -/
def gfMul (a b : Nat) : Nat :=
  (List.range 8).foldl (fun r i =>
    let r := if r < 128 then 2 * r else (2 * r) ^^^ 0x11D
    if bitAt b (7 - i) then r ^^^ a else r) 0

/-- The inverse in GF(2^8): the 254th power. -/
def gfInv (a : Nat) : Nat :=
  (List.range 253).foldl (fun r _ => gfMul r a) a

/-- The coefficient of data position j in parity i: 1 / (x_i + y_j), x_i = i, y_j = M + j. -/
def gfCoef (m i j : Nat) : Nat := gfInv (i ^^^ (m + j))

/-- A coded block multiplied by a field element, byte by byte over its 4,144 bytes. -/
def gfScale (g n : Nat) : Nat := leNat ((leBytes 4144 n).map fun b => BitVec.ofNat 8 (gfMul g b))

/-- Parity i of a row: the sum over the data positions given as (position, coded block). -/
def parityOf (m i : Nat) (blocks : List (Nat × Nat)) : Nat :=
  blocks.foldl (fun r b => r ^^^ gfScale (gfCoef m i b.1) b.2) 0

/-! ### Coded blocks (R321, R322, R334, R341) -/

/-- Metadata bytes 0 to 47 of a data block. -/
def metaCode (kind : Nat) (hasPi : Bool) (slot epoch ctr tag pi : Nat) : Nat :=
  leNat ((leBytes 1 kind ++ leBytes 1 (bit hasPi) ++ leBytes 2 slot ++ leBytes 4 epoch ++ leBytes 6 ctr ++ leBytes 2 0
    ++ leBytes 16 tag ++ leBytes 8 pi).map (BitVec.ofNat 8 ·))

/-- A coded block: 4,096 stored bytes and metadata bytes 0 to 47. -/
def codeBlk (data code : Nat) : Nat := data % 2 ^ 32768 + 2 ^ 32768 * code

/-- The whole 64 bytes of metadata of a block at its place: bytes 0 to 47 from its coding, then chunk, stripe, position, row and
parity flag, and the CRC over the drive LBA and bytes 0 to 59. -/
def metaFull (coded chunk stripe pos row lba : Nat) (parity : Bool) : Nat :=
  let b := leBytes 48 (coded / 2 ^ 32768) ++ leBytes 4 chunk ++ leBytes 2 stripe ++ leBytes 1 pos
    ++ leBytes 1 (row % 16 + 128 * bit parity) ++ leBytes 4 0
  leNat ((b ++ leBytes 4 (crc32c (leBytes 8 lba ++ b))).map (BitVec.ofNat 8 ·))

/-- The coded block of a staging page: its stored bytes and metadata; a poisoned page is written as a lost block (R312, R334). -/
def codePage (s : State) (pg : Page) (r : CommitRec) : Nat :=
  if pg.poison then codeBlk 0 (metaCode 3 false r.ns r.epoch 0 0 0)
  else
    let key := (keyAt s r.ns r.epoch).getD 0
    codeBlk (sealed r.enc key r.ns r.epoch r.ctr pg.blk.data)
      (metaCode (if r.enc then 1 else 2) r.pi r.ns r.epoch r.ctr r.tag r.piData)

/-- A block of a namespace from before its last format, which reset the chunk map: it reads as unwritten (R245, DESIGN CHOICE, log 29). -/
def wiped (s : State) (ns : Nat) (d : DriveBlk) : Bool :=
  d.kind != 0 && d.slot == ns && (match nsOf s ns with | some r => decide (d.epoch < r.blank) | none => false)

/-- The coded block that a drive holds for a data position, from its content: zeros when it is unwritten. Of a block from before a
format, whose key is destroyed, the content given is the coded block itself. -/
def codeDrive (s : State) (d : DriveBlk) (hasPi : Bool) (lba : Nat) : Nat :=
  if wiped s d.slot d then d.blk.data
  else match d.kind with
  | 0 => 0
  | 3 => codeBlk 0 (metaCode 3 false d.slot d.epoch 0 0 0)
  | k =>
    let key := (keyAt s d.slot d.epoch).getD 0
    let pi := if hasPi then piBytes d.blk else 0
    codeBlk (sealed (k == 1) key d.slot d.epoch d.ctr d.blk.data)
      (metaCode k hasPi d.slot d.epoch d.ctr (tagOf key d.slot d.epoch d.ctr lba pi d.blk.data) pi)

/-- A block read from a drive passes the checks of R335: an unwritten one without them. -/
def drivePasses (s : State) (ns : Nat) (d : DriveBlk) : Bool :=
  d.kind == 0 && d.good || (d.good && d.placed && d.slot == ns && ((keyAt s ns d.epoch).isSome || wiped s ns d))

/-! ### Drives of a group (R320, R327) -/

/-- A drive is present: its spoke is Ready. A member on another shelf, numbered 64 + its shelf, is asked and may not answer
(R371). -/
def drivePresent (s : State) (b : Nat) : Bool := decide (64 ≤ b) || (spkOf s b).state == .ready

/-- The present drives of a group. -/
def presentBays (s : State) (g : Nat) : List Nat := (groupBays s g).filter (drivePresent s)

/-- The data-area strips of a drive (R320). -/
def driveStrips (s : State) (b : Nat) : Nat := ((spkOf s b).blocks - 262144) / 16

/-- The valid entries of the chunk map, in force. -/
def mapEntries (s : State) : List (Nat × MapEnt) :=
  s.xfm.map.filterMap fun x => match x.2 with
    | some v => if v.cur.valid then some (x.1, v.cur) else none
    | none => none

/-- The valid placement entries, in force. -/
def placeEntries (s : State) : List (Nat × PlaceEnt) :=
  s.fed.place.filterMap fun x => match x.2 with
    | some v => if v.cur.valid then some (x.1, v.cur) else none
    | none => none

/-- The extents in use on a bay: first strip and length; those of chunks with members, and those of leases held here (R356). -/
def bayExtents (s : State) (b : Nat) : List (Nat × Nat) :=
  (mapEntries s).flatMap (fun x => if x.2.fed then [] else
    (x.2.mem.filter fun m => m.bay == b).map fun m => (m.start, x.2.stripes))
  ++ (placeEntries s).flatMap fun x =>
    (x.2.slots.filter fun m => m.bay == b && (x.2.hosted || m.shelf == par s 0x0C 4 2 0)).map fun m =>
      (m.start, x.2.chunks * x.2.stripes)

/-- As `bayExtents`, with the placement area, whose strips never count as free while section 0x000C is present (R354). -/
def takenExtents (s : State) (b : Nat) : List (Nat × Nat) :=
  (if (sectionOf s.cfg 0x0C).isSome then [(0, 512)] else []) ++ bayExtents s b

/-- Free strips of a bay. -/
def freeStrips (s : State) (b : Nat) : Nat := driveStrips s b - (takenExtents s b).foldl (fun n x => n + x.2) 0

/-- A run of `n` strips from `at` on is free on a bay. -/
def runFree (ext : List (Nat × Nat)) (at_ n : Nat) : Bool :=
  ext.all fun x => decide (x.1 + x.2 ≤ at_) || decide (at_ + n ≤ x.1)

/-- The lowest free run of `n` strips of a bay: it begins at 0 or at the end of an extent in use. -/
def lowestRun (s : State) (b n : Nat) : Option Nat :=
  let ext := takenExtents s b
  let cands := (0 :: ext.map fun x => x.1 + x.2).filter fun a => runFree ext a n && decide (a + n ≤ driveStrips s b)
  cands.foldl (fun m a => match m with
    | none => some a
    | some x => some (min x a)) none

/-- The bay is a member of a chunk (or holds a lease). -/
def bayIsMember (s : State) (b : Nat) : Bool := !(bayExtents s b).isEmpty

/-- The bay is Missing in some chunk. -/
def bayMissing (s : State) (b : Nat) : Bool :=
  (mapEntries s).any fun x => x.2.mem.any fun m => m.bay == b && m.st == .missing

/-- Drives that may become members of a new chunk (R327). -/
def memberCands (s : State) (g : Nat) : List Nat :=
  (presentBays s g).filter fun b => !isSpareBay s b && !bayMissing s b

/-- Insert a bay by most free strips, ties toward the lower bay. -/
def insertByFree (s : State) (b : Nat) (l : List Nat) : List Nat :=
  match l with
  | [] => [b]
  | x :: r => if freeStrips s x < freeStrips s b || (freeStrips s x == freeStrips s b && decide (b < x)) then b :: x :: r
              else x :: insertByFree s b r

/-- Insert a number into an ascending list. -/
def insertAsc (b : Nat) (l : List Nat) : List Nat :=
  match l with
  | [] => [b]
  | x :: r => if b < x then b :: x :: r else x :: insertAsc b r

/-- The members of a new chunk (R327): the K + M drives with the most free strips, in bay order, each with its lowest free run;
none when too few qualify or one has no such run. -/
def chooseMembers (s : State) (g n strips : Nat) : Option (List Member) :=
  let best := (((memberCands s g).foldl (fun l b => insertByFree s b l) []).take n).foldl (fun l b => insertAsc b l) []
  if best.length < n then none
  else best.foldr (fun b acc => match acc, lowestRun s b strips with
    | some l, some st => some ({ bay := b, start := st } :: l)
    | _, _ => none) (some [])

/-! ### Profiles (R328) -/

/-- PROFILE_COUNT. -/
def profileCount (s : State) : Nat := par s 0x0B 0 1 1
/-- K of a profile. -/
def profileK (s : State) (p : Nat) : Nat := par s 0x0B (16 + 4 * p) 1 8
/-- M of a profile. -/
def profileM (s : State) (p : Nat) : Nat := par s 0x0B (17 + 4 * p) 1 2

end Sys2Proof.Machine
end

