-- ==== Sys2Proof/Machine/FedBase.lean ====
section
/-! DEFINITION. The federation as the stripe engine uses it: parameters, federated chunks and their members, and the requests sent
to other members (chapter 12). -/

namespace Sys2Proof.Machine

/-! ### Parameters (R351, R352) -/

/-- The controller is a member: section 0x000C is present and the partner's identities do not differ. -/
def fedOn (s : State) : Bool := (sectionOf s.cfg 0x0C).isSome && !s.fed.mismatch
/-- FEDERATION_ID. -/
def fedId (s : State) : Nat := par s 0x0C 0 4 0
/-- SHELF_ID. -/
def ownShelf (s : State) : Nat := par s 0x0C 4 2 0
/-- This controller's member ID. -/
def ownMember (s : State) : Nat := 2 * ownShelf s + bit s.glb.straps.tdmSide
/-- WINDOW_SLOTS. -/
def windowSlots (s : State) : Nat := par s 0x0C 12 1 0
/-- RKEY_PREFIX. -/
def rkeyPrefix (s : State) : Nat := par s 0x0C 16 4 0
/-- Pages of a fragment slot (R358). -/
def slotPages : Nat := 17
/-- Bytes of a fragment slot. -/
def slotBytes : Nat := 69632

/-- A shelf's entry of the member table (R353). -/
def memberOf (s : State) (shelf : Nat) : FedMember := tget s.cat.members {} shelf

/-! ### Federated chunks (R356) -/

/-- A chunk-map entry with its members, as a holder of references sees them: those of a federated chunk come from its placement entry, at the offset of its lease slot;
a member on another shelf is numbered 64 + shelf. -/
def fedView (s : State) (refs : List (Nat × Nat × Nat)) (x : MapEnt) : MapEnt :=
  if !x.fed then x
  else match placeEnt s (x.place % 65536) with
    | none => x
    | some v => { x with mem := (vHeldBy v refs 3 (x.place % 65536)).slots.map fun q =>
        { bay := if q.shelf = ownShelf s then q.bay else 64 + q.shelf, st := q.st,
          start := q.start + x.stripes * (x.place / 65536) } }

/-- The entry of a chunk as a holder of references sees it: the version it matched (R42, R43, R324). -/
def chunkAt (s : State) (refs : List (Nat × Nat × Nat)) (e : Nat) : Option MapEnt :=
  (mapEnt s e).bind fun v =>
    let x := vHeldBy v refs 2 e
    if x.valid then some (fedView s refs x) else none

/-- The entry in force of a chunk. -/
def chunkEnt (s : State) (e : Nat) : Option MapEnt := chunkAt s [] e

/-- A member of a chunk lies on another shelf. -/
def isRemote (m : Member) : Bool := decide (64 ≤ m.bay)

/-- Remote members of an entry that are not Missing. -/
def remoteCount (x : MapEnt) : Nat := (x.mem.filter fun m => isRemote m && m.st != .missing).length

/-- The federated chunks of a placement entry. -/
def fedChunks (s : State) (entry : Nat) : List (Nat × MapEnt) :=
  (mapEntries s).filter fun x => x.2.fed && x.2.place % 65536 == entry

/-! ### Messages (R363) -/

/-- PARAMS of a message, 16 bytes by its type: ALLOC (4), ALLOC_REPLY (5), READ_DATA (3). -/
def paramBytes (typ : Nat) (p : List Nat) : List Nat :=
  let f := fun i => (p[i]?).getD 0
  let b := if typ = 4 then [f 0 % 256, f 1 % 256] ++ leBytes 2 (f 2) ++ leBytes 2 (f 3)
    else if typ = 5 then [f 0 % 256, 0, 0, 0] ++ leBytes 4 (f 1)
    else if typ = 3 then [f 0 % 256, 0] ++ leBytes 2 (f 1)
    else []
  (b ++ List.replicate 16 0).take 16

/-- The 128-byte header of a message of a type. -/
def headBytes (typ : Nat) (m : PorporMsg) : List Nat :=
  let plen := if typ = 1 || typ = 3 then 4160 * ((List.range 16).filter (bitAt m.rows)).length else 0
  let b := [0x4C, 0x59, 0x50, 0x46, 1, typ] ++ leBytes 2 m.origin ++ leBytes 4 m.fedId ++ leBytes 2 m.entry ++ leBytes 2 m.lslot
    ++ leBytes 4 m.chunk ++ leBytes 2 m.stripe ++ [m.member % 256, m.group % 2] ++ leBytes 2 m.rows ++ leBytes 2 m.reqSlot
    ++ leBytes 2 m.repSlot ++ [0, 0] ++ leBytes 8 m.lba ++ leBytes 4 m.tag ++ leBytes 4 plen ++ paramBytes typ m.params
    ++ List.replicate 60 0
  b ++ leBytes 4 (crc32c b)

/-- A carried block's metadata CRC matches its LBA; an unwritten block needs none (R322, R365, DEDUCED, log 26). -/
def rowMetaOk (lba : Nat) (b : Nat × Nat) : Bool :=
  (b.1 == 0 && b.2 == 0) || leAt ((leBytes 64 b.2).map (BitVec.ofNat 8 ·)) 60 4 == crc32c (leBytes 8 lba ++ leBytes 60 b.2)

/-- The message that lies in a slot. -/
def readMsg (d : PorporIn) : PorporMsg :=
  let at_ := leAt d.head
  let typ := at_ 5 1
  let rows := at_ 24 2
  { headOk := d.head.length == 128 && at_ 0 4 == 0x4650594C && at_ 4 1 == 1 && at_ 124 4 == crc32c ((d.head.take 124).map BitVec.toNat),
    origin := at_ 6 2, fedId := at_ 8 4, entry := at_ 12 2, lslot := at_ 14 2, chunk := at_ 16 4, stripe := at_ 20 2, member := at_ 22 1,
    group := at_ 23 1 % 2, rows := rows, reqSlot := at_ 26 2, repSlot := at_ 28 2, lba := at_ 32 8, tag := at_ 40 4,
    params := if typ = 4 then [at_ 48 1, at_ 49 1, at_ 50 2, at_ 52 2] else if typ = 5 then [at_ 48 1, at_ 52 4]
      else if typ = 3 then [at_ 48 1, at_ 50 2] else [],
    metaOk := d.rows.length == ((List.range 16).filter (bitAt rows)).length
      && (((List.range 16).filter (bitAt rows)).zip d.rows).all fun x => rowMetaOk (at_ 32 8 + x.1) x.2,
    data := d.rows }

/-! ### Requests (R361 to R366, R382) -/

/-- The rows of a mask. -/
def rowList (mask : Nat) : List Nat := (List.range 16).filter (bitAt mask)

/-- The mask of a list of rows. -/
def rowMask (rows : List Nat) : Nat := rows.eraseDups.foldl (fun m r => m + 2 ^ r) 0

/-- Bytes of a request: the header, and the rows of a STRIP_WRITE. -/
def fragLen (f : Frag) : Nat := if f.typ = 1 then 128 + 4160 * (rowList f.rows).length else 128

/-- The queue pair to a member: of kind 2 and in RTS. -/
def porporQp (s : State) (m : Nat) : Option Nat :=
  (s.rdt.qps.find? fun x => x.2.kind == 2 && x.2.state == .rts && x.2.member == m).map Prod.fst

/-- The lowest slot of the window a peer granted that no request uses (R366). -/
def freeFragSlot (s : State) (q : Nat) : Option Nat :=
  (List.range (qpOf s q).peerSlots).find? fun n => !(s.fed.frags.any fun f => f.sent && f.qp == q && f.slot == n)

/-- The header of a request: its reply, where one is posted, comes to the slot of the same number in this side's window (R363; DESIGN CHOICE,
log 26). -/
def fragHead (s : State) (f : Frag) (n : Nat) (params : List Nat) : List Nat :=
  let j := match mapEnt s f.chunk with | some v => v.cur.place / 65536 | none => 0
  headBytes f.typ { fedId := fedId s, origin := ownMember s, entry := f.entry, lslot := if f.typ ≤ 2 then j else 0, chunk := f.chunk,
                    stripe := f.stripe, member := f.member, group := f.group, rows := f.rows,
                    repSlot := if f.typ = 2 || f.typ = 4 then n % max 1 (windowSlots s) else 0xFFFF, lba := f.lba, tag := f.tag,
                    params := params }

/-- Hand a request to the queue pair of its member, when there is one in RTS with a free slot; else it waits (R366). Of an ALLOC `fields` are
its parameters, of a STRIP_WRITE the data and metadata of its rows. -/
def fragPost (s : State) (f : Frag) (fields : List Nat) : State × Frag :=
  let m := 2 * f.shelf + f.side
  match porporQp s m with
  | none => (s, f)
  | some q => match freeFragSlot s q with
    | none => (s, f)
    | some n =>
      let s := if f.typ = 1 then rcAdd s 0x90208 0 1 else s
      let s := sendMsg s q { kind := .writeImm, len := fragLen f, va := slotBytes * n, rkey := (qpOf s q).peerKey,
                             imm := 2 ^ 28 + n }
      (emit s (.porpor m f.typ (if f.typ = 4 then fragHead s f n fields else fragHead s f n [] ++ fields)),
       { f with qp := q, slot := n, sent := true })

/-- Send a new request under the next TAG (R363). -/
def fragSend (s : State) (f : Frag) (fields : List Nat) : State :=
  let g := match placeEnt s f.entry with | some v => v.cur.group | none => f.group
  let f := { f with tag := s.fed.nextTag, sent := false, group := g }
  let s := { s with fed := { s.fed with nextTag := (s.fed.nextTag + 1) % 2 ^ 32 } }
  let (s, f) := fragPost s f fields
  { s with fed := { s.fed with frags := s.fed.frags ++ [f] } }

/-- A request has its answer, or is given up: its slot is free. -/
def fragDrop (s : State) (f : Frag) : State :=
  { s with fed := { s.fed with frags := s.fed.frags.filter fun g => g.tag != f.tag } }

/-- Send a request again, to a side of its shelf. -/
def fragResend (s : State) (f : Frag) (side : Nat) (fields : List Nat) : State :=
  fragSend (fragDrop s f) { f with side := side } fields

/-- The pool-0 cells the fan-out of a stripe takes: 261 for every remote member (R382). -/
def fanCells (x : MapEnt) : Nat := 261 * remoteCount x

/-- The fan-out of a stripe takes its cells (R382). -/
def fanTake (s : State) (e st : Nat) : State :=
  match chunkEnt s e with
  | some x => if remoteCount x = 0 then s else
    { s with swc := { s.swc with pool0 := s.swc.pool0 - fanCells x },
             fed := { s.fed with fanout := s.fed.fanout ++ [(e, st, fanCells x)] } }
  | none => s

/-- They return when the stripe's work ends. -/
def fanFree (s : State) (e st : Nat) : State :=
  let mine := s.fed.fanout.filter fun x => x.1 == e && x.2.1 == st
  { s with swc := { s.swc with pool0 := s.swc.pool0 + mine.foldl (fun n x => n + x.2.2) 0 },
           fed := { s.fed with fanout := s.fed.fanout.filter fun x => !(x.1 == e && x.2.1 == st) } }

/-- Pool 0 has the cells of a stripe's fan-out. -/
def fanRoom (s : State) (e : Nat) : Bool :=
  match chunkEnt s e with
  | some x => decide (fanCells x ≤ s.swc.pool0)
  | none => true

end Sys2Proof.Machine
end

