-- ==== Sys2Proof/Machine/Stripes.lean ====
section
/-! DEFINITION. Chunk-map updates and their journal, the flush, strip writes, rebuild and rekey (chapters 10, 11). -/

namespace Sys2Proof.Machine

/-! ### Updates of the match tables (R43, R268, R270, R325) -/

/-- An update finds a spare slot, and a chunk-map change a free journal record (R270, R325). -/
def tabRoom (s : State) (u : TabUpd) : Bool :=
  match u with
  | .derail _ _ => decide (0 < spareFree s 0)
  | .map _ _ => decide (0 < spareFree s 2) && decide (s.cat.journal.length < 4096)
  | .place _ _ => decide (0 < spareFree s 3) && decide (s.cat.journal.length < 4096)
  | .win w => winRoom (winOf s w)

/-- The blocks that hold what a journal record changes, first LBA and count: a map block, or blocks of the placement area (R325, R354). -/
def jBlocks (v : JVal) : Nat × Nat :=
  match v with
  | .map e _ => (e / 16, 1)
  | .place k _ => (262144 + (65536 + 320 * k) / 4096, (65536 + 320 * k + 319) / 4096 - (65536 + 320 * k) / 4096 + 1)
  | .member h _ => (262144 + 64 * h / 4096, 1)

/-- The object of a journal record. -/
def jObj (v : JVal) : Nat :=
  match v with
  | .map e _ => e
  | .place k _ => k
  | .member h _ => h

/-- The drives that take a journal record's blocks: the present ones of its group; of a member-table entry, of every owned group (R353). -/
def jBays (s : State) (v : JVal) : List Nat :=
  match v with
  | .map _ x => presentBays s x.group
  | .place _ x => presentBays s x.group
  | .member _ _ => (if (grpOf s 0).owned then presentBays s 0 else []) ++ if (grpOf s 1).owned then presentBays s 1 else []

/-- Write the blocks of a journal record to one drive; the lowest free slot takes the command (R325). -/
def journalWrite (s : State) (b : Nat) (r : JRec) : State :=
  (issueDrive s b .flush { opcode := 0x01, journal := some r.seq, bytes := 4096 * (jBlocks r.val).2 } [(jBlocks r.val).1, (jBlocks r.val).2]).1

/-- A change of the map or of the placement area: the journal record in the catalog first, then the new version, then its blocks to every
present drive (R325, R354). -/
def journalled (s : State) (v : JVal) (f : State → State) : State :=
  let seq := s.xfm.jseq + 1
  let r : JRec := ⟨seq, v, jBays s v⟩
  let s := { s with xfm := { s.xfm with jseq := seq } }
  let s := if r.wait.isEmpty then s else catRecord s [.journal r] 5 (jObj v)
  r.wait.foldl (fun s b => journalWrite s b r) (f s)

/-- A new version of a chunk-map entry. The members of a federated chunk stand in its placement entry (R356). -/
def mapApply (s : State) (e : Nat) (x : MapEnt) : State :=
  let x := if x.fed then { x with mem := [] } else x
  journalled s (.map e x) fun s => setArea (setMap s e (some (vPut (mapEnt s e) x))) e x

/-- A placement slot takes an entry that was loaded or changed; one that is not valid frees it. -/
def putPlace (s : State) (k : Nat) (x : PlaceEnt) : State :=
  setPlace s k (if x.valid then some (vPut (placeEnt s k) x) else (placeEnt s k).bind fun v => vClear v {})

/-- A new version of a placement entry (R354, R355). -/
def placeApply (s : State) (k : Nat) (x : PlaceEnt) : State :=
  journalled s (.place k x) fun s =>
    let s := putPlace s k x
    { s with fed := { s.fed with area := if x.valid then tput s.fed.area {} k x else tdel s.fed.area k } }

/-- Carry out an update. -/
def tabApply (s : State) (u : TabUpd) : State :=
  match u with
  | .derail k x =>
    { s with swc := { s.swc with derail := tput s.swc.derail none k (some (vPut (tget s.swc.derail none k) x)) } }
  | .map e x => mapApply s e x
  | .place k x => placeApply s k x
  | .win w => setWin s w (winFlip (winOf s w))

/-- An update by the controller itself: at once, or after a wait for a spare slot (R270). -/
def tabUpdate (s : State) (u : TabUpd) : State :=
  if tabRoom s u then tabApply s u else { s with seq := { s.seq with slotWait := s.seq.slotWait ++ [u] } }

/-- A drive whose map blocks are still to be written: Ready, or in a reset that it may come back from (R325, R412). -/
def driveStays (s : State) (b : Nat) : Bool := (spkOf s b).state == .ready || (spkOf s b).state == .resetting

/-- A change that found the journal full takes the record that has dropped: the oldest that waits for one (R325). -/
def journalRoom (s : State) : State :=
  match s.seq.slotWait.find? fun u => (match u with | .map _ _ | .place _ _ => true | _ => false) && tabRoom s u with
  | some u => tabApply { s with seq := { s.seq with slotWait := s.seq.slotWait.erase u } } u
  | none => s

/-- A drive has confirmed, or failed, the map block of a journal record: a drive that is no longer present is not waited for, a
failed write of one that is present is made again, and the last confirmation drops the record (R325). -/
def journalDone (s : State) (b j : Nat) (ok : Bool) : State :=
  match s.cat.journal.find? fun r => r.seq == j with
  | none => s
  | some r =>
    if !ok && driveStays s b then journalWrite s b r
    else
      let w := r.wait.filter (· != b)
      if w.isEmpty then journalRoom (catRecord s [.journalDrop j] 5 (jObj r.val))
      else { s with cat := { s.cat with journal := s.cat.journal.map fun x => if x.seq = j then { x with wait := w } else x } }

/-! ### The entries of a new namespace (R325) -/

/-- Write the map blocks of a new namespace to one drive. -/
def createWrite (s : State) (b : Nat) (k : Create) : State :=
  let n := (k.rec_.first + k.rec_.chunks - 1) / 16 - k.rec_.first / 16 + 1
  (issueDrive s b .flush { opcode := 0x01, create := some k.ns, bytes := 4096 * n } [k.rec_.first / 16, n]).1

/-- Every drive has confirmed the entries: the catalog records the namespace under a fresh key (R225, R325, R344). -/
def createEnd (s : State) (k : Create) : State :=
  let s := { s with xfm := { s.xfm with creates := s.xfm.creates.filter fun x => x.ns != k.ns } }
  match catWay s with
  | .refused st => reply (dropChunks s k.rec_) k.who st
  | _ =>
    let (key, s) := freshKey s
    catChange s (some k.who) [.ns k.ns (some k.rec_), .key k.ns (newKey (tget s.cat.keys {} k.ns) key false)] k.ns 1 k.ns

/-- The entries of a new namespace go to every present drive of its group; with none the record follows at once. -/
def createBegin (s : State) (k : Create) : State :=
  if k.wait.isEmpty then createEnd s k
  else k.wait.foldl (fun s b => createWrite s b k) { s with xfm := { s.xfm with creates := s.xfm.creates ++ [k] } }

/-- A drive has confirmed, or failed, the map blocks of a new namespace: as `journalDone`. -/
def createDone (s : State) (b n : Nat) (ok : Bool) : State :=
  match s.xfm.creates.find? fun k => k.ns == n with
  | none => s
  | some k =>
    if !ok && driveStays s b then createWrite s b k
    else
      let k := { k with wait := k.wait.filter (· != b) }
      if k.wait.isEmpty then createEnd s k
      else { s with xfm := { s.xfm with creates := s.xfm.creates.map fun x => if x.ns = n then k else x } }

/-- A command on a drive's slots. -/
def onSlots (s : State) (b : Nat) (f : DriveSlot → Bool) : Bool :=
  (spkOf s b).slots.any fun x => match x.2 with
    | some d => f d
    | none => false

/-- Map blocks that found no free slot on a drive are written when one is free. -/
def journalKick (s : State) (b : Nat) : State :=
  let s := s.cat.journal.foldl (fun s r =>
    if r.wait.contains b && !onSlots s b (fun d => d.journal == some r.seq) then journalWrite s b r else s) s
  s.xfm.creates.foldl (fun s k =>
    if k.wait.contains b && !onSlots s b (fun d => d.create == some k.ns) then createWrite s b k else s) s

/-- A drive that has gone is waited for by no map block. -/
def mapGone (s : State) (b : Nat) : State :=
  if driveStays s b then s
  else
    let s := s.cat.journal.foldl (fun s r => if r.wait.contains b then journalDone s b r.seq false else s) s
    s.xfm.creates.foldl (fun s k => if k.wait.contains b then createDone s b k.ns false else s) s

/-! ### Members (R334, R339) -/

/-- Replace member slot `i` of an entry. -/
def setMem (e : MapEnt) (i : Nat) (m : Member) : MapEnt := { e with mem := e.mem.set i m }

/-- A member of a chunk takes a state, in a new version of the map entry or, for a federated chunk, of its placement entry (R323,
R355). -/
def setMemState (s : State) (e i : Nat) (x : MapEnt) (st : MemState) : State :=
  if x.fed then match placeEnt s (x.place % 65536) with
    | none => s
    | some v => match v.cur.slots[i]? with
      | none => s
      | some q => tabUpdate s (.place (x.place % 65536) { v.cur with slots := v.cur.slots.set i { q with st := st } })
  else tabUpdate s (.map e (setMem x i { memOf x i with st := st }))

/-- A chunk becomes UNREADABLE (R339). -/
def markUnread (s : State) (e : Nat) (x : MapEnt) : State :=
  if x.unread then s
  else tabUpdate (writeEvent s { num := 0x080A, detail := [e] }) (.map e { x with unread := true })

/-- A member of a chunk becomes Missing: a new version and the event; beyond M the chunk is UNREADABLE (R334, R339). -/
def markMissing (s : State) (e i : Nat) : State :=
  match chunkEnt s e with
  | none => s
  | some x =>
    let m := memOf x i
    if m.st = .missing then s
    else
      let y := setMem x i { m with st := .missing }
      let s := if isRemote m then s else writeEvent s { num := 0x0807, inst := m.bay, detail := [e, m.bay] }
      if x.m < missingCount y then
        if x.fed then markUnread (setMemState s e i x .missing) e x
        else tabUpdate (if x.unread then s else writeEvent s { num := 0x080A, detail := [e] }) (.map e { y with unread := true })
      else setMemState s e i x .missing

/-- A member that a holder's version names has failed: it is Missing, unless a newer version has replaced it (R43, R334). -/
def loseMember (s : State) (x : MapEnt) (e i : Nat) : State :=
  match chunkEnt s e with
  | some y => if (memOf y i).bay = (memOf x i).bay then markMissing s e i else s
  | none => s

/-- The rebuild of a group. -/
def rbOf (s : State) (g : Nat) : Rebuild := if g = 0 then s.xfm.rb0 else s.xfm.rb1

/-- Write the rebuild of a group. -/
def setRb (s : State) (g : Nat) (r : Rebuild) : State :=
  if g = 0 then { s with xfm := { s.xfm with rb0 := r } } else { s with xfm := { s.xfm with rb1 := r } }

/-- Stripes of a chunk below the rebuild progress of a member: of the group's rebuild, which stands at `left.head`, or of the
placement entry's (R339, R372). -/
def rebuilt (s : State) (e stripe : Nat) (x : MapEnt) (i : Nat) : Bool :=
  if x.fed then match s.fed.rebuilds.find? fun r => r.1 == x.place % 65536 && r.2.1 == i with
    | none => false
    | some r => !r.2.2.1.contains e || (r.2.2.1.head? == some e && decide (stripe < r.2.2.2))
  else
    let r := rbOf s x.group
    r.active && r.left.head? == some e && decide (stripe < r.prog)

/-- A member serves reads of a stripe: In service, or Rebuilding below the progress (R337), on a present drive (R424). -/
def memReadable (s : State) (e stripe : Nat) (x : MapEnt) (i : Nat) : Bool :=
  let m := memOf x i
  drivePresent s m.bay && (match m.st with
    | .inService => true
    | .missing => false
    | .rebuilding => rebuilt s e stripe x i)

/-- A member takes writes of a stripe: as `memReadable`, whether its drive is present or not; and a stripe at or above the
progress leaves a Rebuilding member to parity (R339). -/
def memWritable (s : State) (e stripe : Nat) (x : MapEnt) (i : Nat) : Bool :=
  match (memOf x i).st with
  | .inService => true
  | .missing => false
  | .rebuilding => rebuilt s e stripe x i

/-! ### Stripes in use (R300, R301) -/

/-- The stripe of a data record, if its chunk has an entry. -/
def recStripe (s : State) (r : CommitRec) : Option (Nat × Nat) :=
  (nsOf s r.ns).bind fun n =>
    let e := n.first + r.lba / 65536
    (chunkEnt s e).bind fun x => if x.k = 0 then none else some (e, (placeOf n.first x.k r.lba).stripe)

/-- A stripe is occupied by a flush, a rebuild, a rekey or a write-back (R301). -/
def stripeBusy (s : State) (e st : Nat) : Bool := s.coc.busy.contains (e, st)

/-- FLUSH_STRIPES_MAX. -/
def flushMax (s : State) : Nat := par s 0x0A 8 2 1024

/-- A stripe slot is free. -/
def slotFree (s : State) : Bool := decide (s.coc.busy.length < flushMax s)

/-- The records the flush may take: partition, page and record. -/
def flushable (s : State) : List (Bool × Nat × CommitRec) :=
  (s.coc.own.filterMap fun x => match x.2.rc with
    | some r => if (x.2.st == .committed || x.2.st == .mirrored) && !x.2.orphan && !x.2.unus && (grpOf s r.group).owned
                then some (false, x.1, r) else none
    | none => none)
  ++ (s.coc.mir.filterMap fun x => match x.2.rc with
    | some r => if x.2.st == .adopted && x.2.pins == 0 then some (true, x.1, r) else none
    | none => none)

/-- Every unflushed record of an owned group: those of `flushable` and those being flushed. -/
def unflushed (s : State) : List CommitRec :=
  ((s.coc.own.filterMap fun x => if indexed x.2 && x.2.st != .flushed then x.2.rc else none)
  ++ s.coc.mir.filterMap fun x => if x.2.st == .adopted then x.2.rc else none)

/-- Two records cover a common block. -/
def recOverlap (a b : CommitRec) : Bool :=
  let la := if a.kind = 1 then 1 else a.len
  let lb := if b.kind = 1 then 1 else b.len
  a.ns == b.ns && decide (a.lba < b.lba + lb) && decide (b.lba < a.lba + la)

/-- No older record of the group that covers one of its blocks is unflushed (R301). -/
def inOrder (s : State) (r : CommitRec) : Bool :=
  (unflushed s).all fun o => !(o.group == r.group && decide (o.seq < r.seq) && recOverlap o r)

/-- The group is being drained for a shutdown (R50, R300), or for a release (R471). -/
def draining (s : State) (g : Nat) : Bool :=
  (s.glb.mode == .drain && s.glb.drainReason == .shutdown) || (grpOf s g).releasing.isSome

/-- A tenant's occupancy exceeds its quota (R233). -/
def overQuota (s : State) (v : Nat) : Bool :=
  match vssOf s v with
  | some r => decide (256 * r.cocMib < tenantPages s v)
  | none => false

/-- A page that class 2 of R300 takes: adopted, handed back, or of a tenant over its quota. -/
def urgent (s : State) (mir : Bool) (p : Nat) : Bool :=
  mir || (ownPg s p).vss == 0 || overQuota s (ownPg s p).vss

/-- The stripes a range record touches. -/
def rangeStripes (s : State) (r : CommitRec) : List (Nat × Nat) :=
  match nsOf s r.ns with
  | none => []
  | some n =>
    ((List.range ((r.lba + r.len - 1) / 65536 - r.lba / 65536 + 1)).map fun i => n.first + r.lba / 65536 + i).flatMap
      fun e => match chunkEnt s e with
        | none => []
        | some x => if x.k = 0 then [] else
          let lo := max r.lba (65536 * x.index) - 65536 * x.index
          let hi := min (r.lba + r.len) (65536 * x.index + 65536) - 1 - 65536 * x.index
          (List.range (hi / 16 / x.k - lo / 16 / x.k + 1)).map fun i => (e, lo / 16 / x.k + i)

/-- Every chunk that a range record touches has an entry; a range over a chunk without one stays committed (R318). -/
def rangeMapped (s : State) (r : CommitRec) : Bool :=
  match nsOf s r.ns with
  | none => true
  | some n => (List.range ((r.lba + r.len - 1) / 65536 - r.lba / 65536 + 1)).all fun i =>
      (chunkEnt s (n.first + r.lba / 65536 + i)).isSome

/-- A candidate of the flush: a stripe with its pages, or a range record; its class and its lowest SEQ (R300). -/
structure Cand where
  cls   : Nat
  seq   : Nat
  op    : IntOp
  deriving DecidableEq, Repr

/-- The pages of a stripe that may be flushed now. -/
def stripePages (s : State) (e st : Nat) : List (Bool × Nat × CommitRec) :=
  (flushable s).filter fun x => x.2.2.kind == 1 && recStripe s x.2.2 == some (e, st) && inOrder s x.2.2

/-- Every present data block of a stripe has a page among `ps`. -/
def fullStripe (x : MapEnt) (st : Nat) (ps : List (Bool × Nat × CommitRec)) : Bool :=
  (List.range x.k).all fun pos => (List.range 16).all fun row => match blockAt x st pos row with
    | none => true
    | some b => ps.any fun p => p.2.2.lba == b

/-- FLUSH_AGE_MS, or FED_FLUSH_AGE_MS for a federated chunk (R367). -/
def flushAge (s : State) (fed : Bool) : Nat := ticksMs (if fed then par s 0x0C 8 2 0 else par s 0x0A 0 2 100)

/-- The class of a stripe, none when it is not yet a candidate (R300). -/
def stripeClass (s : State) (e st : Nat) (x : MapEnt) (ps : List (Bool × Nat × CommitRec)) : Option Nat :=
  if draining s x.group then some 1
  else if ps.any fun p => urgent s p.1 p.2.1 then some 2
  else if fullStripe x st ps then some 4
  else if s.coc.aged.contains (e, st) || ps.any fun p => decide ((anyPg s p.1 p.2.1).at_ + flushAge s x.fed ≤ s.now) then some 5
  else if par s 0x0A 2 1 50 * pageCount < 100 * ownUsed s then some 6
  else none

/-- The lowest SEQ of a list of pages. -/
def lowSeq (ps : List (Bool × Nat × CommitRec)) : Nat := ps.foldl (fun m p => min m p.2.2.seq) (2 ^ 64)

/-- The stripes that hold flushable pages, without repeats. -/
def candStripes (s : State) : List (Nat × Nat) :=
  ((flushable s).filterMap fun x => if x.2.2.kind = 1 then recStripe s x.2.2 else none).eraseDups

/-- The candidates of the flush (R300, R301). -/
def flushCands (s : State) : List Cand :=
  ((candStripes s).filterMap fun k => match chunkEnt s k.1 with
    | none => none
    | some x =>
      let ps := stripePages s k.1 k.2
      if stripeBusy s k.1 k.2 || ps.isEmpty then none
      else (stripeClass s k.1 k.2 x ps).map fun c =>
        ⟨c, lowSeq ps, .flush k.1 k.2 (ps.map fun p => (p.1, p.2.1))⟩)
  ++ (flushable s).filterMap fun x =>
    if x.2.2.kind ≠ 1 && inOrder s x.2.2 && rangeMapped s x.2.2 then
      some ⟨if draining s x.2.2.group then 1 else if urgent s x.1 x.2.1 then 2 else 3, x.2.2.seq, .range x.1 x.2.1 (rangeStripes s x.2.2)⟩
    else none

/-- The first candidate: by class, then by SEQ. -/
def bestCand (l : List Cand) : Option Cand :=
  l.foldl (fun b c => match b with
    | none => some c
    | some x => if c.cls < x.cls || (c.cls == x.cls && decide (c.seq < x.seq)) then some c else some x) none

/-! ### Internal operations (R260, R300, R301) -/

/-- The stripes an operation occupies: a range record occupies those it touches. -/
def opStripes (op : IntOp) : List (Nat × Nat) :=
  match op with
  | .flush e st _ | .rebuild _ e st | .rekey _ e st | .writeback e st _ | .fedRebuild _ _ e st => [(e, st)]
  | .range _ _ sts => sts
  | .inbound _ _ | .nothing => []

/-- An operation may start: its stripes are free and a stripe slot is. A range record takes one slot. -/
def opStartable (s : State) (op : IntOp) : Bool :=
  match op with
  | .inbound _ _ => true
  | .flush e st _ | .fedRebuild _ _ e st => slotFree s && !stripeBusy s e st && fanRoom s e
  | _ => slotFree s && (opStripes op).all fun k => !stripeBusy s k.1 k.2

/-- Occupy the stripes; a flush pins its pages and makes them Flushing (R290, R291). -/
def occupy (s : State) (op : IntOp) : State :=
  let s := { s with coc := { s.coc with busy := s.coc.busy ++ opStripes op } }
  let pin := fun (s : State) (x : Bool × Nat) =>
    let g := anyPg s x.1 x.2
    pinPage (if x.1 then s else setOwn s x.2 { g with prior := g.st, st := .flushing }) x.1 x.2
  match op with
  | .flush e st ps => ps.foldl pin (fanTake s e st)
  | .fedRebuild _ _ e st => fanTake s e st
  | .range m p _ => pin s (m, p)
  | _ => s

/-- Start an operation in an internal context. -/
def beginOp (s : State) (n : Nat) (op : IntOp) : State :=
  dispatchCtx (occupy s op) n { op := some op, list := internalList op, drain := 3 }

/-- An internal operation arises: it starts, or waits for an internal context, its stripe or a stripe slot, in the order the
operations arose (R260). -/
def startInternal (s : State) (op : IntOp) : State :=
  match freeInternal s with
  | some n => if s.seq.queue.isEmpty && opStartable s op then beginOp s n op
              else { s with seq := { s.seq with queue := s.seq.queue ++ [op] } }
  | none => { s with seq := { s.seq with queue := s.seq.queue ++ [op] } }

/-- The first waiting operation that can start takes a free internal context. -/
def startWaiting (s : State) : State :=
  match freeInternal s, s.seq.queue.find? (opStartable s) with
  | some n, some op => beginOp { s with seq := { s.seq with queue := s.seq.queue.erase op } } n op
  | _, _ => s

/-- The flush starts its first candidate when a stripe slot and an internal context are free (R300). -/
def flushStart (s : State) : State :=
  match bestCand ((flushCands s).filter fun c => opStartable s c.op), freeInternal s with
  | some c, some n => beginOp s n c.op
  | _, _ => s

/-! ### Strip writes (R334, R365, R424) -/

/-- What a strip write carries, row by row: stored bytes and metadata (R321); an unwritten block is zeros in both (R322). -/
def stripFields (x : MapEnt) (e st i : Nat) (blks : List StripBlk) : List Nat :=
  (List.range 16).flatMap fun row => (blks.filter fun b => b.row == row).flatMap fun b =>
    [b.coded % 2 ^ 32768,
     if b.coded = 0 then 0 else metaFull b.coded e st b.pos row (driveLba (memOf x i).start st row) (decide (x.k ≤ b.pos))]

/-- The member write of a strip: one drive command for the rows of a stripe on one member; a STRIP_WRITE to the shelf of a remote one
(R365). -/
def stripWrite (s : State) (u : DrvUse) (x : MapEnt) (e st i : Nat) (blks : List StripBlk) : State × Bool :=
  let m := memOf x i
  if isRemote m then
    (fragSend s { tag := 0, typ := 1, ctx := none, entry := x.place % 65536, member := i, shelf := m.bay - 64, side := 0,
                  tried := [], refused := 0, qp := 0, slot := 0, chunk := e, stripe := st, lba := driveLba m.start st 0,
                  rows := rowMask (blks.map StripBlk.row), sent := false } (stripFields x e st i blks), true)
  else issueDrive s m.bay u { opcode := 0x01, strip := some (e, st, i), bytes := 4160 * blks.length }
    (driveLba m.start st 0 :: rowMask (blks.map StripBlk.row) :: stripFields x e st i blks)

/-- The internal context that writes a stripe. -/
def stripCtx (s : State) (e st : Nat) : Option (Nat × Ctx) :=
  (ctxFilter s fun c => (waitOf c == some .writes || waitOf c == some .frag) && c.strips.any fun b => b.chunk == e && b.stripe == st).head?

/-- The drive use of an operation. -/
def useOf (c : Ctx) : DrvUse :=
  match c.op with
  | some (.rebuild _ _ _) | some (.rekey _ _ _) | some (.fedRebuild _ _ _ _) => .bg
  | _ => .flush

/-- A stripe of more than M Missing members is held: the event once per stripe, and its pages stay committed (R334). -/
def stripeHeld (s : State) (e st : Nat) : State :=
  if s.coc.heldRep.contains (e, st) then s
  else writeEvent { s with coc := { s.coc with heldRep := s.coc.heldRep ++ [(e, st)] } } { num := 0x080D, detail := [e, st] }

/-- The last member write of a stripe is in: confirmed when every prepared strip is written or its member Missing, and no more
than M are Missing; else held (R334, R367). -/
def stripeSettled (s : State) (n e st : Nat) (c : Ctx) : State :=
  let held := match chunkEnt s e with
    | some x => decide (x.m < missingCount x) || x.unread
    | none => true
  let s := if held then stripeHeld s e st else s
  let c := { c with out := 0, bad := false, durable := !held && c.strips.isEmpty,
                    flg := flgPark c.flg (!held) false false }
  arrive s n (if held then setReg c 15 (statusWord .unrecoveredRead) else c) 1

/-- The blocks a context has prepared for a member of a stripe. -/
def memberBlks (c : Ctx) (x : MapEnt) (e st i : Nat) : List StripBlk :=
  c.strips.filter fun b => b.chunk == e && b.stripe == st && memberAt x.k x.m st b.pos == i

/-- A strip write has ended for good: its blocks are written, or their member is Missing. -/
def stripFin (s : State) (t : Nat × Nat × Nat) (ok : Bool) : State :=
  match stripCtx s t.1 t.2.1 with
  | none => s
  | some (n, c) => match chunkAt s c.refs t.1 with
    | none => s
    | some x =>
      let s := { s with xfm := { s.xfm with retried := s.xfm.retried.filter (· != t) } }
      let s := if ok then s else loseMember s x t.1 t.2.2
      let gone := memberBlks c x t.1 t.2.1 t.2.2
      let c := { c with strips := c.strips.filter fun b => !gone.contains b }
      if c.out ≤ 1 then stripeSettled s n t.1 t.2.1 c else setCtx s n (some { c with out := c.out - 1 })

/-- One outcome of a strip write: a first failure is retried once, success then is transient, a second marks the member Missing
(R334); a drive that is gone fails both attempts at once (R424). -/
def stripDone (s : State) (t : Nat × Nat × Nat) (ok : Bool) : State :=
  match stripCtx s t.1 t.2.1 with
  | none => s
  | some (_, c) => match chunkAt s c.refs t.1 with
    | none => s
    | some x =>
      let again := s.xfm.retried.contains t
      if ok then stripFin (if again then transient s 8 (memOf x t.2.2).bay 1 0x0807 else s) t true
      else if again || !drivePresent s (memOf x t.2.2).bay then stripFin s t false
      else match stripWrite s (useOf c) x t.1 t.2.1 t.2.2 (memberBlks c x t.1 t.2.1 t.2.2) with
        | (s, true) => { s with xfm := { s.xfm with retried := s.xfm.retried ++ [t] } }
        | (s, false) => stripFin s t false

/-! ### Rebuild (R338, R339) -/

/-- The chunks of a group that list a bay as a member, in global order. -/
def chunksOfBay (s : State) (g b : Nat) : List Nat :=
  (mapEntries s).filterMap fun x =>
    if x.2.group == g && !x.2.fed && (x.2.mem.any fun m => m.bay == b) then some x.1 else none

/-- The member slot of a bay in an entry. -/
def slotOfBay (x : MapEnt) (b : Nat) : Option Nat := (x.mem.zipIdx.find? fun y => y.1.bay == b).map fun y => y.2

/-- Begin the first chunk left of a rebuild: its member takes the target, the extent and the state Rebuilding, and stripe 0
starts; an UNREADABLE chunk is skipped, and so is one with no run for the extent (log 18). With no chunk left the rebuild ends. -/
def rebuildChunk (s : State) (g fuel : Nat) : State :=
  match fuel with
  | 0 => s
  | fuel + 1 =>
    let r := rbOf s g
    match r.left with
    | [] => writeEvent (setRb s g {}) { num := 0x0809, inst := g, detail := [g, r.bay, r.count] }
    | e :: rest =>
      let skip := fun (_ : Unit) => rebuildChunk (setRb s g { r with left := rest, prog := 0 }) g fuel
      match chunkEnt s e with
      | none => skip ()
      | some x => match slotOfBay x r.bay with
        | none => match slotOfBay x r.target with
          | some i => if (memOf x i).st = .rebuilding then startInternal (setRb s g { r with prog := 0 }) (.rebuild g e 0)
                      else skip ()
          | none => skip ()
        | some i =>
          if x.unread then skip ()
          else
            let start := if r.inPlace then some (memOf x i).start else lowestRun s r.target x.stripes
            match start with
            | none => skip ()
            | some st =>
              let s := tabUpdate (setRb s g { r with prog := 0 })
                (.map e (setMem x i { bay := r.target, st := .rebuilding, start := st }))
              startInternal s (.rebuild g e 0)

/-- Start a rebuild of a group over a list of chunks. -/
def rebuildOver (s : State) (g bay target : Nat) (left : List Nat) : State :=
  let s := setRb { s with xfm := { s.xfm with bgPct := none } } g
    { active := true, inPlace := bay == target, bay := bay, target := target, left := left, prog := 0,
      count := left.length, cancel := false }
  let s := writeEvent s { num := 0x0808, inst := g, detail := [g, bay, left.length] }
  rebuildChunk s g (left.length + 1)

/-- Start a rebuild of a group (R338, R339). -/
def rebuildBegin (s : State) (g bay target : Nat) : State := rebuildOver s g bay target (chunksOfBay s g bay)

/-- The chunks of a group whose member on a bay is Rebuilding. -/
def chunksAtWork (s : State) (g b : Nat) : List Nat :=
  (mapEntries s).filterMap fun x =>
    if x.2.group == g && !x.2.fed && (x.2.mem.any fun m => m.bay == b && m.st == .rebuilding) then some x.1 else none

/-- A chunk whose rebuild a reset has cut off is rebuilt again from stripe 0, on the extent it has (R339). -/
def rebuildResume (s : State) (g b : Nat) : State :=
  if (rbOf s g).active || (chunksAtWork s g b).isEmpty then s else rebuildOver s g b b (chunksAtWork s g b)

/-- A replacement is asked for: at once when the group has no rebuild running, else it queues in bay order (R338). -/
def rebuildAsk (s : State) (g bay target : Nat) : State :=
  if (rbOf s g).active then
    let before := s.xfm.rbWait.filter fun x => x.1 < bay
    let after := s.xfm.rbWait.filter fun x => bay < x.1
    { s with xfm := { s.xfm with rbWait := before ++ [(bay, target)] ++ after } }
  else rebuildBegin s g bay target

/-- The next queued replacement of a group starts. -/
def rebuildNext (s : State) (g : Nat) : State :=
  if (rbOf s g).active then s
  else match s.xfm.rbWait.find? fun x => groupOfBay s x.1 == some g with
    | none => s
    | some x => rebuildBegin { s with xfm := { s.xfm with rbWait := s.xfm.rbWait.filter (· != x) } } g x.1 x.2

/-- A stripe of a rebuild has ended (R339): confirmed, the progress advances and the next stripe or chunk follows; the target
failed, its member becomes Missing and the rebuild ends; a cancel stops after the current stripe. -/
def rebuildStep (s : State) (g e st : Nat) (ok : Bool) : State :=
  let r := rbOf s g
  if !r.active || r.left.head? != some e then s
  else match chunkEnt s e with
    | none => setRb s g {}
    | some x => match slotOfBay x r.target with
      | none => setRb s g {}
      | some i =>
        if !ok || (memOf x i).st = .missing then rebuildNext (setRb (markMissing s e i) g {}) g
        else
          let r := { r with prog := st + 1 }
          let s := setRb s g r
          if r.cancel then rebuildNext (setRb s g {}) g
          else if st + 1 < x.stripes then startInternal s (.rebuild g e (st + 1))
          else
            let s := tabUpdate s (.map e (setMem x i { memOf x i with st := .inService }))
            let s := rebuildChunk (setRb s g { r with left := r.left.drop 1, prog := 0 }) g (r.left.length + 1)
            rebuildNext s g

/-- A drive of an owned group is Ready again: its map area is written whole, and the chunks that miss it are rebuilt in place (R326,
R338, R424). -/
def driveReturned (s : State) (b : Nat) : State :=
  match groupOfBay s b with
  | none => s
  | some g =>
    if (grpOf s g).owned && bayIsMember s b then
      let s := (issueDrive s b .flush { opcode := 0x01, bytes := 2 ^ 30 } [0, 262144]).1
      if bayMissing s b then
        rebuildAsk { s with xfm := { s.xfm with rbWait := s.xfm.rbWait.filter fun x => x.1 ≠ b } } g b b
      else rebuildResume s g b
    else s

/-- A drive of another identity stands in the bay: it holds none of the members' data, so each member on the bay that is in service is
Missing before the drive returns, and a rebuild there writes it whole; DEDUCED (log 18) from R326, R334 and R338. -/
def driveReplaced (s : State) (b : Nat) : State :=
  match groupOfBay s b with
  | none => s
  | some g =>
    if !(grpOf s g).owned then s
    else (mapEntries s).foldl (fun s x =>
      (List.range x.2.mem.length).foldl (fun s i =>
        let m := memOf x.2 i
        if x.2.group = g && m.bay = b && !isRemote m && m.st != .missing then markMissing s x.1 i else s) s) s

/-! ### Rebuild of a federated member (R372) -/

/-- Write the progress of the rebuild of a member slot of an entry; none ends it. -/
def setFedRb (s : State) (entry slot : Nat) (r : Option (List Nat × Nat)) : State :=
  let others := s.fed.rebuilds.filter fun x => !(x.1 == entry && x.2.1 == slot)
  { s with fed := { s.fed with rebuilds := match r with
      | none => others
      | some (left, prog) => others ++ [(entry, slot, left, prog)] } }

/-- A request without a payload (R364). -/
def plainFrag (typ entry slot shelf : Nat) (tried : List Nat) : Frag :=
  { tag := 0, typ := typ, ctx := none, entry := entry, member := slot, shelf := shelf, side := 0, tried := tried, refused := 0,
    qp := 0, slot := 0, chunk := 0, stripe := 0, lba := 0, rows := 0, sent := false }

/-- The member slot is rebuilt: In service in a new version, the event, and the leases of a replaced member are freed (R372). -/
def fedRbDone (s : State) (entry slot : Nat) : State :=
  let s := match placeEnt s entry with
    | some v => match v.cur.slots[slot]? with
      | some q => tabUpdate s (.place entry { v.cur with slots := v.cur.slots.set slot { q with st := .inService } })
      | none => s
    | none => s
  writeEvent (setFedRb s entry slot none) { num := 0x0823, detail := [entry, slot] }

/-- Start the rebuild of a member slot: its chunks by ascending lease slot. -/
def fedRbStart (s : State) (entry slot : Nat) : State :=
  let all := fedChunks s entry
  let left := (List.range 65536).filterMap fun j => (all.find? fun x => x.2.place / 65536 == j).map Prod.fst
  match left with
  | [] => fedRbDone s entry slot
  | e :: _ => startInternal (setFedRb s entry slot (some (left, 0))) (.fedRebuild entry slot e 0)

/-- The rebuilds of a group that a reset or the other side has cut off go on: of its bays with a Ready drive, and of the member slots of its
placement entries (R339, R372). -/
def resumeRebuilds (s : State) (g : Nat) : State :=
  let s := (presentBays s g).foldl (fun s b => rebuildResume s g b) s
  (placeEntries s).foldl (fun s x =>
    if x.2.hosted || x.2.group ≠ g then s
    else x.2.slots.zipIdx.foldl (fun s q =>
      if q.1.st = .rebuilding && !(s.fed.rebuilds.any fun r => r.1 == x.1 && r.2.1 == q.2) then fedRbStart s x.1 q.2 else s) s) s

/-- A stripe of the rebuild of a member slot has ended (R339, R372). -/
def fedRbStep (s : State) (entry slot e st : Nat) (ok : Bool) : State :=
  match s.fed.rebuilds.find? fun r => r.1 == entry && r.2.1 == slot, chunkEnt s e with
  | some r, some x =>
    if !ok || (memOf x slot).st = .missing then setFedRb (markMissing s e slot) entry slot none
    else if st + 1 < x.stripes then
      startInternal (setFedRb s entry slot (some (r.2.2.1, st + 1))) (.fedRebuild entry slot e (st + 1))
    else match r.2.2.1.drop 1 with
      | [] => fedRbDone s entry slot
      | f :: rest => startInternal (setFedRb s entry slot (some (f :: rest, 0))) (.fedRebuild entry slot f 0)
  | _, _ => s

/-! ### Rekey (R346) -/

/-- A record of the cocoon carries an epoch of a slot. -/
def epochStaged (s : State) (slot epoch : Nat) : Bool :=
  let f := fun (x : Nat × Page) => match x.2.rc with
    | some r => r.ns == slot && r.epoch == epoch && r.kind == 1
    | none => false
  s.coc.own.any f || s.coc.mir.any f

/-- The rekey pass continues with the first chunk not yet done, or ends: the previous key is destroyed (R346). -/
def rekeyChunk (s : State) (slot : Nat) : State :=
  let k := tget s.cat.keys {} slot
  match nsOf s slot with
  | none => s
  | some n =>
    if n.chunks ≤ k.done then
      writeEvent (catRecord s [.key slot { k with prev := none, pass := false, done := 0 }] 3 slot)
        { num := 0x0804, inst := slot, detail := [slot, k.epoch] }
    else startInternal s (.rekey slot (n.first + k.done) 0)

/-- A stripe of a rekey pass has ended: the next stripe, or the chunk's checkpoint and the next chunk. A stripe that was not
confirmed is taken again (R346). -/
def rekeyStep (s : State) (slot e st : Nat) (ok : Bool) : State :=
  let k := tget s.cat.keys {} slot
  if !k.pass then s
  else if !ok then startInternal s (.rekey slot e st)
  else match chunkEnt s e with
    | none => s
    | some x =>
      if st + 1 < x.stripes then startInternal s (.rekey slot e (st + 1))
      else rekeyChunk (catRecord s [.key slot { k with done := k.done + 1 }] 3 slot) slot

/-! ### The end of an internal operation (R290, R300) -/

/-- The stripes of an operation are free again. -/
def vacate (s : State) (op : IntOp) : State :=
  let ks := opStripes op
  let s := ks.foldl (fun s k => fanFree s k.1 k.2) s
  { s with coc := { s.coc with busy := s.coc.busy.filter fun k => !ks.contains k } }

/-- A page of a flush that ended: a Flushing page takes its former state again, its pin goes, and its stripe is flushed by
reconstruct-write the next time (R290, R332). -/
def unflush (s : State) (x : Bool × Nat) : State :=
  let g := anyPg s x.1 x.2
  let s := if !x.1 && g.st = .flushing then setOwn s x.2 { g with st := g.prior } else s
  unpinPage s x.1 x.2

/-- The strip of a stripe leaves the rebuild area (R302). -/
def leaveArea (s : State) (e st : Nat) : State :=
  { s with coc := { s.coc with rbArea := s.coc.rbArea.filter fun b => !(b.chunk == e && b.stripe == st) } }

/-- An internal operation ends with its list. -/
def finishOp (s : State) (n : Nat) (c : Ctx) (op : IntOp) : State :=
  let s := freeCtxNow s n c
  match op with
  | .flush e st ps =>
    let left := ps.any fun x => (anyPg s x.1 x.2).st == .flushing || (x.1 && (anyPg s x.1 x.2).st == .adopted && !(anyPg s x.1 x.2).release)
    let s := vacate s op
    let s := ps.foldl unflush s
    { s with coc := { s.coc with aged := s.coc.aged.filter (· != (e, st)),
                                 recomp := if left then (if s.coc.recomp.contains (e, st) then s.coc.recomp
                                                         else s.coc.recomp ++ [(e, st)])
                                           else s.coc.recomp.filter (· != (e, st)) } }
  | .range m p _ => unflush (vacate s op) (m, p)
  | .rebuild g e st => rebuildStep (leaveArea (vacate s op) e st) g e st c.durable
  | .rekey slot e st => rekeyStep (vacate s op) slot e st c.durable
  | .fedRebuild entry slot e st => fedRbStep (leaveArea (vacate s op) e st) entry slot e st c.durable
  | _ => vacate s op

end Sys2Proof.Machine
end

