-- ==== Sys2Proof/Machine/Arrive.lean ====
section
/-! DEFINITION. The arrivals of drive accesses at the contexts that wait for them (chapters 09, 11, 12). -/

namespace Sys2Proof.Machine

/-- The place of a block of a namespace, and its chunk's entry as a holder of references sees it. -/
def nsPlace (s : State) (v : List (Nat × Nat × Nat)) (ns lba : Nat) : Option (MapEnt × Place) :=
  (nsOf s ns).bind fun n => (chunkAt s v (n.first + lba / 65536)).bind fun x =>
    if x.k = 0 then none else some (x, placeOf n.first x.k lba)

/-- A reconstruction has its reads: each failed block takes its planned outcome, is counted, and is written back when it was decoded;
one that no decode verifies fails the command (R336). -/
def reconArrive (s : State) (n : Nat) (c : Ctx) : State :=
  let todo := (c.buf.zip c.plan).zipIdx.filter fun x => x.1.1.st == 4
  let bad := c.plan.any fun b => b.st != 1 && b.st != 3
  let s := todo.foldl (fun s x =>
    let lba := creg c 0 + x.2
    if x.1.2.st = 3 then
      let s := rcAdd s 0x9001C 0 1
      match nsPlace s c.refs c.ns lba with
      | some (_, p) => startInternal s (.writeback p.chunk p.stripe p.row)
      | none => s
    else writeEvent (rcAdd s 0x90020 0 1) { num := 0x0806, inst := c.ns, vss := c.vss, detail := [c.ns, lba] }) s
  let c := { c with buf := c.plan, plan := [], bad := false, out := 0 }
  let c := if bad then setReg { c with flg := flgPark c.flg false false false } 15 (statusWord .unrecoveredRead)
           else { c with flg := flgPark c.flg true false false }
  arrive s n c 1

/-- Answer a Porpor request on its queue pair: OP 2 accept or OP 3 refuse with a code (R362, R365). -/
def porporAnswer (s : State) (qp slot op code : Nat) : State :=
  let imm := 2 ^ 28 * op + 2 ^ 24 * code + slot
  emit (sendMsg s qp { kind := .writeImm, len := 0, imm := imm }) (.porpor (qpOf s qp).member (256 * op + code) [slot])

/-- The bay, first strip-relative row mask and place that a hosted request writes (R365). -/
def hostedOf (s : State) (qp slot : Nat) : Option Hosted := s.fed.hosted.find? fun h => h.qp == qp && h.slot == slot

/-- The pages of a hosted request's slot are no longer reserved once it is answered (R360). -/
def unkeep (s : State) (qp slot : Nat) : State :=
  let w := (qpOf s qp).grant
  let x := tget s.fed.wins {} w
  let left := s.fed.hosted.filter fun h => (qpOf s h.qp).grant == w && !(h.qp == qp && h.slot == slot)
  { s with fed := { s.fed with
      hosted := s.fed.hosted.filter fun h => !(h.qp == qp && h.slot == slot),
      wins := if left.isEmpty && !x.kept.isEmpty then tput s.fed.wins {} w { x with kept := [] } else s.fed.wins } }

/-- Post a reply into the slot of the requester's window that its request names (OP 4, R362 to R364). -/
def porporReply (s : State) (qp typ : Nat) (m : PorporMsg) : State :=
  let n := m.repSlot
  let len := 128 + (if typ = 3 then 4160 * (rowList m.rows).length else 0)
  emit (sendMsg s qp { kind := .writeImm, len := len, va := slotBytes * n, rkey := (qpOf s qp).peerKey, imm := 2 ^ 30 + n })
    (.porpor (qpOf s qp).member typ (headBytes typ { m with repSlot := 0xFFFF }))

/-- The drive write of a hosted request: its rows (R365). -/
def hostedWrite (s : State) (n : Nat) (h : Hosted) : State × Bool :=
  issueDrive s h.spoke .flush { ctx := some n, opcode := 0x01, bytes := 4160 * (rowList h.rows).length }
    (h.lba :: h.rows :: h.msg.data.flatMap fun b => [b.1, b.2])

/-- The drive access of a hosted request has ended (R365, R371): a write is accepted, retried once, or refused with code 6; a read is
answered with READ_DATA, its rows flagged when the drive could not read them. -/
def hostedArrive (s : State) (n : Nat) (c : Ctx) (qp slot : Nat) (ok : Bool) : State :=
  let fin := fun (s : State) (ok : Bool) => arrive s n { c with out := 0, bad := false, flg := flgPark c.flg ok false false } 1
  match hostedOf s qp slot with
  | none => fin s ok
  | some h =>
    if h.reading then
      fin (porporReply (unkeep s qp slot) qp 3 { h.msg with rows := if ok then h.rows else 0, reqSlot := slot, params := [bit (!ok), if ok then 0 else h.rows] }) ok
    else
      if ok then
        let s := if h.retried then transient s 8 h.spoke 6 0x0820 else s
        fin (porporAnswer (rcAdd (unkeep s qp slot) 0x90214 0 1) qp slot 2 0) true
      else if h.retried then fin (porporAnswer (unkeep s qp slot) qp slot 3 6) false
      else
        let s := { s with fed := { s.fed with hosted := s.fed.hosted.map fun x =>
          if x.qp = qp ∧ x.slot = slot then { x with retried := true } else x } }
        match hostedWrite s n h with
        | (s, true) => setCtx s n (some { c with out := 1, bad := false })
        | (s, false) => fin (porporAnswer (unkeep s qp slot) qp slot 3 6) false

/-- The arrival of one drive access (R253, R423): the wait ends with the last of them, and fails when any failed. -/
def driveArrive (s : State) (n : Nat) (ok : Bool) : State :=
  match ctxOf s n with
  | none => staleArrival s
  | some c =>
    if c.out = 0 then staleArrival s
    else
      let c := { c with out := c.out - 1, bad := c.bad || !ok }
      if c.out ≠ 0 then setCtx s n (some c)
      else match waitOf c, c.op with
        | some .recon, _ => reconArrive s n c
        | some .writes, some (.inbound qp slot) | some .drives, some (.inbound qp slot) => hostedArrive s n c qp slot (!c.bad)
        | some .zero, _ =>
          let c := { c with flg := flgPark c.flg (!c.bad) false false, committed := !c.bad, bad := false }
          arrive s n (if c.committed then c else setReg c 15 (statusWord .unrecoveredRead)) 1
        | some .drives, _ =>
          let c := if c.bad then setReg { c with flg := flgPark c.flg false false false } 15 (statusWord .unrecoveredRead)
                   else { c with flg := flgPark c.flg true false false }
          arrive s n { c with bad := false } 1
        | _, _ => staleArrival (setCtx s n (some c))

/-- What ends a drive access of a context. -/
def wakeCtx (s : State) (n : Nat) (w : Wake) : State :=
  match w with
  | .ok => driveArrive s n true
  | .fail | .driveReset | .timeout => driveArrive s n false

end Sys2Proof.Machine
end

