-- ==== Sys2Proof/Machine/Spokes.lean ====
section
/-! DEFINITION. Spokes: the drive ports (chapter 14). -/

namespace Sys2Proof.Machine

/-- Reclaim every slot: each waiting context receives a drive-reset arrival, and a strip or journal write fails (R423). -/
def reclaimSlots (s : State) (b : Nat) : State :=
  let s := (spkOf s b).slots.foldl (fun s x =>
    match x.2 with
    | none => s
    | some d =>
      let s := dropSlot s b x.1
      let s := match d.ctx with
        | some c => wakeCtx s c .driveReset
        | none => s
      let s := match d.strip with
        | some t => stripDone s t false
        | none => s
      let s := match d.journal with
        | some j => journalDone s b j false
        | none => s
      match d.create with
      | some n => createDone s b n false
      | none => s) s
  mapGone s b

/-! ### State changes (R412) -/

/-- Bump the spoke instar (R38, spacing R39). -/
def bumpSpoke (s : State) (b : Nat) : State :=
  let p := spkOf s b
  setSpk s b { p with instar := bumpInstar p.instar s.now (ticksMs 1) }

/-- Bump the drive instar (R38). -/
def bumpDrive (s : State) (b : Nat) : State :=
  let p := spkOf s b
  setSpk s b { p with drive := bumpInstar p.drive s.now (ticksMs 1) }

/-- Set the state of a spoke. -/
def spkTo (s : State) (b : Nat) (st : SpkState) : State := setSpk s b { spkOf s b with state := st }

/-- Start a bay insertion: Powering, with the channel waiting for stable presence (R412, R437). In Safe no insertion starts. -/
def spkInsert (s : State) (b : Nat) : State :=
  if s.glb.mode = .safe then s
  else chanInsert (setSpk s b { spkOf s b with state := .powering, tries := 0, bring := 0, reason := 0 }) b

/-- A held press acts when the spoke reaches Ready, Unusable or Failed (R413): on a Ready spoke the 5 s start. -/
def heldPress (s : State) (b : Nat) : State :=
  let p := spkOf s b
  if p.heldBtn then setSpk s b { p with heldBtn := false, pendBtn := p.state == .ready } else s

/-- Enter Failed with its event (R406, R412). -/
def spkFail (s : State) (b ev : Nat) : State :=
  heldPress (writeEvent (mapGone (spkTo s b .failed) b) { num := ev, inst := b, detail := [b] }) b

/-- Enter Unusable with a reason (R412, R417). -/
def spkUnusable (s : State) (b reason : Nat) : State :=
  let p := spkOf s b
  heldPress (writeEvent (mapGone (setSpk s b { p with state := .unusable, reason := reason, bring := 0 }) b)
    { num := 0x0904, inst := b, detail := [b, reason] }) b

/-- Enable the drive's controller and wait for CSTS.RDY (R417, step 1). -/
def startBring (s : State) (b : Nat) : State := emit (setSpk s b { spkOf s b with bring := 1 }) (.drive b 0x100 [1])

/-- The resets of a spoke within the last hour (R412). -/
def hourResets (s : State) (b : Nat) : List Nat := (spkOf s b).resets.filter fun t => decide (s.now < t + ticksS 3600)

/-- A reset begins: counted and timed, and the spoke is Resetting; the ninth in an hour fails the spoke instead (R412). -/
def resetBegin (s : State) (b cause : Nat) : State :=
  let p := spkOf s b
  let hour := hourResets s b
  if 8 ≤ hour.length then spkFail (setSpk s b { p with resets := hour, rcause := 0 }) b 0x0909
  else rcAdd (setSpk s b { p with state := .resetting, resets := hour ++ [s.now], rcause := cause, bring := 0, removal := 0 })
    0xA0030 b 1

/-- A reset of the spoke (R421, R422): from Ready, at most once per 1 s (R419). New commands wait and CC.EN is written as 0. -/
def spkReset (s : State) (b cause : Nat) : State :=
  let p := spkOf s b
  if p.state = .ready || p.state = .resetting then
    if (hourResets s b).any fun t => decide (s.now < t + ticksS 1) then s
    else
      let s := resetBegin s b cause
      if (spkOf s b).state = .resetting then emit s (.drive b 0x100 [0]) else s
  else s

/-- Step 5 of a reset writes SPK_RESET with its cause, once (R422, R428). -/
def resetEvent (s : State) (b : Nat) : State :=
  let p := spkOf s b
  if p.rcause = 0 then s
  else writeEvent (setSpk s b { p with rcause := 0 }) { num := 0x0908, inst := b, detail := [b, Config.code 0x0908 p.rcause] }

/-- Containment (R407, R412): the event, the instar bump and the reclaim of every slot. A reset under way is abandoned (R413), but
not by the DPC that its own step 3 triggers, trigger 3 (R422). -/
def spkContain (s : State) (b trigger : Nat) : State :=
  let p := spkOf s b
  match p.state with
  | .training | .initializing | .ready | .resetting =>
    let s := writeEvent s { num := 0x0905, inst := b, detail := [b, Config.code 0x0905 trigger] }
    let s := bumpSpoke s b
    let s := setSpk s b { spkOf s b with state := .contained, dl := false, bring := 0, removal := 0, reclaimed := slotsUsed p,
                                         rcause := if trigger = 3 then p.rcause else 0 }
    let s := reclaimSlots s b
    w1cSet s 0xA0018 b 0x100
  | _ => s

/-- The drive leaves the bay (R412): the drive instar is bumped and the bay turns off. A surprise removal's event carries the slots
that the containment reclaimed (R428). -/
def spkGone (s : State) (b : Nat) (surprise : Bool) : State :=
  let n := (spkOf s b).reclaimed
  let s := bumpDrive (chanOffRequest s b) b
  let s := setSpk s b { spkOf s b with state := .empty, dl := false, ioq := 0, id := 0, reason := 0, pendBtn := false, rcause := 0 }
  let s := mapGone s b
  if surprise then writeEvent s { num := 0x0906, inst := b, detail := [b, n] } else s

/-- A filtered change of presence (R409, R412). -/
def presenceChange (s : State) (b : Nat) (now : Bool) : State :=
  let s := w1cSet (setSpk s b { spkOf s b with present := now, presCnt := 0 }) 0xA0018 b 8
  if now then
    if (spkOf s b).state = .empty then spkInsert s b else s
  else
    let s := chanPresenceLost s b
    match (spkOf s b).state with
    | .contained => spkGone s b true
    | .off | .unusable | .failed => spkGone s b false
    | _ => s

/-- A filtered press of the button (R413, R414). -/
def buttonPress (s : State) (b : Nat) : State :=
  let p := spkOf s b
  let s := w1cSet s 0xA0018 b 1
  match p.state with
  | .ready | .off => setSpk s b { p with pendBtn := !p.pendBtn }
  | .resetting | .training | .initializing => setSpk s b { p with heldBtn := true }
  | _ => s

/-- One bay's share of a scan frame: an input changes after SCAN_FILTER_SCANS scans of the new value (R409). -/
def scanBay (s : State) (pres btn : List Nat) (b : Nat) : State :=
  let p := spkOf s b
  let newP := pres.contains b
  let newB := btn.contains b
  let p := { p with presCnt := if newP = p.present then 0 else p.presCnt + 1,
                    btnCnt := if newB = p.button then 0 else p.btnCnt + 1 }
  let s := setSpk s b p
  let s := if decide (scanFilter s ≤ p.presCnt) && p.presCnt != 0 then presenceChange s b newP else s
  if decide (scanFilter s ≤ p.btnCnt) && p.btnCnt != 0 then
    let s := setSpk s b { spkOf s b with button := newB, btnCnt := 0 }
    if newB then buttonPress s b else s
  else s

/-- A blinking indicator is lit in this scan: 1.5 Hz with a 50 % duty cycle (R410). DESIGN CHOICE (log 18): the phase counts from
timebase 0, and every indicator of the shelf has the same. -/
def blinkOn (s : State) : Bool := 3 * s.now / ticksS 1 % 2 == 0

/-- The indicators of a bay that are lit in this scan: attention as the manager set it, power and fault as R411 fixes. -/
def litOf (s : State) (b : Nat) : List Nat :=
  let p := spkOf s b
  let pw := match p.state with
    | .powering | .training | .initializing | .resetting | .contained => blinkOn s
    | .ready => if p.pendBtn || p.removal != 0 then blinkOn s else true
    | _ => (p.pendBtn || p.removal != 0) && blinkOn s
  let ft := p.state == .unusable || p.state == .failed || (chanOf s b).state == .latched
  let at_ := p.attn = 1 || (p.attn = 2 && blinkOn s)
  (if at_ then [3 * b] else []) ++ (if pw then [3 * b + 1] else []) ++ (if ft then [3 * b + 2] else [])

/-- A scan frame (R408 to R410): presence and buttons sampled, the indicators of the owned groups' bays shifted out. -/
def scanFrame (s : State) (pres btn : List Nat) : State :=
  if !s.spk.scanning then s
  else
    let s := { s with spk := { s.spk with frames := (s.spk.frames + 1) % 65536 } }
    let s := (List.range 64).foldl (fun s b => scanBay s pres btn b) s
    emit s (.scan (((List.range 64).filter (ownsBay s)).flatMap (litOf s)))

/-! ### The link (R406, R412) -/

/-- A speed and width that the spoke trains to (R404, R427): 2.5 GT/s to MAX_GTS, and ×2 only without WIDTH_X1. -/
def spkTrains (s : State) (b gts width : Nat) : Bool :=
  decide (1 ≤ gts) && decide (gts ≤ spkMaxGts s b) && (width == 1 || (width == 2 && !spkX1 s b))

/-- DL_Active is reached: a training spoke initialises, with a transient fault when it took the second attempt; a resetting
spoke runs its bring-up again (R406, R412, R422). A link outside what the spoke trains to does not come up (R404). -/
def linkUpSpoke (s : State) (b gts width : Nat) : State :=
  let p := spkOf s b
  if s.glb.mode = .safe || !spkTrains s b gts width then s else
  match p.state with
  | .training =>
    let s := setSpk s b { p with state := .initializing, gts := gts, width := width, dl := true }
    let s := writeEvent (w1cSet s 0xA0018 b 0x100) { num := 0x0901, inst := b, detail := [b, gts, width] }
    startBring (if p.tries = 0 then s else transient s 9 b 1 0x0902) b
  | .resetting =>
    let s := setSpk s b { p with gts := gts, width := width, dl := true, fenced := false }
    startBring (writeEvent s { num := 0x0901, inst := b, detail := [b, gts, width] }) b
  | _ => s

/-- No DL_Active within LINK_UP_MS: one more training, then Failed (R406). -/
def linkTimeout (s : State) (b : Nat) : State :=
  let p := spkOf s b
  if p.state = .training then
    if p.tries = 0 then emit (setSpk s b { p with tries := 1 }) (.drive b 0x101 []) else spkFail s b 0x0902
  else s

/-! ### Bring-up (R417, R424) -/

/-- The checks of R417 on the Identify results: the reason of the first failure, 0 when every one passes. -/
def identReason (s : State) (r : Ident) : Nat :=
  if !r.identifyOk || decide (r.ver < 0x10400) then 2
  else if !bitAt r.cmic 0 && !unpaired s then 3
  else if !r.nsid1 || (!bitAt r.nmic 0 && !unpaired s) then 4
  else if r.lbads ≠ 12 || r.ms ≠ 64 || bitAt r.flbas 4 || !bitAt r.mc 1 then 5
  else if r.dps ≠ 0 then 6
  else if field r.dlfeat 0 3 ≠ 1 || !bitAt r.dlfeat 3 || !bitAt r.oncs 3 then 7
  else if r.blocks < 1048576 then 8
  else if r.ioqGranted = 0 then 9
  else 0

/-- The identity of a drive: the low 64 bits of the SHA-384 digest of SN, MN and NGUID (R424, R547). -/
def driveIdentity (r : Ident) : Nat := digest64 (Config.sha384 (r.idBytes.map BitVec.toNat))

/-- The largest power of 2 that is at most both counts (R417). -/
def ioqPairs (a b : Nat) : Nat := ([16, 8, 4, 2, 1].find? fun q => decide (q ≤ a) && decide (q ≤ b)).getD 0

/-- Compare the drive's identity with the one last seen in the bay, and record it (R412). -/
def noteIdentity (s : State) (b id : Nat) : State :=
  let old := tget s.spk.bayIds 0 b
  let s := if old ≠ 0 ∧ old ≠ id then
      writeEvent (bumpDrive s b) { num := 0x090C, inst := b, detail := [b, old, id] } else s
  let s := { s with spk := { s.spk with bayIds := tput s.spk.bayIds 0 b id } }
  setSpk s b { spkOf s b with id := id }

/-- The Identify results arrive (R417): Ready when every check passes and the queues exist, else Unusable; a Drive Format under
way is answered. -/
def identDone (s : State) (b : Nat) (r : Ident) : State :=
  let p := spkOf s b
  if p.bring ≠ 2 then s
  else
    let old := tget s.spk.bayIds 0 b
    let s := if r.identifyOk && r.nsid1 && p.state = .initializing then noteIdentity s b (driveIdentity r) else s
    let other := decide (old ≠ 0) && decide (old ≠ tget s.spk.bayIds 0 b)
    let s := if other then driveReplaced s b else s
    let why := identReason s r
    let s := match p.format with
      | some c => reply (setSpk s b { spkOf s b with format := none }) c .success
      | none => s
    if why = 0 then
      let s := setSpk s b { spkOf s b with state := .ready, bring := 0, reason := 0, failed := 0, blocks := r.blocks,
                                           ioq := ioqPairs (ioqCount s) r.ioqGranted }
      heldPress (if p.state = .initializing then
        driveReturned (writeEvent s { num := 0x0903, inst := b, detail := [b, driveIdentity r] }) b else journalKick s b) b
    else if p.state = .initializing then spkUnusable s b why
    else setSpk s b { spkOf s b with bring := 0 }

/-! ### Completions (R419, R420, R424) -/

/-- A completion under an old spoke or drive instar is discarded (R37, R419). -/
def spkStale (s : State) (b : Nat) : State :=
  let (s, i) := discardStale s 9 0x090D b (spkOf s b).instar
  setSpk s b { spkOf s b with instar := i }

/-- A completion of a drive: matched to its slot by both instars, or discarded as stale, also where the bump has emptied the slot (R37, R419); one
for a command that a virtual-controller reset withdrew only frees the slot (R232). -/
def driveDone (s : State) (b n hi : Nat) (r : DriveResult) : State :=
  let p := spkOf s b
  match r with
  | .ident i => identDone s b i
  | .formatted ok =>
    match p.format with
    | none => s
    | some c => if ok then startBring (setSpk s b { p with state := .initializing }) b
                else reply (setSpk s b { p with format := none }) c .internalError
  | .aborted =>
    match tget p.slots none n with
    | some d => if d.timedOut then dropSlot s b n else s
    | none => s
  | .io ok =>
    match tget p.slots none n with
    | none => if hi ≠ slotTag (tagOfInstar p.instar) (tagOfInstar p.drive) then spkStale s b else staleArrival s
    | some d =>
      if hi ≠ slotTag d.spoke d.drive || stale p.instar d.spoke || stale p.drive d.drive then spkStale s b
      else
        let s := dropSlot s b n
        let s := match d.vc with
          | some a => vcStale s a
          | none => s
        let s := match d.ctx with
          | some c => if d.timedOut then s else wakeCtx s c (if ok then .ok else .fail)
          | none => s
        let s := match d.strip with
          | some t => stripDone s t ok
          | none => s
        let s := match d.journal with
          | some j => journalDone s b j ok
          | none => s
        let s := match d.create with
          | some n => createDone s b n ok
          | none => s
        journalKick (count s 0x0902 (some b) none d.bytes) b

/-- A drive command times out (R420): counted, reported and aborted; its slot and pins stay held. -/
def driveCmdTimeout (s : State) (b n : Nat) : State :=
  let p := spkOf s b
  match tget p.slots none n with
  | none => s
  | some d =>
    let s := setSpk s b { p with slots := tput p.slots none n (some { d with timedOut := true }) }
    emit (writeEvent (rcAdd s 0xA002C b 1) { num := 0x0907, inst := b, detail := [b, d.opcode, n] }) (.drive b 0x08 [n])

/-- A DMA request of a drive (R407, R416, R451): a contained port drops it; a fenced one answers Unsupported Request uncounted;
one outside the queue memory and the buffers of outstanding commands is a violation, and a second within 1 s resets the
spoke. -/
def dmaRequest (s : State) (b addr : Nat) (t : DmaTarget) : State :=
  let p := spkOf s b
  let ok := match t with
    | .queueMem => true
    | .buffer n => (tget p.slots none n).isSome
    | .other => false
  if p.state = .contained then s
  else if p.fenced then emit s (.drive b 0x102 [0, addr])
  else if ok then emit s (.drive b 0x102 [1, addr])
  else
    let s := emit (rcAdd s 0xA0038 b 1) (.drive b 0x102 [0, addr])
    let s := writeEvent s { num := 0x090A, inst := b, detail := [b, addr] }
    let again := match p.violAt with
      | some t => decide (s.now < t + ticksS 1)
      | none => false
    let s := setSpk s b { spkOf s b with violAt := some s.now }
    if again then spkReset s b 4 else s

/-! ### Orderly removal and control (R412, R414) -/

/-- Start an orderly removal of a Ready drive: no new command is issued (R414). -/
def startRemoval (s : State) (b : Nat) (disable : Bool) : State :=
  setSpk s b { spkOf s b with removal := 1, pendBtn := false, disabling := disable }

/-- The next step of an orderly removal: shutdown once the commands in flight have finished, then off (R414). -/
def removalStep (s : State) (b : Nat) (shst : Bool) : State :=
  let p := spkOf s b
  if p.state ≠ .ready then s
  else match p.removal with
    | 1 => if slotsUsed p = 0 then emit (setSpk s b { p with removal := 2 }) (.drive b 0x103 [1]) else s
    | 2 => if shst then
             let s := chanOffRequest s b
             let s := setSpk s b { spkOf s b with state := if p.disabling then .disabled else .off, removal := 0,
                                                  disabling := false, dl := false }
             writeEvent (mapGone s b) { num := 0x090B, inst := b, detail := [b] }
           else s
    | _ => s

/-- SPK_CTL RESET (R412, R434): a spoke reset, or a fresh insertion from Unusable or Failed with presence set; a latched
channel is cleared. -/
def ctlReset (s : State) (b : Nat) : State :=
  let p := spkOf s b
  let lat := (chanOf s b).state = .latched
  match p.state with
  | .ready => spkReset s b 5
  | .unusable | .failed =>
    let s := if lat then chanUnlatch s b 2 else s
    if p.present then
      let c := chanOf s b
      let s := spkInsert s b
      if c.state = .on && s.glb.mode ≠ .safe then setSpk s b { spkOf s b with state := .training } else s
    else s
  | _ => if lat then chanUnlatch s b 2 else s

/-- SPK_CTL POWER_OFF. -/
def ctlPowerOff (s : State) (b : Nat) : State :=
  if (spkOf s b).state = .ready then startRemoval s b false else s

/-- SPK_CTL POWER_ON. -/
def ctlPowerOn (s : State) (b : Nat) : State :=
  if (spkOf s b).state = .off then spkInsert s b else s

/-- SPK_CTL DISABLE: at once, or after an orderly removal of a Ready drive. -/
def ctlDisable (s : State) (b : Nat) : State :=
  match (spkOf s b).state with
  | .ready => startRemoval s b true
  | .disabled => s
  | _ =>
    let s := chanOffRequest s b
    reclaimSlots (setSpk s b { spkOf s b with state := .disabled, dl := false, bring := 0, pendBtn := false, heldBtn := false,
                                              rcause := 0 }) b

/-- SPK_CTL ENABLE: a Disabled spoke whose bay is in a group becomes Empty. -/
def ctlEnable (s : State) (b : Nat) : State :=
  if (spkOf s b).state = .disabled && (groupOfBay s b).isSome then
    let s := spkTo s b .empty
    if (spkOf s b).present then spkInsert s b else s
  else s

/-- A write of SPK_CTL, its bits in order. -/
def spkCtlWrite (s : State) (b v : Nat) : State :=
  if !authMode s then s else
  let s := if bitAt v 0 then ctlReset s b else s
  let s := if bitAt v 1 then ctlPowerOff s b else s
  let s := if bitAt v 2 then ctlPowerOn s b else s
  let s := if bitAt v 3 then ctlDisable s b else s
  if bitAt v 4 then ctlEnable s b else s

/-- A write of SPK_SLOT_CTL changes only ATTN_IND, and 00b is ignored (R411, R429). -/
def slotCtlWrite (s : State) (b v : Nat) : State :=
  if !authMode s then s else
  if field v 6 2 = 0 then s else setSpk s b { spkOf s b with attn := field v 6 2 }

/-- Drive Format (R426): its statuses in the table's order, else NVM Format is issued and R417 follows its completion. -/
def formatDrive (s : State) (c : Cid) (b : Nat) (offered : Bool) : State :=
  let p := spkOf s b
  asManager s c 0 fun s =>
    if bayIsMember s b then reply s c (.vendor 0xE3)
    else if !ownsBay s b then reply s c (.vendor 0xEA)
    else if !offered then reply s c (.vendor 0xF3)
    else if p.state = .ready || (p.state = .unusable && (p.reason == 5 || p.reason == 6)) then
      emit (setSpk s b { p with format := some c }) (.drive b 0x80 [1])
    else reply s c (.vendor 0xEB)

/-! ### The rows -/

/-- BAY_SCAN_FRAME. -/
def execBayScanFrame (pres btn : List Nat) (s : State) : Host.Outcome State Fault Refusal := .next (scanFrame s pres btn)
/-- LINK_UP_TIMEOUT. -/
def execLinkUpTimeout (b : Nat) (s : State) : Host.Outcome State Fault Refusal := onSpoke b s fun s => linkTimeout s b
/-- SPOKE_LINK_UP. -/
def execSpokeLinkUp (b gts width : Nat) (s : State) : Host.Outcome State Fault Refusal :=
  onSpoke b s fun s => linkUpSpoke s b gts width
/-- SPOKE_DPC; a correctable error, which comes with this row as trigger 4 (DESIGN CHOICE, log 44), is counted and contains nothing (R407). -/
def execSpokeDpc (b trigger : Nat) (s : State) : Host.Outcome State Fault Refusal :=
  onSpoke b s fun s => if trigger = 4 then rcAdd s 0xA0034 b 1 else spkContain s b trigger
/-- CONTAINMENT_RELEASE: into Resetting while presence is set, and the link is retrained: the reset whose step 3 contained the port
goes on, else one begins; with presence gone the spoke is Empty (R412, R422). -/
def execContainmentRelease (b : Nat) (s : State) : Host.Outcome State Fault Refusal :=
  onSpoke b s fun s =>
    if (spkOf s b).state = .contained then
      if (spkOf s b).present then
        let s := if (spkOf s b).rcause = 0 then resetBegin s b 6 else spkTo s b .resetting
        if (spkOf s b).state = .resetting then emit (resetEvent s b) (.drive b 0x101 []) else s
      else spkGone s b true
    else s
/-- BUTTON_TIMER_EXPIRY. -/
def execButtonTimerExpiry (b : Nat) (s : State) : Host.Outcome State Fault Refusal :=
  onSpoke b s fun s =>
    let p := spkOf s b
    if !p.pendBtn then s
    else match p.state with
      | .ready => startRemoval s b false
      | .off => spkInsert (setSpk s b { p with pendBtn := false }) b
      | _ => setSpk s b { p with pendBtn := false }
/-- ORDERLY_REMOVAL_PROGRESS. -/
def execOrderlyRemovalProgress (b : Nat) (shst : Bool) (s : State) : Host.Outcome State Fault Refusal :=
  onSpoke b s fun s => removalStep s b shst
/-- SPOKE_CTL_RESET. -/
def execSpokeCtlReset (b : Nat) (s : State) : Host.Outcome State Fault Refusal := onSpoke b s fun s => if authMode s then ctlReset s b else s
/-- SPOKE_CTL_POWER_OFF. -/
def execSpokeCtlPowerOff (b : Nat) (s : State) : Host.Outcome State Fault Refusal := onSpoke b s fun s => if authMode s then ctlPowerOff s b else s
/-- SPOKE_CTL_POWER_ON. -/
def execSpokeCtlPowerOn (b : Nat) (s : State) : Host.Outcome State Fault Refusal := onSpoke b s fun s => if authMode s then ctlPowerOn s b else s
/-- SPOKE_CTL_DISABLE. -/
def execSpokeCtlDisable (b : Nat) (s : State) : Host.Outcome State Fault Refusal := onSpoke b s fun s => if authMode s then ctlDisable s b else s
/-- SPOKE_CTL_ENABLE. -/
def execSpokeCtlEnable (b : Nat) (s : State) : Host.Outcome State Fault Refusal := onSpoke b s fun s => if authMode s then ctlEnable s b else s
/-- SLOT_ATTENTION_WRITE. -/
def execSlotAttentionWrite (b : Nat) (val : Word) (s : State) : Host.Outcome State Fault Refusal :=
  onSpoke b s fun s => slotCtlWrite s b val.toNat
/-- DRIVE_DMA_REQUEST. -/
def execDriveDmaRequest (b addr : Nat) (t : DmaTarget) (s : State) : Host.Outcome State Fault Refusal :=
  onSpoke b s fun s => dmaRequest s b addr t
/-- DRIVE_COMPLETION. -/
def execDriveCompletion (b n hi : Nat) (r : DriveResult) (s : State) : Host.Outcome State Fault Refusal :=
  onSpoke b s fun s => atPoint s 4 b (.drive b n hi r) fun s => driveDone s b n hi r
/-- DRIVE_READY_TIMEOUT: Initializing ends in Unusable with reason 1 (R417); a reset under way is left to its own limit. -/
def execDriveReadyTimeout (b : Nat) (s : State) : Host.Outcome State Fault Refusal :=
  onSpoke b s fun s => if (spkOf s b).state = .initializing && (spkOf s b).bring = 1 then spkUnusable s b 1 else s
/-- ABORT_TIMEOUT (R421): a spoke with no Abort under way has none unanswered. -/
def execAbortTimeout (b : Nat) (s : State) : Host.Outcome State Fault Refusal :=
  onSpoke b s fun s =>
    let waits := (spkOf s b).slots.any fun x => match x.2 with
      | some d => d.timedOut
      | none => false
    if waits then spkReset s b 1 else s
/-- SPOKE_RESET_RDY_TIMEOUT: DPC by software (R422, step 3). -/
def execSpokeResetRdyTimeout (b : Nat) (s : State) : Host.Outcome State Fault Refusal :=
  onSpoke b s fun s => if (spkOf s b).state = .resetting then spkContain s b 3 else s
/-- SPOKE_RESET_LIMIT: a failed reset; the second in a row fails the spoke (R412), else it is reset again. -/
def execSpokeResetLimit (b : Nat) (s : State) : Host.Outcome State Fault Refusal :=
  onSpoke b s fun s =>
    let p := spkOf s b
    if p.state = .resetting then
      if 1 ≤ p.failed then spkFail (setSpk s b { p with failed := 2 }) b 0x0909
      else spkReset (setSpk s b { p with failed := 1 }) b 7
    else s
/-- DRIVE_IDLE_TIMER (R425): the owner sets the deepest state, when no command is outstanding and DRV_IDLE_MS is not 0. -/
def execDriveIdleTimer (b : Nat) (ps : Option Nat) (s : State) : Host.Outcome State Fault Refusal :=
  onSpoke b s fun s =>
    let p := spkOf s b
    match ps with
    | some n => if p.state = .ready && ownsBay s b && slotsUsed p = 0 && drvIdleMs s ≠ 0 then
                  emit (setSpk s b { p with drvPs := n }) (.drive b 0x09 [2, n]) else s
    | none => s
/-- DRIVE_FORMAT. -/
def execDriveFormat (c : Cid) (cdw10 : Nat) (offered : Bool) (s : State) : Host.Outcome State Fault Refusal :=
  .next (formatDrive s c (field cdw10 0 6) offered)
/-- CSTS_RDY_REACHED: the admin queue is created and Identify issued (R417). -/
def execCstsRdyReached (b : Nat) (s : State) : Host.Outcome State Fault Refusal :=
  onSpoke b s fun s => if (spkOf s b).bring = 1 then emit (setSpk s b { spkOf s b with bring := 2 }) (.drive b 0x06 [])
                       else s
/-- CSTS_RDY_CLEARED: the spoke instar is bumped, the slots are reclaimed and the bring-up starts again (R422, steps 4 and 5); a
fence ends here (R451). -/
def execCstsRdyCleared (b : Nat) (s : State) : Host.Outcome State Fault Refusal :=
  onSpoke b s fun s => if (spkOf s b).state = .resetting then
      let s := reclaimSlots (bumpSpoke s b) b
      startBring (resetEvent (setSpk s b { spkOf s b with fenced := false }) b) b
    else s
/-- CSTS_CFS_SET (R417, R421). -/
def execCstsCfsSet (b : Nat) (s : State) : Host.Outcome State Fault Refusal :=
  onSpoke b s fun s => if (spkOf s b).state = .initializing then spkUnusable s b 1 else spkReset s b 2
/-- DRIVE_ADMIN_COMMAND_TIMEOUT (R417, R421). -/
def execDriveAdminCommandTimeout (b : Nat) (s : State) : Host.Outcome State Fault Refusal :=
  onSpoke b s fun s => if (spkOf s b).state = .initializing then spkUnusable s b 2 else spkReset s b 3

end Sys2Proof.Machine
end

