-- ==== Sys2Proof/Machine/Bay.lean ====
section
/-! DEFINITION. Bay power and feed selection (chapter 15): the rows of the channels and the feed selectors. -/

namespace Sys2Proof.Machine

/-- A command about bay `b`. -/
def onBay (b : Nat) (s : State) (f : State → State) : Host.Outcome State Fault Refusal :=
  if b < 64 then .next (f s) else .fault (.noSuchInstance "bay")

/-- A command about feed selector or group `g`. -/
def onGroup (g : Nat) (s : State) (f : State → State) : Host.Outcome State Fault Refusal :=
  if g < 2 then .next (f s) else .fault (.noSuchInstance "group")

/-- Presence has been stable for 100 ms: a Waiting channel ramps (R432, R437); not while the outputs hold after a reset
(R441) nor in Safe. -/
def presenceStable (s : State) (b : Nat) : State :=
  let c := chanOf s b
  if c.state = .waiting && !s.bay.outHold && s.glb.mode ≠ .safe then startRamp s b c else s

/-- The reference reaches the feed voltage: the gate is driven fully on (R432, step 4). -/
def rampEnd (s : State) (b : Nat) : State :=
  let c := chanOf s b
  if c.state = .ramping && !s.bay.outHold then setChan s b { c with gate := driveGate s b .full } else s

/-- A switch of a group's feed has ended: each Ramping channel restarts its ramp from the present VSNS, which is no trip (R440). -/
def rampsAgain (s : State) (g : Nat) : State :=
  (groupBays s g).foldl (fun s b => if (chanOf s b).state = .ramping then startRamp s b (chanOf s b) else s) s

/-- Power good (R432, R435, R437), which needs the reference ended, so the gate fully on: BAY_POWER_GOOD with the peak; on the first retry a transient fault, on a later one
BAY_TRIP_LASTING; the spoke moves from Powering to Training (R412). A trip of the same tick wins (R438). -/
def powerGood (s : State) (b : Nat) (trip : Option Nat) : State :=
  let c := chanOf s b
  let train (s : State) : State := if (spkOf s b).state = .powering then spkTo s b .training else s
  if c.state = .ramping && !s.bay.outHold then
    match trip with
    | some cause => chanTrip s b cause c.iMa
    | none => if c.gate ≠ .full then s else
      let s := setChan s b { c with state := .on, gate := driveGate s b .full,
                                    transients := if c.taken = 1 then satAdd 0xFFFF c.transients 1 else c.transients }
      let s := writeEvent s { num := 0x0A01, inst := b, detail := [b, c.iPeak] }
      let s := if c.taken = 1 then transient s 0x0A b c.lastTrip 0x0A03
               else if 2 ≤ c.taken then writeEvent s { num := 0x0A03, inst := b, detail := [b] } else s
      train s
  else if !drivesBay s b then train s
  else s

/-- The feed a selector is on is good, and no switch is under way (R433, undervoltage). -/
def feedSteady (s : State) (b : Nat) : Bool :=
  match groupOfBay s b with
  | some g => let f := feedOf s g
              !f.settling && (match f.state with
                | .onA => f.aGood
                | .onB => f.bGood
                | _ => false)
  | none => false

/-- The breaker timers of a bay's group are suspended (R440). -/
def breakerOff (s : State) (b : Nat) : Bool :=
  match groupOfBay s b with
  | some g => (feedOf s g).settling
  | none => false

/-- A fast trip (R433); while the outputs hold after a reset it only sinks the gate until the release (R441). -/
def fastTripAt (s : State) (b iMa : Nat) : State :=
  let c := chanOf s b
  if s.bay.outHold then (if c.holding then setChan s b { c with gate := .sink } else s) else chanTrip s b 1 iMa

/-- The cool-down ends (R434 to R437). In Safe no channel is switched on: the retry is not taken, and the channel goes to Off
(R64; DEDUCED, log 60). -/
def coolEnd (s : State) (b : Nat) (stable : Bool) : State :=
  let c := chanOf s b
  let off (s : State) : State := setChan s b { c with state := .off, cancelled := false, offReq := false,
                                                       gate := driveGate s b .sink }
  if c.state ≠ .cooling || s.bay.outHold then s
  else if c.cancelled then
    if c.offReq || !(spkOf s b).present || s.glb.mode = .safe then off s
    else
      let c := { c with cancelled := false, retries := retryCount s, taken := 0 }
      if stable then startRamp s b c else setChan s b { c with state := .waiting }
  else if c.retries = 0 then
    let s := writeEvent (setChan s b { c with state := .latched }) { num := 0x0A04, inst := b, detail := [b] }
    if (spkOf s b).state = .powering then heldPress (spkTo s b .failed) b else s
  else if s.glb.mode = .safe then off s
  else startRamp s b { c with retries := c.retries - 1, taken := c.taken + 1 }

/-- BAY_CTL CLEAR (R434, R437, R446). -/
def bayClearAt (s : State) (b v : Nat) : State :=
  if !authMode s then s else
  let c := chanOf s b
  if !bitAt v 0 then s
  else match c.state with
    | .latched => chanUnlatch s b 1
    | .cooling => setChan s b { c with retries := retryCount s, taken := 0 }
    | _ => s

/-! ### Feeds (R439, R440) -/

/-- A feed becomes good: an Off selector that this controller drives starts on it; a selector on the other, bad, feed switches to it,
and one that is leaving it for a feed turned bad returns. -/
def feedGoodAt (s : State) (g : Nat) (b : Bool) : State :=
  let f := feedOf s g
  let f := if b then { f with bGood := true } else { f with aGood := true }
  let f := { f with bothBad := false }
  let s := setFeed s g f
  match f.state with
  | .off => feedStart s g
  | .onA => if b && !f.aGood then feedSwitchTo s g true 1 else s
  | .onB => if !b && !f.bGood then feedSwitchTo s g false 1 else s
  | .toA => if b && !f.aGood then setFeed s g { f with state := .onB } else s
  | .toB => if !b && !f.bGood then setFeed s g { f with state := .onA } else s

/-- A feed becomes bad: the selector on it switches to the other when that is good, else reports both bad once; a switch to it
returns to the old feed when that is good. -/
def feedBadAt (s : State) (g : Nat) (b : Bool) : State :=
  let f := feedOf s g
  let f := if b then { f with bGood := false } else { f with aGood := false }
  let s := setFeed s g f
  let other := feedIsGood f (!b)
  let both (s : State) : State := if f.bothBad then s else feedBothBad s g f
  match f.state with
  | .onA => if b then s else if other then feedSwitchTo s g true 1 else both s
  | .onB => if !b then s else if other then feedSwitchTo s g false 1 else both s
  | .toA => if !b && other then setFeed s g { f with state := .onB } else s
  | .toB => if b && other then setFeed s g { f with state := .onA } else s
  | .off => if !other && drivesGroup s g && feedEnabled s g then both s else s

/-- BBM_US has passed: the new feed's gate is driven, and FEED_SWITCH carries the old and new feed and the cause. -/
def feedBbm (s : State) (g : Nat) : State :=
  let f := feedOf s g
  let fin (s : State) (n : Nat) : State :=
    writeEvent (rcAdd (rampsAgain s g) 0xB0210 g 1) { num := 0x0A10, inst := g, detail := [1 - n, n, f.cause] }
  match f.state with
  | .toA => fin (setFeed s g { f with state := .onA }) 0
  | .toB => fin (setFeed s g { f with state := .onB }) 1
  | _ => s

/-- The preferred feed has been good for REVERT_S. -/
def feedRevertAt (s : State) (g : Nat) : State :=
  let f := feedOf s g
  let p := feedPrefersB s g
  if feedReverts s g && feedIsGood f p then
    match f.state with
    | .onA => if p then feedSwitchTo s g true 2 else s
    | .onB => if p then s else feedSwitchTo s g false 2
    | _ => s
  else s

/-- A write of FEED_CTL: both bits are ignored; a switch needs the other feed active and the named one good. -/
def feedCtlWrite (s : State) (g v : Nat) : State :=
  if !authMode s then s else
  let f := feedOf s g
  if bitAt v 0 && bitAt v 1 then s
  else if bitAt v 0 then (if f.state == .onB && f.aGood then feedSwitchTo s g false 3 else s)
  else if bitAt v 1 then (if f.state == .onA && f.bGood then feedSwitchTo s g true 3 else s)
  else s

/-- One telemetry sample (R443): last values, peak and minima. -/
def telemetry (s : State) (b iMa vMv peak aMv bMv : Nat) : State :=
  let c := chanOf s b
  let s := setChan s b { c with iMa := iMa % 65536, vMv := vMv % 65536,
                                iPeak := max c.iPeak (max (peak % 65536) (iMa % 65536)), vMin := min c.vMin (vMv % 65536) }
  match groupOfBay s b with
  | none => s
  | some g =>
    let f := feedOf s g
    setFeed s g { f with aMv := aMv % 65536, bMv := bMv % 65536, aMin := min f.aMin (aMv % 65536),
                         bMin := min f.bMin (bMv % 65536) }

/-- Every gate output of the bay die goes high impedance (R441, R528). -/
def gatesOff (s : State) : State :=
  { s with bay := { s.bay with
      chans := s.bay.chans.foldl (fun t x => tput t {} x.1 { x.2 with gate := .hiZ, holding := false }) s.bay.chans,
      feed0 := { s.bay.feed0 with driving := false }, feed1 := { s.bay.feed1 with driving := false } } }

/-- The rails return (R528): a channel that was On is adopted by its VSNS as R442 adopts it, any other resumes Off. -/
def railsBack (s : State) (powered : List Nat) : State :=
  let s := { s with bay := { s.bay with rails := true } }
  let s := s.bay.chans.foldl (fun s x =>
    let c := chanOf s x.1
    match c.state with
    | .on => if powered.contains x.1 then setChan s x.1 { c with gate := driveGate s x.1 .full }
             else setChan s x.1 { c with state := .off, gate := driveGate s x.1 .sink }
    | _ => s) s
  let again (s : State) (g : Nat) : State :=
    let f := feedOf s g
    if f.state = .off then feedStart s g else setFeed s g { f with driving := drivesGroup s g }
  again (again s 0) 1

/-- The bay die reaches its trip temperature (R541): every gate it drives sinks, and every channel of an owned group latches. -/
def bayTrip (s : State) : State :=
  (List.range 64).foldl (fun s b =>
    let c := chanOf s b
    if ownsBay s b && c.state ≠ .disabled then
      writeEvent (setChan s b { c with state := .latched, gate := driveGate s b .sink }) { num := 0x0A04, inst := b, detail := [b] }
    else if drivesBay s b && c.gate ≠ .hiZ then setChan s b { c with gate := .sink }
    else s) s

/-! ### The rows -/

/-- PRESENCE_STABLE. -/
def execPresenceStable (b : Nat) (s : State) : Host.Outcome State Fault Refusal := onBay b s fun s => presenceStable s b
/-- RAMP_END. -/
def execRampEnd (b : Nat) (s : State) : Host.Outcome State Fault Refusal := onBay b s fun s => rampEnd s b
/-- BAY_POWER_GOOD. -/
def execBayPowerGood (b : Nat) (trip : Option Nat) (s : State) : Host.Outcome State Fault Refusal :=
  onBay b s fun s => powerGood s b trip
/-- FAST_TRIP. -/
def execFastTrip (b iMa : Nat) (s : State) : Host.Outcome State Fault Refusal := onBay b s fun s => fastTripAt s b iMa
/-- BREAKER_TRIP. -/
def execBreakerTrip (b iMa : Nat) (s : State) : Host.Outcome State Fault Refusal :=
  onBay b s fun s => if breakerOff s b || s.bay.outHold then s else chanTrip s b 2 iMa
/-- UNDERVOLTAGE_TRIP: only while On, the feed good and no switch under way (R433). -/
def execUndervoltageTrip (b iMa : Nat) (s : State) : Host.Outcome State Fault Refusal :=
  onBay b s fun s => if (chanOf s b).state = .on && feedSteady s b && !s.bay.outHold then chanTrip s b 3 iMa else s
/-- COOL_DOWN_END. -/
def execCoolDownEnd (b : Nat) (stable : Bool) (s : State) : Host.Outcome State Fault Refusal :=
  onBay b s fun s => coolEnd s b stable
/-- RETRY_COUNT_REFRESH (R435). -/
def execRetryCountRefresh (b : Nat) (s : State) : Host.Outcome State Fault Refusal :=
  onBay b s fun s => if (chanOf s b).state = .on then setChan s b { chanOf s b with retries := retryCount s, taken := 0 } else s
/-- BAY_CLEAR. -/
def execBayClear (b : Nat) (val : Word) (s : State) : Host.Outcome State Fault Refusal :=
  onBay b s fun s => bayClearAt s b val.toNat
/-- FEED_GOOD. -/
def execFeedGood (g : Nat) (b : Bool) (s : State) : Host.Outcome State Fault Refusal := onGroup g s fun s => feedGoodAt s g b
/-- FEED_BAD. -/
def execFeedBad (g : Nat) (b : Bool) (s : State) : Host.Outcome State Fault Refusal := onGroup g s fun s => feedBadAt s g b
/-- FEED_BBM_END. -/
def execFeedBbmEnd (g : Nat) (s : State) : Host.Outcome State Fault Refusal := onGroup g s fun s => feedBbm s g
/-- FEED_REVERT. -/
def execFeedRevert (g : Nat) (s : State) : Host.Outcome State Fault Refusal := onGroup g s fun s => feedRevertAt s g
/-- FEED_SWITCH_TO_A. -/
def execFeedSwitchToA (g : Nat) (val : Word) (s : State) : Host.Outcome State Fault Refusal :=
  onGroup g s fun s => feedCtlWrite s g val.toNat
/-- FEED_SWITCH_TO_B. -/
def execFeedSwitchToB (g : Nat) (val : Word) (s : State) : Host.Outcome State Fault Refusal :=
  onGroup g s fun s => feedCtlWrite s g val.toNat
/-- FEED_SWITCH_SETTLE: 2 ms after a switch has ended (R440); one under way keeps the checks suspended. -/
def execFeedSwitchSettle (g : Nat) (s : State) : Host.Outcome State Fault Refusal :=
  onGroup g s fun s =>
    let f := feedOf s g
    if f.state = .toA ∨ f.state = .toB then s else setFeed s g { f with settling := false }
/-- BAY_TELEMETRY_SAMPLE. -/
def execBayTelemetrySample (b iMa vMv peak aMv bMv : Nat) (s : State) : Host.Outcome State Fault Refusal :=
  onBay b s fun s => telemetry s b iMa vMv peak aMv bMv
/-- OUTPUT_HOLD_EXPIRY: the hold after a cold reset or PWRON_L ends (R441). -/
def execOutputHoldExpiry (s : State) : Host.Outcome State Fault Refusal :=
  .next (if s.bay.outHold then { gatesOff s with bay := { (gatesOff s).bay with outHold := false } } else s)
/-- BAY_RAIL_LOSS. -/
def execBayRailLoss (s : State) : Host.Outcome State Fault Refusal :=
  .next { gatesOff s with bay := { (gatesOff s).bay with rails := false } }
/-- BAY_RAIL_RETURN. -/
def execBayRailReturn (powered : List Nat) (s : State) : Host.Outcome State Fault Refusal := .next (railsBack s powered)
/-- BAY_HARDWARE_TRIP. -/
def execBayHardwareTrip (s : State) : Host.Outcome State Fault Refusal := .next (bayTrip s)

end Sys2Proof.Machine
end

