-- ==== Sys2Proof/Machine/Lines.lean ====
section
/-! DEFINITION. Lines of the cocoon: corrections, poison and repair, and the flip mask (chapters 10, 18). -/

namespace Sys2Proof.Machine

/-- The cocoon address of a page's data, or of its record line (R279, R281). -/
def pageAddr (mir : Bool) (p : Nat) (isRec : Bool) : Nat :=
  if isRec then (if mir then 0x1E7900000 else 0x1E4100000) + 64 * p
  else (if mir then 0xE0000000 else 0) + 4096 * p

/-- The partition that COC_POISON carries: 0 own staging, 1 mirror staging, 2 peer windows, 3 the event ring, 4 the reserved area, in
the order of R279 (DESIGN CHOICE, log 19). -/
def partOf (addr : Nat) : Nat :=
  if addr < 0xE0000000 then 0 else if addr < 0x1C0000000 then 1 else if addr < 0x1E0000000 then 2
  else if addr < 0x1E4000000 then 3 else 4

/-- A corrected line is counted; more than CORR_WARN_PER_H within one hour is an event, written once in that hour (R311). -/
def lineCorrected (s : State) : State :=
  let s := rcAdd s 0x80028 0 1
  let hour := s.now / ticksS 3600
  let n := if s.coc.corrHour = hour then s.coc.corrCnt + 1 else 1
  let s := { s with coc := { s.coc with corrHour := hour, corrCnt := n } }
  if n = par s 0x0A 6 2 1000 + 1 then writeEvent s { num := 0x0705, detail := [n] } else s

/-- MEM_FLIP_MASK. -/
def flipMask (s : State) : Nat := rwGet s 0xF8104 0 + 2 ^ 32 * rwGet s 0xF8108 0

/-- What a flip of a mask leaves a line of a target as (R496): none where it changes nothing or its code guarantees no outcome, else whether
the code only detects it. The cocoon's pages bear the strong code. -/
def flipOutcome (s : State) (target mask : Nat) : Option Bool :=
  let bytes := ((List.range 8).filter fun i => decide (0 < mask / 256 ^ i % 256)).length
  let bits := ((List.range 64).filter fun i => bitAt mask i).length
  if decide (16 ≤ target) || (tget s.mem.regions {} target).code == 1 then (if bytes = 0 then none else some (decide (4 < bytes)))
  else if bits = 1 then some false else if bits = 2 then some true else none

/-- The line holds no flip any more. -/
def unflip (s : State) (target addr : Nat) : State :=
  { s with mem := { s.mem with flips := s.mem.flips.filter fun x => !(x.1 == target && x.2.1 == addr) } }

/-- A line is written to a target: an armed flip mask lands on it, ARM clears and the address is recorded (R496). -/
def flipHit (s : State) (target addr : Nat) : State :=
  let s := unflip s target addr
  if s.mem.flipArm && s.mem.flipTarget == target then
    let fs := match flipOutcome s target (flipMask s) with
      | some b => (target, addr, b) :: s.mem.flips
      | none => s.mem.flips
    writeEvent { s with mem := { s.mem with flipArm := false, flipAddr := addr, flips := fs } } { num := 0x0F05, detail := [target, addr] }
  else s

/-- What a read of a line finds: a flipped line is corrected or uncorrectable as its flip fixes (R496), and the read rewrites it; any other line
as the hardware reports. -/
def flipRead (s : State) (target addr : Nat) (x : LineRead) : LineRead × State :=
  match s.mem.flips.find? fun f => f.1 == target && f.2.1 == addr with
  | none => (x, s)
  | some f => (if f.2.2 then .badTwice else if x = .badTwice then x else .corrected, unflip s target addr)

/-- The partner can repair an own page: it is Mirrored or later, counted as held by the partner, and the partner answers (R312). -/
def repairable (s : State) (g : Page) : Bool :=
  partnerAnswers s && !g.unmir && (g.st == .mirrored || g.st == .flushing || g.st == .flushed || g.st == .superseded)

/-- COC_RECORD_LOST of a page, with its namespace where the record is readable. -/
def lostEvent (s : State) (g : Page) (p : Nat) : State :=
  writeEvent s { num := 0x0704, detail := p :: (match g.rc with | some r => if g.unus then [] else [r.ns] | none => []) }

/-- An own page's record is lost: cleared, with the event (R312). -/
def recordLost (s : State) (p : Nat) : State :=
  noteOccupancy (setOwn (lostEvent s (ownPg s p) p) p {})

/-- A lasting uncorrectable line of a page (R312): the owner asks the partner for its copy, else the line is poisoned or the record
lost; for a mirror page the owner is asked to copy it again, and what cannot be read meanwhile is marked. An adopted page has no other copy. -/
def pageFault (s : State) (mir : Bool) (p : Nat) (isRec : Bool) : State :=
  let s := rcAdd s 0x8002C 0 1
  let a := pageAddr mir p isRec
  let s := writeEvent s { num := 0x0706, detail := [a, partOf a] }
  let g := anyPg s mir p
  if g.st = .free then s
  else if mir then
    if g.st = .held then
      let s := setMir s p { g with poison := g.poison || !isRec, unus := g.unus || isRec }
      { s with tdm := { s.tdm with repairs := if s.tdm.repairs.contains p then s.tdm.repairs else s.tdm.repairs ++ [p] } }
    else if isRec then setMir (lostEvent s { g with unus := true } p) p {} else setMir s p { g with poison := true }
  else if repairable s g then
    if s.coc.fetches.contains (p, isRec) then s
    else tdmSend { s with coc := { s.coc with fetches := s.coc.fetches ++ [(p, isRec)] } } (.tandem 12 [p, bit isRec])
  else if isRec then recordLost s p
  else setOwn s p { g with poison := true }

/-- A DRAM region. -/
def regionOf (s : State) (r : Nat) : Region := tget s.mem.regions {} r
/-- Write a DRAM region. -/
def setRegion (s : State) (r : Nat) (x : Region) : State := { s with mem := { s.mem with regions := tput s.mem.regions {} r x } }

/-- A DRAM line uncorrectable at its reread (R492): counted, reported and written with its check bytes inverted. -/
def dramPoison (s : State) (r addr : Nat) : State :=
  let s := count (rcAdd s 0xF800C r 1) 0x0F02 (some r)
  let s := setRegion s r { regionOf s r with poison := addr :: (regionOf s r).poison }
  flipHit (writeEvent s { num := 0x0F02, inst := r, detail := [addr, r] }) r addr

/-- A line of the page is read (R311, R312). -/
def pageLine (s : State) (mir : Bool) (p : Nat) (isRec : Bool) (r : LineRead) : State :=
  match r with
  | .clean => s
  | .corrected => lineCorrected s
  | .badThenGood => transient s 7 p 1 0x0706
  | .badTwice => pageFault s mir p isRec

end Sys2Proof.Machine
end

