-- ==== Sys2Proof/Machine/Steps.lean ====
section
/-! DEFINITION. Steps of the sequencers: control, arithmetic, the interlock, the match tables, completions and events (chapter 09). -/

namespace Sys2Proof.Machine

/-! ### Conditions and ends -/

/-- A condition of R252. -/
def condHolds (s : State) (c : Ctx) (k : Nat) : Bool :=
  match k with
  | 0 => true
  | 1 => c.flg.ok
  | 2 => c.flg.fail
  | 3 => c.flg.hit
  | 4 => c.flg.miss
  | 5 => c.flg.tagFail
  | 6 => c.flg.poison
  | 7 => c.flg.timeout
  | 8 => c.flg.eq
  | 9 => !c.flg.eq
  | 10 => c.flg.lt
  | 11 => match c.cmd with | some h => h.inl | none => false
  | 12 => match nsOf s c.ns with | some r => mirrorOn s r | none => false
  | 13 => match nsOf s c.ns with | some r => r.pi != 0 | none => false
  | 14 => match nsOf s c.ns with | some r => r.fed | none => false
  | _ => false

/-- The command's blocks have become durable: the superseded pages of a write's blocks are freed (R267, R290). -/
def durableNow (s : State) (c : Ctx) : State :=
  match c.cmd with
  | some h => if c.opc = 1 then (blocksOf h.slba (h.nlb + 1)).foldl (fun s b => freeSuperseded s c.ns b) s else s
  | none => s

/-- The list ends (R253, R267). -/
def endAny (s : State) (n : Nat) (c : Ctx) : State :=
  match c.op with
  | some op => finishOp s n c op
  | none => endCtx (if c.committed && !c.durable then durableNow s c else s) n c

/-- A list fault ends a command or an internal operation (R272). -/
def faultAny (s : State) (n : Nat) (c : Ctx) : State :=
  match c.op with
  | some op => finishOp (listFaultEvent s n c) n c op
  | none => listFault s n c

/-- Go to a step of the present list. -/
def jumpTo (c : Ctx) (imm : Nat) : Ctx := { c with step := imm % 4096 }

/-- CALL (R253): the next step is pushed, at most 4 deep. -/
def callList (s : State) (n : Nat) (c : Ctx) (imm : Nat) : State :=
  if 4 ≤ c.stack.length then faultAny s n c
  else setCtx s n (some { c with stack := (c.list, c.step) :: c.stack, list := imm % 512, step := 0 })

/-- RET (R253): an empty stack ends the list. -/
def retList (s : State) (n : Nat) (c : Ctx) : State :=
  match c.stack with
  | [] => endAny s n c
  | (l, st) :: r => setCtx s n (some { c with list := l, step := st, stack := r })

/-- FAIL (R253): a completion with the immediate's status, then as END. -/
def failList (s : State) (n : Nat) (c : Ctx) (imm : Nat) : State :=
  let s := if c.done then s else completeCtx s n c (statusOfWord imm) (bitAt imm 15) 0
  endAny s n { c with done := true }

/-- CPL (R253): the status is the immediate or C15, DW0 is zero or A. A command has one completion. -/
def cplStep (s : State) (n : Nat) (c : Ctx) (w : StepW) : State :=
  let v := if bitAt w.flags 0 then creg c 15 else w.imm
  let c := okHold c
  if c.done then setCtx s n (some c)
  else completeCtx s n c (statusOfWord v) (bitAt v 15) (if bitAt w.flags 1 then creg c w.a % 2 ^ 32 else 0)

/-- The sign extension of a 32-bit immediate to 64 bits. -/
def signExt (imm : Nat) : Nat := if bitAt imm 31 then imm % 2 ^ 32 + (2 ^ 64 - 2 ^ 32) else imm % 2 ^ 32

/-! ### The range interlock (R264 to R267) -/

/-- ILOCK: the entry is taken in admission order, or the step parks. -/
def ilockStep (s : State) (n : Nat) (c : Ctx) (w : StepW) : State :=
  let c := { c with wr := bitAt w.flags 0 }
  if ilockFree s c then setCtx s n (some { c with lock := .taken, flg := flgPark c.flg true false false })
  else parkCtx (rcAdd s 0x7000C 0 1) n c .ilock w.tmo

/-- The step has met the end of an ordering wait (R253). -/
def orderFail (c : Ctx) : Ctx :=
  setReg { c with flg := flgPark c.flg false false true } 15 (statusWord .internalError)

/-- IWAIT: an entry withdrawn by its ILOCK's timeout fails as that wait did (DEDUCED, log 20). -/
def iwaitStep (s : State) (n : Nat) (c : Ctx) (w : StepW) : State :=
  if c.lock = .withdrawn then setCtx s n (some (orderFail c))
  else if c.lock ≠ .taken || iwaitFree s c then setCtx s n (some { c with flg := flgPark c.flg true false false })
  else parkCtx (rcAdd s 0x7000C 0 1) n c .iwait w.tmo

/-- NSFENCE (R267). -/
def nsfenceStep (s : State) (n : Nat) (c : Ctx) (w : StepW) : State :=
  if (fenceLeft s c).isEmpty then setCtx s n (some { c with fence := [], flg := flgPark c.flg true false false })
  else parkCtx s n c .nsfence w.tmo

/-! ### Match tables (R42 to R44, R268) -/

/-- The handle TREF gives: table, key and version (log 21). -/
def handleOf (table key ver : Nat) : Nat := table + 8 * key + 2 ^ 32 * ver

/-- TREF: a key without an entry fails. -/
def trefStep (s : State) (n : Nat) (c : Ctx) (w : StepW) : State :=
  let table := w.imm % 8
  let key := creg c w.a
  if 5 ≤ table || tableKeys table ≤ key then setCtx s n (some (failWith c .internalError))
  else match tableRef s table key with
    | (some v, s) => setCtx s n (some (setReg { (okHold c) with refs := c.refs ++ [(table, key, v)] } w.b (handleOf table key v)))
    | (none, s) => setCtx s n (some (failWith c .internalError))

/-- TDROP: a handle the context does not hold drops nothing. -/
def tdropStep (s : State) (n : Nat) (c : Ctx) (w : StepW) : State :=
  let h := creg c w.a
  let r := (h % 8, h / 8 % 2 ^ 29, h / 2 ^ 32)
  if c.refs.contains r then setCtx (tableDrop s r.1 r.2.1 r.2.2) n (some { c with refs := c.refs.erase r })
  else setCtx s n (some c)

/-! ### Rows -/

def execNop (n : Nat) (w : StepW) (s : State) : Host.Outcome State Fault Refusal := .next (runPlain s n 0x00 w id)

def execEnd (n : Nat) (w : StepW) (s : State) : Host.Outcome State Fault Refusal :=
  .next (runStep s n 0x01 w fun c s => endAny s n c)

def execJmp (n : Nat) (w : StepW) (s : State) : Host.Outcome State Fault Refusal :=
  .next (runPlain s n 0x02 w fun c => jumpTo c w.imm)

def execBr (n : Nat) (w : StepW) (s : State) : Host.Outcome State Fault Refusal :=
  .next (runStep s n 0x03 w fun c s => setCtx s n (some (if condHolds s c w.cond then jumpTo c w.imm else c)))

def execCall (n : Nat) (w : StepW) (s : State) : Host.Outcome State Fault Refusal :=
  .next (runStep s n 0x04 w fun c s => callList s n c w.imm)

def execRet (n : Nat) (w : StepW) (s : State) : Host.Outcome State Fault Refusal :=
  .next (runStep s n 0x05 w fun c s => retList s n c)

def execFail (n : Nat) (w : StepW) (s : State) : Host.Outcome State Fault Refusal :=
  .next (runStep s n 0x06 w fun c s => failList s n c w.imm)

def execWait (n : Nat) (w : StepW) (s : State) : Host.Outcome State Fault Refusal :=
  .next (runStep s n 0x07 w fun c s => parkCtx s n c .timer w.tmo)

def execLdi (n : Nat) (w : StepW) (s : State) : Host.Outcome State Fault Refusal :=
  .next (runPlain s n 0x10 w fun c => setReg c w.a (w.imm % 2 ^ 32))

def execMov (n : Nat) (w : StepW) (s : State) : Host.Outcome State Fault Refusal :=
  .next (runPlain s n 0x11 w fun c => setReg c w.a (creg c w.b))

def execAdd (n : Nat) (w : StepW) (s : State) : Host.Outcome State Fault Refusal :=
  .next (runPlain s n 0x12 w fun c => setReg c w.a (creg c w.a + creg c w.b))

def execAddi (n : Nat) (w : StepW) (s : State) : Host.Outcome State Fault Refusal :=
  .next (runPlain s n 0x13 w fun c => setReg c w.a (creg c w.a + signExt w.imm))

def execSub (n : Nat) (w : StepW) (s : State) : Host.Outcome State Fault Refusal :=
  .next (runPlain s n 0x14 w fun c => setReg c w.a (creg c w.a + (2 ^ 64 - creg c w.b)))

def execAnd (n : Nat) (w : StepW) (s : State) : Host.Outcome State Fault Refusal :=
  .next (runPlain s n 0x15 w fun c => setReg c w.a (creg c w.a &&& creg c w.b))

def execShr (n : Nat) (w : StepW) (s : State) : Host.Outcome State Fault Refusal :=
  .next (runPlain s n 0x16 w fun c => setReg c w.a (creg c w.a >>> (w.imm % 64)))

def execShl (n : Nat) (w : StepW) (s : State) : Host.Outcome State Fault Refusal :=
  .next (runPlain s n 0x17 w fun c => setReg c w.a (creg c w.a <<< (w.imm % 64)))

def execCmp (n : Nat) (w : StepW) (s : State) : Host.Outcome State Fault Refusal :=
  .next (runPlain s n 0x18 w fun c => { c with flg := flgCmp c.flg (creg c w.a) (creg c w.b) })

def execCmpi (n : Nat) (w : StepW) (s : State) : Host.Outcome State Fault Refusal :=
  .next (runPlain s n 0x19 w fun c => { c with flg := flgCmp c.flg (creg c w.a) (w.imm % 2 ^ 32) })

def execMark (n : Nat) (w : StepW) (s : State) : Host.Outcome State Fault Refusal :=
  .next (runStep s n 0x1A w fun c s => setCtx s n (some (setReg c w.a s.now)))


def execIwait (n : Nat) (w : StepW) (s : State) : Host.Outcome State Fault Refusal :=
  .next (runStep s n 0x21 w fun c s => iwaitStep s n c w)

def execIrel (n : Nat) (w : StepW) (s : State) : Host.Outcome State Fault Refusal := .next (runPlain s n 0x22 w irel)

def execNsfence (n : Nat) (w : StepW) (s : State) : Host.Outcome State Fault Refusal :=
  .next (runStep s n 0x23 w fun c s => nsfenceStep s n c w)

def execTref (n : Nat) (w : StepW) (s : State) : Host.Outcome State Fault Refusal :=
  .next (runStep s n 0x24 w fun c s => trefStep s n c w)

def execTdrop (n : Nat) (w : StepW) (s : State) : Host.Outcome State Fault Refusal :=
  .next (runStep s n 0x25 w fun c s => tdropStep s n c w)

def execCpl (n : Nat) (w : StepW) (s : State) : Host.Outcome State Fault Refusal :=
  .next (runStep s n 0x42 w fun c s => cplStep s n c w)

def execCount (n : Nat) (w : StepW) (skid : Nat) (parked : Bool) (s : State) : Host.Outcome State Fault Refusal :=
  .next (runStep s n 0x70 w fun c s =>
    setCtx (countStep s c n (w.imm % 65536) (skid % 4) parked (c.step - 1 + (if skid % 4 = 0 then 1 else skid % 4))) n (some c))

def execEvent (n : Nat) (w : StepW) (s : State) : Host.Outcome State Fault Refusal :=
  .next (runStep s n 0x71 w fun c s =>
    setCtx (writeEvent s { num := w.imm % 65536, vss := if c.vss = 0 then 0xFFFF else c.vss,
                           detail := [creg c w.a, creg c w.b] }) n (some (okHold c)))

end Sys2Proof.Machine
end

