-- ==== Sys2Proof/Machine/Pairing.lean ====
section
/-! DEFINITION. The pairing state of the groups, the re-mirror and the ends of echo waits (chapters 10, 16). -/

namespace Sys2Proof.Machine

/-! ### Pairing (R459) -/

/-- PAIR of GBL_MODE: Degraded while any owned group is, Paired while the link is up and none is, else Solo. -/
def devicePair (s : State) : Pair :=
  if (s.tdm.grp0.owned && s.tdm.grp0.pair == .degraded) || (s.tdm.grp1.owned && s.tdm.grp1.pair == .degraded) then .degraded
  else if s.tdm.linkUp then .paired
  else .solo

/-- PAIR follows the groups, and vector 1 and the ANA states follow it (R72, R199, R481). -/
def notePair (s : State) : State :=
  noteAna (noteMode s { s with glb := { s.glb with pair := devicePair s } })

/-- The code of a pairing state (R473). -/
def pairCode (p : Pair) : Nat :=
  match p with
  | .solo => 0 | .paired => 1 | .degraded => 2

/-- A group takes a pairing state: every change writes TDM_PAIR_STATE. -/
def setPair (s : State) (g : Nat) (p : Pair) : State :=
  let x := grpOf s g
  if x.pair = p then s
  else notePair (writeEvent (setGrp s g { x with pair := p }) { num := 0x0B03, inst := g, detail := [g, pairCode x.pair, pairCode p] })

/-! ### The re-mirror (R296) -/

/-- The pages of a re-mirror whose echo is awaited. -/
def remirLeft (s : State) (g : Nat) : List Nat := if g = 0 then s.coc.remir0 else s.coc.remir1

/-- Write them, with the number of pages copied. -/
def setRemir (s : State) (g : Nat) (ps : List Nat) (n : Nat) : State :=
  if g = 0 then { s with coc := { s.coc with remir0 := ps, remirCnt0 := n } }
  else { s with coc := { s.coc with remir1 := ps, remirCnt1 := n } }

/-- Pages a re-mirror of the group has copied. -/
def remirCount (s : State) (g : Nat) : Nat := if g = 0 then s.coc.remirCnt0 else s.coc.remirCnt1

/-- The re-mirror of a group stops: its pins go. -/
def remirrorAbort (s : State) (g : Nat) : State :=
  let s := (remirLeft s g).foldl (fun s p => unpinPage s false p) s
  let s := setRemir s g [] 0
  setGrp s g { grpOf s g with remirror := false }

/-- The re-mirror of a group ends: the group becomes Paired (R459). -/
def remirrorEnd (s : State) (g : Nat) : State :=
  let n := remirCount s g
  let s := setRemir (setGrp s g { grpOf s g with remirror := false }) g [] 0
  let s := writeEvent s { num := 0x070A, inst := g, detail := [g, n] }
  if (grpOf s g).pair = .degraded then setPair s g .paired else s

/-- The own pages a re-mirror of a group copies. -/
def remirPages (s : State) (g : Nat) : List Nat :=
  s.coc.own.filterMap fun x => match x.2.rc with
    | some r => if r.group == g && !x.2.orphan && !x.2.unus
                  && (x.2.st == .committed || x.2.st == .mirrored || x.2.st == .flushing || x.2.st == .flushed)
                then some x.1 else none
    | none => none

/-- One page goes to the partner: its lines, then its record. -/
def copyPage (s : State) (p : Nat) : State :=
  tdmSend (tdmSend s (.tandem 1 [p])) (.tandem 2 [p, match (ownPg s p).rc with | some r => r.seq | none => 0])

/-- Start the re-mirror of a group: the mirror reset, then every page with a pin. -/
def remirrorStart (s : State) (g : Nat) : State :=
  let s := remirrorAbort s g
  let s := tdmSend (setGrp s g { grpOf s g with remirror := true }) (.tandem 3 [g])
  let ps := remirPages s g
  let s := ps.foldl (fun s p => copyPage (pinPage s false p) p) s
  let s := setRemir s g ps ps.length
  if ps.isEmpty then remirrorEnd s g else s

/-- A group becomes Degraded, and its re-mirror starts (R459). -/
def degrade (s : State) (g : Nat) : State := remirrorStart (setPair s g .degraded) g

/-- An echo timeout, or a multicast failure to the link, on a page of a group (R26, R459). -/
def pairLost (s : State) (g page : Nat) : State :=
  if (grpOf s g).pair = .paired then degrade (writeEvent s { num := 0x0B04, inst := g, detail := [g, page] }) g else s

/-- The echo of a page that the re-mirror copied has not come: TDM_REMIRROR_FAIL, and a new start after 1 s (R459). -/
def remirrorFail (s : State) (g : Nat) : State :=
  if (grpOf s g).remirror then
    writeEvent (remirrorAbort (rcAdd s 0xC002C 0 1) g) { num := 0x0B0D, inst := g, detail := [g] }
  else s

/-! ### Echo waits (R25, R26, R458) -/

/-- The echo wait of a context ends without its echoes: the pages count as unmirrored, and the command goes on with OK and TIMEOUT
set, durable on local commit (R26, R295). -/
def echoEnd (s : State) (n : Nat) (c : Ctx) : State :=
  let s := noEcho s c
  let c := { c with echo := [], durable := c.committed, flg := flgPark c.flg true false true }
  arrive (rcAdd (if c.durable then durableNow s c else s) 0x70014 0 1) n c 4

/-- The group of a context's namespace. -/
def ctxGroup (s : State) (c : Ctx) : Nat :=
  match nsOf s c.ns with
  | some r => r.group
  | none => 0

/-- The echo timeout of a context (R26): its wait ends, the group becomes Degraded. -/
def echoTimeout (s : State) (n : Nat) : State :=
  match ctxOf s n with
  | none => staleArrival s
  | some c =>
    if waitOf c = some .echo then
      let g := ctxGroup s c
      pairLost (echoEnd (rcAdd s 0xC002C 0 1) n c) g (c.echo.headD 0)
    else staleArrival s

/-- Every echo wait ends, as at its timeout (R459). -/
def echoEndAll (s : State) : State :=
  (ctxFilter s fun c => waitOf c == some .echo).foldl (fun s x => echoEnd s x.1 x.2) s

/-- The tandem link goes down (R305, R381, R456, R459): no record waits for it any more, echo waits end, queued releases are dropped, both groups are Solo, and the standing
copies are no longer current. Causes, in the order of R456: 1 no valid flit, 2 a retrain, 3 cadence frames missed, 4 PEER_ALIVE,
5 Safe (the model's labels; the numbers are open, log 22). -/
def linkDown (s : State) (cause : Nat) : State :=
  if !s.tdm.linkUp then s
  else
    let s := { s with tdm := { s.tdm with linkUp := false, compared := false, missed := 0, replays := 0, txOut := 0, releases := [],
                                          grp0 := { s.tdm.grp0 with standing := false },
                                          grp1 := { s.tdm.grp1 with standing := false } } }
    let s := writeEvent s { num := 0x0B02, detail := [Config.code 0x0B02 cause] }
    notePair (setPair (remirrorAbort (setPair (remirrorAbort (echoEndAll (mcastTandem s)) 0) 0 .solo) 1) 1 .solo)

/-- A page has been echoed: a context that waits for no other page is durable and ready (R25, R267). -/
def echoCtx (p : Nat) (s : State) (x : Nat × Ctx) : State :=
  let c := { x.2 with echo := x.2.echo.filter (· != p) }
  if c.echo.isEmpty && waitOf c == some .echo then
    let c := { c with durable := c.committed, flg := flgPark c.flg true false false }
    arrive (if c.durable then durableNow s c else s) x.1 c 4
  else setCtx s x.1 (some c)

/-- An echo arrives (R290, R293, R458): under the SEQ the page still carries it makes the page Mirrored and wakes its command; an echo
of a copied page counts for the re-mirror. An echo of another SEQ is discarded, and so is one that comes after its wait has ended. -/
def echoArrive (s : State) (p seq ns : Nat) : State :=
  let s := count s 0x0B02
  let g := ownPg s p
  match g.rc with
  | none => s
  | some r =>
    if g.st = .free || g.st = .staged || r.seq ≠ seq then s
    else if g.late && !(remirLeft s r.group).contains p then staleArrival s
    else
      let s := rcMax s 0xC0034 0 (min ns 0xFFFF)
      let s := setOwn s p { g with unmir := false, late := false, st := if g.st = .committed then .mirrored else g.st,
                                   prior := if g.st = .flushing then .mirrored else g.prior }
      let s := (ctxFilter s fun c => c.echo.contains p).foldl (echoCtx p) s
      if (remirLeft s r.group).contains p then
        let left := (remirLeft s r.group).filter (· != p)
        let s := unpinPage (setRemir s r.group left (remirCount s r.group)) false p
        if left.isEmpty then remirrorEnd s r.group else s
      else s

end Sys2Proof.Machine
end

