-- ==== Sys2Proof/Machine/Own.lean ====
section
/-! DEFINITION. Ownership of the drive groups: releasing and acquiring a line, loading the maps, take-over (chapters 02, 16). -/

namespace Sys2Proof.Machine

/-! ### Parameters and conditions -/

/-- PREFERg of section 0x0010: the side that prefers a group is this one (R470). -/
def preferred (s : State) (g : Nat) : Bool := bitAt (par s 0x10 8 1 2) g == s.glb.straps.tdmSide

/-- R452 holds for a group, but for the time its line has stayed Released. The ROM firmware never acquires a group (R84). -/
def mayAcquire (s : State) (g : Nat) : Bool :=
  let x := grpOf s g
  (s.glb.mode == .standby || s.glb.mode == .active) && !s.cfg.romFw && s.coc.formatted && s.coc.scanned && !brSealed s && groupHasBay s g
    && !x.barred && !x.collided && (x.seen || preferred s g || x.claimed)

/-- The mirror pages held for a group. -/
def heldPages (s : State) (g : Nat) : List Nat :=
  s.coc.mir.filterMap fun x => match x.2.rc with
    | some r => if r.group == g && x.2.st == .held then some x.1 else none
    | none => none

/-! ### Fences and orphans (R307, R451) -/

/-- Fence every spoke of a group, or lift the fence. -/
def setFence (s : State) (g : Nat) (f : Bool) : State :=
  (groupBays s g).foldl (fun s b => setSpk s b { spkOf s b with fenced := f }) s

/-- Each fenced spoke of a group is reset once the partner holds the line (R451); one that has no drive to reset is only freed. -/
def fencedReset (s : State) (g : Nat) : State :=
  (groupBays s g).foldl (fun s b =>
    let p := spkOf s b
    if !p.fenced then s
    else if p.state = .ready || p.state = .resetting then spkReset s b 8
    else setSpk s b { p with fenced := false }) s

/-- The own pages of a group become orphans, or cease to be (R307). -/
def setOrphans (s : State) (g : Nat) (o : Bool) : State :=
  s.coc.own.foldl (fun s x => match x.2.rc with
    | some r => if r.group = g && x.2.st != .staged && !x.2.unus then setOwn s x.1 { ownPg s x.1 with orphan := o } else s
    | none => s) s

/-- Orphans of a group are held. -/
def hasOrphans (s : State) (g : Nat) : Bool :=
  s.coc.own.any fun x => x.2.orphan && (match x.2.rc with | some r => r.group == g | none => false)

/-! ### Release (R451, R459, R467) -/

/-- No group is owned any more: Active returns to Standby (R47). -/
def noteOwned (s : State) : State :=
  if s.glb.mode = .active && !s.tdm.grp0.owned && !s.tdm.grp1.owned then { s with glb := { s.glb with mode := .standby } } else s

/-- The work on a group's stripes ends with its ownership. -/
def dropGroupWork (s : State) (g : Nat) : State :=
  let gone := s.xfm.creates.filter fun k => k.rec_.group == g
  let s := gone.foldl (fun s k => reply (dropChunks s k.rec_) k.who (.vendor 0xEA))
    { s with xfm := { s.xfm with creates := s.xfm.creates.filter fun k => k.rec_.group != g } }
  let s := setRb s g {}
  { s with xfm := { s.xfm with rbWait := s.xfm.rbWait.filter fun x => groupOfBay s x.1 ≠ some g },
           fed := { s.fed with areaOk := if bitAt s.fed.areaOk g then s.fed.areaOk - 2 ^ g else s.fed.areaOk, rebuilds := s.fed.rebuilds.filter fun r => match placeEnt s r.1 with
             | some v => v.cur.group != g
             | none => false } }

/-- The map entries of a group, in force. -/
def groupEntries (s : State) (g : Nat) : List (Nat × MapEnt) := (mapEntries s).filter fun x => x.2.group == g

/-- A group that is no longer owned leaves its entries behind as the standing copy (R463), current while the link is up; an adopted
page is a held mirror page again. -/
def leaveGroup (s : State) (g : Nat) : State :=
  let es := groupEntries s g
  let s := setGrp s g { grpOf s g with standing := s.tdm.linkUp, standingMap := es.foldl (fun t x => tput t {} x.1 x.2) [] }
  s.coc.mir.foldl (fun s x => match x.2.rc with
    | some r => if r.group = g && x.2.st = .adopted then setMir s x.1 { mirPg s x.1 with st := .held } else s
    | none => s) s

/-- Release a group's line: the spokes are fenced, the outputs held, admission ends and the pairing state follows (R451, R459, R467).
Causes, in the order of R451: 1 the heartbeat lapsed, 2 power failure, 3 Safe or a reset, 4 the end of a drain, 5 Release Group
(the model's labels; the numbers are open, log 22). -/
def releaseGroup (s : State) (g cause : Nat) : State :=
  let x := grpOf s g
  if !x.owned then setGrp s g { x with line := if x.line = .acquiring then .released else x.line, taking := false, clean := 0 }
  else
    let s0 := s
    let s := remirrorAbort s g
    let s := setGrp s g { grpOf s g with
      line := .released, owned := false, open_ := false, hold := true, taking := false,
      releasing := none, await := [], barred := cause == 4 || cause == 5, clean := 0, periods := 0 }
    let s := dropGroupWork (leaveGroup (setFence s g true) g) g
    let s := emit (writeEvent s { num := 0x0B09, inst := g, detail := [g, Config.code 0x0B09 cause] }) (.line g 1)
    notePair (setPair (noteMode s0 (noteOwned s)) g (if s.tdm.linkUp then .paired else .solo))

/-- Release both groups. -/
def releaseBoth (s : State) (cause : Nat) : State := releaseGroup (releaseGroup s 0 cause) 1 cause

/-! ### The map load (R326, R354, R463) -/

/-- The entries of the other controller reach this controller's picture of the drives. -/
def noteArea (s : State) (a : AreaRead) : State :=
  let s := a.map.foldl (fun s x => setArea s x.1 x.2) s
  { s with fed := { s.fed with area := a.place.foldl (fun t x => tput t {} x.1 x.2) s.fed.area } }

/-- A chunk-map slot takes an entry that was loaded. -/
def loadEntry (s : State) (x : Nat × MapEnt) : State :=
  setMap s x.1 (if x.2.valid then some (vPut (mapEnt s x.1) x.2) else (mapEnt s x.1).bind fun v => vClear v {})

/-- The extents of the group's chunks already occupy the placement area of a bay (R354). -/
def areaConflict (s : State) (g : Nat) : Bool :=
  (groupEntries s g).any fun x => !x.2.fed && x.2.mem.any fun m => decide (m.start < 512)

/-- Replay the journal of a group's map or placement area (R326, R354). -/
def replay (s : State) (g : Nat) (r : JRec) : State :=
  match r.val with
  | .map e x => if x.group = g then setArea (loadEntry s (e, x)) e x else s
  | .place k x => if x.group = g then
      { s with fed := { s.fed with area := if x.valid then tput s.fed.area {} k x else tdel s.fed.area k } } else s
  | .member _ _ => s

/-- A journal record concerns the map of a group. -/
def jOfMap (g : Nat) (r : JRec) : Bool :=
  match r.val with
  | .map _ x => x.group == g
  | .place _ _ | .member _ _ => false

/-- Load a group's placement entries; a conflict leaves the group without them (R354). -/
def loadPlace (s : State) (g : Nat) : State :=
  if (sectionOf s.cfg 0x0C).isNone then s
  else if areaConflict s g then writeEvent s { num := 0x0825, inst := g, detail := [g] }
  else
    let s := s.fed.area.foldl (fun s x => if x.2.group = g then putPlace s x.1 x.2 else s) s
    { s with fed := { s.fed with areaOk := s.fed.areaOk ||| 2 ^ g } }

/-- The standing copy of a group is current: whole, the link up, and the partner's catalog generation this side's (R463). -/
def standingNow (s : State) (g : Nat) : Bool := (grpOf s g).standing && s.tdm.linkUp && s.tdm.frame.catGen == s.cat.gen

/-- The entry belongs to a namespace of the catalog; any other is ignored at a load (R325). -/
def mapNamed (s : State) (e : Nat) (x : MapEnt) : Bool :=
  match nsOf s x.ns with
  | some r => r.group == x.group && decide (r.first ≤ e) && decide (e < r.first + r.chunks)
  | none => false

/-- The chunks of a group's namespaces that have no entry after a load: each is UNREADABLE (R318). -/
def lostChunks (s : State) (g : Nat) : State :=
  s.cat.ns.foldl (fun s n => match n.2 with
    | some r => if r.group ≠ g then s else (nsChunks r).foldl (fun s e =>
        if (chunkEnt s e).isSome then s else writeEvent s { num := 0x080A, detail := [e] }) s
    | none => s) s

/-- Load a group's map: a standing copy that was current (at a take-over, when the release was seen) or the drives, then the journal
(R326, R463, R464). -/
def loadMap (s : State) (g : Nat) (a : AreaRead) : State :=
  let x := grpOf s g
  let cur := if x.taking then !x.fromDrives else standingNow s g
  let s := setGrp s g { x with fromDrives := !cur }
  let s := noteArea s a
  let base := if cur then x.standingMap else s.xfm.area.filter fun e => e.2.group == g
  let s := (groupEntries s g).foldl (fun s e => setMap s e.1 ((mapEnt s e.1).bind fun v => vClear v {})) s
  let s := base.foldl (fun s e => if e.2.group = g && (!e.2.valid || mapNamed s e.1 e.2) then loadEntry s e else s) s
  let js := s.cat.journal.filter (jOfMap g)
  let s := s.cat.journal.foldl (fun s r => replay s g r) s
  let s := writeEvent s { num := 0x080B, inst := g, detail := [g, js.length] }
  lostChunks (loadPlace (setGrp s g { grpOf s g with mapDone := true }) g) g

/-! ### Acquisition (R442, R452 to R454, R464, R548) -/

/-- The own records that the scan could not use: fetched from the partner while it answers, else lost (R548). -/
def unusableRecords (s : State) : State :=
  s.coc.own.foldl (fun s x =>
    if !x.2.unus || s.coc.fetches.contains (x.1, true) then s
    else if partnerAnswers s then
      tdmSend { s with coc := { s.coc with fetches := s.coc.fetches ++ [(x.1, true)] } } (.tandem 12 [x.1, 1])
    else recordLost s x.1) s

/-- The insertions that waited for the outputs of the group. -/
def startBays (s : State) (g : Nat) : State :=
  (groupBays s g).foldl (fun s b =>
    if (spkOf s b).state = .powering && (chanOf s b).state = .off then chanInsert s b else s) s

/-- The outputs of a group that is acquired: driven on when they were held, else adopted (R442, R467). -/
def takeOutputs (s : State) (g : Nat) (held : Bool) (powered : List Nat) (feedB : Option Bool) : State :=
  if held then s else startBays (adoptOutputs s g powered feedB) g

/-- The admission of a group opens once its bays, map and pages are taken (R464, step 5). -/
def openGroup (s : State) (g : Nat) : State :=
  let x := grpOf s g
  if x.owned && x.bayDone && x.mapDone && x.pagesDone && !x.open_ then
    let s := setGrp s g { x with open_ := true, taking := false }
    if x.taking then
      let gap := min (2 ^ 24 - 1) ((s.now - x.takeAt) / 100)
      let s := { s with tdm := { s.tdm with lastGroup := g, lastFromDrives := x.fromDrives, gapUs := gap } }
      let s := writeEvent s { num := 0x0B06, inst := g, detail := [g, gap, bit x.fromDrives] }
      let s := if x.await.isEmpty then (if partnerAnswers s then tdmSend s (.tandem 11 [g]) else s)
               else writeEvent s { num := 0x0B0A, inst := g, detail := [g, x.await.length] }
      noteAna s
    else noteAna s
  else s

/-- The namespaces of a group in the partner's last unmirrored list (R465). -/
def unmirroredOf (s : State) (g : Nat) : List Nat :=
  (s.tdm.frame.unmirrored.filter fun x => x / 65536 == g).map (· % 65536)

/-- A sanitize or format whose chunks of the group are not all erased goes on from its checkpoint (R243): CFE_ERASE_RESUMED. -/
def resumeErase (s : State) (g : Nat) : State :=
  s.cat.ns.foldl (fun s x => match x.2 with
    | some r =>
      let v := vssOf s r.vss
      if r.group ≠ g then s
      else if r.fmt && r.fmtKeys then writeEvent s { num := 0x0518, inst := x.1, vss := r.vss, detail := [r.fmtDone] }
      else match v with
        | some y => if (y.state = .sanitizing || (y.state = .resetting && y.prior = .sanitizing)) && y.sanKeys && r.erased < r.chunks then
            writeEvent s { num := 0x0518, inst := x.1, vss := r.vss, detail := [r.erased] } else s
        | none => s
    | none => s) s

/-- The admission counters of a group's namespaces start at 0 as the group is acquired (R262). -/
def resetAdm (s : State) (g : Nat) : State :=
  { s with seq := { s.seq with adm := s.seq.adm.filter fun x => match nsOf s x.1 with
    | some r => r.group != g
    | none => true } }

/-- The line is held by this controller: its outputs, map and pages are taken, and the mode follows (R47, R454, R464). -/
def acquireGroup (s : State) (g : Nat) (powered : List Nat) (feedB : Option Bool) (a : AreaRead) : State :=
  let s0 := s
  let x := grpOf s g
  let held := heldPages s g
  let s := setGrp s g { x with
    line := if unpaired s then .released else .mine, owned := true, hold := false, seen := true, claimed := false, clean := 0,
    periods := 0, fedAt := s.now, bayDone := true, mapDone := false, pagesDone := held.isEmpty && !x.fromPartner, open_ := false,
    await := if x.fromPartner then unmirroredOf s g else [] }
  let s := setOrphans (setFence s g false) g false
  let s := loadMap (takeOutputs s g x.hold powered feedB) g a
  let s := resumeRebuilds (resetAdm (resumeErase (unusableRecords s) g) g) g
  let s := if s.glb.step9 && s.glb.stageLate then cured s 9 9 else s
  let s := noteMode s0 { s with glb := { s.glb with mode := if s.glb.mode = .standby then .active else s.glb.mode, bootStep := 9,
                                                    step9 := false, stageLate := false } }
  let s := if (grpOf s g).pair = .paired then degrade s g else notePair s
  openGroup s g

/-- An unpaired controller takes every group that has a bay, with no quiet time (R469). -/
def claimUnpaired (s : State) : State :=
  if !unpaired s then s
  else [0, 1].foldl (fun s g =>
    if mayAcquire { s with tdm := { s.tdm with grp0 := { s.tdm.grp0 with seen := true }, grp1 := { s.tdm.grp1 with seen := true } } } g
        && !(grpOf s g).owned then
      acquireGroup s g ((groupBays s g).filter fun b => (chanOf s b).state == .on) (feedPrefersB s g) {} else s) s

end Sys2Proof.Machine
end

