-- ==== Sys2Proof/Machine/ModeOps.lean ====
section
/-! DEFINITION. Resets, Safe and power failure: the operations that end whatever the controller was doing (chapter 02). -/

namespace Sys2Proof.Machine

/-! ### What a reset keeps (R53) -/

/-- A cocoon partition after a reset: the records, and the lines they belong to; a page without a record is Free (R285, R290). -/
def keptPages (t : Tbl Page) (st : PgState) : Tbl Page :=
  t.filterMap fun x => match x.2.rc with
    | some r => if x.2.st == .staged then none else some (x.1, { st := st, rc := some r, blk := x.2.blk, poison := x.2.poison })
    | none => none

/-- A bay channel after a cold reset or PWRON_L: its output holds its value, and no state machine runs (R441). -/
def heldChannel (c : Channel) : Channel := { gate := c.gate, holding := c.gate != .hiZ }

/-- The bay die after a cold reset or PWRON_L. -/
def coldBay (b : Bay) : Bay :=
  { chans := b.chans.filterMap fun x => if x.2.gate = .hiZ then none else some (x.1, heldChannel x.2)
    feed0 := { driving := b.feed0.driving }, feed1 := { driving := b.feed1.driving }, rails := b.rails, outHold := true }

/-- A group after a warm reset: its line is released and its outputs are held (R467). -/
def warmGrp (g : Grp) : Grp := { hold := g.owned || g.hold }

/-- The seconds this Boot has added to the odometer that the header does not hold yet: what a reset carries on (R53, R503). -/
def odoCarried (s : State) : Nat := if s.coc.up && s.coc.formatted then s.evr.odo - s.coc.hdrOdo else 0

/-- Every field after a reset of the whole package, or of the logic die (`warm`), in mode `mode` (R52, R53). Three points that the spec
leaves open are settled here (DESIGN CHOICE, log 61): a reset that the watchdog did not cause ends the watchdog's history of R58
(`wdOnce`); the straps keep the sample of the last release of PWRON_L, R538 saying that the pins do not change before the next, so that the
new sample of an internal cold reset (R53, R78) is the same; and an Enroll burn is broken off by every reset, as by a power loss (R115). -/
def resetLogic (s : State) (warm : Bool) (mode : Mode) (cause : Nat) : State :=
  { pending := s.pending, out := s.out, freeCtr := s.freeCtr,
    glb := { mode := mode, resetCause := cause, bootStep := if mode = .held then 1 else 2, straps := s.glb.straps,
             pwronL := s.glb.pwronL, pwrfail := s.glb.pwrfail, refclkLost := s.glb.refclkLost,
             clkLock := if mode = .held then 0 else 15,
             wdOnce := cause == 4 && mode != .held, fwPoison := warm && s.glb.fwPoison },
    nor := { flash := s.nor.flash },
    trs := { owner := burnLost s.trs, svnBank := s.trs.svnBank, fieldLock := s.trs.fieldLock, region := s.trs.region,
             meas := [if mode = .held then 0 else Config.romDigest, 0, 0, 0, 0, 0, 0, 0] },
    rdt := { boot := s.rdt.boot + bit (mode != .held) },
    cfe := { sealed_ := s.cfe.sealed_ },
    cat := s.cat,
    coc := { formatted := s.coc.formatted, hdrOdo := s.coc.hdrOdo, hdrCycles := s.coc.hdrCycles, formats := s.coc.formats,
             fmtOdo := s.coc.fmtOdo, hdrA := s.coc.hdrA, hdrB := s.coc.hdrB, own := keptPages s.coc.own .committed,
             mir := keptPages s.coc.mir .held, ctrs := s.coc.ctrs, poison := s.coc.poison },
    xfm := { area := s.xfm.area, jseq := s.xfm.jseq },
    fed := { area := s.fed.area },
    spk := { bayIds := s.spk.bayIds },
    bay := if warm then s.bay else coldBay s.bay,
    tdm := { peerAlive := s.tdm.peerAlive, grp0 := if warm then warmGrp s.tdm.grp0 else {},
             grp1 := if warm then warmGrp s.tdm.grp1 else {} },
    svc := { perst := s.svc.perst },
    evr := { ring := s.evr.ring, odo := odoCarried s } }

/-- Boot begins: a fresh authorization nonce (R114). -/
def bootBegin (s : State) : State := newNonce s

/-! ### Step 1 of start-up (R56, R57) -/

/-- Step 1 after a reset has released the lines (R47, R52, R56, R57): the controller leaves Held for Boot once every PLL has locked, at the
first try or after the one PLL reset; else it stays in Held. -/
def startUp (s : State) (warm : Bool) (cause : Nat) (m : Moment) : State :=
  if m.lock1 ||| m.lock2 = 31 then
    let s := bootBegin (resetLogic s warm .boot cause)
    if m.lock1 = 31 then s else cured s 1 1
  else resetLogic s warm .held cause

/-! ### Staging sessions (R102) -/

/-- Erase a slot. -/
def eraseSlot (m : List Host.Cell) (k : Nat) : List Host.Cell := m.filter fun x => x.1 / 2 ^ 26 != k

/-- The slot that is not running (R101). In Safe with no image verified in this Boot, no image runs and the spec names no slot: it is the
other slot than the one `GBL_BOOT_STATUS` SLOT shows, slot B from reset on (DESIGN CHOICE, log 62). -/
def otherSlot (s : State) : Nat := 1 - s.glb.bootSlot

/-- An open session closes without a commit: its slot is left erased, and CFG_STAGING_ABANDONED is written (R102). -/
def abandonSession (s : State) : State :=
  if s.nor.session.isNone then s
  else writeEvent { s with nor := { s.nor with session := none, flash := eraseSlot s.nor.flash (otherSlot s) } } { num := 0x0D62 }

/-- An internal cold reset or a warm reset: an open staging session is abandoned (R102), the lines are released, the scope of the reset
applies, and start-up begins with step 1 (R47, R53, R71). -/
def internalReset (s : State) (warm : Bool) (cause : Nat) (m : Moment) : State :=
  startUp (releaseBoth (abandonSession s) 3) warm cause m

/-- PWRON_L, or a trip of the logic die: an open staging session is abandoned, the lines are released and all logic stops in Held (R47, R102,
R541). -/
def toHeld (s : State) : State := resetLogic (releaseBoth (abandonSession s) 3) false .held 0

/-! ### Safe (R64, R65) -/

/-- The Ethernet data ports are held link-down, their queues with them (R64). -/
def portsDown (s : State) : State :=
  let s := s.swc.eg.foldl (fun s x => x.2.foldl dropTx s) s
  let s := s.prt.subs.foldl (fun s x => if x.2.up then writeEvent s { num := 0x0102, inst := x.1, detail := [x.1 / 4, x.1 % 4] } else s) s
  { s with prt := { s.prt with subs := s.prt.subs.filterMap fun x =>
             let p := { x.2 with up := false, training := false, fails := 0, paused := [], storm := [], pauseRep := false }
             if p = {} then none else some (x.1, p) },
           swc := { s.swc with eg := [], ing := [] } }

/-- Enter Safe (R47, R64, R65): the lines are released, the links held down, the cause recorded with its event. Leaving Boot sets the boot
lock (R7). -/
def enterSafe (s : State) (cause detail : Nat) : State :=
  let s0 := s
  let s := releaseBoth s 3
  let s := { s with glb := { s.glb with mode := .safe, drainReason := .none, safeCause := cause, safeDetail := detail, bootLock := true,
                                        step9 := false, stageLate := false } }
  let s := linkDown s 5
  let s := (List.range 64).foldl (fun s b => spkContain s b 0) (portsDown s)
  let s := { s with glb := { s.glb with pair := .solo } }
  noteAna (noteMode s0 (writeEvent s { num := 0x0C41, detail := [cause, detail] }))

/-- A fatal fault, in the modes that have one (R47): Boot has its own outcomes, Held and Safe ignore it. -/
def fatal (s : State) (cause detail : Nat) : State :=
  match s.glb.mode with
  | .standby | .active | .drain => if s.glb.drainReason = .powerFail then s else enterSafe s cause detail
  | _ => s

/-- A stack of the cocoon has stopped completing accesses (R314). -/
def stackFail (s : State) (k : Nat) : State :=
  let s := if k = 0 then { s with coc := { s.coc with stackBad0 := true } } else { s with coc := { s.coc with stackBad1 := true } }
  fatal (writeEvent s { num := 0x0710, inst := k, detail := [k] }) 7 k

/-! ### Power failure (R67, R70) -/

/-- Steps 3 to 5 of R67: odometer, event (which carries the rail after a trip of the rail monitor, R527), write protect. -/
def closeCocoon (s : State) (rail : List Nat) : State :=
  let s := writeEvent (persistOdo s) { num := 0x0C40, detail := rail }
  { s with coc := { s.coc with protect := true } }

/-- Frames the transport has not yet examined are dropped without ACK (R67). -/
def dropIngress (s : State) : State :=
  let n := (s.swc.ing.map fun x => ((x.2.frames.filter fun f => !f.ovf).map fun f => f.cells).sum).sum
  freeCells { s with swc := { s.swc with ing := [], ovfUsed := 0 } } n

/-- PWRFAIL_L asserted, or a condition that acts as its assertion (R67, R70, R527, R535); once while it lasts. -/
def powerFail (s : State) (rail : List Nat) : State :=
  if s.glb.pwrfail || s.glb.mode == .held then s else
  let s := { s with glb := { s.glb with pwrfail := true } }
  match s.glb.mode with
  | .standby | .active | .drain =>
    let s' := closeCocoon (releaseBoth (dropIngress s) 2) rail
    noteMode s { s' with glb := { s'.glb with mode := .drain, drainReason := .powerFail } }
  | .boot =>
    let s := if s.coc.up then closeCocoon s rail else s
    { s with glb := { s.glb with bootHalted := true } }
  | .safe => closeCocoon s rail
  | .held => s

end Sys2Proof.Machine
end

