-- ==== Sys2Proof/Machine/Poison.lean ====
section
/-! DEFINITION. The layout of the DRAM regions and the consumption of poison (R273, R491, R493). -/

namespace Sys2Proof.Machine

/-! ### Units of a region (R491) -/

/-- The data lines of 64 bytes in a unit of 4 KiB: 56 under the strong code, 62 under the light one. -/
def unitLines (code : Nat) : Nat := if code = 1 then 56 else 62

/-- What a unit of 4 KiB holds: bytes of data, check bytes (8 or 2 for each line) and unused bytes. -/
def unitBytes (code : Nat) : Nat × Nat × Nat :=
  let n := unitLines code
  let chk := if code = 1 then 8 * n else 2 * n
  (64 * n, chk, 4096 - 64 * n - chk)

/-- The bytes of data a region holds: 7/8 of its length under the strong code, 31/32 under the light one. -/
def regionData (x : Region) : Nat := 256 * x.len * (unitBytes x.code).1

/-- A byte address lies inside a region. -/
def inRegion (x : Region) (addr : Nat) : Bool :=
  x.code != 0 && decide (2 ^ 20 * x.base ≤ addr) && decide (addr < 2 ^ 20 * (x.base + x.len))

/-- A data line of a region begins at an address: the data lines stand at the head of each unit. -/
def dataLine (x : Region) (addr : Nat) : Bool :=
  inRegion x addr && addr % 64 == 0 && decide (addr % 4096 / 64 < unitLines x.code)

/-- The region that holds an address; the regions do not overlap (R92). -/
def regionAt (s : State) (addr : Nat) : Nat := ((s.mem.regions.find? fun x => inRegion x.2 addr).map Prod.fst).getD 0

/-! ### Poison consumed (R493) -/

/-- A lost line of a declared region is read: of a region not yet swept it is reported as uninitialised (R494); otherwise it is counted
and reported as uncorrectable once, until new data replaces it (R492). -/
def lostLine (s : State) (r addr : Nat) : State :=
  if !inRegion (regionOf s r) addr || (regionOf s r).poison.contains addr then s
  else if !(regionOf s r).init then writeEvent s { num := 0x0F04, inst := r, detail := [r] }
  else dramPoison s r addr

/-- Poison of a line is consumed: counted for its region, and the event with the use and the object. The number that stands for a use is
its bit in USE of R92 (DESIGN CHOICE, log 71). -/
def consumePoison (s : State) (addr use object : Nat) : State :=
  let r := regionAt s addr
  writeEvent (rcAdd (lostLine s r addr) 0xF8010 r 1) { num := 0x0F03, detail := [use, object] }

/-- A word of a control-class memory that SEC-DED cannot correct: Safe with cause 0x08 and the memory's number of R59 (R273). -/
def ctlPoison (s : State) (mem : Nat) : State := fatal s 0x08 mem

/-- A spilled match-table entry of a key is poisoned: Safe with cause 0x08 and 0x10 + its region. -/
def tablePoison (s : State) (addr key : Nat) : State :=
  fatal (consumePoison s addr 2 key) 0x08 (0x10 + regionAt s addr)

/-- A management core has read poisoned firmware data: a warm reset; a second time within 60 s of Standby or Active, Safe. It bears the
reset cause of a warm reset by register (DESIGN CHOICE, log 71). -/
def firmwarePoison (s : State) (addr : Nat) (m : Moment) : State :=
  let s := consumePoison s addr 3 addr
  if s.glb.fwPoison && decide (s.glb.runTicks < ticksS 60) then fatal s 0x08 (0x10 + regionAt s addr)
  else
    let s := internalReset s true 3 m
    { s with glb := { s.glb with fwPoison := true } }

/-- The spilled context of an internal operation is poisoned: the operation ends as a list fault and starts again (R272, R493). -/
def spillLost (s : State) (addr n : Nat) (c : Ctx) (op : IntOp) : State :=
  let s := listFaultEvent (consumePoison s addr 5 n) n c
  match op with
  | .flush _ _ _ | .range _ _ _ => finishOp s n c op
  | _ => startInternal (vacate (freeCtxNow s n c) op) op

/-- The reads that resume a context, of which one finds a word or a line lost: the step of an image list it goes on at, the command's context
memory, or the line of pool 2 that an internal context is read from (R260, R273, R493). A read that a context does not make loses nothing. -/
def resumeLost (s : State) (core n : Nat) (c : Ctx) (l : ResumeLoss) : State :=
  match l, c.op with
  | .steps, _ => if c.list < 256 then ctlPoison s 1 else resumeCore s core
  | .context, none => ctlPoison s 5
  | .spill addr, some op => spillLost (setReadyQ s core ((readyQ s core).filter (· != n))) addr n c op
  | _, _ => resumeCore s core

/-- CONTEXT_RESUME: the first ready context that is entitled to a thread of its core takes it, unless what it needs has been lost. -/
def resumeRead (s : State) (core : Nat) (lost : Option ResumeLoss) : State :=
  match lost, nextReady s core with
  | some l, some n => match ctxOf s n with
    | some c => resumeLost s core n c l
    | none => s
  | _, _ => resumeCore s core

/-- INTERNAL_CONTEXT_START: the first waiting operation that can start takes a free internal context; when the line of pool 2 it is read from
is poisoned, it ends as a list fault and waits to start again. -/
def startRead (s : State) (lost : Option Nat) : State :=
  match lost, freeInternal s, s.seq.queue.find? (opStartable s) with
  | some addr, some n, some op => listFaultEvent (consumePoison s addr 5 n) n { op := some op, list := internalList op }
  | _, _, _ => startWaiting s

end Sys2Proof.Machine
end

