-- ==== Sys2Proof/Machine/StepData.lean ====
section
/-! DEFINITION. Steps of the sequencers that stage, commit and read cocoon pages, move host data and check protection information
(chapters 09, 10, 11). -/

namespace Sys2Proof.Machine

/-! ### Keys (R345, R346) -/

/-- Rotate the key of a slot (R346, step 1): the new key current, the old one previous. -/
def rotateEdit (s : State) (slot : Nat) : State × CatEdit :=
  let (k, s) := freshKey s
  (s, .key slot (newKey (tget s.cat.keys {} slot) k true))

/-- The counter has passed its warning: the event once per epoch, and a rotation when AUTO_ROTATE is set and no rekey of the slot
runs (R345). -/
def keyWarn (s : State) (slot : Nat) : State :=
  if ctrWarns s slot then
    let r := ctrRun s slot
    let k := tget s.cat.keys {} slot
    let s := writeEvent (setRun s slot { r with warned := true }) { num := 0x0801, inst := slot, detail := [slot, r.epoch, r.next] }
    if (ctrRule s slot).2 == 1 && k.prev.isNone && k.epoch != 0xFFFFFFFF then
      let (s, e) := rotateEdit s slot
      catRecord s [e] 3 slot
    else s
  else s

/-! ### CLOOK, CSTAGE, CDEALLOC, CCOMMIT (R288 to R297) -/

/-- The blocks C0 to C0 + C1 - 1. -/
def ctxBlocks (c : Ctx) : List Nat := blocksOf (creg c 0) (creg c 1)

/-- Start the rebuild of the index (R298). -/
def indexBad (s : State) : State := { s with coc := { s.coc with rebuildIx := true } }

/-- CLOOK (R297): while the index is rebuilt it parks under its command's class 3 limit (R298). -/
def clookStep (s : State) (n : Nat) (c : Ctx) (bad : Bool) : State :=
  if bad || s.coc.rebuildIx then parkRetry (indexBad s) n c .index 3
  else setCtx s n (some { c with flg := flgLook c.flg ((ctxBlocks c).all fun b => (newest s c.ns b).isSome) })

/-- Take own pages for a list of records, staged with the block each will hold (R290); none when no page is free. -/
def stagePages (s : State) (vss : Nat) (items : List (CommitRec × Blk)) : Option (State × List Nat) :=
  match items with
  | [] => some (s, [])
  | (r, b) :: rest => match freePage s with
    | none => none
    | some p =>
      let s := flipHit (setOwn s p { st := .staged, rc := some r, blk := b, vss := vss }) 16 (pageAddr false p false)
      match stagePages s vss rest with
      | some (s, ps) => some (s, p :: ps)
      | none => none

/-- The record of block i of a write, before it is committed (R286). -/
def writeRec (s : State) (r : NsRec) (ns lba n i ctr : Nat) (enc : Bool) (b : Blk) : CommitRec :=
  let k := tget s.cat.keys {} ns
  let pi := if r.pi = 0 then 0 else piBytes b
  { kind := 1, enc := enc, pi := r.pi != 0, mirror := r.mirror, fed := r.fed, group := r.group, ns := ns, lba := lba + i,
    last := n - 1, ord := i, epoch := k.epoch, ctr := ctr + i,
    tag := tagOf (k.cur.getD 0) ns k.epoch (ctr + i) (lba + i) pi b.data, piData := pi }

/-- The record of a range: kind 2 zeros, kind 3 deallocated (R288). -/
def rangeRec (r : NsRec) (ns lba len kind last ord : Nat) : CommitRec :=
  { kind := kind, enc := false, mirror := r.mirror, fed := r.fed, group := r.group, ns := ns, lba := lba, len := len, last := last,
    ord := ord }

/-- The staged pages join the context; their lines are multicast when mirroring applies (R253). -/
def staged (s : State) (n : Nat) (c : Ctx) (r : NsRec) (ps : List Nat) : State :=
  let s := if mirrorSend s r then ps.foldl (fun s p => tdmSend s (.tandem 1 [p])) s else s
  noteOccupancy (setCtx s n (some { (okHold c) with pages := c.pages ++ ps }))

/-- The payload of a command still streams in on its queue pair (R23). -/
def payloadComing (s : State) (n : Nat) : Bool := s.rdt.qps.any fun x => x.2.inMsgs.any fun m => m.ctx == some n

/-- CSTAGE with its pages taken (R23, R253, R380): the step holds until the last line of the payload has arrived and the cocoon has taken it into
its write queues; its lines then leave the buffer, to the tandem link too when mirroring applies. A payload whose queue pair has gone does
not arrive any more. -/
def stageOn (s : State) (n : Nat) (c : Ctx) (r : NsRec) (taken : Bool) : State :=
  let hold := { c with step := c.step - 1, staging := true }
  if !c.whole && !payloadComing s n then setCtx s n (some (failWith { c with staging := false } .dataTransferError))
  else if !c.whole then setCtx s n (some hold)
  else if !taken then setCtx s n (some { hold with mcast := some (if mirrorSend s r then 3 else 1, 0) })
  else
    let need := if mirrorSend s r then 3 else 1
    let c := { c with staging := false, mcast := some (need, 0) }
    let got := if mirrorSend s r && replayRoom s then 3 else 1
    let s := staged s n { c with pages := [] } r c.pages
    match ctxOf s n with
    | some c => mcastDone s n c got
    | none => s

/-- CSTAGE (R253, R290, R345): zeros take one page and no counters; a payload takes a page for each block and one run of counters, as soon as the
command is dispatched (R23). -/
def cstageStep (s : State) (n : Nat) (c : Ctx) (w : StepW) (taken : Bool) : State :=
  match c.cmd, nsOf s c.ns with
  | some h, some r =>
    let len := h.nlb + 1
    if bitAt w.flags 1 then
      match stagePages s c.vss [(rangeRec r c.ns h.slba len 2 0 0, {})] with
      | some (s, ps) => staged s n c r ps
      | none => s
    else if c.staging then stageOn s n c r taken
    else match takeCtrs s c.ns len with
      | (.exhausted, s) => setCtx (rcAdd s 0x90038 0 1) n (some (failWith c (.vendor 0xEF)))
      | (.wait, s) => parkRetry s n c .counter 3
      | (.from_ ctr, s') =>
        let enc := bitAt w.flags 0
        let items := (List.range len).map fun i =>
          let b := (h.payload[i]?).getD {}
          (writeRec s r c.ns h.slba len i ctr enc b, b)
        match stagePages s' c.vss items with
        | some (s, ps) =>
          let s := count (count s 0x0801 none none len) 0x0503 none (some c.vss) h.len
          stageOn (noteOccupancy (keyWarn s c.ns)) n { c with pages := c.pages ++ ps } r taken
        | none => s
  | _, _ => setCtx s n (some (failWith c .internalError))

/-- CDEALLOC (R253, R288): one deallocate-range record for each range of the command. -/
def cdeallocStep (s : State) (n : Nat) (c : Ctx) : State :=
  if s.coc.rebuildIx then parkRetry s n c .index 3
  else match c.cmd, nsOf s c.ns with
    | some h, some r =>
      let m := h.ranges.length
      match stagePages s c.vss (h.ranges.zipIdx.map fun x => (rangeRec r c.ns x.1.lba x.1.len 3 (m - 1) x.2, {})) with
      | some (s, ps) => staged s n c r ps
      | none => s
    | _, _ => setCtx s n (some (failWith c .internalError))

/-- Write the commit record of one staged page under its sequence: the page is Committed, the index points at it and older pages of its
block are superseded (R289, R290, R292). -/
def commitPage (s : State) (p base : Nat) (mirrored : Bool) : State :=
  let g := ownPg s p
  match g.rc with
  | none => s
  | some r =>
    let r := { r with seq := base + r.ord }
    let s := setOwn s p { g with st := .committed, rc := some r, unmir := !mirrored, at_ := s.now }
    supersede (count s 0x0701 (some r.group)) p r

/-- CCOMMIT (R289): every record at once, under consecutive sequences (R287); the partner gets them when mirroring applies. None starts
once PWRFAIL_L has been asserted (R67). -/
def ccommitStep (s : State) (n : Nat) (c : Ctx) : State :=
  if s.coc.protect then s
  else match nsOf s c.ns with
  | none => setCtx s n (some (failWith c .internalError))
  | some r =>
    let ps := c.pages.filter fun p => (ownPg s p).st == .staged
    let base := nextSeq s r.group
    let m := mirrorOn s r
    let s := setSeq s r.group (base + ps.length)
    let s := ps.foldl (fun s p => commitPage s p base m) s
    let s := if mirrorSend s r then ps.foldl (fun s p =>
      tdmSend s (.tandem 2 [p, match (ownPg s p).rc with | some x => x.seq | none => 0])) s else s
    setCtx s n (some { (okHold c) with committed := true, echo := if m then ps else [] })

/-! ### CREAD (R291, R297, R311, R312) -/

/-- A block that no write covers (R322): zeros, with 0xFF as protection information. -/
def unwrittenBlk : BufBlk := { st := 3, blk := ⟨0, 0xFFFF, 0xFFFF, 0xFFFFFFFF⟩, unw := true }

/-- What the cocoon holds of a block: a page's block, or zeros in a range; none when the index does not find it. -/
def cocoonBlk (s : State) (ns lba : Nat) : Option BufBlk :=
  (newest s ns lba).map fun x =>
    if x.2.2.kind = 1 then
      let g := anyPg s x.1 x.2.1
      if g.poison then { st := 5 } else { st := 1, blk := g.blk }
    else { unwrittenBlk with st := 1 }

/-- The pages a read takes data from: partition and page. -/
def cocoonPages (s : State) (ns : Nat) (blocks : List Nat) : List (Bool × Nat) :=
  blocks.filterMap fun b => match newest s ns b with
    | some x => if x.2.2.kind = 1 then some (x.1, x.2.1) else none
    | none => none

/-- CREAD: each page's lines are read (R311, R312) and its tag verified; a page under repair makes the step wait; a poisoned page fails
it with POISON. -/
def creadStep (s : State) (n : Nat) (c : Ctx) (reads : List LineRead) (tagOk : Bool) : State :=
  let pages := cocoonPages s c.ns (ctxBlocks c)
  let s := (pages.zip reads).foldl (fun s x =>
    let (r, s) := flipRead s (16 + bit x.1.1) (pageAddr x.1.1 x.1.2 false) x.2
    pageLine s x.1.1 x.1.2 false r) s
  let s := if tagOk then s else match pages with
    | p :: _ => pageFault s p.1 p.2 false
    | [] => s
  if pages.any fun p => !p.1 && s.coc.fetches.contains (p.2, false) then parkRetry s n c .repair 3
  else
    let buf := (ctxBlocks c).map fun b => (cocoonBlk s c.ns b).getD {}
    if buf.any fun b => b.st == 5 then setCtx s n (some (failPoison { c with buf := buf }))
    else
      let enc := (pages.filter fun p => match (anyPg s p.1 p.2).rc with | some r => r.enc | none => false).length
      let s := count s 0x0802 none none enc
      let s := pages.foldl (fun s p => match (anyPg s p.1 p.2).rc with
        | some r => count s 0x0703 (some r.group)
        | none => s) s
      setCtx s n (some { (okHold c) with buf := buf })

/-! ### ECHOWAIT (R25, R26, R267) -/

/-- ECHOWAIT: returns at once when MIRROR is false or every echo is in; the command is then durable. -/
def echowaitStep (s : State) (n : Nat) (c : Ctx) (w : StepW) : State :=
  if c.echo.isEmpty || !condHolds s c 12 then
    let s := noEcho s c
    let c := { c with durable := c.committed, echo := [], flg := flgPark c.flg true false false }
    setCtx (if c.durable then durableNow s c else s) n (some c)
  else parkCtx s n c .echo w.tmo

/-! ### Host data (R253) -/

/-- The queue pair of C4. -/
def hostQp (c : Ctx) : Nat := field (creg c 4) 32 16

/-- The service-port function that sent a context's command, whose data moves by DMA (R477). -/
def ctxFn (c : Ctx) : Option Nat :=
  match c.cmd with
  | some h => match h.c.org with
    | .fn n => some n
    | _ => none
  | none => none

/-- A function issues memory requests: Bus Master Enable is set, and it is neither in D3hot nor in an FLR (R479, R480, R482). -/
def fnDmaOn (s : State) (fn : Nat) : Bool := (fnOf s fn).bme && !(fnOf s fn).d3hot && !(fnOf s fn).flr

/-- HREAD: an RDMA READ of C2 bytes from C3, or the DMA reads of a service-port function; those that cannot be issued fail the step with
Data Transfer Error (R479). -/
def hreadStep (s : State) (n : Nat) (c : Ctx) (w : StepW) : State :=
  match ctxFn c with
  | some fn =>
    if fnDmaOn s fn then
      parkCtx (setFn s fn { fnOf s fn with dma := (fnOf s fn).dma ++ [(tagOfInstar (fnOf s fn).instar, n)] }) n c .host w.tmo
    else setCtx (rcAdd s 0xD0018 0 1) n (some (setReg { c with flg := flgPark c.flg false false false } 15 (statusWord .dataTransferError)))
  | none =>
    parkCtx (sendMsg s (hostQp c) { kind := .read, len := creg c 2, va := creg c 3, rkey := creg c 4 % 2 ^ 32, ctx := some n })
      n c .host w.tmo

/-- HWRITE: the buffer goes to the transport as an RDMA WRITE, and the step does not wait for its ACK; or it goes to host memory by DMA. -/
def hwriteStep (s : State) (n : Nat) (c : Ctx) : State :=
  let q := hostQp c
  let item := Out.hostWrite q (creg c 3) (creg c 4 % 2 ^ 32) (c.buf.map BufBlk.blk)
  match ctxFn c with
  | some fn =>
    if fnDmaOn s fn then
      setCtx (count (emit s item) 0x0504 none (some c.vss) (creg c 2)) n (some (okHold c))
    else setCtx (rcAdd s 0xD0018 0 1) n (some (failWith c .dataTransferError))
  | none =>
    let s := count (emit s item) 0x0504 none (some c.vss) (creg c 2)
    setCtx (sendMsg s q { kind := .write, len := creg c 2, va := creg c 3, rkey := creg c 4 % 2 ^ 32, ctx := some n }) n (some (okHold c))

/-- A step that needs the whole payload holds while it streams in; it fails when its queue pair has gone (R23, R253). -/
def payloadWait (s : State) (n : Nat) (c : Ctx) : State :=
  setCtx s n (some (if payloadComing s n then { c with step := c.step - 1 } else failWith c .dataTransferError))

/-- COMPARE: the buffer against the host data, block by block; the PI is compared with it in a namespace that has it. -/
def compareStep (s : State) (n : Nat) (c : Ctx) : State :=
  if !c.whole then payloadWait s n c else
  let host := match c.cmd with | some h => h.payload | none => []
  let pi := condHolds s c 13
  let same := (c.buf.zip host).all fun x => if pi then x.1.blk == x.2 else x.1.blk.data == x.2.data
  setCtx s n (some (if same && c.buf.length == host.length then okHold c else failWith c .compareFailure))

/-! ### Protection information (R347) -/

/-- One bit of the CRC-16 of R347, the polynomial 0x8BB7. -/
def crc16Bit (c : Nat) : Nat := if 32768 ≤ c then ((2 * c) % 65536) ^^^ 0x8BB7 else 2 * c

/-- The CRC-16 of the 4,096 data bytes of a block. -/
def crc16Blk (data : Nat) : Nat :=
  (leBytes 4096 data).foldl (fun c b =>
    crc16Bit (crc16Bit (crc16Bit (crc16Bit (crc16Bit (crc16Bit (crc16Bit (crc16Bit (c ^^^ (256 * b)))))))))) 0

/-- The first check that a block fails: 1 guard, 2 application tag, 3 reference tag; 0 when it passes or is skipped. -/
def piFails (ty prchk reftag apptag appmask i : Nat) (b : BufBlk) : Nat :=
  if b.unw || (b.blk.app == 0xFFFF && (ty == 1 || b.blk.ref == 0xFFFFFFFF)) then 0
  else if bitAt prchk 0 && crc16Blk b.blk.data != b.blk.guard then 1
  else if bitAt prchk 1 && (b.blk.app &&& appmask) != (apptag &&& appmask) then 2
  else if bitAt prchk 2 && ty == 1 && b.blk.ref != (reftag + i) % 2 ^ 32 then 3
  else 0

/-- PICHK: a write's payload, or the buffer of a read or compare; the first failure of the command decides its status. -/
def pichkStep (s : State) (n : Nat) (c : Ctx) : State :=
  if c.opc == 1 && !c.whole then payloadWait s n c else
  match c.cmd, nsOf s c.ns with
  | some h, some r =>
    let blks : List BufBlk := if c.opc = 1 then h.payload.map fun b => { st := 3, blk := b } else c.buf
    let k := (blks.zipIdx.map fun x =>
      piFails r.pi h.prchk (creg c 7 % 2 ^ 32) (field (creg c 7) 32 16) (field (creg c 7) 48 16) x.2 x.1).find? (· != 0)
    match k with
    | none => setCtx s n (some (okHold c))
    | some 1 => setCtx (rcAdd s 0x9002C 0 1) n (some (failWith c .guardCheck))
    | some 2 => setCtx (rcAdd s 0x90030 0 1) n (some (failWith c .appTagCheck))
    | some _ => setCtx (rcAdd s 0x90034 0 1) n (some (failWith c .refTagCheck))
  | _, _ => setCtx s n (some (okHold c))

/-! ### Rows -/

/-- ILOCK; an entry of the interlock array that SEC-DED cannot correct is fatal (R264, R273). -/
def execIlock (n : Nat) (w : StepW) (lost : Bool) (s : State) : Host.Outcome State Fault Refusal :=
  .next (runStep s n 0x20 w fun c s => if lost then ctlPoison s 4 else ilockStep s n c w)

def execClook (n : Nat) (w : StepW) (bad : Bool) (s : State) : Host.Outcome State Fault Refusal :=
  .next (runStep s n 0x30 w fun c s => clookStep s n c bad)

def execCstage (n : Nat) (w : StepW) (ok : Bool) (s : State) : Host.Outcome State Fault Refusal :=
  .next (runStep s n 0x31 w fun c s =>
    let (held, s) := stallAt s 5 (((freePage s).getD 0) % 2)
    if held then s else cstageStep s n c w ok)

def execCcommit (n : Nat) (w : StepW) (s : State) : Host.Outcome State Fault Refusal :=
  .next (runStep s n 0x32 w fun c s => ccommitStep s n c)

def execCread (n : Nat) (w : StepW) (reads : List LineRead) (tagOk : Bool) (s : State) : Host.Outcome State Fault Refusal :=
  .next (runStep s n 0x33 w fun c s => creadStep s n c reads tagOk)

def execCdealloc (n : Nat) (w : StepW) (s : State) : Host.Outcome State Fault Refusal :=
  .next (runStep s n 0x34 w fun c s => cdeallocStep s n c)

def execEchowait (n : Nat) (w : StepW) (s : State) : Host.Outcome State Fault Refusal :=
  .next (runStep s n 0x38 w fun c s => echowaitStep s n c w)

def execHread (n : Nat) (w : StepW) (s : State) : Host.Outcome State Fault Refusal :=
  .next (runStep s n 0x40 w fun c s => hreadStep s n c w)

def execHwrite (n : Nat) (w : StepW) (s : State) : Host.Outcome State Fault Refusal :=
  .next (runStep s n 0x41 w fun c s => hwriteStep s n c)

def execCompare (n : Nat) (w : StepW) (s : State) : Host.Outcome State Fault Refusal :=
  .next (runStep s n 0x43 w fun c s => compareStep s n c)

def execPichk (n : Nat) (w : StepW) (s : State) : Host.Outcome State Fault Refusal :=
  .next (runStep s n 0x44 w fun c s => pichkStep s n c)

end Sys2Proof.Machine
end

