-- ==== Sys2Proof/Machine/StepEvents.lean ====
section
/-! DEFINITION. The events of command contexts: threads, timeouts, grants and arrivals, table slots and the sampler (chapter 09). -/

namespace Sys2Proof.Machine

/-! ### Timeouts (R253 to R256, R420) -/

/-- The drive commands a context waits for: spoke and slot. -/
def ctxSlots (s : State) (n : Nat) : List (Nat × Nat) :=
  s.spk.spokes.flatMap fun p => p.2.slots.filterMap fun x => match x.2 with
    | some d => if d.ctx == some n && !d.timedOut then some (p.1, x.1) else none
    | none => none

/-- Each of them times out and is aborted (R420). -/
def ctxSlotsTimeout (s : State) (n : Nat) : State := (ctxSlots s n).foldl (fun s x => driveCmdTimeout s x.1 x.2) s

/-- A strip write that has timed out: its drive command is aborted and writes for no stripe any more. -/
def stripSlotTimeout (t : Nat × Nat × Nat) (s : State) (b : Nat) : State :=
  (spkOf s b).slots.foldl (fun s x => match x.2 with
    | some d => if d.strip = some t then
        let s := setSpk s b { spkOf s b with slots := tput (spkOf s b).slots none x.1 (some { d with strip := none }) }
        driveCmdTimeout s b x.1
      else s
    | none => s) s

/-- The member writes a context still waits for. -/
def openStrips (s : State) (c : Ctx) : List (Nat × Nat × Nat) :=
  (c.strips.filterMap fun b => (chunkAt s c.refs b.chunk).map fun x => (b.chunk, b.stripe, memberAt x.k x.m b.stripe b.pos)).eraseDups

/-- The member writes of a stripe time out: each has failed an attempt (R334, R420). -/
def stripsTimeout (s : State) (c : Ctx) : State :=
  (openStrips s c).foldl (fun s t =>
    stripDone ((List.range 64).foldl (stripSlotTimeout t) s) t false) s

/-- The requests a context waits for are given up (R254). -/
def fragsTimeout (s : State) (n : Nat) (c : Ctx) : State :=
  let s := { s with fed := { s.fed with frags := s.fed.frags.filter fun f => f.ctx != some n } }
  (openStrips s c).foldl (fun s t => stripFin s t false) s

/-- A parked step ends by its timeout (R253 to R255): each kind of wait by what it waits for. -/
def waitEnds (s : State) (n : Nat) (c : Ctx) (w : Wait) : State :=
  let readErr := fun (c : Ctx) =>
    setReg { c with flg := flgPark c.flg false false true, out := 0, bad := false } 15 (statusWord .unrecoveredRead)
  match w with
  | .timer => arrive s n { c with flg := { c.flg with timeout := true } } c.drain
  | .ilock | .iwait => arrive s n (orderFail { c with lock := .withdrawn }) c.drain
  | .nsfence => arrive s n (orderFail c) c.drain
  | .host => arrive s n (setReg { c with flg := flgPark c.flg false false true } 15 (statusWord .dataTransferError)) 2
  | .drives =>
    let buf := c.buf.map fun (b : BufBlk) => if b.st = 2 then { b with st := 4 } else b
    arrive (ctxSlotsTimeout s n) n (readErr { c with buf := buf }) 1
  | .recon | .zero => arrive (ctxSlotsTimeout s n) n (readErr c) 1
  | .writes => match c.op with
    | some (.inbound _ _) => driveArrive (ctxSlotsTimeout s n) n false
    | _ => stripsTimeout s c
  | .frag => fragsTimeout s n c
  | .index | .map | .counter | .repair => arrive s n (orderFail { c with step := c.step + 1 }) c.drain
  | .echo => echoTimeout s n

/-- The step a parked context stands at: one that is taken again has not been passed. -/
def parkedStep (c : Ctx) (w : Wait) : Nat :=
  match w with
  | .index | .map | .counter | .repair => c.step
  | _ => c.step - 1

/-- A timeout entry expires: it must bear the wait number and the instar in force when the wait began, else it is discarded (R255). -/
def waitTimeout (s : State) (n waitNo instar : Nat) : State :=
  match ctxOf s n with
  | none => staleArrival s
  | some c => match waitOf c with
    | none => staleArrival s
    | some w =>
      if c.waitNo ≠ waitNo || c.vci ≠ instar then staleArrival s
      else match w with
        | .echo => echoTimeout s n
        | _ =>
          waitEnds (writeEvent (rcAdd s 0x70014 0 1) { num := 0x0602, vss := if c.vss = 0 then 0xFFFF else c.vss,
                                                        detail := [c.list, parkedStep c w, c.cls] }) n c w

/-! ### Grants and arrivals -/

/-- The interlock grants a parked ILOCK or IWAIT (R264, R265). -/
def interlockGrant (s : State) (n : Nat) : State :=
  match ctxOf s n with
  | none => staleArrival s
  | some c => match waitOf c with
    | some .ilock => if ilockFree s c then arrive s n { c with lock := .taken, flg := flgPark c.flg true false false } c.drain else s
    | some .iwait => if iwaitFree s c then arrive s n { c with flg := flgPark c.flg true false false } c.drain else s
    | _ => staleArrival s

/-- A fence has nothing left to wait for (R267). -/
def nsfenceDone (s : State) (n : Nat) : State :=
  match ctxOf s n with
  | none => staleArrival s
  | some c => match waitOf c with
    | some .nsfence =>
      if (fenceLeft s c).isEmpty then arrive s n { c with fence := [], flg := flgPark c.flg true false false } c.drain else s
    | _ => staleArrival s

/-- The DMA reads a context waits for are over (R479). -/
def dmaOver (s : State) (fn n : Nat) : State := setFn s fn { fnOf s fn with dma := (fnOf s fn).dma.filter fun x => x.2 != n }

/-- A host transfer ends (R253): the data lies in the context, or the step fails with Data Transfer Error. -/
def hostTransfer (s : State) (n : Nat) (ok : Bool) (data : List Blk) (ranges : List DsmRange) : State :=
  match ctxOf s n with
  | none => staleArrival s
  | some c => match waitOf c, c.cmd with
    | some .host, some h =>
      let used := match ctxFn c with
        | some fn => (fnOf s fn).bme
        | none => true
      let s := match ctxFn c with
        | some fn => dmaOver (if ok && used then s else rcAdd s 0xD0018 0 1) fn n
        | none => s
      if ok && used then arrive s n { c with cmd := some { h with payload := data, ranges := ranges },
                                             flg := flgPark c.flg true false false } 2
      else arrive s n (setReg { c with flg := flgPark c.flg false false false } 15 (statusWord .dataTransferError)) 2
    | _, _ => staleArrival s

/-- A host transfer arrives: under an old instar of what it was issued for it is discarded (R37, R210, R232, R256). -/
def hostArrival (s : State) (n : Nat) (by_ : IssuedFor) (ok : Bool) (data : List Blk) (ranges : List DsmRange) : State :=
  match by_ with
  | .vc a tag => if stale (vcInstar s a) tag then vcStale s a else hostTransfer s n ok data ranges
  | .tq k tag => if stale (tqOf s k).instar tag then tqStale s k else hostTransfer s n ok data ranges

/-! ### Table slots (R270) -/

/-- The match table of an update. -/
def updTable (u : TabUpd) : Nat :=
  match u with
  | .derail _ _ => 0
  | .map _ _ => 2
  | .place _ _ => 3
  | .win _ => 4

/-- The one retry of an update that waited 100 ms: success is transient, a second failure is TABLE_NO_SLOT and the update is given up. A chunk-map
change that waits for a journal record goes on waiting (R325). -/
def retryUpd (s : State) (u : TabUpd) : State :=
  if tabRoom s u then transient (tabApply s u) 6 (updTable u) 1 0x0603
  else if updTable u == 2 && decide (0 < spareFree s 2) then { s with seq := { s.seq with slotWait := s.seq.slotWait ++ [u] } }
  else writeEvent s { num := 0x0603, inst := updTable u, detail := [updTable u] }

/-- The waiting updates of a table are tried again. -/
def tableRetry (s : State) (table : Nat) : State :=
  let mine := s.seq.slotWait.filter fun u => updTable u == table
  mine.foldl retryUpd { s with seq := { s.seq with slotWait := s.seq.slotWait.filter fun u => updTable u != table } }

/-! ### The sampler (R274, R278) -/

/-- The four words of a sample record. -/
def sampleWords (r : SampleRec) : List Nat :=
  [r.time % 2 ^ 32,
   r.core + 256 * (r.thread + 16 * r.skid + 64 * bit r.parked) + 65536 * (r.step % 4096),
   r.list + 65536 * (r.ctx % 65536),
   r.counter]

/-- The key of a snapshot or held value of a path. -/
def pathKey (off : Nat) (p : Path) : Nat := off + 2 ^ 20 * match p with | .bar0 => 0 | .mgmt => 1 | .cores => 2

/-- Snapshot words into the registers at `off`, 4 bytes apart, for a path (R11). -/
def snapWords (s : State) (p : Path) (off inst : Nat) (atomic : Bool) (ws : List Nat) : State :=
  ws.zipIdx.foldl (fun s w =>
    { s with regs := { s.regs with snap := tput s.regs.snap none (pathKey (off + 4 * w.2) p) (some ⟨atomic, inst, w.1⟩) } }) s

/-- A read of SEQ_SAMPLE_DATA0: word 0 of the oldest record, or 0; words 1 to 3 are snapshot and the record leaves the FIFO (R278). -/
def sampleRead (s : State) (p : Path) : Nat × State :=
  match s.seq.fifo with
  | [] => (0, snapWords s p 0x70064 0 false [0, 0, 0])
  | r :: rest =>
    let s := { s with seq := { s.seq with fifo := rest } }
    ((sampleWords r).headD 0, snapWords s p 0x70064 0 false ((sampleWords r).drop 1))

/-! ### Rows -/

def execContextResume (core : Nat) (lost : Option ResumeLoss) (s : State) : Host.Outcome State Fault Refusal :=
  if core < 32 then .next (resumeRead s core lost) else .fault (.noSuchInstance "core")

def execInternalContextStart (lost : Option Nat) (s : State) : Host.Outcome State Fault Refusal := .next (startRead s lost)

def execWaitTimeout (n waitNo instar : Nat) (s : State) : Host.Outcome State Fault Refusal := .next (waitTimeout s n waitNo instar)

def execInterlockGrant (n : Nat) (s : State) : Host.Outcome State Fault Refusal := .next (interlockGrant s n)

def execNsfenceDone (n : Nat) (s : State) : Host.Outcome State Fault Refusal := .next (nsfenceDone s n)

def execHostTransferComplete (n : Nat) (by_ : IssuedFor) (ok : Bool) (data : List Blk) (ranges : List DsmRange) (s : State) :
    Host.Outcome State Fault Refusal := .next (hostArrival s n by_ ok data ranges)

def execTableSlotRetry (table : Nat) (s : State) : Host.Outcome State Fault Refusal :=
  if table < 5 then .next (tableRetry s table) else .fault (.noSuchInstance "table")

/-- A register read answers with its value; in Held no agent reaches the register space (R45, R46). -/
def answerRead (s : State) (r : Nat × State) : State := if s.glb.mode = .held then s else emit r.2 (.readData (word r.1))

def execSeqSampleRead (p : Path) (s : State) : Host.Outcome State Fault Refusal := .next (answerRead s (sampleRead s p))

/-- ECHO_TIMEOUT. -/
def execEchoTimeout (who : EchoWaiter) (s : State) : Host.Outcome State Fault Refusal :=
  match who with
  | .ctx n => .next (echoTimeout s n)
  | .remirror g => if g < 2 then .next (remirrorFail s g) else .fault (.noSuchInstance "group")

/-- The group of the page an echo names. -/
def echoGroup (s : State) (page : Nat) : Nat :=
  match (ownPg s page).rc with
  | some r => r.group
  | none => 0

/-- TANDEM_ECHO_ARRIVAL. -/
def execTandemEchoArrival (page seq ns : Nat) (s : State) : Host.Outcome State Fault Refusal :=
  .next (atPoint s 3 (echoGroup s page) (.echo page seq ns) fun s => echoArrive s page seq ns)

end Sys2Proof.Machine
end

