-- ==== Sys2Proof/Machine/Cocoon.lean ====
section
/-! DEFINITION. The cocoon: formatting, mirroring, the recovery scan, adoption and hand-back, counters, lines and stacks
(chapter 10). -/

namespace Sys2Proof.Machine

/-! ### Format Cocoon (R62, R284) -/

/-- Commit records are present in either partition. -/
def recordsPresent (s : State) : Bool :=
  (s.coc.own.any fun x => x.2.rc.isSome || x.2.unus) || s.coc.mir.any fun x => x.2.rc.isSome

/-- The held boot record takes the lowest all-zero slot (R62, R284). -/
def placeHeldRec (s : State) : State :=
  match s.trs.heldRec with
  | none => s
  | some r => if brSealed s then s else
    let s := setBr s (brNext s) (.record (chainRec s (sealRec s r) (brNext s)))
    { s with trs := { s.trs with heldRec := none } }

/-- COC_FORMATTED and the completion. -/
def formatDone (s : State) (c : Cid) : State :=
  claimUnpaired (reply (writeEvent s { num := 0x0701, detail := [s.coc.formats] }) c .success)

/-- The format of an unformatted cocoon (R284); the limit of step 9 counts from here (R62). -/
def formatNew (s : State) : State :=
  let s := { s with
    glb := { s.glb with step9 := true, stageLate := false }
    coc := { s.coc with formatted := true, scanned := true, own := [], mir := [], ctrs := [], runs := [], formats := 1,
                        fmtOdo := s.evr.odo, hdrOdo := s.evr.odo, hdrCycles := s.evr.cycles, hdrA := true, hdrB := true,
                        seq0 := 0, seq1 := 0, kept := 0, discarded := 0, superseded := 0, lost := 0, scanUs := 0, poison := [] }
    cat := {}, cfe := { s.cfe with sealed_ := false }, spk := { s.spk with bayIds := [] }
    evr := { s.evr with ring := [], scanned := true, head := 0 } }
  placeHeldRec s

/-- The forced format of a formatted cocoon (R284). -/
def formatForced (s : State) : State :=
  let s := { s with
    coc := { s.coc with own := [], mir := [], formats := (s.coc.formats + 1) % 2 ^ 32, fmtOdo := s.evr.odo, hdrOdo := s.evr.odo,
                        hdrCycles := s.evr.cycles, poison := s.coc.poison.filter fun a => decide (a < 0x1EB500000) }
    cat := {}, cfe := { s.cfe with sealed_ := false }, spk := { s.spk with bayIds := [] }
    tdm := { s.tdm with compared := false } }
  if partnerAnswers s then tdmSend s (.tandem 17 [0]) else s

/-- Format Cocoon (R284), by its table. -/
def formatCocoon (s : State) (c : Cid) (cdw10 : Nat) : State :=
  asManager s c 2 fun s =>
    if s.glb.mode ≠ .standby || s.tdm.grp0.owned || s.tdm.grp1.owned then reply s c (.vendor 0xC4)
    else if !s.coc.formatted then formatDone (formatNew s) c
    else if !bitAt cdw10 0 then reply s c (.vendor 0xE1)
    else if recordsPresent s && !bitAt cdw10 1 then reply s c (.vendor 0xE3)
    else formatDone (formatForced s) c

/-! ### Mirror staging (R293, R296) -/

/-- The partner's pages are taken (R45, R67). -/
def mirrorOpen (s : State) : Bool := dataRuns s && s.tdm.linkUp && !s.coc.protect

/-- Staging lines of the owner land in the mirror page (R293). -/
def mirrorLine (s : State) (p : Nat) (b : Blk) : State :=
  if mirrorOpen s && decide (p < pageCount) then
    flipHit (setMir s p { mirPg s p with blk := b, poison := false }) 17 (pageAddr true p false)
  else s

/-- A mirror record: written and echoed when its CRC holds for its index, else rejected (R293). -/
def mirrorRecord (s : State) (p : Nat) (r : CommitRec) (crc : Nat) : State :=
  if !mirrorOpen s || decide (pageCount ≤ p) then s
  else if recCrc p r = crc then
    tdmSend (setMir s p { mirPg s p with st := .held, rc := some r, unus := false }) (.tandem 4 [p, r.seq])
  else writeEvent s { num := 0x0709, detail := [p] }

/-- A mirror reset clears every mirror record of the group (R296). -/
def mirrorReset (s : State) (g : Nat) : State :=
  s.coc.mir.foldl (fun s x => match x.2.rc with
    | some r => if r.group = g && x.2.st = .held then setMir s x.1 {} else s
    | none => s) s

/-! ### Record sets (R304, R308) -/

/-- The records of a partition that may be used: page and record. -/
def recList (t : Tbl Page) : List (Nat × CommitRec) :=
  t.filterMap fun x => match x.2.rc with
    | some r => if x.2.unus || x.2.st == .staged then none else some (x.1, r)
    | none => none

/-- The base of the set a record belongs to. -/
def recBase (r : CommitRec) : Nat := r.seq - r.ord

/-- Every ordinal of the record's command is present. -/
def recComplete (l : List (Nat × CommitRec)) (r : CommitRec) : Bool :=
  (List.range (r.last + 1)).all fun o => l.any fun x => x.2.group == r.group && recBase x.2 == recBase r && x.2.ord == o

/-- The incomplete sets: group, base and records found. -/
def brokenSets (l : List (Nat × CommitRec)) : List (Nat × Nat × Nat) :=
  let bad := l.filter fun x => !recComplete l x.2
  (bad.map fun x => (x.2.group, recBase x.2)).eraseDups.map fun k =>
    (k.1, k.2, (bad.filter fun x => x.2.group == k.1 && recBase x.2 == k.2).length)

/-- A page record of the same block with a higher SEQ is in the list (R287). -/
def recOutdated (l : List (Nat × CommitRec)) (r : CommitRec) : Bool :=
  r.kind == 1 && l.any fun x => x.2.kind == 1 && x.2.group == r.group && x.2.ns == r.ns && x.2.lba == r.lba && decide (r.seq < x.2.seq)

/-- What the scan does with a partition: the pages to clear as incomplete and those to clear as superseded. -/
def scanOf (t : Tbl Page) : List Nat × List Nat :=
  let l := recList t
  let whole := l.filter fun x => recComplete l x.2
  ((l.filter fun x => !recComplete l x.2).map Prod.fst, (whole.filter fun x => recOutdated whole x.2).map Prod.fst)

/-- COC_RECORD_DISCARDED for each incomplete set of a list (R304). -/
def discardEvents (s : State) (l : List (Nat × CommitRec)) : State :=
  (brokenSets l).foldl (fun s b => writeEvent s { num := 0x0703, detail := [b.1, b.2.1, b.2.2] }) s

/-! ### The recovery scan (R308, R548) -/

/-- The highest SEQ of a group in a list of records. -/
def highSeq (l : List (Nat × CommitRec)) (g : Nat) : Option Nat :=
  l.foldl (fun m x => if x.2.group = g then some (match m with | some v => max v x.2.seq | none => x.2.seq) else m) none

/-- The next commit sequence of a group after the scan (R287). -/
def scanSeq (l : List (Nat × CommitRec)) (g : Nat) : Nat :=
  match highSeq l g with
  | some h => h + 256
  | none => 0

/-- A record that cannot be used: an own one is held, a mirror one cleared (R548). -/
def scanBad (s : State) (x : Bool × Nat) : State :=
  if x.1 then setMir s x.2 {} else setOwn s x.2 { ownPg s x.2 with st := .committed, unus := true }

/-- An own record that the scan keeps: unmirrored until it is re-mirrored, against its tenant's quota (R295, R299, R308). -/
def keepPage (s : State) (x : Nat × CommitRec) : State :=
  setOwn s x.1 { ownPg s x.1 with st := .committed, unmir := true, kept := true, at_ := s.now,
                                  vss := match nsOf s x.2.ns with | some n => n.vss | none => 0 }

/-- A counter line that cannot be read (R310). -/
def loseCounter (s : State) (slot : Nat) : State :=
  let s := setRun s slot { ctrRun s slot with spent := true }
  writeEvent { s with coc := { s.coc with ctrs := tput s.coc.ctrs {} slot { tget s.coc.ctrs {} slot with lost := true } } }
    { num := 0x070E, inst := slot, detail := [slot] }

/-- The recovery scan (R308). -/
def recoveryScan (s : State) (rep : ScanReport) : State :=
  let s := rep.bad.foldl scanBad s
  let s := rep.ctrs.foldl loseCounter s
  let all := recList s.coc.own ++ recList s.coc.mir
  let a := scanOf s.coc.own
  let b := scanOf s.coc.mir
  let s := discardEvents (discardEvents s (recList s.coc.own)) (recList s.coc.mir)
  let s := (a.1 ++ a.2).foldl (fun s p => setOwn s p {}) s
  let s := (b.1 ++ b.2).foldl (fun s p => setMir s p {}) s
  let s := (recList s.coc.own).foldl keepPage s
  let s := { s with coc := { s.coc with
    scanned := true, seq0 := scanSeq all 0, seq1 := scanSeq all 1, kept := (recList s.coc.own ++ recList s.coc.mir).length,
    discarded := (a.1 ++ b.1).length, superseded := (a.2 ++ b.2).length, lost := rep.bad.length, scanUs := min rep.us 300000 } }
  writeEvent (noteOccupancy s) { num := 0x0702, detail := [s.coc.kept, s.coc.discarded, s.coc.superseded, s.coc.lost, s.coc.scanUs] }

/-! ### Adoption and hand-back (R306, R307, R465) -/

/-- The held mirror pages of a group whose record cannot be read are lost (R306, R312). -/
def adoptLost (s : State) (g : Nat) : State :=
  (heldPages s g).foldl (fun s p => if (mirPg s p).unus then setMir (lostEvent s (mirPg s p) p) p {} else s) s

/-- Adoption of a group's held mirror pages (R306): the incomplete sets go, the newest of each block stays, and the commit sequence is
that of R287. -/
def adoptPages (s : State) (g : Nat) : State :=
  let x := grpOf s g
  if !x.owned || x.pagesDone then s
  else
    let s := adoptLost s g
    let held := (heldPages s g).filterMap fun p => (mirPg s p).rc.map fun r => (p, r)
    let s := discardEvents s held
    let whole := held.filter fun y => recComplete held y.2
    let keep := whole.filter fun y => !recOutdated whole y.2
    let s := held.foldl (fun s y => if keep.contains y then setMir s y.1 { mirPg s y.1 with st := .adopted, at_ := s.now }
                                    else setMir s y.1 {}) s
    let high := (highSeq keep g).getD 0
    let last := if g = 0 then s.tdm.frame.seq0 else s.tdm.frame.seq1
    let s := if x.fromPartner then setSeq s g (2 ^ 32 + max last high) else setSeq s g (max (nextSeq s g) (high + 1))
    let s := writeEvent s { num := 0x070B, inst := g, detail := [g, keep.length] }
    openGroup (setGrp s g { grpOf s g with pagesDone := true, fromPartner := false }) g

/-- A namespace no longer awaits hand-back: the next frame says so, and with none left the hand-back is confirmed (R307, R465). -/
def awaitEnd (s : State) (g ns : Nat) (abandoned : Bool) : State :=
  let x := grpOf s g
  if !x.await.contains ns then s
  else
    let s := setGrp s g { x with await := x.await.filter (· != ns) }
    let s := { s with tdm := { s.tdm with endings := s.tdm.endings ++ [ns + 65536 * g + 131072 * bit abandoned] } }
    if (grpOf s g).await.isEmpty && partnerAnswers s then tdmSend s (.tandem 11 [g]) else s

/-- Free own pages. -/
def ownFree (s : State) : Nat := pageCount - ownUsed s

/-- One handed-back page: committed under its original SEQ when no newer page of its block is staged here, and durable at once (R267, R307). -/
def takeHanded (s : State) (m : PageMsg) : State :=
  if m.r.kind = 1 && (indexedRecs s).any fun x => x.2.2.kind == 1 && x.2.2.ns == m.r.ns && x.2.2.lba == m.r.lba
      && decide (m.r.seq ≤ x.2.2.seq) then s
  else match freePage s with
    | none => s
    | some p =>
      let s := supersede (setOwn s p { st := .committed, rc := some m.r, blk := m.blk, unmir := true, at_ := s.now }) p m.r
      if m.r.kind = 1 then freeSuperseded s m.r.ns m.r.lba else s

/-- The pages a namespace's old owner hands back: all of them, or none while there is no room (R307). -/
def handback (s : State) (g ns : Nat) (pages : List PageMsg) : State :=
  if !(grpOf s g).owned || !(grpOf s g).await.contains ns || ownFree s < pages.length then s
  else awaitEnd (noteOccupancy (pages.foldl takeHanded s)) g ns false

/-- The new owner confirms the hand-back: every orphan of the group goes (R307). -/
def handbackDone (s : State) (g : Nat) : State :=
  let ps := s.coc.own.filterMap fun x => match x.2.rc with
    | some r => if r.group == g && x.2.orphan then some x.1 else none
    | none => none
  if ps.isEmpty then s
  else writeEvent (noteOccupancy (ps.foldl (fun s p => setOwn s p {}) s)) { num := 0x070C, inst := g, detail := [g, ps.length] }

/-! ### Repairs (R312, R548) -/

/-- A line is repaired from a second copy. -/
def lineRepaired (s : State) (addr : Nat) : State :=
  writeEvent (rcAdd s 0x80030 0 1) { num := 0x0707, detail := [addr] }

/-- A record the scan could not use has come back from the partner: kept under the newest-page rule (R548). -/
def unusBack (s : State) (p : Nat) (m : PageMsg) : State :=
  let s := keepPage (setOwn s p { rc := some m.r, blk := m.blk }) (p, m.r)
  let s := setOwn s p { ownPg s p with orphan := !(grpOf s m.r.group).owned }
  let l := recList s.coc.own
  (l.filter fun x => recOutdated l x.2 && x.2.kind == 1 && x.2.ns == m.r.ns && x.2.lba == m.r.lba).foldl
    (fun s x => releasePage s false x.1) s

/-- A line fetched from the partner (R312, R548). -/
def lineFetched (s : State) (p : Nat) (isRec : Bool) (got : Option PageMsg) : State :=
  if !s.coc.fetches.contains (p, isRec) then s
  else
    let s := { s with coc := { s.coc with fetches := s.coc.fetches.filter (· != (p, isRec)) } }
    let g := ownPg s p
    let s := if g.st = .free then s else match got with
      | some m =>
        if g.unus then
          if 1 ≤ m.r.kind ∧ m.r.kind ≤ 3 then lineRepaired (unusBack s p m) (pageAddr false p true) else recordLost s p
        else if isRec then lineRepaired (setOwn s p { g with rc := some m.r }) (pageAddr false p true)
        else lineRepaired (setOwn s p { g with blk := m.blk, poison := false }) (pageAddr false p false)
      | none => if isRec then recordLost s p else setOwn s p { g with poison := true }
    resumeAll s .repair fun _ => true

/-! ### Counters (R309) -/

/-- A reservation becomes usable: the commands that waited for it go on. -/
def reserveReady (s : State) (slot : Nat) : State :=
  let r := ctrRun s slot
  match r.await with
  | none => s
  | some lim => resumeAll (setRun s slot { r with limit := lim, await := none }) .counter fun c => c.ns == slot

/-- The partner's echo of a reservation. -/
def reserveEcho (s : State) (slot lim : Nat) : State :=
  if (ctrRun s slot).await = some lim then reserveReady s slot else s

/-! ### Lines by their address (R281, R311 to R314) -/

/-- A lasting fault on a line that belongs to no page: the header, the counter area, the catalog, the boot region and the event ring by
their own rules, any other line rewritten or marked with poison (R312). -/
def areaFault (s : State) (addr : Nat) : State :=
  let s := writeEvent (rcAdd s 0x8002C 0 1) { num := 0x0706, detail := [addr, partOf addr] }
  if addr < 0x1E0000000 then { s with coc := { s.coc with poison := (addr :: s.coc.poison).eraseDups } }
  else if addr < 0x1E4000000 then
    let k := (addr - 0x1E0000000) / 256
    match tget s.evr.ring .empty k with
    | .ok r => { s with evr := { s.evr with ring := tput s.evr.ring .empty k (.bad r.seq) } }
    | _ => s
  else if addr < 0x1E4000040 then
    if s.coc.hdrB then lineRepaired s addr else fatal { s with coc := { s.coc with hdrA := false } } 7 0
  else if decide (0x1E4001000 ≤ addr) && decide (addr < 0x1E4001040) then
    if s.coc.hdrA then lineRepaired s addr else fatal { s with coc := { s.coc with hdrB := false } } 7 0
  else if decide (0x1EB100000 ≤ addr) && decide (addr < 0x1EB500000) then
    if partnerAnswers s then lineRepaired s addr else loseCounter s ((addr - 0x1EB100000) / 64)
  else if decide (0x1EB500000 ≤ addr) && decide (addr < 0x1ED500000) then
    if partnerAnswers s then lineRepaired s addr else { s with coc := { s.coc with poison := (addr :: s.coc.poison).eraseDups } }
  else if decide (0x1ED500000 ≤ addr) && decide (addr < 0x1EE500000) then
    let k := (addr - 0x1ED500000) / 4096
    let line := (addr - 0x1ED500000) % 4096 / 64
    match brSlot s k with
    | .bad o ls => setBr s k (.bad o (if ls.contains line then ls else ls ++ [line]))
    | o => setBr s k (.bad o [line])
  else s

/-- The page and line kind that a cocoon address belongs to: mirror partition, page, record. -/
def pageOfAddr (addr : Nat) : Option (Bool × Nat × Bool) :=
  if addr < 0xE0000000 then some (false, addr / 4096, false)
  else if addr < 0x1C0000000 then some (true, (addr - 0xE0000000) / 4096, false)
  else if decide (0x1E4100000 ≤ addr) && decide (addr < 0x1E7900000) then some (false, (addr - 0x1E4100000) / 64, true)
  else if decide (0x1E7900000 ≤ addr) && decide (addr < 0x1EB100000) then some (true, (addr - 0x1E7900000) / 64, true)
  else none

/-- A line is read: corrected, found good at the reread, or lost (R311, R312). -/
def cocoonLine (s : State) (addr : Nat) (r : LineRead) : State :=
  match pageOfAddr addr with
  | some (m, p, isRec) =>
    let (r, s) := flipRead s (16 + bit m) addr r
    pageLine s m p isRec r
  | none => match r with
    | .clean => s
    | .corrected => lineCorrected s
    | .badThenGood => transient s 7 0 1 0x0706
    | .badTwice => areaFault s addr

/-- The scrubber reads one line; the last line ends the pass (R313). -/
def cocoonScrub (s : State) (addr : Nat) (r : LineRead) : State :=
  let s := cocoonLine s addr r
  if addr / 64 = 2 ^ 27 - 1 then
    { s with coc := { s.coc with scrubPct := 0, scrubPasses := satAdd 0xFFFF s.coc.scrubPasses 1 } }
  else { s with coc := { s.coc with scrubPct := 100 * addr / 2 ^ 33 } }

/-! ### The page window (R317) -/

/-- The page that COC_PAGE_ADDR selects. -/
def windowPage (s : State) : Page := anyPg s (bitAt (rwGet s 0x80100 0) 20) (field (rwGet s 0x80100 0) 0 20)

/-- Its record line as 16 words: zeros for a page without a commit record. -/
def windowRecord (s : State) : List Nat :=
  let g := windowPage s
  let b := recBytes (field (rwGet s 0x80100 0) 0 20) (if g.st = .staged then none else g.rc)
  (List.range 16).map fun i => leNat (((b.drop (4 * i)).take 4).map (BitVec.ofNat 8 ·))

/-- A read of COC_PAGE_REC0 for a path: word 0, the rest snapshot. -/
def pageRecRead (s : State) (p : Path) (atomic : Bool) : Nat × State :=
  ((windowRecord s).headD 0, snapWords s p 0x8010C (rwGet s 0x80100 0) atomic ((windowRecord s).drop 1))

/-! ### Rows -/

def execFormatCocoon (c : Cid) (cdw10 : Nat) (s : State) : Host.Outcome State Fault Refusal := .next (formatCocoon s c cdw10)

/-- The odometer is persisted every 60 s; in Safe nothing but event records is written to the cocoon (R64, R503). -/
def execOdometerPersist (s : State) : Host.Outcome State Fault Refusal := .next (if s.glb.mode = .safe then s else persistOdo s)

/-- ODOMETER_TICK (R503). -/
def execOdometerTick (s : State) : Host.Outcome State Fault Refusal :=
  .next (if s.glb.mode = .held then s else { s with evr := { s.evr with odo := (s.evr.odo + 1) % 2 ^ 40 } })

def execMirrorLineReceive (page : Nat) (blk : Blk) (s : State) : Host.Outcome State Fault Refusal := .next (mirrorLine s page blk)

def execMirrorRecordReceive (page : Nat) (r : CommitRec) (crc : Nat) (s : State) : Host.Outcome State Fault Refusal :=
  .next (mirrorRecord s page r crc)

def execMirrorResetReceive (g : Nat) (s : State) : Host.Outcome State Fault Refusal :=
  onGroup g s fun s => if mirrorOpen s then mirrorReset s g else s

/-- INDEX_REBUILD_DONE (R298). -/
def execIndexRebuildDone (s : State) : Host.Outcome State Fault Refusal :=
  .next (if s.coc.rebuildIx then
    resumeAll (writeEvent { s with coc := { s.coc with rebuildIx := false } } { num := 0x070D }) .index fun _ => true else s)

/-- FLUSH_STRIPE_START (R300). -/
def execFlushStripeStart (s : State) : Host.Outcome State Fault Refusal :=
  .next (if dataRuns s && !s.coc.protect then flushStart s else s)

/-- FLUSH_AGE_EXPIRY (R300, R367). -/
def execFlushAgeExpiry (chunk stripe : Nat) (s : State) : Host.Outcome State Fault Refusal :=
  .next (if s.coc.aged.contains (chunk, stripe) then s
         else { s with coc := { s.coc with aged := s.coc.aged ++ [(chunk, stripe)] } })

def execMirrorAdoptionDone (g : Nat) (s : State) : Host.Outcome State Fault Refusal := onGroup g s fun s => adoptPages s g

def execHandbackPageReceive (g ns : Nat) (pages : List PageMsg) (s : State) : Host.Outcome State Fault Refusal :=
  onGroup g s fun s => if mirrorOpen s then handback s g ns pages else s

def execHandbackConfirmReceive (g : Nat) (s : State) : Host.Outcome State Fault Refusal :=
  onGroup g s fun s => if mirrorOpen s then handbackDone s g else s

def execLineFetchResponse (page : Nat) (isRec : Bool) (got : Option PageMsg) (s : State) : Host.Outcome State Fault Refusal :=
  .next (lineFetched s page isRec got)

def execCounterReserveEcho (slot lim : Nat) (s : State) : Host.Outcome State Fault Refusal := .next (reserveEcho s slot lim)

def execCounterReserveTimeout (slot : Nat) (s : State) : Host.Outcome State Fault Refusal := .next (reserveReady s slot)

/-- The scrubber; in Safe, where nothing but event records is written to the cocoon, it rests (R64, R313). -/
def execCocoonScrubLine (addr : Nat) (r : LineRead) (s : State) : Host.Outcome State Fault Refusal :=
  if addr < 2 ^ 33 then .next (if s.coc.up && s.glb.mode != .safe then cocoonScrub s addr r else s)
  else .fault (.noSuchInstance "cocoon address")

def execCocPageRecordRead (p : Path) (s : State) : Host.Outcome State Fault Refusal :=
  .next (answerRead s (pageRecRead s p false))

end Sys2Proof.Machine
end

