-- ==== Sys2Proof/Machine/StepDrive.lean ====
section
/-! DEFINITION. Steps of the sequencers that work on drives and stripes: MAP, DREAD, DVERIFY, RECON, and the ROM-only steps of the
flush and rebuild lists (chapters 09, 11, 12). The spec gives the internal lists 264 to 266 no steps of their own (log 12): each
of these rows acts on the internal operation of its context. -/

namespace Sys2Proof.Machine

/-! ### MAP (R324, R326) -/

/-- The chunks a context works on. -/
def ctxChunks (s : State) (c : Ctx) : List Nat :=
  match c.op with
  | some op => ((opStripes op).map Prod.fst).eraseDups
  | none => match nsOf s c.ns with
    | none => []
    | some r => if creg c 1 = 0 then [] else
      (List.range ((creg c 0 + creg c 1 - 1) / 65536 - creg c 0 / 65536 + 1)).map fun i => r.first + creg c 0 / 65536 + i

/-- Take references on the entry of a chunk, and on the placement entry of a federated one (R42, R324). -/
def mapRef (x : State × List (Nat × Nat × Nat)) (e : Nat) : State × List (Nat × Nat × Nat) :=
  let s := x.1
  match tableRef s 2 e with
  | (none, _) => x
  | (some v, s1) =>
    let refs := x.2 ++ [(2, e, v)]
    match chunkEnt s e with
    | some m => if m.fed then match tableRef s1 3 (m.place % 65536) with
        | (some pv, s2) => (s2, refs ++ [(3, m.place % 65536, pv)])
        | (none, _) => (s1, refs)
      else (s1, refs)
    | none => (s1, refs)

/-- The entry of a chunk is poisoned in its DRAM line: it is reloaded from the drives (R326, R493). -/
def mapPoison (s : State) (addr : Nat) (es : List Nat) : State :=
  let s := es.foldl (fun s e => consumePoison s addr 1 e) s
  { s with xfm := { s.xfm with reload := (s.xfm.reload ++ es).eraseDups } }

/-- The references of a MAP step are taken, or it parks while an entry it needs is reloaded (R42, R326). -/
def mapRefs (s : State) (n : Nat) (c : Ctx) (es : List Nat) : State :=
  if es.any fun e => s.xfm.reload.contains e then parkRetry s n c .map 3
  else
    let (s, refs) := es.foldl mapRef (s, [])
    setCtx s n (some { (okHold c) with refs := c.refs ++ refs })

/-- MAP: an uncorrectable entry starts a reload, and the step parks until it ends (R326); a spilled table entry that is poisoned is fatal
(R493). -/
def mapStep (s : State) (n : Nat) (c : Ctx) (r : MapRead) : State :=
  let es := ctxChunks s c
  match r with
  | .tableLost addr => tablePoison s addr ((es.head?).getD 0)
  | .entryLost addr => mapRefs (mapPoison s addr (es.take 1)) n c es
  | .good => mapRefs s n c es

/-! ### Drive reads (R335 to R337, R371) -/

/-- One read of rows of a strip: the chunk's entry and number, the stripe, the member and the rows. -/
structure RdReq where
  e    : Nat
  st   : Nat
  mem  : Nat
  rows : List Nat
  deriving DecidableEq, Repr

/-- Reads of the same strip are one command. -/
def mergeRd (l : List RdReq) : List RdReq :=
  l.foldl (fun acc r =>
    if acc.any fun x => x.e == r.e && x.st == r.st && x.mem == r.mem then
      acc.map fun x => if x.e = r.e ∧ x.st = r.st ∧ x.mem = r.mem then { x with rows := (x.rows ++ r.rows).eraseDups } else x
    else acc ++ [r]) []

/-- Issue one read for a context: to the member's drive, or a STRIP_READ to its shelf (R371); none when the drive has no open slot or
no cells are free. -/
def issueRd (s : State) (v : List (Nat × Nat × Nat)) (n : Nat) (use : DrvUse) (r : RdReq) : Option State :=
  match chunkAt s v r.e with
  | none => none
  | some x =>
    let m := memOf x r.mem
    let lba := driveLba m.start r.st (r.rows.foldl min 15)
    if isRemote m then
      some (fragSend s { tag := 0, typ := 2, ctx := some n, entry := x.place % 65536, member := r.mem, shelf := m.bay - 64, side := 0,
                         tried := [], refused := 0, qp := 0, slot := 0, chunk := r.e, stripe := r.st,
                         lba := driveLba m.start r.st 0, rows := rowMask r.rows, sent := false } [])
    else
      let cells := cellsOf (4160 * r.rows.length)
      match cellAlloc s (if use = .host then 5 else 3) cells with
      | none => none
      | some s =>
        match issueDrive s m.bay use { ctx := some n, opcode := 0x02, bytes := 4160 * r.rows.length, cells := cells }
            [lba, r.rows.length, rowMask r.rows] with
        | (s, true) => some s
        | (_, false) => none

/-- Issue every read, or none. -/
def issueRds (s : State) (v : List (Nat × Nat × Nat)) (n : Nat) (use : DrvUse) (rs : List RdReq) : Option State :=
  rs.foldl (fun acc r => acc.bind fun s => issueRd s v n use r) (some s)

/-- The positions of a row other than one, in reading order: data positions that are present, then parity (R336). -/
def rowOthers (x : MapEnt) (st pos row : Nat) : List Nat :=
  (List.range (x.k + x.m)).filter fun q => q != pos && (decide (x.k ≤ q) || (blockAt x st q row).isSome)

/-- Blocks a row needs for a decode: its present data positions; absent ones count as zeros (R319, R329). -/
def rowNeed (x : MapEnt) (st row : Nat) : Nat := ((List.range x.k).filter fun q => (blockAt x st q row).isSome).length

/-- The member of a position can be read. -/
def posReadable (s : State) (e st : Nat) (x : MapEnt) (pos : Nat) : Bool := memReadable s e st x (memberAt x.k x.m st pos)

/-- Decode one position of a row from the first blocks that pass, in reading order, leaving out `skip`: none when too few pass, else
whether its tag verifies, which it does when every block used holds what was written (R336). -/
def decodeRow (s : State) (x : MapEnt) (p : Place) (rr : RowRead) (skip : Option Nat) : Option Bool :=
  let ok := ((rowOthers x p.stripe p.pos p.row).zip rr.others).filter fun q =>
    posReadable s p.chunk p.stripe x q.1 && q.2.1 && some q.1 != skip
  let used := ok.take (rowNeed x p.stripe p.row)
  if used.length < rowNeed x p.stripe p.row then none else some (used.all fun q => q.2.2)

/-- Reconstruction of a block (R336, steps 1 to 3): the positions to write back, none when no decode verifies. -/
def reconstruct (s : State) (x : MapEnt) (p : Place) (rr : RowRead) : Option (List Nat) :=
  match decodeRow s x p rr none with
  | none => none
  | some true => some [p.pos]
  | some false =>
    if x.m < 2 then none
    else (((List.range (x.k + x.m)).filter fun q => (rowOthers x p.stripe p.pos p.row).contains q).find? fun q =>
      decodeRow s x p rr (some q) == some true).map fun q => [p.pos, q]

/-- Positions read one after another until `need` of them pass R335. -/
def readUntil (l : List (Nat × Bool)) (need : Nat) : List Nat :=
  match l, need with
  | [], _ | _, 0 => []
  | (q, ok) :: r, n + 1 => q :: readUntil r (if ok then n else n + 1)

/-- The reads of positions of a row. -/
def rowRds (x : MapEnt) (p : Place) (qs : List Nat) : List RdReq :=
  qs.map fun q => ⟨p.chunk, p.stripe, memberAt x.k x.m p.stripe q, [p.row]⟩

/-- The reads a decode makes: the other readable positions in order, until it holds enough blocks that pass (R336, step 1). -/
def decodeReads (s : State) (x : MapEnt) (p : Place) (rr : RowRead) : List RdReq :=
  let ps := (rowOthers x p.stripe p.pos p.row).zip (rr.others.map Prod.fst ++ List.replicate 32 true)
  rowRds x p (readUntil (ps.filter fun q => posReadable s p.chunk p.stripe x q.1) (rowNeed x p.stripe p.row))

/-- The reads of a reconstruction: those of its decode, and when the tag fails and M is 2 or more the row's other readable positions too
(R336, step 3). -/
def reconReads (s : State) (x : MapEnt) (p : Place) (rr : RowRead) : List RdReq :=
  if decodeRow s x p rr none == some false && decide (2 ≤ x.m) then
    rowRds x p ((rowOthers x p.stripe p.pos p.row).filter (posReadable s p.chunk p.stripe x))
  else decodeReads s x p rr

/-- A verified block of a drive in the buffer: unwritten blocks read as zeros, a lost one is no data (R322, R334). -/
def bufOfDrive (s : State) (ns : Nat) (d : DriveBlk) : BufBlk :=
  if wiped s ns d then unwrittenBlk
  else match d.kind with
  | 0 => unwrittenBlk
  | 3 => { st := 5 }
  | _ => { st := 3, blk := d.blk }

/-- What DREAD does for each block: the reads it issues, the buffer it leaves, and how many blocks it decodes. Blocks that are in the
buffer stay; those of the cocoon are taken from it; those of a readable member are read; the others are decoded (R337). -/
def dreadPlan (s : State) (v : List (Nat × Nat × Nat)) (ns : Nat) (old : List BufBlk) (rows : List RowRead) (blocks : List Nat) :
    List RdReq × List BufBlk × Nat :=
  match blocks with
  | [] => ([], [], 0)
  | b :: rest =>
    let o := old.headD {}
    if o.st = 1 || o.st = 3 || o.st = 5 then
      let r := dreadPlan s v ns old.tail rows rest
      (r.1, o :: r.2.1, r.2.2)
    else match cocoonBlk s ns b with
      | some k =>
        let r := dreadPlan s v ns old.tail rows rest
        (r.1, k :: r.2.1, r.2.2)
      | none => match nsPlace s v ns b with
        | none =>
          let r := dreadPlan s v ns old.tail rows rest
          (r.1, { st := 5 } :: r.2.1, r.2.2)
        | some (x, p) =>
          let m := memberAt x.k x.m p.stripe p.pos
          if memReadable s p.chunk p.stripe x m then
            let r := dreadPlan s v ns old.tail rows rest
            (⟨p.chunk, p.stripe, m, [p.row]⟩ :: r.1, { st := 2 } :: r.2.1, r.2.2)
          else
            let rr := rows.headD ⟨[], ⟨false, false, 0, 0, 0, 0, {}⟩⟩
            let r := dreadPlan s v ns old.tail rows.tail rest
            let blk : BufBlk := match decodeRow s x p rr none with
              | none => { st := 5 }
              | some false => { st := 4 }
              | some true => bufOfDrive s ns rr.blk
            (decodeReads s x p rr ++ r.1, blk :: r.2.1, r.2.2 + 1)

/-- Park on reads, or go on at once when there are none. -/
def parkReads (s : State) (n : Nat) (c : Ctx) (w : Wait) (tmo k : Nat) : State :=
  if k = 0 then setCtx s n (some { c with flg := flgPark c.flg true false false })
  else parkCtx s n { c with out := k, bad := false } w tmo

/-- DREAD of a command (R253, R337): a read that finds no open slot is issued when the step is taken again. -/
def dreadStep (s : State) (n : Nat) (c : Ctx) (w : StepW) (rows : List RowRead) : State :=
  let plan := dreadPlan s c.refs c.ns c.buf rows (ctxBlocks c)
  let rds := mergeRd plan.1
  match issueRds s c.refs n .host rds with
  | none => s
  | some s => parkReads (rcAdd s 0x90028 0 plan.2.2) n { c with buf := plan.2.1 } .drives w.tmo rds.length

/-- The blocks that are verified by DVERIFY take what the drives returned: checked, decrypted and their tags compared (R335). -/
def verifyBufs (s : State) (ns : Nat) (buf : List BufBlk) (found : List DriveBlk) : List BufBlk :=
  match buf with
  | [] => []
  | b :: r =>
    if b.st = 2 then
      let d := found.headD ⟨false, false, 0, 0, 0, 0, {}⟩
      (if drivePasses s ns d then bufOfDrive s ns d else { st := 4 }) :: verifyBufs s ns r found.tail
    else b :: verifyBufs s ns r found

/-- DVERIFY: first failures are counted; a second attempt that passes is transient (R35, R253). -/
def dverifyStep (s : State) (n : Nat) (c : Ctx) (w : StepW) (found : List DriveBlk) : State :=
  let buf := verifyBufs s c.ns c.buf found
  let opened := ((c.buf.zip buf).filter fun x => x.1.st == 2 && x.2.st == 3 && !x.2.unw).length
  let failed := (buf.filter fun b => b.st == 4).length
  let ok := buf.all fun b => b.st == 1 || b.st == 3
  let again := bitAt w.flags 0
  let s := count s 0x0802 none none opened
  let s := if again then (if ok then transient (rcAdd s 0x90018 0 1) 8 c.ns 1 0x0806 else s) else rcAdd s 0x90014 0 failed
  let c := { c with buf := buf, flg := flgVerify c.flg ok }
  setCtx s n (some (if ok then c else setReg c 15 (statusWord .unrecoveredRead)))

/-- The plan of a reconstruction: what each failed block becomes, and the reads it makes (R336). -/
def reconPlan (s : State) (v : List (Nat × Nat × Nat)) (ns : Nat) (buf : List BufBlk) (rows : List RowRead) (blocks : List Nat) : List RdReq × List BufBlk :=
  match buf, blocks with
  | b :: bs, l :: ls =>
    if b.st = 4 then
      let rr := rows.headD ⟨[], ⟨false, false, 0, 0, 0, 0, {}⟩⟩
      let r := reconPlan s v ns bs rows.tail ls
      match nsPlace s v ns l with
      | none => (r.1, b :: r.2)
      | some (x, p) =>
        (reconReads s x p rr ++ r.1, (match reconstruct s x p rr with | some _ => bufOfDrive s ns rr.blk | none => b) :: r.2)
    else
      let r := reconPlan s v ns bs rows ls
      (r.1, b :: r.2)
  | _, _ => ([], buf)

/-- RECON (R336): a block known as lost fails the command without a reconstruction (R334). -/
def reconStep (s : State) (n : Nat) (c : Ctx) (w : StepW) (rows : List RowRead) : State :=
  let plan := reconPlan s c.refs c.ns c.buf rows (ctxBlocks c)
  let rds := mergeRd plan.1
  match issueRds s c.refs n .host rds with
  | none => s
  | some s =>
    let c := { c with plan := plan.2 }
    if rds.isEmpty then reconArrive (parkCtx s n c .recon w.tmo) n c
    else parkCtx s n { c with out := rds.length, bad := false } .recon w.tmo

/-! ### The stripe engine (R329 to R334, R339, R346) -/

/-- One row of a stripe to be written: the new coded blocks by position, and whether it is marked for recompute (R332). -/
structure RowWork where
  e      : Nat
  st     : Nat
  row    : Nat
  news   : List (Nat × Nat)
  recomp : Bool
  deriving DecidableEq, Repr

/-- The rows that a flush of pages writes. -/
def flushRows (s : State) (v : List (Nat × Nat × Nat)) (e st : Nat) (ps : List (Bool × Nat)) : List RowWork :=
  let items := ps.filterMap fun x => match (anyPg s x.1 x.2).rc with
    | some r => (nsPlace s v r.ns r.lba).map fun y => (y.2, codePage s (anyPg s x.1 x.2) r)
    | none => none
  let recomp := s.coc.recomp.contains (e, st) || ps.any fun x => x.1 || (anyPg s x.1 x.2).kept
  (List.range 16).filterMap fun row =>
    let news := (items.filter fun i => i.1.row == row).map fun i => (i.1.pos, i.2)
    if news.isEmpty then none else some ⟨e, st, row, news, recomp⟩

/-- Every present data block of a stripe lies in a range. -/
def stripeInside (x : MapEnt) (st lo len : Nat) : Bool :=
  (List.range x.k).all fun pos => match blockAt x st pos 0 with
    | none => true
    | some b => decide (lo ≤ b) && decide (b + 16 ≤ lo + len)

/-- The stripes of a range record that it covers whole, and those it covers in part (R333). -/
def rangeSplit (s : State) (v : List (Nat × Nat × Nat)) (r : CommitRec) (sts : List (Nat × Nat)) : List (Nat × Nat) × List (Nat × Nat) :=
  sts.partition fun k => match chunkAt s v k.1 with
    | some x => stripeInside x k.2 r.lba r.len
    | none => false

/-- The rows of the partly covered stripes: their blocks become unwritten. -/
def rangeRows (s : State) (v : List (Nat × Nat × Nat)) (r : CommitRec) (sts : List (Nat × Nat)) : List RowWork :=
  (rangeSplit s v r sts).2.flatMap fun k => match chunkAt s v k.1 with
    | none => []
    | some x => (List.range 16).filterMap fun row =>
      let news := (List.range x.k).filterMap fun pos => match blockAt x k.2 pos row with
        | some b => if r.lba ≤ b ∧ b < r.lba + r.len then some (pos, 0) else none
        | none => none
      if news.isEmpty then none else some ⟨k.1, k.2, row, news, s.coc.recomp.contains k⟩

/-- The method of a row (R331): 0 full stripe, 1 read-modify-write, 2 reconstruct-write. -/
def rowMethod (x : MapEnt) (full : Bool) (w : RowWork) : Nat :=
  if full then 0 else if 2 * w.news.length ≤ x.k && !w.recomp then 1 else 2

/-- Every present data position of every row of a stripe has a new block. -/
def fullWork (x : MapEnt) (st : Nat) (ws : List RowWork) : Bool :=
  (List.range 16).all fun row => decide (rowNeed x st row = 0) ||
    ws.any fun w => w.st == st && w.row == row && decide (w.news.length = rowNeed x st row)

/-- The rows of an operation, with their chunk entries and methods. -/
def opRows (s : State) (v : List (Nat × Nat × Nat)) (op : IntOp) : List (RowWork × MapEnt × Nat) :=
  let ws := match op with
    | .flush e st ps => flushRows s v e st ps
    | .range m p sts => match (anyPg s m p).rc with
      | some r => rangeRows s v r sts
      | none => []
    | _ => []
  ws.filterMap fun w => (chunkAt s v w.e).map fun x => (w, x, rowMethod x (fullWork x w.st (ws.filter fun u => u.e == w.e)) w)

/-- The reads of one row of a flush (R331): the old data and parity, or the unchanged data. -/
def rowReads (s : State) (w : RowWork) (x : MapEnt) (method : Nat) : List RdReq :=
  let pos := match method with
    | 0 => []
    | 1 => w.news.map Prod.fst ++ (List.range x.m).map fun i => x.k + i
    | _ => (List.range x.k).filter fun q => (blockAt x w.st q w.row).isSome && !(w.news.any fun v => v.1 == q)
  (pos.filter (posReadable s w.e w.st x)).map fun q => ⟨w.e, w.st, memberAt x.k x.m w.st q, [w.row]⟩

/-- The reads of an internal operation: a flush its old blocks, a rebuild what it decodes from, a rekey every data block. -/
def opReads (s : State) (v : List (Nat × Nat × Nat)) (op : IntOp) : List RdReq :=
  let all := fun (e st : Nat) (skip : Option Nat) => match chunkAt s v e with
    | none => []
    | some x => (List.range 16).flatMap fun row =>
      (((List.range (x.k + x.m)).filter fun q => some q != skip && (decide (x.k ≤ q) || (blockAt x st q row).isSome)
        && posReadable s e st x q).take (rowNeed x st row)).map fun q => ⟨e, st, memberAt x.k x.m st q, [row]⟩
  match op with
  | .flush _ _ _ | .range _ _ _ => (opRows s v op).flatMap fun x => rowReads s x.1 x.2.1 x.2.2
  | .rebuild g e st => match chunkAt s v e with
    | some x => match slotOfBay x (rbOf s g).target with
      | some i => all e st (some (posOfMember x.k x.m st i))
      | none => []
    | none => []
  | .fedRebuild _ slot e st => match chunkAt s v e with
    | some x => all e st (some (posOfMember x.k x.m st slot))
    | none => []
  | .rekey _ e st => all e st none
  | _ => []

/-- The namespace of a chunk. -/
def chunkNs (x : MapEnt) : Nat := x.ns

/-- A block of a row is good to use: its member is readable and it passes R335, or is intact parity. -/
def rowGood (s : State) (e st : Nat) (x : MapEnt) (q : Nat) (d : DriveBlk) : Bool :=
  posReadable s e st x q && (if x.k ≤ q then d.good else drivePasses s x.ns d)

/-- The block of a position in what was read of a row. -/
def rowBlk (old : List DriveBlk) (q : Nat) : DriveBlk := (old[q]?).getD ⟨false, false, 0, 0, 0, 0, {}⟩

/-- The coded block a data position of a row holds: read, or decoded from enough good blocks (R336); zeros when absent; none when it can be
had neither way. -/
def rowData (s : State) (e st row : Nat) (x : MapEnt) (old : List DriveBlk) (q : Nat) : Option Nat :=
  match blockAt x st q row with
  | none => some 0
  | some b =>
    let hasPi := match nsOf s x.ns with | some r => r.pi != 0 | none => false
    let code := codeDrive s (rowBlk old q) hasPi b
    if rowGood s e st x q (rowBlk old q) then some code
    else if rowNeed x st row ≤ ((rowOthers x st q row).filter fun o => rowGood s e st x o (rowBlk old o)).length then some code
    else none

/-- Every data position of a row, with the new blocks in place; none when one cannot be had. -/
def rowAll (s : State) (e st row : Nat) (x : MapEnt) (old : List DriveBlk) (news : List (Nat × Nat)) : Option (List (Nat × Nat)) :=
  (List.range x.k).foldr (fun q acc =>
    match acc, (match news.find? fun v => v.1 == q with
      | some v => some v.2
      | none => rowData s e st row x old q) with
    | some l, some v => some ((q, v) :: l)
    | _, _ => none) (some [])

/-- Encode one row (R331): the new data blocks and its parity, and the method that was used; a read-modify-write that finds an old block
bad falls back to reconstruct-write. -/
def encodeRow (s : State) (w : RowWork) (x : MapEnt) (method : Nat) (old : List DriveBlk) : Option (List StripBlk × Nat) :=
  let mk := fun (par : Nat → Nat) =>
    (w.news.map fun v => (⟨w.e, w.st, v.1, w.row, v.2⟩ : StripBlk))
    ++ (List.range x.m).map fun i => ⟨w.e, w.st, x.k + i, w.row, par i⟩
  let rmw := method = 1 && (w.news.all fun v => rowGood s w.e w.st x v.1 (rowBlk old v.1))
    && ((List.range x.m).all fun i => rowGood s w.e w.st x (x.k + i) (rowBlk old (x.k + i))
        || !memWritable s w.e w.st x (memberAt x.k x.m w.st (x.k + i)))
  if rmw then
    let diff := w.news.map fun v => (v.1, v.2 ^^^ (rowData s w.e w.st w.row x old v.1).getD 0)
    some (mk fun i => (rowBlk old (x.k + i)).blk.data ^^^ parityOf x.m i diff, 1)
  else (rowAll s w.e w.st w.row x old w.news).map fun all => (mk fun i => parityOf x.m i all, if method = 0 then 0 else 2)

/-- Encode the rows of a flush, the old blocks standing row by row, all K + M positions of each row that needs a read. -/
def encodeRows (s : State) (rows : List (RowWork × MapEnt × Nat)) (olds : List DriveBlk) : Option (List StripBlk × List (Nat × Nat × Nat)) :=
  match rows with
  | [] => some ([], [])
  | (w, x, m) :: rest =>
    let len := if m = 0 then 0 else x.k + x.m
    match encodeRow s w x m (olds.take len), encodeRows s rest (olds.drop len) with
    | some (b, used), some (bs, ms) => some (b ++ bs, (w.e, w.st, used) :: ms)
    | _, _ => none

/-- The strip of one position, all rows, decoded or encoded from what was read (R339, R372). -/
def memberStrip (s : State) (e st pos : Nat) (x : MapEnt) (olds : List DriveBlk) : Option (List StripBlk) :=
  (List.range 16).foldr (fun row acc =>
    let old := (olds.drop (row * (x.k + x.m))).take (x.k + x.m)
    match acc with
    | none => none
    | some l =>
      if pos < x.k then match blockAt x st pos row with
        | none => some l
        | some _ => (rowData s e st row x (old.set pos { (rowBlk old pos) with good := false }) pos).map fun v =>
            ⟨e, st, pos, row, v⟩ :: l
      else (rowAll s e st row x old []).map fun all => ⟨e, st, pos, row, parityOf x.m (pos - x.k) all⟩ :: l) (some [])

/-- The blocks of a stripe that carry the previous epoch of a slot: row, position, namespace block and content. -/
def oldEpoch (s : State) (slot e st : Nat) (x : MapEnt) (olds : List DriveBlk) : List (Nat × Nat × Nat × DriveBlk) :=
  let prev := match (tget s.cat.keys {} slot).prev with | some p => p.1 | none => 0
  (List.range 16).flatMap fun row => (List.range x.k).filterMap fun pos =>
    let d := rowBlk ((olds.drop (row * (x.k + x.m))).take (x.k + x.m)) pos
    match blockAt x st pos row with
    | some b => if (d.kind = 1 ∨ d.kind = 2) ∧ d.epoch = prev then some (row, pos, b, d) else none
    | none => none

/-- A stripe rewritten whole with the blocks of the previous epoch sealed under the present key (R346, step 3); `ctr` is the first of
their counters. -/
def rekeyStrips (s : State) (slot e st : Nat) (x : MapEnt) (olds : List DriveBlk) (ctr : Nat) : Option (List StripBlk) :=
  let k := tget s.cat.keys {} slot
  let key := k.cur.getD 0
  let hasPi := match nsOf s slot with | some r => r.pi != 0 | none => false
  let moved := (oldEpoch s slot e st x olds).zipIdx.map fun v =>
    let pi := if hasPi then piBytes v.1.2.2.2.blk else 0
    let c := ctr + v.2
    (v.1.1, v.1.2.1, codeBlk (sealed (v.1.2.2.2.kind == 1) key slot k.epoch c v.1.2.2.2.blk.data)
      (metaCode v.1.2.2.2.kind hasPi slot k.epoch c (tagOf key slot k.epoch c v.1.2.2.1 pi v.1.2.2.2.blk.data) pi))
  (List.range 16).foldr (fun row acc =>
    let old := (olds.drop (row * (x.k + x.m))).take (x.k + x.m)
    match acc, rowAll s e st row x old ((moved.filter fun v => v.1 == row).map fun v => (v.2.1, v.2.2)) with
    | some l, some all =>
      some ((all.filter fun v => (blockAt x st v.1 row).isSome).map (fun v => (⟨e, st, v.1, row, v.2⟩ : StripBlk))
        ++ ((List.range x.m).map fun i => ⟨e, st, x.k + i, row, parityOf x.m i all⟩) ++ l)
    | _, _ => none) (some [])

/-- Only blocks of members that take writes are written; a Rebuilding member below its progress, and the target of the rebuild itself,
are (R334, R339). -/
def writableStrips (s : State) (v : List (Nat × Nat × Nat)) (l : List StripBlk) (target : Option Nat) : List StripBlk :=
  l.filter fun b => match chunkAt s v b.chunk with
    | some x =>
      let m := memberAt x.k x.m b.stripe b.pos
      memWritable s b.chunk b.stripe x m || (some m == target && (memOf x m).st == .rebuilding)
    | none => false

/-- Count a flushed stripe once, under its costliest method (R350). -/
def countStripes (s : State) (ms : List (Nat × Nat × Nat)) : State :=
  ((ms.map fun x => (x.1, x.2.1)).eraseDups).foldl (fun s k =>
    let worst := (ms.filter fun x => x.1 == k.1 && x.2.1 == k.2).foldl (fun a x => max a x.2.2) 0
    rcAdd s (0x90008 + 4 * worst) 0 1) s

/-- Poisoned pages are flushed as lost blocks, counted and recorded (R312). -/
def lostPages (s : State) (ps : List (Bool × Nat)) : State :=
  ps.foldl (fun s x => match (anyPg s x.1 x.2).poison, (anyPg s x.1 x.2).rc with
    | true, some r => writeEvent (rcAdd s 0x80034 0 1) { num := 0x0708, inst := r.ns, detail := [r.ns, r.lba] }
    | _, _ => s) s

/-- The unwritten blocks of the whole stripes of a range on members of other shelves: a shelf is asked for nothing but strip writes (R333, R364,
DEDUCED, log 26). -/
def remoteZeros (s : State) (v : List (Nat × Nat × Nat)) (m : Bool) (p : Nat) (sts : List (Nat × Nat)) : List StripBlk :=
  match (anyPg s m p).rc with
  | none => []
  | some r => (rangeSplit s v r sts).1.flatMap fun k => match chunkAt s v k.1 with
    | none => []
    | some x => ((List.range (x.k + x.m)).filter fun pos => isRemote (memOf x (memberAt x.k x.m k.2 pos))).flatMap fun pos =>
      ((List.range 16).filter fun row => decide (x.k ≤ pos) || (blockAt x k.2 pos row).isSome).map fun row => ⟨k.1, k.2, pos, row, 0⟩

/-- PARITY prepares the strips of its operation (R329 to R333, R339, R346); a row that cannot be decoded fails it. -/
def parityStep (s : State) (n : Nat) (c : Ctx) (olds : List DriveBlk) : State :=
  let bad := fun (s : State) => setCtx s n (some (failWith c .unrecoveredRead))
  let good := fun (s : State) (l : List StripBlk) (t : Option Nat) =>
    setCtx s n (some { (okHold c) with strips := writableStrips s c.refs l t })
  let area := fun (s : State) (l : List StripBlk) => { s with coc := { s.coc with rbArea := s.coc.rbArea ++ l } }
  match c.op with
  | some (.flush e st ps) => match encodeRows s (opRows s c.refs (.flush e st ps)) olds with
    | some (l, ms) => good (lostPages (countStripes s ms) ps) l none
    | none => bad s
  | some (.range m p sts) => match encodeRows s (opRows s c.refs (.range m p sts)) olds with
    | some (l, ms) => good (countStripes s ms) (remoteZeros s c.refs m p sts ++ l) none
    | none => bad s
  | some (.rebuild g e st) => match chunkAt s c.refs e with
    | some x => match slotOfBay x (rbOf s g).target with
      | some i => match memberStrip s e st (posOfMember x.k x.m st i) x olds with
        | some l => good (area s l) l (some i)
        | none => bad s
      | none => bad s
    | none => bad s
  | some (.fedRebuild _ i e st) => match chunkAt s c.refs e with
    | some x => match memberStrip s e st (posOfMember x.k x.m st i) x olds with
      | some l => good (area s l) l (some i)
      | none => bad s
    | none => bad s
  | some (.rekey slot e st) => match chunkAt s c.refs e with
    | some x =>
      let k := (oldEpoch s slot e st x olds).length
      if k = 0 then good s [] none
      else match takeCtrs s slot k with
        | (.from_ ctr, s) => match rekeyStrips s slot e st x olds ctr with
          | some l => good (count s 0x0801 none none k) l none
          | none => bad s
        | (.wait, s) => parkRetry s n c .counter 3
        | (.exhausted, s) => setCtx s n (some (failWith c (.vendor 0xEF)))
    | none => bad s
  | _ => setCtx s n (some (okHold c))

/-! ### DWRITE, FRAG, DZERO, CRELEASE (R333, R334, R365, R368) -/

/-- The strips a context has prepared, by chunk, stripe and member: those on other shelves, or those of this one. -/
def stripGroups (s : State) (c : Ctx) (remote : Bool) : List (Nat × Nat × Nat) :=
  (c.strips.filterMap fun b => match chunkAt s c.refs b.chunk with
    | some x =>
      let i := memberAt x.k x.m b.stripe b.pos
      if isRemote (memOf x i) = remote then some (b.chunk, b.stripe, i) else none
    | none => none).eraseDups

/-- The stripe an operation settles on when it has nothing to write. -/
def opStripe (c : Ctx) : Nat × Nat :=
  match c.op with
  | some op => (opStripes op).headD (0, 0)
  | none => (0, 0)

/-- Write strip groups: one write for each member, all or none; a member whose drive is absent fails both its attempts at once
(R424). -/
def writeGroups (s : State) (n : Nat) (c : Ctx) (tmo : Nat) (gs : List (Nat × Nat × Nat)) (w : Wait) : State :=
  let entOf := fun (s : State) (t : Nat × Nat × Nat) => (chunkAt s c.refs t.1).getD {}
  let gone := gs.filter fun t => !drivePresent s (memOf (entOf s t) t.2.2).bay
  let live := gs.filter fun t => drivePresent s (memOf (entOf s t) t.2.2).bay
  let written := live.foldl (fun (acc : Option State) t => acc.bind fun s =>
    let x := entOf s t
    match stripWrite s (useOf c) x t.1 t.2.1 t.2.2 (memberBlks c x t.1 t.2.1 t.2.2) with
    | (s, true) => some s
    | (_, false) => none) (some s)
  match written with
  | none => s
  | some s =>
    let drop := gone.flatMap fun t => memberBlks c (entOf s t) t.1 t.2.1 t.2.2
    let c := { c with strips := c.strips.filter fun b => !drop.contains b, out := live.length, bad := false }
    let s := gone.foldl (fun s t => loseMember s (entOf s t) t.1 t.2.2) (parkCtx s n c w tmo)
    if live.isEmpty then stripeSettled s n (opStripe c).1 (opStripe c).2 c else s

/-- DWRITE: the strips on this shelf; of a hosted request, its rows (R334, R365). -/
def dwriteStep (s : State) (n : Nat) (c : Ctx) (w : StepW) : State :=
  match c.op with
  | some (.inbound qp slot) => match hostedOf s qp slot with
    | none => setCtx s n (some (okHold c))
    | some h =>
      if h.reading then setCtx s n (some (okHold c)) else
      match hostedWrite s n h with
      | (s, true) => parkCtx s n { c with out := 1, bad := false } .writes w.tmo
      | (_, false) =>
        if drivePresent s h.spoke then s
        else hostedArrive { s with fed := { s.fed with hosted := s.fed.hosted.map fun x =>
               if x.qp = qp ∧ x.slot = slot then { x with retried := true } else x } } n c qp slot false
  | _ => writeGroups s n c w.tmo (stripGroups s c false) .writes

/-- FRAG: the strips on other shelves, as STRIP_WRITEs (R368). -/
def fragStep (s : State) (n : Nat) (c : Ctx) : State :=
  let gs := stripGroups s c true
  if gs.isEmpty then setCtx s n (some { c with flg := flgPark c.flg true false false }) else writeGroups s n c 3 gs .frag

/-- The whole stripes of a range by chunk: first and last stripe. -/
def wholeRuns (sts : List (Nat × Nat)) : List (Nat × Nat × Nat) :=
  ((sts.map Prod.fst).eraseDups).map fun e =>
    let l := (sts.filter fun k => k.1 == e).map Prod.snd
    (e, l.foldl min 65536, l.foldl max 0)

/-- DZERO: zeros with deallocate over the extents of the whole stripes of a range, on every member that takes writes (R333). -/
def dzeroStep (s : State) (n : Nat) (c : Ctx) (w : StepW) : State :=
  match c.op with
  | some (.range m p sts) => match (anyPg s m p).rc with
    | none => setCtx s n (some (okHold c))
    | some r =>
      let jobs := (wholeRuns (rangeSplit s c.refs r sts).1).flatMap fun k => match chunkAt s c.refs k.1 with
        | none => []
        | some x => ((List.range (x.k + x.m)).filter fun i => memWritable s k.1 k.2.1 x i && !isRemote (memOf x i)).map fun i => (k, x, i)
      let gone := jobs.filter fun j => !drivePresent s (memOf j.2.1 j.2.2).bay
      let live := jobs.filter fun j => drivePresent s (memOf j.2.1 j.2.2).bay
      let done := live.foldl (fun (acc : Option State) j => acc.bind fun s =>
        let mb := memOf j.2.1 j.2.2
        let lba := driveLba mb.start j.1.2.1 0
        let len := 16 * (j.1.2.2 - j.1.2.1 + 1)
        match issueDrive s mb.bay .flush { ctx := some n, opcode := 0x08 } [lba, len] with
          | (s, true) => some s
          | (_, false) => none) (some s)
      match done with
      | none => s
      | some s =>
        let s := gone.foldl (fun s j => loseMember s j.2.1 j.1.1 j.2.2) s
        if live.isEmpty then setCtx s n (some { c with committed := true, flg := flgPark c.flg true false false })
        else parkCtx s n { c with out := live.length, bad := false } .zero w.tmo
  | _ => setCtx s n (some (okHold c))

/-- Release a page of a confirmed flush and drop the flush's pin: Flushing, Flushed, Free (R290). -/
def releaseFlushed (s : State) (x : Bool × Nat) : State :=
  let g := anyPg s x.1 x.2
  let s := match g.rc with
    | some r => count s 0x0702 (some r.group)
    | none => s
  let s := if !x.1 && g.st = .flushing then setOwn s x.2 { g with st := .flushed } else s
  unpinPage (releasePage s x.1 x.2) x.1 x.2

/-- CRELEASE: the pages of a confirmed stripe, or of a range record that has been applied whole (R290, R333). -/
def creleaseStep (s : State) (n : Nat) (c : Ctx) : State :=
  match c.op with
  | some (.flush e st ps) =>
    if c.durable then setCtx (ps.foldl releaseFlushed s) n (some { (okHold c) with op := some (.flush e st []) })
    else setCtx s n (some (okHold c))
  | some (.range m p sts) => match (anyPg s m p).rc with
    | none => setCtx s n (some (okHold c))
    | some r =>
      let parts := rangeSplit s c.refs r sts
      if (parts.1.isEmpty || c.committed) && ((parts.2.isEmpty && (remoteZeros s c.refs m p sts).isEmpty) || c.durable) then
        setCtx (releaseFlushed (vacate s (.range m p sts)) (m, p)) n (some { (okHold c) with op := some .nothing })
      else setCtx s n (some (okHold c))
  | _ => setCtx s n (some (okHold c))

/-- DREAD of an internal operation: the reads its stripe needs. -/
def dreadOp (s : State) (n : Nat) (c : Ctx) (w : StepW) (op : IntOp) : State :=
  match op with
  | .inbound qp slot => match hostedOf s qp slot with
    | none => setCtx s n (some (okHold c))
    | some h =>
      if !h.reading then setCtx s n (some (okHold c))
      else match issueDrive s h.spoke .flush { ctx := some n, opcode := 0x02, bytes := 4160 * (rowList h.rows).length } [h.lba, h.rows] with
        | (s, true) => parkCtx s n { c with out := 1, bad := false } .drives w.tmo
        | (_, false) => if drivePresent s h.spoke then s else hostedArrive s n c qp slot false
  | _ =>
  let rds := mergeRd (opReads s c.refs op)
  match issueRds s c.refs n (useOf c) rds with
  | none => s
  | some s => parkReads s n c .drives w.tmo rds.length

/-! ### Rows -/

def execMap (n : Nat) (w : StepW) (r : MapRead) (s : State) : Host.Outcome State Fault Refusal :=
  .next (runStep s n 0x50 w fun c s => mapStep s n c r)

def execDread (n : Nat) (w : StepW) (rows : List RowRead) (s : State) : Host.Outcome State Fault Refusal :=
  .next (runStep s n 0x51 w fun c s => match c.op with
    | some op => dreadOp s n c w op
    | none => dreadStep s n c w rows)

def execDverify (n : Nat) (w : StepW) (found : List DriveBlk) (s : State) : Host.Outcome State Fault Refusal :=
  .next (runStep s n 0x52 w fun c s => dverifyStep s n c w found)

def execRecon (n : Nat) (w : StepW) (rows : List RowRead) (s : State) : Host.Outcome State Fault Refusal :=
  .next (runStep s n 0x53 w fun c s => reconStep s n c w rows)

def execDwrite (n : Nat) (w : StepW) (s : State) : Host.Outcome State Fault Refusal :=
  .next (runStep s n 0x54 w fun c s => dwriteStep s n c w)

def execParity (n : Nat) (w : StepW) (olds : List DriveBlk) (s : State) : Host.Outcome State Fault Refusal :=
  .next (runStep s n 0x55 w fun c s => parityStep s n c olds)

def execDzero (n : Nat) (w : StepW) (s : State) : Host.Outcome State Fault Refusal :=
  .next (runStep s n 0x56 w fun c s => dzeroStep s n c w)

def execFrag (n : Nat) (w : StepW) (s : State) : Host.Outcome State Fault Refusal :=
  .next (runStep s n 0x57 w fun c s => fragStep s n c)

def execCrelease (n : Nat) (w : StepW) (s : State) : Host.Outcome State Fault Refusal :=
  .next (runStep s n 0x58 w fun c s => creleaseStep s n c)

end Sys2Proof.Machine
end

