-- ==== Sys2Proof/Machine/Xfm.lean ====
section
/-! DEFINITION. The rows of the stripe engine's own work: map reload, rebuild, rekey and write-back, and their management commands
(chapter 11). -/

namespace Sys2Proof.Machine

/-- A reloaded map entry (R326): the drives' entry with the journal's changes, and the parked MAP steps of the chunk resume. -/
def mapReload (s : State) (e : Nat) : State :=
  if !s.xfm.reload.contains e then s
  else
    let s := { s with xfm := { s.xfm with reload := s.xfm.reload.filter (· != e) } }
    let s := writeEvent s { num := 0x080C, detail := [e] }
    resumeAll s .map fun c => (ctxChunks s c).contains e

/-- A spare bay of a group that a rebuild may take: its drive is present and a member of no chunk, and no rebuild has it as target
(R338). The lowest is taken (DESIGN CHOICE, log 18). -/
def spareFor (s : State) (g : Nat) : Option Nat :=
  (groupBays s g).find? fun b => isSpareBay s b && drivePresent s b && !bayIsMember s b
    && !((rbOf s g).active && (rbOf s g).target == b) && !(s.xfm.rbWait.any fun x => x.2 == b)

/-- A member slot of a shelf that answers again is rebuilt in place, on its old extent (R372). -/
def shelfReturned (s : State) (shelf : Nat) : State :=
  (placeEntries s).foldl (fun s x =>
    if x.2.hosted || !(grpOf s x.2.group).owned then s
    else x.2.slots.zipIdx.foldl (fun s q =>
      if q.1.shelf = shelf && q.1.st = .missing then
        match placeEnt s x.1 with
        | some v =>
          let s := tabUpdate s (.place x.1 { v.cur with slots := v.cur.slots.set q.2 { q.1 with st := .rebuilding } })
          fedRbStart s x.1 q.2
        | none => s
      else s) s) s

/-- REBUILD_DELAY_S has passed with a member's drive absent: a spare takes its place when the group has one (R338). -/
def rebuildDelay (s : State) (b : Nat) : State :=
  if 64 ≤ b then (if (porporQp s (2 * (b - 64))).isSome || (porporQp s (2 * (b - 64) + 1)).isSome then shelfReturned s (b - 64) else s)
  else match groupOfBay s b with
    | none => s
    | some g =>
      if !(grpOf s g).owned || drivePresent s b || !bayIsMember s b || ((rbOf s g).active && (rbOf s g).bay == b)
        || (s.xfm.rbWait.any fun x => x.1 == b) then s
      else match spareFor s g with
        | none => s
        | some t => rebuildAsk s g b t

/-- Rebuild Control with OP 0 (R338, R348), its statuses in the table's order: No Target, Group Not Owned, Object Busy. -/
def rebuildControl (s : State) (c : Cid) (cdw10 : Nat) : State :=
  let g := field cdw10 0 1
  let bay := field cdw10 8 6
  let t := field cdw10 16 6
  if groupOfBay s t ≠ some g || groupOfBay s bay ≠ some g then reply s c .invalidField
  else if !drivePresent s t || (t != bay && bayIsMember s t) then reply s c (.vendor 0xEE)
  else if !(grpOf s g).owned then reply s c (.vendor 0xEA)
  else if (rbOf s g).active then reply s c (.vendor 0xE3)
  else reply (rebuildBegin s g bay t) c .success

/-- Rebuild Control with OP 1: the rebuild stops after the current stripe (R348). -/
def rebuildStop (s : State) (c : Cid) (cdw10 : Nat) : State :=
  let g := field cdw10 0 1
  if !(grpOf s g).owned then reply s c (.vendor 0xEA)
  else
    let r := rbOf s g
    reply (if r.active then setRb s g { r with cancel := true } else s) c .success

/-- The state of a member as the tables hold it (R323, R355). -/
def memCode (m : MemState) : Nat :=
  match m with
  | .inService => 0 | .missing => 1 | .rebuilding => 2

/-- The 256 bytes of a chunk-map entry (R323). -/
def mapBytes (s : State) (x : MapEnt) : List Nat :=
  let v := fedView s [] x
  let flags := bit x.valid + 2 * bit (v.mem.any fun m => m.st == .missing) + 4 * bit (v.mem.any fun m => m.st == .rebuilding)
    + 8 * bit x.fed + 16 * bit x.unread
  let head := [flags, x.k, x.m, x.profile] ++ leBytes 2 x.ns ++ [x.group, 0] ++ leBytes 4 x.index ++ leBytes 2 x.stripes ++ [0, 0]
    ++ leBytes 4 (if x.fed then x.place else 0) ++ List.replicate 44 0
  let mem := if x.fed then [] else x.mem.flatMap fun m => [m.bay, memCode m.st] ++ leBytes 4 m.start
  (head ++ mem ++ List.replicate 256 0).take 256

/-- Chunk Map Read (R348). -/
def chunkMapRead (s : State) (c : Cid) (cdw10 : Nat) : State :=
  match mapEnt s (field cdw10 0 23) with
  | some v => if v.cur.valid then reply s c .success (v.ver % 65536) (mapBytes s v.cur) else reply s c (.vendor 0xE2)
  | none => reply s c (.vendor 0xE2)

/-- Key Rotate (R346, R348), its statuses in the table's order. -/
def keyRotate (s : State) (c : Cid) (cdw10 : Nat) : State :=
  let slot := field cdw10 0 16
  let k := tget s.cat.keys {} slot
  if k.prev.isSome then reply s c (.vendor 0xED)
  else match nsOf s slot with
    | none => reply s c (.vendor 0xE2)
    | some n =>
      if k.epoch = 0xFFFFFFFF then reply s c .invalidField
      else if !(grpOf s n.group).owned then reply s c (.vendor 0xEA)
      else
        let (s, e) := rotateEdit s slot
        catChange s (some c) [e] (k.epoch + 1) 3 slot

/-- The rekey pass of a slot starts, on the owner, when no record carries the previous epoch; after a reset it goes on with the next chunk
(R346). -/
def rekeyStart (s : State) (slot : Nat) : State :=
  let k := tget s.cat.keys {} slot
  match k.prev, nsOf s slot with
  | some p, some n =>
    if !(grpOf s n.group).owned || epochStaged s slot p.1
      || (s.seq.queue.any fun o => match o with | .rekey x _ _ => x == slot | _ => false)
      || (s.seq.ctxs.any fun x => match x.2.bind Ctx.op with | some (.rekey y _ _) => y == slot | _ => false) then s
    else if k.pass then rekeyChunk s slot
    else rekeyChunk (catRecord { s with xfm := { s.xfm with bgPct := none } } [.key slot { k with pass := true, done := 0 }] 3 slot) slot
  | _, _ => s

/-- A write-back runs in its internal context (R336, step 4): the positions of the row that still fail are written with the original
ciphertext and counter, and the stripe is free again. Without a free slot on a member's drive it waits. -/
def writeBack (s : State) (e st row : Nat) (still : List Nat) : State :=
  match s.seq.ctxs.find? fun x => (x.2.bind Ctx.op) == some (.writeback e st row), chunkEnt s e with
  | some (n, some c), some x =>
    let pos := still.filter fun p => decide (p < x.k + x.m) && memWritable s e st x (memberAt x.k x.m st p)
    let step := fun (r : State × Bool) (p : Nat) =>
      let m := memOf x (memberAt x.k x.m st p)
      if isRemote m then
        (fragSend r.1 { plainFrag 1 (x.place % 65536) (memberAt x.k x.m st p) (m.bay - 64) [] with
                        chunk := e, stripe := st, lba := driveLba m.start st 0, rows := 2 ^ row } [], r.2)
      else
        let w := issueDrive r.1 m.bay .flush { opcode := 0x01, bytes := 4160 } [driveLba m.start st row, 2 ^ row]
        (w.1, r.2 && w.2)
    match pos.foldl step (s, true) with
    | (t, true) =>
      let t := rcAdd t 0x90024 0 pos.length
      let t := if pos.isEmpty then t else writeEvent t { num := 0x0805, detail := [e, st, row] ++ pos }
      finishOp t n c (.writeback e st row)
    | (_, false) => s
  | _, _ => s

/-! ### Rows -/

def execMapReloadDone (e : Nat) (s : State) : Host.Outcome State Fault Refusal :=
  if e < 4194304 then .next (mapReload s e) else .fault (.noSuchInstance "chunk")

def execRebuildDelayExpiry (b : Nat) (s : State) : Host.Outcome State Fault Refusal :=
  if b < 576 then .next (rebuildDelay s b) else .fault (.noSuchInstance "bay")

def execRebuildStart (c : Cid) (cdw10 : Nat) (s : State) : Host.Outcome State Fault Refusal :=
  .next (asManager s c 0 fun s => rebuildControl s c cdw10)

def execRebuildCancel (c : Cid) (cdw10 : Nat) (s : State) : Host.Outcome State Fault Refusal :=
  .next (asManager s c 0 fun s => rebuildStop s c cdw10)

def execChunkMapRead (c : Cid) (cdw10 : Nat) (s : State) : Host.Outcome State Fault Refusal :=
  .next (asManager s c 1 fun s => chunkMapRead s c cdw10)

def execKeyRotate (c : Cid) (cdw10 : Nat) (s : State) : Host.Outcome State Fault Refusal :=
  .next (asManager s c 0 fun s => keyRotate s c cdw10)

def execRekeyPassStart (slot : Nat) (s : State) : Host.Outcome State Fault Refusal :=
  if slot < 65536 then .next (rekeyStart s slot) else .fault (.noSuchInstance "key slot")

def execReconWriteback (e st row : Nat) (still : List Nat) (s : State) : Host.Outcome State Fault Refusal :=
  .next (writeBack s e st row still)

end Sys2Proof.Machine
end

