-- ==== Sys2Proof/Machine/Conn.lean ====
section
/-! DEFINITION. How connections end: queue pairs to Error, virtual-controller resets, associations and tenant queues (R164, R196,
R210, R232). The packets of connection management go out as kinds 0x101 REP, 0x102 REJ, 0x103 DREQ and 0x104 DREP. -/

namespace Sys2Proof.Machine

/-! ### Queue-pair numbers and instars (R159, R160) -/

/-- The QPN generation of a context: random at each Boot, one further at each bump, from 255 back to 1. -/
def qpnGen (s : State) (n : Nat) : Nat := 1 + (Config.qpnStart s.rdt.boot n + (qpOf s n).gens) % 255

/-- The local QPN of a context. -/
def localQpn (s : State) (n : Nat) : Nat := 65536 * qpnGen s n + n

/-- A queue pair under its instar as it now stands; its generation follows each bump (R159). -/
def setQpInstar (s : State) (n : Nat) (i : Instar) : State :=
  let x := qpOf s n
  setQp s n { x with instar := i, gens := if i.val = x.instar.val then x.gens else x.gens + 1 }

/-- Bump the instar of a queue pair, at most once per 256 ms (R159, R160). -/
def bumpQp (s : State) (n : Nat) : State := setQpInstar s n (bumpInstar (qpOf s n).instar s.now (ticksMs 256))

/-! ### Tenant queues (R210) -/

/-- The queue pair and the QIDX of a tenant queue's key. -/
def tqQp (k : Nat) : Nat := k / 16

/-- Commands admitted from a tenant queue and not yet finished. -/
def tqInflight (s : State) (k : Nat) : Nat := (ctxFilter s fun c => c.tq == some k).length

/-- Bump the instar of a tenant queue. -/
def bumpTq (s : State) (k : Nat) : State :=
  setTq s k { tqOf s k with instar := bumpInstar (tqOf s k).instar s.now (ticksMs 1) }

/-- CFE_TQ_ERROR with the queue and the cause (R218). -/
def tqErrorEvent (s : State) (k cause : Nat) : State :=
  writeEvent s { num := 0x0503, inst := tqQp k, instar := (tqOf s k).instar.val.toNat, vss := (tqOf s k).vss,
                 detail := [localQpn s (tqQp k), k % 16, cause] }

/-- A freeze that the queue's end overtakes completes with Object Busy (R227). -/
def endFreeze (s : State) (k : Nat) : State :=
  match (tqOf s k).freezer with
  | some c => reply (setTq s k { tqOf s k with freezer := none }) c (.vendor 0xE3)
  | none => s

/-- A tenant queue moves to Error: its fetch stops, its held completions are dropped (R209, R210). -/
def tqError (s : State) (k cause : Nat) : State :=
  if (tqOf s k).state = .active || (tqOf s k).state = .paused then
    let s := rcAdd (tqErrorEvent s k cause) 0x61028 0 1
    endFreeze (bumpTq (setTq s k { tqOf s k with state := .error, cause := cause, fetch := 0, held := [] }) k) k
  else s

/-- A tenant queue moves to Deleting: entries not yet admitted are dropped (R210). -/
def tqDelete (s : State) (k : Nat) : State :=
  match (tqOf s k).state with
  | .active | .paused | .error =>
    endFreeze (bumpTq (setTq s k { tqOf s k with state := .deleting, fetch := 0, wait := [], held := [] }) k) k
  | .free | .deleting => s

/-- The association of a tenant queue ends (R210). -/
def tqAssocEnd (s : State) (k : Nat) : State :=
  match (tqOf s k).state with
  | .active | .paused | .error => tqDelete (tqErrorEvent (setTq s k { tqOf s k with cause := 6 }) k 6) k
  | .free | .deleting => s

/-- The tenant queues that satisfy a test. -/
def tqKeys (s : State) (p : Tq → Bool) : List Nat := (s.cfe.tqs.filter fun x => p x.2).map Prod.fst

/-! ### Queue pairs to Error (R164) -/

/-- The contexts that wait for host data on a queue pair. -/
def hostWaits (s : State) (q : Nat) : List Nat :=
  (ctxFilter s fun c => waitOf c == some .host && (ctxFn c).isNone && hostQp c == q).map Prod.fst

/-- The cells behind the packets of a queue pair that are not yet acknowledged (R172), and behind the inbound messages that its owner has not
taken (R30). -/
def heldCells (x : Qp) : Nat := x.unacked.foldl (fun n p => n + p.cells) 0 + x.inMsgs.foldl (fun n m => n + m.cells) 0

/-- The window versions that the reads and messages of a queue pair hold (R167, R178). -/
def qpRefs (x : Qp) : List (Nat × Nat × Nat) :=
  (x.hist.map fun h => (4, h.win, h.ver)) ++ x.inMsgs.filterMap fun m => m.win.map fun w => (4, w.1, w.2)

/-- Receive entries that the untaken SEND messages of a list hold (R169). -/
def entriesHeld (l : List InMsg) : Nat := l.countP fun m => m.send && !m.taken

/-- Return `n` receive entries. -/
def recvBack (s : State) (q n : Nat) : State := (List.range n).foldl (fun s _ => recvReturn s q) s

/-- The Porpor requests of a queue pair: those this controller sent hold no slot there any more, and those it hosts are abandoned
(R366). -/
def dropPorpor (s : State) (q : Nat) : State :=
  { s with fed := { s.fed with
      frags := s.fed.frags.map fun f => if f.sent && f.qp == q then { f with sent := false } else f,
      hosted := s.fed.hosted.filter fun h => h.qp != q } }

/-- A queue pair enters Error: its outstanding work is flushed to its owner, its holds are released, the instar is bumped; causes other
than 9 are reported (R164, R188, R189). A teardown sends DREQ, or DREP for
cause 25, which stands for 9. -/
def qpErrorAlone (s : State) (q cause : Nat) : State :=
  let x := qpOf s q
  let s := dropRefs (recvBack (freeCells s (heldCells x)) q (entriesHeld x.inMsgs)) (qpRefs x)
  let s := setQp s q { qpOf s q with state := .error, err := cause % 16, sendq := [], unacked := [], resend := 0, rnrWait := false,
                                     hist := [], respq := [], inMsgs := [], ackPend := 0, ackDue := false, paced := false }
  let s := if cause % 16 = 9 then emit s (.packet q (if cause = 9 then 0x103 else 0x104) 0 [])
           else writeEvent s { num := 0x0201, inst := q, instar := x.instar.val.toNat, detail := [cause] }
  let s := bumpQp s q
  let s := (hostWaits s q).foldl (fun s n => hostTransfer s n false [] []) s
  if x.kind = 2 then dropPorpor s q
  else if x.kind = 1 then (tqKeys s fun _ => true).foldl (fun s k => if tqQp k = q then tqError s k 5 else s) s
  else s

/-- A queue pair leaves service, with a cause of R188; one in Reset or Error stays as it is. -/
def qpStop (s : State) (q cause : Nat) : State :=
  match (qpOf s q).state with
  | .init | .rtr | .rts => qpErrorAlone s q cause
  | .reset | .error => s

/-! ### Virtual controllers and associations (R196, R232) -/

/-- Take a context out of everything that knows it: its ready queue, the hold list, the drive slots and requests that would wake it. Late drive
completions are discarded for its virtual controller (R232); a write whose commit record was written stays durable, and its echoes are no
longer awaited. -/
def purgeCtx (s : State) (n : Nat) (c : Ctx) : State :=
  let s := noEcho (if c.committed && !c.durable then durableNow s c else s) c
  let s := setReadyQ s c.core ((readyQ s c.core).filter (· != n))
  let s := { s with cfe := { s.cfe with holds := s.cfe.holds.filter (· != n) },
                    fed := { s.fed with frags := s.fed.frags.map fun f => if f.ctx = some n then { f with ctx := none } else f },
                    spk := { s.spk with spokes := s.spk.spokes.map fun p => (p.1, { p.2 with
                      slots := p.2.slots.map fun d => (d.1, d.2.map fun e =>
                        if e.ctx = some n then { e with ctx := none, vc := some c.assoc } else e) }) } }
  freeCtxNow s n c

/-- Abort one command of a virtual controller that is reset: SC 08h where its queue still exists, and its interlock entry is withdrawn
(R232). -/
def abortCtx (s : State) (x : Nat × Ctx) : State :=
  let s := completeCtx s x.1 x.2 .abortSqDeletion (statusDnr .abortSqDeletion) 0
  match ctxOf s x.1 with
  | some c => purgeCtx s x.1 c
  | none => s

/-- A command whose queue no longer exists goes on without a completion (R196, R210; DEDUCED, log 23). -/
def letGo (s : State) (x : Nat × Ctx) : State := setCtx s x.1 (some { x.2 with gone := true })

/-- The commands of a virtual controller whose completion has not been handed to the scheduler. -/
def vcCommands (s : State) (a : Nat) : List (Nat × Ctx) := ctxFilter s fun c => c.cmd.isSome && c.assoc == a && !c.done && !c.gone

/-- A command is withdrawn, and its completion dropped (R480). -/
def withdrawCtx (s : State) (x : Nat × Ctx) : State := purgeCtx s x.1 x.2

/-- A virtual controller resets (R232): its instar, its event requests and CSTS.RDY, and each of its commands as `each` has it; an FLR answers
nothing (R480). -/
def vcResetBy (s : State) (a : Nat) (answers : Bool) (each : State → Nat × Ctx → State) : State :=
  match assocOf s a with
  | none => s
  | some x =>
    let cs := vcCommands s a
    let i := vcInstar s a
    let s := setAssoc (setVcInstar s a (bumpInstar i s.now (ticksMs 1))) a (some { x with rdy := false, aers := [], notices := [], masked := [] })
    let s := if answers then x.aers.foldl (fun s i => reply s ⟨vcOrg a, i⟩ .abortSqDeletion) s else s
    let s := cs.foldl each s
    writeEvent s { num := 0x0514, inst := a, instar := i.val.toNat, vss := x.vss, detail := [x.vss, a, cs.length] }

/-- A virtual controller whose queues still exist resets: its commands are aborted (R232). -/
def vcReset (s : State) (a : Nat) : State := vcResetBy s a true abortCtx

/-- The I/O queues of a virtual controller and their tenant queues are deleted, when CC.EN is cleared (R232). -/
def deleteIoQueues (s : State) (a : Nat) : State :=
  match assocOf s a with
  | none => s
  | some x =>
    let s := (tqKeys s fun t => t.assoc == a).foldl tqDelete s
    let s := x.ioqs.foldl (fun s q => qpStop s q.qp 9) s
    setAssoc s a (some { x with ioqs := [] })

/-- The queue pairs of an association: its queues, and the VDQ queue pairs bound to it. -/
def assocQps (s : State) (a : Nat) : List Nat :=
  (s.rdt.qps.filter fun x => x.2.assoc == some a && x.2.kind != 2).map Prod.fst

/-- An association ends: its queue pairs are torn down, its tenant queues deleted, its virtual controller reset with no queue left
to complete on, and its controller ID is free; its SPDM context ends with it (R131, R164, R196, R210, R232). -/
def assocEndBy (s : State) (a : Nat) (answers : Bool) (each : State → Nat × Ctx → State) : State :=
  match assocOf s a with
  | none => s
  | some _ =>
    let s := (tqKeys s fun t => t.assoc == a).foldl tqAssocEnd s
    let s := (assocQps s a).foldl (fun s q => qpStop s q 9) s
    let s := match assocOf s a with
      | some x => setAssoc s a (some { x with qp := 65536, ioqs := [] })
      | none => s
    let s := if 65536 ≤ a then setFn s (a - 65536) { fnOf s (a - 65536) with rdy := false } else s
    let s := { s with trs := { s.trs with spdm := s.trs.spdm.filter fun c => c.ep != .assoc a } }
    setAssoc (vcResetBy s a answers each) a none

/-- An association ends, and its commands in flight finish without a completion (R196, R210). -/
def assocEnd (s : State) (a : Nat) : State := assocEndBy s a true letGo

/-- A queue pair enters Error, with what follows for its association: the loss of the admin queue ends it (R232, DEDUCED, log 23), an I/O queue
is no longer one of it. -/
def qpDown (s : State) (q cause : Nat) : State :=
  match (qpOf s q).state with
  | .reset | .error => s
  | .init | .rtr | .rts =>
    let s := qpErrorAlone s q cause
    match (qpOf s q).assoc with
    | none => s
    | some a => match assocOf s a with
      | none => s
      | some x =>
        if (qpOf s q).kind = 0 && x.qp = q then assocEnd s a
        else setAssoc s a (some { x with ioqs := x.ioqs.filter fun i => i.qp != q })

/-- End every association of a virtual subsystem that satisfies a test. -/
def endAssocs (s : State) (v : Nat) (p : Assoc → Bool) : State :=
  (assocsOf s v).foldl (fun s a => match assocOf s a with
    | some x => if p x then assocEnd s a else s
    | none => s) s

/-! ### Bumps held back (R38, R39) -/


/-- INSTAR_BUMP_DEFERRED, by object. -/
def deferredBump (s : State) (o : InstarObj) : State :=
  let ms := ticksMs 1
  match o with
  | .qp n => setQpInstar s n (lateBump (qpOf s n).instar s.now (ticksMs 256))
  | .tq k => setTq s k { tqOf s k with instar := lateBump (tqOf s k).instar s.now ms }
  | .vss v =>
    let r := tget s.cfe.rt {} v
    { s with cfe := { s.cfe with rt := tput s.cfe.rt {} v { r with instar := lateBump r.instar s.now ms } } }
  | .vc a => setVcInstar s a (lateBump (vcInstar s a) s.now ms)
  | .spoke b => setSpk s b { spkOf s b with instar := lateBump (spkOf s b).instar s.now ms }
  | .drive b => setSpk s b { spkOf s b with drive := lateBump (spkOf s b).drive s.now ms }
  | .window w =>
    let x := winOf s w
    let i := lateBump x.instar s.now ms
    if i.val = x.instar.val then s else tabUpdate (setWin s w { x with instar := i }) (.win w)
  | .fn n => setFn s n { fnOf s n with instar := lateBump (fnOf s n).instar s.now ms }

def execInstarBumpDeferred (o : InstarObj) (s : State) : Host.Outcome State Fault Refusal := .next (deferredBump s o)

end Sys2Proof.Machine
end

