-- ==== Sys2Proof/Machine/Net.lean ====
section
/-! DEFINITION. What the transport and the ports share: ingress queues, path groups and the derailleur table, and the frames of a queue
pair on their way out (R161, R377, R383 to R391). -/

namespace Sys2Proof.Machine

/-! ### Path groups (R383) -/

/-- PG_COUNT. -/
def pgCount (s : State) : Nat := par s 0x0D 40 1 0
/-- MEMBERS of a path group. -/
def pgMembers (s : State) (g : Nat) : List Nat := (List.range 32).filter fun n => bitAt (par s 0x0D (64 + 16 * g) 4 0) n
/-- BUCKET_BASE of a path group. -/
def pgBase (s : State) (g : Nat) : Nat := par s 0x0D (68 + 16 * g) 2 0
/-- BUCKET_LOG2 of a path group. -/
def pgLog (s : State) (g : Nat) : Nat := par s 0x0D (70 + 16 * g) 1 4
/-- The path group of a sub-port. -/
def pgOf (s : State) (sub : Nat) : Option Nat := (List.range (pgCount s)).find? fun g => (pgMembers s g).contains sub
/-- The live members of a path group, in ascending order. -/
def pgLive (s : State) (g : Nat) : List Nat := (pgMembers s g).filter fun n => (subOf s n).up

/-! ### The flow of a queue pair (R161, R384) -/

/-- An address in network byte order: 4 bytes for IPv4, 16 for IPv6. -/
def addrBytes (a : Nat) : List Nat := (leBytes (if a < 2 ^ 32 then 4 else 16) a).reverse

/-- The controller's address of a connection: the lowest address slot of its sub-port with the remote side's family (DESIGN CHOICE, log
24). -/
def localAddr (s : State) (q : Nat) : Nat :=
  let v6 := decide (2 ^ 32 ≤ (qpOf s q).rip)
  ((subOf s (qpOf s q).sub).addrs.findSome? fun a => match a.2 with
    | some (f, x) => if f = v6 then some x else none
    | none => none).getD 0

/-- The UDP source port of a queue pair. -/
def udpPort (s : State) (q : Nat) : Nat :=
  0xC000 + crc32c (leBytes 3 (localQpn s q) ++ leBytes 3 (qpOf s q).rqpn) % 2 ^ 14

/-- The hash of a queue pair's flow. -/
def flowHash (s : State) (q : Nat) : Nat :=
  crc32c (addrBytes (localAddr s q) ++ addrBytes (qpOf s q).rip ++ (leBytes 2 (udpPort s q)).reverse ++ (leBytes 2 4791).reverse)

/-- The sub-port a frame of a queue pair leaves by, with the bucket and version it looked up; none when every member of its group is down
(R384, R387). -/
def qpPath (s : State) (q : Nat) : Option (Nat × Option (Nat × Nat)) :=
  match pgOf s (qpOf s q).sub with
  | none => some ((qpOf s q).sub, none)
  | some g =>
    if (pgLive s g).isEmpty then none
    else
      let b := pgBase s g + flowHash s q % 2 ^ pgLog s g
      match tget s.swc.derail none b with
      | none => some ((qpOf s q).sub, none)
      | some e => some (e.cur.sub, some (b, e.ver))

/-! ### Egress -/

/-- A tenant joins the end of the active list of a service point (R391). -/
def joinActive (s : State) (point v : Nat) : State :=
  let l := tget s.sch.active [] point
  if v = 0 || l.contains v then s
  else { s with sch := { s.sch with active := tput s.sch.active [] point (l ++ [v]) } }

/-- A tenant of a queue pair: that of its association. -/
def qpVss (s : State) (q : Nat) : Nat :=
  match (qpOf s q).assoc.bind (assocOf s) with
  | some a => a.vss
  | none => 0

/-- The length of a frame around a RoCEv2 payload: Ethernet, IP, UDP, BTH, ICRC and FCS (R391). -/
def frameLen (s : State) (q n : Nat) : Nat := n + (if (qpOf s q).rip < 2 ^ 32 then 62 else 82)

/-- One frame of a queue pair joins its egress class queue (R384, R389), with a reference on the bucket it looked up: it holds its own cells, or those its queue pair retains. A frame
that finds no path, or no cells, is not sent; the first is counted (R387). -/
def qpFrame (s : State) (q : Nat) (kind : TxKind) (psn n draw : Nat) : State :=
  match qpPath s q with
  | none => rcAdd s 0x40028 0 1
  | some (sub, b) =>
    let len := frameLen s q n
    let porpor := (qpOf s q).kind == 2
    let go := fun (s : State) =>
      let used := match b with
        | some (k, _) => (tableRef { s with swc := { s.swc with used := tput s.swc.used 0 k s.now } } 0 k).2
        | none => s
      let v := qpVss s q
      let s := if txClass porpor kind = 1 then joinActive used (sub + 1) v else used
      egPush s sub porpor { qp := q, vss := v, kind := kind, psn := psn, len := len, cost := max 64 n,
                            ect := kind != .cnp && kind != .ack && kind != .nak, bucket := b } draw
    if retained kind then go s
    else match cellAlloc s 2 (cellsOf len) with
      | some s => go s
      | none => s

/-! ### Frames for the management cores (R140) -/

/-- The management cores' frames of a port in the current second of the timebase. -/
def rollMgmt (s : State) : State :=
  let sec := s.now / ticksS 1
  if s.prt.mgmtSec = sec then s else { s with prt := { s.prt with mgmtSec := sec, mgmtCnt := [], mgmtRep := [] } }

/-- One more frame of a sub-port for the management cores: at most 10,000 per second and port; the excess is dropped and reported once per
second. -/
def coresRate (s : State) (sub : Nat) : Bool × State :=
  let s := rollMgmt s
  let port := sub / 4
  let n := tget s.prt.mgmtCnt 0 port
  if 10000 ≤ n then
    let s := rcAdd s 0x20010 port 1
    (false, if s.prt.mgmtRep.contains port then s
            else writeEvent { s with prt := { s.prt with mgmtRep := s.prt.mgmtRep ++ [port] } } { num := 0x0130, inst := port, detail := [port, sub % 4] })
  else (true, { s with prt := { s.prt with mgmtCnt := tput s.prt.mgmtCnt 0 port (n + 1) } })

/-! ### Ingress queues (R377) -/

/-- An ingress queue. -/
def ingOf (s : State) (sub prio : Nat) : IngQ := tget s.swc.ing {} (8 * sub + prio)
/-- Write an ingress queue. -/
def setIng (s : State) (sub prio : Nat) (q : IngQ) : State :=
  { s with swc := { s.swc with ing := tput s.swc.ing {} (8 * sub + prio) q } }
/-- The cells of an ingress queue, on-chip and overflow. -/
def ingCells (q : IngQ) : Nat := q.frames.foldl (fun n f => n + f.cells) 0
/-- PFC_XON_KIB. -/
def pfcXon (s : State) : Nat := par s 0x0D 34 2 768
/-- PFC_XOFF_KIB. -/
def pfcXoff (s : State) : Nat := par s 0x0D 32 2 1024
/-- ING_MAX_KIB. -/
def ingMax (s : State) : Nat := par s 0x0D 30 2 2048

/-- A PFC frame for a priority: XOFF with quanta 0xFFFF, or XON with zero (R143, R377); kinds 1 and 0 of `Out.frame` plus 16 x (priority + 1). Its
fields are the EtherType, the opcode, the enable vector and the quanta of the priority. -/
def sendPfc (s : State) (sub prio : Nat) (xoff : Bool) : State :=
  emit s (.frame sub (16 * (prio + 1) + bit xoff) 64 [0x8808, 0x0101, 2 ^ prio, if xoff then 0xFFFF else 0])

/-- Bytes moved to and from overflow in the current microsecond (R378; the period is a DESIGN CHOICE, log 74). -/
def ovfMovedNow (s : State) : Nat := if s.swc.ovfUs = s.now / ticksUs 1 then s.swc.ovfMoved else 0

/-- Overflow moves `n` cells more; 102.4 GB/s are 102,400 bytes in a microsecond. -/
def ovfMove (s : State) (n : Nat) : State :=
  { s with swc := { s.swc with ovfUs := s.now / ticksUs 1, ovfMoved := ovfMovedNow s + 256 * n } }

/-- The overflow rate has room for `n` cells more. -/
def ovfRateOk (s : State) (n : Nat) : Bool := decide (ovfMovedNow s + 256 * n ≤ 102400)

/-- The frame at the head of an ingress queue leaves: its overflow cells are free, its on-chip cells go with it, and an XOFF ends below
PFC_XON_KIB. -/
def ingPop (s : State) (sub prio : Nat) : Option (Nat × State) :=
  let q := ingOf s sub prio
  match q.frames with
  | [] => none
  | f :: rest =>
    let s := if f.ovf then ovfMove { s with swc := { s.swc with ovfUsed := s.swc.ovfUsed - f.cells } } f.cells else s
    let s := sampleLeave s false sub prio f.stamp
    let q := { q with frames := rest }
    let cells := if f.ovf then 0 else f.cells
    if q.xoff && decide (ingCells q < 4 * pfcXon s) then
      some (cells, sendPfc (setIng s sub prio { q with xoff := false }) sub prio false)
    else some (cells, setIng s sub prio q)

end Sys2Proof.Machine
end

