-- ==== Sys2Proof/Machine/Rdma.lean ====
section
/-! DEFINITION. The RDMA transport (chapter 06): receiving, sending, congestion control, connection management and the dirty-page
log. A delivered message acts through its own row: a command capsule, a doorbell or a Porpor message. -/

namespace Sys2Proof.Machine

/-! ### Section 0x0007 (R187) -/

/-- PMTU_MAX. -/
def pmtuMax (s : State) : Nat := par s 0x07 0 1 5
/-- ACK_TIMEOUT. -/
def ackTimeoutCode (s : State) : Nat := par s 0x07 1 1 12
/-- RETRY_CNT. -/
def retryCnt (s : State) : Nat := field (par s 0x07 2 1 0x37) 0 3
/-- RNR_RETRY. -/
def rnrRetry (s : State) : Nat := field (par s 0x07 2 1 0x37) 3 3
/-- RNR_TIMER. -/
def rnrTimer (s : State) : Nat := par s 0x07 3 1 5
/-- ACK_COALESCE. -/
def ackCoalesce (s : State) : Nat := par s 0x07 4 1 16
/-- READ_DEPTH. -/
def readDepth (s : State) : Nat := par s 0x07 5 1 16
/-- SEND_WINDOW. -/
def sendWindow (s : State) : Nat := par s 0x07 8 2 1024
/-- CNP_INTERVAL_US. -/
def cnpInterval (s : State) : Nat := par s 0x07 10 2 50
/-- RC_ENABLE. -/
def rcEnable (s : State) : Bool := bitAt (par s 0x07 12 1 1) 0
/-- RC_G_SHIFT. -/
def rcShift (s : State) : Nat := par s 0x07 13 1 8
/-- RC_FAST_STAGES. -/
def rcFast (s : State) : Nat := par s 0x07 14 1 5
/-- RC_MIN_MBPS. -/
def rcMin (s : State) : Nat := par s 0x07 16 4 100
/-- RC_AI_MBPS. -/
def rcAi (s : State) : Nat := par s 0x07 20 4 40
/-- RC_HAI_MBPS. -/
def rcHai (s : State) : Nat := par s 0x07 24 4 400
/-- RC_BYTE_KIB. -/
def rcByteKib (s : State) : Nat := par s 0x07 32 4 10240
/-- SRQ_COUNT. -/
def srqCount (s : State) : Nat := par s 0x07 36 2 64
/-- SRQ_DEPTH (R217). -/
def srqDepth (s : State) : Nat := par s 0x08 6 2 4096

/-- Bytes of a path MTU code (R158). -/
def pmtuBytes (code : Nat) : Nat := 2 ^ (7 + code)

/-! ### PSNs (R166) -/

/-- PSN arithmetic. -/
def psnAdd (a n : Nat) : Nat := (a + n) % 2 ^ 24
/-- How far a PSN lies past another, modulo 2^24. -/
def psnGap (a b : Nat) : Nat := (a + (2 ^ 24 - b % 2 ^ 24)) % 2 ^ 24
/-- `p` lies ahead of `e`. -/
def psnAhead (p e : Nat) : Bool := decide (1 ≤ psnGap p e) && decide (psnGap p e < 2 ^ 23)

/-! ### Rate control (R181, R182) -/

/-- The line rate of a queue pair in Mb/s. -/
def lineRate (s : State) (q : Nat) : Nat := subRate s (qpOf s q).sub

/-- The token bucket filled to the present, in bits x 100, at most 2 path MTUs (R181). -/
def bucketNow (s : State) (x : Qp) : Int :=
  min (1600 * pmtuBytes x.pmtu : Nat) (x.bucket + (x.cr * (s.now - x.fillAt) : Nat))

/-- The `increase` of R182. The bucket has filled at the old rate up to now. -/
def rateIncrease (s : State) (q : Nat) : State :=
  let x := qpOf s q
  let line := lineRate s q
  let st := max x.tStage x.bStage
  let tr := if 2 * rcFast s < st then min (x.tr + rcHai s) line else if rcFast s < st then min (x.tr + rcAi s) line else x.tr
  let cr := (tr + x.cr) / 2
  setQp s q { x with cr := cr, tr := tr, paced := !(cr == line && tr == line), bucket := bucketNow s x, fillAt := s.now }

/-- Rate control is off: the queue pair is unpaced from its next rate event on (R182, R187; CR and TR stay as they are, log 68). -/
def rateOff (s : State) (q : Nat) : State := setQp s q { qpOf s q with paced := false }

/-- A CNP arrives (R182); the bucket has filled at the old rate up to now. -/
def cnpReceive (s : State) (q : Nat) : State :=
  let s := rcAdd s 0x30120 0 1
  if !rcEnable s then rateOff s q
  else
    let x := qpOf s q
    let g := rcShift s
    setQp s q { x with tr := x.cr, cr := max (x.cr * (2048 - x.alpha) / 2048) (rcMin s),
                       alpha := x.alpha - x.alpha / 2 ^ g + 1024 / 2 ^ g, tStage := 0, bStage := 0, bytes := 0, paced := true,
                       bucket := if x.paced then bucketNow s x else 0, fillAt := s.now }

/-- A rate event of a paced queue pair: a CNP of the same cycle comes first and the timer's own event is discarded (R175, R182). -/
def rateEvent (s : State) (q : Nat) (cnpToo : Bool) (f : Qp → State) : State :=
  if cnpToo then cnpReceive s q
  else if !(qpOf s q).paced then s
  else if !rcEnable s then rateOff s q
  else f (qpOf s q)

/-- The alpha timer (R182). -/
def alphaTick (s : State) (q : Nat) (cnpToo : Bool) : State :=
  rateEvent s q cnpToo fun x => setQp s q { x with alpha := x.alpha - x.alpha / 2 ^ rcShift s }

/-- The increase timer (R182). -/
def increaseTick (s : State) (q : Nat) (cnpToo : Bool) : State :=
  rateEvent s q cnpToo fun x => rateIncrease (setQp s q { x with tStage := min 15 (x.tStage + 1) }) q

/-- Bytes sent by a paced queue pair: every RC_BYTE_KIB advances the byte stage (R182). -/
def countBytes (s : State) (q n : Nat) : State :=
  let x := qpOf s q
  if !x.paced then s
  else if x.bytes + n < 1024 * rcByteKib s then setQp s q { x with bytes := x.bytes + n }
  else rateEvent s q false fun x => rateIncrease (setQp s q { x with bytes := 0, bStage := min 15 (x.bStage + 1) }) q

/-- Debit the bucket of a paced queue pair by a packet's length. -/
def debitBucket (s : State) (q n : Nat) : State :=
  let x := qpOf s q
  if x.paced then setQp s q { x with bucket := bucketNow s x - (800 * n : Nat), fillAt := s.now } else s

/-- A data packet may leave: the bucket holds at least 0 bytes, or the queue pair is unpaced. -/
def mayPace (s : State) (q : Nat) : Bool := !(qpOf s q).paced || decide (0 ≤ bucketNow s (qpOf s q))

/-! ### ACKs, NAKs and CNPs (R168, R180) -/

/-- A packet of a queue pair goes out: its opcode, its PSN, and its fields behind those of every packet's BTH: P_Key 0xFFFF, MigReq 0, the remote
QPN and the UDP source port (R157, R161). -/
def packetOut (s : State) (q op psn : Nat) (fields : List Nat) : State :=
  emit s (.packet q op psn ([0xFFFF, 0, (qpOf s q).rqpn, udpPort s q] ++ fields))

/-- Send a control packet of a queue pair: its opcode, PSN and fields; an Acknowledge carries the 4 bytes of its AETH, a CNP 16 reserved
bytes (R158, R180). -/
def sendControl (s : State) (q : Nat) (k : TxKind) (op psn : Nat) (fields : List Nat) : State :=
  packetOut (qpFrame s q k psn (if k = .cnp then 16 else 4) 100) q op psn fields

/-- Send an ACK: the last executed PSN and the MSN, with no credit count. -/
def sendAck (s : State) (q : Nat) : State :=
  let x := qpOf s q
  sendControl (setQp s q { x with ackPend := 0, ackDue := false }) q .ack 0x11 (psnAdd x.epsn (2 ^ 24 - 1)) [0x1F, x.msn]

/-- The front end still has to decide on a message of a queue pair: until then no ACK goes, so that a refusal never follows the ACK of its
message (R169; DEDUCED, log 68). A Porpor message is never refused at delivery. -/
def holdAcks (x : Qp) : Bool := x.kind != 2 && x.inMsgs.any fun m => !m.taken

/-- Send the ACK that an AckReq, or ACK_COALESCE executed packets, ask for (R168). -/
def settleAck (s : State) (q : Nat) : State :=
  let x := qpOf s q
  if !holdAcks x && (x.ackDue || decide (ackCoalesce s ≤ x.ackPend)) then sendAck s q else s

/-- An executed or duplicate packet is to be acknowledged: at once with AckReq, else coalesced (R168). -/
def ackPacket (s : State) (q psn : Nat) (req : Bool) : State :=
  let x := qpOf s q
  settleAck (setQp s q { x with ackPend := x.ackPend + 1, ackFrom := if x.ackPend = 0 then psn else x.ackFrom, ackDue := x.ackDue || req }) q

/-- Send one NAK PSN sequence error until the next packet is executed (R166). -/
def sendSeqNak (s : State) (q : Nat) : State :=
  let x := qpOf s q
  if x.nakSent then s else sendControl (setQp s q { x with nakSent := true }) q .nak 0x11 x.epsn [0x60, x.msn]

/-- Send a NAK that ends the connection: 1 Invalid Request, 2 Remote Access Error, 3 Remote Operational Error (R158, R164, R188). -/
def nakError (s : State) (q code : Nat) : State :=
  let x := qpOf s q
  let s := sendControl s q .nak 0x11 x.epsn [0x60 + code, x.msn]
  qpDown s q (if code = 1 then 7 else if code = 2 then 8 else 11)

/-- Send an RNR NAK for the first packet of a message (R169). -/
def sendRnr (s : State) (q psn : Nat) : State := sendControl s q .nak 0x11 psn [0x20 + rnrTimer s, (qpOf s q).msn]

/-- A packet marked CE draws a CNP, at most one in each CNP_INTERVAL_US (R180). -/
def cnpSend (s : State) (q : Nat) : State :=
  let x := qpOf s q
  let due := match x.cnpAt with
    | none => true
    | some t => decide (t + ticksUs (cnpInterval s) ≤ s.now)
  if due then rcAdd (sendControl (setQp s q { x with cnpAt := some s.now, ceSeen := 0 }) q .cnp 0x81 0 (List.replicate 16 0)) 0x3011C 0 1
  else setQp s q { x with ceSeen := x.ceSeen + 1 }

/-! ### The dirty-page log (R183 to R186) -/

/-- A log slot, 1 to 64. -/
def dlogOf (s : State) (n : Nat) : Dlog := tget s.rdt.dlogs {} n
/-- Write a log slot. -/
def setDlog (s : State) (n : Nat) (d : Dlog) : State := { s with rdt := { s.rdt with dlogs := tput s.rdt.dlogs {} n d } }
/-- Set the bit of a page. -/
def dlogBit (d : Dlog) (p : Nat) : Dlog :=
  { d with bits := tput d.bits 0 (p / 64) (tget d.bits 0 (p / 64) ||| 2 ^ (p % 64)) }

/-- OVERFLOW of a slot, and its event once (R184). -/
def dlogOverflow (s : State) (q slot : Nat) (d : Dlog) : State :=
  if d.overflow then setDlog s slot d
  else writeEvent (setDlog s slot { d with overflow := true })
    { num := 0x0203, inst := q, instar := (qpOf s q).instar.val.toNat, detail := [slot] }

/-- A packet sent under a log slot touches the bytes from `va` on: the bits of its pages, or OVERFLOW outside the range, which is
recorded once (R184). -/
def dlogTouch (s : State) (q slot va n : Nat) : State :=
  let d := dlogOf s slot
  if slot = 0 || !d.enable || n = 0 then s
  else
    let size := if d.page2m then 2 ^ 21 else 4096
    let inside := decide (d.base ≤ va) && decide (va + n ≤ d.base + size * d.pages)
    let lo := max va d.base
    let hi := min (va + n) (d.base + size * d.pages)
    let d := if lo < hi then
        ((List.range ((hi - 1 - d.base) / size - (lo - d.base) / size + 1)).map fun i => (lo - d.base) / size + i).foldl dlogBit d
      else d
    if inside then setDlog s slot d else dlogOverflow s q slot d

/-- Bytes of a slot's bitmap: a bit per page, rounded up to 64. -/
def dlogBytes (pages : Nat) : Nat := 8 * ((pages + 63) / 64)

/-- Bytes of the pool in use (R183). -/
def dlogUsed (s : State) : Nat := s.rdt.dlogs.foldl (fun n x => if x.2.enable then n + dlogBytes x.2.pages else n) 0

/-- Enable a slot with a cleared bitmap, or set NOSPACE when the pool is short (R183, R189). -/
def dlogStart (s : State) (n : Nat) : State × Bool :=
  let d := dlogOf s n
  if dlogUsed s + dlogBytes d.pages ≤ 2 ^ 20 * par s 0x07 38 2 0 then
    (setDlog s n { d with enable := true, nospace := false, bits := [] }, true)
  else (writeEvent (setDlog s n { d with nospace := true }) { num := 0x0204, inst := n, detail := [n] }, false)

/-- Disable a slot: its bitmap is freed. -/
def dlogStop (s : State) (n : Nat) : State := setDlog s n { dlogOf s n with enable := false, bits := [], vss := none }

/-- A write of RDT_DLOG_CFG on the selected slot. -/
def dlogCfgWrite (s : State) (val : Nat) : State :=
  if !authMode s then s else
  let n := field (rwGet s 0x30200 0) 0 7
  if n = 0 || 64 < n then s
  else
    let d := dlogOf s n
    let d := if bitAt val 2 then { d with overflow := false } else d
    if d.enable then
      let s := setDlog s n d
      if bitAt val 0 then s else dlogStop s n
    else
      let s := setDlog s n { d with page2m := bitAt val 1 }
      if bitAt val 0 then (dlogStart s n).1 else s

/-- A word of a slot's bitmap: read and cleared, a bit set in the same cycle stays set; past the slot's pages it reads 0 (R186). -/
def dlogTake (s : State) (n w setNow : Nat) : Nat × State :=
  let d := dlogOf s n
  if 64 * w < d.pages then
    (tget d.bits 0 w, setDlog s n { d with bits := tput d.bits 0 w (if d.enable then setNow % 2 ^ 64 else 0) })
  else (0, s)

/-- A read of RDT_DLOG_DATA_LO: the low half, the high half snapshot (R11, R186). -/
def dlogHarvest (s : State) (p : Path) (setNow : Nat) (atomic : Bool) : Nat × State :=
  let n := field (rwGet s 0x30200 0) 0 7
  let w := field (rwGet s 0x3021C 0) 0 26
  let (v, s) := if n = 0 || 64 < n then (0, s) else dlogTake s n w setNow
  (v % 2 ^ 32, snapWords s p 0x30218 (n + 128 * w) atomic [v / 2 ^ 32])

/-! ### Acknowledgements (R172, R173) -/

/-- A packet is covered by an acknowledgement of a PSN. -/
def covered (a : Nat) (p : Pkt) : Bool := decide (psnGap a (psnAdd p.psn (p.span - 1)) < 2 ^ 23)

/-- A message kind whose packets carry data to host memory. -/
def isWrite (k : MsgKind) : Bool :=
  match k with
  | .write | .writeImm => true
  | _ => false

/-- Packets have been acknowledged: their cells are free, their dirty bits are set again, and the counters return to their configured
values. -/
def ackPackets (s : State) (q : Nat) (gone rest : List Pkt) : State :=
  if gone.isEmpty then s
  else
    let s := freeCells s (gone.foldl (fun n p => n + p.cells) 0)
    let s := gone.foldl (fun s p => if isWrite p.kind then dlogTouch s q p.slot p.va p.len else s) s
    let x := qpOf s q
    setQp s q { x with unacked := rest, resend := min x.resend rest.length, retry := x.retry0, rnr := x.rnr0, lastNak := none }

/-- An acknowledgement up to a PSN; a read request is acknowledged by its responses alone. -/
def ackUpTo (s : State) (q a : Nat) : State :=
  let u := (qpOf s q).unacked
  let gone := u.takeWhile fun p => p.kind != .read && covered a p
  ackPackets s q gone (u.drop gone.length)

/-- Resend from a PSN on: the number of packets from the one that covers it. -/
def resendFrom (x : Qp) (p : Nat) : Nat :=
  ((x.unacked.dropWhile fun k => !(decide (psnGap p k.psn < k.span))).length)

/-- A sequence error named PSN `p`: resend from it, at the cost of a retry when the previous one named it too (R173). -/
def seqErrorAt (s : State) (q p : Nat) : State :=
  let x := qpOf s q
  if x.lastNak = some p then
    if x.retry = 0 then qpDown s q 1 else setQp s q { x with retry := x.retry - 1, resend := resendFrom x p }
  else setQp s q { x with lastNak := some p, resend := resendFrom x p }

/-- An Acknowledge packet arrives (R158, R164, R173); before RTS the send side has not started and it acknowledges nothing. -/
def ackReceive (s : State) (q : Nat) (psn syn : Nat) : State :=
  let s0 := s
  let before := fun (_ : Unit) => ackUpTo s0 q (psnAdd psn (2 ^ 24 - 1))
  if (qpOf s q).state ≠ .rts then s
  else match syn / 32 with
  | 0 => ackUpTo s q psn
  | 1 =>
    let s := before ()
    let x := qpOf s q
    if x.unacked.isEmpty then s
    else if x.rnr = 0 then qpDown s q 2
    else setQp s q { x with rnr := x.rnr - 1, rnrWait := true, resend := resendFrom x psn }
  | 3 => match syn % 32 with
    | 0 => let s := before (); if (qpOf s q).unacked.isEmpty then s else seqErrorAt s q psn
    | 1 => qpDown s q 4
    | 2 => qpDown s q 5
    | 3 => qpDown s q 6
    | _ => s
  | _ => s

/-- The payload length fits the packet (R157, check 7): a First or Middle packet carries exactly the path MTU. -/
def lengthFits (x : Qp) (p : RocePkt) : Bool :=
  if [0, 1, 6, 7, 0x0D, 0x0E].contains p.op then p.len == pmtuBytes x.pmtu else decide (p.len ≤ pmtuBytes x.pmtu)

/-- The payload that a packet brings for a command context: its cells are the context's until the cocoon has it (R30). -/
def giveCells (s : State) (ctx : Option Nat) (cells : Nat) : State :=
  match ctx with
  | none => freeCells s cells
  | some n => match ctxOf s n with
    | some c => setCtx s n (some { c with cells := c.cells + cells })
    | none => freeCells s cells

/-- A read response arrives (R157, R173): at the expected PSN it is placed, and acknowledges every packet before its request; ahead of it, it is
discarded and the missing part asked for again. The data it brings acts through HOST_TRANSFER_COMPLETE or VDQ_FETCH_RESPONSE. -/
def readResponse (s : State) (q : Nat) (p : RocePkt) : State :=
  let u := (qpOf s q).unacked
  let pre := u.takeWhile fun k => k.kind != .read
  match u.drop pre.length with
  | [] => freeCells s p.cells
  | r :: rest =>
    if p.psn = r.psn then
      if !lengthFits (qpOf s q) p then nakError (freeCells s p.cells) q 1
      else
        let s := giveCells s r.ctx p.cells
        if r.span ≤ 1 then ackPackets s q (pre ++ [r]) rest
        else
          let s := ackPackets s q pre (r :: rest)
          let x := qpOf s q
          let mtu := pmtuBytes x.pmtu
          setQp s q { x with unacked := { r with psn := psnAdd r.psn 1, span := r.span - 1, va := r.va + mtu, len := r.len - mtu } :: rest,
                             retry := x.retry0, rnr := x.rnr0, lastNak := none }
    else if psnAhead p.psn r.psn then seqErrorAt (freeCells s p.cells) q r.psn
    else freeCells s p.cells

/-! ### Windows (R178, R358) -/

/-- A range of a peer window is open to a queue pair (R178, R358). -/
def winAllows (s : State) (q rkey va len : Nat) (write : Bool) : Bool :=
  let x := (winOf s (rkey % 1024)).ent.cur
  decide (rkey - rkey % 1024 = rkeyPrefix s) && bitAt x.ctl 12 && bitAt x.ctl (if write then 10 else 11)
    && field x.ctl 0 10 == (qpOf s q).member && decide (va + len ≤ 4096 * (x.limit - x.base))

/-- Bytes of a push slot (R208). -/
def pushSlotBytes : Nat := 16448

/-- The tenant queue of a queue pair whose push window an R_Key names. -/
def pushQueue (s : State) (q rkey : Nat) : Option Nat :=
  (s.cfe.tqs.find? fun x => x.1 / 16 == q && x.2.rkey == rkey && x.2.state != .free && decide (0 < leAt x.2.desc 26 1)).map Prod.fst

/-- A tenant's admission is stopped (R212). -/
def vssStopped (s : State) (v : Nat) : Bool := (tget s.cfe.rt {} v).stopped

/-! ### Requests (R156, R157, R166 to R179) -/

/-- The first or only packet of a message. -/
def opFirst (op : Nat) : Bool := [0, 4, 5, 6, 10, 11].contains op
/-- The last or only packet of a message. -/
def opLast (op : Nat) : Bool := [2, 3, 4, 5, 8, 9, 10, 11].contains op
/-- A packet of a SEND. -/
def opSend (op : Nat) : Bool := decide (op ≤ 5)

/-- What a kind does not accept (R176): the NAK code, none when it accepts the opcode. -/
def kindRefuses (kind op : Nat) : Option Nat :=
  if op = 3 || op = 5 then some 1
  else match kind with
    | 0 => if opSend op then none else if op = 9 || op = 11 then some 1 else some 2
    | 1 => if opSend op then some 1 else if op = 8 || op = 10 || op = 12 then some 2 else none
    | _ => if opSend op then some 1 else none


/-- A doorbell or Porpor immediate is one that its owner knows (R206, R362). -/
def immKnown (s : State) (q : Nat) (imm : Nat) : Bool :=
  if (qpOf s q).kind = 1 then field imm 30 2 != 3 && (tqOf s (16 * q + field imm 26 4)).state != .free
  else [1, 2, 3, 4].contains (field imm 28 4)

/-- A receive entry for a SEND (R169, R193): from the queue pair's own queue or its shared one. -/
def takeEntry (s : State) (q : Nat) : Option State :=
  let x := qpOf s q
  match x.srq with
  | some r =>
    if tget s.rdt.srqUsed 0 r < x.srqDepth then
      some { s with rdt := { s.rdt with srqUsed := tput s.rdt.srqUsed 0 r (tget s.rdt.srqUsed 0 r + 1) } }
    else none
  | none => if 0 < x.recv then some (setQp s q { x with recv := x.recv - 1 }) else none

/-- A refusal under R212, counted. -/
def countRefusal (s : State) (v : Nat) : State := count (rcAdd s 0x61018 0 1) 0x0502 none (some v)

/-- The largest command that a tenant has pending (R212), one refused now among them. -/
def notePending (s : State) (v bytes : Nat) : State :=
  let r := tget s.cfe.rt {} v
  { s with cfe := { s.cfe with rt := tput s.cfe.rt {} v { r with pending := max r.pending bytes } } }

/-- The tenant for which a message is refused at its first packet (R169, R212): a capsule of an I/O queue whose tenant is stopped, or a push
of a stopped tenant or a frozen queue. -/
def firstRefused (s : State) (q : Nat) (p : RocePkt) : Option Nat :=
  let x := qpOf s q
  if x.kind = 0 then match x.assoc.bind (assocOf s) with
    | some a => if a.qp != q && vssStopped s a.vss then some a.vss else none
    | none => none
  else if x.kind = 1 then match pushQueue s q p.rkey with
    | some k => if decide (0 < p.dlen) && (vssStopped s (tqOf s k).vss || (tqOf s k).frozen) then some (tqOf s k).vss else none
    | none => none
  else none

/-- The target of a WRITE is open (R178): a push window for kind 1, where a zero-length doorbell names none, a peer window for kind 2. -/
def writeAllowed (s : State) (q : Nat) (p : RocePkt) : Bool :=
  if (qpOf s q).kind = 1 then
    if p.dlen = 0 then p.op == 11
    else match pushQueue s q p.rkey with
      | some k => decide (p.va + p.dlen ≤ pushSlotBytes * leAt (tqOf s k).desc 26 1)
      | none => false
  else winAllows s q p.rkey p.va p.dlen true

/-- The inbound message whose last packet has not come. -/
def openMsg (x : Qp) : Option InMsg := x.inMsgs.getLast?.filter fun m => !m.whole

/-- A queue pair is that of an I/O queue of an association. -/
def ioQueue (s : State) (q : Nat) : Bool :=
  match (qpOf s q).assoc.bind (assocOf s) with
  | some a => a.qp != q
  | none => false

/-- The message that a First or Only packet begins. The front end decides on a capsule of an I/O queue and on a doorbell; a capsule of an admin
queue, or Connect, is never refused and waits for nobody. A WRITE into a peer window takes a reference on the version it matched (R178). -/
def beginMsg (s : State) (q : Nat) (p : RocePkt) : InMsg × State :=
  let m : InMsg := { psn := p.psn, send := opSend p.op, len := p.dlen, rkey := p.rkey, va := p.va, cap := p.cap,
                     taken := (qpOf s q).kind == 0 && !ioQueue s q }
  if (qpOf s q).kind = 2 then match tableRef s 4 (p.rkey % 1024) with
    | (some v, s) => ({ m with win := some (p.rkey % 1024, v) }, s)
    | (none, s) => (m, s)
  else (m, s)

/-- A message leaves the transport: its cells go to the command context it belongs to, which has then its payload whole, or are free; its window
reference is dropped. -/
def releaseMsg (s : State) (m : InMsg) : State :=
  let s := match m.win with
    | some w => tableDrop s 4 w.1 w.2
    | none => s
  giveCells (match m.ctx with
    | some n => onCtx s n fun c => { c with whole := true }
    | none => s) m.ctx m.cells

/-- The capsule of an admin queue has come whole: what is wrong with it is kept for its command (R194). -/
def noteCap (s : State) (q : Nat) (m : InMsg) : State :=
  match m.cap, (qpOf s q).assoc, m.send && !ioQueue s q with
  | some h, some a, true => match assocOf s a with
    | some x => setAssoc s a (some { x with caps := tput x.caps 0 h.cid (if !h.sglOk then 1 else if 64 + 8192 < m.got then 2 else 0) })
    | none => s
  | _, _, _ => s

/-- A packet joins its message: a whole message whose owner has taken it, or that has none, is done; any other stays for its owner (R170,
R177). -/
def joinMsg (s : State) (q : Nat) (m : InMsg) (rest : List InMsg) (p : RocePkt) : State :=
  let m := { m with got := m.got + p.len, cells := m.cells + p.cells, whole := opLast p.op,
                    imm := if p.op = 9 || p.op = 11 then some p.imm else none }
  if m.whole && (m.taken || (!m.send && m.imm.isNone)) then releaseMsg (noteCap (setQp s q { qpOf s q with inMsgs := rest }) q m) m
  else setQp s q { qpOf s q with inMsgs := rest ++ [m] }

/-- The packet is executed: it joins its message, ePSN and, at the message's end, the MSN advance, and it is acknowledged (R166, R168,
R170). -/
def executed (s : State) (q : Nat) (p : RocePkt) : State :=
  let (m, s) := match openMsg (qpOf s q) with
    | some m => (m, s)
    | none => beginMsg s q p
  let rest := (qpOf s q).inMsgs.filter fun k => k.whole
  let s := joinMsg s q m rest p
  let x := qpOf s q
  ackPacket (setQp s q { x with epsn := psnAdd x.epsn 1, msn := if opLast p.op then psnAdd x.msn 1 else x.msn, nakSent := false,
                                state := .rts }) q p.psn p.ackReq

/-- Execute a SEND or WRITE packet at the expected PSN. -/
def execWrite (s : State) (q : Nat) (p : RocePkt) : State :=
  let free := freeCells s p.cells
  let midOk := match openMsg (qpOf s q) with
    | some m => !opFirst p.op && m.send == opSend p.op
    | none => opFirst p.op
  if !midOk then nakError free q 1
  else if opFirst p.op && !opSend p.op && !writeAllowed s q p then nakError free q 2
  else if opFirst p.op && (firstRefused s q p).isSome then
    let v := (firstRefused s q p).getD 0
    sendRnr (countRefusal (notePending free v (4096 * (p.cap.elim 0 fun h => h.need))) v) q p.psn
  else if (p.op = 9 || p.op = 11) && !immKnown s q p.imm then nakError free q 1
  else if opFirst p.op && opSend p.op then match takeEntry s q with
    | some s => executed s q p
    | none => sendRnr free q p.psn
  else executed s q p

/-! ### What the owner takes (R169, R170, R177) -/

/-- The oldest inbound message that its owner has not taken. -/
def headMsg (x : Qp) : Option InMsg := x.inMsgs.find? fun m => !m.taken

/-- The owner has delivered to it a message whose last packet has come, with an immediate that satisfies a test (R177). -/
def delivered (s : State) (q : Nat) (t : Nat → Bool) : Bool :=
  match headMsg (qpOf s q) with
  | some m => m.whole && m.imm.any t
  | none => false

/-- The owner takes the oldest message, for a command context or none: the receive entry of a SEND returns (R30), a whole message is done,
and the ACK that waited for the decision goes. -/
def takeMsg (s : State) (q : Nat) (ctx : Option Nat) : State :=
  match headMsg (qpOf s q) with
  | none => s
  | some m =>
    let s := if m.send then recvReturn s q else s
    let t : InMsg := { m with taken := true, ctx := ctx }
    let s := if m.whole then releaseMsg (setQp s q { qpOf s q with inMsgs := (qpOf s q).inMsgs.erase m }) t
      else match ctx with
        | some n => setQp (onCtx s n fun c => { c with whole := false }) q
            { qpOf s q with inMsgs := (qpOf s q).inMsgs.map fun k => if k = m then t else k }
        | none => setQp s q { qpOf s q with inMsgs := (qpOf s q).inMsgs.map fun k => if k = m then t else k }
    settleAck s q

/-- The owner refuses the oldest message (R169): an RNR NAK for its first packet, to which the receiver returns; it and all behind it are
gone, with their receive entries. -/
def refuseMsg (s : State) (q : Nat) : State :=
  match headMsg (qpOf s q) with
  | none => s
  | some m =>
    let gone := (qpOf s q).inMsgs.dropWhile fun k => k.taken
    let s := recvBack s q (entriesHeld gone)
    let s := gone.foldl (fun s k => releaseMsg s { k with ctx := none }) s
    let x := qpOf s q
    sendRnr (setQp s q { x with epsn := m.psn, msn := psnAdd x.msn (2 ^ 24 - gone.countP (fun k => k.whole)), nakSent := false,
                                inMsgs := x.inMsgs.takeWhile fun k => k.taken, ackPend := 0, ackDue := false }) q m.psn

/-- The response packets of a read. -/
def readSpan (x : Qp) (len : Nat) : Nat := max 1 ((len + pmtuBytes x.pmtu - 1) / pmtuBytes x.pmtu)

/-- The response packets of a read from the `i`-th on. -/
def responses (x : Qp) (psn len i : Nat) : List Resp :=
  let n := readSpan x len
  ((List.range n).drop i).map fun k =>
    { op := if n = 1 then 0x10 else if k = 0 then 0x0D else if k + 1 = n then 0x0F else 0x0E, psn := psnAdd psn k,
      len := min (pmtuBytes x.pmtu) (len - k * pmtuBytes x.pmtu) }

/-- Execute a READ request (R167, R178, R179): its entry joins the read history with a reference on the window version it matched, the oldest
beyond READ_DEPTH is overwritten, and the responses wait to be sent. A bad source ends the connection. -/
def execRead (s : State) (q : Nat) (p : RocePkt) : State :=
  if !winAllows s q p.rkey p.va p.dlen false then nakError s q 2
  else if p.srcBad then nakError s q 3
  else
    let (v, s) := tableRef s 4 (p.rkey % 1024)
    let x := qpOf s q
    let n := readSpan x p.dlen
    let h := x.hist ++ [{ psn := p.psn, span := n, len := p.dlen, rkey := p.rkey, va := p.va, win := p.rkey % 1024, ver := v.getD 0 }]
    let extra := h.length - x.rdepth
    let s := setQp s q { x with epsn := psnAdd x.epsn n, msn := psnAdd x.msn 1, nakSent := false, state := .rts,
                                hist := h.drop extra, respq := x.respq ++ responses x p.psn p.dlen 0 }
    ackPacket (dropRefs s ((h.take extra).map fun e => (4, e.win, e.ver))) q p.psn p.ackReq

/-- A duplicate request is never executed (R167): a read is answered again from its history entry, anything else acknowledged. -/
def duplicate (s : State) (q : Nat) (p : RocePkt) : State :=
  let s := rcAdd s 0x30114 0 1
  let x := qpOf s q
  if p.op = 12 then
    match x.hist.find? fun h => decide (psnGap p.psn h.psn < h.span) with
    | some h =>
      if p.srcBad then nakError s q 3
      else
        let s := setQp s q { x with respq := x.respq ++ responses x h.psn h.len (psnGap p.psn h.psn) }
        if p.ackReq then ackPacket s q p.psn true else s
    | none => s
  else ackPacket s q p.psn p.ackReq

/-- A request packet (R156, R157, R166): by its PSN, then its length and its kind. Only the packets of a SEND or WRITE that is executed keep
their cells. -/
def request (s : State) (q : Nat) (p : RocePkt) : State :=
  let x := qpOf s q
  let free := freeCells s p.cells
  if psnAhead p.psn x.epsn then sendSeqNak free q
  else if p.psn % 2 ^ 24 ≠ x.epsn then duplicate free q p
  else if 12 < p.op then nakError free q 1
  else if !lengthFits x p then nakError free q 1
  else match kindRefuses x.kind p.op with
    | some code => nakError free q code
    | none => if p.op = 12 then execRead free q p else execWrite s q p

/-- A packet for a context that is on chip (R157, checks 4 to 7). -/
def qpPacket (s : State) (q : Nat) (p : RocePkt) : State :=
  let x := qpOf s q
  let free := freeCells s p.cells
  if p.src ≠ x.rip || !(x.state == .rtr || x.state == .rts) then rcAdd free 0x3010C 0 1
  else
    let mark := fun (s : State) => if p.ce then cnpSend s q else s
    if p.op = 0x81 then cnpReceive (mark free) q
    else if p.op = 0x11 then ackReceive (mark free) q p.psn p.syn
    else if 0x0D ≤ p.op && p.op ≤ 0x10 then readResponse (mark s) q p
    else request (mark s) q p

/-- The context becomes the most recently used of the on-chip cache (R162). -/
def cacheUse (s : State) (q : Nat) : State :=
  { s with rdt := { s.rdt with cache := (q :: s.rdt.cache.filter (· != q)).take 8192 } }

/-- A context that is not on chip is fetched; the packets given wait for it (R162). -/
def fetchCtx (s : State) (q : Nat) (ps : List RocePkt) : State :=
  let s := rcAdd s 0x30104 0 1
  let l := s.rdt.fetching
  let l := if l.any fun x => x.1 == q then l.map fun x => if x.1 = q then (q, x.2 ++ ps) else x else l ++ [(q, ps)]
  { s with rdt := { s.rdt with fetching := l } }

/-- The acknowledgement that led from `s0` to `s` wrote the bitmap word of a logged packet, and the word's line is poisoned: its slot's OVERFLOW is set
(R184, R493). -/
def dlogPoison (s0 s : State) (q addr : Nat) : State :=
  let left := (qpOf s q).unacked
  match (qpOf s0 q).unacked.find? fun p => isWrite p.kind && (dlogOf s p.slot).enable && p.slot != 0 && !left.contains p with
  | none => s
  | some p => dlogOverflow (consumePoison s addr 0 p.slot) q p.slot (dlogOf s p.slot)

/-- A packet for a context on chip is handled, its acknowledgement with what it reads of the dirty log. -/
def qpHandle (s : State) (q : Nat) (p : RocePkt) : State :=
  let s' := qpPacket s q p
  match p.dlogBad with
  | some addr => if p.op = 0x11 then dlogPoison s s' q addr else s'
  | none => s'

/-- A packet for context `q`: discarded under an old generation, held while the context is fetched, or handled (R159, R162). -/
def packetTo (s : State) (q : Nat) (p : RocePkt) : State :=
  let x := qpOf s q
  if p.qpn / 2 ^ 16 ≠ qpnGen s q || 0 < x.instar.pending then
    let (s, i) := discardStale (rcAdd (freeCells s p.cells) 0x30110 0 1) 2 0x0202 q x.instar
    setQp s q { x with instar := i }
  else if s.rdt.cache.contains q then qpHandle (cacheUse s q) q p
  else fetchCtx s q [p]

/-- A packet for the management cores (R140, R160), which may meet poison in their data (R493). -/
def coresPacket (s : State) (sub : Nat) (p : RocePkt) : State :=
  let s := emit s (.cores sub 0x0800)
  match p.fwBad with
  | some (addr, m) => firmwarePoison s addr m
  | none => s

/-- A packet leaves its ingress queue of a sub-port (R157, R159, R379): dropped by the checks of its header, handed to the management cores, or
given to its context. -/
def packetIn (s : State) (sub : Nat) (p : RocePkt) : State :=
  let free := freeCells s p.cells
  match p.poison with
  | some a => consumePoison (writeEvent (rcAdd free 0x40024 0 1) { num := 0x0301, detail := [a] }) a 4 sub
  | none =>
    if !p.icrc then rcAdd free 0x30108 0 1
    else if p.ver ≠ 0 || p.pkey % 2 ^ 15 ≠ 0x7FFF || (32 ≤ p.op && p.op ≠ 0x81) then rcAdd free 0x3010C 0 1
    else if sub = 32 && p.qpn = 1 then coresPacket s sub p
    else if p.qpn = 1 then match coresRate free sub with
      | (true, s) => coresPacket s sub p
      | (false, s) => s
    else if p.qpn < 2 ^ 16 || (sub == 32) != ((qpOf s (p.qpn % 2 ^ 16)).sub == 32) then rcAdd free 0x3010C 0 1
    else packetTo (count s 0x0201 (some (p.qpn % 2 ^ 16)) (some (qpVss s (p.qpn % 2 ^ 16)))) (p.qpn % 2 ^ 16) p

/-- A context arrives from DRAM: the packets that waited for it are handled in their order; an uncorrectable one ends its connection (R162,
R163). A context that nothing waits for was never asked for. -/
def contextFetched (s : State) (q : Nat) (r : CtxFetch) : State :=
  match s.rdt.fetching.find? fun x => x.1 == q with
  | none => s
  | some (_, ps) =>
    let s := { s with rdt := { s.rdt with fetching := s.rdt.fetching.filter fun x => x.1 != q } }
    let s := match r with
      | .good => s
      | .lost addr => qpDown (consumePoison s addr 0 q) q 10
      | .tqLost addr qidx => tqError (consumePoison s addr 0 (16 * q + qidx)) (16 * q + qidx) 4
    ps.foldl (fun s p => packetTo s q p) (cacheUse s q)

/-! ### Sending (R171, R172, R181) -/

/-- The opcode of a packet by its message's kind and its place in it (R156). -/
def pktOp (p : Pkt) : Nat :=
  match p.kind, p.first, p.last with
  | .read, _, _ => 12
  | .send, true, true => 4
  | .send, true, false => 0
  | .send, false, false => 1
  | .send, false, true => 2
  | .write, true, true => 10
  | .writeImm, true, true => 11
  | _, true, false => 6
  | _, false, false => 7
  | .write, false, true => 8
  | .writeImm, false, true => 9

/-- Hand one packet to the port: debited, logged and emitted. Its fields are its address, its bytes, the R_Key, the message's length and the
immediate. -/
def emitPacket (s : State) (q : Nat) (p : Pkt) (draw : Nat) : State :=
  let k : TxKind := if p.cpl then .completion else if p.kind = .read then .readReq else .data
  let n := if p.kind = .read then 16 else p.len
  let s := countBytes (debitBucket s q n) q n
  let s := if isWrite p.kind then dlogTouch s q p.slot p.va p.len else s
  packetOut (qpFrame s q k p.psn n draw) q (pktOp p) p.psn [p.va, p.len, p.rkey, p.mlen, p.imm]

/-- Send the next packet to be resent, the same as the original (R172, R173); the log slot is that of this hand-over (R183, R184). -/
def sendAgain (s : State) (q draw : Nat) : State :=
  let x := qpOf s q
  let i := x.unacked.length - x.resend
  match x.unacked[i]? with
  | none => s
  | some p =>
    let p := { p with slot := x.dlog }
    if p.cpl || mayPace s q then
      count (rcAdd (emitPacket (setQp s q { x with resend := x.resend - 1, unacked := x.unacked.set i p }) q p draw) 0x30118 0 1) 0x0202
        (some q) (some (qpVss s q))
    else s

/-- Send the next read response (R181). -/
def sendResponse (s : State) (q : Nat) : State :=
  match (qpOf s q).respq with
  | [] => s
  | r :: rest =>
    if mayPace s q then
      let s := countBytes (debitBucket (setQp s q { qpOf s q with respq := rest }) q r.len) q r.len
      packetOut (qpFrame s q .readResp r.psn r.len 100) q r.op r.psn [r.len]
    else s

/-- The drain class of an outbound message's cells (R389). -/
def msgClass (x : Qp) (m : Msg) : Nat := if m.cpl then 2 else if x.kind = 2 then 3 else 5

/-- The reads a queue pair has outstanding. -/
def readsOut (x : Qp) : Nat := (x.unacked.filter fun p => p.kind == .read).length

/-- Send the next packet of the head message, when the window, the bucket and the cells allow it. -/
def sendNew (s : State) (q draw : Nat) : State :=
  let x := qpOf s q
  match x.sendq with
  | [] => s
  | m :: rest =>
    if x.window ≤ x.unacked.length || (m.kind = .read && x.depth ≤ readsOut x) then s
    else if !m.cpl && !mayPace s q then s
    else
      let mtu := pmtuBytes x.pmtu
      let size := if m.kind = .read then m.len else min mtu (m.len - m.sent)
      let last := m.kind = .read || m.len ≤ m.sent + size
      let cells := if m.kind = .read then 1 else cellsOf (frameLen s q size)
      match cellAlloc s (if rest.any fun y => y.cpl then 2 else msgClass x m) cells with
      | none => s
      | some s =>
        let span := if m.kind = .read then readSpan x m.len else 1
        let p : Pkt := { psn := x.next, span := span, len := size, kind := m.kind, va := m.va + m.sent, cpl := m.cpl, ctx := m.ctx,
                         fetch := m.fetch, first := m.sent = 0, last := last, at_ := m.at_, cells := cells, rkey := m.rkey, mlen := m.len,
                         imm := if last then m.imm else 0, slot := x.dlog }
        let s := setQp s q { x with next := psnAdd x.next span, unacked := x.unacked ++ [p],
                                    sendq := if last then rest else { m with sent := m.sent + size } :: rest }
        emitPacket s q p draw

/-- A queue pair sends its next packet, once its context is on chip (R162): a read response first, which no RNR wait of its own requests holds,
then what is to be resent, then what is new (DESIGN CHOICE of the order, log 68). -/
def packetSend (s : State) (q draw : Nat) : State :=
  let x := qpOf s q
  if x.state ≠ .rts then s
  else if !s.rdt.cache.contains q then (if s.rdt.fetching.any (fun f => f.1 == q) then s else fetchCtx s q [])
  else
    let s := cacheUse s q
    if !x.respq.isEmpty then sendResponse s q
    else if x.rnrWait then s
    else if 0 < x.resend then sendAgain s q draw else sendNew s q draw

/-! ### Timers (R168, R173 to R175) -/

/-- The oldest packet has timed out; an expiry whose packet has been acknowledged is discarded (R175). -/
def ackExpired (s : State) (q psn : Nat) : State :=
  let x := qpOf s q
  if x.state ≠ .rts || (x.unacked.head?.map fun p => p.psn) ≠ some psn then s
  else if x.retry = 0 then qpDown s q 1
  else setQp s q { x with retry := x.retry - 1, resend := x.unacked.length }

/-- The delay of an executed packet has passed: an expiry whose packet an ACK covers is discarded (R168, R175); while the front end still
decides, the ACK is due with its decision. -/
def coalesceExpired (s : State) (q psn : Nat) : State :=
  let x := qpOf s q
  if x.ackPend = 0 || x.ackFrom ≠ psn then s
  else settleAck (setQp s q { x with ackDue := true }) q

/-- A message has reached 60 s, whether or not a packet of it has been sent; an expiry whose message has been acknowledged is discarded (R174,
R175). -/
def lifetimeExpired (s : State) (q at_ : Nat) : State :=
  let x := qpOf s q
  if (x.unacked.any fun p => p.at_ == at_) || (x.sendq.any fun m => m.at_ == at_) then qpDown s q 3 else s

/-- An RNR wait ends. -/
def rnrEnds (s : State) (q : Nat) : State := if (qpOf s q).rnrWait then setQp s q { qpOf s q with rnrWait := false } else s

/-! ### Connection management (R160, R161, R164, R191, R202, R361) -/

/-- The context for a new connection: one never used, else the one longest in Reset with no bump held back (R160). -/
def freeQp (s : State) : Option Nat :=
  if s.rdt.fresh < 65536 then some s.rdt.fresh else s.rdt.resetQ.find? fun n => (qpOf s n).instar.pending == 0

/-- Two page ranges overlap. -/
def rangesMeet (a b c d : Nat) : Bool := decide (a < d) && decide (c < b)

/-- The pages that no other window may take: the active range and the reserved ones of each window (R360). -/
def winTaken (s : State) (but : Nat) : List (Nat × Nat) :=
  (s.fed.wins.filter fun x => x.1 != but).flatMap fun x =>
    (if x.2.ent.cur.base < x.2.ent.cur.limit then [(x.2.ent.cur.base, x.2.ent.cur.limit)] else []) ++ x.2.kept

/-- The window granted to a member: the one it holds, or the lowest unused number with the lowest free run of WINDOW_SLOTS slots
(R358, R361; DESIGN CHOICE, log 26). -/
def grantWindow (s : State) (member : Nat) : Option (Nat × State) :=
  match s.fed.wins.find? fun x => bitAt x.2.ent.cur.ctl 12 && field x.2.ent.cur.ctl 0 10 == member with
  | some x => some (x.1, s)
  | none =>
    let n := slotPages * windowSlots s
    let taken := winTaken s 1024
    let base := (0 :: taken.map Prod.snd).filter fun b => decide (b + n ≤ 131072) && taken.all fun r => !rangesMeet b (b + n) r.1 r.2
    match (List.range 1024).find? fun w => (winOf s w).ent.cur.base == (winOf s w).ent.cur.limit && (winOf s w).kept.isEmpty
            && (winOf s w).instar.pending == 0 && winRoom (winOf s w),
          base.foldl (fun (m : Option Nat) b => match m with | some x => some (min x b) | none => some b) none with
    | some w, some b =>
      let ctl := member + 2 ^ 10 + 2 ^ 11 + 2 ^ 12
      let x := winOf s w
      some (w, setWin s w (winFlip { x with sBase := b, sLimit := b + n, sCtl := ctl, instar := bumpInstar x.instar s.now (ticksMs 1) }))
    | _, _ => none

/-- Queue pairs of kind 2. -/
def porporCount (s : State) : Nat := (s.rdt.qps.filter fun x => x.2.kind == 2 && x.2.state != .reset).length

/-- A Porpor REQ is accepted (R361). -/
def porporReqOk (s : State) (r : CmReq) : Bool :=
  let m := memberOf s (r.member / 2)
  fedOn s && r.fedId == fedId s && m.state == 1 && r.src == (if r.member % 2 = 0 then m.a else m.b)
    && decide (porporCount s < par s 0x0C 10 2 0)

/-- The association that a VDQ REQ names: live, authenticated, of the same source address, on a tenant that allows VDQ (R202, R229). -/
def vdqAssoc (s : State) (r : CmReq) : Bool :=
  match assocOf s r.cntlid with
  | some a => !a.auth && !a.mgmt && !a.disc && (qpOf s a.qp).rip == r.src
      && (match vssOf s a.vss with | some v => bitAt v.flags 2 | none => false)
  | none => false

/-- The log slot that a tenant's new queue pairs join (R241). -/
def vssDlog (s : State) (v : Nat) : Nat :=
  ((s.rdt.dlogs.find? fun x => x.2.enable && x.2.vss == some v).map Prod.fst).getD 0

/-- Load a context for an accepted REQ and send REP: Reset, Init, RTR (R161, R164). -/
def loadQp (s : State) (q kind : Nat) (r : CmReq) (x0 : Qp) (rep : List Nat) : State :=
  let (e, s) := takeFree s
  let (n, s) := takeFree s
  let old := qpOf s q
  let line := subRate s r.sub
  let x : Qp := { x0 with state := .rtr, kind := kind, instar := old.instar, gens := old.gens, rqpn := r.rqpn % 2 ^ 24, rip := r.src,
                          pmtu := min r.pmtu (pmtuMax s), sub := r.sub, epsn := e % 2 ^ 24, next := n % 2 ^ 24,
                          depth := min r.depth (readDepth s), rdepth := readDepth s, ackTmo := ackTimeoutCode s, retry0 := retryCnt s, rnr0 := rnrRetry s,
                          retry := retryCnt s, rnr := rnrRetry s, window := sendWindow s, recv := bit (kind == 0), cr := line, tr := line,
                          alpha := 1024 }
  let s := { s with rdt := { s.rdt with fresh := if s.rdt.fresh = q then q + 1 else s.rdt.fresh,
                                        resetQ := s.rdt.resetQ.filter (· != q) } }
  let s := cacheUse (setQp s q x) q
  emit s (.packet q 0x101 0 ([localQpn s q, x.epsn, x.next, x.pmtu, x.depth] ++ rep))

/-- The modes in which the transport is up (R45). -/
def transportUp (s : State) : Bool := dataRuns s && !(s.glb.drainReason == .powerFail)

/-- A connection REQ (R160, R191, R202, R361). A path MTU below 1,024 B is refused (R158; DEDUCED, log 68). On the management port, sub-port 32, the
cores serve the binding of NVMe-oF alone, in every mode that has the port (R222; log 67). -/
def cmRequest (s : State) (r : CmReq) : State :=
  let reject := emit s (.packet 65536 0x102 0 [r.rqpn])
  if !(if r.sub = 32 then s.prt.mgmtUp && s.glb.mode != .held else transportUp s) then s
  else if r.pmtu < 3 || (r.sub == 32 && r.recfmt != 0) then reject
  else match freeQp s with
    | none => reject
    | some q =>
      if r.recfmt = 0 then loadQp s q 0 r {} []
      else if r.recfmt = 0xAC01 then
        if vdqAssoc s r then
          let v := match assocOf s r.cntlid with | some a => a.vss | none => 0
          loadQp s q 1 r { assoc := some r.cntlid, dlog := vssDlog s v } []
        else reject
      else if r.recfmt = 0xAC02 && porporReqOk s r then match grantWindow s r.member with
        | some (w, s) => loadQp s q 2 r { member := r.member, grant := w, peerKey := r.peerKey, peerSlots := r.peerSlots }
            [rkeyPrefix s + w, windowSlots s]
        | none => reject
      else reject

/-- Frames of a queue pair that still hold a bucket version (R42, R164). -/
def framesHold (s : State) (q : Nat) : Bool := s.swc.eg.any fun l => l.2.any fun f => f.qp == q && f.bucket.isSome

/-- A context in Error that holds nothing returns to Reset (R164); the cause of its entry to Error stays shown (R190). -/
def contextFree (s : State) (q : Nat) : State :=
  let x := qpOf s q
  if x.state ≠ .error || framesHold s q then s
  else
    let s := setQp s q { instar := x.instar, gens := x.gens, err := x.err }
    bumpQp { s with rdt := { s.rdt with resetQ := s.rdt.resetQ.filter (· != q) ++ [q] } } q

/-! ### Rows -/

/-- A row about a queue-pair context. -/
def onQp (q : Nat) (s : State) (f : State → State) : Host.Outcome State Fault Refusal :=
  if q < 65536 then .next (f s) else .fault (.noSuchInstance "queue pair")

/-- A row about an ingress queue. -/
def onIng (sub prio : Nat) (s : State) (f : State → State) : Host.Outcome State Fault Refusal :=
  if sub < 32 ∧ prio < 8 then .next (f s) else .fault (.noSuchInstance "ingress queue")

def execCmReq (r : CmReq) (s : State) : Host.Outcome State Fault Refusal :=
  if r.sub ≤ 32 then .next (cmRequest s r) else .fault (.noSuchInstance "sub-port")

/-- The RTU of a connection has come (R164). -/
def rtuReceive (s : State) (q : Nat) : State :=
  if (qpOf s q).state = .rtr then setQp s q { qpOf s q with state := .rts } else s

def execCmDreq (q : Nat) (s : State) : Host.Outcome State Fault Refusal := onQp q s fun s => qpDown s q 25

/-- A write of QP_CTL on the context of QP_SEL (R164, R190). -/
def qpCtlWrite (s : State) (val : Nat) : State :=
  if authMode s && bitAt val 0 then qpDown s (field (rwGet s 0x30000 0) 0 16) 9 else s

/-- QP_TEARDOWN. -/
def execQpTeardown (val : Word) (s : State) : Host.Outcome State Fault Refusal := .next (qpCtlWrite s val.toNat)

def execQpContextFree (q : Nat) (s : State) : Host.Outcome State Fault Refusal := onQp q s fun s => contextFree s q

/-- ACK_COALESCE_EXPIRY. -/
def execAckCoalesceExpiry (q psn : Nat) (s : State) : Host.Outcome State Fault Refusal := onQp q s fun s => coalesceExpired s q psn

def execAckTimeout (q psn : Nat) (s : State) : Host.Outcome State Fault Refusal := onQp q s fun s => ackExpired s q psn

def execRnrWaitExpiry (q : Nat) (s : State) : Host.Outcome State Fault Refusal := onQp q s fun s => rnrEnds s q

/-- MESSAGE_LIFETIME_EXPIRY. -/
def execMessageLifetimeExpiry (q at_ : Nat) (s : State) : Host.Outcome State Fault Refusal := onQp q s fun s => lifetimeExpired s q at_

def execRateAlphaTimer (q : Nat) (cnpToo : Bool) (s : State) : Host.Outcome State Fault Refusal := onQp q s fun s => alphaTick s q cnpToo

def execRateIncreaseTimer (q : Nat) (cnpToo : Bool) (s : State) : Host.Outcome State Fault Refusal :=
  onQp q s fun s => increaseTick s q cnpToo

def execQpPacketSend (q draw : Nat) (s : State) : Host.Outcome State Fault Refusal := onQp q s fun s => packetSend s q draw

def execDlogEnable (val : Word) (s : State) : Host.Outcome State Fault Refusal := .next (dlogCfgWrite s val.toNat)

def execDlogDisable (val : Word) (s : State) : Host.Outcome State Fault Refusal := .next (dlogCfgWrite s val.toNat)

/-- A write of QP_DLOG on the context of QP_SEL; 65 to 127 is ignored (R190). -/
def qpDlogWrite (s : State) (val : Nat) : State :=
  if !authMode s then s else
  let q := field (rwGet s 0x30000 0) 0 16
  if field val 0 7 ≤ 64 then setQp s q { qpOf s q with dlog := field val 0 7 } else s

def execQpDlogJoin (val : Word) (s : State) : Host.Outcome State Fault Refusal := .next (qpDlogWrite s val.toNat)

def execDlogHarvestRead (p : Path) (setNow : Nat) (s : State) : Host.Outcome State Fault Refusal :=
  .next (answerRead s (dlogHarvest s p setNow false))

end Sys2Proof.Machine
end

