-- ==== Sys2Proof/Machine/Federation.lean ====
section
/-! DEFINITION. The federation: what a host answers to Porpor requests, what an origin does with the answers, peer windows and leases
(chapter 12). -/

namespace Sys2Proof.Machine

/-! ### Requests that wait for a slot (R366) -/

/-- What a request carries behind its header fields. -/
def fragFields (s : State) (f : Frag) : List Nat :=
  if f.typ = 1 then match stripCtx s f.chunk f.stripe with
    | none => []
    | some (_, c) => match chunkAt s c.refs f.chunk with
      | some x => stripFields x f.chunk f.stripe f.member (memberBlks c x f.chunk f.stripe f.member)
      | none => []
  else if f.typ = 4 then match placeEnt s f.entry with
    | some v => [v.cur.k, v.cur.m, v.cur.chunks, v.cur.stripes]
    | none => []
  else []

/-- A fragment whose member slot has been declared failed waits for the slot's new shelf (R368): it is marked by 2 refusals. -/
def fragHeld (f : Frag) : Bool := decide (2 ≤ f.refused)

/-- Hand the waiting requests to their queue pairs, in order, as far as there are slots. -/
def fragKick (s : State) : State :=
  s.fed.frags.foldl (fun s f =>
    if f.sent || fragHeld f then s
    else
      let (s, g) := fragPost s f (fragFields s f)
      { s with fed := { s.fed with frags := s.fed.frags.map fun h => if h.tag = f.tag then g else h } }) s

/-- The request on a slot of a queue pair. -/
def fragAt (s : State) (qp slot : Nat) : Option Frag := s.fed.frags.find? fun f => f.sent && f.qp == qp && f.slot == slot

/-- The other side of a shelf. -/
def otherSide (f : Frag) : Nat := 1 - f.side

/-- Send a request again to the other side, which has now been tried. -/
def toOther (s : State) (f : Frag) : State := fragResend s { f with tried := f.side :: f.tried } (otherSide f) (fragFields s f)

/-! ### Spares (R368, R369) -/

/-- A placement slot takes a new content, in a new version of its entry. -/
def setSlot (s : State) (entry slot : Nat) (f : PSlot → PSlot) : State :=
  match placeEnt s entry with
  | some v => match v.cur.slots[slot]? with
    | some q => tabUpdate s (.place entry { v.cur with slots := v.cur.slots.set slot (f q) })
    | none => s
  | none => s

/-- The fragments that wait for the new shelf of a slot. -/
def heldFrags (s : State) (entry slot : Nat) : List Frag :=
  s.fed.frags.filter fun f => f.typ == 1 && f.entry == entry && f.member == slot && fragHeld f

/-- No spare answers: the slot is Missing, and the fragments to it are given up (R368). -/
def noSpare (s : State) (entry slot : Nat) : State :=
  let s := setSlot s entry slot fun q => { q with st := .missing }
  let s := writeEvent s { num := 0x0822, inst := entry, detail := [entry, slot] }
  let s := (fedChunks s entry).foldl (fun s x => match chunkEnt s x.1 with
    | some y => if y.m < missingCount y then markUnread s x.1 x.2 else s
    | none => s) s
  (heldFrags s entry slot).foldl (fun s f => stripFin (fragDrop s f) (f.chunk, f.stripe, f.member) false) s

/-- Ask the next spare of an entry for an extent: in SPARE order, past the shelves already asked, those not in state 1 and those that are
members. -/
def askSpare (s : State) (entry slot : Nat) (asked : List Nat) : State :=
  match placeEnt s entry with
  | none => s
  | some v =>
    match v.cur.spares.find? fun h => !asked.contains h && (memberOf s h).state == 1 && !(v.cur.slots.any fun q => q.shelf == h) with
    | none => noSpare s entry slot
    | some h => fragSend s (plainFrag 4 entry slot h []) (fragFields s (plainFrag 4 entry slot h []))

/-- The shelves of the spares before and up to one. -/
def sparesUpTo (v : PlaceEnt) (h : Nat) : List Nat := v.spares.take ((v.spares.takeWhile (· != h)).length + 1)

/-- A fragment goes to the shelf that now holds its slot, under a fresh lookup of the placement entry (R369). -/
def moveFrag (s : State) (g : Frag) : State :=
  let s := fragDrop s g
  match stripCtx s g.chunk g.stripe with
  | none => s
  | some (n, c) =>
    let held := c.refs.filter fun r => r.1 == 3 && r.2.1 == g.entry
    let s := dropRefs s held
    let (ver, s) := tableRef s 3 g.entry
    let refs := (c.refs.filter fun r => !held.contains r) ++ (match ver with | some w => [(3, g.entry, w)] | none => [])
    let s := setCtx s n (some { c with refs := refs })
    match chunkAt s refs g.chunk with
    | some x => (stripWrite s .flush x g.chunk g.stripe g.member (memberBlks c x g.chunk g.stripe g.member)).1
    | none => s

/-- A fragment has failed for good: the member slot is declared failed for this entry (R368); a slot already replaced takes the fragment
without a second ALLOC, and one whose spare is being asked holds it (R369). -/
def declareFailed (s : State) (f : Frag) : State :=
  match placeEnt s f.entry with
  | none => stripFin (fragDrop s f) (f.chunk, f.stripe, f.member) false
  | some v => match v.cur.slots[f.member]? with
    | none => stripFin (fragDrop s f) (f.chunk, f.stripe, f.member) false
    | some q =>
      if q.st = .missing then stripFin (fragDrop s f) (f.chunk, f.stripe, f.member) false
      else if q.shelf ≠ f.shelf then moveFrag s f
      else
        let s := writeEvent (rcAdd s 0x9020C 0 1) { num := 0x0820, inst := f.entry, detail := [f.entry, f.member, f.shelf] }
        let s := { s with fed := { s.fed with frags := s.fed.frags.map fun g =>
          if g.typ = 1 && g.entry = f.entry && g.member = f.member then { g with sent := false, refused := 2 } else g } }
        askSpare s f.entry f.member []

/-- A spare has given an extent: it takes the slot, Rebuilding, and the waiting fragments go to it under the new version (R368, R369). -/
def spareTaken (s : State) (f : Frag) (bay start : Nat) : State :=
  match placeEnt s f.entry with
  | none => s
  | some v => match v.cur.slots[f.member]? with
    | none => s
    | some q =>
      let s := tabUpdate s (.place f.entry { v.cur with
        spares := v.cur.spares.filter (· != f.shelf),
        slots := v.cur.slots.set f.member { shelf := f.shelf, st := .rebuilding, bay := bay, start := start } })
      let s := rcAdd s 0x90210 0 1
      let s := writeEvent s { num := 0x0821, inst := f.entry, detail := [f.entry, f.member, q.shelf, f.shelf] }
      let s := { s with fed := { s.fed with tofree := s.fed.tofree ++ [(f.entry, q.shelf)] } }
      let s := (heldFrags s f.entry f.member).foldl moveFrag s
      fedRbStart s f.entry f.member

/-! ### Leases (R357) -/

/-- The Lease Create that builds an entry. -/
def leaseOf (s : State) (entry : Nat) : Option LeaseOp := s.fed.leases.find? fun l => l.entry == entry
/-- Remove it. -/
def dropLease (s : State) (entry : Nat) : State :=
  { s with fed := { s.fed with leases := s.fed.leases.filter fun l => l.entry != entry } }
/-- Replace it. -/
def setLease (s : State) (l : LeaseOp) : State :=
  { s with fed := { s.fed with leases := s.fed.leases.map fun x => if x.entry = l.entry then l else x } }

/-- An origin or hosted entry is gone from the map. -/
def dropPlace (s : State) (entry : Nat) : State :=
  match placeEnt s entry with
  | some v => tabUpdate s (.place entry { group := v.cur.group })
  | none => s

/-- Ask a shelf to free its extent of an entry. -/
def sendFree (s : State) (entry shelf : Nat) : State := fragSend s (plainFrag 6 entry 0 shelf []) []

/-- A Lease Create ends without its lease: the members that accepted free their extents, and the command completes with Lease Refused. -/
def leaseFails (s : State) (l : LeaseOp) (shelf code : Nat) : State :=
  let s := dropLease s l.entry
  let s := l.got.foldl (fun s h => if h = ownShelf s then s else sendFree s l.entry h) s
  let s := dropPlace s l.entry
  reply (writeEvent s { num := 0x0824, inst := l.entry, detail := [shelf, code] }) l.c (.vendor 0xF1)

/-- A member has given its extent; with the last of them the lease stands. -/
def leaseGot (s : State) (l : LeaseOp) (slot shelf bay start : Nat) : State :=
  let s := setSlot s l.entry slot fun q => { q with bay := bay, start := start }
  let l := { l with wait := l.wait.filter (· != shelf), got := l.got ++ [shelf] }
  if l.wait.isEmpty then reply (dropLease s l.entry) l.c .success l.entry else setLease s l

/-- The drive a host chooses for an extent: the lowest free run on the drive with the most free strips (R327, R357). -/
def chooseExtent (s : State) (g n : Nat) : Option (Nat × Nat) :=
  ((memberCands s g).foldl (fun l b => insertByFree s b l) []).findSome? fun b => (lowestRun s b n).map fun a => (b, a)

/-- The lowest placement entry that is not in use. -/
def freePlace (s : State) : Option Nat :=
  let rec_ := fun (k : Nat) => (placeEnt s k).isNone || (match placeEnt s k with
    | some v => !v.cur.valid && v.refs == 0 && v.old.isEmpty
    | none => true)
  (List.range (s.fed.place.length + 1)).find? fun k => decide (k < 65536) && rec_ k

/-- The 16-bit shelf IDs of a list of bytes. -/
def shelfIds (d : List Byte) (off n : Nat) : List Nat := (List.range n).map fun i => leAt d (off + 2 * i) 2

/-- Lease Create (R357, R373). Its statuses: Not Federated first, then in the table's order. -/
def leaseCreate (s : State) (c : Cid) (cdw10 cdw11 : Nat) (data : List Byte) : State :=
  let g := field cdw10 0 1
  let k := field cdw10 8 8
  let m := field cdw10 16 8
  let chunks := field cdw11 0 16
  let ids := shelfIds data 0 (k + m)
  let spares := (shelfIds data 64 4).filter (· != 0xFFFF)
  let all := ids ++ spares
  if !fedOn s then reply s c (.vendor 0xF2)
  else if k < 2 || 28 < k || m < 1 || 4 < m || chunks = 0 || ids.contains 0xFFFF then reply s c .invalidField
  else if all.any fun h => (memberOf s h).state != 1 then reply s c (.vendor 0xF0)
  else if ids.eraseDups.length ≠ ids.length then reply s c .invalidField
  else match freePlace s with
    | none => reply s c (.vendor 0xE0)
    | some e =>
      if !(grpOf s g).owned then reply s c (.vendor 0xEA)
      else
        let st := stripesOf k
        let x : PlaceEnt := { valid := true, k := k, m := m, group := g, chunks := chunks, stripes := st, origin := ownMember s,
                              oent := e, spares := spares, slots := ids.map fun h => { shelf := h } }
        let own := if ids.contains (ownShelf s) then chooseExtent s g (chunks * st) else none
        if ids.contains (ownShelf s) && own.isNone then
          reply (writeEvent s { num := 0x0824, inst := e, detail := [ownShelf s, 5] }) c (.vendor 0xF1)
        else
          let s := tabUpdate s (.place e x)
          let s := { s with fed := { s.fed with leases := s.fed.leases ++ [⟨c, e, ids, [], none⟩] } }
          ids.zipIdx.foldl (fun s i =>
            if i.1 = ownShelf s then match leaseOf s e, own with
              | some l, some (b, a) => leaseGot s l i.2 i.1 b a
              | _, _ => s
            else fragSend s (plainFrag 4 e i.2 i.1 []) [k, m, chunks, st]) s

/-- The 320 bytes of a placement entry (R355). -/
def placeBytes (x : PlaceEnt) : List Nat :=
  let flags := bit x.valid + 2 * bit x.hosted + 4 * bit (x.slots.any fun q => q.st == .missing)
    + 8 * bit (x.slots.any fun q => q.st == .rebuilding)
  let sp := (x.spares ++ [0xFFFF, 0xFFFF, 0xFFFF, 0xFFFF]).take 4
  let head := [flags, x.k, x.m, x.group] ++ leBytes 2 x.chunks ++ leBytes 2 x.stripes ++ leBytes 2 x.origin ++ leBytes 2 x.oent
    ++ [0, 0, 0, 0] ++ sp.flatMap (leBytes 2) ++ List.replicate 40 0
  let slots := x.slots.flatMap fun q => leBytes 2 q.shelf ++ [memCode q.st, q.bay] ++ leBytes 4 q.start
  (head ++ slots ++ List.replicate 320 0).take 320

/-- Lease Read (R373); an entry whose lease is not complete is no object yet. -/
def leaseRead (s : State) (c : Cid) (cdw10 : Nat) : State :=
  let e := field cdw10 0 16
  match placeEnt s e with
  | some v => if v.cur.valid && (leaseOf s e).isNone then reply s c .success (v.ver % 65536) (placeBytes v.cur) else reply s c (.vendor 0xE2)
  | none => reply s c (.vendor 0xE2)

/-- Lease Release (R373): LEASE_FREE to every member, then the entry goes. Only an origin entry is a lease of this shelf. -/
def leaseRelease (s : State) (c : Cid) (cdw10 : Nat) : State :=
  let e := field cdw10 0 16
  match placeEnt s e with
  | some v =>
    if !v.cur.valid || v.cur.hosted || (leaseOf s e).isSome then reply s c (.vendor 0xE2)
    else if !(fedChunks s e).isEmpty then reply s c (.vendor 0xE3)
    else
      let s := v.cur.slots.foldl (fun s q => if q.shelf = ownShelf s then s else sendFree s e q.shelf) s
      reply (dropPlace s e) c .success
  | none => reply s c (.vendor 0xE2)

/-! ### The host side (R365, R371) -/

/-- The hosted entry of a request: of the origin shelf that sends it, under its entry number (DEDUCED, log 26). -/
def hostedEntry (s : State) (m : PorporMsg) : Option (Nat × PlaceEnt) :=
  (placeEntries s).find? fun x => x.2.hosted && x.2.origin / 2 == m.origin / 2 && x.2.oent == m.entry

/-- The strip of a drive LBA lies in the extent of a hosted entry. -/
def stripInside (x : PlaceEnt) (lba : Nat) : Option Nat :=
  match x.slots with
  | q :: _ =>
    if 262144 + 16 * q.start ≤ lba && lba % 16 = 0 && decide (lba < 262144 + 16 * (q.start + x.chunks * x.stripes)) then some q.bay
    else none
  | [] => none

/-- The refusal codes 1 to 4 of R365 for a request: the first that applies, 0 when none does. -/
def hostCheck (s : State) (qp : Nat) (m : PorporMsg) (needs rows : Bool) : Nat :=
  if !(grpOf s m.group).owned then 1
  else if !m.headOk || m.fedId ≠ fedId s || m.origin ≠ (qpOf s qp).member then 2
  else if needs && (match hostedEntry s m with | some x => (stripInside x.2 m.lba).isNone | none => true) then 3
  else if rows && !m.metaOk then 4
  else 0

/-- A Porpor message is served: on a queue pair of kind 2 that receives. -/
def porporOn (s : State) (qp : Nat) : Bool :=
  (qpOf s qp).kind == 2 && ((qpOf s qp).state == .rtr || (qpOf s qp).state == .rts)

/-- A Porpor signal is delivered to the federation once, with the last packet of its message (R177, R362): its OP stands in the immediate. -/
def porporTake (s : State) (qp op : Nat) : Option State :=
  if porporOn s qp && delivered s qp (fun i => field i 28 4 == op) then some (takeMsg s qp none) else none

/-- A row about a delivered Porpor signal. -/
def onPorpor (qp op : Nat) (s : State) (f : State → State) : Host.Outcome State Fault Refusal :=
  onQp qp s fun s => match porporTake s qp op with
    | some s => f s
    | none => s

/-- A group hosts extents (R354). -/
def hosts (s : State) (g : Nat) : Bool := bitAt s.fed.areaOk g

/-- The bay of a request's strip. -/
def hostBay (s : State) (m : PorporMsg) : Nat :=
  match hostedEntry s m with
  | some x => (stripInside x.2 m.lba).getD 0
  | none => 0

/-- STRIP_WRITE and STRIP_READ at the host: checked in the order of R365, then served in an internal context. A slot whose request is not
answered takes no other (R366). -/
def hostStrip (s : State) (qp slot : Nat) (m : PorporMsg) (reading : Bool) : State :=
  if (hostedOf s qp slot).isSome then s
  else
    let code := hostCheck s qp m true (!reading)
    if code ≠ 0 then porporAnswer s qp slot 3 code
    else
      let b := hostBay s m
      if !drivePresent s b then porporAnswer s qp slot 3 6
      else if !hosts s m.group then porporAnswer s qp slot 3 7
      else
        let h : Hosted := { qp := qp, slot := slot, spoke := b, lba := m.lba, rows := m.rows, retried := false,
                            reading := reading, msg := m }
        startInternal { s with fed := { s.fed with hosted := s.fed.hosted ++ [h] } } (.inbound qp slot)


/-- ALLOC at the host (R357, R365): a hosted entry with its own extent, answered with ALLOC_REPLY. -/
def hostAlloc (s : State) (qp slot : Nat) (m : PorporMsg) : State :=
    let code := hostCheck s qp m false false
    if code ≠ 0 then porporAnswer s qp slot 3 code
    else
      let p := fun i => (m.params[i]?).getD 0
      match chooseExtent s m.group (p 2 * p 3), freePlace s with
      | some (b, a), some e =>
        if !hosts s m.group then porporAnswer s qp slot 3 7
        else
          let x : PlaceEnt := { valid := true, hosted := true, k := p 0, m := p 1, group := m.group, chunks := p 2, stripes := p 3,
                                origin := m.origin, oent := m.entry, slots := [{ shelf := ownShelf s, bay := b, start := a }] }
          porporReply (tabUpdate s (.place e x)) qp 5 { m with reqSlot := slot, params := [b, a] }
      | _, _ => porporAnswer s qp slot 3 5

/-- LEASE_FREE at the host (R364): the hosted entry is removed. -/
def hostFree (s : State) (qp slot : Nat) (m : PorporMsg) : State :=
    let code := hostCheck s qp m false false
    if code ≠ 0 then porporAnswer s qp slot 3 code
    else match hostedEntry s m with
      | none => porporAnswer s qp slot 3 3
      | some x => porporAnswer (dropPlace s x.1) qp slot 2 0

/-! ### Answers at the origin (R364, R368, R371) -/

/-- A drive access of a context through another shelf has ended. -/
def remoteRead (s : State) (f : Frag) (ok : Bool) : State :=
  match f.ctx with
  | some n => driveArrive s n ok
  | none => s

/-- An accept (R364, R368, R369); one that answers nothing this side waits for is discarded (R255). -/
def fragAccept (s : State) (f : Frag) : State :=
  let s := fragDrop s f
  let s := if f.refused = 1 then transient s 8 f.shelf 8 0x0820 else s
  if f.typ = 1 then stripFin s (f.chunk, f.stripe, f.member) true else s

/-- A request has no more chance with its shelf: what its failure means, by its type. -/
def fragFails (s : State) (f : Frag) (code : Nat) : State :=
  if f.typ = 1 then declareFailed s f
  else if f.typ = 2 then remoteRead (fragDrop s f) f false
  else if f.typ = 4 then
    let s := fragDrop s f
    match leaseOf s f.entry with
    | some l => leaseFails s l f.shelf code
    | none => match placeEnt s f.entry with
      | some v => askSpare s f.entry f.member (sparesUpTo v.cur f.shelf)
      | none => s
  else fragDrop s f

/-- A refusal (R368): code 1 goes to the other controller at once, another code is sent once more to the same one. -/
def fragRefuse (s : State) (f : Frag) (code : Nat) : State :=
  if code = 1 then (if f.tried.contains (otherSide f) then fragFails s f code else toOther s f)
  else if f.typ = 1 && f.refused = 0 then fragResend s { f with refused := 1 } f.side (fragFields s f)
  else fragFails s f code

/-- No answer within FRAG_TIMEOUT_MS (R357, R368): the other controller, if it has not been tried; a Lease Create asks once. -/
def fragLate (s : State) (f : Frag) : State :=
  if f.typ = 4 && (leaseOf s f.entry).isSome then fragFails s f 0
  else if f.tried.contains (otherSide f) then fragFails s f 0
  else toOther s f

/-- The leases of replaced members are freed when a queue pair to their shelf is in RTS (R372). -/
def freeReplaced (s : State) : State :=
  s.fed.tofree.foldl (fun s x =>
    if (porporQp s (2 * x.2)).isSome || (porporQp s (2 * x.2 + 1)).isSome then
      let side := if (porporQp s (2 * x.2)).isSome then 0 else 1
      fragSend { s with fed := { s.fed with tofree := s.fed.tofree.filter (· != x) } }
        { plainFrag 6 x.1 0 x.2 [] with side := side } []
    else s) s

/-- After an answer: waiting requests find the free slot, and replaced members are asked to free their extents. -/
def fedSettle (s : State) : State := fragKick (freeReplaced s)

/-- A hosted read or write of an answered request, on the origin: OP 2. -/
def porporAccept (s : State) (qp slot : Nat) : State :=
  match fragAt s qp slot with
  | some f => fedSettle (fragAccept s f)
  | none => s

/-- OP 3. -/
def porporRefuse (s : State) (qp slot code : Nat) : State :=
  match fragAt s qp slot with
  | some f => fedSettle (fragRefuse s f code)
  | none => s

/-- The request that a reply answers: its slot and TAG. -/
def replyFrag (s : State) (qp : Nat) (m : PorporMsg) (typ : Nat) : Option Frag :=
  match fragAt s qp m.reqSlot with
  | some f => if f.typ = typ && f.tag == m.tag then some f else none
  | none => none

/-- READ_DATA (R371): rows flagged as unreadable fail the access, as a drive's own read error would. -/
def readDataArrives (s : State) (qp : Nat) (m : PorporMsg) : State :=
  match replyFrag s qp m 2 with
  | some f => fedSettle (remoteRead (fragDrop s f) f ((m.params[0]?).getD 0 == 0))
  | none => s

/-- ALLOC_REPLY (R357, R368): an extent of a lease, or of a spare; one that nothing waits for any more is freed again. -/
def allocReply (s : State) (qp : Nat) (m : PorporMsg) : State :=
  match replyFrag s qp m 4 with
  | none => s
  | some f =>
    let s := fragDrop s f
    let bay := (m.params[0]?).getD 0
    let start := (m.params[1]?).getD 0
    fedSettle (match leaseOf s f.entry with
      | some l => leaseGot s l f.member f.shelf bay start
      | none => if (placeEnt s f.entry).any fun v => v.cur.valid then spareTaken s f bay start else sendFree s f.entry f.shelf)

/-- FRAG_TIMEOUT: an accept of the same cycle is applied instead (R255, R369). -/
def fragTimeout (s : State) (tag : Nat) (acceptToo : Bool) : State :=
  match s.fed.frags.find? fun f => f.tag == tag with
  | none => s
  | some f => if fragHeld f then s else fedSettle (if acceptToo then fragAccept s f else fragLate s f)

/-! ### Peer windows (R359, R360) -/

/-- The reserved pages that a flip leaves: the slots of the old range outside the new one that hold a request not yet answered. -/
def keptSlots (s : State) (w : Nat) (x : PWin) (lo hi : Nat) : List (Nat × Nat) :=
  (s.fed.hosted.filter fun h => (qpOf s h.qp).kind == 2 && (qpOf s h.qp).grant == w).filterMap fun h =>
    let a := x.ent.cur.base + slotPages * h.slot
    let b := a + slotPages
    if lo ≤ a && b ≤ hi then none else some (a, b)

/-- A write of COC_PWIN_CTL on the window of COC_PWIN_ADDR: the shadow, and APPLY (R359, R360). -/
def pwinCtlWrite (s : State) (val : Nat) : State :=
  if !authMode s then s else
  let w := field (rwGet s 0x80200 0) 0 10
  let x := { winOf s w with sCtl := field val 0 13 }
  let s := setWin s w x
  if !bitAt val 31 then s
  else
    let bad := decide (x.sLimit ≤ x.sBase) || decide (131072 < x.sLimit)
      || (winTaken s w).any fun r => rangesMeet x.sBase x.sLimit r.1 r.2
    if bad then writeEvent (setWin s w { x with rejected := true }) { num := 0x0720, inst := w, detail := [w] }
    else
      let i := bumpInstar x.instar s.now (ticksMs 1)
      let s := setWin s w { x with rejected := false, instar := i, kept := x.kept ++ keptSlots s w x x.sBase x.sLimit }
      if i.val = x.instar.val then s else tabUpdate s (.win w)

/-! ### The member table (R353, R373) -/

/-- Bytes in network byte order as a number. -/
def beNat (bs : List Byte) : Nat := leNat bs.reverse

/-- The member entry that 64 bytes spell; none when a field is outside its range (R353). -/
def memberEntry (d : List Byte) : Option (Nat × FedMember) :=
  let shelf := leAt d 0 2
  let flags := leAt d 3 1
  let zero := fun (off len : Nat) => leAt d off len == 0
  let v6 := bitAt flags 0
  if 511 < shelf || 2 < leAt d 2 1 || 1 < flags || !zero 4 12 || !zero 48 12
      || leAt d 60 4 ≠ crc32c ((d.take 60).map BitVec.toNat) then none
  else
    let addr := fun off => beNat ((d.drop off).take (if v6 then 16 else 4))
    some (shelf, { state := leAt d 2 1, v6 := v6, a := addr 16, b := addr 32 })


/-! ### Rows -/

def execStripWrite (qp slot : Nat) (d : PorporIn) (s : State) : Host.Outcome State Fault Refusal :=
  onPorpor qp 1 s fun s => hostStrip s qp slot (readMsg d) false

def execStripRead (qp slot : Nat) (d : PorporIn) (s : State) : Host.Outcome State Fault Refusal :=
  onPorpor qp 1 s fun s => hostStrip s qp slot (readMsg d) true

def execAlloc (qp slot : Nat) (d : PorporIn) (s : State) : Host.Outcome State Fault Refusal :=
  onPorpor qp 1 s fun s => hostAlloc s qp slot (readMsg d)

def execLeaseFree (qp slot : Nat) (d : PorporIn) (s : State) : Host.Outcome State Fault Refusal :=
  onPorpor qp 1 s fun s => hostFree s qp slot (readMsg d)

/-- A Porpor queue pair that has just reached RTS takes the requests that wait for it (R366). -/
def afterRts (s0 s : State) (q : Nat) : State :=
  if (qpOf s q).kind = 2 && (qpOf s0 q).state != .rts && (qpOf s q).state == .rts then fedSettle s else s

/-- A packet leaves an ingress queue; one on the management port, sub-port 32, comes from the cores, which have no such queue (R222). -/
def execRocePacketReceive (sub prio : Nat) (p : RocePkt) (s : State) : Host.Outcome State Fault Refusal :=
  if sub = 32 then .next (if s.prt.mgmtUp then packetIn s sub { p with cells := 0, poison := none } else s)
  else onIng sub prio s fun s => match ingPop s sub prio with
    | some (cells, s) =>
      let p := { p with cells := cells }
      atPoint s 1 (p.qpn % 2 ^ 16) (.packet sub p) fun s => afterRts s (packetIn s sub p) (p.qpn % 2 ^ 16)
    | none => s

def execQpContextFetchDone (q : Nat) (r : CtxFetch) (s : State) : Host.Outcome State Fault Refusal :=
  onQp q s fun s => afterRts s (contextFetched s q r) q

def execCmRtu (q : Nat) (s : State) : Host.Outcome State Fault Refusal :=
  onQp q s fun s => afterRts s (rtuReceive s q) q

def execPorporAccept (qp slot : Nat) (s : State) : Host.Outcome State Fault Refusal := onPorpor qp 2 s fun s =>
  atPoint s 8 (qpOf s qp).member (.accept qp slot) fun s => porporAccept s qp slot

def execPorporRefuse (qp slot code : Nat) (s : State) : Host.Outcome State Fault Refusal :=
  onPorpor qp 3 s fun s => atPoint s 8 (qpOf s qp).member (.refuse qp slot code) fun s => porporRefuse s qp slot code

def execReadData (qp : Nat) (d : PorporIn) (s : State) : Host.Outcome State Fault Refusal :=
  onPorpor qp 4 s fun s => readDataArrives s qp (readMsg d)

def execAllocReply (qp : Nat) (d : PorporIn) (s : State) : Host.Outcome State Fault Refusal :=
  onPorpor qp 4 s fun s => allocReply s qp (readMsg d)

def execFragTimeout (tag : Nat) (acceptToo : Bool) (s : State) : Host.Outcome State Fault Refusal :=
  .next (fragTimeout s tag acceptToo)

def execPeerWindowApply (val : Word) (s : State) : Host.Outcome State Fault Refusal := .next (pwinCtlWrite s val.toNat)


def execLeaseCreate (c : Cid) (cdw10 cdw11 : Nat) (data : List Byte) (s : State) : Host.Outcome State Fault Refusal :=
  .next (asManager s c 0 fun s => leaseCreate s c cdw10 cdw11 data)

def execLeaseRead (c : Cid) (cdw10 : Nat) (s : State) : Host.Outcome State Fault Refusal :=
  .next (asManager s c 1 fun s => leaseRead s c cdw10)

def execLeaseRelease (c : Cid) (cdw10 : Nat) (s : State) : Host.Outcome State Fault Refusal :=
  .next (asManager s c 0 fun s => leaseRelease s c cdw10)

end Sys2Proof.Machine
end

