-- ==== Sys2Proof/Machine/Admit.lean ====
section
/-! DEFINITION. Admission and arbitration (R211 to R216, R249, R257 to R259, R391, R392): the checks of a host command, the context it
takes, the stop and the reopening of a tenant, deficit round robin, the activation hold and the idle levels. -/

namespace Sys2Proof.Machine

/-! ### Section 0x0008 (R217) -/

/-- MAX_ASSOC. -/
def maxAssoc (s : State) : Nat := par s 0x08 0 2 4096
/-- MAX_IO_QUEUES. -/
def maxIoQueues (s : State) : Nat := par s 0x08 2 1 16
/-- MAX_QD. -/
def maxQd (s : State) : Nat := par s 0x08 4 2 1024
/-- ICD_KIB. -/
def icdKib (s : State) : Nat := par s 0x08 8 1 16
/-- FETCH_BATCH. -/
def fetchBatch (s : State) : Nat := par s 0x08 9 1 16
/-- ARB_BURST. -/
def arbBurst (s : State) : Nat := par s 0x08 10 1 8
/-- DISCOVERY. -/
def discoveryOn (s : State) : Bool := bitAt (par s 0x08 11 1 1) 0
/-- TQ_MAX. -/
def tqMax (s : State) : Nat := par s 0x08 12 2 4096
/-- KATO_MIN_MS. -/
def katoMin (s : State) : Nat := par s 0x08 18 2 5000
/-- IDLE1_US. -/
def idle1Us (s : State) : Nat := par s 0x08 20 4 100
/-- IDLE2_MS. -/
def idle2Ms (s : State) : Nat := par s 0x08 24 2 1000

/-! ### What a tenant holds -/

/-- Command slots reserved for the entries that a tenant's fetches bring (R207). -/
def fetchSlots (s : State) (v : Nat) : Nat :=
  s.cfe.tqs.foldl (fun n x => if x.2.vss = v then n + x.2.fetch + x.2.wait.length else n) 0

/-- All reserved command slots. -/
def reservedSlots (s : State) : Nat := s.cfe.tqs.foldl (fun n x => n + x.2.fetch + x.2.wait.length) 0

/-- Command slots held by a tenant or reserved for it. -/
def slotsHeld (s : State) (v : Nat) : Nat := slotsOf s v + fetchSlots s v

/-- SLOTS of a tenant; VSS 0 has 256 (R221, R247). -/
def slotLimit (s : State) (v : Nat) : Nat :=
  match vssOf s v with
  | some r => r.slots
  | none => if v = 0 then 256 else 0

/-- Free command slots of a tenant, within the controller's 65,536. -/
def slotsFree (s : State) (v : Nat) : Nat := min (slotLimit s v - slotsHeld s v) (65536 - (slotsTaken s + reservedSlots s))

/-- Own-staging pages a command of a class takes (R288): a block each for a Write, a record for Write Zeroes and for each range of
Dataset Management. -/
def cmdNeed (cls : Nat) (h : HostCmd) : Nat :=
  match cls with
  | 1 => h.nlb + 1
  | 3 => 1
  | 4 => h.len / 16
  | _ => 0

/-- The opcode classes of R257 that commands of the NVM command set belong to. -/
def nvmClass (op : Nat) : Option Nat :=
  match op with
  | 0x02 => some 0 | 0x01 => some 1 | 0x00 => some 2 | 0x08 => some 3 | 0x09 => some 4 | 0x05 => some 5
  | _ => none

/-- Commands admitted and not yet staged: their class and command. -/
def unstaged (s : State) : List (Nat × Ctx) :=
  ctxFilter s fun c => c.cmd.isSome && c.wr && c.pages.isEmpty && !c.committed && !c.done

/-- The pages those of a tenant will take. -/
def pagesDue (s : State) (v : Nat) : Nat :=
  ((unstaged s).filter fun x => x.2.vss == v).foldl (fun n x => n + match x.2.cmd with
    | some h => cmdNeed x.2.opc h
    | none => 0) 0

/-- The range records they will take, of all tenants. -/
def rangesDue (s : State) : Nat :=
  ((unstaged s).filter fun x => x.2.opc == 3 || x.2.opc == 4).foldl (fun n x => n + match x.2.cmd with
    | some h => cmdNeed x.2.opc h
    | none => 0) 0

/-- A tenant's cocoon quota, in pages. -/
def quotaPages (s : State) (v : Nat) : Nat :=
  match vssOf s v with
  | some r => 256 * r.cocMib
  | none => 0

/-- The quota has room for `need` pages of a tenant (R211, check 5). -/
def quotaRoom (s : State) (v need : Nat) : Bool := decide (tenantPages s v + pagesDue s v + need ≤ quotaPages s v)

/-! ### The shaper (R392) -/

/-- SHAPE_MBPS of a tenant. -/
def shapeMbps (s : State) (v : Nat) : Nat :=
  match vssOf s v with
  | some r => r.shape
  | none => 0

/-- A tenant's shaper bucket, in 1/1,024 bytes. -/
def tokensOf (s : State) (v : Nat) : Int := tget s.sch.tokens 0 v
/-- Write it. -/
def setTokens (s : State) (v : Nat) (x : Int) : State := { s with sch := { s.sch with tokens := tput s.sch.tokens 0 v x } }

/-- A tenant is shaped: it has a rate and its bucket is below 0. -/
def shaped (s : State) (v : Nat) : Bool := shapeMbps s v != 0 && decide (tokensOf s v < 0)

/-! ### Stopping and reopening a tenant (R212) -/

/-- Admission stops for a tenant: its tenant queues are Paused, and the largest command that waits is remembered. -/
def stopTenant (s : State) (v bytes : Nat) : State :=
  let r := rtOf s v
  let s := setRt s v { r with stopped := true, pending := max r.pending bytes }
  { s with cfe := { s.cfe with tqs := s.cfe.tqs.map fun x =>
      if x.2.vss = v && x.2.state = .active then (x.1, { x.2 with state := .paused }) else x } }

/-- The admission of a tenant may reopen: slots, quota and shaper allow one command of the largest size it has pending. -/
def mayReopen (s : State) (v : Nat) : Bool :=
  decide (0 < slotsFree s v) && quotaRoom s v ((rtOf s v).pending / 4096) && !shaped s v

/-- Debit the shaper by a command's data length; a bucket below 0 stops the tenant's admission (R392). -/
def debitShaper (s : State) (v len : Nat) : State :=
  if shapeMbps s v = 0 then s
  else
    let s := setTokens s v (tokensOf s v - (1024 * len : Nat))
    if shaped s v then stopTenant s v 0 else s

/-! ### The idle levels (R216) -/

/-- The first admission after an idle level wakes the front end; the exit is counted by the level left. -/
def idleWake (s : State) : State :=
  if s.cfe.idle = 0 then s
  else
    let v := tget s.regs.rc 0 (rk 0x61030 0)
    let lo := v % 65536
    let hi := v / 65536
    let v := if s.cfe.idle = 1 then min 65535 (lo + 1) + 65536 * hi else lo + 65536 * min 65535 (hi + 1)
    { s with cfe := { s.cfe with idle := 0 }, regs := { s.regs with rc := tput s.regs.rc 0 (rk 0x61030 0) v } }

/-- Nothing is held, in flight or awaiting admission on any tenant. -/
def frontIdle (s : State) : Bool :=
  slotsTaken s == 0 && s.cfe.holds.isEmpty
    && s.cfe.tqs.all fun x => x.2.fetch == 0 && x.2.wait.isEmpty
         && ((x.2.state != .active && x.2.state != .paused) || x.2.head == x.2.tail)

/-! ### Admission (R211) -/

/-- A namespace of a virtual subsystem by its NSID. -/
def nsByNsid (s : State) (v nsid : Nat) : Option (Nat × NsRec) :=
  s.cat.ns.findSome? fun x => match x.2 with
    | some r => if r.vss = v && r.nsid = nsid then some (x.1, r) else none
    | none => none

/-- The attached namespaces of a virtual subsystem. -/
def attachedOf (s : State) (v : Nat) : List (Nat × NsRec) :=
  s.cat.ns.filterMap fun x => match x.2 with
    | some r => if r.vss = v && r.attached then some (x.1, r) else none
    | none => none

/-- The namespaces a command names: one, or for a Flush with NSID 0xFFFF_FFFF every attached one (R214). -/
def namedNs (s : State) (v cls : Nat) (h : HostCmd) : List (Nat × NsRec) :=
  if cls = 2 && h.nsid = 0xFFFFFFFF then attachedOf s v
  else match nsByNsid s v h.nsid with
    | some x => if x.2.attached then [x] else []
    | none => []

/-- The block size of the namespace a command names; 4,096 where there is none. -/
def blockBytes (s : State) (v : Nat) (h : HostCmd) : Nat :=
  match nsByNsid s v h.nsid with
  | some x => if x.2.lbaf = 1 then 4104 else 4096
  | none => 4096

/-- A breach of a length rule or a reserved field (R194, R204); `icd` is the most data that may travel with the command. -/
def fieldsBad (s : State) (v cls icd : Nat) (h : HostCmd) : Bool :=
  !h.fieldsOk || (h.inl && decide (icd < h.len))
  || (match cls with
      | 0 | 1 | 5 => h.len != (h.nlb + 1) * blockBytes s v h || decide (2 ^ 20 < h.len)
      | 4 => h.len == 0 || h.len % 16 != 0 || decide (4096 < h.len) || (h.inl && 16 * h.ranges.length != h.len)
      | _ => false)

/-- Blocks past the end of a namespace: LBA Out of Range, as NVMe has it (PRESUMED, log 27). -/
def rangeBad (cls : Nat) (h : HostCmd) (r : NsRec) : Bool :=
  match cls with
  | 0 | 1 | 3 | 5 => decide (r.nsze < h.slba + h.nlb + 1)
  | 4 => h.inl && h.ranges.any fun x => decide (r.nsze < x.lba + x.len)
  | _ => false

/-- What admission makes of a command. -/
inductive Verdict where
  | bad (st : Status)
  | refuse
  | accept
  deriving DecidableEq, Repr

/-- The namespace's own state against new I/O: sanitize, format, hand-back (R242, R245, R465). -/
def nsBlocked (s : State) (v : Nat) (x : Nat × NsRec) : Option Status :=
  let wiping : Bool := match vssOf s v with
    | some r => r.state == .sanitizing
    | none => false
  if wiping then some .sanitizeInProgress
  else if x.2.fmt then some .formatInProgress
  else if (grpOf s x.2.group).await.contains x.1 then some .nsNotReady
  else none

/-- Checks 1 to 3 of R211 and what else decides by the namespace. -/
def accessCheck (s : State) (v cls : Nat) (h : HostCmd) : Option Status :=
  let nss := namedNs s v cls h
  let change := nss.any fun x => (grpOf s x.2.group).taking
  match s.glb.mode with
  | .active | .drain =>
    if s.glb.mode = .drain && s.glb.drainReason ≠ .activation then some .anaTransition
    else if nss.isEmpty && !(cls == 2 && h.nsid == 0xFFFFFFFF) then some .invalidNs
    else if change then some .anaTransition
    else if nss.any fun x => anaState s x.2.group == 2 then some .anaInaccessible
    else match nss.findSome? (nsBlocked s v) with
      | some st => some st
      | none => if h.nsid != 0xFFFFFFFF && (nss.any fun x => rangeBad cls h x.2) then some .lbaOutOfRange else none
  | _ => if change then some .anaTransition else some .anaInaccessible

/-- The checks of a command, in order: its fields, then R211. A fetched entry has its slot already and is never refused one (R207). -/
def admitCheck (s : State) (v cls icd : Nat) (h : HostCmd) (fetched : Bool) : Verdict :=
  if !h.sglOk then .bad .sglTypeInvalid
  else if fieldsBad s v cls icd h then .bad .invalidField
  else match accessCheck s v cls h with
    | some st => .bad st
    | none =>
      let need := cmdNeed cls h
      if !fetched && (vssStopped s v || slotsFree s v == 0) then .refuse
      else if need != 0 && !quotaRoom s v need then .refuse
      else if (cls == 3 || cls == 4) && decide (65536 < rangeCount s + rangesDue s + need) then .refuse
      else .accept

/-! ### Dispatch (R249, R257 to R259) -/

/-- The namespace policy of R257. -/
def nsPolicy (r : NsRec) : Nat :=
  bit r.mirror + 2 * bit r.fed + 4 * bit (r.pi == 1) + 8 * bit (r.pi == 3) + 16 * bit (r.lbaf == 1)

/-- The dispatch entry of a key in force: list + 512 x LOCK. -/
def dispatchEntry (s : State) (cls policy : Nat) : Nat := (dispEnt s (256 * cls + policy)).cur

/-- The admission counter of a namespace. -/
def admOf (s : State) (ns : Nat) : Nat := tget s.seq.adm 0 ns
/-- It takes its next value. -/
def admNext (s : State) (ns : Nat) : State :=
  { s with seq := { s.seq with adm := tput s.seq.adm 0 ns ((admOf s ns + 1) % 2 ^ 32) } }

/-- The registers that dispatch loads (R249). -/
def loadRegs (h : HostCmd) (q qidx ns v adm : Nat) : Tbl Nat :=
  let c : Ctx := {}
  let c := setReg c 0 h.slba
  let c := setReg c 1 (h.nlb + 1)
  let c := setReg c 2 h.len
  let c := setReg c 3 (if h.inl then 0 else h.addr)
  let c := setReg c 4 (h.rkey % 2 ^ 32 + 2 ^ 32 * (q % 65536) + 2 ^ 48 * (qidx % 16))
  let c := setReg c 5 (ns % 65536 + 65536 * v)
  let c := setReg c 6 adm
  (setReg c 7 (h.reftag % 2 ^ 32 + 2 ^ 32 * (h.apptag % 65536) + 2 ^ 48 * (h.appmask % 65536))).regs

/-- In Drain (activation) an admitted command is held before dispatch (R215). -/
def holding (s : State) : Bool := s.glb.mode == .drain && s.glb.drainReason == .activation

/-- Admit a command of class `cls` of a tenant and a virtual controller: a command slot, the next admission number of its namespace and an
action list; then dispatch or the activation hold. A Flush of every namespace takes a number in each (R214); it belongs to no single
namespace, and what C5 and C6 hold for it is open (log 27). -/
def admitCmd (s : State) (v a cls : Nat) (h : HostCmd) (q qidx : Nat) (tq : Option Nat) : State :=
  match freeCtx s with
  | none => s
  | some n =>
    let nss := namedNs s v cls h
    let all := cls == 2 && h.nsid == 0xFFFFFFFF
    let one := (nss.head?.map Prod.fst).getD 0
    let policy := if all then 0 else match nss with
      | x :: _ => nsPolicy x.2
      | [] => 0
    let key := 256 * cls + policy
    let e := dispatchEntry s cls policy
    if h.tableBad then ctlPoison s 2 else
    let (ver, s) := tableRef (idleWake s) 1 key
    let fence := nss.map fun x => x.1 + 65536 * admOf s x.1
    let (free, s) := if all then takeFree s else (one + 2 ^ 16 * admOf s one, s)
    let ns := if all then 65536 else one
    let adm := (free / 65536) % 2 ^ 32
    let s := nss.foldl (fun s x => admNext s x.1) s
    let c : Ctx := {
      cmd := some h, opc := cls, vss := v, ns := ns, assoc := a,
      vci := tagOfInstar (vcInstar s a),
      tq := tq, regs := loadRegs h q qidx (free % 65536) v adm, list := e % 512, adm := adm,
      wr := cls == 1 || cls == 3 || cls == 4, locks := bitAt e 9,
      refs := match ver with | some x => [(1, key, x)] | none => [],
      fence := if cls = 2 then fence else [], at_ := s.now }
    let s := count s 0x0501 none (some v)
    let s := if cls = 0 || cls = 1 || cls = 5 then debitShaper s v h.len else s
    if holding s then
      setCtx { s with cfe := { s.cfe with holds := s.cfe.holds ++ [n] } } n (some { c with run := .held })
    else dispatchCtx s n c

/-- The bytes by which a refused command is remembered (R212). -/
def needBytes (cls : Nat) (h : HostCmd) : Nat := 4096 * cmdNeed cls h

/-! ### The activation hold (R215) -/

/-- A held command leaves the hold with a status, and its slot is free. -/
def endHold (s : State) (n : Nat) (c : Ctx) (st : Status) : State :=
  let s := completeCtx s n c st (statusDnr st) 0
  match ctxOf s n with
  | some c => purgeCtx s n c
  | none => s

/-- The hold of a command has reached 100 ms: Command Interrupted, counted, and the event once per activation. -/
def holdExpired (s : State) (c : Cid) : State :=
  match (ctxFilter s fun x => x.run == .held && (match x.cmd with | some h => h.c == c | none => false)).head? with
  | none => s
  | some (n, x) =>
    let s := endHold (rcAdd s 0x6101C 0 1) n x .commandInterrupted
    if s.cfe.holdRep then s
    else writeEvent { s with cfe := { s.cfe with holdRep := true } } { num := 0x0504, vss := x.vss }

/-- The swap is done: the held commands are dispatched, in the order they were held, under the tables now in force (R271). -/
def releaseHolds (s : State) : State :=
  let hs := s.cfe.holds
  let s := { s with cfe := { s.cfe with holds := [], holdRep := false } }
  hs.foldl (fun s n => match ctxOf s n with
    | some c =>
      let policy := if c.ns = 65536 then 0 else match nsOf s c.ns with
        | some r => nsPolicy r
        | none => 0
      let key := 256 * c.opc + policy
      let e := dispatchEntry s c.opc policy
      let s := dropRefs s c.refs
      let (ver, s) := tableRef s 1 key
      dispatchCtx s n { c with list := e % 512, locks := bitAt e 9, run := .ready,
                               refs := match ver with | some x => [(1, key, x)] | none => [] }
    | none => s) s

def execActivationHoldExpiry (c : Cid) (s : State) : Host.Outcome State Fault Refusal := .next (holdExpired s c)

/-! ### Deficit round robin (R391) -/

/-- QUANTUM_B of a tenant. -/
def quantumOf (s : State) (v : Nat) : Nat :=
  match vssOf s v with
  | some r => r.quantum
  | none => 0

/-- A tenant's deficit at a service point. -/
def deficitOf (s : State) (point v : Nat) : Int := tget s.sch.deficit 0 (4096 * point + v)
/-- Write it. -/
def setDeficit (s : State) (point v : Nat) (d : Int) : State :=
  { s with sch := { s.sch with deficit := tput s.sch.deficit 0 (4096 * point + v) d } }
/-- Write a point's active list, with its head's turn begun or not. -/
def setActive (s : State) (point : Nat) (l : List Nat) (turn : Bool) : State :=
  let others := s.sch.turn.filter (· != point)
  { s with sch := { s.sch with active := tput s.sch.active [] point l, turn := if turn then others ++ [point] else others } }

/-- The share change of a tenant whose turn begins at a point is now in effect there; when the shaper has taken it too, the change is whole
(R394): SCH_SHARE_APPLIED. A change is marked by 4,096 + tenant until its next refill, and by 4,096 x (point + 2) + tenant until its next
turn at a point where it is active. -/
def shareApplied (s : State) (v mark : Nat) : State :=
  if !s.sch.change.contains mark then s
  else
    let s := { s with sch := { s.sch with change := s.sch.change.filter (· != mark) } }
    if s.sch.change.any fun m => m % 4096 == v then s
    else writeEvent s { num := 0x0402, vss := v, detail := [v] }

/-- The tenant a service point serves next, when the head work item of tenant `v` costs `work v` (none: it has no work); `fuel` bounds the
turns that are tried. A shaped tenant is skipped and gains no quantum (R392). -/
def drrPick (s : State) (point : Nat) (work : Nat → Option Nat) (fuel : Nat) : State × Option Nat :=
  match fuel with
  | 0 => (s, none)
  | fuel + 1 => match tget s.sch.active [] point with
    | [] => (s, none)
    | v :: rest => match work v with
      | none => drrPick (setActive (setDeficit s point v 0) point rest false) point work fuel
      | some cost =>
        if shaped s v then drrPick (setActive s point (rest ++ [v]) false) point work fuel else
        let begun := s.sch.turn.contains point
        let d := deficitOf s point v + (if begun then 0 else (quantumOf s v : Int))
        let s := if begun then s else shareApplied s v (4096 * (point + 2) + v)
        let s := setDeficit s point v d
        if d < (cost : Int) then
          drrPick (setActive s point (rest ++ [v]) false) point work fuel
        else (setActive s point (v :: rest) true, some v)

/-- Turns tried in one choice: enough for the largest packet under the smallest quantum. -/
def drrFuel (s : State) (point : Nat) : Nat := 20 * ((tget s.sch.active [] point).length + 1)

/-! ### The idle rows -/

def execIdleLevel1Entry (s : State) : Host.Outcome State Fault Refusal :=
  .next (if dataRuns s && idle1Us s != 0 && s.cfe.idle == 0 && frontIdle s then { s with cfe := { s.cfe with idle := 1 } } else s)

def execIdleLevel2Entry (s : State) : Host.Outcome State Fault Refusal :=
  .next (if idle1Us s != 0 && idle2Ms s != 0 && s.cfe.idle == 1 && frontIdle s then { s with cfe := { s.cfe with idle := 2 } } else s)

end Sys2Proof.Machine
end

