-- ==== Sys2Proof/Machine/Sections.lean ====
section
/-! DEFINITION. The layouts of the image's sections and the checks of start-up step 5 (R82, R83, R91 to R100, R119, R120, R153, R187, R217,
R260, R275, R276, R315, R328, R352, R376, R378, R389, R393, R400, R427, R444, R470, R484, R513, R514, R546). -/

namespace Sys2Proof.Machine

/-! ### Ties between fields -/

/-- 0 or a range. -/
def zeroOr (off len lo hi : Nat) : Rng := .tie fun b e => let v := leAt b (e + off) len; v == 0 || (decide (lo ≤ v) && decide (v ≤ hi))
/-- The number of bits set below bit `n`. -/
def popCount (v n : Nat) : Nat := ((List.range n).filter fun i => bitAt v i).length

/-! ### Layout tables, one row a field, in the order of the spec's rows -/

/-- R91. -/
def rowsDevice : List Fld :=
  [fB 0 4 (.range 10 10000), fB 4 4 (.range 0 600), fB 8 4 (.range 1 10000), fB 12 4 (.range 1 10000),
   fB 16 2 (.oneOf [3200, 4000, 4800, 5600, 6400]), fb 18 0 4 (.range 1 15), fb 18 4 4 .resv, fB 19 1 .resv]
  ++ (List.range 4).map (fun c => fB (20 + c) 1 (.tie fun b e =>
        if bitAt (leAt b (e + 18) 1) c then [8, 16, 32, 64].contains (leAt b (e + 20 + c) 1) else leAt b (e + 20 + c) 1 == 0))
  ++ [fB 24 8 .resv]

/-- R94: only the reserved bytes are checked in step 1 of R98. -/
def rowsClaim : List Fld := [fB 1 1 .resv, fB 6 2 .resv, fB 12 4 .resv]

/-- R92. -/
def rowsRegion : List Fld :=
  [fB 0 1 (.range 0 15), fB 1 1 (.range 1 2), fb 2 6 2 .resv, fB 3 1 .resv, fB 8 4 (.range 1 (2 ^ 32)), fB 12 4 .resv]

/-- R93. -/
def rowsInit : List Fld := [fB 0 1 (.range 0 15), fB 1 3 .resv, fB 8 4 (.range 1 (2 ^ 32)), fB 12 4 .resv]

/-- R119. -/
def rowsFirmware : List Fld :=
  [fB 0 4 (.oneOf [0x5746594C]), fB 8 4 (.tie fun b e => leAt b (e + 8) 4 != 0 && leAt b (e + 8) 4 % 16 == 0
                                              && decide (leAt b (e + 4) 4 < leAt b (e + 8) 4)),
   fB 12 4 (.tie fun b e => leAt b (e + 12) 4 % 16 == 0), fB 16 4 (.tie fun b e => leAt b (e + 16) 4 % 16 == 0), fB 20 4 .resv]

/-- A port entry of R153. -/
def rowsPort : List Fld :=
  [fB 0 1 (.range 0 3), fb 1 2 1 (.tie fun b e => !(bitAt (leAt b (e + 1) 1) 2) || bitAt (leAt b (e + 1) 1) 1), fb 1 3 5 .resv,
   fB 2 1 (.tie fun b e => decide (popCount (leAt b (e + 2) 1) 8 ≤ 2)),
   fB 3 1 (.tie fun b e => decide (leAt b (e + 3) 1 < 8) && !(bitAt (leAt b (e + 2) 1) (leAt b (e + 3) 1))),
   fB 4 2 (.tie fun b e => let v := leAt b (e + 4) 2; decide (v ≤ 500) && (v != 0 || leAt b (e + 2) 1 == 0)),
   fB 6 2 (.range 1 8191),
   fB 8 2 (.tie fun b e => let v := leAt b (e + 8) 2
     (decide (leAt b (e + 6) 2 < v) && decide (v ≤ 8192)) || (leAt b e 1 == 0 && v == 0 && leAt b (e + 6) 2 == 0)),
   fB 10 1 (.range 1 100),
   fB 11 1 (.tie fun b e => let v := leAt b (e + 11) 1; let f := leAt b (e + 1) 1
     if bitAt f 1 then (decide (16 ≤ v) && decide (v ≤ if bitAt f 2 then 62 else 30)) || (leAt b e 1 == 0 && v == 0) else v == 0),
   fB 12 2 (.range 0 4094), fB 14 2 .resv]

/-- The management entry of R153. -/
def rowsMgmt : List Fld :=
  [fB 0 1 (.range 0 2), fB 1 1 .resv, fB 2 2 (.range 0 4094),
   fB 8 1 (.tie fun b e => let v := leAt b (e + 8) 1
     if leAt b (e + 4) 4 = 0 then v == 0 else decide (8 ≤ v) && decide (v ≤ 30)), fB 9 7 .resv]

/-- R187. -/
def rowsRdma : List Fld :=
  [fB 0 1 (.range 3 5), fB 1 1 (.range 8 18), fb 2 0 3 (.range 1 7), fb 2 3 3 (.range 0 6), fb 2 6 2 .resv, fB 3 1 (.range 1 31),
   fB 4 1 (.range 1 64), fB 5 1 (.range 1 16), fB 6 2 (.range 100 10000), fB 8 2 (.range 64 1024), fB 10 2 (.range 1 1000),
   fb 12 1 7 .resv, fB 13 1 (.range 1 10), fB 14 1 (.range 1 7), fB 15 1 .resv, fB 16 4 (.range 10 100000), fB 20 4 (.range 1 10000),
   fB 24 4 (.tie fun b e => decide (leAt b (e + 20) 4 ≤ leAt b (e + 24) 4) && decide (leAt b (e + 24) 4 ≤ 100000)),
   fB 28 2 (.range 1 1000), fB 30 2 (.range 1 10000), fB 32 4 (.range 64 1048576), fB 36 2 (.range 0 256), fB 38 2 (.range 0 1024),
   fB 40 8 .resv]

/-- R217. -/
def rowsHost : List Fld :=
  [fB 0 2 (.range 1 4096), fB 2 1 (.range 1 64), fB 3 1 .resv, fB 4 2 (.range 16 4096), fB 6 2 (.range 64 32768),
   fB 8 1 (.oneOf [0, 4, 8, 16]), fB 9 1 (.range 1 64), fB 10 1 (.range 1 64), fb 11 1 7 .resv, fB 12 2 (.range 0 16384),
   fB 14 2 (.range 1 60000), fB 16 2 (.range 100 10000), fB 18 2 (.range 1000 60000), fB 20 4 (zeroOr 20 4 10 1000000),
   fB 24 2 (.range 0 60000), fB 26 1 (.range 1 255), fB 27 5 .resv]

/-- R315. -/
def rowsCocoon : List Fld :=
  [fB 0 2 (.range 1 60000), fB 2 1 (.range 10 95), fB 3 1 (.range 50 99), fB 4 1 (.range 1 168), fB 5 1 (.range 12 20),
   fB 6 2 (.range 1 65535), fB 8 2 (.range 16 1024), fB 10 6 .resv]

/-- The header of R328. -/
def rowsStripe : List Fld :=
  [fB 0 1 (.range 1 16), fB 1 1 (.range 40 47), fb 2 2 6 .resv, fB 3 1 (.range 5 50), fB 4 2 (.range 0 3600), fB 6 10 .resv]
/-- A profile of R328. -/
def rowsProfile : List Fld := [fB 0 1 (.range 2 28), fB 1 1 (.range 1 4), fB 2 2 .resv]

/-- R352. -/
def rowsFed : List Fld :=
  [fB 0 4 (.range 1 (2 ^ 32)), fB 4 2 (.range 0 511), fB 6 2 (.range 1 1000), fB 8 2 (.range 1 60000), fB 10 2 (.range 2 2048),
   fB 12 1 (.range 1 64), fB 13 3 .resv,
   fB 16 4 (.tie fun b e => leAt b (e + 16) 4 % 1024 == 0 && leAt b (e + 16) 4 != 0), fB 20 12 .resv]

/-- The header of R400. -/
def rowsSwitch : List Fld :=
  [fB 0 1 (.range 0 7), fB 1 1 (.range 0 7), fB 2 1 (.range 0 7), fB 3 1 (.range 5 95)]
  ++ (List.range 4).map (fun i => fB (4 + 4 * i) 4 (.range 1024 65536))
  ++ [fB 20 4 (.tie fun b e => let v := leAt b (e + 20) 4
        decide (1024 ≤ v) && decide (v ≤ 65536) && decide (((List.range 5).map fun i => leAt b (e + 4 + 4 * i) 4).sum ≤ 262144)),
      fB 24 1 (.range 0 3), fB 25 1 (.range 0 40), fB 27 1 (.range 8 128), fB 28 2 (.range 100 10000), fB 30 2 (.range 64 16384),
      fB 32 2 (.tie fun b e => decide (leAt b (e + 32) 2 < leAt b (e + 30) 2)),
      fB 34 2 (.tie fun b e => decide (leAt b (e + 34) 2 < leAt b (e + 32) 2)),
      fB 36 2 (.range 1 1000), fB 38 2 (.range 10 10000), fB 40 1 (.range 0 8), fB 41 1 (.range 0 16), fB 42 22 .resv]

/-- A path group of R400; the entries before it stand from byte 64 on. -/
def rowsGroup : List Fld :=
  [fB 0 4 (.tie fun b e => let v := leAt b e 4
     decide (2 ≤ popCount v 32) && ((List.range ((e - 64) / 16)).all fun i => leAt b (64 + 16 * i) 4 &&& v == 0)),
   fB 4 2 (.range 0 4095),
   fB 6 1 (.tie fun b e => let n := leAt b (e + 6) 1; let v := leAt b (e + 4) 2
     decide (4 ≤ n) && decide (n ≤ 11) && v % 2 ^ n == 0 && ((List.range ((e - 64) / 16)).all fun i =>
       let w := leAt b (68 + 16 * i) 2
       decide (v + 2 ^ n ≤ w) || decide (w + 2 ^ leAt b (70 + 16 * i) 1 ≤ v))),
   fB 7 9 .resv]
/-- A policer of R400. -/
def rowsPolicer : List Fld :=
  [fB 0 4 (.range 1 (2 ^ 32)), fB 4 1 (.range 1 255), fB 5 3 .resv, fB 8 4 (.range 10 400000), fB 12 4 (.range 4 65536)]

/-- The header of R427. -/
def rowsSpokes : List Fld :=
  [fB 8 8 (.tie fun b e => leAt b e 8 &&& leAt b (e + 8) 8 == 0),
   fB 16 8 (.tie fun b e => let g := leAt b e 8 ||| leAt b (e + 8) 8; leAt b (e + 16) 8 ||| g == g),
   fB 24 2 (.range 100 30000), fB 26 2 (.range 10 5000), fB 28 1 (.oneOf [1, 2, 4, 8, 16]), fB 29 1 .resv, fB 30 2 (.range 1 1250),
   fB 32 2 (.range 100 5000), fB 34 2 (.range 0 60000), fB 36 4 (.range 0 1000000), fB 40 8 .resv]
/-- A spoke entry of R427; entry n stands at byte 48 + 2n. -/
def rowsSpoke : List Fld :=
  [fb 0 0 1 (.tie fun b e => !(bitAt (leAt b e 1) 0) || bitAt (leAt b 0 8 ||| leAt b 8 8) ((e - 48) / 2)),
   fb 0 2 3 (.range 1 6), fb 0 6 1 (.tie fun b e => !(bitAt (leAt b e 1) 6) || bitAt (leAt b e 1) 5), ⟨0, 2, 7, 9, .resv⟩]

/-- The header of R444. -/
def rowsBay : List Fld :=
  [fB 0 2 (.range 500 20000), fB 2 1 (.range 6 16), fb 3 3 5 .resv, fB 4 2 (.range 1 1000), fB 6 2 (.range 100 60000),
   fB 8 2 (.range 100 12000), fB 10 1 (.range 80 95), fB 11 1 .resv, fB 12 2 (.range 1 1000), fB 14 18 .resv]
/-- A channel entry of R444: the fast trip stays at or below 80 mV. -/
def rowsChannel : List Fld :=
  [fb 0 1 7 .resv, fB 1 1 .resv, fB 2 2 (.range 500 8000),
   fB 2 2 (.tie fun b e => !(bitAt (leAt b e 1) 0) || decide (leAt b 2 1 * leAt b (e + 2) 2 * leAt b 0 2 ≤ 320000000))]
/-- A feed entry of R444. -/
def rowsFeed : List Fld :=
  [fb 0 3 5 .resv, fB 1 1 .resv, fB 2 2 (.range 10000 11800), fB 4 2 (.range 12200 14000), fB 6 2 (.range 10 10000),
   fB 8 2 (.range 10 1000), fB 10 2 (.range 10 10000), fB 12 2 (.range 1 3600), fB 14 2 .resv]

/-- R470. -/
def rowsTandem : List Fld :=
  [fB 0 2 (.range 10 1000), fB 2 2 (.range 10 1000), fB 4 2 (.range 1 100),
   fB 4 2 (.tie fun b e => decide (10 * leAt b (e + 2) 2 ≤ 1000 * leAt b (e + 4) 2)), fB 6 2 (.range 500 20000), fb 8 2 6 .resv,
   fB 9 1 .resv, fB 10 2 (.range 1 10000), fB 12 2 (.range 100 60000), fB 14 2 (.range 100 5000), fB 16 16 .resv]

/-- R484. -/
def rowsService : List Fld :=
  [fb 0 2 6 .resv, fB 1 1 (.tie fun b e => let v := leAt b (e + 1) 1; decide (v ≤ 64) && (bitAt (leAt b e 1) 0 || v == 0)),
   fB 2 1 (.range 1 64), fB 3 1 (.range 1 16), fB 4 2 (.range 16 4096), fB 6 2 (.range 1 60000), fb 8 0 3 (.range 1 5), fb 8 3 5 .resv,
   fB 9 7 .resv]

/-- An anchor of R120; the anchors before it stand from byte 0 on. -/
def rowsAnchor : List Fld :=
  [fB 0 1 (.tie fun b e => decide (leAt b e 1 ≤ 7) && ((List.range (e / 2000)).all fun i => leAt b (2000 * i) 1 != leAt b e 1)),
   fb 1 3 5 .resv, fB 2 14 .resv]

/-- R513. -/
def rowsRecorder : List Fld :=
  [fB 0 1 (.range 1 4), fB 1 1 .resv, fB 2 2 (.range 1 10000), fB 4 4 (.range 100 100000), fB 8 1 (.range 1 168), fb 9 1 7 .resv,
   fB 10 2 (.range 1 65535), fB 12 4 (.range 10 1000000), fB 16 16 .resv]

/-- R514. -/
def rowsPerturb : List Fld := [fB 4 12 .resv]

/-! ### Action lists (R251, R275, R276) -/

/-- What an opcode of an image list uses of its step word: register A, register B, COND, TMO, the bits of FLAGS and of IMM. -/
structure StepUse where
  a     : Bool := false
  b     : Bool := false
  cond  : Bool := false
  tmo   : Bool := false
  flags : Nat := 0
  imm   : Nat := 0

/-- The primitives that an image list may name (R253), with what they use; none for an opcode that is not in the table or is ROM only. -/
def stepUse (opc : Nat) : Option StepUse :=
  match opc with
  | 0x00 | 0x01 | 0x05 | 0x22 | 0x30 | 0x32 | 0x33 | 0x34 | 0x41 | 0x43 | 0x44 | 0x50 => some {}
  | 0x02 => some { imm := 12 }
  | 0x03 => some { cond := true, imm := 12 }
  | 0x04 => some { imm := 9 }
  | 0x06 => some { imm := 16 }
  | 0x07 | 0x21 | 0x23 | 0x38 | 0x40 | 0x51 | 0x53 => some { tmo := true }
  | 0x10 | 0x13 | 0x19 => some { a := true, imm := 32 }
  | 0x11 | 0x12 | 0x14 | 0x15 | 0x18 => some { a := true, b := true }
  | 0x16 | 0x17 => some { a := true, imm := 6 }
  | 0x1A | 0x25 => some { a := true }
  | 0x20 => some { tmo := true, flags := 1 }
  | 0x24 => some { a := true, b := true, imm := 3 }
  | 0x31 => some { flags := 2 }
  | 0x42 => some { a := true, flags := 2, imm := 16 }
  | 0x52 => some { flags := 1 }
  | 0x70 => some { imm := 16 }
  | 0x71 => some { a := true, b := true, imm := 16 }
  | _ => none

/-- The step word at byte `e`. -/
def stepOf (b : List Byte) (e : Nat) : Step :=
  { opc := leAt b e 1,
    w := { a := field (leAt b (e + 1) 1) 0 4, b := field (leAt b (e + 1) 1) 4 4, cond := field (leAt b (e + 2) 1) 0 4,
           tmo := field (leAt b (e + 2) 1) 4 3, flags := leAt b (e + 3) 1, imm := leAt b (e + 4) 4 } }

/-- LIST_COUNT, STEP_COUNT and DISP_COUNT. -/
def listCount (b : List Byte) : Nat := leAt b 0 2
/-- STEP_COUNT. -/
def stepCount (b : List Byte) : Nat := leAt b 2 2
/-- DISP_COUNT. -/
def dispCount (b : List Byte) : Nat := leAt b 4 2
/-- The byte of step `i`. -/
def stepByte (b : List Byte) (i : Nat) : Nat := 32 + 8 * listCount b + 8 * i
/-- The byte of dispatch entry `i`. -/
def dispByte (b : List Byte) (i : Nat) : Nat := 32 + 8 * listCount b + 8 * stepCount b + 4 * i
/-- FIRST and LENGTH of list `n`. -/
def listOf (b : List Byte) (n : Nat) : Nat × Nat := (leAt b (32 + 8 * n) 2, leAt b (34 + 8 * n) 2)
/-- The list a step lies in. -/
def listAt (b : List Byte) (i : Nat) : Option Nat :=
  (List.range (listCount b)).find? fun n => let l := listOf b n; decide (l.1 ≤ i) && decide (i < l.1 + l.2)

/-- The header of R275. -/
def rowsLists : List Fld :=
  [fB 0 2 (.range 0 256), fB 2 2 (.range 0 4096), fB 4 2 (.range 0 4096), fB 6 2 (.range 64 65535)]
  ++ (List.range 4).map (fun i => fB (8 + 4 * i) 4 (.range 1 60000000)) ++ [fB 24 8 .resv]

/-- The list entries. -/
def listReject (b : List Byte) (n : Nat) : Option (Nat × Nat) :=
  let l := listOf b n
  let e := 32 + 8 * n
  if l.2 = 0 || decide (stepCount b < l.1 + l.2)
      || (List.range n).any (fun k => let m := listOf b k; decide (l.1 < m.1 + m.2) && decide (m.1 < l.1 + l.2)) then some (0x0D30, e)
  else if leAt b (e + 4) 4 ≠ 0 then some (0x0D25, e)
  else none

/-- One step. -/
def stepReject (clear : Bool) (b : List Byte) (i : Nat) : Option (Nat × Nat) :=
  let e := stepByte b i
  let x := stepOf b e
  let l := listOf b ((listAt b i).getD 0)
  let bad := fun (c : Bool) => if c then some 0x0D30 else none
  let resv := fun (c : Bool) => if c then some 0x0D25 else none
  (match stepUse x.opc with
   | none => some 0x0D30
   | some u => [resv (!u.a && x.w.a != 0), resv (!u.b && x.w.b != 0), bad (x.w.cond == 15), resv (!u.cond && x.w.cond != 0),
       resv (!u.tmo && x.w.tmo != 0), resv (bitAt (leAt b (e + 2) 1) 7), resv (decide (2 ^ u.flags ≤ x.w.flags)),
       bad ((x.opc == 0x02 || x.opc == 0x03) && decide (l.2 ≤ x.w.imm % 4096)),
       bad (x.opc == 0x04 && !(decide (x.w.imm % 512 < listCount b) || (decide (256 ≤ x.w.imm % 512) && decide (x.w.imm % 512 ≤ 266)))),
       bad (x.opc == 0x24 && decide (5 ≤ x.w.imm % 8)),
       bad ((x.opc == 0x70 || x.opc == 0x71) && !(decide (0x06C0 ≤ x.w.imm % 65536) && decide (x.w.imm % 65536 ≤ 0x06FF))),
       bad (x.opc == 0x31 && !bitAt x.w.flags 0 && !clear), resv (decide (2 ^ u.imm ≤ x.w.imm)),
       resv ((x.opc == 0x06 || x.opc == 0x42) && field x.w.imm 11 4 != 0),
       bad (decide (i + 1 = l.1 + l.2) && !([0x01, 0x06, 0x02, 0x05] : List Nat).contains x.opc)].findSome? id).map fun c => (c, e)

/-- The CALL steps: the step, the list it lies in and the list it names. -/
def callSteps (b : List Byte) : List (Nat × Nat × Nat) :=
  (List.range (stepCount b)).filterMap fun i =>
    let x := stepOf b (stepByte b i)
    if x.opc = 0x04 then (listAt b i).map fun l => (i, l, x.w.imm % 512) else none

/-- One round: how many calls may be nested when a list runs. -/
def callRound (calls : List (Nat × Nat × Nat)) (d : List Nat) : List Nat :=
  (List.range 256).map fun l => calls.foldl (fun m c => if c.2.2 = l then max m ((d[c.2.1]?).getD 0 + 1) else m) 0

/-- The call that is nested deeper than 4, or closes a cycle, lowest step first. -/
def callReject (b : List Byte) : Option (Nat × Nat) :=
  let calls := callSteps b
  let r := callRound calls
  let d := r (r (r (r (List.replicate 256 0))))
  (calls.find? fun c => decide (4 ≤ (d[c.2.1]?).getD 0)).map fun c => (0x0D30, stepByte b c.1)

/-- The opcodes of a list. -/
def listOpcodes (b : List Byte) (n : Nat) : List Nat :=
  if 256 ≤ n then (romList n).map fun x => x.opc
  else let l := listOf b n; (List.range l.2).map fun i => (stepOf b (stepByte b (l.1 + i))).opc

/-- POLICY + 256 x CLASS of a dispatch entry. -/
def dispKey (b : List Byte) (i : Nat) : Nat := leAt b (dispByte b i) 1 + 256 * field (leAt b (dispByte b i + 1) 1) 0 4

/-- One dispatch entry. -/
def dispReject (b : List Byte) (i : Nat) : Option (Nat × Nat) :=
  let e := dispByte b i
  let f := leAt b (e + 1) 1
  let n := field (leAt b (e + 2) 2) 0 9
  let ops := listOpcodes b n
  if 32 ≤ leAt b e 1 then some (0x0D30, e)
  else if field f 4 3 ≠ 0 then some (0x0D25, e)
  else if !(decide (n < listCount b) || (decide (256 ≤ n) && decide (n ≤ 263))) then some (0x0D30, e)
  else if field (leAt b (e + 2) 2) 9 7 ≠ 0 then some (0x0D25, e)
  else if (List.range i).any (fun k => dispKey b k == dispKey b i) || decide (6 ≤ field f 0 4)
      || (bitAt f 7 && ops.head? != some 0x20) || (!bitAt f 7 && ops.contains 0x20) then some (0x0D30, e)
  else none

/-- Section 0x0009 after its header (R276). -/
def listsReject (clear : Bool) (b : List Byte) : Option (Nat × Nat) :=
  let pad := dispByte b (dispCount b)
  [(List.range (listCount b)).findSome? (listReject b),
   ((List.range (stepCount b)).find? fun i => (listAt b i).isNone).map (fun i => (0x0D30, stepByte b i)),
   (List.range (stepCount b)).findSome? (stepReject clear b),
   callReject b,
   (List.range (dispCount b)).findSome? (dispReject b),
   if (b.drop pad).any (· != 0) then some (0x0D25, pad) else none].findSome? id

/-! ### Step 1 of R98 -/

/-- The types of R83. -/
def typeKnown (ty : Nat) : Bool := decide (1 ≤ ty) && decide (ty ≤ 0x14)

/-- The length a type allows. -/
def lengthOk (ty : Nat) (b : List Byte) : Bool :=
  let n := b.length
  match ty with
  | 0x01 => n == 32
  | 0x02 => n % 16 == 0 && decide (n ≤ 1024)
  | 0x03 => n % 16 == 0 && decide (16 ≤ n) && decide (n ≤ 256)
  | 0x04 => n % 16 == 0 && decide (16 ≤ n) && decide (n ≤ 1024)
  | 0x05 => decide (32 ≤ n) && n == 32 + leAt b 8 4 + leAt b 12 4 && decide (leAt b 8 4 + leAt b 12 4 + leAt b 16 4 ≤ 8388608)
  | 0x06 => n == 144 | 0x07 => n == 48 | 0x08 => n == 32
  | 0x09 => decide (32 ≤ n) && n == (32 + 8 * leAt b 0 2 + 8 * leAt b 2 2 + 4 * leAt b 4 2 + 15) / 16 * 16
  | 0x0A => n == 16 | 0x0B => n == 80 | 0x0C => n == 32 | 0x0D => n == 448 | 0x0E => n == 176 | 0x0F => n == 320
  | 0x10 => n == 32 | 0x11 => n == 16
  | 0x12 => n % 2000 == 0 && decide (2000 ≤ n) && decide (n ≤ 16000)
  | 0x13 => n == 32
  | _ => n == 16

/-- An entry whose enable byte is 0 (R546). -/
def modeOff (b : List Byte) (e : Nat) : Bool := leAt b e 1 == 0
/-- An entry whose ENABLE bit is 0 (R546). -/
def enableOff (b : List Byte) (e : Nat) : Bool := !bitAt (leAt b e 1) 0

/-- Reserved entries from `n` of `total` on. -/
def restReject (b : List Byte) (base size n total : Nat) : Option (Nat × Nat) :=
  ((List.range total).find? fun i => decide (n ≤ i) && ((b.drop (base + size * i)).take size).any (· != 0)).map
    fun i => (0x0D25, base + size * i)

/-- The fields of a section: the reject code and the byte within the section. -/
def fieldsReject (clear unp : Bool) (ty : Nat) (b : List Byte) : Option (Nat × Nat) :=
  let one := fun (fs : List Fld) => rowsReject b 0 false fs
  let many := fun (base size n : Nat) (off : List Byte → Nat → Bool) (fs : List Fld) => entriesReject b base size n off fs
  match ty with
  | 0x01 => one rowsDevice
  | 0x02 => many 0 16 (b.length / 16) neverOff rowsClaim
  | 0x03 => many 0 16 (b.length / 16) neverOff rowsRegion
  | 0x04 => many 0 16 (b.length / 16) neverOff rowsInit
  | 0x05 => one rowsFirmware
  | 0x06 => [many 0 16 8 modeOff rowsPort, rowsReject b 128 false rowsMgmt].findSome? id
  | 0x07 => one rowsRdma
  | 0x08 => one rowsHost
  | 0x09 => [one rowsLists, listsReject clear b].findSome? id
  | 0x0A => one rowsCocoon
  | 0x0B => [one rowsStripe, many 16 4 (leAt b 0 1) neverOff rowsProfile, restReject b 16 4 (leAt b 0 1) 16].findSome? id
  | 0x0C => one rowsFed
  | 0x0D => [one rowsSwitch, many 64 16 (leAt b 40 1) neverOff rowsGroup, restReject b 64 16 (leAt b 40 1) 8,
             many 192 16 (leAt b 41 1) neverOff rowsPolicer, restReject b 192 16 (leAt b 41 1) 16].findSome? id
  | 0x0E => [one rowsSpokes, many 48 2 64 enableOff rowsSpoke].findSome? id
  | 0x0F => [one rowsBay, many 32 4 64 enableOff rowsChannel, many 288 16 2 enableOff rowsFeed].findSome? id
  | 0x10 => if unp then some (0x0D30, 0) else one rowsTandem
  | 0x11 => one rowsService
  | 0x12 => many 0 2000 (b.length / 2000) neverOff rowsAnchor
  | 0x13 => one rowsRecorder
  | _ => one rowsPerturb

/-- The bytes of the first section of a type. -/
def secOf (secs : List (Nat × Nat × List Byte)) (ty : Nat) : Option (List Byte) := (secs.find? fun x => x.1 == ty).map fun x => x.2.2
/-- Its image offset. -/
def secAt (secs : List (Nat × Nat × List Byte)) (ty : Nat) : Nat := ((secs.find? fun x => x.1 == ty).map fun x => x.2.1).getD 0
/-- A field of it, or a default. -/
def secPar (secs : List (Nat × Nat × List Byte)) (ty off len dflt : Nat) : Nat :=
  match secOf secs ty with
  | some b => leAt b off len
  | none => dflt

/-- One section at place `i` of the table. -/
def sectionReject (secs : List (Nat × Nat × List Byte)) (flags i : Nat) (x : Nat × Nat × List Byte) : Option Reject :=
  let clear := bitAt (secPar secs 0x0B 2 1 0) 1
  let ent := 64 + 16 * i
  if !typeKnown x.1 then some { code := 0x0D21, ty := x.1, off := ent }
  else if (secs.take i).any fun y => y.1 == x.1 then some { code := 0x0D22, ty := x.1, off := ent }
  else if x.1 = 0x14 && !bitAt flags 0 then some { code := 0x0D43, ty := x.1, off := ent }
  else if !lengthOk x.1 x.2.2 then some { code := 0x0D24, ty := x.1, off := ent + 8 }
  else (fieldsReject clear (bitAt flags 1) x.1 x.2.2).map fun r => { code := r.1, ty := x.1, off := x.2.1 + r.2 }

/-- ACK_PRIO of a port whose MODE is not 0. -/
def livePrio (secs : List (Nat × Nat × List Byte)) (p : Nat) : Option Nat :=
  if secPar secs 0x06 (16 * p) 1 0 = 0 then none else some (secPar secs 0x06 (16 * p + 3) 1 0)

/-- The rules that tie sections together (R389, R393, R400, R444), after the last section (DEDUCED, log 30). -/
def crossReject (secs : List (Nat × Nat × List Byte)) : Option Reject :=
  let rej := fun (ty off : Nat) => ({ code := 0x0D30, ty := ty, off := secAt secs ty + off } : Reject)
  let tc := [secPar secs 0x0D 0 1 3, secPar secs 0x0D 1 1 4, secPar secs 0x0D 2 1 0]
  let ports := (List.range 8).filterMap fun p => (livePrio secs p).map fun a => (p, a)
  let a := (ports.find? fun x => tc.contains x.2).map fun x => rej 0x06 (16 * x.1 + 3)
  let b := (ports.find? fun x => bitAt (secPar secs 0x0D 26 1 0) x.2).map fun _ => rej 0x0D 26
  let c := ((List.range (secPar secs 0x0D 41 1 0)).find? fun i => ports.any fun x =>
    field (secPar secs 0x0D (192 + 16 * i) 4 0) (4 * x.1) 4 != 0 && bitAt (secPar secs 0x0D (196 + 16 * i) 1 0) x.2).map
      fun i => rej 0x0D (196 + 16 * i)
  let g0 := secPar secs 0x0E 0 8 0
  let g1 := secPar secs 0x0E 8 8 0
  let d := ((List.range 64).find? fun n => bitAt (secPar secs 0x0F (32 + 4 * n) 1 0) 0 &&
    (!bitAt (g0 ||| g1) n || !bitAt (secPar secs 0x0F (if bitAt g1 n then 304 else 288) 1 0) 0)).map fun n => rej 0x0F (32 + 4 * n)
  [a, b, c, d].findSome? id

/-- The first required type that is missing. -/
def missingReject (secs : List (Nat × Nat × List Byte)) : Option Reject :=
  ([1, 2, 3, 4].find? fun t => (secOf secs t).isNone).map fun t => { code := 0x0D23, ty := t, off := 0 }

/-! ### Step 2 of R98: regions and init entries -/

/-- BASE_MIB of entry `i` of a section of 16-byte entries. -/
def entBase (b : List Byte) (i : Nat) : Nat := leAt b (16 * i + 4) 4
/-- LENGTH_MIB. -/
def entLen (b : List Byte) (i : Nat) : Nat := leAt b (16 * i + 8) 4
/-- REGION. -/
def entNum (b : List Byte) (i : Nat) : Nat := leAt b (16 * i) 1
/-- Two entries overlap. -/
def entMeet (b : List Byte) (i j : Nat) : Bool := decide (entBase b i < entBase b j + entLen b j) && decide (entBase b j < entBase b i + entLen b i)

/-- The fitted DRAM in MiB (R91). -/
def fittedMib (secs : List (Nat × Nat × List Byte)) : Nat :=
  ((List.range 4).map fun c => if bitAt (secPar secs 1 18 1 0) c then 1024 * secPar secs 1 (20 + c) 1 0 else 0).sum

/-- One region entry. -/
def regionReject (fit : Nat) (b : List Byte) (i : Nat) : Option (Nat × Nat) :=
  if (List.range i).any fun j => entNum b j == entNum b i then some (0x0D31, 16 * i)
  else if (List.range i).any (entMeet b i) then some (0x0D31, 16 * i + 4)
  else if fit < entBase b i + entLen b i then some (0x0D32, 16 * i + 4)
  else if leAt b (16 * i + 1) 1 = 2 && field (leAt b (16 * i + 2) 1) 0 4 != 0 then some (0x0D33, 16 * i + 2)
  else none

/-- One init entry. -/
def initReject (rb b : List Byte) (i : Nat) : Option (Nat × Nat) :=
  match (List.range (rb.length / 16)).find? fun r => entNum rb r == entNum b i with
  | none => some (0x0D34, 16 * i)
  | some r =>
    if entLen rb r < entBase b i + entLen b i then some (0x0D34, 16 * i + 4)
    else if (List.range i).any fun j => entNum b j == entNum b i && entMeet b i j then some (0x0D35, 16 * i + 4)
    else none

/-- The init entries of a region cover it: they do not overlap and lie inside it, so their lengths add up. -/
def covered16 (rb b : List Byte) (r : Nat) : Bool :=
  (((List.range (b.length / 16)).filter fun i => entNum b i == entNum rb r).map (entLen b)).sum == entLen rb r

/-- The memory rules. -/
def memoryReject (secs : List (Nat × Nat × List Byte)) : Option Reject :=
  let rb := (secOf secs 3).getD []
  let b := (secOf secs 4).getD []
  let n := rb.length / 16
  let uses := (List.range n).foldl (fun m i => m ||| leAt rb (16 * i + 2) 1) 0
  let at3 := fun (r : Nat × Nat) => ({ code := r.1, ty := 3, off := secAt secs 3 + r.2 } : Reject)
  let at4 := fun (r : Nat × Nat) => ({ code := r.1, ty := 4, off := secAt secs 4 + r.2 } : Reject)
  [((List.range n).findSome? (regionReject (fittedMib secs) rb)).map at3,
   ((List.range 6).find? fun u => !bitAt uses u).map (fun _ => at3 (0x0D33, 0)),
   ((List.range (b.length / 16)).findSome? (initReject rb b)).map at4,
   ((List.range 16).findSome? fun num => ((List.range n).find? fun i => entNum rb i == num && !covered16 rb b i).map
     fun i => at3 (0x0D34, 16 * i))].findSome? id

/-! ### Step 3 of R98: claims -/

/-- A claim entry (R94): kind, resource, claimant, parameter. -/
def claimOf (b : List Byte) (i : Nat) : Nat × Nat × Nat × Nat :=
  (leAt b (16 * i) 1, leAt b (16 * i + 2) 2, leAt b (16 * i + 4) 2, leAt b (16 * i + 8) 4)

/-- The claimants of R96. -/
def claimants : List Nat :=
  [0x0001, 0x0010, 0x0011, 0x0020, 0x0030, 0x0031, 0x0040, 0x0050, 0x0060, 0x0061, 0x0062, 0x0070, 0x0071, 0x0072]

/-- The resources of a kind (R95). -/
def resourceCount (kind : Nat) : Nat :=
  match kind with
  | 1 => 16 | 2 => 32 | 3 => 4 | _ => 0

/-- One claim entry: code and byte. A pin entry of a claimant that R96 gives no pin direction (such as 0x0001 or 0x0010) is taken as an input:
its PARAM is a filter of 0 to 10,000 µs (DESIGN CHOICE, log 62). -/
def claimReject (b : List Byte) (i : Nat) : Option (Nat × Nat) :=
  let (k, r, c, p) := claimOf b i
  if resourceCount k = 0 then some (0x0D42, 16 * i)
  else if resourceCount k ≤ r then some (0x0D42, 16 * i + 2)
  else if !claimants.contains c then some (0x0D42, 16 * i + 4)
  else if (k == 2 && p != 0) || (k == 1 && (if c = 0x0071 then p != 0 else decide (10000 < p))) then some (0x0D30, 16 * i + 8)
  else none

/-- The first conflicting pair, lowest second index first (R97). -/
def claimConflict (b : List Byte) (n : Nat) : Option (Nat × Nat) :=
  (List.range n).findSome? fun j => ((List.range j).find? fun i =>
    (claimOf b i).1 == (claimOf b j).1 && (claimOf b i).2.1 == (claimOf b j).2.1).map fun i => (i, j)

/-- The timers a claimant holds. -/
def timersOf (b : List Byte) (c : Nat) : Nat :=
  ((List.range (b.length / 16)).filter fun i => (claimOf b i).1 == 2 && (claimOf b i).2.2.1 == c).length
/-- The entry by which a claimant holds a pool. -/
def poolClaim (b : List Byte) (pool c : Nat) : Option Nat :=
  (List.range (b.length / 16)).find? fun i => (claimOf b i).1 == 3 && (claimOf b i).2.1 == pool && (claimOf b i).2.2.1 == c

/-- The claims that enabled features need, in ascending claimant code, with the section that enables each (R96, R260, R378). -/
def missingClaims (secs : List (Nat × Nat × List Byte)) : List (Bool × Nat) :=
  let b := (secOf secs 2).getD []
  let has := fun ty => (secOf secs ty).isSome
  let port := fun (f : Nat → Bool) => (List.range 8).any fun p => secPar secs 0x06 (16 * p) 1 0 != 0 && f p
  [(port (fun p => secPar secs 0x06 (16 * p + 2) 1 0 != 0) && timersOf b 0x0010 == 0, 0x06),
   (port (fun p => bitAt (secPar secs 0x06 (16 * p + 1) 1 0) 1) && timersOf b 0x0011 == 0, 0x06),
   (has 0x10 && decide (timersOf b 0x0020 < 2), 0x10),
   (has 0x0E && timersOf b 0x0030 == 0, 0x0E),
   ([288, 304].any (fun o => bitAt (secPar secs 0x0F o 1 0) 0) && timersOf b 0x0031 == 0, 0x0F),
   (has 0x14 && (poolClaim b 3 0x0040).isNone, 0x14),
   (has 0x0C && (poolClaim b 0 0x0060).isNone, 0x0C),
   (secPar secs 0x0D 25 1 0 != 0 && (poolClaim b 1 0x0061).isNone, 0x0D),
   (has 0x0E && (poolClaim b 2 0x0062).isNone, 0x0E)]

/-- The MiB of the regions that carry a use. -/
def useMib (secs : List (Nat × Nat × List Byte)) (u : Nat) : Nat :=
  let rb := (secOf secs 3).getD []
  (((List.range (rb.length / 16)).filter fun i => bitAt (leAt rb (16 * i + 2) 1) u).map (entLen rb)).sum

/-- FLOORk_CELLS (R400). -/
def floorCells (secs : List (Nat × Nat × List Byte)) : List Nat :=
  (List.range 5).map fun i => secPar secs 0x0D (4 + 4 * i) 4 (([8192, 8192, 16384, 4096, 4096][i]?).getD 0)

/-- The MiB of a pool: the parameter of its claim (R376, R378, R260). -/
def poolOf (secs : List (Nat × Nat × List Byte)) (pool c : Nat) : Option (Nat × Nat) :=
  let b := (secOf secs 2).getD []
  (poolClaim b pool c).map fun i => (i, (claimOf b i).2.2.2)

/-- The pool sizes: the entry at fault. -/
def poolReject (secs : List (Nat × Nat × List Byte)) : Option Nat :=
  let p0 := poolOf secs 0 0x0060
  let mib0 := (p0.map Prod.snd).getD 0
  let shared := 524288 - 4096 * mib0 - (floorCells secs).sum
  let a := match p0 with
    | some (i, m) => if m < 2 || decide (64 < m) then some i else none
    | none => none
  let a' := if shared < 131072 then some ((p0.map Prod.fst).getD 0) else none
  let b := match poolOf secs 1 0x0061 with
    | some (i, m) => if useMib secs 4 < m then some i else none
    | none => none
  let c := match poolOf secs 2 0x0062 with
    | some (i, m) => if m < 4 || decide (useMib secs 5 < m) then some i else none
    | none => none
  [a, a', b, c].findSome? id

/-- The claim rules. A missing claim has no offending field: CFG_CLAIM_MISSING carries the type of the section that enables the feature and
the offset where that section begins (DESIGN CHOICE, log 62). -/
def claimsReject (secs : List (Nat × Nat × List Byte)) : Option Reject :=
  let b := (secOf secs 2).getD []
  let n := b.length / 16
  let base := secAt secs 2
  [((List.range n).findSome? (claimReject b)).map (fun r => ({ code := r.1, ty := 2, off := base + r.2 } : Reject)),
   (claimConflict b n).map (fun p =>
     (Reject.mk 0x0D40 2 (base + 16 * p.2)
       [(claimOf b p.2).1, (claimOf b p.2).2.1, (claimOf b p.1).2.2.1, (claimOf b p.2).2.2.1, p.1, p.2] : Reject)),
   ((missingClaims secs).find? fun x => x.1).map (fun x => { code := 0x0D41, ty := x.2, off := secAt secs x.2 }),
   (poolReject secs).map (fun i => { code := 0x0D30, ty := 2, off := base + 16 * i + 8 })].findSome? id

/-! ### Step 5 -/

/-- The whole of step 5 on the sections of an image whose header byte 32 is `flags` (R98). -/
def checkConfig (secs : List (Nat × Nat × List Byte)) (flags : Nat) : Option Reject :=
  [(secs.zipIdx.findSome? fun x => sectionReject secs flags x.2 x.1), missingReject secs, crossReject secs, memoryReject secs,
   claimsReject secs].findSome? id

end Sys2Proof.Machine
end

