-- ==== Sys2Proof/Machine/HostQueues.lean ====
section
/-! DEFINITION. NVMe over Fabrics (R191 to R201, R214, R232): Connect, authentication, the admin set of a host, and the commands of the
NVM command set as they arrive. -/

namespace Sys2Proof.Machine

/-! ### Connect (R192, R193, R222) -/

/-- The bytes of an ASCII string. -/
def ascii (t : String) : List Byte := t.toList.map fun c => BitVec.ofNat 8 c.toNat

/-- The NQN of the management subsystem (R222). -/
def mgmtNqn : List Byte := ascii "nqn.2031-01.com.aceaga:lysar:ly6400:mgmt"
/-- The well-known discovery NQN, as NVMe over Fabrics has it (PRESUMED, log 27). -/
def discNqn : List Byte := ascii "nqn.2014-08.org.nvmexpress.discovery"

/-- What a Connect reaches: a tenant, the management subsystem or the discovery controller. -/
inductive Target where
  | tenant (v : Nat)
  | mgmt
  | disc
  deriving DecidableEq, Repr

/-- The target that a SUBNQN names (R192, check 1); a tenant that is Resetting or Removing takes no Connect (R231). -/
def connectTarget (s : State) (nqn : List Byte) : Option Target :=
  if nqn = mgmtNqn then some .mgmt
  else if nqn = discNqn then (if discoveryOn s then some .disc else none)
  else s.cat.vss.findSome? fun x => match x.2 with
    | some r => if r.nqn = nqn && r.state != .resetting && r.state != .removing && r.state != .free then some (.tenant x.1) else none
    | none => none

/-- A host is on the access list of a virtual subsystem. -/
def hostListed (s : State) (v : Nat) (host : List Byte) : Bool :=
  s.cat.hosts.any fun x => match x.2 with
    | some r => r.vss == v && r.nqn == host
    | none => false

/-- The service-port functions of this side that are bound to a virtual subsystem, each of which counts as an association of it (R477). -/
def boundFns (s : State) (v : Nat) : List Nat :=
  (List.range 65).filterMap fun i =>
    if tget s.cat.binds 0 (i + 1 + 128 * bit s.glb.straps.tdmSide) = v && v ≠ 0 then some (i + 1) else none

/-- Associations of a tenant, the bound functions among them. -/
def tenantAssocs (s : State) (v : Nat) : Nat :=
  ((assocList s).filter fun x => x.2.vss == v && !x.2.mgmt && !x.2.disc && decide (x.1 < 65536)).length + (boundFns s v).length

/-- Live associations that count against MAX_ASSOC. -/
def liveAssocs (s : State) : Nat :=
  ((assocList s).filter fun x => !x.2.mgmt && !x.2.disc && decide (x.1 < 65536)).length

/-- The next free controller ID, 0x0001 to 0xFFEF, from the one tried next. -/
def freeCntlid (s : State) : Option Nat :=
  (List.range 0xFFEF).findSome? fun i =>
    let k := 1 + (s.cfe.nextId - 1 + i) % 0xFFEF
    if (assocOf s k).isNone then some k else none

/-- A response to Connect on the queue pair it came on. -/
def connectReply (s : State) (q cid a : Nat) (st : Status) (dw0 : Nat) : State :=
  sendMsg (recvReturn (emit s (.reply ⟨.assoc a, cid⟩ st (statusDnr st) dw0 [])) q) q { kind := .send, len := 16, cpl := true }

/-- A Connect that fails: its status, and the queue pair is torn down. Which parameter is named beside SUBNQN is open (log 27). -/
def connectFail (s : State) (q cid : Nat) (st : Status) (dw0 : Option Nat) : State :=
  let (x, s) := match dw0 with
    | some d => (d, s)
    | none => takeFree s
  qpStop (connectReply s q cid 0 st (x % 2 ^ 32)) q 9

/-- An admin queue connects: checks 3 to 5, then a new association. AUTHREQ stands in bit 16 of DW0 (PRESUMED, log 27). -/
def connectAdmin (s : State) (q cid : Nat) (r : ConnectReq) (t : Target) : State :=
  let full : Bool := match t with
    | .mgmt => decide (16 ≤ ((assocList s).filter fun (x : Nat × Assoc) => x.2.mgmt).length)
    | .disc => false
    | .tenant v => decide (maxAssoc s ≤ liveAssocs s)
        || (match vssOf s v with | some x => decide (x.maxAssoc ≤ tenantAssocs s v) | none => true)
  match full, freeCntlid s with
  | true, _ | _, none => connectFail s q cid .controllerBusy (some 0)
  | false, some k =>
    if r.sqsize ≠ 31 || r.kato < katoMin s then connectFail s q cid .connectInvalidParams none
    else
      let v := match t with | .tenant v => v | _ => 0
      let auth := match t with
        | .tenant v => (match vssOf s v with | some x => bitAt x.flags 0 | none => false)
        | _ => false
      let s := setQp s q { qpOf s q with recv := 31, srq := none, assoc := some k, dlog := if v = 0 then 0 else vssDlog s v }
      let s := setAssoc { s with cfe := { s.cfe with nextId := 1 + k % 0xFFEF } } k
        (some { vss := v, host := r.hostnqn, qp := q, kato := r.kato, auth := auth, mgmt := t == Target.mgmt, disc := t == Target.disc,
                maxQd := maxQd s, maxIo := maxIoQueues s, icd := icdKib s })
      connectReply s q cid k .success (k + 65536 * bit auth)

/-- The shared receive queue an I/O queue of a tenant is bound to (R193). -/
def srqOf (s : State) (v : Nat) : Option Nat :=
  match vssOf s v with
  | some x => if bitAt x.flags 1 && srqCount s != 0 then some (v % srqCount s) else none
  | none => none

/-- An I/O queue connects: checks 3 and 4, then it joins its association. -/
def connectIo (s : State) (q cid : Nat) (r : ConnectReq) (v : Nat) : State :=
  match assocOf s r.cntlid with
  | none => connectFail s q cid .connectInvalidParams none
  | some x =>
    if 65536 ≤ r.cntlid || x.vss ≠ v || x.host ≠ r.hostnqn || x.auth || x.mgmt || x.disc
        || maxQd s ≤ r.sqsize || x.granted.getD 0 < r.qid || (x.ioqs.any fun i => i.qid == r.qid) then
      connectFail s q cid .connectInvalidParams none
    else
      let auth := match vssOf s v with | some y => bitAt y.flags 0 | none => false
      let srq := srqOf s v
      let s := match srq with
        | some k => { s with rdt := { s.rdt with srqUsed := tput s.rdt.srqUsed 0 k (tget s.rdt.srqUsed 0 k + 1) } }
        | none => s
      let s := setQp s q { qpOf s q with recv := if srq.isNone then r.sqsize else 0, srq := srq, srqDepth := srqDepth s,
                                         assoc := some r.cntlid, dlog := vssDlog s v }
      let s := setAssoc s r.cntlid (some { x with ioqs := x.ioqs ++ [⟨r.qid, q, r.sqsize + 1, auth, icdKib s⟩] })
      connectReply s q cid r.cntlid .success (r.cntlid + 65536 * bit auth)

/-- Fabrics Connect on a queue pair of kind 0 that is not connected yet (R192); the management port serves VSS 0 alone (R222). A failure of check 1
names the offset of SUBNQN, 256 (PRESUMED, log 27). -/
def connect (s : State) (q cid : Nat) (r : ConnectReq) : State :=
  let x := qpOf s q
  if !(dataRuns s || (x.sub == 32 && s.glb.mode != .held)) || x.kind ≠ 0 || (x.state ≠ .rtr && x.state ≠ .rts) || x.assoc.isSome then s
  else match connectTarget s r.subnqn with
    | none => connectFail s q cid .connectInvalidParams (some (65536 + 256))
    | some t =>
      if x.sub = 32 && t ≠ Target.mgmt then connectFail s q cid .connectInvalidParams (some (65536 + 256)) else
      let listed := match t with
        | .tenant v => hostListed s v r.hostnqn
        | _ => true
      if !listed then connectFail s q cid .connectInvalidHost (some 0)
      else if r.qid = 0 then connectAdmin s q cid r t
      else match t with
        | .tenant v => connectIo s q cid r v
        | _ => connectFail s q cid .connectInvalidParams none

def execFabricsConnect (qp cid : Nat) (r : ConnectReq) (s : State) : Host.Outcome State Fault Refusal :=
  onQp qp s fun s => connect s qp cid r

/-! ### The admin queue (R195, R197, R223) -/

/-- A command identifier is in flight on its queue (R194): in a context, among the event requests, or in a command that waits. -/
def cidBusy (s : State) (c : Cid) : Bool :=
  !(ctxFilter s fun x => !x.done && (match x.cmd with | some h => h.c == c | none => false)).isEmpty
  || (match c.org with
      | .assoc a => (match assocOf s a with | some x => x.aers.contains c.cid | none => false)
      | .fn n => (match assocOf s (65536 + n) with | some x => x.aers.contains c.cid | none => false)
      | _ => false)
  || (s.cfe.pend.any fun p => p.who == some c) || (s.cfe.tqs.any fun x => x.2.freezer == some c)
  || (s.fed.leases.any fun l => l.c == c) || (s.spk.spokes.any fun x => x.2.format == some c)
  || s.tdm.grp0.releasing == some c || s.tdm.grp1.releasing == some c

/-- Who is served an admin command: hosts of a tenant, service-port functions bound to one, discovery controllers, the manager, the manager
before its proof (R223), and a queue that awaits authentication (R195). -/
structure AdminSet where
  host  : Bool := true
  fn    : Bool := true
  disc  : Bool := false
  mgmt  : Bool := false
  early : Bool := false
  unauth : Bool := false

/-- The command came over the management port, which is up in every mode but Held (R45, R152). -/
def viaMgmtPort (s : State) (c : Cid) : Bool :=
  match c.org with
  | .assoc a => match assocOf s a with
    | some x => x.mgmt && (qpOf s x.qp).sub == 32 && s.glb.mode != .held
    | none => false
  | _ => false

/-- An admin command: `f` serves a virtual controller, given by its number and record, and `g` the manager on PF0. A sender that exists no more
sends nothing. -/
def onAdmin (s : State) (c : Cid) (t : AdminSet) (f : Nat → Assoc → State → State) (g : State → State) : State :=
  if !(dataRuns s || (t.early && viaMgmtPort s c)) then s
  else match c.org with
    | .pf0 | .mctp _ => if t.mgmt then g s else reply s c .invalidOpcode
    | .fn n => match assocOf s (65536 + n) with
      | none => s
      | some x =>
        if cidBusy s c then reply s c .cidConflict
        else if t.fn && t.host then f (65536 + n) x s else reply s c .invalidOpcode
    | .assoc a => match (if a < 65536 then assocOf s a else none) with
      | none => s
      | some x =>
        if cidBusy s c then reply s c .cidConflict
        else if x.auth && !t.unauth then reply s c .authRequired
        else if (capBad x c.cid).isSome then reply s c ((capBad x c.cid).getD .invalidField)
        else if x.mgmt then
          (if x.roles.isNone && !t.early then reply s c (.vendor 0xE4)
           else if t.mgmt then f a x s else reply s c .invalidOpcode)
        else if x.disc then (if t.disc then f a x s else reply s c .invalidOpcode)
        else if t.host then f a x s else reply s c .invalidOpcode
    | .ioq .. | .tq _ => s

/-! ### Authentication (R195) -/

/-- A queue of an association awaits authentication. -/
def awaitsAuth (x : Assoc) (qid : Nat) : Bool :=
  if qid = 0 then x.auth else x.ioqs.any fun i => i.qid == qid && i.auth

/-- The state of a queue's exchange: 0 negotiation due, then as `Assoc.chap`. -/
def chapOf (x : Assoc) (qid : Nat) : Nat := tget x.chap 0 qid
/-- Write it. -/
def setChap (s : State) (a qid st : Nat) : State :=
  match assocOf s a with
  | some x => setAssoc s a (some { x with chap := tput x.chap 0 qid st })
  | none => s

/-- Tear down one queue of an association: the admin queue takes the association with it. -/
def dropQueue (s : State) (a qid : Nat) : State :=
  match assocOf s a with
  | none => s
  | some x =>
    if qid = 0 then assocEnd s a
    else match assocQp x qid with
      | some q => qpDown s q 9
      | none => s

/-- CFE_AUTH_FAIL with the host NQN hash, the VSS and the reason: 1 the response does not verify, 2 DH group not usable, 3 a message out of order, 4
the time ran out, 5 the host's own failure, 6 hash not usable, 7 secure channel concatenation (the model's labels; the numbers are open, log 22). -/
def authFailed (s : State) (x : Assoc) (reason : Nat) : State :=
  writeEvent (rcAdd s 0x61020 0 1)
    { num := 0x0501, vss := x.vss, detail := [digest64 (Config.sha384 (x.host.map BitVec.toNat)), x.vss, Config.code 0x0501 reason] }

/-- A queue has authenticated. -/
def authDone (s : State) (a qid : Nat) : State :=
  match assocOf s a with
  | some x =>
    let x := { x with chap := tput x.chap 0 qid 3 }
    setAssoc s a (some (if qid = 0 then { x with auth := false }
      else { x with ioqs := x.ioqs.map fun i => if i.qid = qid then { i with auth := false } else i }))
  | none => s

/-- The front end takes the capsule of a command that came on an I/O queue (R170). -/
def takeIo (s : State) (c : Cid) : State :=
  match c.org with
  | .ioq a k => match (assocOf s a).bind fun x => assocQp x k with
    | some q => takeMsg s q none
    | none => s
  | _ => s

/-- The association and queue that an authentication command is on, when hosts authenticate there: not on VSS 0 (R222). -/
def authQueue (s : State) (c : Cid) (qid : Nat) : Option (Nat × Assoc) :=
  match c.org with
  | .assoc a => if qid = 0 && a < 65536 then (assocOf s a).map fun x => (a, x) else none
  | .ioq a k => if qid = k then (assocOf s a).map fun x => (a, x) else none
  | _ => none

/-- What is wrong with a negotiation, in the order secure channel, hash, DH group (DESIGN CHOICE of the order, log 27): the label of the reason and the
reason code of AUTH_FAILURE1, as NVMe numbers them (PRESUMED, log 27). -/
def negotiateBad (sha g3 g4 secure : Bool) : Option (Nat × Nat) :=
  if secure then some (7, 3) else if !sha then some (6, 4) else if !(g3 || g4) then some (2, 5) else none

/-- A failed message is answered by AUTH_FAILURE1 with its reason code at the host's next Authentication Receive, and the queue then goes; a failure
the host reports ends it at once. -/
def authSend (s : State) (c : Cid) (qid : Nat) (m : AuthMsg) : State :=
  match authQueue s c qid with
  | none => s
  | some (a, x) =>
    let s := takeIo s c
    if x.mgmt || x.disc then reply s c .invalidOpcode
    else
      let fail := fun (reason code : Nat) => reply (setChap (authFailed s x reason) a qid (16 + code)) c .success
      match m, chapOf x qid with
      | .failure2, _ => dropQueue (reply (authFailed s x 5) c .success) a qid
      | .negotiate sha g3 g4 secure, 0 => match negotiateBad sha g3 g4 secure with
        | some b => fail b.1 b.2
        | none => reply (setChap s a qid 1) c .success
      | .reply ok bidir, 5 => if ok then reply (setChap s a qid (if bidir then 7 else 2)) c .success else fail 1 1
      | .success2, 6 => reply (authDone s a qid) c .success
      | _, _ => fail 3 7

/-- Authentication Receive returns what is due: the challenge with a fresh nonce, success, or failure with its reason code and its teardown. Message
codes: 1 challenge, 2 success1, 3 failure1, 0 nothing due. -/
def authReceive (s : State) (c : Cid) (qid : Nat) : State :=
  match authQueue s c qid with
  | none => s
  | some (a, x) =>
    let s := takeIo s c
    if x.mgmt || x.disc then reply s c .invalidOpcode
    else match chapOf x qid with
      | 1 =>
        let (n, s) := takeFree s
        reply (setChap s a qid 5) c .success 0 [1, n]
      | 2 => authDone (reply s c .success 0 [2]) a qid
      | 7 => reply (setChap s a qid 6) c .success 0 [2]
      | n => if 16 ≤ n then dropQueue (reply s c .success 0 [3, n - 16]) a qid else reply s c .success 0 [0]

/-- The exchange has not ended within AUTH_TIMEOUT_MS; a failure already reported is not reported again. -/
def authLate (s : State) (a qid : Nat) : State :=
  match assocOf s a with
  | none => s
  | some x =>
    if awaitsAuth x qid then dropQueue (if 16 ≤ chapOf x qid then s else authFailed s x 4) a qid else s

def execAuthenticationSend (c : Cid) (qid : Nat) (m : AuthMsg) (s : State) : Host.Outcome State Fault Refusal :=
  .next (if dataRuns s then authSend s c qid m else s)

def execAuthenticationReceive (c : Cid) (qid : Nat) (s : State) : Host.Outcome State Fault Refusal :=
  .next (if dataRuns s then authReceive s c qid else s)

def execAuthTimeout (a qid : Nat) (s : State) : Host.Outcome State Fault Refusal := .next (authLate s a qid)

/-! ### Properties (R195, R232) -/

/-- CSTS of a virtual controller: RDY [0], SHST [3:2]; a shutdown completes once no command is in flight. -/
def shstNow (s : State) (a : Nat) (x : Assoc) : Nat :=
  if field x.cc 14 2 = 0 then 0
  else if x.shst = 2 || (ctxFilter s fun c => c.cmd.isSome && c.assoc == a).isEmpty then 2 else 1

/-- Property Get: CC and CSTS; CAP and VS are served with values the spec does not give (log 27). -/
def propGet (s : State) (c : Cid) (off a : Nat) (x : Assoc) : State :=
  let st := shstNow s a x
  let s := setAssoc s a (some { x with shst := st })
  match off with
  | 0x14 => reply s c .success x.cc
  | 0x1C => reply s c .success (bit x.rdy + 4 * st)
  | 0x00 | 0x08 =>
    let (v, s) := takeFree s
    reply s c .success (v % 2 ^ 32)
  | _ => reply s c .invalidField

/-- Property Set of CC: clearing EN resets the virtual controller and deletes its I/O queues; SHN starts a shutdown. -/
def propSet (s : State) (c : Cid) (off val a : Nat) (x : Assoc) : State :=
  if off ≠ 0x14 then reply s c .invalidField
  else
    let cc := val % 2 ^ 32
    let was := bitAt x.cc 0
    let en := bitAt cc 0
    let s := setAssoc s a (some { x with cc := cc, rdy := en, shst := 0 })
    let s := if was && !en then deleteIoQueues (vcReset s a) a else s
    reply s c .success

/-- Property Get is served on a queue that awaits authentication, I/O queues among them; the service port has no Fabrics commands. -/
def propertySet : AdminSet := { fn := false, disc := true, mgmt := true, early := true, unauth := true }

def execPropertyGet (c : Cid) (off : Nat) (s : State) : Host.Outcome State Fault Refusal :=
  .next (match c.org with
    | .ioq a k => match (if dataRuns s then assocOf s a else none) with
      | some x => if awaitsAuth x k then propGet (takeIo s c) c off a x else reply (takeIo s c) c .invalidOpcode
      | none => s
    | .pf0 | .mctp _ => if dataRuns s then reply s c .invalidOpcode else s
    | _ => onAdmin s c propertySet (fun a x s => propGet s c off a x) id)

def execPropertySet (c : Cid) (off val : Nat) (s : State) : Host.Outcome State Fault Refusal :=
  .next (match c.org with
    | .pf0 | .mctp _ => if dataRuns s then reply s c .invalidOpcode else s
    | _ => onAdmin s c { propertySet with unauth := false } (fun a x s => propSet s c off val a x) id)

/-! ### Keep Alive (R196) -/

def execKeepAlive (c : Cid) (s : State) : Host.Outcome State Fault Refusal :=
  .next (onAdmin s c { disc := true, mgmt := true, early := true } (fun _ _ s => reply s c .success) fun s => reply s c .success)

/-- The timer of a fabric association expires. -/
def katoExpired (s : State) (a : Nat) : State :=
  match (if a < 65536 then assocOf s a else none) with
  | none => s
  | some x => assocEnd (writeEvent (rcAdd s 0x61024 0 1) { num := 0x0502, vss := x.vss, detail := [x.vss, a] }) a

def execKeepAliveExpiry (a : Nat) (s : State) : Host.Outcome State Fault Refusal := .next (katoExpired s a)

/-! ### Identify (R198) -/

/-- The power-state descriptors of PS0, PS1 and PS2 (R216): maximum power in W, non-operational, ENLAT and EXLAT in µs. -/
def powerStates : List Nat := [250, 0, 0, 0, 120, 1, 0, 2, 90, 1, 0, 20]

/-- Identify Controller: the fields of R198 and R194 in their order: CNTRLTYPE, MDTS, MAXCMD, SGLS, ONCS, ANACAP, ANAGRPMAX, NANAGRPID, ANATT, ACL,
KAS, FCATT, then VWC, NPSS, AERL, IOCCSZ, IORCSZ, ICDOFF, the controller ID and the power states. What section 0x0008 gives connections set up now
stands in the association (R217). The bits of SGLS, ONCS and ANACAP are as NVMe lays them out (PRESUMED, log 27). -/
def identifyCtrl (s : State) (a : Nat) (x : Assoc) : List Nat :=
  [if x.disc then 2 else 1, 8, x.maxQd, 0x100005, 0x0D, 0x57, 2, 2, par s 0x08 26 1 2, 3, 1, 0, 0, 2, 3, (64 + 1024 * x.icd) / 16, 1, 0, a]
  ++ powerStates

/-- The groups of a tenant's attached namespaces. -/
def attachedGroups (s : State) (v : Nat) : List Nat :=
  [0, 1].filter fun g => (attachedOf s v).any fun x => x.2.group == g

/-- Identify (R197): CNS 03h returns descriptors whose values the spec does not give. -/
def identifyData (s : State) (c : Cid) (cns nsid a : Nat) (y : Assoc) : State :=
  let v := y.vss
  let ns := (nsByNsid s v nsid).filter fun x => x.2.attached
  match cns, y.disc with
  | 0x01, _ => reply s c .success 0 (identifyCtrl s a y)
  | 0x00, false => match ns with
    | some x => reply s c .success 0 [x.2.nsze, x.2.lbaf, x.2.pi, x.2.group + 1]
    | none => reply s c .invalidNs
  | 0x02, false => reply s c .success 0 (((attachedOf s v).map fun x => x.2.nsid).filter fun n => decide (nsid < n))
  | 0x03, false => match ns with
    | some _ =>
      let (x, s) := takeFree s
      reply s c .success 0 [x]
    | none => reply s c .invalidNs
  | 0x0C, false =>
    if (attachedGroups s v).isEmpty then reply s c .invalidField
    else reply s c .success 0 ((attachedGroups s v).map (· + 1))
  | _, _ => reply s c .invalidField

/-- PF0's management queue is a virtual controller of VSS 0 without I/O queues and events. -/
def pf0Vc (s : State) : Assoc := { mgmt := true, roles := some 7, maxQd := maxQd s, maxIo := maxIoQueues s, icd := icdKib s }

def execIdentify (c : Cid) (cns nsid : Nat) (s : State) : Host.Outcome State Fault Refusal :=
  .next (onAdmin s c { disc := true, mgmt := true, early := true }
    (fun a x s => identifyData s c cns nsid a x) fun s => identifyData s c cns nsid 0 (pf0Vc s))

/-! ### Logs (R197, R199, R201, R244) -/

/-- The chunks of a virtual subsystem. -/
def vssChunks (s : State) (v : Nat) : Nat :=
  s.cat.ns.foldl (fun n x => match x.2 with | some r => if r.vss = v then n + r.chunks else n | none => n) 0

/-- SPROG of a virtual subsystem (R244). -/
def sprog (r : VssRec) : Nat := min 65535 (65536 * r.sanDone / r.sanTotal)

/-- The number of an ANA state in the log, as NVMe has it (PRESUMED, log 27). -/
def anaNvme (st : Nat) : Nat := if st = 3 then 15 else st + 1

/-- The ANA log: the change count, then each listed group with its state and its attached NSIDs. -/
def anaLog (s : State) (v : Nat) : List Nat :=
  s.cfe.anaCnt :: (attachedGroups s v).length :: ((attachedGroups s v).map fun g =>
    let ids := ((attachedOf s v).filter fun x => x.2.group == g).map fun x => x.2.nsid
    (g + 1) :: anaNvme (anaState s g) :: ids.length :: ids).flatten

/-- The addresses this controller serves: sub-port, IPv6, address. -/
def ownAddrs (s : State) : List (Nat × Bool × Nat) :=
  (s.prt.subs.map fun x => x.2.addrs.filterMap fun y => y.2.map fun z => (x.1, z)).flatten

/-- TREQ "not required" for the secure channel, as NVMe over Fabrics codes it (PRESUMED, log 27). -/
def treqNotRequired : Nat := 2

/-- The Discovery log of a host: the generation counter, the number of entries, and for each entry the virtual subsystem, the address, the
transport service ID and the fixed fields TRTYPE, SUBTYPE, CNTLID, RDMA_QPTYPE, RDMA_PRTYPE, RDMA_CMS and TREQ. -/
def discLog (s : State) (host : List Byte) : List Nat :=
  let vs := (s.cat.vss.filterMap fun x => x.2.map fun _ => x.1).filter fun v => hostListed s v host
  let es := (vs.map fun v => (ownAddrs s ++ s.tdm.frame.addrs).map fun y =>
    [v, bit y.2.1, y.2.2, 4420, 1, 2, 0xFFFF, 1, 4, 1, treqNotRequired]).flatten
  s.cfe.discGen :: es.length :: es.flatten

/-- A log page of a host; the 16 entries of the error log, and the health and firmware logs, carry values the spec does not give. Reading the ANA log with Retain Asynchronous
Event cleared ends its notice (R200). -/
def hostLog (s : State) (c : Cid) (lid : Nat) (rae : Bool) (a : Nat) (x : Assoc) : State :=
  if x.disc then (if lid = 0x70 then reply s c .success 0 (discLog s x.host) else reply s c .invalidField)
  else match lid with
    | 0x01 =>
      let (vs, s) := takeFrees s 16
      reply s c .success 0 vs
    | 0x02 | 0x03 =>
      let (v, s) := takeFree s
      reply s c .success 0 [v]
    | 0x0C =>
      let data := anaLog s x.vss
      let s := if rae then s
        else setAssoc s a (some { x with masked := x.masked.filter (· != 0), notices := x.notices.filter (· != 0) })
      reply s c .success 0 data
    | 0x81 => match vssOf s x.vss with
      | some r => reply s c .success 0 [sprog r, r.sstat, r.scdw10, 1, (vssChunks s x.vss + 19) / 20]
      | none => reply s c .invalidField
    | _ => reply s c .invalidField

def execGetLogPage (c : Cid) (lid : Nat) (rae : Bool) (s : State) : Host.Outcome State Fault Refusal :=
  .next (onAdmin s c { disc := true } (fun a x s => hostLog s c lid rae a x) id)

/-! ### Features (R197, R216, R222) -/

/-- DW0 of Number of Queues: both counts, 0-based; for no queue at all the field has no value (log 27). -/
def queuesDw0 (s : State) (n : Nat) : Nat × State :=
  if n = 0 then
    let (v, s) := takeFree s
    (v % 2 ^ 32, s)
  else ((n - 1) + 65536 * (n - 1), s)

/-- The I/O queues Number of Queues grants at most: none on VSS 0. -/
def queueCap (x : Assoc) : Nat := if x.mgmt then 0 else x.maxIo

def featureGet (s : State) (c : Cid) (fid : Nat) (x : Assoc) : State :=
  match fid with
  | 0x01 =>
    let (v, s) := takeFree s
    reply s c .success (v % 2 ^ 32)
  | 0x02 => reply s c .success s.cfe.idle
  | 0x07 =>
    let (v, s) := queuesDw0 s (x.granted.getD (queueCap x))
    reply s c .success v
  | 0x0B => reply s c .success x.aenCfg
  | 0x0F => reply s c .success x.kato
  | _ => reply s c .invalidField

/-- Set Features: 07h once, before the first I/O queue. -/
def featureSet (s : State) (c : Cid) (fid val a : Nat) (x : Assoc) : State :=
  match fid with
  | 0x07 =>
    if x.granted.isSome || !x.ioqs.isEmpty then reply s c .featureNotChangeable
    else
      let n := min (min (field val 0 16) (field val 16 16) + 1) (queueCap x)
      let (v, s) := queuesDw0 s n
      reply (setAssoc s a (some { x with granted := some n })) c .success v
  | 0x0B => reply (setAssoc s a (some { x with aenCfg := val % 2 ^ 32 })) c .success
  | 0x0F => reply (setAssoc s a (some { x with kato := val % 2 ^ 32 })) c .success
  | _ => reply s c .featureNotChangeable

def execGetFeatures (c : Cid) (fid : Nat) (s : State) : Host.Outcome State Fault Refusal :=
  .next (onAdmin s c { mgmt := true } (fun _ x s => featureGet s c fid x) fun s => featureGet s c fid (pf0Vc s))

def execSetFeatures (c : Cid) (fid val : Nat) (s : State) : Host.Outcome State Fault Refusal :=
  .next (onAdmin s c { mgmt := true } (fun a x s => featureSet s c fid val a x) fun s => reply s c .featureNotChangeable)

/-! ### Event requests and Abort (R200, R214) -/

/-- Asynchronous Event Request: at most 4; a held notice completes it at once. A fifth meets NVMe's limit status (PRESUMED, log 27). -/
def eventRequest (s : State) (c : Cid) (a : Nat) (x : Assoc) : State :=
  if 4 ≤ x.aers.length then reply s c .aerLimit
  else match x.notices with
    | k :: r =>
      reply (setAssoc s a (some { x with notices := r, masked := if k = 0 then x.masked ++ [k] else x.masked })) c .success (aenDw0 k)
    | [] => setAssoc s a (some { x with aers := x.aers ++ [c.cid] })

def execAsyncEventRequest (c : Cid) (s : State) : Host.Outcome State Fault Refusal :=
  .next (onAdmin s c {} (fun a x s => eventRequest s c a x) id)

/-- Aborts of an association that are outstanding: their responses have not left its admin queue pair (DESIGN CHOICE, log 50). -/
def abortsOut (s : State) (x : Assoc) : Nat := (qpOf s x.qp).sendq.countP fun m => m.abort

/-- The response to an Abort, marked so in the send queue of the admin queue pair it waits in. -/
def abortReply (s : State) (c : Cid) (x : Assoc) (dw0 : Nat) : State :=
  let s := reply s c .success dw0
  match c.org, (qpOf s x.qp).sendq.reverse with
  | .assoc _, m :: r => setQp s x.qp { qpOf s x.qp with sendq := (({ m with abort := true }) :: r).reverse }
  | _, _ => s

/-- Abort ends a held command or an event request, and has no effect on any other. While four are outstanding, a fifth is turned away. -/
def abortCommand (s : State) (c : Cid) (qid cid a : Nat) (x : Assoc) : State :=
  let target : Cid := match c.org with
    | .fn n => ⟨.fn n, cid⟩
    | _ => ⟨.ioq a qid, cid⟩
  if 4 ≤ abortsOut s x then reply s c .abortLimit
  else match (ctxFilter s fun y => y.run == .held && (match y.cmd with | some h => h.c == target | none => false)).head? with
  | some (n, y) => abortReply (endHold s n y .abortRequested) c x 0
  | none =>
    if qid = 0 && x.aers.contains cid then
      let s := setAssoc s a (some { x with aers := x.aers.filter (· != cid) })
      abortReply (reply s ⟨vcOrg a, cid⟩ .abortRequested) c x 0
    else abortReply s c x 1

def execAbort (c : Cid) (qid cid : Nat) (s : State) : Host.Outcome State Fault Refusal :=
  .next (onAdmin s c {} (fun a x s => abortCommand s c qid cid a x) id)

/-! ### Commands of the NVM command set (R194, R211, R212) -/


/-- The front end takes commands: not in Drain (power failure), which drops them (R67). -/
def frontRuns (s : State) : Bool := dataRuns s && !(s.glb.mode == .drain && s.glb.drainReason == .powerFail)

/-- A command capsule on an I/O queue of an association: the front end acts once the transport has executed its first packet (R23, R170), and
takes it or refuses it (R169). -/
def capsule (s : State) (cls : Nat) (h : HostCmd) (a qid : Nat) : State :=
  match assocOf s a with
  | none => s
  | some x => match x.ioqs.find? fun i => i.qid == qid with
    | none => s
    | some i =>
      if (headMsg (qpOf s i.qp)).isNone then s
      else if i.auth then reply (takeMsg s i.qp none) h.c .authRequired
      else if cidBusy s h.c then reply (takeMsg s i.qp none) h.c .cidConflict
      else match admitCheck s x.vss cls (1024 * i.icd) h false with
        | .bad st => reply (takeMsg s i.qp none) h.c st
        | .refuse => refuseMsg (countRefusal (stopTenant s x.vss (needBytes cls h)) x.vss) i.qp
        | .accept => takeMsg (admitCmd s x.vss a cls h i.qp 0 none) i.qp (if h.inl then freeCtx s else none)

/-- A command of a service-port function; one that is refused stays in the host's queue (R212, R477). -/
def fnCommand (s : State) (cls : Nat) (h : HostCmd) (n : Nat) : State :=
  match assocOf s (65536 + n) with
  | none => s
  | some x =>
    if !fnDmaOn s n then s
    else if cidBusy s h.c then reply s h.c .cidConflict
    else match admitCheck s x.vss cls 0 h false with
      | .bad st => reply s h.c st
      | .refuse => countRefusal (stopTenant s x.vss (needBytes cls h)) x.vss
      | .accept =>
        let (q, s) := takeFree s
        admitCmd s x.vss (65536 + n) cls h q 0 none

/-- A command from a capsule or a service-port queue; the entries of tenant queues come by their own rows. -/
def hostCommand (s : State) (cls : Nat) (h : HostCmd) : State :=
  if !frontRuns s then s
  else match h.c.org with
    | .ioq a q => capsule s cls h a q
    | .fn n => fnCommand s cls h n
    | _ => s

/-- The tenant of a command's sender. -/
def senderVss (s : State) (h : HostCmd) : Nat :=
  match h.c.org with
  | .ioq a _ => (assocOf s a).elim 0 fun x => x.vss
  | .fn n => (assocOf s (65536 + n)).elim 0 fun x => x.vss
  | _ => 0

def execNvmRead (h : HostCmd) (s : State) : Host.Outcome State Fault Refusal :=
  .next (atPoint s 2 (senderVss s h) (.sqe 0 h) fun s => hostCommand s 0 h)
def execNvmWrite (h : HostCmd) (s : State) : Host.Outcome State Fault Refusal :=
  .next (atPoint s 2 (senderVss s h) (.sqe 1 h) fun s => hostCommand s 1 h)
def execNvmFlush (h : HostCmd) (s : State) : Host.Outcome State Fault Refusal :=
  .next (atPoint s 2 (senderVss s h) (.sqe 2 h) fun s => hostCommand s 2 h)
def execWriteZeroes (h : HostCmd) (s : State) : Host.Outcome State Fault Refusal :=
  .next (atPoint s 2 (senderVss s h) (.sqe 3 h) fun s => hostCommand s 3 h)
def execDatasetManagement (h : HostCmd) (s : State) : Host.Outcome State Fault Refusal :=
  .next (atPoint s 2 (senderVss s h) (.sqe 4 h) fun s => hostCommand s 4 h)
def execNvmCompare (h : HostCmd) (s : State) : Host.Outcome State Fault Refusal :=
  .next (atPoint s 2 (senderVss s h) (.sqe 5 h) fun s => hostCommand s 5 h)

end Sys2Proof.Machine
end

