-- ==== Sys2Proof/Machine/Vdq.lean ====
section
/-! DEFINITION. Varsan Direct Queues (R202 to R213): creating and deleting tenant queues, doorbells, pull fetch, pushes, the completion
ring's timers, and the reopening of a tenant's admission. -/

namespace Sys2Proof.Machine

/-! ### Creating and deleting (R202, R203, R210) -/

/-- A descriptor breaks a range of R203. -/
def vdqDescBad (d : List Byte) : Bool :=
  let sq := leAt d 24 1
  let cq := leAt d 25 1
  let push := leAt d 26 1
  d.length != 64 || leAt d 0 8 % 64 != 0 || leAt d 8 8 % 16 != 0
  || decide (sq < 4) || decide (16 < sq) || decide (cq < 4) || decide (16 < cq) || decide (64 < push)
  || decide (2 ^ cq < 2 ^ sq + push)
  || ((leAt d 27 1 == 0) != (leAt d 28 2 == 0))
  || leAt d 30 1 / 4 != 0 || leAt d 31 1 != 0 || leAt d 32 4 / 2 ^ 28 != 0 || (d.drop 36).any (· != 0)

/-- The context and the QIDX that a LOCAL_QPN word names: [23:0] the local QPN, [27:24] QIDX; none where no connected queue pair of kind 1
bears the number. -/
def vdqQp (s : State) (w : Nat) : Option Nat :=
  let n := w % 65536
  let x := qpOf s n
  if localQpn s n = w % 2 ^ 24 && x.kind = 1 && (x.state = .rtr || x.state = .rts) then some n else none

/-- Tenant queues not Free. -/
def tqCount (s : State) (p : Tq → Bool) : Nat := (tqKeys s fun t => t.state != .free && p t).length

/-- TQ_QUOTA of a tenant. -/
def tqQuota (s : State) (v : Nat) : Nat :=
  match vssOf s v with
  | some r => r.tqQuota
  | none => 0

/-- Bind a tenant queue with a descriptor: indices 0, phase 1, its instar as it was, and a push window under a key the spec does not give
(log 4). DW0 of the completion is that key, or 0 without push slots. -/
def vdqBind (s : State) (k v a : Nat) (d : List Byte) : Nat × State :=
  let (f, s) := if leAt d 26 1 = 0 then (0, s) else takeFree s
  let key := f % 2 ^ 32
  (key, setTq s k { state := if vssStopped s v then .paused else .active, desc := d, instar := (tqOf s k).instar, rkey := key,
                    vss := v, assoc := a })

/-- VDQ Create: ranges, then the binding, QIDX and the pools (DESIGN CHOICE of the order, log 28). -/
def vdqCreate (s : State) (c : Cid) (d : List Byte) (a : Nat) (x : Assoc) : State :=
  if vdqDescBad d then reply s c .invalidField
  else match vdqQp s (leAt d 32 4) with
    | none => reply s c (.vendor 0xD2)
    | some n =>
      let k := 16 * n + leAt d 35 1
      if (qpOf s n).assoc ≠ some a then reply s c (.vendor 0xD2)
      else if (tqOf s k).state ≠ .free then reply s c (.vendor 0xD1)
      else if tqMax s ≤ tqCount s (fun _ => true) || tqQuota s x.vss ≤ tqCount s (fun t => t.vss == x.vss) then reply s c (.vendor 0xD0)
      else
        let (key, s) := vdqBind s k x.vss a d
        reply s c .success key

/-- Served to hosts on their own association. -/
def vdqSet : AdminSet := { fn := false }

def execVdqCreate (c : Cid) (desc : List Byte) (s : State) : Host.Outcome State Fault Refusal :=
  .next (onAdmin s c vdqSet (fun a x s => vdqCreate s c desc a x) id)

/-- The tenant queue that a word of LOCAL_QPN and QIDX names. -/
def vdqNamed (s : State) (w : Nat) : Option Nat :=
  let n := w % 65536
  let k := 16 * n + field w 24 4
  if localQpn s n = w % 2 ^ 24 && (tqOf s k).state != .free && (tqOf s k).state != .deleting then some k else none

/-- VDQ Delete; a queue that is Deleting already is no such queue (log 28). -/
def vdqDelete (s : State) (c : Cid) (cdw10 a : Nat) : State :=
  match vdqNamed s cdw10 with
  | some k => if (tqOf s k).assoc = a then reply (tqDelete s k) c .success else reply s c (.vendor 0xD2)
  | none => reply s c (.vendor 0xD2)

def execVdqDelete (c : Cid) (cdw10 : Nat) (s : State) : Host.Outcome State Fault Refusal :=
  .next (onAdmin s c vdqSet (fun a _ s => vdqDelete s c cdw10 a) id)

/-! ### Admission of entries (R207, R212) -/

/-- An SQ entry breaks a rule that its own bytes show (R204): a reserved field is not 0, or DATA_LEN of Dataset Management is not 16 bytes for each
range, NR being 0-based (DEDUCED, log 28). -/
def sqEntryBad (b : List Byte) : Bool :=
  b.length != 64 || leAt b 1 1 / 8 != 0 || leAt b 18 2 != 0 || leAt b 37 3 != 0 || (b.drop 48).any (· != 0)
  || (leAt b 0 1 == 9 && leAt b 32 4 != 16 * (leAt b 36 1 + 1))

/-- The opcode and the command of a 64-byte SQ entry (R204) of a tenant queue. -/
def sqEntry (k : Nat) (b : List Byte) : Nat × HostCmd :=
  (leAt b 0 1,
   { c := ⟨.tq k, leAt b 2 2⟩, nsid := leAt b 4 4, slba := leAt b 8 8, nlb := leAt b 16 2, rkey := leAt b 20 4, addr := leAt b 24 8,
     len := leAt b 32 4, fieldsOk := !sqEntryBad b, prchk := leAt b 1 1 % 8, reftag := leAt b 40 4, apptag := leAt b 44 2,
     appmask := leAt b 46 2 })

/-- Admit fetched entries in ring order: the first that finds no quota waits at the head of its tenant queue, with all behind it, and stops
the tenant. An admitted entry is charged to its tenant's deficit at the fetch point (R391). -/
def admitEntries (s : State) (k : Nat) (es : List (Nat × HostCmd)) : State :=
  match es with
  | [] => setTq s k { tqOf s k with wait := [] }
  | (op, h) :: rest =>
    let t := tqOf s k
    let v := t.vss
    let gone := setTq s k { t with wait := rest }
    match nvmClass op with
    | none => admitEntries (reply gone h.c .invalidOpcode) k rest
    | some cls => match admitCheck gone v cls 0 h true with
      | .bad st => admitEntries (reply gone h.c st) k rest
      | .refuse => countRefusal (stopTenant (setTq s k { t with wait := es }) v (needBytes cls h)) v
      | .accept =>
        let s := setDeficit gone 0 v (deficitOf s 0 v - (max h.len 4096 : Nat))
        admitEntries (admitCmd s v t.assoc cls h (tqQp k) (k % 16) (some k)) k rest

/-- Entries that a queue takes in a turn (R213). -/
def turnEntries (s : State) (t : Tq) : Nat := (field (leAt t.desc 30 1) 0 2 + 1) * arbBurst s

/-- A tenant queue has entries to fetch. -/
def tqReady (t : Tq) : Bool := t.state == .active && !t.frozen && t.fetch == 0 && t.wait.isEmpty && t.head != t.tail

/-- The ready tenant queues of a tenant. -/
def readyTqs (s : State) (v : Nat) : List Nat := tqKeys s fun t => t.vss == v && tqReady t

/-- A tenant with a ready queue joins the fetch point. -/
def joinFetch (s : State) (v : Nat) : State := if (readyTqs s v).isEmpty then s else joinActive s 0 v

/-- The entries that wait for quota are tried again, queue by queue. -/
def retryWaits (s : State) (v : Nat) : State :=
  (tqKeys s fun t => t.vss == v && !t.wait.isEmpty && (t.state == .active || t.state == .paused)).foldl (fun s k =>
    match (tqOf s k).wait with
    | (op, h) :: _ => match nvmClass op with
      | some cls => if admitCheck s v cls 0 h true = .refuse then s else admitEntries s k (tqOf s k).wait
      | none => admitEntries s k (tqOf s k).wait
    | [] => s) s

/-- Reopen a stopped tenant when slots, quota and shaper allow (R212, R392): its queues leave Paused unless they are frozen. -/
def reopen (s : State) (v : Nat) : State :=
  if !(rtOf s v).stopped then s
  else
    let s := retryWaits s v
    if mayReopen s v && (tqKeys s fun t => t.vss == v && !t.wait.isEmpty && t.state == .paused).isEmpty then
      let s := setRt s v { rtOf s v with stopped := false, pending := 0 }
      joinFetch { s with cfe := { s.cfe with tqs := s.cfe.tqs.map fun x =>
        if x.2.vss = v && x.2.state = .paused && !x.2.frozen then (x.1, { x.2 with state := .active }) else x } } v
    else s

def execAdmissionReopen (vss : Nat) (s : State) : Host.Outcome State Fault Refusal :=
  .next (if frontRuns s then reopen s vss else s)

/-! ### Doorbells (R206 to R209) -/

/-- The tenant queue that an immediate names, if it serves doorbells. -/
def bellQueue (s : State) (q imm : Nat) : Option Nat :=
  let k := 16 * q + field imm 26 4
  if (tqOf s k).state = .active || (tqOf s k).state = .paused then some k else none

/-- A doorbell to a queue whose instar was bumped as it left service is discarded and counted (R37, R219); it carries no instar of its own. -/
def staleBell (s : State) (q imm : Nat) : State :=
  let k := 16 * q + field imm 26 4
  if (tqOf s k).state = .error || (tqOf s k).state = .deleting then tqStale (rcAdd s 0x6102C 0 1) k else s

/-- An SQ tail doorbell. -/
def sqTail (s : State) (q imm : Nat) : State :=
  match bellQueue s q imm with
  | none => staleBell s q imm
  | some k =>
    let t := tqOf s k
    if sqSize t.desc ≤ imm % 65536 then tqError s k 2
    else joinFetch (setTq s k { t with tail := imm % 65536 }) t.vss

/-- A CQ head doorbell: the held completions follow in order. -/
def cqHeadBell (s : State) (q imm : Nat) : State :=
  match bellQueue s q imm with
  | none => staleBell s q imm
  | some k =>
    let t := tqOf s k
    if cqSize t.desc ≤ imm % 65536 then tqError s k 2
    else cqDrain (setTq s k { t with cqHead := imm % 65536 }) k t.held

/-- A doorbell is delivered, once, with the last packet of its write (R177, R206). -/
def onBell (qp imm : Nat) (s : State) (f : State → State) : Host.Outcome State Fault Refusal :=
  onQp qp s fun s => if frontRuns s && delivered s qp (· == imm) then f s else s

/-- A push is delivered with its last packet (R208). Refusal is tried first, then the slot, then the message's shape (DESIGN CHOICE, log 28). -/
def pushBell (s : State) (q imm : Nat) (entry : List Byte) (payload : List Blk) (ranges : List DsmRange) : State :=
  match bellQueue s q imm with
  | none => staleBell (takeMsg s q none) q imm
  | some k =>
    let t := tqOf s k
    let slot := field imm 16 6
    let op := (sqEntry k entry).1
    let h := { (sqEntry k entry).2 with inl := true, push := some slot, payload := payload, ranges := ranges }
    let va := (headMsg (qpOf s q)).elim 0 fun m => m.va
    let len := (headMsg (qpOf s q)).elim 0 fun m => m.len
    if vssStopped s t.vss || t.frozen then
      refuseMsg (countRefusal (notePending s t.vss ((nvmClass op).elim 0 fun cls => needBytes cls h)) t.vss) q
    else if t.busy.contains slot then tqError (takeMsg s q none) k 3
    else
      let busy := setTq s k { t with busy := t.busy ++ [slot] }
      let bad := fun st => replyD (takeMsg busy q none) h.c (some slot) st (statusDnr st) 0 []
      if va ≠ pushSlotBytes * slot || len ≠ 64 + h.len then bad .invalidField
      else match nvmClass op with
        | none => bad .invalidOpcode
        | some cls => match admitCheck s t.vss cls 16384 h false with
          | .bad st => bad st
          | .refuse => refuseMsg (countRefusal (stopTenant s t.vss (needBytes cls h)) t.vss) q
          | .accept => takeMsg (admitCmd busy t.vss t.assoc cls h q (k % 16) (some k)) q (freeCtx busy)

def execSqTailDoorbell (qp imm : Nat) (s : State) : Host.Outcome State Fault Refusal :=
  onBell qp imm s fun s => sqTail (takeMsg s qp none) qp imm
def execCqHeadDoorbell (qp imm : Nat) (s : State) : Host.Outcome State Fault Refusal :=
  onBell qp imm s fun s => cqHeadBell (takeMsg s qp none) qp imm
def execPushDoorbell (qp imm : Nat) (entry : List Byte) (payload : List Blk) (ranges : List DsmRange) (s : State) :
    Host.Outcome State Fault Refusal :=
  onBell qp imm s fun s => pushBell s qp imm entry payload ranges

/-! ### Pull fetch (R207, R213) -/

/-- The next ready queue of a tenant: one whose turn is not over, else the next in round robin. While a queue waits for a read, the others are
served (DESIGN CHOICE, log 28). -/
def nextTq (s : State) (v : Nat) : Option Nat :=
  let ks := readyTqs s v
  let last := tget s.cfe.rr 0 v
  match ks.find? fun k => decide (0 < (tqOf s k).turn) with
  | some k => some k
  | none => match ks.find? fun k => decide (last < k + 1) with
    | some k => some k
    | none => ks.head?

/-- Entries left in the turn of a queue that is served now: a new turn where none is under way. -/
def turnLeft (s : State) (t : Tq) : Nat := if t.turn = 0 then turnEntries s t else t.turn

/-- Entries one fetch takes (R207), within the queue's turn (R213). -/
def fetchCount (s : State) (t : Tq) : Nat :=
  let size := sqSize t.desc
  min (min (min ((t.tail + size - t.head) % size) (size - t.head)) (min (fetchBatch s) (arbBurst s)))
    (min (turnLeft s t) (slotsFree s t.vss))

/-- One turn of the fetch point: a tenant by deficit round robin, its next queue, one read. Too few slots withhold the fetch and stop the
tenant. -/
def vdqFetch (s : State) : State :=
  let (s, pick) := drrPick s 0 (fun v => if (readyTqs s v).isEmpty then none else some 1) (drrFuel s 0)
  match pick with
  | none => s
  | some v => match nextTq s v with
    | none => s
    | some k =>
      let t := tqOf s k
      let s := { s with cfe := { s.cfe with rr := tput s.cfe.rr 0 v (k + 1) } }
      let n := fetchCount s t
      if n = 0 then countRefusal (stopTenant s v 0) v
      else sendMsg (setTq s k { t with fetch := n, turn := turnLeft s t - n }) (tqQp k)
        { kind := .read, len := 64 * n, va := leAt t.desc 0 8 + 64 * t.head, rkey := leAt t.desc 16 4, fetch := some k }

def execVdqFetch (s : State) : Host.Outcome State Fault Refusal := .next (if frontRuns s then vdqFetch s else s)

/-- The entries of a fetch have arrived: at most as many as were asked for; a short list leaves the rest to the next fetch. -/
def fetchArrived (s : State) (k tag : Nat) (entries : List (List Byte)) : State :=
  let t := tqOf s k
  if stale t.instar tag || t.fetch = 0 then tqStale (rcAdd s 0x6102C 0 1) k
  else
    let es := (entries.take t.fetch).map (sqEntry k)
    let head := (t.head + es.length) % sqSize t.desc
    let s := setTq s k { t with head := head, fetch := 0, wait := es, turn := if head = t.tail then 0 else t.turn }
    joinFetch (admitEntries s k es) t.vss

def execVdqFetchResponse (qp qidx tag : Nat) (entries : List (List Byte)) (s : State) : Host.Outcome State Fault Refusal :=
  onQp qp s fun s => if frontRuns s && decide (qidx < 16) then fetchArrived s (16 * qp + qidx) tag entries else s

/-! ### Timers and the end of a queue (R209, R210) -/

/-- CQ_STALL_MS has passed with a completion held. -/
def cqStalled (s : State) (k : Nat) : State := if (tqOf s k).held.isEmpty then s else tqError s k 1

def execCqStallExpiry (qp qidx : Nat) (s : State) : Host.Outcome State Fault Refusal :=
  onQp qp s fun s => if qidx < 16 then cqStalled s (16 * qp + qidx) else s

/-- A message is a CQ entry write of a tenant queue, still waiting whole and without an immediate. -/
def cqWaits (t : Tq) (m : Msg) : Bool :=
  m.kind == .write && m.cpl && m.sent == 0 && m.len == 16 && m.rkey == leAt t.desc 20 4
    && decide (leAt t.desc 8 8 ≤ m.va) && decide (m.va < leAt t.desc 8 8 + 16 * cqSize t.desc)

/-- NOTIFY_US has passed since the first entry not notified: the newest CQ entry write that still waits carries the notification (DESIGN CHOICE
which, log 28), or, where none waits, a zero-length write. -/
def notifyLate (s : State) (k : Nat) : State :=
  let t := tqOf s k
  if t.since = 0 || !(t.state = .active || t.state = .paused) then s
  else
    let s := setTq s k { t with since := 0 }
    let imm := 0xC0000000 + 2 ^ 26 * (k % 16) + t.cqTail
    let q := (qpOf s (tqQp k)).sendq
    match q.reverse.findIdx? (cqWaits t) with
    | some i => setQp s (tqQp k) { qpOf s (tqQp k) with
        sendq := (q.reverse.modify i fun m => { m with kind := .writeImm, imm := imm }).reverse }
    | none => sendMsg s (tqQp k) { kind := .writeImm, len := 0, imm := imm, cpl := true }

def execNotifyTimerExpiry (qp qidx : Nat) (s : State) : Host.Outcome State Fault Refusal :=
  onQp qp s fun s => if qidx < 16 then notifyLate s (16 * qp + qidx) else s

/-- The last admitted command of a Deleting queue has finished: the queue is Free, and keeps only its instar. -/
def tqFree (s : State) (k : Nat) : State :=
  if (tqOf s k).state = .deleting && tqInflight s k = 0 then setTq s k { instar := (tqOf s k).instar } else s

def execTenantQueueFree (qp qidx : Nat) (s : State) : Host.Outcome State Fault Refusal :=
  onQp qp s fun s => if qidx < 16 then tqFree s (16 * qp + qidx) else s

end Sys2Proof.Machine
end

