-- ==== Sys2Proof/Machine/Vss.lean ====
section
/-! DEFINITION. Virtual subsystems, namespaces and tenants (R220 to R247): the management association, the catalog's changes and copies,
the objects, the moving of tenant queues, Sanitize and Format. -/

namespace Sys2Proof.Machine

/-! ### The management association (R222 to R224) -/

/-- Challenge and Prove are served to the manager, before its proof too, and to nobody else. -/
def provingSet : AdminSet := { host := false, mgmt := true, early := true }

/-- A fresh 32-byte nonce from the trust engine's generator. -/
def freshNonce (s : State) : Nat × State :=
  let (n, s) := takeFree s
  (n % 2 ^ 256, s)

/-- Management Challenge: the nonce replaces any earlier one of the association. PF0 needs none and keeps none. -/
def mgmtChallenge (s : State) (c : Cid) (a : Option Nat) : State :=
  let (n, s) := freshNonce s
  let s := match a.bind fun a => (assocOf s a).map fun x => (a, x) with
    | some (a, x) => setAssoc s a (some { x with nonce := some n })
    | none => s
  reply s c .success 0 (leBytes 32 n)

/-- The 2,000 bytes of an anchor of section 0x0012 (R120). -/
def anchorEntry (s : State) (anchor : Nat) : Option (List Byte) :=
  match sectionOf s.cfg 0x12 with
  | none => none
  | some b => ((List.range (b.length / 2000)).find? fun i => leAt b (2000 * i) 1 == anchor).map fun i => (b.drop (2000 * i)).take 2000

/-- Its roles. -/
def anchorRoles (s : State) (anchor : Nat) : Option Nat := (anchorEntry s anchor).map fun e => field (leAt e 1 1) 0 3

/-- A byte string in a field of `n` bytes, zero-padded. -/
def padded (n : Nat) (bs : List Byte) : List Nat := ((bs.map BitVec.toNat) ++ List.replicate n 0).take n

/-- The 64-byte message that both signatures of a proof sign (R224): "LYSAR-MANAGE-V1", a zero byte, and the digest of the nonce, the identity
fingerprint, the controller ID and the host NQN. -/
def manageMessage (nonce a : Nat) (host : List Byte) : List Nat :=
  [0x4C, 0x59, 0x53, 0x41, 0x52, 0x2D, 0x4D, 0x41, 0x4E, 0x41, 0x47, 0x45, 0x2D, 0x56, 0x31, 0] ++
  leBytes 48 (Config.sha384 (leBytes 32 nonce ++ leBytes 48 identityFp ++ leBytes 2 a ++ padded 256 host))

/-- The signatures of a proof are checked under the anchor's keys. -/
def checkProof (s : State) (e : List Byte) (msg : List Nat) (data : List Byte) : State :=
  emit (emit s (.verify 0 (natsOf ((e.drop 16).take 32)) msg (natsOf (data.take 64))))
    (.verify 1 (natsOf ((e.drop 48).take 1952)) msg (natsOf ((data.drop 64).take 3309)))

/-- Management Prove consumes the nonce: both signatures must verify under the anchor. The third failure ends the association. -/
def mgmtProve (s : State) (c : Cid) (anchor : Nat) (data : List Byte) (v : AuthVerdict) (a : Nat) (x : Assoc) : State :=
  let y := { x with nonce := none }
  let s := match x.nonce, anchorEntry s anchor with
    | some n, some e => checkProof s e (manageMessage n a x.host) data
    | _, _ => s
  match x.nonce, anchorRoles s anchor, data.length == 3376 && v.ed && v.ml with
  | some _, some r, true => reply (setAssoc s a (some { y with roles := some r })) c .success
  | _, _, _ =>
    let s := setAssoc s a (some { y with proofs := x.proofs + 1 })
    let s := writeEvent s { num := 0x0510, inst := a, detail := [anchor, a] }
    let s := reply s c (.vendor 0xE4)
    if 2 ≤ x.proofs then assocEnd s a else s

def execManagementChallenge (c : Cid) (s : State) : Host.Outcome State Fault Refusal :=
  .next (onAdmin s c provingSet (fun a _ s => mgmtChallenge s c (some a)) fun s => mgmtChallenge s c none)

def execManagementProve (c : Cid) (anchor : Nat) (data : List Byte) (v : AuthVerdict) (s : State) : Host.Outcome State Fault Refusal :=
  .next (onAdmin s c provingSet (fun a x s => mgmtProve s c anchor data v a x) fun s => reply s c .success)

/-- AUTH_TIMEOUT_MS has passed without a proof. -/
def mgmtLate (s : State) (a : Nat) : State :=
  match assocOf s a with
  | some x => if x.mgmt && x.roles.isNone then assocEnd s a else s
  | none => s

def execMgmtAuthTimeout (assoc : Nat) (s : State) : Host.Outcome State Fault Refusal := .next (mgmtLate s assoc)

/-! ### What a catalog change brings about (R225, R230, R231, R233, R394) -/

/-- A full shaper bucket, in 1/1,024 bytes (R392). -/
def bucketDepth (r : VssRec) : Int := (1024 * 1024 * r.burst : Nat)

/-- A virtual subsystem enters Resetting or Removing: its instar, and every association of it on this controller; for Resetting, what its virtual
controllers have in flight is withdrawn as R232 fixes, else it finishes (DEDUCED, log 23). -/
def vssQuiesce (s : State) (v : Nat) (reset : Bool) : State :=
  let r := rtOf s v
  let s := setRt s v { r with instar := bumpInstar r.instar s.now (ticksMs 1) }
  (assocsOf s v).foldl (fun s a => assocEndBy s a true (if reset then abortCtx else letGo)) s

/-- The parts of a share change that are not in effect yet (R394): a new quantum at each point where the tenant is active, a new rate or depth
at the next refill, which also starts a bucket that was unshaped. -/
def shareMarks (s : State) (v : Nat) (o x : VssRec) : List Nat :=
  (if o.quantum = x.quantum then [] else
    ((List.range 33).filter fun p => (tget s.sch.active [] p).contains v).map fun p => 4096 * (p + 2) + v)
  ++ (if o.shape = x.shape && o.burst = x.burst then [] else [4096 + v])
  ++ (if o.shape = 0 && x.shape ≠ 0 then [4096 * 40 + v] else [])

/-- A share change reaches this controller: what it changes at the scheduler, and the stop of a tenant above a lowered limit (R233). -/
def shareChange (s : State) (v : Nat) (o x : VssRec) : State :=
  let marks := shareMarks s v o x
  let s := { s with sch := { s.sch with change := s.sch.change.filter (fun m => !marks.contains m) ++ marks } }
  let s := if o.shape = 0 && x.shape ≠ 0 then setTokens s v (bucketDepth x) else s
  let s := if s.sch.change.any fun m => m % 4096 == v then s else writeEvent s { num := 0x0402, vss := v, detail := [v] }
  let less := (decide (x.slots < o.slots) && decide (x.slots < slotsHeld s v))
    || (decide (x.cocMib < o.cocMib) && decide (256 * x.cocMib < tenantPages s v))
  if less then writeEvent (stopTenant s v 0) { num := 0x0507, vss := v, detail := [v] }
  else if o.shape ≠ 0 && x.shape = 0 then reopen s v
  else s

/-- A share change as such: the fields of bytes 4 to 27 of the descriptor. -/
def shareOf (r : VssRec) : List Nat := [r.slots, r.cocMib, r.quantum, r.shape, r.burst, r.maxAssoc, r.tqQuota]

/-- The Discovery log changes (R201). -/
def discNote (s : State) : State := { s with cfe := { s.cfe with discGen := s.cfe.discGen + 1 } }

/-- What one edit brings about on this controller beside the catalog, from the state `s0` before the change. -/
def catFollow (s0 : State) (s : State) (e : CatEdit) : State :=
  match e with
  | .vss v r => match vssOf s0 v, r with
    | none, some x => discNote (setTokens s v (if x.shape = 0 then 0 else bucketDepth x))
    | some o, some x =>
      let s := if o.state ≠ x.state && (x.state = .resetting || x.state = .removing) then vssQuiesce s v (x.state == .resetting) else s
      if shareOf o = shareOf x then s else shareChange s v o x
    | some _, none => discNote (setTokens (setRt s v { instar := (rtOf s v).instar }) v 0)
    | none, none => s
  | .host i r =>
    let s := match tget s0.cat.hosts none i, r with
      | some o, none => endAssocs s o.vss fun a => a.host == o.nqn && !a.mgmt
      | _, _ => s
    discNote s
  | .ns n r => match nsOf s0 n, r with
    | some o, some x => if o.fmt && !x.fmt then noteNsChange s x.vss else s
    | _, _ => s
  | .member shelf m =>
    let s := if m.state = 2 then
        (s.rdt.qps.filter fun x => x.2.kind == 2 && x.2.member / 2 == shelf).foldl (fun s x => qpDown s x.1 9) s
      else s
    if fedOn s then journalled s (.member shelf m) id else s
  | _ => s

/-- The edits of a change, one by one. -/
def catFollowAll (s0 s : State) (edits : List CatEdit) : State := edits.foldl (catFollow s0) s

/-- A catalog change for a command; on this side it acts as soon as it is written here. -/
def catCommand (s : State) (c : Cid) (edits : List CatEdit) (dw0 kind obj : Nat) : State :=
  let s1 := catChange s (some c) edits dw0 kind obj
  match catWay s with
  | .alone | .sideA => catFollowAll s s1 edits
  | .forward | .refused _ => s1

/-- A record of the controller's own, and what it brings about here. -/
def catOwn (s : State) (edits : List CatEdit) (kind obj : Nat) : State := catFollowAll s (catRecord s edits kind obj) edits

/-! ### The pools (R221) -/

/-- The live records of the virtual subsystems. -/
def vssList (s : State) : List (Nat × VssRec) := s.cat.vss.filterMap fun x => x.2.map fun r => (x.1, r)

/-- The edits of the changes under way. -/
def pendEdits (s : State) : List CatEdit := s.cfe.pend.flatMap fun p => p.edits

/-- The records of virtual subsystems that changes under way bring. -/
def vssPend (s : State) : List (Nat × VssRec) := (pendEdits s).filterMap fun e => match e with
  | .vss v (some r) => some (v, r)
  | _ => none

/-- The most that a pool of R221 holds for the virtual subsystems but `v`, changes under way with them: `f` is what a record takes. -/
def poolTaken (s : State) (v : Nat) (f : VssRec → Nat) : Nat :=
  let all := ((vssList s) ++ vssPend s).filter fun x => x.1 != v
  (all.map Prod.fst).eraseDups.foldl (fun n k => n + all.foldl (fun m x => if x.1 = k then max m (f x.2) else m) 0) 0

/-- The pools of R221 have room for a record of a virtual subsystem in place of the one it has. -/
def poolRoom (s : State) (v : Nat) (r : VssRec) : Bool :=
  decide (poolTaken s v (·.slots) + r.slots ≤ 65280) && decide (poolTaken s v (·.cocMib) + r.cocMib ≤ 3584)

/-- The namespaces of the catalog, those being created and those in changes under way with them. -/
def nsAll (s : State) : List (Nat × NsRec) :=
  s.cat.ns.filterMap (fun x => x.2.map fun r => (x.1, r))
  ++ (s.xfm.creates.map fun k => (k.ns, k.rec_))
  ++ (pendEdits s).filterMap fun e => match e with
    | .ns n (some r) => some (n, r)
    | _ => none

/-- The host entries of the catalog and of changes under way. -/
def hostCount (s : State) : Nat :=
  (s.cat.hosts.map Prod.fst ++ (pendEdits s).filterMap fun e => match e with
    | .host i (some _) => some i
    | _ => none).eraseDups.length

/-- A forwarded edit still fits the pools, and the number it takes is free or its own object's. -/
def editFits (s : State) (e : CatEdit) : Bool :=
  match e with
  | .vss v (some r) => poolRoom s v r
  | .host i (some _) => (tget s.cat.hosts none i).isSome || decide (hostCount s < 65536)
  | .ns n (some r) => (nsAll s).all fun x =>
      if x.1 = n then x.2.vss == r.vss && x.2.nsid == r.nsid
      else decide (x.2.first + x.2.chunks ≤ r.first) || decide (r.first + r.chunks ≤ x.2.first)
  | _ => true

/-- Side A turned a forwarded change away: what this side allocated for a new namespace returns, and the command gets Pool Exhausted. -/
def turnedAway (s : State) (p : CatPend) : State :=
  let s := p.edits.foldl (fun s e => match e with
    | .ns n (some r) => if (nsOf s n).isNone then dropChunks s r else s
    | _ => s) s
  match p.who with
  | some c => reply s c (.vendor 0xE0)
  | none => s

/-! ### Changes of the partner (R225) -/

/-- A change under way by its number. -/
def catPending (s : State) (id : Nat) : Option CatPend := s.cfe.pend.find? fun p => p.id == id

/-- It ends. -/
def catUnpend (s : State) (id : Nat) : State := { s with cfe := { s.cfe with pend := s.cfe.pend.filter fun p => p.id != id } }

/-- A change arrives: side A orders one that side B forwards, and sends it, or turns it away when a change ordered before it has taken what it needs
of the pools; the other side writes it and echoes it. A change that this side forwarded completes when it arrives; one turned away comes back without
edits, and completes with Pool Exhausted (DESIGN CHOICE, log 16). -/
def catArrive (s : State) (fwd : Bool) (id : Nat) (edits : List CatEdit) : State :=
  let t := catFollowAll s (catApply s edits) edits
  if fwd then
    if !isSideA s then s
    else if !edits.all (editFits s) then tdmSend s (.tandem 20 [id])
    else tdmSend { t with cfe := { t.cfe with pend := t.cfe.pend ++ [⟨id, edits, none, 0, 0, 0, false⟩] } } (.tandem 6 [id, t.cat.gen])
  else match catPending s id with
    | some p =>
      if p.fwd && edits.isEmpty then turnedAway (catUnpend s id) p
      else
        let t := tdmSend t (.tandem 7 [id])
        if p.fwd then catDone (catUnpend t id) p.who p.dw0 p.kind p.obj else t
    | none => tdmSend t (.tandem 7 [id])

def execCatalogChangeReceive (fwd : Bool) (id : Nat) (edits : List CatEdit) (s : State) : Host.Outcome State Fault Refusal :=
  .next (if s.tdm.linkUp then catArrive s fwd id edits else s)

/-- Side B's echo completes a change of side A's. -/
def catEcho (s : State) (id : Nat) : State :=
  match catPending s id with
  | some p => if p.fwd then s else catDone (catUnpend s id) p.who p.dw0 p.kind p.obj
  | none => s

def execCatalogEchoReceive (id : Nat) (s : State) : Host.Outcome State Fault Refusal := .next (catEcho s id)

/-- 10 ms without the echo: Catalog Partner Timeout, and the catalogs are compared again. -/
def catLate (s : State) (id : Nat) : State :=
  match catPending s id with
  | none => s
  | some p =>
    let s := catUnpend { s with tdm := { s.tdm with compared := false } } id
    match p.who with
    | some c => reply s c (.vendor 0xE6)
    | none => s

def execCatalogPartnerTimeout (id : Nat) (s : State) : Host.Outcome State Fault Refusal := .next (catLate s id)

/-! ### Comparison (R226, R309, R459) -/

/-- A line of the counter area from a copy: the higher RESERVED_TO of the same epoch; a lost line takes the copy. -/
def mergeCounter (s : State) (x : Nat × Nat × Nat) : State :=
  let l := tget s.coc.ctrs {} x.1
  let l' : CtrLine := if l.lost || l.epoch < x.2.1 then { epoch := x.2.1, to_ := x.2.2 }
    else if l.epoch = x.2.1 then { l with to_ := max l.to_ x.2.2 } else l
  { s with coc := { s.coc with ctrs := tput s.coc.ctrs {} x.1 l' } }

/-- Pairing after a comparison: a Solo group is Paired, or re-mirrored when it is owned. -/
def pairAfter (s : State) (g : Nat) : State :=
  if (grpOf s g).pair ≠ .solo then s
  else if (grpOf s g).owned then degrade s g
  else setPair s g .paired

/-- The keys whose values differ between two tables, with the value in the second. -/
def tdiff {α : Type} [DecidableEq α] (d : α) (a b : Tbl α) : List (Nat × α) :=
  (((a.map Prod.fst) ++ (b.map Prod.fst)).eraseDups.filter fun k => tget a d k ≠ tget b d k).map fun k => (k, tget b d k)

/-- A copied catalog as the edits that make this side's the same: what they bring about here follows from them as from any change. -/
def copyEdits (c k : Catalog) : List CatEdit :=
  ((tdiff none c.vss k.vss).map fun x => .vss x.1 x.2) ++ ((tdiff none c.hosts k.hosts).map fun x => .host x.1 x.2)
  ++ ((tdiff {} c.keys k.keys).map fun x => .key x.1 x.2) ++ ((tdiff none c.ns k.ns).map fun x => .ns x.1 x.2)

/-- What a virtual subsystem that a copied catalog does not hold leaves on this side: its associations end. -/
def copyGone (s : State) (e : CatEdit) : State :=
  match e with
  | .vss v none => vssQuiesce s v false
  | _ => s

/-- A copied catalog replaces this side's (R226), but for what belongs to each side; the catalog's counter lines are merged (R309). -/
def takeCopy (s : State) (k : CatCopy) : State :=
  let es := copyEdits s.cat k.cat
  let t := es.foldl catEdit (es.foldl copyGone s)
  k.ctrs.foldl mergeCounter (catFollowAll s { t with cat := k.cat } es)

/-- The comparison of the two catalogs has ended (R226). A side has advanced when its generation is above the common sync generation: the catalog of
the one that has goes to the other, of two side A's goes; then both sides hold the generation in force as their sync generation. Directions of the
event: 0 to the partner, 1 from it. -/
def compareDone (s : State) (k : CatCopy) : State :=
  let common := min s.cat.sync k.cat.sync
  let own := decide (common < s.cat.gen)
  let other := decide (common < k.cat.gen)
  let gens := [s.cat.gen, k.cat.gen]
  let s := match own, other with
    | false, false => s
    | _, _ =>
      if own && (!other || isSideA s) then writeEvent s { num := 0x0512, detail := Config.code 0x0512 0 :: gens }
      else
        let t := writeEvent (takeCopy s k) { num := 0x0512, detail := Config.code 0x0512 1 :: gens }
        if own then writeEvent t { num := 0x0513, detail := gens } else t
  let s := { s with cat := { s.cat with sync := s.cat.gen }, tdm := { s.tdm with compared := true } }
  pairAfter (pairAfter s 0) 1

def execCatalogCopyDone (partner : CatCopy) (s : State) : Host.Outcome State Fault Refusal :=
  .next (if s.tdm.linkUp then compareDone s partner else s)

/-! ### Virtual subsystems (R229, R231, R233) -/

/-- One byte of a UTF-8 string: whether all is well so far, the continuation bytes due, and the range of the next one. -/
def utf8Step (x : Bool × Nat × Nat × Nat) (b : Nat) : Bool × Nat × Nat × Nat :=
  if x.2.1 ≠ 0 then (x.1 && decide (x.2.2.1 ≤ b) && decide (b ≤ x.2.2.2), x.2.1 - 1, 0x80, 0xBF)
  else if b < 0x80 then (x.1, 0, 0x80, 0xBF)
  else if b < 0xC2 then (false, 0, 0x80, 0xBF)
  else if b < 0xE0 then (x.1, 1, 0x80, 0xBF)
  else if b < 0xF0 then (x.1, 2, if b = 0xE0 then 0xA0 else 0x80, if b = 0xED then 0x9F else 0xBF)
  else if b < 0xF5 then (x.1, 3, if b = 0xF0 then 0x90 else 0x80, if b = 0xF4 then 0x8F else 0xBF)
  else (false, 0, 0x80, 0xBF)

/-- Valid UTF-8. -/
def utf8Ok (bs : List Byte) : Bool :=
  let x := bs.foldl (fun x b => utf8Step x b.toNat) (true, 0, 0x80, 0xBF)
  x.1 && x.2.1 == 0

/-- The bytes of a zero-terminated string field. -/
def cString (bs : List Byte) : List Byte := bs.takeWhile (· != 0)

/-- A field of 224 bytes that holds no valid SUBNQN: 1 to 223 bytes of UTF-8, a zero byte, and zeros. -/
def nqnBad (f : List Byte) : Bool :=
  let t := cString f
  t.isEmpty || decide (223 < t.length) || !utf8Ok t || (f.drop t.length).any (· != 0)

/-- Bytes 0 to 31 of a descriptor break a range of R229. -/
def shareBad (d : List Byte) : Bool :=
  let v := leAt d 0 2
  let slots := leAt d 4 4
  let coc := leAt d 8 4
  let q := leAt d 12 4
  let shape := leAt d 16 4
  let burst := leAt d 20 4
  let tq := leAt d 26 2
  v == 0 || decide (4095 < v) || decide (8 ≤ leAt d 2 1) || leAt d 3 1 != 0
  || decide (slots < 16) || decide (65280 < slots) || decide (coc < 16) || decide (3584 < coc)
  || decide (q < 256) || decide (1048576 < q) || (shape != 0 && (decide (shape < 100) || decide (3200000 < shape)))
  || (if shape = 0 then burst != 0 else decide (burst < 4) || decide (65536 < burst))
  || leAt d 24 2 == 0 || decide (4096 < leAt d 24 2) || decide (16384 < tq) || (!bitAt (leAt d 2 1) 2 && tq != 0)
  || leAt d 28 4 != 0

/-- A record takes bytes 4 to 27 of a descriptor. -/
def withShare (r : VssRec) (d : List Byte) : VssRec :=
  { r with slots := leAt d 4 4, cocMib := leAt d 8 4, quantum := leAt d 12 4, shape := leAt d 16 4, burst := leAt d 20 4,
           maxAssoc := leAt d 24 2, tqQuota := leAt d 26 2 }


/-- VSS Create. -/
def vssCreate (s : State) (c : Cid) (d : List Byte) : State :=
  let v := leAt d 0 2
  let nqn := cString ((d.drop 32).take 224)
  let r := withShare { flags := leAt d 2 1, nqn := nqn, state := .active } d
  if d.length ≠ 256 || shareBad d || nqnBad ((d.drop 32).take 224) then reply s c .invalidField
  else if (vssOf s v).isSome || ((vssList s).any fun x => x.2.nqn == nqn) then reply s c (.vendor 0xE1)
  else if !poolRoom s v r then reply s c (.vendor 0xE0)
  else catCommand s c [.vss v (some r)] 0 0 v

/-- VSS Change Share. -/
def vssShare (s : State) (c : Cid) (d : List Byte) : State :=
  let v := leAt d 0 2
  if d.length ≠ 32 || shareBad d then reply s c .invalidField
  else match vssOf s v with
    | none => reply s c (.vendor 0xE2)
    | some o =>
      if o.flags ≠ leAt d 2 1 then reply s c .invalidField
      else if !poolRoom s v (withShare o d) then reply s c (.vendor 0xE0)
      else catCommand s c [.vss v (some (withShare o d))] 0 0 v

/-- VSS Reset. -/
def vssReset (s : State) (c : Cid) (v : Nat) : State :=
  match vssOf s v with
  | none => reply s c (.vendor 0xE2)
  | some r =>
    if r.state = .active || r.state = .sanitizing then
      catCommand s c [.vss v (some { r with state := .resetting, prior := r.state })] 0 0 v
    else reply s c (.vendor 0xE3)

/-- A namespace of a virtual subsystem exists. -/
def hasNs (s : State) (v : Nat) : Bool :=
  (nsAll s).any fun x => x.2.vss == v

/-- VSS Remove. -/
def vssRemove (s : State) (c : Cid) (v : Nat) : State :=
  match vssOf s v with
  | none => reply s c (.vendor 0xE2)
  | some r =>
    if r.state ≠ .active || hasNs s v then reply s c (.vendor 0xE3)
    else catCommand s c [.vss v (some { r with state := .removing })] 0 0 v

def execVssCreate (c : Cid) (desc : List Byte) (s : State) : Host.Outcome State Fault Refusal :=
  .next (asManager s c 0 fun s => vssCreate s c desc)
def execVssChangeShare (c : Cid) (desc : List Byte) (s : State) : Host.Outcome State Fault Refusal :=
  .next (asManager s c 0 fun s => vssShare s c desc)
def execVssReset (c : Cid) (cdw10 : Nat) (s : State) : Host.Outcome State Fault Refusal :=
  .next (asManager s c 0 fun s => vssReset s c (field cdw10 0 12))
def execVssRemove (c : Cid) (cdw10 : Nat) (s : State) : Host.Outcome State Fault Refusal :=
  .next (asManager s c 0 fun s => vssRemove s c (field cdw10 0 12))

/-- The last association of a Resetting virtual subsystem is gone. -/
def vssResetDone (s : State) (v : Nat) : State :=
  match vssOf s v with
  | some r => if r.state = .resetting && (assocsOf s v).isEmpty then catOwn s [.vss v (some { r with state := r.prior })] 0 v else s
  | none => s

/-- The last command slot and queue pair of a Removing virtual subsystem is released: its record goes, and its quotas return. -/
def vssRemoveDone (s : State) (v : Nat) : State :=
  match vssOf s v with
  | some r =>
    if r.state = .removing && slotsHeld s v = 0 && (assocsOf s v).isEmpty then catOwn s [.vss v none] 0 v else s
  | none => s

def execVssResetDone (vss : Nat) (s : State) : Host.Outcome State Fault Refusal := .next (vssResetDone s vss)
def execVssRemoveDone (vss : Nat) (s : State) : Host.Outcome State Fault Refusal := .next (vssRemoveDone s vss)

/-- Virtual Controller Reset. -/
def vcResetCommand (s : State) (c : Cid) (v k : Nat) : State :=
  match vssOf s v, assocOf s k with
  | some _, some x => if x.vss = v && !x.disc && k < 65536 then reply (vcReset s k) c .success else reply s c (.vendor 0xE2)
  | _, _ => reply s c (.vendor 0xE2)

def execVirtualControllerReset (c : Cid) (cdw10 : Nat) (s : State) : Host.Outcome State Fault Refusal :=
  .next (asManager s c 0 fun s => vcResetCommand s c (field cdw10 0 12) (field cdw10 16 16))

/-! ### Hosts (R230) -/

/-- The 384 bytes break a rule of R230. -/
def hostBad (d : List Byte) : Bool :=
  let nqn := (d.drop 64).take 256
  let t := cString nqn
  d.length != 384 || leAt d 0 2 == 0 || decide (4095 < leAt d 0 2) || !(leAt d 2 1 == 1 || leAt d 2 1 == 2) || decide (4 ≤ leAt d 3 1)
  || ((d.drop 4).take 60).any (· != 0) || t.isEmpty || (nqn.drop t.length).any (· != 0)

/-- The host entry of an NQN in a virtual subsystem. -/
def hostIndex (s : State) (v : Nat) (nqn : List Byte) : Option Nat :=
  (s.cat.hosts.find? fun x => match x.2 with
    | some r => r.vss == v && r.nqn == nqn
    | none => false).map Prod.fst

/-- Host Entry Set: 256 entries for each virtual subsystem and 65,536 in all. -/
def hostSet (s : State) (c : Cid) (d : List Byte) : State :=
  let v := leAt d 0 2
  let nqn := cString ((d.drop 64).take 256)
  let f := leAt d 3 1
  if hostBad d then reply s c .invalidField
  else if (vssOf s v).isNone then reply s c (.vendor 0xE2)
  else match leAt d 2 1, hostIndex s v nqn with
    | 2, none => reply s c (.vendor 0xE2)
    | 2, some i => catCommand s c [.host i none] 0 2 i
    | _, at_ =>
      let taken := (pendEdits s).filterMap fun e => match e with
        | .host i (some _) => some i
        | _ => none
      let free := (List.range 256).find? fun i => (tget s.cat.hosts none (256 * v + i)).isNone && !taken.contains (256 * v + i)
      match (match at_ with
        | some i => some i
        | none => if 65536 ≤ hostCount s then none else free.map fun i => 256 * v + i) with
      | none => reply s c (.vendor 0xE0)
      | some i =>
        let r : HostRec := { vss := v, nqn := nqn, hasHost := bitAt f 0, hasCtrl := bitAt f 1,
                             host := if bitAt f 0 then (d.drop 320).take 32 else [],
                             ctrl := if bitAt f 1 then (d.drop 352).take 32 else [] }
        catCommand s c [.host i (some r)] 0 2 i

def execHostEntrySet (c : Cid) (data : List Byte) (s : State) : Host.Outcome State Fault Refusal :=
  .next (asManager s c 0 fun s => hostSet s c data)

/-! ### Catalog Read (R227) -/

/-- The descriptor of a virtual subsystem (R229). -/
def vssDesc (v : Nat) (r : VssRec) : List Nat :=
  leBytes 2 v ++ [r.flags, 0] ++ leBytes 4 r.slots ++ leBytes 4 r.cocMib ++ leBytes 4 r.quantum ++ leBytes 4 r.shape
    ++ leBytes 4 r.burst ++ leBytes 2 r.maxAssoc ++ leBytes 2 r.tqQuota ++ leBytes 4 0 ++ padded 224 r.nqn

/-- The descriptor of a namespace (R234). -/
def nsDesc (r : NsRec) : List Nat :=
  leBytes 2 r.vss ++ leBytes 2 r.nsid ++ [r.group, r.lbaf, r.pi, bit r.mirror + 2 * bit r.fed] ++ leBytes 8 r.nsze
    ++ leBytes 2 r.profile ++ List.replicate 110 0

/-- The descriptor of a host entry (R230): the secrets read as zeros; what OP reads the spec does not say (log 4). -/
def hostDesc (r : HostRec) (op : Nat) : List Nat :=
  leBytes 2 r.vss ++ [op, bit r.hasHost + 2 * bit r.hasCtrl] ++ List.replicate 60 0 ++ padded 256 r.nqn ++ List.replicate 64 0

/-- Catalog Read. -/
def catalogRead (s : State) (c : Cid) (kind obj host : Nat) : State :=
  let gen := s.cat.gen % 2 ^ 32
  let none_ := reply s c (.vendor 0xE2)
  match kind with
  | 0 => match vssOf s obj with
    | some r => reply s c .success gen (vssDesc obj r)
    | none => none_
  | 1 => match nsOf s obj with
    | some r => reply s c .success gen (nsDesc r)
    | none => none_
  | 2 => match (if 256 ≤ host then none else tget s.cat.hosts none (256 * obj + host)) with
    | some r =>
      let (op, s) := takeFree s
      reply s c .success gen (hostDesc r (op % 256))
    | none => none_
  | _ => reply s c .invalidField

def execCatalogRead (c : Cid) (cdw10 cdw11 cdw12 : Nat) (s : State) : Host.Outcome State Fault Refusal :=
  .next (asManager s c 1 fun s => catalogRead s c (field cdw10 0 2) cdw11 cdw12)

/-! ### Namespaces (R234 to R236, R318, R325, R327, R357) -/

/-- The 128 bytes break a rule of R234. -/
def nsBad (s : State) (d : List Byte) : Bool :=
  d.length != 128 || leAt d 0 2 == 0 || decide (4095 < leAt d 0 2) || leAt d 2 2 == 0 || decide (1024 < leAt d 2 2)
  || decide (1 < leAt d 4 1) || decide (1 < leAt d 5 1) || !([0, 1, 3].contains (leAt d 6 1)) || (leAt d 6 1 != 0 && leAt d 5 1 != 1)
  || decide (4 ≤ leAt d 7 1) || leAt d 8 8 == 0 || decide (2 ^ 38 < leAt d 8 8) || decide (profileCount s ≤ leAt d 16 2)
  || (d.drop 18).any (· != 0)


/-- The lowest free global namespace number. -/
def freeNsNumber (s : State) : Option Nat :=
  let used := (nsAll s).map Prod.fst
  (List.range (used.length + 1)).find? fun n => decide (n < 65536) && !used.contains n

/-- The first global chunk of the lowest free run of `n` chunks: it begins at 0 or at the end of a run in use. -/
def freeRun (s : State) (n : Nat) : Option Nat :=
  let used := (nsAll s).map fun x => (x.2.first, x.2.chunks)
  ((0 :: used.map fun x => x.1 + x.2).filter fun a => runFree used a n && decide (a + n ≤ 4194304)).foldl (fun m a => match m with
    | none => some a
    | some x => some (min x a)) none

/-- The next free slot of the group's origin leases of a geometry: lowest entry first, lowest slot first (R357); a lease still being made has
none. -/
def freeLease (s : State) (g k m : Nat) : Option Nat :=
  (placeEntries s).findSome? fun x =>
    if x.2.hosted || x.2.group ≠ g || !bitAt s.fed.areaOk g || x.2.k ≠ k || x.2.m ≠ m || (s.fed.leases.any fun l => l.entry == x.1) then none
    else ((List.range x.2.chunks).find? fun j => !((fedChunks s x.1).any fun y => y.2.place / 65536 == j)).map fun j => x.1 + 65536 * j

/-- A chunk-map slot takes the entry of a new chunk. -/
def newChunk (s : State) (e : Nat) (x : MapEnt) : State :=
  setArea (setMap s e (some (vPut (mapEnt s e) x))) e x

/-- Allocate the chunks of a namespace one by one; none when one finds no members, or no lease slot. -/
def allocChunks (s : State) (ns : Nat) (r : NsRec) (k m : Nat) (is : List Nat) : Option State :=
  match is with
  | [] => some s
  | i :: rest =>
    let x : MapEnt := { valid := true, fed := r.fed, k := k, m := m, profile := r.profile, ns := ns, group := r.group, index := i,
                        stripes := stripesOf k }
    if r.fed then match freeLease s r.group k m with
      | some p => allocChunks (newChunk s (r.first + i) { x with place := p }) ns r k m rest
      | none => none
    else match chooseMembers s r.group (k + m) (stripesOf k) with
      | some ms => allocChunks (newChunk s (r.first + i) { x with mem := ms }) ns r k m rest
      | none => none

/-- Namespace Management, create: the six checks in their order; a catalog that is not writable refuses before anything is allocated. The entries go
to the drives before the catalog records the namespace (R325). -/
def nsCreate (s : State) (c : Cid) (d : List Byte) : State :=
  let v := leAt d 0 2
  let flags := leAt d 7 1
  if nsBad s d then reply s c .invalidField
  else if bitAt flags 1 && !fedOn s then reply s c (.vendor 0xF2)
  else if !(grpOf s (leAt d 4 1)).owned then reply s c (.vendor 0xEA)
  else match vssOf s v with
    | none => reply s c (.vendor 0xE2)
    | some y =>
      if y.state ≠ .active then reply s c (.vendor 0xE2)
      else if (nsAll s).any fun x => x.2.vss == v && x.2.nsid == leAt d 2 2 then reply s c (.vendor 0xE1)
      else
        let nsze := leAt d 8 8
        let chunks := (nsze + 65535) / 65536
        let p := leAt d 16 2
        match freeNsNumber s, freeRun s chunks, catWay s with
        | _, _, .refused st => reply s c st
        | some n, some first, _ =>
          let r : NsRec := { vss := v, nsid := leAt d 2 2, group := leAt d 4 1, lbaf := leAt d 5 1, pi := leAt d 6 1,
                             mirror := bitAt flags 0, fed := bitAt flags 1, nsze := nsze, profile := p, first := first, chunks := chunks }
          match allocChunks s n r (profileK s p) (profileM s p) (List.range chunks) with
          | none => reply s c (.vendor 0xE0)
          | some s =>
            let s := if s.tdm.linkUp then (nsChunks r).foldl (fun s e => tdmSend s (.tandem 16 [e])) s else s
            createBegin s ⟨n, r, c, presentBays s r.group⟩
        | _, _, _ => reply s c (.vendor 0xE0)

/-- A namespace that a command names by its global number + 1. -/
def nsNamed (s : State) (nsid : Nat) : Option (Nat × NsRec) := if nsid = 0 then none else (nsOf s (nsid - 1)).map fun r => (nsid - 1, r)

/-- Namespace Management, delete: the key goes with the namespace. -/
def nsDelete (s : State) (c : Cid) (nsid : Nat) : State :=
  match nsNamed s nsid with
  | none => reply s c (.vendor 0xE2)
  | some (n, r) =>
    if r.attached || nsInflight s n ≠ 0 then reply s c (.vendor 0xE3)
    else catCommand s c [.key n { epoch := (tget s.cat.keys {} n).epoch }, .ns n none] 0 1 n

/-- Namespace Attachment. -/
def nsAttach (s : State) (c : Cid) (nsid : Nat) (ctrls : List Nat) (on : Bool) : State :=
  match nsNamed s nsid with
  | none => reply s c (.vendor 0xE2)
  | some (n, r) =>
    if ctrls ≠ [r.vss] then reply s c .invalidField
    else if r.attached = on then reply s c (if on then .nsAlreadyAttached else .nsNotAttached)
    else catCommand s c [.ns n (some { r with attached := on })] 0 1 n

def execNamespaceCreate (c : Cid) (desc : List Byte) (s : State) : Host.Outcome State Fault Refusal :=
  .next (asManager s c 0 fun s => nsCreate s c desc)
def execNamespaceDelete (c : Cid) (nsid : Nat) (s : State) : Host.Outcome State Fault Refusal :=
  .next (asManager s c 0 fun s => nsDelete s c nsid)
def execNamespaceAttach (c : Cid) (nsid : Nat) (ctrls : List Nat) (s : State) : Host.Outcome State Fault Refusal :=
  .next (asManager s c 0 fun s => nsAttach s c nsid ctrls true)
def execNamespaceDetach (c : Cid) (nsid : Nat) (ctrls : List Nat) (s : State) : Host.Outcome State Fault Refusal :=
  .next (asManager s c 0 fun s => nsAttach s c nsid ctrls false)

/-! ### The member table (R353, R373) -/

/-- Federation Member Set (R373): a move to state 2 disconnects the shelf's queue pairs, and the entry goes to the drives of the owned groups. -/
def memberSet (s : State) (c : Cid) (data : List Byte) : State :=
  if !fedOn s then reply s c (.vendor 0xF2)
  else match memberEntry data with
    | none => reply s c .invalidField
    | some (shelf, m) => catCommand s c [.member shelf m] 0 4 shelf

def execFederationMemberSet (c : Cid) (data : List Byte) (s : State) : Host.Outcome State Fault Refusal :=
  .next (asManager s c 0 fun s => memberSet s c data)

/-! ### Moving a tenant queue (R238 to R240) -/

/-- The tenant queue that CDW10 of a management command names, in whatever state but Free. -/
def tqNamed (s : State) (w : Nat) : Option Nat :=
  let n := w % 65536
  let k := 16 * n + field w 24 4
  if localQpn s n = w % 2 ^ 24 && (tqOf s k).state != .free then some k else none

/-- Tenant Queue Freeze: a freeze under way or done makes the queue busy (log 28). -/
def tqFreeze (s : State) (c : Cid) (cdw10 limit : Nat) : State :=
  if limit = 0 || 10000 < limit then reply s c .invalidField
  else match tqNamed s cdw10 with
    | none => reply s c (.vendor 0xE2)
    | some k =>
      let t := tqOf s k
      if t.frozen || !(t.state = .active || t.state = .paused) then reply s c (.vendor 0xE3)
      else setTq s k { t with state := .paused, frozen := true, freezer := some c }

def execTenantQueueFreeze (c : Cid) (cdw10 cdw11 : Nat) (s : State) : Host.Outcome State Fault Refusal :=
  .next (asManager s c 0 fun s => tqFreeze s c cdw10 cdw11)

/-- The freeze completes once nothing of the queue is fetched, waits or is in flight. -/
def tqFrozen (s : State) (k : Nat) : State :=
  let t := tqOf s k
  match t.freezer with
  | some c =>
    if t.fetch = 0 && t.wait.isEmpty && tqInflight s k = 0 then reply (setTq s k { t with freezer := none }) c .success else s
  | none => s

/-- LIMIT_MS has passed: Freeze Timeout, and the queue stays frozen. -/
def tqFreezeLate (s : State) (k : Nat) : State :=
  let t := tqOf s k
  match t.freezer with
  | some c =>
    reply (writeEvent (setTq s k { t with freezer := none }) { num := 0x0515, inst := tqQp k, instar := t.instar.val.toNat, vss := t.vss })
      c (.vendor 0xE8)
  | none => s

def execTqFreezeComplete (qp qidx : Nat) (s : State) : Host.Outcome State Fault Refusal :=
  onQp qp s fun s => if qidx < 16 then tqFrozen s (16 * qp + qidx) else s
def execTqFreezeTimeout (qp qidx : Nat) (s : State) : Host.Outcome State Fault Refusal :=
  onQp qp s fun s => if qidx < 16 then tqFreezeLate s (16 * qp + qidx) else s

/-- The saved state of a queue with bytes 12 to 15 as given. -/
def savedWith (t : Tq) (crc : Nat) : List Nat :=
  [0x4C, 0x59, 0x54, 0x51] ++ leBytes 2 1 ++ leBytes 2 t.vss ++ leBytes 4 t.held.length ++ leBytes 4 crc
    ++ leBytes 2 t.head ++ leBytes 2 t.tail ++ leBytes 2 t.cqHead ++ leBytes 2 t.cqTail ++ [bit t.phase, t.since] ++ List.replicate 6 0
    ++ leBytes 8 (t.busy.foldl (fun n b => n ||| 2 ^ b) 0) ++ List.replicate 24 0 ++ padded 64 t.desc
    ++ t.held.flatMap fun c => cqeBytes t c false

/-- The saved state of a queue. -/
def savedState (t : Tq) : List Nat := savedWith t (crc32c (savedWith t 0))

/-- Tenant Queue Save: a piece of the saved state; with the last piece the queue moves to Deleting. -/
def tqSave (s : State) (c : Cid) (cdw10 off len : Nat) : State :=
  match tqNamed s cdw10 with
  | none => reply s c (.vendor 0xE2)
  | some k =>
    let t := tqOf s k
    if !t.frozen || t.freezer.isSome || t.state ≠ .paused then reply s c (.vendor 0xEB)
    else
      let b := savedState t
      if 2 ^ 20 < len || b.length < off then reply s c .invalidField
      else
        let s := if b.length ≤ off + len then tqDelete s k else s
        reply s c .success b.length ((b.drop off).take len)

def execTenantQueueSave (c : Cid) (cdw10 cdw11 len : Nat) (s : State) : Host.Outcome State Fault Refusal :=
  .next (asManager s c 0 fun s => tqSave s c cdw10 cdw11 len)

/-- Tenant Queue Thaw. -/
def tqThaw (s : State) (c : Cid) (cdw10 : Nat) : State :=
  match tqNamed s cdw10 with
  | none => reply s c (.vendor 0xE2)
  | some k =>
    if !(tqOf s k).frozen || (tqOf s k).state ≠ .paused then reply s c (.vendor 0xEB)
    else
      let s := endFreeze s k
      let t := tqOf s k
      let s := setTq s k { t with frozen := false, state := if vssStopped s t.vss then .paused else .active }
      reply (joinFetch s t.vss) c .success

def execTenantQueueThaw (c : Cid) (cdw10 : Nat) (s : State) : Host.Outcome State Fault Refusal :=
  .next (asManager s c 0 fun s => tqThaw s c cdw10)

/-- A held completion from the 16 bytes of a saved one. -/
def savedCqe (b : List Byte) : Cqe :=
  let w := leAt b 14 2
  let p := leAt b 10 2
  { result := leAt b 0 4, cid := leAt b 12 2, status := statusOfWord ((w / 2) % 2048 + 32768 * (w / 32768)),
    dnr := bitAt w 15, push := if bitAt p 15 then some (p % 64) else none }

/-- What Restore checks of the saved state `b` against the new descriptor `d` and the tenant (R240). -/
def savedBad (s : State) (d b : List Byte) (v : Nat) : Bool :=
  let zero := (b.take 12).map BitVec.toNat ++ [0, 0, 0, 0] ++ (b.drop 16).map BitVec.toNat
  let old := (b.drop 64).take 64
  decide (b.length < 128) || b.length != 128 + 16 * leAt b 8 4 || leAt b 0 4 != 0x5154594C || leAt b 4 2 != 1
  || leAt b 12 4 != crc32c zero || leAt b 6 2 != v || (d.drop 24).take 6 != (old.drop 24).take 6 || leAt d 30 1 != leAt old 30 1
  || (match vssOf s v with
      | some r => !bitAt r.flags 2 || decide (r.tqQuota ≤ tqCount s fun t => t.vss == v)
      | none => true)

/-- The last piece of a Restore has come: bind the queue with the saved indices and phase, write the held completions, and fetch again. The new
descriptor and its binding are checked as VDQ Create checks them (DEDUCED, log 28). -/
def tqRestored (s : State) (c : Cid) (d b : List Byte) : State :=
  if vdqDescBad d then reply s c .invalidField
  else match vdqQp s (leAt d 32 4) with
    | none => reply s c (.vendor 0xD2)
    | some n =>
      let k := 16 * n + leAt d 35 1
      match (qpOf s n).assoc with
      | none => reply s c (.vendor 0xD2)
      | some a =>
        let v := qpVss s n
        if (tqOf s k).state ≠ .free then reply s c (.vendor 0xD1)
        else if savedBad s d b v then reply s c (.vendor 0xE9)
        else if tqMax s ≤ tqCount s (fun _ => true) then reply s c (.vendor 0xD0)
        else
          let (key, s) := vdqBind s k v a d
          let held := (List.range (leAt b 8 4)).map fun i => savedCqe ((b.drop (128 + 16 * i)).take 16)
          let s := setTq s k { tqOf s k with
            head := leAt b 16 2 % sqSize d, tail := leAt b 18 2 % sqSize d, cqHead := leAt b 20 2 % cqSize d, cqTail := leAt b 22 2 % cqSize d,
            phase := bitAt (leAt b 24 1) 0, since := leAt b 25 1, busy := (List.range 64).filter (bitAt (leAt b 32 8)) }
          reply (joinFetch (cqDrain s k held) v) c .success key

/-- Tenant Queue Restore: the pieces in order, each sender on its own; a piece that does not follow the last is refused (log 28). -/
def tqRestore (s : State) (c : Cid) (off : Nat) (last : Bool) (data : List Byte) : State :=
  let have_ := if off = 0 then [] else ((s.cfe.restore.find? fun r => r.who == c.org).map fun r => r.data).getD []
  let others := s.cfe.restore.filter fun r => r.who != c.org
  let got := have_ ++ data
  if have_.length ≠ off || 2 ^ 20 < data.length || 64 + 1048704 < got.length then reply s c .invalidField
  else if !last then reply { s with cfe := { s.cfe with restore := others ++ [⟨c.org, got⟩] } } c .success
  else tqRestored { s with cfe := { s.cfe with restore := others } } c (got.take 64) (got.drop 64)

def execTenantQueueRestore (c : Cid) (off : Nat) (last : Bool) (data : List Byte) (s : State) : Host.Outcome State Fault Refusal :=
  .next (asManager s c 0 fun s => tqRestore s c off last data)

/-! ### The dirty log by command (R241) -/

/-- The queue pairs of a tenant's associations. -/
def tenantQps (s : State) (v : Nat) : List Nat := (assocsOf s v).flatMap (assocQps s)

/-- Every queue pair that names a slot leaves it. -/
def leaveDlog (s : State) (n : Nat) : State :=
  { s with rdt := { s.rdt with qps := s.rdt.qps.map fun x => if x.2.dlog = n then (x.1, { x.2 with dlog := 0 }) else x } }

/-- Dirty Log Control. A slot that is enabled already is busy (log 28). -/
def dlogControl (s : State) (c : Cid) (cdw10 base pages : Nat) : State :=
  let n := field cdw10 0 7
  let v := field cdw10 16 12
  let big := bitAt cdw10 9
  if n = 0 || 64 < n then reply s c .invalidField
  else if !bitAt cdw10 8 then
    reply (if (dlogOf s n).enable then leaveDlog (dlogStop s n) n else s) c .success
  else if pages = 0 || base % (if big then 2 ^ 21 else 4096) ≠ 0 then reply s c .invalidField
  else if (vssOf s v).isNone then reply s c (.vendor 0xE2)
  else if (dlogOf s n).enable then reply s c (.vendor 0xE3)
  else
    let s := setDlog s n { dlogOf s n with page2m := big, base := base, pages := pages, overflow := false }
    let r := dlogStart s n
    if r.2 then
      let s := setDlog r.1 n { dlogOf r.1 n with vss := some v }
      reply ((tenantQps s v).foldl (fun s q => setQp s q { qpOf s q with dlog := n }) s) c .success
    else reply r.1 c (.vendor 0xE0)

def execDirtyLogControl (c : Cid) (cdw10 cdw11 cdw12 cdw13 : Nat) (s : State) : Host.Outcome State Fault Refusal :=
  .next (asManager s c 0 fun s => dlogControl s c cdw10 (cdw11 % 2 ^ 32 + 2 ^ 32 * (cdw12 % 2 ^ 32)) (cdw13 % 2 ^ 32))

/-- Dirty Log Harvest: each word is read and cleared in one operation. -/
def dlogHarvestCommand (s : State) (c : Cid) (n first words : Nat) : State :=
  if n = 0 || 64 < n || words = 0 || 131072 < words then reply s c .invalidField
  else
    let r := (List.range words).foldl (fun (x : List Nat × State) i =>
      let t := dlogTake x.2 n (first + i) 0
      (x.1 ++ leBytes 8 t.1, t.2)) ([], s)
    reply r.2 c .success (bit (dlogOf s n).overflow) r.1

def execDirtyLogHarvest (c : Cid) (cdw10 cdw11 cdw12 : Nat) (s : State) : Host.Outcome State Fault Refusal :=
  .next (asManager s c 0 fun s => dlogHarvestCommand s c (field cdw10 0 7) cdw11 cdw12)

/-! ### Sanitize (R242 to R244) -/

/-- The namespaces of a virtual subsystem. -/
def nsOfVss (s : State) (v : Nat) : List (Nat × NsRec) :=
  s.cat.ns.filterMap fun x => match x.2 with
    | some r => if r.vss = v then some (x.1, r) else none
    | none => none

/-- Sanitize: SANACT [2:0], AUSE [3] and NDAS [9], as NVMe lays CDW10 out (PRESUMED, log 29). -/
def sanitize (s : State) (c : Cid) (cdw10 v : Nat) : State :=
  let act := field cdw10 0 3
  match vssOf s v with
  | none => s
  | some r =>
    if bitAt cdw10 9 || !([1, 2, 4].contains act) then reply s c .invalidField
    else if act = 1 then
      (if r.state = .sanFailed && r.ause then catCommand s c [.vss v (some { r with state := .active })] 0 0 v
       else reply s c .invalidField)
    else if r.state = .sanitizing then reply s c .sanitizeInProgress
    else catCommand s c (.vss v (some { r with state := .sanitizing, sanAct := act, ause := bitAt cdw10 3, sstat := 2, scdw10 := cdw10 % 2 ^ 32,
                                               sanDone := 0, sanTotal := if act = 4 then 1 else vssChunks s v, sanKeys := false })
      :: (nsOfVss s v).map fun (x : Nat × NsRec) => .ns x.1 (some { x.2 with erased := 0 })) 0 0 v

def execSanitize (c : Cid) (cdw10 : Nat) (s : State) : Host.Outcome State Fault Refusal :=
  .next (onAdmin s c {} (fun _ x s => sanitize s c cdw10 x.vss) id)

/-- The edits that replace the keys of namespaces. -/
def rekeyEdits (s : State) (nss : List Nat) : List CatEdit × State :=
  nss.foldl (fun x n =>
    let (k, s) := freshKey x.2
    (x.1 ++ [.key n (newKey (tget s.cat.keys {} n) k false)], s)) ([], s)

/-- A sanitize runs, through a reset of the virtual subsystem too (R231). -/
def sanRuns (r : VssRec) : Bool := r.state == .sanitizing || (r.state == .resetting && r.prior == .sanitizing)

/-- A sanitize leaves its state. -/
def sanState (r : VssRec) (st : VssState) : VssRec := if r.state = .resetting then { r with prior := st } else { r with state := st }

/-- A running sanitize has done all it has to do: Active, and CFE_SANITIZE_DONE. -/
def sanitizeEnd (r : VssRec) : VssRec := { sanState r .active with sstat := 1 }

/-- Step 3: no admitted command is left, and one record replaces every key of the virtual subsystem. A crypto erase, and a block erase without
chunks, end here. -/
def sanitizeQuiesced (s : State) (v : Nat) : State :=
  match vssOf s v with
  | none => s
  | some r =>
    if !sanRuns r || r.sanKeys || slotsOf s v ≠ 0 then s
    else
      let (ks, s) := rekeyEdits s ((nsOfVss s v).map Prod.fst)
      let r := { r with sanKeys := true, sanDone := if r.sanAct = 4 then 1 else 0 }
      if r.sanTotal ≤ r.sanDone then
        writeEvent (catOwn s (ks ++ [.vss v (some (sanitizeEnd r))]) 0 v) { num := 0x0516, vss := v, detail := [v] }
      else catOwn s (ks ++ [.vss v (some r)]) 0 v

def execSanitizeQuiesced (vss : Nat) (s : State) : Host.Outcome State Fault Refusal := .next (sanitizeQuiesced s vss)

/-- Step 4, the next chunk of a namespace: a checkpoint, or the failure of the sanitize. -/
def sanitizeChunk (s : State) (v : Nat) (r : VssRec) (n : Nat) (x : NsRec) (failed : Option Nat) : State :=
  match failed with
  | some b =>
    writeEvent (catOwn s [.vss v (some { sanState r .sanFailed with sstat := 3 })] 0 v)
      { num := 0x0517, inst := b, vss := v, detail := [b, x.first + x.erased] }
  | none =>
    let r := { r with sanDone := r.sanDone + 1 }
    let done := CatEdit.ns n (some { x with erased := x.erased + 1 })
    if r.sanTotal ≤ r.sanDone then
      writeEvent (catOwn s [done, .vss v (some (sanitizeEnd r))] 0 v) { num := 0x0516, vss := v, detail := [v] }
    else catOwn s [done, .vss v (some r)] 0 v

/-- A running format has done all it has to do. -/
def formatEnd (s : State) (n : Nat) (r : NsRec) (ks : List CatEdit) : State :=
  writeEvent (catOwn s (ks ++ [.ns n (some { r with fmt := false })]) 1 n) { num := 0x0519, inst := n, vss := r.vss, detail := [n] }

/-- A chunk of a format with SES 1 is erased; one that fails is not checkpointed (log 29). -/
def formatChunk (s : State) (n : Nat) (r : NsRec) (failed : Option Nat) : State :=
  if failed.isSome then s
  else
    let r := { r with fmtDone := r.fmtDone + 1 }
    if r.chunks ≤ r.fmtDone then formatEnd s n r [] else catOwn s [.ns n (some r)] 1 n

/-- The owner of the group has erased the chunk after the last checkpoint of a namespace, or failed twice to write one of its drives (R242, R243,
R245). -/
def chunkErased (s : State) (n chunk : Nat) (failed : Option Nat) : State :=
  match nsOf s n with
  | none => s
  | some r =>
    if !(grpOf s r.group).owned || r.chunks ≤ chunk then s
    else if r.fmt && r.fmtKeys && r.ses = 1 then (if chunk = r.fmtDone then formatChunk s n r failed else s)
    else match vssOf s r.vss with
      | none => s
      | some v => if sanRuns v && v.sanKeys && v.sanAct = 2 && chunk = r.erased then sanitizeChunk s r.vss v n r failed else s

def execSanitizeChunkErased (ns chunk : Nat) (failed : Option Nat) (s : State) : Host.Outcome State Fault Refusal :=
  .next (chunkErased s ns chunk failed)

/-! ### Format NVM (R245) -/

/-- Format NVM: LBAF [3:0], MSET [4], PI [7:5] and SES [11:9], as NVMe lays CDW10 out (PRESUMED, log 29). -/
def formatNvm (s : State) (c : Cid) (nsid cdw10 v : Nat) : State :=
  let lbaf := field cdw10 0 4
  let pi := field cdw10 5 3
  let ses := field cdw10 9 3
  let nss : List (Nat × NsRec) := if nsid = 0xFFFFFFFF then nsOfVss s v else (nsByNsid s v nsid).toList.filter fun x => x.2.attached
  if 1 < lbaf || !([0, 1, 3].contains pi) || (pi ≠ 0 && lbaf ≠ 1) || (lbaf = 1 && !bitAt cdw10 4) || 2 < ses then reply s c .invalidField
  else if nsid ≠ 0xFFFFFFFF && nss.isEmpty then reply s c .invalidNs
  else if (match vssOf s v with | some r => decide (r.state = VssState.sanitizing) | none => false) then reply s c .sanitizeInProgress
  else if nss.any fun x => x.2.fmt then reply s c .formatInProgress
  else if nss.isEmpty then reply s c .success
  else catCommand s c (nss.map fun (x : Nat × NsRec) =>
    CatEdit.ns x.1 (some { x.2 with fmt := true, ses := ses, fmtDone := 0, fmtKeys := false, fmtTo := lbaf + 2 * pi })) 0 1 nsid

def execFormatNvm (c : Cid) (nsid cdw10 : Nat) (s : State) : Host.Outcome State Fault Refusal :=
  .next (onAdmin s c {} (fun _ x s => formatNvm s c nsid cdw10 x.vss) id)

/-- The admitted commands of a namespace have finished: its key is replaced and its chunk map reset; SES 1 goes on to erase its chunks. -/
def formatQuiesced (s : State) (n : Nat) : State :=
  match nsOf s n with
  | none => s
  | some r =>
    if !r.fmt || r.fmtKeys || nsInflight s n ≠ 0 then s
    else
      let (ks, s) := rekeyEdits s [n]
      let r := { r with fmtKeys := true, lbaf := r.fmtTo % 2, pi := r.fmtTo / 2, blank := (tget s.cat.keys {} n).epoch + 1 }
      if r.ses = 1 && r.chunks ≠ 0 then catOwn s (ks ++ [.ns n (some r)]) 1 n else formatEnd s n r ks

def execFormatNvmQuiesced (ns : Nat) (s : State) : Host.Outcome State Fault Refusal := .next (formatQuiesced s ns)

end Sys2Proof.Machine
end

