-- ==== Sys2Proof/Machine/Ports.lean ====
section
/-! DEFINITION. The Ethernet ports (R136 to R155): the ingress checks, links and their training, the pause watchdog, the address tables and
MACsec associations, with the policers and the ingress queues behind them (R377, R378, R383 to R387, R393). -/

namespace Sys2Proof.Machine

/-- A sub-port number is one of 32. -/
def onSub (sub : Nat) (s : State) (f : State → State) : Host.Outcome State Fault Refusal :=
  if sub < 32 then .next (f s) else .fault (.noSuchInstance "sub-port")

/-! ### MACsec associations (R147 to R151) -/

/-- A secure channel of a port. -/
def scOf (s : State) (port sc : Nat) : SecChan := tget s.prt.scs {} (32 * port + sc)
/-- Write it. -/
def setSc (s : State) (port sc : Nat) (x : SecChan) : State := { s with prt := { s.prt with scs := tput s.prt.scs {} (32 * port + sc) x } }

/-- MACSEC of a port. -/
def macsecOn (s : State) (port : Nat) : Bool := bitAt (prtPar s port 1 1 0) 1
/-- XPN of a port. -/
def xpnOn (s : State) (port : Nat) : Bool := bitAt (prtPar s port 1 1 0) 2
/-- The last packet number of a port's cipher suite (R150). -/
def lastPn (s : State) (port : Nat) : Nat := if xpnOn s port then 2 ^ 64 - 1 else 2 ^ 32 - 1

/-- A secured frame passes R149; the state has the next expected packet number. -/
def secPass (s : State) (sub : Nat) (t : SecTag) : Option State :=
  match t.sc with
  | none => none
  | some k =>
    let x := scOf s (sub / 4) k
    match x.rx.find? fun r => r.1 == t.an with
    | none => none
    | some r =>
      if x.sub = sub % 4 && t.e && t.c && decide (r.2 ≤ t.pn) && t.icv then
        some (setSc s (sub / 4) k { x with rx := x.rx.map fun y => if y.1 = t.an then (y.1, t.pn + 1) else y })
      else none

/-- A port and secure channel exist. -/
def onSc (port sc : Nat) (s : State) (f : State → State) : Host.Outcome State Fault Refusal :=
  if port < 8 ∧ sc < 32 then .next (f s) else .fault (.noSuchInstance "secure channel")

/-- Install a receive association: a second one stands beside the first, a third takes the place of the older. -/
def installRx (s : State) (port sc sub an pn : Nat) : State :=
  let x := scOf s port sc
  let others := x.rx.filter fun y => y.1 != an
  let keep := others.drop (others.length - 1)
  setSc s port sc { x with sub := sub % 4, rx := keep ++ [(an % 4, pn)] }

/-- Install a transmit association. -/
def installTx (s : State) (port sc sub an pn : Nat) : State :=
  writeEvent (setSc s port sc { scOf s port sc with sub := sub % 4, tx := some (an % 4, pn), spent := false })
    { num := 0x0122, inst := 4 * port + sub % 4, detail := [port, sub % 4, sc] }

def execMacsecRxSaInstall (port sc sub an pn : Nat) (s : State) : Host.Outcome State Fault Refusal :=
  onSc port sc s fun s => installRx s port sc sub an pn
def execMacsecTxSaInstall (port sc sub an pn : Nat) (s : State) : Host.Outcome State Fault Refusal :=
  onSc port sc s fun s => installTx s port sc sub an pn
def execMacsecRxSaRetire (port sc an : Nat) (s : State) : Host.Outcome State Fault Refusal :=
  onSc port sc s fun s => setSc s port sc { scOf s port sc with rx := (scOf s port sc).rx.filter fun y => y.1 != an }

/-! ### Policers (R393) -/

/-- POL_COUNT. -/
def polCount (s : State) : Nat := par s 0x0D 41 1 0
/-- Byte `o` of a policer's entry. -/
def polPar (s : State) (i o len : Nat) : Nat := par s 0x0D (192 + 16 * i + o) len 0
/-- A policer covers the frames of a sub-port and priority. -/
def polCovers (s : State) (i sub prio : Nat) : Bool := bitAt (polPar s i 0 4) sub && bitAt (polPar s i 4 1) prio
/-- The depth of a policer's bucket in 1/1,024 bytes. -/
def polDepth (s : State) (i : Nat) : Nat := 1024 * 1024 * polPar s i 12 4
/-- A policer's bucket holds 0 or more. -/
def polOpen (s : State) (i : Nat) : Bool := decide (tget s.sch.polDebt 0 i ≤ polDepth s i)

/-- A policer refuses a frame: counted, and reported at most once per second. -/
def polRefuse (s : State) (i : Nat) : State :=
  let sec := s.now / ticksS 1 + 1
  let s := rcAdd s 0x50024 i 1
  let n := tget s.sch.polCnt 0 i + 1
  if tget s.sch.polSec 0 i = sec then { s with sch := { s.sch with polCnt := tput s.sch.polCnt 0 i n } }
  else writeEvent { s with sch := { s.sch with polSec := tput s.sch.polSec 0 i sec, polCnt := tput s.sch.polCnt 0 i 0 } }
    { num := 0x0401, inst := i, detail := [i, n] }

/-- The policers on a frame: all their buckets are debited, or those that refuse it count it. -/
def police (s : State) (sub prio len : Nat) : Option State × State :=
  let ps := (List.range (polCount s)).filter fun i => polCovers s i sub prio
  let bad := ps.filter fun i => !polOpen s i
  if bad.isEmpty then
    (some (ps.foldl (fun s i =>
      { s with sch := { s.sch with polDebt := tput s.sch.polDebt 0 i (tget s.sch.polDebt 0 i + 1024 * len) } }) s), s)
  else (none, bad.foldl polRefuse s)

/-! ### Ingress queues (R377, R378) -/

/-- A frame joins an ingress queue, on-chip or in overflow; none when it is dropped. Received Acknowledge and CNP packets take their cells as
drain class 2, also where overflow has no room for them, and pass ING_MAX_KIB. -/
def ingPlace (s : State) (sub prio len : Nat) (isAck : Bool) : Option State :=
  let q := ingOf s sub prio
  let n := cellsOf len
  let ovf := bitAt (par s 0x0D 26 1 0) prio && (s.swc.ovfOn || q.frames.any fun f => f.ovf)
  if !isAck && 4 * ingMax s ≤ ingCells q then none
  else if ovf && decide (s.swc.ovfUsed + n ≤ s.swc.ovfSize) && ovfRateOk s n then
    some (rcAdd (setIng (ovfMove { s with swc := { s.swc with ovfUsed := s.swc.ovfUsed + n } } n) sub prio
      { q with frames := q.frames ++ [⟨n, true, s.now⟩] }) 0x40020 0 1)
  else if ovf && !isAck then none
  else (cellAlloc s (if isAck then 2 else 5) n).map fun s => setIng s sub prio { q with frames := q.frames ++ [⟨n, false, s.now⟩] }

/-- A frame of the management cores' own joins traffic class 3 of a sub-port (R384, R389); without cells it is not sent. -/
def coreFrame (s : State) (sub : Nat) (eapol : Bool) (len : Nat) : State :=
  match cellAlloc s 2 (cellsOf len) with
  | some s => egPush s sub false { kind := if eapol then .eapol else .mgmt, len := len, cost := max 64 len, ect := false } 0
  | none => s

/-- A RoCEv2 frame is queued, with XOFF at its threshold, or dropped. -/
def ingPush (s : State) (sub prio len : Nat) (isAck : Bool) : State :=
  match ingPlace s sub prio len isAck with
  | none => rcAdd s 0x40028 0 1
  | some s =>
    let q := ingOf s sub prio
    let s := sampleDepth s false sub prio (ingCells q)
    if bitAt (pfcMask s (sub / 4)) prio && !q.xoff && 4 * pfcXoff s ≤ ingCells q then
      sendPfc (setIng s sub prio { q with xoff := true }) sub prio true
    else s

/-! ### The ingress checks (R139, R140) -/

/-- A frame fails check `k`. -/
def dropFrame (s : State) (sub k : Nat) : State := count (rcAdd s 0x20010 (sub / 4) 1) (0x0110 + k) (some sub)


/-- A frame for the management cores passes the policers; the cores take it at once. -/
def toCores (s : State) (f : EthFrame) (prio ety : Nat) : State :=
  match coresRate s f.sub with
  | (false, s) => s
  | (true, s) => match police s f.sub prio f.len with
    | (some s, _) => emit s (.cores f.sub ety)
    | (none, s) => s

/-- A PFC frame: each masked priority it enables pauses for its quanta, or goes on at zero (R143). -/
def pfcFrame (s : State) (f : EthFrame) : State :=
  let p := subOf s f.sub
  setSub s f.sub { p with paused := f.pfc.foldl (fun t x =>
    if bitAt (pfcMask s (f.sub / 4)) x.1 && decide (x.1 < 8) then tput t 0 x.1 x.2 else t) p.paused }

/-- Check 3: a MAC control frame that is no PFC is dropped, and an 802.3x pause is reported once per link-up. -/
def macControl (s : State) (f : EthFrame) : State :=
  if f.macOp = 0x0101 then pfcFrame s f
  else
    let s := dropFrame s f.sub 3
    if f.macOp = 1 && !(subOf s f.sub).pauseRep then
      writeEvent (setSub s f.sub { subOf s f.sub with pauseRep := true }) { num := 0x0111, inst := f.sub, detail := [f.sub / 4, f.sub % 4] }
    else s

/-- The priority of a received frame (R142). -/
def framePrio (f : EthFrame) : Nat :=
  match f.tags with
  | t :: _ => (t / 4096) % 8
  | [] => (f.dscp / 8) % 8

/-- The destination addresses that check 2 lets pass on address `n` of the 33: its own, broadcast, and the three reserved ones (R139,
R141). -/
def macPasses (n dst : Nat) : Bool :=
  dst == 0xFFFFFFFFFFFF || dst == 0x0180C200000E || dst == 0x0180C2000001 || dst == 0x0180C2000003
    || dst == (Config.macBase + n) % 2 ^ 48

/-- Checks 5 to 9 on a frame in clear with its EtherType. -/
def frameChecks (s : State) (f : EthFrame) (ety : Nat) : State :=
  let vid := prtPar s (f.sub / 4) 12 2 0
  let prio := framePrio f
  if f.tags.map (· % 4096) ≠ (if vid = 0 then [] else [vid]) then dropFrame s f.sub 5
  else if ety = 0x0806 || ety = 0x88CC then toCores s f prio ety
  else if ety ≠ 0x0800 && ety ≠ 0x86DD then dropFrame s f.sub 6
  else if !f.ipOk then dropFrame s f.sub 7
  else if !((subOf s f.sub).addrs.any fun a => a.2 == some (ety == 0x86DD, f.dstIp)) then dropFrame s f.sub 8
  else match f.l4 with
    | .icmp => toCores s f prio ety
    | .other => dropFrame s f.sub 9
    | .roce isAck => match police s f.sub prio f.len with
      | (some s, _) => ingPush s f.sub prio f.len isAck
      | (none, s) => s

/-- A received frame passes the checks in their order. -/
def frameIn (s : State) (f : EthFrame) : State :=
  if !subExists s f.sub || !(subOf s f.sub).up then s
  else
    let s := count s 0x0101 (some f.sub) none f.len
    let s := if f.fecBad = 0 then s else rcAdd s 0x2000C (f.sub / 4) f.fecBad
    if f.fecBad ≠ 0 || !f.fcsOk || f.len < 64 || 9216 < f.len then dropFrame s f.sub 1
    else if !macPasses f.sub f.dst then dropFrame s f.sub 2
    else if f.ety = 0x8808 then macControl s f
    else if !macsecOn s (f.sub / 4) then frameChecks s f f.ety
    else if f.ety = 0x888E then toCores s f (framePrio f) f.ety
    else match f.sec.bind (secPass s f.sub) with
      | some s => frameChecks s f f.ety2
      | none => dropFrame s f.sub 4

/-- The management port's IPv6 link-local address: the EUI-64 of its MAC address, `PRT_MAC_BASE` + 32 (R141, R152; PRESUMED, log 67). -/
def mgmtLinkLocal : Nat :=
  let mac := (Config.macBase + 32) % 2 ^ 48
  0xFE80 * 2 ^ 112 + Nat.xor (mac / 2 ^ 24 * 2 ^ 40 + 0xFFFE * 2 ^ 24 + mac % 2 ^ 24) (2 ^ 57)

/-- MGMT_IPV4: its bytes in network order (R153). -/
def mgmtIpv4 (s : State) : Nat := (List.range 4).foldl (fun n i => 256 * n + par s 0x06 (132 + i) 1 0) 0

/-- The management port takes a frame for its addresses: the management connection, ARP, ICMP and IPv6 neighbour discovery, untagged or with
MGMT_VLAN (R152; the reading of the tags and the multicast addresses are log 67's). -/
def mgmtTakes (s : State) (f : EthFrame) : Bool :=
  let vid := par s 0x06 130 2 0
  let v4 := mgmtIpv4 s
  let group := decide (f.dst / 2 ^ 32 = 0x3333)
  f.fcsOk && decide (f.tags.map (· % 4096) = if vid = 0 then [] else [vid])
    && (group || f.dst == 0xFFFFFFFFFFFF || f.dst == (Config.macBase + 32) % 2 ^ 48)
    && (match f.ety with
      | 0x0806 => v4 != 0
      | 0x0800 => f.ipOk && v4 != 0 && f.dstIp == v4 && f.l4 != .other
      | 0x86DD => f.ipOk && ((group && f.l4 == .icmp) || (f.l4 != .other && f.dstIp == mgmtLinkLocal))
      | _ => false)

/-- A frame on the management port goes to the management cores, or is dropped (R152). -/
def mgmtFrame (s : State) (f : EthFrame) : State :=
  if s.prt.mgmtUp && mgmtTakes s f then emit s (.cores 32 f.ety) else s

def execEthFrameReceive (f : EthFrame) (s : State) : Host.Outcome State Fault Refusal :=
  if f.sub = 32 then .next (mgmtFrame s f) else onSub f.sub s fun s => frameIn s f

/-! ### Links (R138, R385 to R387) -/

/-- Training ends without a link: a second attempt follows the first at once; after the second the event, and the retries. -/
def trainTimeout (s : State) (sub : Nat) : State :=
  let p := subOf s sub
  if !p.training then s
  else match p.fails with
    | 0 => beginTraining (setSub s sub { p with fails := 1 }) sub
    | 1 => writeEvent (setSub s sub { p with fails := 2, training := false }) { num := 0x0103, inst := sub, detail := [sub / 4, sub % 4] }
    | _ => setSub s sub { p with training := false }

/-- 5 s after a failure the sub-port trains again. -/
def trainRetry (s : State) (sub : Nat) : State :=
  let p := subOf s sub
  if subExists s sub && !p.up && p.fails = 2 then beginTraining s sub else s

/-- Success of the second attempt is transient. A partner that does not run the PMD of the mode with RS(544,514) FEC never reaches link up
(R137). -/
def linkComesUp (s : State) (sub pmd : Nat) (rs : Bool) : State :=
  let p := subOf s sub
  if !subExists s sub || p.up || !p.training || pmd ≠ prtMode s (sub / 4) || !rs then s
  else
    let s := if p.fails = 1 then transient s 1 sub 1 0x0103 else s
    writeEvent (setSub s sub { p with up := true, training := false, fails := 0, pauseRep := false })
      { num := 0x0101, inst := sub, detail := [sub / 4, sub % 4] }

/-- The buckets of a lost member go to the live members in turn, each as a new version (R385); with no live member the group is down
(R387). -/
def rehash (s : State) (sub : Nat) : State :=
  match pgOf s sub with
  | none => s
  | some g =>
    let live := pgLive s g
    if live.isEmpty then writeEvent s { num := 0x0304, detail := [g] }
    else
      let bs := (List.range (2 ^ pgLog s g)).filterMap fun i => match tget s.swc.derail none (pgBase s g + i) with
        | some e => if e.cur.sub = sub then some (pgBase s g + i, e.cur) else none
        | none => none
      let s := bs.zipIdx.foldl (fun s x => tabUpdate s (.derail x.1.1 { x.1.2 with sub := live.getD (x.2 % live.length) sub })) s
      writeEvent (rcAdd s 0x40034 0 bs.length) { num := 0x0303, detail := [g, sub, bs.length] }

/-- A link goes down: training begins again at once. -/
def linkGoesDown (s : State) (sub : Nat) : State :=
  let p := subOf s sub
  if !p.up then s
  else rehash (beginTraining (writeEvent (setSub s sub { p with up := false, fails := 0, paused := [], storm := [] })
    { num := 0x0102, inst := sub, detail := [sub / 4, sub % 4] }) sub) sub

def execLinkTrainTimeout (sub : Nat) (s : State) : Host.Outcome State Fault Refusal := onSub sub s fun s => trainTimeout s sub
def execLinkTrainRetryTimer (sub : Nat) (s : State) : Host.Outcome State Fault Refusal := onSub sub s fun s => trainRetry s sub
def execSubportLinkUp (sub pmd : Nat) (rs : Bool) (s : State) : Host.Outcome State Fault Refusal :=
  onSub sub s fun s => linkComesUp s sub pmd rs
def execSubportLinkDown (sub : Nat) (s : State) : Host.Outcome State Fault Refusal := onSub sub s fun s => linkGoesDown s sub

/-! ### Pauses (R143 to R145) -/

/-- A pause ends. -/
def pauseEnd (s : State) (sub prio : Nat) : State := setSub s sub { subOf s sub with paused := tput (subOf s sub).paused 0 prio 0 }

/-- Every frame queued for a priority is dropped. -/
def dropPrio (s : State) (sub prio : Nat) : State :=
  ((List.range 4).filter fun c => classPrio s sub c == prio).foldl (fun s c => setEg ((egOf s sub c).foldl dropTx s) sub c []) s

/-- The watchdog of a paused priority; the end of the pause in the same tick wins. -/
def watchdogFires (s : State) (sub prio : Nat) (endsNow : Bool) : State :=
  let p := subOf s sub
  if tget p.paused 0 prio = 0 || !bitAt (pfcMask s (sub / 4)) prio then s
  else if endsNow then pauseEnd s sub prio
  else
    let s := setSub s sub { p with storm := p.storm.filter (· != prio) ++ [prio] }
    let s := w1cSet s 0x20014 (sub / 4) (2 ^ prio)
    dropPrio (writeEvent s { num := 0x0110, inst := sub, detail := [sub / 4, sub % 4, prio] }) sub prio

/-- No pause has come for PFC_WD_MS: normal service. -/
def watchdogResumes (s : State) (sub prio : Nat) : State :=
  let s := pauseEnd s sub prio
  setSub s sub { subOf s sub with storm := (subOf s sub).storm.filter (· != prio) }

/-- A sub-port and priority exist. -/
def onPrio (sub prio : Nat) (s : State) (f : State → State) : Host.Outcome State Fault Refusal :=
  if sub < 32 ∧ prio < 8 then .next (f s) else .fault (.noSuchInstance "priority")

def execPfcPauseExpiry (sub prio : Nat) (s : State) : Host.Outcome State Fault Refusal := onPrio sub prio s fun s => pauseEnd s sub prio
def execPfcWatchdogExpiry (sub prio : Nat) (endsNow : Bool) (s : State) : Host.Outcome State Fault Refusal :=
  onPrio sub prio s fun s => watchdogFires s sub prio endsNow
def execPfcWatchdogResume (sub prio : Nat) (s : State) : Host.Outcome State Fault Refusal :=
  onPrio sub prio s fun s => watchdogResumes s sub prio

/-! ### The address table (R141) -/

/-- The port that PRT_SEL selects. -/
def prtSel (s : State) : Nat := field (rwGet s 0x20000 0) 0 3

/-- The address that PRT_ADDR_DATA holds: its bytes in network order, the first in DATA0 [7:0]. -/
def addrData (s : State) (port : Nat) (v6 : Bool) : Nat :=
  (((List.range (if v6 then 4 else 1)).flatMap fun i => leBytes 4 (rwGet s (0x20028 + 4 * i) port))).foldl (fun n b => 256 * n + b) 0

/-- A write of PRT_ADDR_CTL; with APPLY the slot takes the address, or none, and the Discovery log follows (R201). -/
def addrCtl (s : State) (val : Nat) : State :=
  if !authMode s then s else
  let port := prtSel s
  let sub := 4 * port + field val 0 2
  let v6 := bitAt val 4
  let s := rwPut s 0x20024 port (val % 64)
  if !bitAt val 31 then s
  else
    let p := subOf s sub
    discNote (setSub s sub { p with addrs := tput p.addrs none (field val 2 2) (if bitAt val 5 then some (v6, addrData s port v6) else none) })

def execAddressSlotApply (val : Word) (s : State) : Host.Outcome State Fault Refusal := .next (addrCtl s val.toNat)

end Sys2Proof.Machine
end

