-- ==== Sys2Proof/Machine/Switch.lean ====
section
/-! DEFINITION. The switch core and the scheduler (chapter 13): pauses sent again, multicast destinations, bucket returns, the leaked-cell
audit, refills, the sampler, and the choice of a sub-port's next frame (R377, R381, R386, R388 to R394, R399). -/

namespace Sys2Proof.Machine

/-! ### Ingress and multicast (R377, R381) -/

/-- Half a pause has passed: XOFF is sent again while it stands. -/
def xoffAgain (s : State) (sub prio : Nat) : State := if (ingOf s sub prio).xoff then sendPfc s sub prio true else s

def execPfcXoffRefresh (sub prio : Nat) (s : State) : Host.Outcome State Fault Refusal :=
  onPrio sub prio s fun s => xoffAgain s sub prio

/-- The oldest commit sequence among the pages a context awaits an echo for. -/
def echoSeq (s : State) (c : Ctx) : Nat :=
  (c.echo.filterMap fun p => (ownPg s p).rc.map fun r => r.seq).foldl min (2 ^ 64)

/-- The tandem link has not taken a record in time: the record completes with the cocoon alone, the group is Degraded, and the echo waits of
this and every later record of the group end (R381). -/
def mcastTandemFail (s : State) (n : Nat) (c : Ctx) : State :=
  let g := ctxGroup s c
  let q := echoSeq s c
  let s := writeEvent (rcAdd s 0x4002C 0 1) { num := 0x0302, inst := g, vss := c.vss, detail := [g, n] }
  let s := pairLost s g (c.echo.headD 0)
  (ctxFilter s fun c => waitOf c == some .echo).foldl
    (fun s x => if ctxGroup s x.2 = g ∧ q ≤ echoSeq s x.2 then echoEnd s x.1 x.2 else s) s

/-- A multicast destination that a record waits for has reached its limit; an acceptance in the same cycle is applied instead. The stack of a
record is that of the command's first page (R280). -/
def mcastTimeout (s : State) (tandem : Bool) (n : Nat) (accepted : Bool) : State :=
  match ctxOf s n with
  | none => s
  | some c =>
    let dest := if tandem then 2 else 1
    if !mcastWaits c dest then s
    else if accepted then mcastDone s n c dest
    else
      let s := if tandem then mcastTandemFail s n c else stackFail (rcAdd s 0x4002C 0 1) (field (pageAddr false (c.pages.headD 0) false) 12 1)
      match ctxOf s n with
      | some c => mcastDone s n c dest
      | none => s

def execMcastDestTimeout (tandem : Bool) (ctx : Nat) (accepted : Bool) (s : State) : Host.Outcome State Fault Refusal :=
  .next (mcastTimeout s tandem ctx accepted)

/-! ### The derailleur table (R386) -/

/-- REBAL_IDLE_US. -/
def rebalIdle (s : State) : Nat := ticksUs (par s 0x0D 38 2 100)

/-- A bucket returns to its initial member, as a new version. -/
def bucketBack (s : State) (b : Nat) : State :=
  match tget s.swc.derail none b with
  | none => s
  | some e =>
    if e.cur.sub ≠ e.cur.init && (subOf s e.cur.init).up && decide (tget s.swc.used 0 b + rebalIdle s ≤ s.now) then
      tabUpdate s (.derail b { e.cur with sub := e.cur.init })
    else s

def execBucketReturn (bucket : Nat) (s : State) : Host.Outcome State Fault Refusal :=
  if bucket < 4096 then .next (bucketBack s bucket) else .fault (.noSuchInstance "bucket")

/-! ### The leaked-cell audit (R388) -/

/-- A reclaimed cell returns to its pool: a cell of overflow is numbered from 524,288 on, and the first on-chip cells are those of pool 0
(DESIGN CHOICE, log 74). -/
def reclaimCell (s : State) (cell : Nat) : State :=
  if 524288 ≤ cell then { s with swc := { s.swc with ovfUsed := s.swc.ovfUsed - 1 } }
  else if cell < 4096 * poolMib s 0 then { s with swc := { s.swc with pool0 := s.swc.pool0 + 1 } }
  else freeCells s 1

/-- A pass: the cells marked before and found again are reclaimed, the others it finds are marked. -/
def auditPass (s : State) (found : List (Nat × Nat)) : State :=
  let again := found.filter fun x => s.swc.marked.contains x.1
  let fresh := found.filter fun x => !s.swc.marked.contains x.1
  let s := { s with swc := { s.swc with passes := min 65535 (s.swc.passes + 1), marked := fresh.map Prod.fst } }
  match again with
  | [] => s
  | x :: _ =>
    writeEvent (rcAdd (again.foldl (fun s x => reclaimCell s x.1) s) 0x40030 0 again.length) { num := 0x0305, detail := [again.length, x.2] }

def execLeakAuditPass (found : List (Nat × Nat)) (s : State) : Host.Outcome State Fault Refusal := .next (auditPass s found)

/-! ### Refills (R392 to R394) -/

/-- One tenant's shaper at a refill: a bucket that was unshaped starts full, any other gains its rate and is cut to its depth; the share
change is in effect here, and admission reopens at 0 or above. -/
def refillOne (s : State) (v : Nat) (r : VssRec) : State :=
  let s := if r.shape = 0 then setTokens s v 0
           else if s.sch.change.contains (4096 * 40 + v) then setTokens s v (bucketDepth r)
           else setTokens s v (min (bucketDepth r) (tokensOf s v + (128 * r.shape : Nat)))
  let s := { s with sch := { s.sch with change := s.sch.change.filter (· != 4096 * 40 + v) } }
  let s := shareApplied s v (4096 + v)
  if (rtOf s v).stopped && !shaped s v then reopen s v else s

/-- A refill of every shaper. -/
def shaperRefill (s : State) : State :=
  s.cat.vss.foldl (fun s x => match x.2 with
    | some r => refillOne s x.1 r
    | none => s) s

/-- A refill of every policer. -/
def policerRefill (s : State) : State :=
  (List.range (polCount s)).foldl (fun s i =>
    { s with sch := { s.sch with polDebt := tput s.sch.polDebt 0 i (tget s.sch.polDebt 0 i - 128 * polPar s i 8 4) } }) s

def execShaperRefill (s : State) : Host.Outcome State Fault Refusal := .next (shaperRefill s)
def execPolicerRefill (s : State) : Host.Outcome State Fault Refusal := .next (policerRefill s)

/-! ### The sampler (R399) -/

/-- A write of SCH_SAMPLE_ADDR clears every measurement; an egress selection of 4 to 7 is ignored. -/
def sampleSelect (s : State) (v : Nat) : State :=
  if bitAt v 0 && decide (4 ≤ field v 6 3) then s
  else
    let regs := [0x50048, 0x5004C] ++ (List.range 8).map fun i => 0x50050 + 4 * i
    let s := rwPut s 0x50040 0 (v % 512)
    { s with regs := { s.regs with rc := regs.foldl (fun t o => tput t 0 (rk o 0) 0) s.regs.rc } }

def execSchSampleSelect (val : Word) (s : State) : Host.Outcome State Fault Refusal := .next (sampleSelect s val.toNat)

/-! ### Sending a frame (R390, R391) -/

/-- A traffic class may send: its priority is not paused. -/
def classOpen (s : State) (sub cls : Nat) : Bool := tget (subOf s sub).paused 0 (classPrio s sub cls) == 0

/-- The first frame of a queue pair in traffic class 1, else 2, that stands before a PSN (all of them when none is given). -/
def aheadOf (s : State) (sub q : Nat) (psn : Option Nat) : Option (Nat × TxFrame) :=
  let hit := fun (f : TxFrame) => f.qp == q && (match psn with
    | some p => psnAhead p f.psn
    | none => true)
  match (egOf s sub 1).find? hit with
  | some f => some (1, f)
  | none => match (egOf s sub 2).find? hit with
    | some f => some (2, f)
    | none => none

/-- Class 0, first its own frames, each behind the earlier packets of its queue pair, then the packets ahead of a completion that still
waits in a send queue. -/
def pickClass0 (s : State) (sub : Nat) : Option (Nat × TxFrame) :=
  let own := (egOf s sub 0).findSome? fun f => match (if f.kind = .completion then aheadOf s sub f.qp (some f.psn) else none) with
    | some (c, x) => if classOpen s sub c then some (c, x) else none
    | none => if classOpen s sub 0 then some (0, f) else none
  match own with
  | some x => some x
  | none =>
    let promoted := fun (f : TxFrame) => (qpOf s f.qp).sendq.any fun m => m.cpl
    ([1, 2].filter fun c => classOpen s sub c).findSome? fun c => ((egOf s sub c).find? promoted).map fun f => (c, f)

/-- Bytes of class 3 sent in the current millisecond: 100 Mb/s are 12,500 of them. -/
def tc3Used (s : State) (sub : Nat) : Nat :=
  let e := tget s.swc.tc3 0 sub
  if e / 2 ^ 20 = s.now / ticksMs 1 then e % 2 ^ 20 else 0

/-- Class 3. -/
def pickClass3 (s : State) (sub : Nat) : Option TxFrame :=
  if classOpen s sub 3 && decide (tc3Used s sub < 12500) then (egOf s sub 3).head? else none

/-- FED_SHARE_PCT. -/
def fedShare (s : State) : Nat := par s 0x0D 3 1 25

/-- Class 2 has the next turn of the byte-weighted round robin. -/
def fedTurn (s : State) (sub : Nat) : Bool :=
  decide (tget s.swc.wrr2 0 sub * (100 - fedShare s) ≤ tget s.swc.wrr1 0 sub * fedShare s)

/-- A tenant's first frame of class 1 on a sub-port. -/
def tenantFrame (s : State) (sub v : Nat) : Option TxFrame := (egOf s sub 1).find? fun f => f.vss == v

/-- Class 1: VSS 0 first, then deficit round robin; the cost is charged and a tenant without further work leaves the active list. -/
def pickClass1 (s : State) (sub : Nat) : State × Option TxFrame :=
  match tenantFrame s sub 0 with
  | some f => (s, some f)
  | none =>
    let (s, v) := drrPick s (sub + 1) (fun v => (tenantFrame s sub v).map fun f => f.cost) (drrFuel s (sub + 1))
    match v.bind (fun v => (tenantFrame s sub v).map fun f => (v, f)) with
    | none => (s, none)
    | some (v, f) =>
      if (egOf s sub 1).countP (fun x => x.vss == v) ≤ 1 then
        (setActive (setDeficit s (sub + 1) v 0) (sub + 1) ((tget s.sch.active [] (sub + 1)).filter (· != v)) false, some f)
      else (setDeficit s (sub + 1) v (deficitOf s (sub + 1) v - (f.cost : Int)), some f)

/-- Classes 2 and 1. -/
def pickData (s : State) (sub : Nat) : State × Option (Nat × TxFrame) :=
  let two := classOpen s sub 2 && !(egOf s sub 2).isEmpty
  let one := classOpen s sub 1 && !(egOf s sub 1).isEmpty
  let s := if two && one then s
           else { s with swc := { s.swc with wrr2 := tput s.swc.wrr2 0 sub 0, wrr1 := tput s.swc.wrr1 0 sub 0 } }
  if two && (!one || fedTurn s sub) then (s, (egOf s sub 2).head?.map fun f => (2, f))
  else if one then
    let (s, f) := pickClass1 s sub
    match f with
    | some f => (s, some (1, f))
    | none => (s, if two then (egOf s sub 2).head?.map fun f => (2, f) else none)
  else (s, none)

/-- The next frame of a sub-port and the class queue it stands in. -/
def pickFrame (s : State) (sub : Nat) : State × Option (Nat × TxFrame) :=
  match pickClass0 s sub with
  | some x => (s, some x)
  | none => match pickClass3 s sub with
    | some f => (s, some (3, f))
    | none => pickData s sub

/-- The bytes of the frame count against its class (R390). -/
def chargeClass (s : State) (sub cls len : Nat) : State :=
  match cls with
  | 1 => { s with swc := { s.swc with wrr1 := tput s.swc.wrr1 0 sub (tget s.swc.wrr1 0 sub + len) } }
  | 2 => { s with swc := { s.swc with wrr2 := tput s.swc.wrr2 0 sub (tget s.swc.wrr2 0 sub + len) } }
  | 3 => { s with swc := { s.swc with tc3 := tput s.swc.tc3 0 sub (2 ^ 20 * (s.now / ticksMs 1) + tc3Used s sub + len) } }
  | _ => s

/-- The frame leaves its queue; in class 2 the other frames of its queue pair move behind those of the others, so that the queue pairs take
turns. -/
def takeFrame (s : State) (sub cls : Nat) (f : TxFrame) : State :=
  let q := (egOf s sub cls).erase f
  setEg s sub cls (if cls = 2 then q.filter (fun x => x.qp != f.qp) ++ q.filter (fun x => x.qp == f.qp) else q)

/-- PN_WARN_EXP of a port. -/
def pnWarnExp (s : State) (port : Nat) : Nat := prtPar s port 11 1 0

/-- The secure channel a sub-port sends under. -/
def txChan (s : State) (sub : Nat) : Option (Nat × Nat × Nat) :=
  (List.range 32).findSome? fun k => let x := scOf s (sub / 4) k
    if x.sub = sub % 4 then x.tx.map fun t => (k, t.1, t.2) else none

/-- A frame takes the next PN of the transmit SA: the warning and the exhaustion are reported when they are reached (R150). -/
def usePn (s : State) (sub k an pn : Nat) : State :=
  let port := sub / 4
  let x := scOf s port k
  let s := setSc s port k { x with tx := some (an, pn + 1), spent := x.spent || decide (lastPn s port ≤ pn) }
  let s := if lastPn s port - pn = 2 ^ pnWarnExp s port then
      writeEvent (w1cSet s 0x2001C port (2 ^ k)) { num := 0x0120, inst := sub, detail := [port, sub % 4, k] } else s
  if lastPn s port ≤ pn then
    writeEvent (w1cSet s 0x20020 port (2 ^ k)) { num := 0x0121, inst := sub, detail := [port, sub % 4, k] } else s

/-- The checksum of an IPv4 header's 16-bit words, the checksum word taken as zero. -/
def ipChecksum (ws : List Nat) : Nat :=
  let n := ws.foldl (· + ·) 0
  let n := n % 65536 + n / 65536
  65535 - (n % 65536 + n / 65536)

/-- The ECN field of an outgoing packet: CE once marked, ECT(0) for one that may be marked (R146; ECT(0) is a DESIGN CHOICE, log 67). -/
def ecnField (f : TxFrame) : Nat := if f.ce then 3 else if f.ect then 2 else 0

/-- What a frame carries of its traffic class: the priority goes into the PCP of the VLAN tag, or into DSCP [5:3] of an untagged frame (R142). The
fields are the tag (0 for none), the DSCP, the ECN field, and the IPv4 header checksum as recomputed (R146). -/
def txFields (s : State) (sub cls : Nat) (f : TxFrame) : List Nat :=
  let vid := prtPar s (sub / 4) 12 2 0
  let prio := classPrio s sub cls
  let tos := (if vid = 0 then 32 * prio else 0) + ecnField f
  let rip := (qpOf s f.qp).rip
  let halves := fun (a : Nat) => [a / 65536 % 65536, a % 65536]
  if f.kind = .mgmt || f.kind = .eapol then [if vid = 0 then 0 else 8192 * prio + vid]
  else [if vid = 0 then 0 else 8192 * prio + vid, tos / 4, tos % 4]
    ++ if rip < 2 ^ 32 then
        [ipChecksum ([0x4500 + tos, f.len - 18, Config.ipWord 0 s.now, Config.ipWord 1 s.now, Config.ipWord 2 s.now]
          ++ halves (localAddr s f.qp) ++ halves rip)]
      else []

/-- The frame goes out on the wire. -/
def wire (s : State) (sub cls : Nat) (f : TxFrame) : State :=
  let s := count s 0x0102 (some sub) (some f.vss) f.len
  let s := sampleLeave s true sub cls f.stamp
  emit (dropTx (chargeClass s sub cls f.len) f) (.frame sub (4096 + cls) f.len (txFields s sub cls f))

/-- A frame on a port with MACsec: EAPOL goes out unsecured (R139, R148). Without a transmit SA any other frame waits, and the first EAPOL frame
that waits is sent; under a spent one it is dropped (R150). -/
def secureSend (s : State) (sub cls : Nat) (f : TxFrame) (s0 : State) : State :=
  if f.kind = .eapol then wire (takeFrame s sub cls f) sub cls f
  else match txChan s sub with
  | none => match (egOf s0 sub 3).find? fun x => x.kind == .eapol with
    | some x => if classOpen s0 sub 3 && decide (tc3Used s0 sub < 12500) then wire (takeFrame s0 sub 3 x) sub 3 x else s0
    | none => s0
  | some (k, an, pn) =>
    if (scOf s (sub / 4) k).spent then dropTx (takeFrame s sub cls f) f
    else wire (usePn (takeFrame s sub cls f) sub k an pn) sub cls f

/-- The bucket version a frame looked up is still in force: the bucket names the dead sub-port, and the drop is counted (R387). -/
def deadBucket (s : State) (f : TxFrame) : Bool :=
  match f.bucket with
  | some (k, v) => (tget s.swc.derail none k).any fun e => e.ver == v
  | none => false

/-- A frame that reaches a sub-port without a link is dropped (R385). -/
def deadPort (s : State) (sub : Nat) : State :=
  match (List.range 4).findSome? fun c => (egOf s sub c).head?.map fun f => (c, f) with
  | none => s
  | some (c, f) =>
    let s := if deadBucket s f then rcAdd s 0x40028 0 1 else s
    dropTx (setEg s sub c (egOf s sub c).tail) f

/-- A frame with a cell that SEC-DED cannot correct is never sent: its queue pair moves to Error, since a retained packet can no longer be
resent (R379). -/
def lostFrame (s : State) (sub cls : Nat) (f : TxFrame) : State :=
  let s := dropTx (takeFrame s sub cls f) f
  if f.kind = .mgmt || f.kind = .eapol then s else qpDown s f.qp 10

/-- A sub-port chooses and sends its next frame; `lost`: one of its cells cannot be corrected. -/
def transmit (s : State) (sub : Nat) (lost : Bool) : State :=
  if !(subOf s sub).up then deadPort s sub
  else match pickFrame s sub with
    | (s', none) => s'
    | (s', some (cls, f)) =>
      if lost then lostFrame s' sub cls f
      else if macsecOn s (sub / 4) then secureSend s' sub cls f s
      else wire (takeFrame s' sub cls f) sub cls f

/-- SUBPORT_TRANSMIT: a frame of the management cores joins first; an association installed in the same cycle is in force for the frame, so that
it goes out under the new one (R151); while an injector stalls the sub-port its frames stay where they are (R511, point 6). -/
def execSubportTransmit (sub : Nat) (core : Option (Bool × Nat)) (install : Option (Nat × Nat × Nat)) (lost : Bool) (s : State) :
    Host.Outcome State Fault Refusal := onSub sub s fun s =>
  let s := match install with
    | some (sc, an, pn) => if sc < 32 then installTx s (sub / 4) sc sub an pn else s
    | none => s
  let s := match core with
    | some (eapol, len) => coreFrame s sub eapol len
    | none => s
  if (List.range 4).all fun c => (egOf s sub c).isEmpty then s
  else match stallAt s 6 sub with
    | (true, s) => s
    | (false, s) => transmit s sub lost

end Sys2Proof.Machine
end

