-- ==== Sys2Proof/Machine/Tandem.lean ====
section
/-! DEFINITION. The tandem (chapter 16): watching, holding and acquiring the ownership lines, the tandem link, cadence frames, the standing
map and Tandem Control (R447 to R471). -/

namespace Sys2Proof.Machine

/-- A group of a pair: an unpaired controller ignores both lines (R469). -/
def onLine (g : Nat) (s : State) (f : State → State) : Host.Outcome State Fault Refusal :=
  onGroup g s fun s => if unpaired s then s else f s

/-- HB_PERIOD_US and the other times run outside; the line goes to a state. -/
def setLine (s : State) (g : Nat) (l : Line) : State := setGrp s g { grpOf s g with line := l }

/-! ### Holding (R449, R454) -/

/-- The heartbeat of a line is fed. -/
def feedLine (s : State) (g : Nat) : State := setGrp s g { grpOf s g with fedAt := s.now }

/-- A write of TDM_OWN_FEED: only the cores' firmware feeds; writes on other paths are ignored (R449, R473). -/
def execOwnFeed (path : Path) (val : Word) (s : State) : Host.Outcome State Fault Refusal :=
  .next (if path = .cores then
    let s := if bitAt val.toNat 0 then feedLine s 0 else s
    if bitAt val.toNat 1 then feedLine s 1 else s
  else s)

/-- HB_TIMEOUT_MS. -/
def hbTimeout (s : State) : Nat := ticksMs (par s 0x10 4 2 10)

/-- A heartbeat gap of a line this controller holds. -/
def heartbeatGap (s : State) (g : Nat) : State := if (grpOf s g).line = .mine then emit s (.line g 2) else s

/-- No feed has come for HB_TIMEOUT_MS: the hardware stops driving (R449); a feed in the same tick wins (R454), and so does a mode event that
stands before the loss of a group (R48). A Release Group under way ends with the release. -/
def heartbeatLapse (s : State) (g : Nat) (fedNow : Bool) (m : Moment) : State :=
  if (grpOf s g).line ≠ .mine || fedNow || decide (s.now < (grpOf s g).fedAt + hbTimeout s) || outranked m.rivals .group then s
  else match (grpOf s g).releasing with
    | some c => reply (releaseGroup s g 1) c .success
    | none => releaseGroup s g 1

def execHeartbeatGap (group : Nat) (s : State) : Host.Outcome State Fault Refusal := onLine group s fun s => heartbeatGap s group
def execHeartbeatLapse (group : Nat) (fedNow : Bool) (m : Moment) (s : State) : Host.Outcome State Fault Refusal :=
  onLine group s fun s => heartbeatLapse s group fedNow m

/-! ### Watching (R450, R454, R464, R466) -/

/-- The controller takes part in take-overs: it is in Standby or Active, with its cocoon formatted and its boot region not sealed (R452). -/
def mayTakeOver (s : State) (g : Nat) : Bool :=
  (s.glb.mode == .standby || s.glb.mode == .active) && !s.cfg.romFw && s.coc.formatted && s.coc.scanned && !brSealed s && groupHasBay s g

/-- A line that the partner held is Released: the take-over starts (R464, step 1). -/
def releasedSeen (s : State) (g : Nat) : State :=
  let x := grpOf s g
  if x.line ≠ .partner then s
  else if !mayTakeOver s g then setLine s g .released
  else noteAna (writeEvent (setGrp s g { x with line := .released, taking := true, takeAt := s.now, fromDrives := !standingNow s g })
    { num := 0x0B05, inst := g, detail := [g] })

/-- A gap is seen on a low line: the partner holds it. A take-over under way ends, a bar lifts, own pages of the group are orphans, and the
fenced spokes are reset (R307, R450 to R452). -/
def gapSeen (s : State) (g : Nat) : State :=
  let x := grpOf s g
  if x.line = .released || x.line = .stuck then
    let s := setGrp s g { x with line := .partner, seen := true, barred := false, taking := false, claimed := false, fromPartner := true }
    fencedReset (setOrphans (noteAna s) g true) g
  else s

/-- The partner's line has no gap any more: it is treated as held until one is seen. -/
def lineStuckAt (s : State) (g : Nat) : State :=
  if (grpOf s g).line = .partner then writeEvent (setLine s g .stuck) { num := 0x0B08, inst := g, detail := [g] } else s

def execLineReleasedSeen (group : Nat) (s : State) : Host.Outcome State Fault Refusal := onLine group s fun s => releasedSeen s group
def execLineGapSeen (group : Nat) (s : State) : Host.Outcome State Fault Refusal := onLine group s fun s => gapSeen s group
def execLineStuck (group : Nat) (s : State) : Host.Outcome State Fault Refusal := onLine group s fun s => lineStuckAt s group

/-! ### Acquiring (R452, R453) -/

/-- A Released line that may be acquired is driven. -/
def tryAcquire (s : State) (g : Nat) : State :=
  let x := grpOf s g
  if x.line = .released && mayAcquire s g then emit (setGrp s g { x with line := .acquiring, clean := 0, periods := 0 }) (.line g 0) else s

/-- BOOT_CLAIM_MS has passed with the line Released. -/
def bootClaim (s : State) (g : Nat) : State :=
  if (grpOf s g).line = .released then tryAcquire (setGrp s g { grpOf s g with claimed := true }) g else s

/-- This side stops driving a line it was acquiring. -/
def stopAcquiring (s : State) (g : Nat) (collided : Bool) : State :=
  let s := setGrp s g { grpOf s g with line := .released, clean := 0, periods := 0, taking := false, collided := collided }
  noteAna (writeEvent (emit s (.line g 1)) { num := 0x0B07, inst := g, detail := [g] })

/-- A check gap: low is a collision, the fourth clean one holds the line. A mode event of the same tick that stands first (R48) leaves the
line as it is. -/
def checkGap (s : State) (g : Nat) (low : Bool) (m : Moment) (powered : List Nat) (feedB : Option Bool) (a : AreaRead) : State :=
  let x := grpOf s g
  if x.line ≠ .acquiring then s
  else
    let s := emit s (.line g 3)
    if low then
      if !isSideA s then stopAcquiring s g false
      else if 2 ≤ x.periods then stopAcquiring s g true
      else setGrp s g { x with periods := x.periods + 1, clean := 0 }
    else if x.clean < 3 then setGrp s g { x with clean := x.clean + 1 }
    else if outranked m.rivals .group then s
    else if mayTakeOver s g then acquireGroup s g powered feedB a
    else emit (setGrp s g { x with line := .released, clean := 0, periods := 0, taking := false }) (.line g 1)

/-- The outputs held after a release go to high impedance once the partner holds the line (R467). -/
def handoverRelease (s : State) (g : Nat) : State :=
  let x := grpOf s g
  if x.hold && x.line == .partner then groupOutputsOff (setGrp s g { x with hold := false }) g else s

def execLineQuietExpiry (group : Nat) (s : State) : Host.Outcome State Fault Refusal := onLine group s fun s => tryAcquire s group
def execBootClaimExpiry (group : Nat) (s : State) : Host.Outcome State Fault Refusal := onLine group s fun s => bootClaim s group
def execCheckGapSample (group : Nat) (low : Bool) (m : Moment) (powered : List Nat) (feedB : Option Bool) (area : AreaRead)
    (s : State) : Host.Outcome State Fault Refusal :=
  onLine group s fun s => checkGap s group low m powered feedB area
def execOutputHandoverRelease (group : Nat) (s : State) : Host.Outcome State Fault Refusal :=
  onLine group s fun s => handoverRelease s group
def execTakeoverAdmissionOpen (group : Nat) (s : State) : Host.Outcome State Fault Refusal :=
  onGroup group s fun s => openGroup s group

/-! ### The link (R455, R456) -/

/-- The link is powered: it trains from step 7 of start-up on, in every mode but Safe, of a paired controller. -/
def linkRuns (s : State) : Bool :=
  s.cfg.valid && !unpaired s && (match s.glb.mode with
    | .boot => decide (7 ≤ s.glb.bootStep)
    | .standby | .active | .drain => true
    | _ => false)

/-- The link goes down for a cause of R456 and retrains at once. -/
def tandemDown (s : State) (cause : Nat) : State := if s.tdm.linkUp then tdmSend (linkDown s cause) (.tandem 18 []) else s

/-- A flit arrives: it frees the flits that its acknowledged sequence covers, and is itself acknowledged; or it is answered with a replay request,
and 16 replays of one flit without progress retrain the link (R380, R455). -/
def flitReceive (s : State) (crcOk : Bool) (seq acked : Nat) : State :=
  if !s.tdm.linkUp then s
  else if crcOk && seq == s.tdm.rxFlit then
    let s := { s with tdm := { s.tdm with rxFlit := (seq + 1) % 4096, replays := 0, txOut := s.tdm.txOut - acked } }
    tdmSend (if replayRoom s then mcastTandem s else s) (.tandem 14 [seq])
  else
    let s := if crcOk then s else rcAdd s 0xC0024 0 1
    let n := s.tdm.replays + 1
    if 16 < n then tandemDown s 2
    else tdmSend { (rcAdd s 0xC0028 0 1) with tdm := { s.tdm with replays := n } } (.tandem 15 [s.tdm.rxFlit])

/-- The owner's entries of a group go to the partner (R463). -/
def sendStanding (s : State) (g : Nat) : State :=
  if (grpOf s g).owned then
    tdmSend s (.tandem 16 (g :: ((groupEntries s g).map Prod.fst ++ ((placeEntries s).filter fun x => x.2.group == g).map Prod.fst)))
  else setGrp s g { grpOf s g with standing := false, standingMap := [] }

/-- The partner's identities differ: no member until the next reset (R351). -/
def checkIdentity (s : State) (fed shelf : Nat) : State :=
  if !s.fed.mismatch && (fed != fedId s || shelf != ownShelf s) then
    writeEvent { s with fed := { s.fed with mismatch := true } } { num := 0x0826, detail := [fed, shelf] }
  else s

/-- Training has ended and the identities are exchanged: equal sides keep the link down. -/
def linkTrained (s : State) (side : Bool) (fed shelf lanes : Nat) : State :=
  if !linkRuns s || s.tdm.linkUp then s
  else
    let s := tdmSend s (.tandem 19 [bit s.glb.straps.tdmSide, fedId s, ownShelf s])
    if side = s.glb.straps.tdmSide then
      let s' := { s with tdm := { s.tdm with sideConflict := true } }
      if s.tdm.sideConflict then s' else writeEvent s' { num := 0x0B0C }
    else
      let half := lanes != 32
      let s := { s with tdm := { s.tdm with linkUp := true, half := half, sideConflict := false, rxFlit := 0, replays := 0, missed := 0,
                                            compared := false } }
      let s := writeEvent s { num := 0x0B01, detail := [lanes] }
      let s := if half then writeEvent s { num := 0x0B0E, detail := [lanes] } else s
      notePair (sendStanding (sendStanding (checkIdentity s fed shelf) 0) 1)

/-- PEER_ALIVE has fallen past its filter. -/
def peerFalls (s : State) : State := tandemDown { s with tdm := { s.tdm with peerAlive := false } } 4

def execTandemFlitReceive (crcOk : Bool) (seq acked : Nat) (s : State) : Host.Outcome State Fault Refusal :=
  .next (flitReceive s crcOk seq acked)
def execTandemLinkUp (side : Bool) (fed shelf lanes : Nat) (s : State) : Host.Outcome State Fault Refusal :=
  .next (linkTrained s side fed shelf lanes)
def execTandemFlitSilence (s : State) : Host.Outcome State Fault Refusal := .next (tandemDown s 1)
def execPeerAliveFall (s : State) : Host.Outcome State Fault Refusal := .next (peerFalls s)
def execPeerAliveRise (s : State) : Host.Outcome State Fault Refusal :=
  .next { s with tdm := { s.tdm with peerAlive := true } }
def execTandemRetrainTimer (s : State) : Host.Outcome State Fault Refusal :=
  .next (if linkRuns s && !s.tdm.linkUp then tdmSend s (.tandem 18 []) else s)

/-- 1 s after a failed re-mirror it starts again (R459). -/
def remirrorRetry (s : State) (g : Nat) : State :=
  let x := grpOf s g
  if x.owned && x.pair == .degraded && s.tdm.linkUp && !x.remirror then remirrorStart s g else s

def execRemirrorRetryTimer (group : Nat) (s : State) : Host.Outcome State Fault Refusal := onGroup group s fun s => remirrorRetry s group

/-! ### Release Group (R471) -/

/-- Nothing of a group is left to do: no command of it and none of its pages in own staging. -/
def groupDrained (s : State) (g : Nat) : Bool :=
  !(s.coc.own.any fun x => match x.2.rc with
    | some r => r.group == g && !x.2.orphan && x.2.st != .free
    | none => false)
  && (ctxFilter s fun c => c.cmd.isSome && (match nsOf s c.ns with
    | some r => r.group == g
    | none => false)).isEmpty

/-- A group under Release Group whose drain has ended, or reached its limit, is released by choice, and the command completes. -/
def releaseEnd (s : State) (g : Nat) (limit : Bool) : State :=
  match (grpOf s g).releasing with
  | none => s
  | some c => if limit || groupDrained s g then reply (releaseGroup s g 5) c .success else s

/-- Release Group: admission to the group stops, and its own staging drains. -/
def releaseStart (s : State) (c : Cid) (g : Nat) (m : Moment) : State :=
  let x := grpOf s g
  if !x.owned then reply s c (.vendor 0xEA)
  else if !partnerAnswers s then reply s c (.vendor 0xEB)
  else if x.releasing.isSome then reply s c (.vendor 0xE3)
  else
    let s := noteAna (setGrp s g { x with releasing := some c })
    if outranked m.rivals .group then s else releaseEnd s g false

def execTandemReleaseGroup (c : Cid) (cdw10 : Nat) (m : Moment) (s : State) : Host.Outcome State Fault Refusal :=
  .next (asManager s c 0 fun s =>
    if field cdw10 0 4 = 1 then releaseStart s c (field cdw10 8 1) m else reply s c .invalidField)

/-- Abandon Hand-back: the namespace no longer waits. -/
def abandon (s : State) (c : Cid) (ns : Nat) : State :=
  match [0, 1].find? fun g => (grpOf s g).await.contains ns with
  | none => reply s c (.vendor 0xE2)
  | some g => reply (awaitEnd (writeEvent s { num := 0x0B0B, inst := g, detail := [ns] }) g ns true) c .success

def execAbandonHandback (c : Cid) (cdw10 cdw11 : Nat) (s : State) : Host.Outcome State Fault Refusal :=
  .next (asManager s c 0 fun s =>
    if field cdw10 0 4 = 2 then abandon s c (field cdw11 0 16) else reply s c .invalidField)

/-! ### Cadence frames (R460 to R462) -/

/-- BAY_STATE STATE of a channel. -/
def chanCode (c : ChState) : Nat :=
  match c with
  | .disabled => 0 | .off => 1 | .waiting => 2 | .ramping => 3 | .on => 4 | .cooling => 5 | .latched => 6
/-- FEED_STATE STATE of a selector. -/
def feedCode (f : FeedState) : Nat :=
  match f with
  | .off => 0 | .onA => 1 | .onB => 2 | .toA => 3 | .toB => 4
/-- Groups held, as a mask. -/
def ownedMask (s : State) : Nat := bit s.tdm.grp0.owned + 2 * bit s.tdm.grp1.owned

/-- The unmirrored namespaces of the owned groups (R295). -/
def unmirroredNow (s : State) : List Nat :=
  (s.coc.own.filterMap fun x => match x.2.rc with
    | some r => if x.2.unmir && !x.2.orphan && x.2.st != .free && (grpOf s r.group).owned then some (r.ns + 65536 * r.group) else none
    | none => none).eraseDups

/-- An item of a frame by its entries' bytes (R462): its type, two zeros, the length of its entries padded to a multiple of 8, and the
entries; no item without entries. That the length leaves the header out is DEDUCED (log 72). -/
def frameItem (ty : Nat) (bs : List Nat) : List Nat :=
  let n := 8 * ((bs.length + 7) / 8)
  if bs.isEmpty then [] else leBytes 2 ty ++ [0, 0] ++ leBytes 4 n ++ bs ++ List.replicate (n - bs.length) 0
/-- The bytes of an item of `n` entries of `w` bytes. -/
def itemBytes (n w : Nat) : Nat := if n = 0 then 0 else 8 + 8 * ((n * w + 7) / 8)

/-- Groups of which this side holds orphans. -/
def orphanMask (s : State) : Nat := bit (hasOrphans s 0) + 2 * bit (hasOrphans s 1)
/-- Namespaces that await hand-back, by group. -/
def awaitingNow (s : State) : List Nat := s.tdm.grp0.await ++ s.tdm.grp1.await.map (· + 65536)
/-- The bay item of an owner: state, retries left and ownership of each channel, then the feed selectors. -/
def bayItem (s : State) : List Nat :=
  if ownedMask s = 0 then []
  else (List.range 64).map (fun b => chanCode (chanOf s b).state + 8 * (chanOf s b).retries + 64 * bit (ownsBay s b))
    ++ [feedCode s.bay.feed0.state, feedCode s.bay.feed1.state]
/-- The sub-port addresses: 4 x port + sub-port, slot, whether IPv6, 0, and the address, most significant byte first (log 72). -/
def addrItem (s : State) : List Nat :=
  (s.prt.subs.map fun x => x.2.addrs.filterMap fun y => y.2.map fun z =>
    [x.1, y.1, bit z.1, 0] ++ (leBytes 16 z.2).reverse).flatten.flatten
/-- Release messages that fit beside the other items in 512 KiB. -/
def releaseRoom (s : State) : Nat :=
  (524288 - 64 - itemBytes (unmirroredNow s).length 4 - 80 - itemBytes s.tdm.repairs.length 4 - itemBytes (ownAddrs s).length 20
    - itemBytes (awaitingNow s).length 4 - 16 - itemBytes s.tdm.endings.length 4 - 8) / 16

/-- The items of a frame that carries the first `n` release messages (R462). -/
def frameItems (s : State) (n : Nat) : List (List Nat) :=
  let t := s.tdm
  let four := fun (xs : List Nat) => xs.flatMap (leBytes 4)
  [frameItem 1 ((t.releases.take n).flatMap fun x => leBytes 4 (x % 2 ^ 20) ++ leBytes 4 0 ++ leBytes 8 (x / 2 ^ 20)),
   frameItem 2 (four (unmirroredNow s)), frameItem 3 (bayItem s), frameItem 4 (four t.repairs), frameItem 5 (addrItem s),
   frameItem 6 (four (awaitingNow s)), frameItem 7 (if orphanMask s = 0 then [] else leBytes 4 (orphanMask s)),
   frameItem 8 (four t.endings)].filter fun i => !i.isEmpty

/-- The bytes of a cadence frame: the 64-byte header with its CRC, then the items (R461). -/
def frameBytes (s : State) (n : Nat) : List Nat :=
  let t := s.tdm
  let items := frameItems s n
  let body := items.flatten
  let head := [0x4C, 0x59, 0x43, 0x44, 1, bit s.glb.straps.tdmSide + 2 * field (gblModeWord s) 0 3 + 16 * ownedMask s]
    ++ leBytes 2 items.length ++ leBytes 8 (t.tickTx + 1) ++ leBytes 8 (if t.grp0.owned then s.coc.seq0 else 0)
    ++ leBytes 8 (if t.grp1.owned then s.coc.seq1 else 0) ++ leBytes 8 s.cat.gen ++ leBytes 4 (if fedOn s then fedId s else 0)
    ++ leBytes 2 (if fedOn s then ownShelf s else 0) ++ [0, 0] ++ leBytes 4 (64 + body.length) ++ leBytes 8 0
  head ++ leBytes 4 (crc32c (head ++ leBytes 4 0 ++ body)) ++ body

/-- Send a cadence frame; the release messages that do not fit stay for the next. -/
def sendFrame (s : State) : State :=
  let t := s.tdm
  let n := releaseRoom s
  tdmSend { s with tdm := { t with tickTx := t.tickTx + 1, releases := t.releases.drop n, repairs := [], endings := [] } }
    (.tandem 13 (frameBytes s n))

/-- A cadence tick: the sixteenth in a row without a valid frame takes the link down; else a frame goes out (R456, R460). The drains of
Release Group are looked at. -/
def cadence (s : State) (heard : Bool) : State :=
  if !s.tdm.linkUp then s
  else if !heard && decide (15 ≤ s.tdm.missed) then tandemDown s 3
  else sendFrame (releaseEnd (releaseEnd { s with tdm := { s.tdm with missed := if heard then 0 else s.tdm.missed + 1 } } 0 false) 1 false)

def execCadenceTick (heard : Bool) (s : State) : Host.Outcome State Fault Refusal := .next (cadence s heard)

/-- A release message clears the mirror record if it still carries that SEQ (R294). -/
def releaseIn (s : State) (p seq : Nat) : State :=
  let g := mirPg s p
  match g.rc with
  | some r => if r.seq = seq && g.st = .held then setMir s p {} else s
  | none => s

/-- The mirror holder asks for a page again (R312). -/
def repairIn (s : State) (p : Nat) : State :=
  if (ownPg s p).rc.isSome && (ownPg s p).st != .staged && (ownPg s p).st != .free then copyPage s p else s

/-- The orphan pages of a namespace. -/
def orphansOf (s : State) (g ns : Nat) : List Nat :=
  s.coc.own.filterMap fun x => match x.2.rc with
    | some r => if x.2.orphan && r.group == g && r.ns == ns then some x.1 else none
    | none => none

/-- The partner awaits the hand-back of a namespace: its orphan pages go out, none of them left behind (R307). -/
def awaitIn (s : State) (x : Nat) : State :=
  let g := x / 65536 % 2
  if s.coc.scanned && !(grpOf s g).owned then tdmSend s (.tandem 10 ([g, x % 65536] ++ orphansOf s g (x % 65536))) else s

/-- A hand-back has ended: an abandoned namespace's orphans are cleared (R465). -/
def endingIn (s : State) (x : Nat) : State :=
  if x / 131072 % 2 = 1 then (orphansOf s (x / 65536 % 2) (x % 65536)).foldl (fun s p => setOwn s p {}) s else s

/-- The old owner holds no orphans of a group, so none of a namespace that awaits; with nothing awaited, orphans it still holds are confirmed
(R465). -/
def orphansIn (s : State) (f : FrameItems) (g : Nat) : State :=
  let x := grpOf s g
  if !x.owned || !x.open_ then s
  else if !bitAt f.orphans g then
    if decide (2 ≤ f.mode) && decide (f.mode ≤ 4) then x.await.foldl (fun s ns => awaitEnd s g ns false) s else s
  else if x.await.isEmpty then tdmSend s (.tandem 11 [g])
  else s

/-- A frame arrives: the newest is kept, and its items are applied. -/
def frameReceive (s : State) (crcOk : Bool) (f : FrameItems) : State :=
  if !s.tdm.linkUp then s
  else if !crcOk then rcAdd s 0xC0030 0 1
  else if f.tick ≤ s.tdm.frame.tick then s
  else
    let moved := f.addrs != s.tdm.frame.addrs
    let s := { s with tdm := { s.tdm with frame :=
      { tick := f.tick, mode := f.mode, owned := f.owned, seq0 := f.seq0, seq1 := f.seq1, catGen := f.catGen, unmirrored := f.unmirrored,
        latched := f.latched, retries := f.retries.foldl (fun t x => tput t 0 x.1 (x.2 + 1)) [], awaiting := f.awaiting,
        orphans := f.orphans, addrs := f.addrs } } }
    let s := if moved then discNote s else s
    let s := f.releases.foldl (fun s x => releaseIn s x.1 x.2) s
    let s := f.repairs.foldl repairIn s
    let s := f.endings.foldl endingIn s
    let s := f.awaiting.foldl awaitIn s
    orphansIn (orphansIn s f 0) f 1

def execCadenceFrameReceive (crcOk : Bool) (f : FrameItems) (s : State) : Host.Outcome State Fault Refusal :=
  .next (frameReceive s crcOk f)

/-! ### The standing map (R463) -/

/-- Entries of a group the partner holds. -/
def standingIn (s : State) (g : Nat) (a : AreaRead) (last : Bool) : State :=
  let x := grpOf s g
  if !s.tdm.linkUp || x.owned then s
  else
    let s := setGrp s g { x with standing := x.standing || last, standingMap := a.map.foldl (fun t y => tput t {} y.1 y.2) x.standingMap }
    { s with fed := { s.fed with area := a.place.foldl (fun t y => tput t {} y.1 y.2) s.fed.area } }

def execStandingMapReceive (group : Nat) (entries : AreaRead) (last : Bool) (s : State) : Host.Outcome State Fault Refusal :=
  onGroup group s fun s => standingIn s group entries last

end Sys2Proof.Machine
end

