-- ==== Sys2Proof/Machine/Load.lean ====
section
/-! DEFINITION. Putting the sections of an image to work: at step 5 of start-up and, for those that are not reset-bound, at the swap of a
live activation (R98, R105). -/

namespace Sys2Proof.Machine

/-! ### Section 0x0009 -/

/-- The dispatch entries of a section: key, and list + 512 x LOCK (R275). -/
def dispEntries (b : List Byte) : List (Nat × Nat) :=
  (List.range (dispCount b)).map fun i =>
    (dispKey b i, field (leAt b (dispByte b i + 2) 2) 0 9 + 512 * bit (bitAt (leAt b (dispByte b i + 1) 1) 7))

/-- Give a dispatch key a new version (R43). -/
def dispPut (t : Tbl (Option (VEnt Nat))) (k v : Nat) : Tbl (Option (VEnt Nat)) :=
  tput t none k (some (vPut (tget t none k) v))

/-- Load lists, steps and dispatch entries (R251, R257, R275): entries enter as new versions, and a key the image does not name takes its
default (R259). -/
def loadLists (s : State) : State :=
  let b := (sectionOf s.cfg 9).getD []
  let es := if (sectionOf s.cfg 9).isSome then dispEntries b else []
  let gone := (s.seq.disp.map Prod.fst).filter fun k => !(es.any fun e => e.1 == k)
  let t := es.foldl (fun t e => dispPut t e.1 e.2) s.seq.disp
  let t := gone.foldl (fun t k => dispPut t k (defaultEntry (k / 256) (k % 256))) t
  { s with seq := { s.seq with
      lists := (List.range (listCount b)).map (listOf b),
      steps := (List.range (stepCount b)).map fun i => stepOf b (stepByte b i),
      disp := t, loads := (s.seq.loads + 1) % 65536 } }

/-! ### Section 0x000D -/

/-- The floor sizes of the image (R395, R400). -/
def floorsOf (s : State) : List Nat :=
  (List.range 5).map fun i => par s 0x0D (4 + 4 * i) 4 (([8192, 8192, 16384, 4096, 4096][i]?).getD 0)

/-- The buffer at Boot: floors full, pool 0 and the overflow pool at their claims, and the rest shared (R376, R378). -/
def loadBuffer (s : State) : State :=
  let fl := floorsOf s
  { s with swc := { s.swc with floors := fl, floorSz := fl, pool0 := 4096 * poolMib s 0, ovfSize := 4096 * poolMib s 1,
                               shared := 524288 - fl.sum - 4096 * poolMib s 0 } }

/-- A floor's free cells under a new size: beyond it they return to the shared part (R398). -/
def floorShrink (free old new : Nat) : Nat := if new < old then min free (new - (old - free)) else free

/-- The floors change at a live activation (R398). -/
def changeFloors (s : State) : State :=
  let new := floorsOf s
  let free := (List.range 5).map fun i => floorShrink (s.swc.floors.getD i 0) (s.swc.floorSz.getD i 0) (new.getD i 0)
  { s with swc := { s.swc with floors := free, floorSz := new, shared := s.swc.shared + (s.swc.floors.sum - free.sum) } }

/-- The words that define a path group. -/
def pgWords (s : State) (g : Nat) : Nat := if g < pgCount s then par s 0x0D (64 + 16 * g) 16 0 + 1 else 0

/-- A path group comes into use: bucket i names member i mod L, its initial member (R384). -/
def loadGroup (s : State) (g : Nat) : State :=
  let ms := pgMembers s g
  (List.range (2 ^ pgLog s g)).foldl (fun s i =>
    let m := ms.getD (i % ms.length) 0
    let k := pgBase s g + i
    { s with swc := { s.swc with derail := tput s.swc.derail none k (some (vPut (tget s.swc.derail none k) { sub := m, init := m })) } }) s

/-- The path groups that differ from those of `old` come into use. -/
def loadGroups (s old : State) : State :=
  (List.range (pgCount s)).foldl (fun s' g => if pgWords s g = pgWords old g then s' else loadGroup s' g) s

/-- The policers start full (R393). -/
def loadPolicers (s : State) : State := { s with sch := { s.sch with polDebt := [], polSec := [], polCnt := [] } }

/-! ### Section 0x0003 -/

/-- The DRAM regions of the image (R92). -/
def loadRegions (s : State) : State :=
  let b := (sectionOf s.cfg 3).getD []
  (List.range (b.length / 16)).foldl (fun s i =>
    let e := 16 * i
    let r : Region := { code := leAt b (e + 1) 1, use := field (leAt b (e + 2) 1) 0 6, base := leAt b (e + 4) 4, len := leAt b (e + 8) 4 }
    { s with mem := { s.mem with regions := tput s.mem.regions {} (leAt b e 1) r } }) s

/-! ### Step 5 -/

/-- Everything the running image configures at Boot (R56, R98, R100): buffer, path groups, lists, regions, bay channels and test
features. -/
def loadConfig (s : State) : State :=
  let s := loadLists (loadGroups (loadBuffer (loadRegions s)) { s with cfg := {} })
  let s := (List.range 64).foldl (fun s b =>
    if (chanOf s b).state = .disabled && chanEnabled s b then setChan s b { chanOf s b with state := .off } else s) s
  let test := bitAt (leAt s.cfg.header 32 1) 0
  let s := { s with ptb := { s.ptb with available := test && !s.trs.fieldLock } }
  measureHw (if test && s.trs.fieldLock then writeEvent s { num := 0x0D50 } else s)

/-- What a live activation puts to work (R105): the sections that are not reset-bound. -/
def loadLive (s old : State) : State := loadPolicers (loadGroups (changeFloors (loadLists s)) old)

end Sys2Proof.Machine
end

