-- ==== Sys2Proof/Machine/Modes.lean ====
section
/-! DEFINITION. The device modes: start-up, resets, drains, Safe and power failure (chapters 02 and 03, steps 1 to 8). -/

namespace Sys2Proof.Machine

/-! ### Boot stages (R56, R57) -/

/-- Boot stands at this step. -/
def atStep (s : State) (n : Nat) : Bool := s.glb.mode == .boot && !s.glb.bootHalted && s.glb.bootStep == n


/-- A stage passes: the next one begins; a stage that ran again after its limit was transient. -/
def passStage (s : State) (n : Nat) : State :=
  let s := if s.glb.stageLate then cured s n n else s
  { s with glb := { s.glb with bootStep := n + 1, stageLate := false } }

/-- Two free bits: whether the two writes of the record of a Boot that fails succeed (log 3). -/
def freeWrites (s : State) : Bool × Bool × State :=
  let (a, s) := takeFree s
  let (b, s) := takeFree s
  (bitAt a 0, bitAt b 0, s)

/-- A boot stage has failed for good (R47, R63, R123): the cocoon is brought up as far as its header and the boot region, the record is
written, and the controller enters Safe. -/
def bootFail (s : State) (cause detail : Nat) : State :=
  let s := cocoonUp s
  let s := { s with glb := { s.glb with safeCause := cause, safeDetail := detail, stageLate := false } }
  let (a, b, s) := freeWrites s
  enterSafe (writeBootRec s (bootRecOf s 1 1) a b).1 cause detail

/-- PWRON_L asserted (R47). -/
def pwronAssert (s : State) : State :=
  let s := toHeld s
  { s with glb := { s.glb with pwronL := true, pwrfail := false, refclkLost := false } }

def execPwronLAsserted (s : State) : Host.Outcome State Fault Refusal := .next (pwronAssert s)

/-- PWRON_L released (R47, R53, R57, R538): the straps are sampled; with TEST_EN high, or a PLL that does not lock, the controller stays in
Held. -/
def pwronRelease (s : State) (straps : Straps) (m : Moment) : State :=
  if s.glb.mode ≠ .held || !s.glb.pwronL || s.glb.tripHeld then s
  else
    let s := { s with glb := { s.glb with pwronL := false, straps := straps } }
    if straps.testEn then s else startUp s false 0 m

def execPwronLReleased (straps : Straps) (m : Moment) (s : State) : Host.Outcome State Fault Refusal := .next (pwronRelease s straps m)

/-- Step 2 (R59). -/
def memoryPrepared (s : State) (bad1 bad2 : Option Nat) : State :=
  if !atStep s 2 then s
  else match bad1, bad2 with
    | none, _ => passStage s 2
    | some m, none => passStage (cured s 2 m) 2
    | some _, some m => bootFail s 4 m

def execMemoryPreparationDone (bad1 bad2 : Option Nat) (s : State) : Host.Outcome State Fault Refusal := .next (memoryPrepared s bad1 bad2)

/-! ### Steps 3 and 4 (R79, R86 to R89) -/

/-- The bytes of slot `k` as its header measures it; only the header when it names no image. -/
def slotBytesOf (s : State) (k : Nat) : List Byte :=
  let h := memReadBytes 0xFF s.nor.flash (2 ^ 26 * k) 64
  if leAt h 0 4 = 0x4D49594C ∧ leAt h 8 4 ≤ 50331648 then memReadBytes 0xFF s.nor.flash (2 ^ 26 * k) (leAt h 8 4) else h

/-- Size of a slot. -/
def slotSize (s : State) (k : Nat) : Option Nat := if k = 0 then s.nor.sizeA else s.nor.sizeB

/-- SEQ of a slot plus 1; 0 (SEQ -1) when its header cannot be read or carries a wrong MAGIC (R88). -/
def slotSeq (s : State) (k : Nat) : Nat :=
  let h := memReadBytes 0xFF s.nor.flash (2 ^ 26 * k) 64
  if (if k = 0 then s.nor.hdrA else s.nor.hdrB) && (slotSize s k).isSome && leAt h 0 4 == 0x4D49594C then leAt h 12 4 + 1 else 0

/-- The slot that goes first (R88). -/
def firstSlot (s : State) : Nat := if slotSeq s 0 < slotSeq s 1 then 1 else 0

/-- A slot has been rejected in this Boot. -/
def slotFailed (s : State) (k : Nat) : Bool := (if k = 0 then s.glb.failA else s.glb.failB) != 0

/-- The slot that is tried next. -/
def nextSlot (s : State) : Option Nat := [firstSlot s, 1 - firstSlot s].find? fun k => !slotFailed s k

/-- Reject slot `k` at step `n`; with none left the controller enters Safe (R88, R89). -/
def rejectSlot (s : State) (k n : Nat) (roll : Bool) : State :=
  let s := if k = 0 then { s with glb := { s.glb with failA := n, rollA := roll } } else { s with glb := { s.glb with failB := n, rollB := roll } }
  let s := { s with glb := { s.glb with stageLate := false, reread := false } }
  match nextSlot s with
  | some _ => { s with glb := { s.glb with bootStep := 3 } }
  | none =>
    if s.glb.rollA || s.glb.rollB then
      bootFail s 0x0A (if s.glb.rollA && s.glb.rollB then 2 else if s.glb.rollA then 0 else 1)
    else bootFail s 1 (256 * s.glb.failA + s.glb.failB)

/-- Densities and headers as the controller found them (R79, R88). -/
def noteNor (s : State) (r : NorReport) : State :=
  let half := s.glb.straps.norLayout
  let a := if half then r.dens0.map (· / 2) else r.dens0
  let b := if half then r.dens0.map (· / 2) else r.dens1
  let s' := { s with glb := { s.glb with norRead := true },
                     nor := { s.nor with sizeA := a, sizeB := b, hdrA := r.hdrA1 || r.hdrA2, hdrB := r.hdrB1 || r.hdrB2 } }
  let s' := if a.isSome && !r.hdrA1 && r.hdrA2 then cured s' 3 0 else s'
  if b.isSome && !r.hdrB1 && r.hdrB2 then cured s' 3 1 else s'

/-- Step 3 (R79, R88, R118): the densities and headers are read once, and the slot that goes next is read; with step 4 the owner
measurements are taken. -/
def imageLoaded (s : State) (r : NorReport) : State :=
  if !atStep s 3 then s
  else
    let s := if s.glb.norRead then s else noteNor s r
    match nextSlot s with
    | none => s
    | some k =>
      if (slotSize s k).isNone || !(r.ok1 || r.ok2) then rejectSlot s k 3 false
      else
        let s := if r.ok1 then s else cured s 3 k
        measureOwner (passStage { s with glb := { s.glb with reread := !r.ok1 } } 3)

def execImageLoadDone (r : NorReport) (s : State) : Host.Outcome State Fault Refusal := .next (imageLoaded s r)

/-- The 64-byte message that both image signatures sign (R85, R106): "LYSAR-IMAGE-V1", two zero bytes and the SHA-384 digest of bytes 0 to
SIG_OFFSET - 1. -/
def imageMessage (b : List Byte) : List Nat :=
  [0x4C, 0x59, 0x53, 0x41, 0x52, 0x2D, 0x49, 0x4D, 0x41, 0x47, 0x45, 0x2D, 0x56, 0x31, 0, 0]
    ++ leBytes 48 (Config.sha384 ((b.take (leAt b 24 4)).map BitVec.toNat))

/-- The two signatures of an image are checked with the keys of its KEY_SLOT (R85, R86, R110): what the trust engine is asked. -/
def checkImageSigs (s : State) (b : List Byte) : State :=
  let k := tget s.trs.owner {} (leAt b 33 1)
  let sig := leAt b 24 4
  emit (emit s (.verify 0 (natsOf k.ed) (imageMessage b) (natsOf ((b.drop (sig + 16)).take 64))))
    (.verify 1 (natsOf k.ml) (imageMessage b) (natsOf ((b.drop (sig + 80)).take 3309)))

/-- What an image that verified gives the machine. -/
def takeImage (s : State) (b : List Byte) : State :=
  let secs := sectionsOf b
  { s with cfg := { valid := true, header := b.take 64, sections := secs,
                    digest := Config.sha384 ((b.take (leAt b 24 4)).map BitVec.toNat), romFw := !(secs.any fun x => x.1 == 5) } }

/-- The event of a reject: slot, section type, image byte offset (R99). -/
def rejectEvent (s : State) (k : Nat) (r : Reject) : State :=
  writeEvent s { num := r.code, inst := k, detail := [k, r.ty, r.off] ++ r.more }

/-- Slot `k` has verified and runs (R88, R118). -/
def imageFound (s : State) (k : Nat) : State :=
  passStage (measureImage (takeImage { s with glb := { s.glb with bootSlot := k, fallback := k != firstSlot s } } (slotBytesOf s k))) 4

/-- Step 4 (R86, R88, R118): the slot is verified, and once more after a reread when it fails; a reread that fails rejects the slot with
step 3. The owner measurements are taken as the step begins. -/
def imageVerified (s : State) (v1 : ImageVerdict) (reread : Bool) (v2 : ImageVerdict) : State :=
  if !atStep s 4 then s
  else match nextSlot s with
    | none => s
    | some k =>
      let b := slotBytesOf s k
      let size := (slotSize s k).getD 0
      let s := checkImageSigs s b
      match verifyImage s size b v1 with
      | none => imageFound s k
      | some r =>
        if s.glb.reread then rejectSlot (rejectEvent s k r) k 4 (r.code == 0x0D13)
        else if !reread then rejectSlot s k 3 false
        else match verifyImage (checkImageSigs s b) size b v2 with
          | some r => rejectSlot (rejectEvent (checkImageSigs s b) k r) k 4 (r.code == 0x0D13)
          | none => imageFound (cured (checkImageSigs s b) 4 k) k

def execImageVerificationDone (v1 : ImageVerdict) (reread : Bool) (v2 : ImageVerdict) (s : State) : Host.Outcome State Fault Refusal :=
  .next (imageVerified s v1 reread v2)

/-! ### Steps 5 to 8 -/

/-- Step 5 (R90, R98, R100). -/
def configured (s : State) : State :=
  if !atStep s 5 then s
  else match checkConfig s.cfg.sections (leAt s.cfg.header 32 1) with
    | some r => bootFail (rejectEvent s s.glb.bootSlot r) (if r.code = 0x0D40 then 2 else 3) r.code
    | none => passStage (loadConfig s) 5

def execConfigurationDone (s : State) : Host.Outcome State Fault Refusal := .next (configured s)

/-- The formatted cocoon has lost both copies of its header (R283). -/
def headerLost (s : State) : Bool := s.coc.formatted && !s.coc.hdrA && !s.coc.hdrB

/-- Step 7 begins (R56): the cocoon is brought up and the links train. With both copies of the header lost the cocoon cannot be read; the
rerun of R57 reads the same two copies, which nothing rewrites in Boot, and fails as the first run did. -/
def beginStep7 (s : State) : State :=
  let s := cocoonUp s
  if headerLost s then bootFail s 7 0
  else
    let s := (List.range 32).foldl (fun s n => if subExists s n then beginTraining s n else s) s
    if linkRuns s then tdmSend s (.tandem 18 []) else s

/-- The GiB that section 0x0001 names for a channel: 0 when the channel is not fitted (R91). -/
def namedGib (s : State) (c : Nat) : Nat := if bitAt (par s 0x01 18 1 0) c then par s 0x01 (20 + c) 1 0 else 0

/-- The channels that fail training: the fitted size found differs from DRAM_GIB (R91). -/
def trainFails (s : State) (fit : List Nat) : List Nat := (List.range 4).filter fun c => (fit[c]?).getD 0 != namedGib s c

/-- Step 6 (R57, R91): every channel is trained, and those that fail once more; a channel that passed keeps its first result. -/
def dramTrained (s : State) (fit1 fit2 : List Nat) : State :=
  if !atStep s 6 then s
  else
    let bad1 := trainFails s fit1
    match bad1, bad1.filter fun c => (trainFails s fit2).contains c with
    | [], _ => beginStep7 (passStage s 6)
    | c :: r, [] => beginStep7 (passStage ((c :: r).foldl (fun s c => cured s 6 c) s) 6)
    | _, c :: _ => bootFail s 6 c

def execDramTrainingDone (fit1 fit2 : List Nat) (s : State) : Host.Outcome State Fault Refusal := .next (dramTrained s fit1 fit2)

/-- Both parts of step 7 have ended. -/
def endStep7 (s : State) : State := if s.glb.sweepDone && s.glb.scanDone then passStage s 7 else s

/-- A part of step 7 exceeded its limit and again in the rerun, or only once, or not (R57). -/
def lateStage (s : State) (late1 late2 : Bool) (f : State → State) : State :=
  if late1 && late2 then bootFail s 5 7 else endStep7 (f (if late1 then cured s 7 7 else s))

/-- A region of the regions marked initialised once its sweep has completed (R61). -/
def markSwept (s : State) (r : Nat) : State :=
  let x := tget s.mem.regions {} r
  if x.code = 0 then s else { s with mem := { s.mem with regions := tput s.mem.regions {} r { x with init := true } } }

/-- The results of the recovery scan are written (R61, R308). -/
def scanResults (s : State) (r : ScanReport) : State :=
  let s := if s.coc.formatted then recoveryScan s r else s
  { s with glb := { s.glb with scanDone := true, scanWait := none } }

/-- The sweep has written the regions `swept` (R61): each is marked initialised, and with the last of them the sweep is done and a scan that
has ended writes its results. Which regions hold those results is open: all of them are waited for (DESIGN CHOICE, log 63). -/
def dramSwept (s : State) (swept : List Nat) (late1 late2 : Bool) : State :=
  if !atStep s 7 || s.glb.sweepDone then s
  else lateStage s late1 late2 fun s =>
    let s := swept.foldl markSwept s
    if s.mem.regions.all fun x => x.2.init then
      let s := { s with glb := { s.glb with sweepDone := true } }
      match s.glb.scanWait with
      | some r => scanResults s r
      | none => s
    else s

def execDramSweepDone (swept : List Nat) (late1 late2 : Bool) (s : State) : Host.Outcome State Fault Refusal :=
  .next (dramSwept s swept late1 late2)

/-- The recovery scan, which runs beside the sweep, ends; its results are written once the regions are initialised (R56, R61, R308). -/
def scanEnded (s : State) (r : ScanReport) : State :=
  if !atStep s 7 || s.glb.scanDone || s.glb.scanWait.isSome then s
  else lateStage s r.late1 r.late2 fun s =>
    if s.glb.sweepDone then scanResults s r else { s with glb := { s.glb with scanWait := some r } }

def execRecoveryScanDone (r : ScanReport) (s : State) : Host.Outcome State Fault Refusal := .next (scanEnded s r)

/-- Standby is reached (R47, R7): boot lock, Solo, step 9 begins; an unpaired controller takes its groups. The pairing state follows the
link, which trains from step 7 on (R51, R459). The limit of step 9 counts from here on a formatted cocoon, on an unformatted one from the
completion of Format Cocoon (R56, R62). -/
def reachStandby (s : State) : State :=
  let s' := { s with glb := { s.glb with mode := .standby, bootStep := 9, bootLock := true, pair := .solo, stageLate := false,
                                         step9 := s.coc.formatted } }
  claimUnpaired (notePair (noteMode s s'))

/-- Step 8 (R57, R63). -/
def recordWritten (s : State) (ok1 ok2 : Bool) (ms : Nat) : State :=
  if !atStep s 8 then s
  else
    let s := if s.glb.stageLate then cured s 8 8 else s
    let s := { s with glb := { s.glb with bootMs := min ms 65535, stageLate := false } }
    let i := brNext s
    let (s, done) := writeBootRec s (bootRecOf s 1 0) ok1 ok2
    if !done then enterSafe s 7 ((i + 1) % 2)
    else reachStandby (if s.coc.formatted && decide (i < 4096) && !ok1 then cured s 8 8 else s)

def execBootRecordWritten (ok1 ok2 : Bool) (ms : Nat) (s : State) : Host.Outcome State Fault Refusal := .next (recordWritten s ok1 ok2 ms)

/-- A stage exceeds its limit: it runs once more; the second time the step decides (R57). -/
def stageExpired (s : State) : State :=
  if s.glb.mode ≠ .boot || s.glb.bootHalted then s
  else if !s.glb.stageLate then { s with glb := { s.glb with stageLate := true } }
  else match s.glb.bootStep with
    | 3 | 4 => match nextSlot s with
      | some k => rejectSlot s k s.glb.bootStep false
      | none => s
    | n => bootFail s 5 n

/-- Step 9 runs under its limit (R56, R62): the first ownership is awaited and a group may be acquired whose line no partner holds. A
controller that can acquire nothing (ROM firmware, no bay, a sealed boot region) is not held to it (DEDUCED, log 64). -/
def step9Due (s : State) : Bool :=
  s.glb.step9 && s.glb.mode == .standby
    && [0, 1].any fun g => mayAcquire s g && ((grpOf s g).line == .released || (grpOf s g).line == .acquiring)

/-- Step 9 exceeds its limit: it runs once more, then the controller enters Safe (R57). -/
def step9Expired (s : State) : State :=
  if !step9Due s then s
  else if !s.glb.stageLate then { s with glb := { s.glb with stageLate := true } }
  else fatal s 5 9

/-- The limit of the present stage of start-up has passed (R56, R57). -/
def limitExpired (s : State) : State := if s.glb.mode = .standby then step9Expired s else stageExpired s

def execBootStageLimitExpiry (s : State) : Host.Outcome State Fault Refusal := .next (limitExpired s)

/-- A stack of the cocoon stops completing accesses for 1 ms (R314); in step 7 the stage is run once more first (R57). An event of the same
tick that stands before a fatal fault discards it (R48). -/
def stackTimeout (s : State) (k : Nat) (m : Moment) : State :=
  if outranked m.rivals .fatal then s else
  match s.glb.mode with
  | .held => s
  | .boot =>
    if s.glb.bootHalted then s
    else if s.glb.bootStep = 7 && !s.glb.stageLate then { s with glb := { s.glb with stageLate := true } }
    else if s.glb.bootStep < 7 then s
    else bootFail (stackFail s k) 7 k
  | _ => stackFail s k

def execStackAccessTimeout (stack : Nat) (m : Moment) (s : State) : Host.Outcome State Fault Refusal :=
  if stack < 2 then .next (stackTimeout s stack m) else .fault (.noSuchInstance "stack")

/-! ### The watchdog (R58) -/

/-- The watchdog expires: a warm reset, or Safe when 60 s of Standby or Active have not passed since the last such reset. An event of the
same tick that stands before it in R48 discards it. -/
def watchdog (s : State) (m : Moment) : State :=
  if s.glb.mode = .held then s
  else if s.glb.wdOnce && decide (s.glb.runTicks < ticksS 60) then
    let sec := min 0xFFFF (s.now / ticksS 1)
    if outranked m.rivals .fatal then s
    else match s.glb.mode with
      | .boot => if s.glb.bootHalted then s else bootFail s 9 sec
      | _ => fatal s 9 sec
  else if outranked m.rivals .reset then s
  else internalReset s true 4 m

def execWatchdogExpiry (m : Moment) (s : State) : Host.Outcome State Fault Refusal := .next (watchdog s m)

/-! ### Requests (R48, R73, R74) -/

/-- The outcome of the last request: 0 accepted, 1 Refused, 2 Busy (R73). -/
def setReq (s : State) (n : Nat) : State := { s with glb := { s.glb with reqStatus := n } }

/-- Drain (shutdown) begins (R50): the owned groups' namespaces become Inaccessible. -/
def drainShutdown (s : State) : State :=
  noteAna (noteMode s { s with glb := { s.glb with mode := .drain, drainReason := .shutdown, drainReturn := .standby } })

/-- A request to shut down. -/
def shutdownReq (s : State) (rivals : List ModeEvent) : State :=
  match s.glb.mode with
  | .held | .boot => s
  | .active => if outranked rivals .drain then setReq s 2 else setReq (drainShutdown s) 0
  | _ => setReq s 1

/-- A request for Safe; it stands with the fatal faults in the list of R48. -/
def safeReq (s : State) (rivals : List ModeEvent) : State :=
  match s.glb.mode with
  | .held | .boot => s
  | .safe => setReq s 1
  | _ =>
    if s.glb.drainReason = .powerFail then setReq s 1
    else if outranked rivals .fatal then setReq s 2
    else setReq (enterSafe s 0x0B 0) 0

/-- A write to GBL_MODE_REQ (R73). -/
def modeReqWrite (s : State) (v : Nat) (m : Moment) : State :=
  match field v 0 3 with
  | 4 => shutdownReq s m.rivals
  | 5 => safeReq s m.rivals
  | _ => match s.glb.mode with
    | .held | .boot => s
    | _ => setReq s 1

/-- A write to GBL_RESET_CTL (R54, R74): the key decides, and COLD wins over WARM. -/
def resetWrite (s : State) (v : Nat) (m : Moment) : State :=
  match s.glb.mode with
  | .held | .boot => s
  | _ =>
    if field v 16 16 ≠ 0x5A17 then count s 0x0002
    else if !bitAt v 0 && !bitAt v 1 then s
    else if outranked m.rivals .reset then setReq s 2
    else if bitAt v 1 then internalReset s false 1 m
    else internalReset s true 3 m

def execShutdownRequest (m : Moment) (s : State) : Host.Outcome State Fault Refusal := .next (modeReqWrite s 4 m)
def execSafeRequest (m : Moment) (s : State) : Host.Outcome State Fault Refusal := .next (modeReqWrite s 5 m)
def execWarmResetRequest (val : Word) (m : Moment) (s : State) : Host.Outcome State Fault Refusal :=
  .next (resetWrite s val.toNat m)
def execColdResetRequest (val : Word) (m : Moment) (s : State) : Host.Outcome State Fault Refusal :=
  .next (resetWrite s val.toNat m)

/-! ### The end of a drain (R50, R471) -/

/-- Drain (shutdown) ends: every owned group is released, and the mode is Standby. -/
def drainEnd (s : State) : State :=
  let s' := releaseBoth s 4
  noteAna (noteMode s' { s' with glb := { s'.glb with mode := .standby, drainReason := .none } })

/-- A drain has nothing left to flush, or has reached its limit: the shutdown of the controller, or the release of one group. -/
def drainOver (s : State) (limit : Bool) : State :=
  if s.glb.mode = .drain && s.glb.drainReason = .shutdown then
    if limit || ([0, 1].all fun g => !(grpOf s g).owned || groupDrained s g) then drainEnd s else s
  else releaseEnd (releaseEnd s 0 limit) 1 limit

/-- The end of a drain is the loss of the owned groups: an event of the same tick that stands before it in R48 discards it. -/
def execDrainShutdownComplete (m : Moment) (s : State) : Host.Outcome State Fault Refusal :=
  .next (if outranked m.rivals .group then s else drainOver s false)
def execDrainLimitExpiry (m : Moment) (s : State) : Host.Outcome State Fault Refusal :=
  .next (if outranked m.rivals .group then s else drainOver s true)

/-! ### Power failure (R67, R70, R71) -/

def execPwrfailLAsserted (m : Moment) (s : State) : Host.Outcome State Fault Refusal :=
  .next (if outranked m.rivals .pwrfail then s else powerFail s [])

/-- PWRFAIL_L has been released and stable for 100 ms: an internal cold reset (R71), unless an event of the same tick stands before it. -/
def pwrfailOver (s : State) (m : Moment) : State :=
  if s.glb.pwrfail && !s.glb.refclkLost && s.glb.mode != .held && !outranked m.rivals .reset then
    let s := internalReset s false 2 m
    { s with glb := { s.glb with pwrfail := false } }
  else s

def execPwrfailStableRelease (m : Moment) (s : State) : Host.Outcome State Fault Refusal := .next (pwrfailOver s m)

end Sys2Proof.Machine
end

