-- ==== Sys2Proof/Machine/Image.lean ====
section
/-! DEFINITION. Staging and activating an image (R101 to R105, R126), and SPDM over the management commands (R128). -/

namespace Sys2Proof.Machine

/-- The modes that serve image staging (R64, R101). -/
def stagingServed (s : State) : Bool := mgmtFull s || s.glb.mode == .safe


/-- The status that turns away an agent without the session: 0xC1 when another holds it, 0xC2 when there is none. -/
def sessionStop (s : State) (c : Cid) : Option Status :=
  match s.nor.session with
  | none => some (.vendor 0xC2)
  | some x => if x.owner = c.org then none else some (.vendor 0xC1)


/-- Open a session: the slot that is not running is erased, and the held header with it. -/
def openSession (s : State) (c : Cid) : State :=
  { s with nor := { s.nor with flash := eraseSlot s.nor.flash (otherSlot s), committed := false,
                               session := some { owner := c.org, header := List.replicate 64 0xFF, last := s.now } } }

/-- Bytes of a stage write: those of the header are held, all others programmed. A write past the slot's size but within 48 MiB has no
status of its own: it is programmed too, and the commit then rejects the image by its length (DESIGN CHOICE, log 62). -/
def stageBytes (s : State) (x : Session) (off : Nat) (data : List Byte) : State :=
  let held := data.take (64 - off)
  let rest := data.drop (64 - off)
  let hdr := if off < 64 then (x.header.take off ++ held ++ x.header.drop (off + held.length)).take 64 else x.header
  { s with nor := { s.nor with
      flash := memWriteBytes 0xFF s.nor.flash (2 ^ 26 * otherSlot s + max off 64) rest,
      session := some { x with header := hdr, last := s.now } } }

/-- Image Stage Write (R101). -/
def stageWrite (s : State) (c : Cid) (off len : Nat) (begin_ : Bool) (data : List Byte) : State :=
  let stop := if begin_ then (if s.nor.session.isSome then (match sessionStop s c with
    | some (.vendor 0xC1) => some (Status.vendor 0xC1)
    | _ => none) else none) else sessionStop s c
  match stop with
  | some st => reply s c st
  | none =>
    if off % 16 ≠ 0 || len % 16 ≠ 0 || len = 0 || decide (2 ^ 20 < len) || decide (50331648 < off + len) then reply s c .invalidField
    else
      let s := if begin_ then openSession s c else s
      match s.nor.session with
      | none => s
      | some x => reply (stageBytes s x off (data.take len)) c .success

def execImageStageWrite (c : Cid) (offset length : Nat) (begin_ : Bool) (data : List Byte) (s : State) :
    Host.Outcome State Fault Refusal :=
  .next (asManagerIn s c 2 (stagingServed s) fun s => stageWrite s c offset length begin_ data)

/-- The reject of a staged image: R86 with R87, R98, and a SEQ that is not newer (R101). In Safe no image runs (R114): SEQ is compared with
that of the last image that verified in this Boot, if one did (DESIGN CHOICE, log 62). -/
def stagedReject (s : State) (b : List Byte) (len : Nat) (v : ImageVerdict) : Option Reject :=
  firstReject [
    rejectIf (leAt b 8 4 != len) 0x0D03 0 8,
    verifyImage s ((slotSize s (otherSlot s)).getD 0) b v,
    checkConfig (sectionsOf b) (leAt b 32 1),
    rejectIf (leAt b 12 4 == 0xFFFFFFFF || (s.cfg.valid && decide (leAt b 12 4 ≤ leAt s.cfg.header 12 4))) 0x0D06 0 12]

/-- Image Stage Commit (R101, R103): the header is programmed last. -/
def stageCommit (s : State) (c : Cid) (len : Nat) (v : ImageVerdict) : State :=
  match sessionStop s c, s.nor.session with
  | some st, _ => reply s c st
  | none, none => s
  | none, some x =>
    let k := otherSlot s
    let b := x.header ++ memReadBytes 0xFF s.nor.flash (2 ^ 26 * k + 64) (min len 50331648 - 64)
    let s := checkImageSigs s b
    match stagedReject s b len v with
    | some r =>
      let s := { s with nor := { s.nor with session := some { x with last := s.now } } }
      reply (rejectEvent s k r) c (.vendor 0xC0) r.code
    | none =>
      let s := { s with nor := { s.nor with flash := memWriteBytes 0xFF s.nor.flash (2 ^ 26 * k) x.header, session := none,
                                            hdrA := s.nor.hdrA || k == 0, hdrB := s.nor.hdrB || k == 1, committed := true } }
      reply (writeEvent s { num := 0x0D60, inst := k, detail := [k] }) c .success

def execImageStageCommit (c : Cid) (imageLen : Nat) (v : ImageVerdict) (s : State) : Host.Outcome State Fault Refusal :=
  .next (asManagerIn s c 2 (stagingServed s) fun s => stageCommit s c imageLen v)

/-- The header of a slot as stored; zeros where it cannot be read. -/
def storedHeader (s : State) (k : Nat) : List Byte :=
  if (slotSize s k).isSome then memReadBytes 0xFF s.nor.flash (2 ^ 26 * k) 64 else List.replicate 64 0

/-- The header fields of a slot pass R81: it holds a valid image, as far as its header shows. -/
def slotValid (s : State) (k : Nat) : Bool :=
  match slotSize s k with
  | some n => (headerReject s n (storedHeader s k)).isNone
  | none => false

/-- Image Slot Info (R101). -/
def slotInfo (s : State) (c : Cid) : State :=
  reply s c .success (s.glb.bootSlot + 2 * bit (slotValid s 0) + 4 * bit (slotValid s 1) + 8 * bit s.nor.session.isSome)
    ((storedHeader s 0 ++ storedHeader s 1).map BitVec.toNat)

def execImageSlotInfo (c : Cid) (s : State) : Host.Outcome State Fault Refusal :=
  .next (asManagerIn s c 1 (stagingServed s) fun s => slotInfo s c)

/-- 600 s have passed without a write or commit: the session is abandoned (R102). -/
def execStagingSessionTimeout (s : State) : Host.Outcome State Fault Refusal := .next (abandonSession s)

/-! ### Activation (R104, R105) -/

/-- The reset-bound section types (R83). -/
def resetBound (ty : Nat) : Bool := [1, 2, 3, 4, 6, 0x0A, 0x0C, 0x0E, 0x0F, 0x10, 0x11, 0x14].contains ty

/-- The reset-bound sections of an image, by ascending type. -/
def boundOf (secs : List (Nat × Nat × List Byte)) : List (Nat × List Byte) :=
  (List.range 0x15).filterMap fun ty => if resetBound ty then (secOf secs ty).map fun b => (ty, b) else none

/-- The controller configured by the image in slot `k`. -/
def underImage (s : State) (k : Nat) : State := takeImage s (slotBytesOf s k)

/-- A live activation of the committed image is possible (R105, R127, R187, R217). -/
def livePossible (s : State) : Bool :=
  let n := underImage s (otherSlot s)
  s.nor.committed && s.cfg.valid && boundOf n.cfg.sections == boundOf s.cfg.sections
    && leAt n.cfg.header 32 1 == leAt s.cfg.header 32 1
    && decide (leAt s.cfg.header 16 2 ≤ leAt n.cfg.header 16 2)
    && srqCount n == srqCount s && par n 0x07 38 2 0 == par s 0x07 38 2 0 && tqMax n == tqMax s
    && decide (brNext s < 4095)

/-- What began before a live activation keeps its parameters of section 0x000B (R328). -/
def keepRules (s : State) : State :=
  let s := latchRules s
  let busy := s.xfm.rb0.active || s.xfm.rb1.active || !s.fed.rebuilds.isEmpty || s.cat.keys.any fun k => k.2.pass
  { s with xfm := { s.xfm with bgPct := if busy then some (bgPct s) else none } }

/-- Image Activate (R101): the checks common to both modes, then the mode's own action. -/
def activate (s : State) (c : Cid) (f : State → State) : State :=
  asManager s c 2 fun s =>
    if s.nor.session.isSome then reply s c (.vendor 0xC1)
    else match s.glb.mode with
      | .standby | .active => f s
      | _ => reply s c (.vendor 0xC4)

/-- MODE 0: Drain (activation) begins; an event that stands before it in R48 discards it. -/
def activateLive (s : State) (c : Cid) (m : Moment) : State :=
  if outranked m.rivals .drain then reply s c (.vendor 0xC4)
  else if !livePossible s then reply s c (.vendor 0xC3)
  else noteMode s { s with glb := { s.glb with mode := .drain, drainReason := .activation, drainReturn := s.glb.mode },
                           nor := { s.nor with activating := some c } }

def execImageActivateLive (c : Cid) (m : Moment) (s : State) : Host.Outcome State Fault Refusal :=
  .next (activate s c fun s => activateLive s c m)

/-- MODE 1: a warm reset (R104). -/
def activateWarm (s : State) (c : Cid) (m : Moment) : State :=
  if outranked m.rivals .reset then reply s c (.vendor 0xC4) else internalReset (reply s c .success) true 3 m

def execImageActivateWarm (c : Cid) (m : Moment) (s : State) : Host.Outcome State Fault Refusal :=
  .next (activate s c fun s => activateWarm s c m)

/-- No host command is past dispatch (R49, R271). -/
def swapReady (s : State) : Bool := (ctxFilter s fun c => c.cmd.isSome && c.run != .held).isEmpty

/-- The drain ends: the mode held before it, and the held commands go on (R47, R49). -/
def leaveActivation (s : State) (c : Option Cid) (st : Status) : State :=
  let s' := noteOwned { s with glb := { s.glb with mode := s.glb.drainReturn, drainReason := .none }, nor := { s.nor with activating := none } }
  let s' := noteMode s s'
  let s' := match c with
    | some c => reply s' c st
    | none => s'
  releaseHolds s'

/-- The activation record of the swap (R121, R126): of the image that now runs, with the SEQ and slot of the one it replaces. -/
def swapRecord (s old : State) (holdMs : Nat) : BootRec :=
  { bootRecOf s 2 2 with bootMs := min holdMs 65535, priorSeq := leAt old.cfg.header 12 4, priorSlot := old.glb.bootSlot }

/-- The swap (R48, R105, R107, R118, R126): the new image runs, unless the slot no longer holds a committed image or its record cannot be
written. A fatal fault or a reset of the same tick wins over it. -/
def imageSwap (s : State) (recordOk : Bool) (holdMs : Nat) (m : Moment) : State :=
  if s.glb.mode ≠ .drain || s.glb.drainReason ≠ .activation || !swapReady s || outranked m.rivals .drain then s
  else if !s.nor.committed || s.nor.session.isSome then leaveActivation s s.nor.activating (.vendor 0xC3)
  else
    let i := brNext s
    let k := otherSlot s
    let n := underImage (keepRules s) k
    let n := measureImage { n with glb := { n.glb with bootSlot := k }, nor := { n.nor with committed := false } }
    let r := chainRec s (swapRecord n s holdMs) i
    if !s.coc.formatted || decide (4095 ≤ i) then leaveActivation s s.nor.activating (.vendor 0xC3)
    else if !recordOk then leaveActivation (setBr s i .torn) s.nor.activating (.vendor 0xC3)
    else
      let n := setMeas (setBr n i (.record r)) 8 (Config.sha384 (bootBody r))
      let n := writeEvent (loadLive n s) { num := 0x0D61, inst := k, detail := [k] }
      leaveActivation n s.nor.activating .success

def execImageSwap (recordOk : Bool) (holdMs : Nat) (m : Moment) (s : State) : Host.Outcome State Fault Refusal :=
  .next (imageSwap s recordOk holdMs m)

/-! ### SPDM Exchange (R128) -/

/-- Who may send SPDM Exchange: PF0 and the management associations, with or without a role. -/
def spdmSender (s : State) (c : Cid) : Bool :=
  match c.org with
  | .pf0 | .mctp _ => true
  | .assoc a => (assocOf s a).any fun x => x.mgmt
  | _ => false

/-- SPDM Exchange: the response as data out, its length, which the spec does not state, in DW0. -/
def spdmExchange (s : State) (c : Cid) (len : Nat) (req : SpdmReq) : State :=
  if !spdmServed s then s
  else if !spdmSender s c then reply s c .invalidOpcode
  else if 8192 < len then reply s c .invalidField
  else
    let (s, r, fs) := spdmServe s c.org req
    let (n, s) := takeFree s
    reply (emit s (.spdm c.org r fs)) c .success n fs

def execSpdmExchange (c : Cid) (length : Nat) (req : SpdmReq) (s : State) : Host.Outcome State Fault Refusal :=
  .next (spdmExchange s c length req)

end Sys2Proof.Machine
end

