-- ==== Sys2Proof/Machine/Service.lean ====
section
/-! DEFINITION. The service port: its functions, their DMA, resets, interrupts and power states, and MCTP (chapter 17). -/

namespace Sys2Proof.Machine

/-- Parameters of section 0x0011 (R484). -/
def pf1On (s : State) : Bool := bitAt (par s 0x11 0 1 2) 0
/-- MCTP_ENABLE. -/
def mctpOn (s : State) : Bool := bitAt (par s 0x11 0 1 2) 1
/-- TOTAL_VFS: 0 without PF1. -/
def totalVfs (s : State) : Nat := if pf1On s then par s 0x11 1 1 64 else 0

/-- The functions that exist: PF0, PF1 and its VFs (R475, R484). -/
def fnExists (s : State) (n : Nat) : Bool := n == 0 || (n == 1 && pf1On s) || (decide (2 ≤ n) && decide (n ≤ totalVfs s + 1))

/-- The functions that are there now: of the VFs those in force (R486). -/
def fnLive (s : State) (n : Nat) : Bool := fnExists s n && decide (n ≤ max 1 (s.svc.vfs + 1))

/-- A row about function `n`: 0 PF0, 1 PF1, n + 1 VF n. -/
def onFn (n : Nat) (s : State) (f : State → State) : Host.Outcome State Fault Refusal :=
  if n < 66 then .next (f s) else .fault (.noSuchInstance "service-port function")

/-! ### What an FLR does to one function (R480) -/

/-- The SPDM contexts of the service port's endpoints close: their function is reset, or they are disconnected (R131, R483). -/
def closePortCtxs (s : State) : State :=
  { s with trs := { s.trs with spdm := s.trs.spdm.filter fun c => match c.ep with
      | .mctp _ | .pf0 => false
      | _ => true } }

/-- Steps 1 to 3 for one function: its doorbells and fetches stop, its instar is bumped, its commands are withdrawn and their completions
dropped. -/
def flrOne (s : State) (n : Nat) : State :=
  let f := fnOf s n
  let gone := (vcCommands s (65536 + n)).length
  let s := setFn s n { f with flr := true, bme := false, rdy := false, instar := bumpInstar f.instar s.now (ticksMs 1) }
  let s := assocEndBy s (65536 + n) false withdrawCtx
  let s := setFn s n { fnOf s n with holding := [], hold := false, dma := [], fetching := [] }
  let s := writeEvent (rcAdd s 0xD0010 0 1) { num := 0x0E03, inst := n, instar := (fnOf s n).instar.val.toNat, detail := [n, gone] }
  if n = 0 then
    let s := closePortCtxs { s with svc := { s.svc with mctpAsm := false } }
    match s.nor.session with
    | some x => if x.owner = .pf0 then abandonSession s else s
    | none => s
  else s

/-! ### Bus Master Enable (R479) and the power states (R482) -/

/-- What waited goes out in order, once the function may send again. -/
def flushHolding (s : State) (n : Nat) : State :=
  let f := fnOf s n
  if f.bme && !f.d3hot then f.holding.foldl emit (setFn s n { f with holding := [] }) else s

/-- The VFs in force: those that cease are reset (R480, R486). -/
def setVfs (s : State) (k : Nat) : State :=
  let s' := (List.range (s.svc.vfs - k)).foldl (fun s i => flrOne s (k + i + 2)) s
  { s' with svc := { s'.svc with vfs := k } }

/-- The configuration controls of a function take their values (R481): a Function Mask that is cleared sends one message for each pending vector
that is not masked itself, and NumVFs of PF1 keeps to TOTAL_VFS (R484). The rows that reach the block with a configuration write carry
them (DESIGN CHOICE, log 70). -/
def setFnCfg (s : State) (n : Nat) (c : FnCfg) : State :=
  let f := fnOf s n
  let open_ := if f.fnMask && !c.fnMask then f.pending.filter fun v => !f.masked.contains v else []
  let s := setFn s n { f with msixEn := c.msixEn, fnMask := c.fnMask, pending := f.pending.filter fun v => !open_.contains v }
  let s := if n = 1 then setVfs s (min c.vfs (totalVfs s)) else s
  open_.foldl (fun s v => raiseVec s n v) s

/-- Bus Master Enable is cleared: with DMA outstanding the hold begins (R479). -/
def bmeCleared (s : State) (n : Nat) (c : FnCfg) : State :=
  let f := fnOf s n
  let out := !(f.dma.isEmpty && f.fetching.isEmpty)
  let s := if !f.bme then s
    else
      let s := setFn s n { f with bme := false, hold := out }
      if out then writeEvent s { num := 0x0E04, inst := n, instar := f.instar.val.toNat, detail := [n] } else s
  setFnCfg s n c

/-- Bus Master Enable is set. -/
def bmeSetAgain (s : State) (n : Nat) (c : FnCfg) : State :=
  setFnCfg (flushHolding (setFn s n { fnOf s n with bme := true, hold := false }) n) n c

/-- BME_HOLD_MS has passed with Bus Master Enable still clear: the completions are dropped, and the virtual controller is reset (R232). -/
def bmeHoldOver (s : State) (n : Nat) : State :=
  let f := fnOf s n
  if f.bme || !f.hold then s
  else
    let s := vcResetBy s (65536 + n) false abortCtx
    let s := setFn s n { fnOf s n with holding := [], hold := false, cfs := true }
    writeEvent s { num := 0x0E05, inst := n, instar := f.instar.val.toNat, detail := [n] }

/-- A row about a function that exists, out of its FLR. -/
def onLiveFn (n : Nat) (s : State) (f : State → State) : Host.Outcome State Fault Refusal :=
  onFn n s fun s => if fnLive s n && !(fnOf s n).flr && !s.svc.perst then f s else s

def execBmeClear (fn : Nat) (cfg : FnCfg) (s : State) : Host.Outcome State Fault Refusal := onLiveFn fn s fun s => bmeCleared s fn cfg
def execBmeSet (fn : Nat) (cfg : FnCfg) (s : State) : Host.Outcome State Fault Refusal := onLiveFn fn s fun s => bmeSetAgain s fn cfg
def execBmeHoldExpiry (fn : Nat) (s : State) : Host.Outcome State Fault Refusal := onFn fn s fun s => bmeHoldOver s fn
def execD3hotEntry (fn : Nat) (pmeEn : Bool) (s : State) : Host.Outcome State Fault Refusal :=
  onLiveFn fn s fun s => setFn s fn { fnOf s fn with d3hot := true, pmeEn := pmeEn }
def execD0Return (fn : Nat) (pmeEn : Bool) (s : State) : Host.Outcome State Fault Refusal :=
  onLiveFn fn s fun s => flushHolding (setFn s fn { fnOf s fn with d3hot := false, pmeEn := pmeEn }) fn

/-- A completion of a DMA read: dropped under an old instar, discarded with Bus Master Enable clear or UR or CA status, else used; the
data of a used one comes with the transfer it belongs to (R479, R480). -/
def dmaCompletion (s : State) (n tag : Nat) (what : DmaRead) (urca : Bool) : State :=
  let f := fnOf s n
  if stale f.instar tag then
    let (s, i) := discardStale (rcAdd s 0xD0014 0 1) 0x0E 0x0E06 n f.instar
    setFn s n { fnOf s n with instar := i }
  else match what with
    | .entries q => setFn s n { f with fetching := f.fetching.filter (· != q) }
    | .data cmd => if !f.bme || urca then hostTransfer s cmd false [] [] else s

def execSvcDmaReadCompletion (fn tag : Nat) (what : DmaRead) (urca : Bool) (s : State) : Host.Outcome State Fault Refusal :=
  onFn fn s fun s => atPoint s 7 fn (.dma fn tag what urca) fun s => dmaCompletion s fn tag what urca

/-! ### Function-level reset (R480) -/

/-- An FLR: that of PF1 also resets every VF. -/
def flr (s : State) (n : Nat) : State :=
  if !fnLive s n then s
  else if n = 1 then setVfs (flrOne s 1) 0
  else flrOne s n

/-- Step 4: everything but the instar and the sticky PME_En returns to its reset value. -/
def flrDone (s : State) (n : Nat) : State :=
  let f := fnOf s n
  if f.flr then setFn s n { instar := f.instar, pmeEn := f.pmeEn } else s

def execFlrInitiate (fn : Nat) (s : State) : Host.Outcome State Fault Refusal := onFn fn s fun s => flr s fn
def execFlrComplete (fn : Nat) (s : State) : Host.Outcome State Fault Refusal := onFn fn s fun s => flrDone s fn

/-- The registers of the SVC block return to their reset values (R53). -/
def svcRegsClear (s : State) : State :=
  let keep {α : Type} (t : Tbl α) : Tbl α := t.filter fun x => x.1 % 2 ^ 20 / 2 ^ 16 != 0xD
  { s with regs := { s.regs with rw := keep s.regs.rw, rc := keep s.regs.rc, w1c := keep s.regs.w1c } }

/-- The link is lost. -/
def svcLinkLost (s : State) : State :=
  if s.svc.linkUp then writeEvent { closePortCtxs s with svc := { s.svc with linkUp := false, gts := 0, width := 0 } } { num := 0x0E02, inst := 0, detail := [0] }
  else s

/-- SVC_PERST_L or a hot reset: an FLR of every function (R52, R53, R480). -/
def svcReset (s : State) (pin : Bool) : State :=
  let s := svcRegsClear s
  let s := svcLinkLost (flr (flr s 0) 1)
  if pin then { s with svc := { s.svc with perst := true } } else s

def execSvcPerstAssert (pin : Bool) (s : State) : Host.Outcome State Fault Refusal := .next (svcReset s pin)

/-- SVC_PERST_L is released, and SVC_WAKE_L with it (R482). -/
def perstReleased (s : State) : State :=
  let s' := { s with svc := { s.svc with perst := false, wake := false } }
  if s.svc.wake then writeEvent s' { num := 0x0E07, inst := s.svc.wakeFn, detail := [s.svc.wakeFn] } else s'

def execSvcPerstRelease (s : State) : Host.Outcome State Fault Refusal := .next (perstReleased s)

/-- The port may train: SVC_PERST_L is released and step 2 of start-up has ended (R474). -/
def svcTrains (s : State) : Bool :=
  !s.svc.perst && (match s.glb.mode with
    | .held => false
    | .boot => decide (2 < s.glb.bootStep)
    | _ => true)

/-- MAX_GTS (R484). -/
def maxGts (s : State) : Nat := field (par s 0x11 8 1 5) 0 3

/-- The link trains, at a speed up to MAX_GTS and a width up to 8 (R474, R484, R485). -/
def svcLinkTrained (s : State) (gts width : Nat) : State :=
  if !svcTrains s || gts = 0 || maxGts s < gts || !([1, 2, 4, 8].contains width) then s
  else writeEvent { s with svc := { s.svc with linkUp := true, gts := gts, width := width } } { num := 0x0E01, inst := 0, detail := [0, gts, width] }

def execSvcLinkUp (gts width : Nat) (s : State) : Host.Outcome State Fault Refusal := .next (svcLinkTrained s gts width)
def execSvcLinkDown (s : State) : Host.Outcome State Fault Refusal := .next (svcLinkLost s)

/-! ### MSI-X (R481) -/

/-- A vector is unmasked: one message when its pending bit is set or an event lands in the same cycle. -/
def unmask (s : State) (n vec : Nat) (newEvent : Bool) : State :=
  let f := fnOf s n
  let s := setFn s n { f with masked := f.masked.filter (· != vec),
                              pending := if f.fnMask then f.pending else f.pending.filter (· != vec) }
  if newEvent || (f.pending.contains vec && !f.fnMask) then raiseVec s n vec else s

def execMsixUnmask (fn vec : Nat) (newEvent : Bool) (s : State) : Host.Outcome State Fault Refusal :=
  onFn fn s fun s => unmask s fn vec newEvent

/-! ### Controller registers (R476, R477) -/

/-- Where the MSI-X table of a function lies, and its vectors (R475, R481). -/
def msixTable (n : Nat) : Nat × Nat := if n = 0 then (0x2000, 4) else if n = 1 then (0x4000, 65) else (0x2000, 17)

/-- Entries of a queue may be at most this many (R476, R477). -/
def fnMaxQd (s : State) (n : Nat) : Nat := if n = 0 then 256 else par s 0x11 4 2 1024
/-- Queue pairs of a function, the admin queue among them (R476, R477). -/
def fnQueues (s : State) (n : Nat) : Nat := 1 + if n = 0 then 0 else if n = 1 then par s 0x11 2 1 64 else par s 0x11 3 1 16

/-- The VSS a function of this side is bound to (R478). -/
def fnVss (s : State) (n : Nat) : Nat := tget s.cat.binds 0 (n + 128 * bit s.glb.straps.tdmSide)

/-- CC.EN is set: PF0's management queue is ready; an NVMe function becomes a virtual controller of its VSS, when that is Active (R477). -/
def fnEnable (s : State) (n : Nat) : State :=
  if n = 0 then setFn s 0 { fnOf s 0 with rdy := mgmtFull s || s.glb.mode == .safe || s.glb.mode == .boot }
  else match vssOf s (fnVss s n) with
    | some r =>
      if fnVss s n ≠ 0 && r.state = .active && dataRuns s then
        setFn (setAssoc s (65536 + n) (some { vss := fnVss s n, qp := 65536, cc := (fnOf s n).cc, rdy := true, maxQd := maxQd s,
                                              maxIo := maxIoQueues s, icd := icdKib s })) n
          { fnOf s n with rdy := true }
      else s
    | none => s

/-- CC.EN is cleared: a controller reset (R232). -/
def fnDisable (s : State) (n : Nat) : State :=
  let s := assocEndBy s (65536 + n) true abortCtx
  setFn s n { fnOf s n with rdy := false, cfs := false, shst := 0, bells := [], fetching := [] }

/-- CC is written. -/
def ccWrite (s : State) (n v : Nat) : State :=
  let f := fnOf s n
  let was := bitAt f.cc 0
  let s := setFn s n { f with cc := v, shst := if field v 14 2 = 0 then 0 else 2 }
  if bitAt v 0 && !was then fnEnable s n else if !bitAt v 0 && was then fnDisable s n else s

/-- A doorbell is written: the tail of a submission queue starts a fetch, the head of a completion queue is noted. -/
def bellWrite (s : State) (n i v : Nat) : State :=
  let f := fnOf s n
  if !f.rdy || 2 * fnQueues s n ≤ i || fnMaxQd s n ≤ v then s
  else
    let moved := i % 2 == 0 && tget f.bells 0 i != v
    setFn s n { f with bells := tput f.bells 0 i v,
                       fetching := if moved && fnDmaOn s n && !f.fetching.contains (i / 2) then f.fetching ++ [i / 2] else f.fetching }

/-- A write to the vector control word of an MSI-X table entry: its mask bit. -/
def vectorControl (s : State) (n vec v : Nat) : State :=
  let f := fnOf s n
  if bitAt v 0 then setFn s n { f with masked := if f.masked.contains vec then f.masked else f.masked ++ [vec] } else unmask s n vec false

/-- A write to the controller registers, the doorbells or the MSI-X table of a function; nothing while it is in an FLR, in D3hot, or
under SVC_PERST_L. -/
def fnWrite (s : State) (n off v : Nat) : State :=
  let f := fnOf s n
  let (tab, vecs) := msixTable n
  if !fnLive s n || f.flr || f.d3hot || s.svc.perst || s.glb.mode == .held then s
  else if 0x1000 ≤ off && off < 0x2000 then bellWrite s n ((off - 0x1000) / 4) v
  else if tab ≤ off && off < tab + 16 * vecs then
    (if (off - tab) % 16 = 12 then vectorControl s n ((off - tab) / 16) v else s)
  else match off with
    | 0x14 => ccWrite s n v
    | 0x24 => if bitAt f.cc 0 then s else setFn s n { f with aqa := v }
    | 0x28 => if bitAt f.cc 0 then s else setFn s n { f with asq := f.asq / 2 ^ 32 * 2 ^ 32 + v }
    | 0x2C => if bitAt f.cc 0 then s else setFn s n { f with asq := f.asq % 2 ^ 32 + v * 2 ^ 32 }
    | 0x30 => if bitAt f.cc 0 then s else setFn s n { f with acq := f.acq / 2 ^ 32 * 2 ^ 32 + v }
    | 0x34 => if bitAt f.cc 0 then s else setFn s n { f with acq := f.acq % 2 ^ 32 + v * 2 ^ 32 }
    | _ => s

def execSvcNvmeRegisterWrite (fn off : Nat) (val : Word) (s : State) : Host.Outcome State Fault Refusal :=
  onFn fn s fun s => fnWrite s fn off val.toNat

/-! ### Service Function Bind (R478) -/

/-- The binding of a function of this side, kept in the catalog. -/
def fnBind (s : State) (c : Cid) (cdw10 : Nat) : State :=
  let n := field cdw10 0 7
  let v := field cdw10 16 12
  let live := v == 0 || (vssOf s v).any fun r => decide (r.state = VssState.active)
  if !live || n = 0 || !fnExists s n then reply s c (.vendor 0xE2)
  else if bitAt (fnOf s n).cc 0 then reply s c (.vendor 0xE3)
  else if v ≠ 0 && fnVss s n ≠ v && ((vssOf s v).elim 0 fun r => r.maxAssoc) ≤ tenantAssocs s v then reply s c (.vendor 0xE0)
  else catCommand s c [.bind s.glb.straps.tdmSide n v] 0 7 n

def execServiceFunctionBind (c : Cid) (cdw10 : Nat) (s : State) : Host.Outcome State Fault Refusal :=
  .next (asManager s c 0 fun s => fnBind s c cdw10)

/-! ### MCTP (R483) -/

/-- MCTP is served: in every mode in which the port answers. -/
def mctpServed (s : State) : Bool := mctpOn s && svcTrains s

/-- An MCTP control message; a command that is not served is answered with the unsupported completion code. -/
def mctpControlMsg (s : State) (cmd arg : Nat) : State :=
  if !mctpServed s then s
  else match cmd with
    | 1 => emit { s with svc := { s.svc with eid := arg % 256 } } (.mctp 0 [1, arg % 256])
    | 2 => emit s (.mctp 0 [2, s.svc.eid])
    | 4 =>
      let (v, s) := takeFree s
      emit s (.mctp 0 [4, v])
    | 5 => emit s (.mctp 0 [5, 0x00, 0x05, 0x7E])
    | n => emit s (.mctp 0 [n, 0x100 + 5])

def execMctpControl (cmd arg : Nat) (s : State) : Host.Outcome State Fault Refusal := .next (mctpControlMsg s cmd arg)

/-- An SPDM message of at most 8,192 bytes. -/
def execMctpSpdm (eid length : Nat) (req : SpdmReq) (s : State) : Host.Outcome State Fault Refusal :=
  .next (if mctpServed s && decide (length ≤ 8192) then spdmRequest s (.mctp eid) req else s)

end Sys2Proof.Machine
end

