-- ==== Sys2Proof/Machine/Electrical.lean ====
section
/-! DEFINITION. Temperature, supply monitors, the reference clock and its PLLs, JTAG and the management port's link (chapters 05, 19, 20). -/

namespace Sys2Proof.Machine

/-! ### Temperature (R518, R541) -/

/-- The number of a die in events and details: 0 logic, 1 bay (R65). -/
def dieNo (d : Die) : Nat :=
  match d with
  | .logic => 0
  | .bay => 1

/-- The warning level of a die in °C (R540). -/
def warnLevel (d : Die) : Nat :=
  match d with
  | .logic => 105
  | .bay => 125

/-- A sensor reading is taken into GBL_TEMP (R518). -/
def noteTemp (s : State) (d : Die) (t : Nat) : State :=
  match d with
  | .logic => { s with glb := { s.glb with tempLogic := BitVec.ofNat 8 t,
                                           tempMax := BitVec.ofNat 8 (max s.glb.tempMax.toNat (t % 256)) } }
  | .bay => { s with glb := { s.glb with tempBay := BitVec.ofNat 8 t } }

/-- TEMP_HIGH has been written for a die and not been re-armed. -/
def warned (s : State) (d : Die) : Bool :=
  match d with
  | .logic => s.glb.warnLogic
  | .bay => s.glb.warnBay

/-- Note that TEMP_HIGH has been written for a die. -/
def setWarned (s : State) (d : Die) : State :=
  match d with
  | .logic => { s with glb := { s.glb with warnLogic := true } }
  | .bay => { s with glb := { s.glb with warnBay := true } }

/-- A die has been above its warning level for 1 s: TEMP_HIGH, again only when `rearmed` says that the die has since stayed 5 °C below it for
10 s (R541). -/
def tempWarning (s : State) (d : Die) (t : Nat) (rearmed : Bool) : State :=
  if s.glb.mode = .held then s
  else
    let s := noteTemp s d t
    if t ≤ warnLevel d || (warned s d && !rearmed) then s
    else writeEvent (setWarned s d) { num := 0x0C43, inst := dieNo d, detail := [dieNo d, t] }

def execTempWarning (d : Die) (t : Nat) (rearmed : Bool) (s : State) : Host.Outcome State Fault Refusal := .next (tempWarning s d t rearmed)

/-- The shutdown limit is a fatal fault with cause 0x0C (R47, R65, R541). -/
def execTempShutdownLimit (d : Die) (m : Moment) (s : State) : Host.Outcome State Fault Refusal :=
  .next (if outranked m.rivals .fatal then s else fatal s 0x0C (dieNo d))

/-- The logic die trips: Held as on PWRON_L, until PWRON_L has been asserted and released (R541). -/
def logicTrip (s : State) : State :=
  if s.glb.mode = .held then s
  else
    let s := toHeld s
    { s with glb := { s.glb with tripHeld := true, pwrfail := false, refclkLost := false } }

def execLogicHardwareTrip (s : State) : Host.Outcome State Fault Refusal := .next (logicTrip s)

/-! ### Supplies and clocks (R518, R527, R535) -/

/-- A monitored rail is low: the actions of PWRFAIL_L, and the event names the rail (R527). -/
def execRailMonitorTrip (rail : Nat) (m : Moment) (s : State) : Host.Outcome State Fault Refusal :=
  if 4 ≤ rail then .fault (.noSuchInstance "rail")
  else .next (if outranked m.rivals .pwrfail then s else powerFail s [rail])

/-- REFCLK is lost while PWRON_L is released (R535), which acts as PWRFAIL_L, so that only PWRON_L stands before it in R48. -/
def refclkLoss (s : State) (plls : BitVec 4) (m : Moment) : State :=
  if s.glb.mode = .held || outranked m.rivals .pwrfail then s
  else
    let s := powerFail s []
    { s with glb := { s.glb with clkLost := s.glb.clkLost ||| plls, refclkLost := true } }

def execRefclkLoss (plls : BitVec 4) (m : Moment) (s : State) : Host.Outcome State Fault Refusal := .next (refclkLoss s plls m)

/-- REFCLK has been good for 100 ms: an internal cold reset (R535), unless an event of the same tick stands before it. -/
def refclkBack (s : State) (m : Moment) : State :=
  if s.glb.refclkLost && s.glb.mode != .held && !outranked m.rivals .reset then
    let s := internalReset s false 2 m
    { s with glb := { s.glb with refclkLost := false, pwrfail := false } }
  else s

def execRefclkRestored (m : Moment) (s : State) : Host.Outcome State Fault Refusal := .next (refclkBack s m)

/-- The links of a SerDes PLL go down (R407, R456, R518). -/
def pllLinksDown (s : State) (pll : Nat) : State :=
  match pll with
  | 0 => (List.range 32).foldl linkGoesDown s
  | 1 => (List.range 64).foldl (fun s b => spkContain s b 0) s
  | 2 => tandemDown s 2
  | _ => svcLinkLost s

/-- A SerDes PLL loses lock: LOST is set and its links go down and retrain (R518); the PLL locks again before they do (DESIGN CHOICE, log 31). -/
def pllLost (s : State) (pll : Nat) : State :=
  if s.glb.mode = .held then s
  else pllLinksDown { s with glb := { s.glb with clkLost := s.glb.clkLost ||| BitVec.ofNat 4 (2 ^ pll) } } pll

def execPllLockLost (pll : Nat) (s : State) : Host.Outcome State Fault Refusal :=
  if pll < 4 then .next (pllLost s pll) else .fault (.noSuchInstance "PLL")

/-! ### JTAG (R539) -/

/-- GBL_ID: part 0x6400, stepping 0xA1, grade 0xC (R518). -/
def gblId : Nat := 0x6400A1C0

/-- The scan of an instruction whose data the spec does not state: a free value (log 4). -/
def jtagScan (s : State) : State :=
  let (v, s) := takeFree s
  emit s (.jtag (some v))

/-- EXTEST and CLAMP are refused while PWRON_L is released. -/
def jtagDrive (s : State) : State := if s.glb.pwronL then jtagScan s else emit s (.jtag none)

def execJtagBypass (s : State) : Host.Outcome State Fault Refusal := .next (jtagScan s)
def execJtagIdcode (s : State) : Host.Outcome State Fault Refusal := .next (emit s (.jtag (some gblId)))
def execJtagSamplePreload (s : State) : Host.Outcome State Fault Refusal := .next (jtagScan s)
def execJtagExtest (s : State) : Host.Outcome State Fault Refusal := .next (jtagDrive s)
def execJtagClamp (s : State) : Host.Outcome State Fault Refusal := .next (jtagDrive s)

/-! ### The management port (R152) -/

/-- The port is up in every mode from Boot on. -/
def mgmtUp (s : State) : State :=
  if s.glb.mode = .held || par s 0x06 128 1 2 = 0 then s else { s with prt := { s.prt with mgmtUp := true } }

def execMgmtPortLinkUp (s : State) : Host.Outcome State Fault Refusal := .next (mgmtUp s)
def execMgmtPortLinkDown (s : State) : Host.Outcome State Fault Refusal := .next { s with prt := { s.prt with mgmtUp := false } }

end Sys2Proof.Machine
end

