-- ==== Sys2Proof/Machine/Records.lean ====
section
/-! DEFINITION. The event recorder's reads and drains, the cyclometer's controls, the DRAM scrubber and the flip mask, the field lock and
the perturbation block's registers (chapter 18). -/

namespace Sys2Proof.Machine

/-- Register writes act in the modes with management access beyond reads (R45, R64). -/
def regsWritable (s : State) : Bool := authMode s

/-! ### The queue and the summary (R499, R500) -/

/-- Write the oldest queued record into the ring. -/
def drainOne (s : State) : State :=
  match s.evr.queue with
  | [] => s
  | r :: rest => freezeOn (ringPut { s with evr := { s.evr with queue := rest } } { r with late := true }) r.num

/-- The ring can be written again: the queued records in order, then one record for the drops (R499). A freeze that a record causes may
queue one record more, which is written last. -/
def drainQueue (s : State) : State :=
  if !ringWritable s || !s.evr.scanned then s
  else
    let s := (List.range (s.evr.queue.length + 1)).foldl (fun s _ => drainOne s) s
    if s.evr.lostNew = 0 then s
    else writeEvent { s with evr := { s.evr with lostNew := 0 } } { num := 0x0C31, detail := [s.evr.lostNew] }

def execEventQueueDrain (s : State) : Host.Outcome State Fault Refusal := .next (drainQueue s)

/-- The items of a summary: a number and its count each; past 26 numbers the last item is number 0 with the sum of the rest. -/
def suppItems (t : Tbl Nat) : List Nat :=
  let item := fun (x : Nat × Nat) => x.1 + 2 ^ 16 * (x.2 % 2 ^ 48)
  if t.length ≤ 26 then t.map item
  else (t.take 25).map item ++ [item (0, ((t.drop 25).map Prod.snd).sum)]

/-- One EVR_SUPPRESSED record for a second in which anything was suppressed (R500). -/
def suppSummary (s : State) : State :=
  if s.evr.supp.isEmpty then s
  else writeEvent { s with evr := { s.evr with supp := [] } } { num := 0x0C30, detail := suppItems s.evr.supp }

def execEvrSuppressedSummary (s : State) : Host.Outcome State Fault Refusal := .next (suppSummary s)

/-! ### Reading records (R497, R501, R502) -/

/-- Bytes 0 to 251 of a record (R497). -/
def evBody (r : EvRec) : List Nat :=
  leBytes 8 r.seq ++ leBytes 2 r.num ++ [r.cls % 256, bit r.late] ++ leBytes 4 r.cycles ++ leBytes 8 r.timebase ++
  leBytes 8 (r.odometer % 2 ^ 40) ++ leBytes 2 r.inst ++ leBytes 2 r.instar ++ leBytes 2 r.vss ++ [0, 0] ++
  ((List.range 26).flatMap fun i => leBytes 8 ((r.detail[i]?).getD 0)) ++ [0, 0, 0, 0]

/-- The 256 bytes of a record (R497). -/
def evBytes (r : EvRec) : List Nat := evBody r ++ leBytes 4 (crc32c (evBody r))

/-- The state of a sequence (R501), and its record when it is readable. -/
def seqState (s : State) (q : Nat) : Nat × Option EvRec :=
  if s.evr.head ≤ q then (0, none)
  else match s.evr.queue.find? fun r => r.seq == q with
    | some r => (1, some r)
    | none =>
      if q + 262144 ≤ s.evr.head then (2, none)
      else if s.evr.lost.contains q then (5, none)
      else match tget s.evr.ring .empty (q % 262144) with
        | .ok r => if r.seq = q then (1, some r) else if q < r.seq then (2, none) else (3, none)
        | .bad x => if q < x then (2, none) else (4, none)
        | .empty | .torn _ => (3, none)

/-- What Event Read returns of a sequence: its record, or zeros but for SEQ (R502). -/
def readBytes (s : State) (q : Nat) : List Nat :=
  match (seqState s q).2 with
  | some r => evBytes r
  | none => leBytes 8 q ++ List.replicate 248 0

/-- The sequences from `first` to the head that are not overwritten. -/
def liveSeqs (s : State) (first : Nat) : List Nat :=
  let lo := max first (s.evr.head - 262144)
  ((List.range (s.evr.head - lo)).map fun i => lo + i).filter fun q => (seqState s q).1 != 2

/-- Event Read (R502). -/
def eventRead (s : State) (c : Cid) (first count : Nat) : State :=
  if count = 0 || 4096 < count then reply s c .invalidField
  else
    let qs := liveSeqs s first
    let skipped := match qs with
      | q :: _ => q - first
      | [] => s.evr.head - first
    let got := qs.take count
    reply s c .success (got.length + 65536 * min 0xFFFF skipped) (got.flatMap (readBytes s))

def execEventRead (c : Cid) (cdw10 cdw11 cdw12 : Nat) (s : State) : Host.Outcome State Fault Refusal :=
  .next (asManagerIn s c 1 (authMode s) fun s => eventRead s c (cdw10 % 2 ^ 32 + 2 ^ 32 * (cdw11 % 2 ^ 32)) (cdw12 % 2 ^ 32))

/-- The sequence EVR_CURSOR selects. -/
def evrCursor (s : State) : Nat := rwGet s 0x18008 0 + 2 ^ 32 * rwGet s 0x1800C 0

/-- EVR_STATUS for a sequence (R516). -/
def evrStatus (s : State) (q : Nat) : Nat := (seqState s q).1 + 8 * bit (s.evr.queue.any fun r => r.seq == q)

/-- The 64 words of the window for a sequence: zeros unless the record bears it (R501). -/
def evrWords (s : State) (q : Nat) : List Nat :=
  match (seqState s q).2 with
  | some r => (List.range 64).map fun i => leNat (((evBytes r).drop (4 * i) |>.take 4).map (BitVec.ofNat 8 ·))
  | none => List.replicate 64 0

/-- A read of EVR_WINDOW word 0 on a path: state and words 1 to 63 are snapshot (R501). -/
def evrWindowRead (s : State) (p : Path) (q : Nat) (atomic : Bool) : Nat × State :=
  let ws := evrWords s q
  (ws.headD 0, snapWords (snapWords s p 0x18010 q atomic [evrStatus s q]) p 0x18104 q atomic (ws.drop 1))

def execEvrWindowRead (p : Path) (s : State) : Host.Outcome State Fault Refusal :=
  .next (answerRead s (evrWindowRead s p (evrCursor s) false))

/-! ### The cyclometer's controls (R507, R508, R516) -/

/-- Resume counting: only a write of FREEZE as 0 does (R508). -/
def cycResume (s : State) : State := { s with cyc := { s.cyc with frozen := false, cause := 0 } }

/-- Zero every counter and OVF (R516). -/
def cycClear (s : State) : State :=
  { s with cyc := { s.cyc with ctrs := s.cyc.ctrs.filterMap fun x =>
      let c := { x.2 with value := 0, ovf := false }
      if c = {} then none else some (x.1, c) } }

/-- A write of CYC_CTL (R516): the pin and event enables, CLEAR_ALL, then FREEZE. -/
def cycCtlWrite (s : State) (v : Nat) : State :=
  if !regsWritable s then s
  else
    let s := { s with cyc := { s.cyc with onPin := bitAt v 2, onEvent := bitAt v 3, freezeEvent := field v 16 16 } }
    let s := if bitAt v 1 then cycClear s else s
    if bitAt v 0 then freezeNow s 1 else cycResume s

def execCycFreeze (v : Word) (s : State) : Host.Outcome State Fault Refusal := .next (cycCtlWrite s v.toNat)
def execCycResume (v : Word) (s : State) : Host.Outcome State Fault Refusal := .next (cycCtlWrite s v.toNat)
def execCycClearAll (v : Word) (s : State) : Host.Outcome State Fault Refusal := .next (cycCtlWrite s v.toNat)

/-- A claimant holds a pin (R94, R95). -/
def pinClaimed (s : State) (c : Nat) : Bool :=
  match sectionOf s.cfg 0x02 with
  | none => false
  | some b => (List.range (b.length / 16)).any fun i => (claimOf b i).1 == 1 && (claimOf b i).2.2.1 == c

/-- An edge on the freeze pin, of the polarity the image names (R508, R513). -/
def freezePin (s : State) (falling : Bool) : State :=
  if s.cyc.onPin && pinClaimed s 0x0050 && bitAt (par s 0x13 9 1 0) 0 == falling then freezeNow s 2 else s

def execFreezePinEdge (falling : Bool) (s : State) : Host.Outcome State Fault Refusal := .next (freezePin s falling)

/-- A window ends: the counts of the window counters move and restart; not while frozen (R507, R508). -/
def windowEnd (s : State) : State :=
  if s.cyc.frozen then s
  else { s with cyc := { s.cyc with ctrs := s.cyc.ctrs.foldl (fun t x =>
    if x.2.window then tput t {} x.1 { x.2 with windowVal := x.2.value, value := 0 } else t) s.cyc.ctrs } }

def execCycWindowEnd (s : State) : Host.Outcome State Fault Refusal := .next (windowEnd s)

/-! ### DRAM (R492, R494 to R496) -/


/-- A write of MEM_FLIP_CTL (R496): an arm under the field lock is refused. -/
def flipWrite (s : State) (v : Nat) : State :=
  if !regsWritable s then s
  else if bitAt v 8 && s.trs.fieldLock then { s with mem := { s.mem with flipRefused := true } }
  else { s with mem := { s.mem with flipTarget := field v 0 5, flipWord := field v 5 3, flipArm := bitAt v 8 } }

def execFlipArm (v : Word) (s : State) : Host.Outcome State Fault Refusal := .next (flipWrite s v.toNat)

/-- A corrected DRAM line (R492): counted, written back, and an event once in an hour that passes MEM_CORR_WARN_PER_H. -/
def dramCorrected (s : State) (r addr : Nat) : State :=
  let s := count (rcAdd s 0xF8008 r 1) 0x0F01 (some r)
  let x := regionOf s r
  let hour := s.now / ticksS 3600
  let n := if x.hour = hour then x.corrHour + 1 else 1
  let s := flipHit (setRegion s r { x with hour := hour, corrHour := n }) r addr
  if n = par s 0x13 10 2 1000 + 1 then writeEvent s { num := 0x0F01, inst := r, detail := [r] } else s


/-- The line no longer holds the inverted check pattern: new data has replaced it. -/
def unpoison (s : State) (r addr : Nat) : State :=
  setRegion s r { regionOf s r with poison := (regionOf s r).poison.filter (· != addr) }

/-- The scrubber reads one line of a declared region (R491, R492, R494, R495). -/
def dramScrub (s : State) (r addr : Nat) (x : LineRead) (pct : Nat) : State :=
  if !dataLine (regionOf s r) addr then s
  else
    let s := setRegion s r { regionOf s r with scrubPct := min 100 pct }
    let (x, s) := flipRead s r addr x
    if !(regionOf s r).init then writeEvent s { num := 0x0F04, inst := r, detail := [r] }
    else match x with
      | .clean => unpoison s r addr
      | .corrected => dramCorrected (unpoison s r addr) r addr
      | .badThenGood => transient (unpoison s r addr) 15 r 1 0x0F02
      | .badTwice => if (regionOf s r).poison.contains addr then s else dramPoison s r addr

def execDramScrubLine (region addr : Nat) (x : LineRead) (pct : Nat) (s : State) : Host.Outcome State Fault Refusal :=
  if region < 16 then .next (dramScrub s region addr x pct) else .fault (.noSuchInstance "region")

/-! ### The perturbation block (R510 to R512) -/

/-- A held item goes on from its point, as if it had never been held (R512). -/
def deliver (s : State) (c : HeldCmd) : State :=
  match c with
  | .packet sub p => afterRts s (packetIn s sub p) (p.qpn % 2 ^ 16)
  | .sqe op h => hostCommand s op h
  | .echo page seq ns => echoArrive s page seq ns
  | .drive b n hi r => driveDone s b n hi r
  | .dma fn tag what urca => dmaCompletion s fn tag what urca
  | .accept qp slot => porporAccept s qp slot
  | .refuse qp slot code => porporRefuse s qp slot code

/-- An injector is disarmed: what it holds is released at once, in arrival order (R512). -/
def injDisarm (s : State) (i : Nat) : State :=
  let j := injOf s i
  let s := setInj s i { j with armed := false, items := [] }
  j.items.foldl (fun s x => deliver s x.cmd) s

/-- The kinds of each point (R511). -/
def pointKinds (point : Nat) : List Nat :=
  match point with
  | 1 => [1, 2, 3, 4]
  | 2 => [1, 2, 3]
  | 3 | 4 | 7 | 8 => [1, 2]
  | 5 | 6 => [3]
  | _ => []

/-- PTB_PARAM suits the kind (R516). -/
def paramFits (j : Injector) : Bool := if j.kind = 4 then decide (2 ≤ j.pmin) else decide (j.pmin ≤ 4095)

/-- A write of PTB_CFG (R511, R512, R516). -/
def ptbCfgWrite (s : State) (i v : Nat) : State :=
  if !regsWritable s || !s.ptb.available then s
  else
    let j := { injOf s i with point := field v 0 4, kind := field v 4 3, instFilter := bitAt v 8, inst := field v 16 16 }
    let s := setInj s i j
    if !bitAt v 7 then injDisarm s i
    else if (pointKinds j.point).contains j.kind && paramFits j then
      let s := setInj { s with ptb := { s.ptb with badCfg := false } } i { j with armed := true, seen := 0 }
      writeEvent s { num := 0x0D70, inst := i, detail := [i, j.point, j.kind] }
    else injDisarm { s with ptb := { s.ptb with badCfg := true } } i

def execPtbArm (injector : Nat) (v : Word) (s : State) : Host.Outcome State Fault Refusal :=
  if injector < 8 then .next (ptbCfgWrite s injector v.toNat) else .fault (.noSuchInstance "injector")
def execPtbDisarm (injector : Nat) (v : Word) (s : State) : Host.Outcome State Fault Refusal :=
  if injector < 8 then .next (ptbCfgWrite s injector v.toNat) else .fault (.noSuchInstance "injector")

/-- An injector releases an item: any under a random delay, else the oldest (R512). -/
def injRelease (s : State) (i item : Nat) : State :=
  let j := injOf s i
  if j.kind ≠ 2 && item ≠ 0 then s
  else match j.items[item]? with
    | none => s
    | some x => deliver (setInj s i { j with items := j.items.eraseIdx item }) x.cmd

def execInjectorRelease (injector item : Nat) (s : State) : Host.Outcome State Fault Refusal :=
  if injector < 8 then .next (injRelease s injector item) else .fault (.noSuchInstance "injector")

/-- The eight words of a capture record (R512). -/
def capWords (r : CapRec) : List Nat :=
  [r.timebase % 2 ^ 32, r.timebase / 2 ^ 32, r.injector + 2 ^ 8 * r.point + 2 ^ 16 * r.kind + 2 ^ 24 * r.action, r.inst, r.delay, 0, 0, 0]

/-- A read of PTB_CAP_DATA0 on a path: the rest is snapshot (R516), and the read clears the word for every path, as that of an RC field does
(R10). -/
def captureRead (s : State) (p : Path) (cur : Nat) (atomic : Bool) : Nat × State :=
  let r := tget s.ptb.caps {} cur
  let s := { s with ptb := { s.ptb with caps := tput s.ptb.caps {} cur { r with timebase := r.timebase / 2 ^ 32 * 2 ^ 32 } } }
  ((capWords r).headD 0, snapWords s p 0xF0028 cur atomic ((capWords r).drop 1))

def execPtbCaptureRead (p : Path) (s : State) : Host.Outcome State Fault Refusal :=
  .next (answerRead s (captureRead s p (rwGet s 0xF0020 0) false))

/-- Field Lock (R510). -/
def fieldLock (s : State) (c : Cid) (cdw10 : Nat) : State :=
  if cdw10 % 2 ^ 32 ≠ 0x4C4B0001 then reply s c .invalidField
  else if s.trs.fieldLock then reply s c .success
  else
    let s := (List.range 8).foldl injDisarm s
    let s := { s with trs := { s.trs with fieldLock := true }, ptb := { s.ptb with available := false } }
    reply (writeEvent s { num := 0x0C42 }) c .success

def execFieldLock (c : Cid) (cdw10 : Nat) (s : State) : Host.Outcome State Fault Refusal :=
  .next (asManager s c 2 fun s => fieldLock s c cdw10)

end Sys2Proof.Machine
end

