-- ==== Sys2Proof/Machine/Views1.lean ====
section
/-! DEFINITION. What the registers read, first part: GBL, TRS, EVR, PRT, RDT, SWC, SCH and CFE (R517, R518). Each view gives the value of a
register at an offset for the instances that the select registers name; RC counters and snapshots are read in Registers. -/

namespace Sys2Proof.Machine

/-- The `w`-bit value `v` placed at bit `lo`. -/
def fld (v w lo : Nat) : Nat := (v % 2 ^ w) * 2 ^ lo

/-- The low or the high half of a 64-bit value. -/
def half (v : Nat) (hi : Bool) : Nat := if hi then v / 2 ^ 32 % 2 ^ 32 else v % 2 ^ 32

/-- A mask of the numbers below `n` that satisfy `p`. -/
def maskOf (n : Nat) (p : Nat → Bool) : Nat := (List.range n).foldl (fun m i => m + (if p i then 2 ^ i else 0)) 0

/-! ### GBL (R72 to R78, R518) -/

/-- A GBL register. -/
def viewGbl (s : State) (off : Nat) : Nat :=
  match off with
  | 0x00 => gblId
  | 0x04 => gblModeWord s
  | 0x08 => fld s.glb.reqStatus 2 28
  | 0x10 => s.glb.resetCause
  | 0x14 => fld s.glb.bootStep 4 0 + fld s.glb.bootSlot 1 4 + fld (bit s.glb.fallback) 1 5 + fld (bit s.glb.unformatted) 1 6
            + fld (bit s.glb.transientSeen) 1 7 + fld s.glb.bootMs 16 16
  | 0x18 => fld s.glb.safeCause 8 0 + fld s.glb.safeDetail 16 16
  | 0x1C => strapsWord s
  | 0x20 => 1 + fld s.glb.clkLock.toNat 4 1 + fld s.glb.clkLost.toNat 4 5
  | 0x24 => half s.now false
  | 0x28 => half s.now true
  | 0x2C => s.glb.tempLogic.toNat + 256 * s.glb.tempBay.toNat + 65536 * s.glb.tempMax.toNat
  | _ => 0

/-! ### TRS (R132 to R134) -/

/-- The boot-region slot that TRS_BR_CURSOR selects. -/
def brCursor (s : State) : Nat := field (rwGet s 0x1000C 0) 0 12

/-- The held record, when it is presented at a slot: on an unformatted cocoon, at the index it will take (R133). -/
def heldAt (s : State) (i : Nat) : Option BootRec :=
  match s.trs.heldRec with
  | some r => if !brSealed s && i = brNext s then some (chainRec s (sealRec s r) i) else none
  | none => none

/-- TRS_BR_STATUS STATE of a slot. -/
def brState (s : State) (i : Nat) : Nat :=
  match heldAt s i with
  | some _ => 3
  | none => match brSlot s i with
    | .zero => 0
    | .record _ => 1
    | .torn => 2
    | .bad _ _ => 4

/-- A word of a boot record. -/
def recWord (r : BootRec) (w : Nat) : Nat := leNat (((bootBytes r).drop (4 * w) |>.take 4).map (BitVec.ofNat 8 ·))

/-- A word of a slot as it is stored: those of a torn slot are free values (log 4); an uncorrectable line reads as zeros (R133). -/
def slotWord (s : State) (b : BootSlot) (w : Nat) : Nat :=
  match b with
  | .zero => 0
  | .record r => recWord r w
  | .torn => Config.freeValue s.freeCtr % 2 ^ 32
  | .bad o lines => if lines.contains (w / 16) then 0 else slotWord s o w

/-- A word of TRS_BR_WINDOW (R133). -/
def brWord (s : State) (w : Nat) : Nat :=
  match heldAt s (brCursor s) with
  | some r => recWord r w
  | none => slotWord s (brSlot s (brCursor s)) w

/-- A TRS register. -/
def viewTrs (s : State) (off : Nat) : Nat :=
  if 0x12000 ≤ off && off < 0x14000 then leNat (memReadBytes 0 s.trs.buf (off - 0x12000) 4)
  else if 0x11000 ≤ off && off < 0x12000 then brWord s ((off - 0x11000) / 4)
  else match off with
    | 0x10000 => fld (ownerStates s) 8 0 + fld (256 - s.trs.svnBank.length) 9 8 + fld (bit (brLow s)) 1 17
                 + fld (bit (brSealed s)) 1 18
    | 0x10004 => fld (minSvn s) 16 0
    | 0x10008 => brUsed s
    | 0x1000C => rwGet s 0x1000C 0
    | 0x10010 => brState s (brCursor s)
    | 0x10014 => half s.trs.nonce.toNat false
    | 0x10018 => half s.trs.nonce.toNat true
    | 0x10020 => bit s.trs.busy.isSome + fld s.trs.result 4 4
    | _ => 0

/-! ### EVR (R516) -/

/-- An EVR register. -/
def viewEvr (s : State) (off : Nat) : Nat :=
  if 0x18100 ≤ off && off < 0x18200 then (evrWords s (evrCursor s)).getD ((off - 0x18100) / 4) 0
  else match off with
    | 0x18000 => half s.evr.head false
    | 0x18004 => half s.evr.head true
    | 0x18008 => rwGet s 0x18008 0
    | 0x1800C => rwGet s 0x1800C 0
    | 0x18010 => evrStatus s (evrCursor s)
    | 0x1801C => half s.evr.odo false
    | 0x18020 => fld (s.evr.odo / 2 ^ 32) 8 0
    | 0x18024 => s.evr.odo / 3600
    | 0x18028 => s.evr.cycles
    | _ => 0

/-! ### PRT (R155) -/

/-- A PRT register, at the port of PRT_SEL. -/
def viewPrt (s : State) (off : Nat) : Nat :=
  let p := prtSel s
  let subs := fun (f : SubPort → Bool) => maskOf 4 fun i => f (subOf s (4 * p + i))
  match off with
  | 0x20000 => rwGet s 0x20000 0
  | 0x20004 => fld (prtMode s p) 2 0 + fld (prtPar s p 1 1 0) 3 2 + fld (pfcMask s p) 8 8 + fld (ackPrio s p) 3 16
  | 0x20008 => subs (·.up) + fld (subs (·.training)) 4 4 + fld (maskOf 4 fun i => (txChan s (4 * p + i)).isSome) 4 8
               + fld (maskOf 8 fun q => (List.range 4).any fun i => tget (subOf s (4 * p + i)).paused 0 q != 0) 8 16
  | 0x20024 | 0x20028 | 0x2002C | 0x20030 | 0x20034 => rwGet s off p
  | 0x20014 | 0x2001C | 0x20020 => tget s.regs.w1c 0 (rk off p)
  | 0x20100 => half Config.macBase false
  | 0x20104 => fld (Config.macBase / 2 ^ 32) 16 0
  | 0x20108 => bit s.prt.mgmtUp + fld (par s 0x06 128 1 2) 2 1
  | _ => 0

/-! ### RDT (R190) -/

/-- The number of a queue-pair state. -/
def qpStateNo (x : QpState) : Nat :=
  match x with
  | .reset => 0
  | .init => 1
  | .rtr => 2
  | .rts => 3
  | .error => 4

/-- A register of the queue-pair window. -/
def viewQp (s : State) (off : Nat) : Nat :=
  let q := field (rwGet s 0x30000 0) 0 16
  let x := qpOf s q
  match off with
  | 0x30000 => rwGet s 0x30000 0
  | 0x30004 => qpStateNo x.state + fld x.kind 2 3 + fld x.instar.val.toNat 16 16
  | 0x30008 => (if x.state = .reset then 0 else fld (localQpn s q) 24 0) + fld x.pmtu 3 24
  | 0x3000C => fld x.rqpn 24 0
  | 0x30010 => fld x.epsn 24 0
  | 0x30014 => fld x.next 24 0
  | 0x30018 => fld ((x.unacked.head?).elim x.next fun p => p.psn) 24 0
  | 0x3001C => fld x.retry 3 0 + fld x.rnr 3 3 + fld x.ackTmo 5 8 + fld (readsOut x) 5 13
  | 0x30020 => fld x.recv 13 0 + (match x.srq with | some r => fld r 8 16 + 2 ^ 24 | none => 0)
  | 0x30024 => fld x.cr 19 0 + fld (bit x.paced) 1 19 + fld (min 15 x.tStage) 4 20 + fld (min 15 x.bStage) 4 24
  | 0x30028 => fld x.tr 19 0 + fld x.alpha 11 20
  | 0x3002C => x.dlog
  | 0x30030 => x.err
  | _ => 0

/-- An RDT register. -/
def viewRdt (s : State) (off : Nat) : Nat :=
  let n := field (rwGet s 0x30200 0) 0 7
  let d := if n = 0 then {} else dlogOf s n
  if off < 0x30100 then viewQp s off
  else match off with
    | 0x30100 => (s.rdt.qps.filter fun x => x.2.state != .reset).length
    | 0x30200 => rwGet s 0x30200 0
    | 0x30204 => bit d.enable + 2 * bit d.page2m + 4 * bit d.overflow + 8 * bit d.nospace
    | 0x30208 => half d.base false
    | 0x3020C => half d.base true
    | 0x30210 => d.pages
    | 0x30218 => half (if 64 * field (rwGet s 0x3021C 0) 0 26 < d.pages then tget d.bits 0 (field (rwGet s 0x3021C 0) 0 26) else 0) true
    | 0x3021C => rwGet s 0x3021C 0
    | _ => 0

/-! ### SWC and SCH (R402, R403) -/

/-- An SWC register. -/
def viewSwc (s : State) (off : Nat) : Nat :=
  match off with
  | 0x40000 => bit s.swc.ovfOn + 2 * bit (s.swc.shared == 0)
  | 0x40004 => fld s.swc.shared 20 0
  | 0x40008 => s.swc.floors.getD 0 0
  | 0x4000C => s.swc.floors.getD 1 0
  | 0x40010 => s.swc.floors.getD 2 0
  | 0x40014 => s.swc.floors.getD 3 0
  | 0x40018 => s.swc.floors.getD 4 0
  | 0x4001C => s.swc.ovfUsed
  | 0x40038 => min 65535 s.swc.passes + 65536 * min 65535 s.swc.marked.length
  | 0x40040 => maskOf 32 fun n => match pgOf s n with
    | some g => (pgLive s g).contains n
    | none => false
  | 0x40100 => rwGet s 0x40100 0
  | 0x40104 => match tget s.swc.derail none (field (rwGet s 0x40100 0) 0 12) with
    | some e => fld e.cur.sub 5 0 + 32 + fld (bit (e.cur.sub != e.cur.init)) 1 6 + fld e.ver 16 16
    | none => 0
  | _ => 0

/-- A signed number in two's complement, 32 bits. -/
def signed32 (x : Int) : Nat := (x % 2 ^ 32).toNat

/-- The depth in cells of the queue that SCH_SAMPLE_ADDR selects (R399). -/
def sampledDepth (s : State) : Nat :=
  let a := rwGet s 0x50040 0
  if bitAt a 0 then (egOf s (field a 1 5) (field a 6 3)).foldl (fun n f => n + cellsOf f.len) 0
  else ingCells (tget s.swc.ing {} (8 * field a 1 5 + field a 6 3))

/-- An SCH register. -/
def viewSch (s : State) (off : Nat) : Nat :=
  let v := field (rwGet s 0x50004 0) 0 12
  let point := field (rwGet s 0x50004 0) 12 6
  match off with
  | 0x50000 => fld (tget s.sch.active [] 0).length 12 0 + fld ((s.sch.tokens.filter fun x => shaped s x.1).length) 12 12
  | 0x50004 | 0x50020 | 0x50040 => rwGet s off 0
  | 0x50008 => signed32 (deficitOf s point v)
  | 0x5000C => signed32 (tokensOf s v / 1024)
  | 0x50010 => bit ((tget s.sch.active [] point).contains v) + 2 * bit (shaped s v) + 4 * bit (s.sch.change.any fun x => x % 4096 == v)
  | 0x50044 => fld (sampledDepth s) 27 0
  | _ => 0

/-! ### CFE (R219, R247) -/

/-- The number of a subsystem's state. -/
def vssStateNo (x : VssState) : Nat :=
  match x with
  | .free => 0
  | .active => 1
  | .resetting => 2
  | .removing => 3
  | .sanitizing => 4
  | .sanFailed => 5

/-- A register of the VSS window. -/
def viewVss (s : State) (off : Nat) : Nat :=
  let v := field (rwGet s 0x60000 0) 0 12
  let r := (vssOf s v).getD {}
  let t := rtOf s v
  match off with
  | 0x60000 => rwGet s 0x60000 0
  | 0x60004 => vssStateNo r.state + fld t.instar.val.toNat 16 16
  | 0x60008 => fld r.slots 17 0
  | 0x6000C => fld (slotsHeld s v) 17 0
  | 0x60010 => fld r.cocMib 12 0
  | 0x60014 => fld (tenantPages s v) 20 0
  | 0x60018 => bit t.stopped + 2 * bit (r.state != .free && decide (slotLimit s v ≤ slotsHeld s v))
               + 4 * bit (r.state != .free && !quotaRoom s v (t.pending / 4096)) + 8 * bit (overQuota s v) + fld (tenantAssocs s v) 13 16
  | 0x6001C => fld (if r.sstat = 0 then 0 else sprog r) 16 0 + fld r.sstat 3 16
  | _ => 0

/-- A register of the namespace window. -/
def viewNs (s : State) (off : Nat) : Nat :=
  let n := field (rwGet s 0x60800 0) 0 16
  if off = 0x60800 then rwGet s 0x60800 0
  else match nsOf s n with
    | none => 0
    | some r => match off with
      | 0x60804 => (if r.fmt then 3 else if r.attached then 2 else 1) + fld r.group 1 3 + fld r.lbaf 1 4 + fld r.pi 2 5
                   + fld (bit r.mirror) 1 7 + fld (bit r.fed) 1 8
      | 0x60808 => fld r.vss 12 0 + fld r.nsid 11 16
      | 0x6080C => half r.nsze false
      | 0x60810 => half r.nsze true
      | 0x60814 => fld r.chunks 23 0
      | 0x60818 => fld (nsInflight s n) 17 0
      | 0x6081C => (if r.fmt then fld (min 65535 (65536 * r.fmtDone / r.chunks)) 16 0 else 0) + fld r.ses 2 16
      | _ => 0

/-- A CFE register. -/
def viewCfe (s : State) (off : Nat) : Nat :=
  if off < 0x60800 then viewVss s off
  else if off < 0x60F00 then viewNs s off
  else match off with
    | 0x60F00 => half s.cat.gen false
    | 0x60F04 => half s.cat.gen true
    | 0x61000 => fld s.cfe.idle 2 0 + 4 * bit (!s.cfe.holds.isEmpty) + 8 * bit (discoveryOn s)
    | 0x61004 => fld (slotsTaken s + reservedSlots s) 17 0
    | 0x61008 => fld (liveAssocs s) 13 0
    | 0x6100C => fld ((tqKeys s fun t => t.state != .free).length) 15 0
    | 0x61010 => half s.cfe.anaCnt false
    | 0x61014 => half s.cfe.anaCnt true
    | _ => 0

end Sys2Proof.Machine
end

