-- ==== Sys2Proof/Machine/Views2.lean ====
section
/-! DEFINITION. What the registers read, second part: SEQ, COC, XFM, SPK, BAY, TDM, SVC, CYC, PTB and MEM (R517). -/

namespace Sys2Proof.Machine

/-! ### SEQ (R278) -/

/-- The 8 bytes of a step of step memory as two words (R251). -/
def stepWords (x : Step) : Nat × Nat :=
  (fld x.opc 8 0 + fld x.w.a 4 8 + fld x.w.b 4 12 + fld x.w.cond 4 16 + fld x.w.tmo 4 20 + fld x.w.flags 8 24, fld x.w.imm 32 0)

/-- The words of the step that SEQ_STEP_ADDR selects: step memory, or the built-in ROM, whose layout the spec does not give. -/
def selectedStep (s : State) : Nat × Nat :=
  let a := rwGet s 0x70040 0
  if bitAt a 12 then (half (Config.romStep (field a 0 12)) false, half (Config.romStep (field a 0 12)) true)
  else stepWords ((s.seq.steps[field a 0 12]?).getD {})

/-- A SEQ register. -/
def viewSeq (s : State) (off : Nat) : Nat :=
  match off with
  | 0x70000 => fld (coresOn s) 6 0
               + fld (((List.range 32).map fun c => (boundOn s c).length).foldl (· + ·) 0) 10 16
  | 0x70004 => (ctxFilter s fun c => (waitOf c).isSome).length
  | 0x70008 => (ctxFilter s fun c => c.lock == .taken).length
  | 0x7001C => fld s.seq.loads 16 0
  | 0x70020 => spareFree s 0
  | 0x70024 => spareFree s 1
  | 0x70028 => spareFree s 2
  | 0x7002C => spareFree s 3
  | 0x70030 => spareFree s 4
  | 0x70040 | 0x70050 => rwGet s off 0
  | 0x70044 => (selectedStep s).1
  | 0x70048 => (selectedStep s).2
  | 0x70054 => s.seq.fifo.length
  | 0x70064 | 0x70068 | 0x7006C => match s.seq.fifo with
    | [] => 0
    | r :: _ => (sampleWords r).getD ((off - 0x70060) / 4) 0
  | _ => 0

/-! ### COC (R317, R375) -/

/-- The stripes in flush: those of the flush operations that internal contexts run. -/
def flushActive (s : State) : Nat :=
  ((ctxFilter s fun c => match c.op with
    | some (.flush _ _ _) | some (.range _ _ _) => true
    | _ => false).flatMap fun x => opStripes (x.2.op.getD .nothing)).eraseDups.length

/-- The pages committed, mirrored or adopted and not yet flushing. -/
def flushPending (s : State) : Nat :=
  (s.coc.own.filter fun x => x.2.st == .committed || x.2.st == .mirrored).length + (s.coc.mir.filter fun x => x.2.st == .adopted).length

/-- The code of a page's state: own and mirror staging number theirs apart. -/
def pgStateNo (x : PgState) : Nat :=
  match x with
  | .free => 0
  | .staged => 1
  | .committed => 2
  | .mirrored => 3
  | .flushing => 4
  | .flushed => 5
  | .superseded => 6
  | .held => 2
  | .adopted => 7

/-- A register of the peer-window window (R375). -/
def viewPwin (s : State) (off : Nat) : Nat :=
  let w := field (rwGet s 0x80200 0) 0 10
  let x := winOf s w
  match off with
  | 0x80200 => rwGet s 0x80200 0
  | 0x80204 => x.sBase
  | 0x80208 => x.sLimit
  | 0x8020C => x.sCtl
  | 0x80210 => bit (bitAt x.ent.cur.ctl 12) + 2 * bit (x.instar.pending != 0) + 4 * bit x.rejected + fld x.instar.val.toNat 16 16
  | 0x80214 => x.ent.cur.base
  | 0x80218 => x.ent.cur.limit
  | 0x8021C => rkeyPrefix s ||| w
  | _ => 0

/-- A COC register. -/
def viewCoc (s : State) (off : Nat) : Nat :=
  if 0x80200 ≤ off then viewPwin s off
  else if 0x80108 ≤ off && off < 0x80148 then (windowRecord s).getD ((off - 0x80108) / 4) 0
  else match off with
    | 0x80000 => bit s.coc.formatted + 2 * bit s.coc.protect + 4 * bit s.coc.scanned
                 + 8 * bit s.tdm.grp0.remirror + 16 * bit s.tdm.grp1.remirror
                 + 32 * bit (hasOrphans s 0) + 64 * bit (hasOrphans s 1) + 128 * bit s.coc.rebuildIx
    | 0x80004 => ownUsed s
    | 0x80008 => (s.coc.mir.filter fun x => x.2.st != .free).length
    | 0x8000C => flushPending s
    | 0x80010 => fld (flushActive s) 11 0
    | 0x80014 => fld (rangeCount s) 17 0
    | 0x80018 => half s.coc.seq0 false
    | 0x8001C => half s.coc.seq0 true
    | 0x80020 => half s.coc.seq1 false
    | 0x80024 => half s.coc.seq1 true
    | 0x80038 => fld s.coc.scrubPct 7 0 + fld s.coc.scrubPasses 16 16
    | 0x8003C => fld s.coc.kept 21 0
    | 0x80040 => fld s.coc.discarded 21 0
    | 0x80044 => fld s.coc.superseded 21 0
    | 0x80048 => fld s.coc.lost 21 0
    | 0x8004C => fld s.coc.scanUs 19 0
    | 0x80100 => rwGet s 0x80100 0
    | 0x80104 =>
      let g := windowPage s
      pgStateNo g.st + 8 * bit g.unmir + 16 * bit g.orphan + 256 * min 255 g.pins
    | _ => 0

/-! ### XFM (R350, R375) -/

/-- Whether any port runs MACsec, so that pipelines 0 to 31 serve it only (R340). -/
def macsecRuns (s : State) : Bool := (List.range 8).any fun p => prtMode s p != 0 && bitAt (prtPar s p 1 1 0) 1

/-- A rebuild register of a group: ACTIVE, IN_PLACE, BAY, TARGET. -/
def rebuildWord (r : Rebuild) : Nat :=
  if r.active then 1 + 2 * bit r.inPlace + fld r.bay 6 2 + fld r.target 6 8 else 0

/-- A register of the key window. -/
def viewKey (s : State) (off : Nat) : Nat :=
  let n := field (rwGet s 0x90100 0) 0 16
  let k := tget s.cat.keys {} n
  let r := ctrRun s n
  match off with
  | 0x90100 => rwGet s 0x90100 0
  | 0x90104 => bit k.cur.isSome + 2 * bit k.prev.isSome + 4 * bit r.warned
               + 8 * bit (r.spent || (tget s.coc.ctrs {} n).lost) + 16 * bit k.pass
  | 0x90108 => if k.cur.isSome then fld k.epoch 32 0 else 0
  | 0x9010C => half r.next false
  | 0x90110 => fld (r.next / 2 ^ 32) 16 0
  | 0x90114 => fld k.done 23 0
  | _ => 0

/-- The acknowledged federated pages whose stripe is not confirmed (R367). -/
def fedExposed (s : State) : Nat :=
  let live := fun (g : Page) => (g.st == .committed || g.st == .mirrored || g.st == .flushing || g.st == .adopted)
    && (match g.rc with | some r => r.fed | none => false)
  (s.coc.own.filter fun x => live x.2).length + (s.coc.mir.filter fun x => live x.2).length

/-- An XFM register. -/
def viewXfm (s : State) (off : Nat) : Nat :=
  if 0x90100 ≤ off && off < 0x90200 then viewKey s off
  else match off with
    | 0x90000 => (if macsecRuns s then 32 + 128 else 64) + 256 * bit s.xfm.rb0.active + 512 * bit s.xfm.rb1.active
                 + 1024 * bit s.xfm.load0 + 2048 * bit s.xfm.load1
    | 0x90004 => (s.cat.keys.filter fun x => x.2.prev.isSome).length
    | 0x9003C => fld s.cat.journal.length 13 0
    | 0x90040 => rebuildWord s.xfm.rb0
    | 0x90044 => rebuildWord s.xfm.rb1
    | 0x90048 => fld s.xfm.rb0.left.length 23 0
    | 0x9004C => fld s.xfm.rb1.left.length 23 0
    | 0x90200 => bit (fedOn s) + fld s.fed.areaOk 2 1 + (if (sectionOf s.cfg 0x0C).isSome then fld (ownMember s) 10 3 else 0)
    | 0x90204 => fedExposed s
    | _ => 0

/-! ### SPK (R411, R429) -/

/-- The number of a spoke's state. -/
def spkStateNo (x : SpkState) : Nat :=
  match x with
  | .disabled => 0
  | .empty => 1
  | .powering => 2
  | .training => 3
  | .initializing => 4
  | .ready => 5
  | .contained => 6
  | .resetting => 7
  | .off => 8
  | .unusable => 9
  | .failed => 10

/-- The power indicator of a bay as SPK_SLOT_CTL codes it: on, blink or off. -/
def pwrInd (s : State) (b : Nat) : Nat :=
  let p := spkOf s b
  match p.state with
  | .unusable | .failed => 3
  | _ =>
    if (chanOf s b).state = .latched then 3
    else match p.state with
      | .powering | .training | .initializing | .resetting | .contained => 2
      | _ => if p.pendBtn || p.removal != 0 then 2 else if p.state = .ready then 1 else 3

/-- The bay's channel supplies power. -/
def bayPowered (s : State) (b : Nat) : Bool := (chanOf s b).state == .ramping || (chanOf s b).state == .on

/-- The fault indicator of a bay is lit. -/
def faultInd (s : State) (b : Nat) : Bool :=
  (spkOf s b).state == .unusable || (spkOf s b).state == .failed || (chanOf s b).state == .latched

/-- A register of the spoke window. The ASPM state of a link is a free value while it is up (log 4). -/
def viewSpoke (s : State) (off : Nat) : Nat :=
  let b := field (rwGet s 0xA0000 0) 0 6
  let p := spkOf s b
  match off with
  | 0xA0000 => rwGet s 0xA0000 0
  | 0xA0004 => spkStateNo p.state + fld ((groupOfBay s b).getD 0) 1 4 + 32 * bit (isSpareBay s b) + 64 * bit (ownsBay s b)
               + fld p.reason 4 8
  | 0xA0008 => p.instar.val.toNat + 65536 * p.drive.val.toNat
  | 0xA000C => fld p.gts 3 0 + fld p.width 2 3 + 32 * bit p.dl + (if p.dl then 64 * (Config.freeValue s.freeCtr % 4) else 0)
               + fld p.drvPs 5 8
  | 0xA0010 => 0x7B + 128 * min 96 (chanIlim s b * 12 / 1000) + 2 ^ 18 + 2 ^ 19 * b
  | 0xA0014 => 0x2B + fld p.attn 2 6 + fld (pwrInd s b) 2 8 + 1024 * bit (!bayPowered s b) + 4096
  | 0xA0018 => tget s.regs.w1c 0 (rk 0xA0018 b) + 64 * bit p.present
  | 0xA001C => bit (faultInd s b) + 2 * bit p.pendBtn
  | 0xA0020 => fld (slotsUsed p) 9 0 + fld p.ioq 5 9
  | 0xA0024 => half p.id false
  | 0xA0028 => half p.id true
  | _ => 0

/-- The bays present, and the bays whose spoke is Ready. -/
def presentMask (s : State) : Nat := maskOf 64 fun b => (spkOf s b).present

/-- The bays whose spoke is Ready. -/
def readyMask (s : State) : Nat := maskOf 64 fun b => (spkOf s b).state == .ready

/-- An SPK register. -/
def viewSpk (s : State) (off : Nat) : Nat :=
  if off < 0xA0100 then viewSpoke s off
  else match off with
    | 0xA0100 => half (presentMask s) false
    | 0xA0104 => half (presentMask s) true
    | 0xA0108 => half (readyMask s) false
    | 0xA010C => half (readyMask s) true
    | 0xA0110 => bit s.spk.scanning + fld s.spk.frames 16 16
    | _ => 0

/-! ### BAY (R446) -/

/-- The number of a channel's state. -/
def chStateNo (x : ChState) : Nat :=
  match x with
  | .disabled => 0
  | .off => 1
  | .waiting => 2
  | .ramping => 3
  | .on => 4
  | .cooling => 5
  | .latched => 6

/-- The number of a selector's state. -/
def feedStateNo (x : FeedState) : Nat :=
  match x with
  | .off => 0
  | .onA => 1
  | .onB => 2
  | .toA => 3
  | .toB => 4

/-- The channels that are On. -/
def onMask (s : State) : Nat := maskOf 64 fun b => (chanOf s b).state == .on

/-- The channels that are Latched. -/
def latchedMask (s : State) : Nat := maskOf 64 fun b => (chanOf s b).state == .latched

/-- A register of the channel or the feed window, or a mask. -/
def viewBay (s : State) (off : Nat) : Nat :=
  let b := field (rwGet s 0xB0000 0) 0 6
  let c := chanOf s b
  let f := feedOf s (field (rwGet s 0xB0200 0) 0 1)
  match off with
  | 0xB0000 | 0xB0200 => rwGet s off 0
  | 0xB0004 => chStateNo c.state + fld c.retries 3 3 + 64 * bit c.cancelled + 128 * bit (drivesBay s b) + 256 * bit c.holding
               + fld c.lastTrip 2 9
  | 0xB0008 => chanIlim s b + fld (par s 0x0F 2 1 0) 4 16 + fld (bit (chanEnabled s b)) 1 20
               + fld ((groupOfBay s b).getD 0) 1 21
  | 0xB000C => fld c.iMa 16 0 + fld c.vMv 16 16
  | 0xB0010 => fld c.iPeak 16 0
  | 0xB0014 => fld c.vMin 16 0
  | 0xB0018 => fld c.trips 16 0 + fld c.transients 16 16
  | 0xB0100 => half (onMask s) false
  | 0xB0104 => half (onMask s) true
  | 0xB0108 => half (latchedMask s) false
  | 0xB010C => half (latchedMask s) true
  | 0xB0204 => feedStateNo f.state + 8 * bit f.aGood + 16 * bit f.bGood
               + 32 * bit (feedPrefersB s (field (rwGet s 0xB0200 0) 0 1)) + 64 * bit f.driving
  | 0xB0208 => fld f.aMv 16 0 + fld f.bMv 16 16
  | 0xB020C => fld f.aMin 16 0 + fld f.bMin 16 16
  | _ => 0

/-! ### TDM (R473) -/

/-- The code of a line's state. -/
def lineNo (x : Line) : Nat :=
  match x with
  | .released => 0
  | .acquiring => 1
  | .mine => 2
  | .partner => 3
  | .stuck => 4

/-- A TDM register. -/
def viewTdm (s : State) (off : Nat) : Nat :=
  let t := s.tdm
  match off with
  | 0xC0000 => bit t.linkUp + 2 * bit t.half + 4 * bit t.peerAlive + 8 * bit (s.cfg.valid && unpaired s) + 16 * bit t.sideConflict
  | 0xC0004 => lineNo t.grp0.line + 8 * lineNo t.grp1.line + 64 * bit t.grp0.barred + 128 * bit t.grp1.barred
               + 256 * bit t.grp0.hold + 512 * bit t.grp1.hold
  | 0xC0008 => pairCode t.grp0.pair + 4 * pairCode t.grp1.pair + 16 * bit (standingNow s 0) + 32 * bit (standingNow s 1)
  | 0xC000C => fld t.lastGroup 1 0 + 2 * bit t.lastFromDrives + 256 * min (2 ^ 24 - 1) t.gapUs
  | 0xC0010 => fld t.grp0.await.length 16 0 + fld t.grp1.await.length 16 16
  | 0xC0014 => half t.tickTx false
  | 0xC0018 => half t.tickTx true
  | 0xC001C => half t.frame.tick false
  | 0xC0020 => half t.frame.tick true
  | _ => 0

/-! ### SVC (R486) -/

/-- An SVC register. -/
def viewSvc (s : State) (off : Nat) : Nat :=
  let n := field (rwGet s 0xD0004 0) 0 7
  let f := fnOf s n
  match off with
  | 0xD0000 => bit s.svc.linkUp + fld s.svc.gts 3 1 + fld s.svc.width 4 4 + 256 * bit s.svc.perst + 512 * bit s.svc.wake
               + fld s.svc.vfs 7 10
  | 0xD0004 => rwGet s off 0
  | 0xD0008 => (if f.d3hot then 3 else 0) + 4 * bit f.bme + 8 * bit f.msixEn + 16 * bit f.fnMask + 32 * bit f.flr
               + 64 * bit (!f.holding.isEmpty) + fld f.instar.val.toNat 16 16
  | 0xD000C => (if n = 0 then 0 else fld (fnVss s n) 12 0) + 4096 * bit f.rdy
  | _ => 0

/-! ### CYC, PTB and MEM (R516) -/

/-- A counter of the cyclometer. -/
def ctrOf (s : State) (k : Nat) : CycCtr := tget s.cyc.ctrs {} k

/-- A CYC register. -/
def viewCyc (s : State) (off : Nat) : Nat :=
  let k := field (rwGet s 0xE0010 0) 0 9
  let c := ctrOf s k
  let odd := (ctrOf s (k - k % 2 + 1)).value
  match off with
  | 0xE0000 => bit s.cyc.frozen + 4 * bit s.cyc.onPin + 8 * bit s.cyc.onEvent + fld s.cyc.freezeEvent 16 16
  | 0xE0004 => bit s.cyc.frozen + fld s.cyc.cause 2 1
  | 0xE0010 => rwGet s off 0
  | 0xE0014 => fld c.event 16 0 + fld (bit c.enable) 1 16 + fld (bit c.chain) 1 17 + fld (bit c.window) 1 18
               + fld (bit c.vssFilter) 1 19 + fld c.vss 12 20
  | 0xE0018 => fld c.inst 16 0 + fld (bit c.instFilter) 1 16
  | 0xE001C => half c.value false
  | 0xE0020 => fld (c.value / 2 ^ 32) 16 0
  | 0xE0024 => bit c.ovf
  | 0xE0028 => half odd false
  | 0xE002C => fld (odd / 2 ^ 32) 16 0
  | 0xE0030 => half c.windowVal false
  | 0xE0034 => fld (c.windowVal / 2 ^ 32) 16 0
  | _ => 0

/-- A PTB register; configuration and parameters read 0 unless test features are in effect (R511). -/
def viewPtb (s : State) (off : Nat) : Nat :=
  let j := injOf s (field (rwGet s 0xF0004 0) 0 3)
  let cap := tget s.ptb.caps {} (rwGet s 0xF0020 0)
  if 0xF0024 ≤ off && off < 0xF0044 then (capWords cap).getD ((off - 0xF0024) / 4) 0
  else match off with
    | 0xF0000 => bit s.ptb.available + 2 * bit s.trs.fieldLock + 4 * bit s.ptb.badCfg + 256 * maskOf 8 fun i => (injOf s i).armed
    | 0xF0004 | 0xF0020 => rwGet s off 0
    | 0xF0008 => if s.ptb.available then
        fld j.point 4 0 + fld j.kind 3 4 + 128 * bit j.armed + 256 * bit j.instFilter + fld j.inst 16 16 else 0
    | 0xF000C => if s.ptb.available then fld j.pmin 16 0 + fld j.pmax 12 16 else 0
    | _ => 0

/-- A MEM register. -/
def viewMem (s : State) (off : Nat) : Nat :=
  let r := regionOf s (field (rwGet s 0xF8000 0) 0 4)
  match off with
  | 0xF8000 | 0xF8104 | 0xF8108 => rwGet s off 0
  | 0xF8004 => fld r.code 2 0 + 4 * bit r.init + fld r.use 6 3 + fld r.scrubPct 7 16
  | 0xF8100 => fld s.mem.flipTarget 5 0 + fld s.mem.flipWord 3 5 + 256 * bit s.mem.flipArm + 512 * bit s.mem.flipRefused
  | 0xF810C => half s.mem.flipAddr false
  | 0xF8110 => half s.mem.flipAddr true
  | _ => 0

/-! ### All blocks -/

/-- The current value of a register that is neither RC nor taken from a snapshot, at an offset of the register space. -/
def viewReg (s : State) (off : Nat) : Nat :=
  if off < 0x10000 then viewGbl s off
  else if off < 0x18000 then viewTrs s off
  else if off < 0x20000 then viewEvr s off
  else if off < 0x30000 then viewPrt s off
  else if off < 0x40000 then viewRdt s off
  else if off < 0x50000 then viewSwc s off
  else if off < 0x60000 then viewSch s off
  else if off < 0x70000 then viewCfe s off
  else if off < 0x80000 then viewSeq s off
  else if off < 0x90000 then viewCoc s off
  else if off < 0xA0000 then viewXfm s off
  else if off < 0xB0000 then viewSpk s off
  else if off < 0xC0000 then viewBay s off
  else if off < 0xD0000 then viewTdm s off
  else if off < 0xE0000 then viewSvc s off
  else if off < 0xF0000 then viewCyc s off
  else if off < 0xF8000 then viewPtb s off
  else viewMem s off

end Sys2Proof.Machine
end

