-- ==== Sys2Proof/Machine/Registers.lean ====
section
/-! DEFINITION. Register accesses: the index with its access classes and windows (R517), reads with their clears and snapshots
(R10, R11, R521), writes with their held halves, ranges and triggers (R6, R9, R12, R13, R519), the access rows, and Register Read
and Register Write (R15, R520). -/

namespace Sys2Proof.Machine

/-! ### Windows (R13, R517) -/

/-- The windows: first and last offset, and the select register. -/
def windows : List (Nat × Nat × Nat) :=
  [(0x10010, 0x10010, 0x1000C), (0x11000, 0x11FFF, 0x1000C), (0x18010, 0x18010, 0x18008), (0x18100, 0x181FF, 0x18008),
   (0x20004, 0x20034, 0x20000), (0x30004, 0x30034, 0x30000), (0x30204, 0x30218, 0x30200), (0x40104, 0x40104, 0x40100),
   (0x50008, 0x50010, 0x50004), (0x50024, 0x50024, 0x50020), (0x50044, 0x5006C, 0x50040), (0x60004, 0x6001C, 0x60000),
   (0x60804, 0x6081C, 0x60800), (0x70044, 0x70048, 0x70040), (0x80104, 0x80144, 0x80100), (0x80204, 0x8021C, 0x80200),
   (0x90104, 0x90114, 0x90100), (0xA0004, 0xA003C, 0xA0000), (0xB0004, 0xB001C, 0xB0000), (0xB0204, 0xB0214, 0xB0200),
   (0xD0008, 0xD000C, 0xD0004), (0xE0014, 0xE0034, 0xE0010), (0xF0008, 0xF0010, 0xF0004), (0xF0024, 0xF0040, 0xF0020),
   (0xF8004, 0xF8010, 0xF8000)]

/-- The select register of a window register. -/
def selectOf (off : Nat) : Option Nat := (windows.find? fun w => decide (w.1 ≤ off) && decide (off ≤ w.2.1)).map fun w => w.2.2

/-- The harvest registers, which RDT_DLOG_WORD selects too. -/
def harvestOff (off : Nat) : Bool := off == 0x30214 || off == 0x30218

/-- The select registers with the number of values each takes when its range is plain. -/
def selectRanges : List (Nat × Nat) :=
  [(0x1000C, 4096), (0x20000, 8), (0x30000, 65536), (0x30200, 65), (0x3021C, 2 ^ 26), (0x40100, 4096), (0x50020, 16),
   (0x60000, 4096), (0x60800, 65536), (0x80200, 1024), (0x90100, 65536), (0xA0000, 64), (0xB0000, 64), (0xB0200, 2),
   (0xD0004, 66), (0xE0010, 512), (0xF0004, 8), (0xF8000, 16)]

/-- Whether a select register accepts a value (R13). -/
def selAccepts (s : State) (sel v : Nat) : Bool :=
  match selectRanges.find? fun r => r.1 == sel with
  | some r => decide (v < r.2)
  | none => match sel with
    | 0x50004 => decide (v < 2 ^ 18) && decide (0 < field v 0 12) && decide (field v 12 6 ≤ 32)
    | 0x50040 => decide (v < 2 ^ 9) && (!bitAt v 0 || decide (field v 6 3 < 4))
    | 0x70040 => decide (v < 2 ^ 13) && (!bitAt v 12 || decide (field v 0 12 < 1024))
    | 0x80100 => decide (v < 2 ^ 21) && decide (field v 0 20 < pageCount)
    | 0xF0020 => decide (v < capSlots s)
    | _ => false

/-- Whether an offset is a select register of 32 bits. -/
def isSelect (off : Nat) : Bool :=
  (selectRanges.any fun r => r.1 == off) || [0x50004, 0x50040, 0x70040, 0x80100, 0xF0020].contains off

/-- The instance that the select registers name for a register, 0 for one outside every window. -/
def instOf (s : State) (off : Nat) : Nat :=
  if harvestOff off then field (rwGet s 0x30200 0) 0 7 + 128 * field (rwGet s 0x3021C 0) 0 26
  else match selectOf off with
    | none => 0
    | some 0x18008 => evrCursor s
    | some sel => rwGet s sel 0

/-! ### Reads -/

/-- The RC counters: first and last offset (R517). -/
def rcRanges : List (Nat × Nat) :=
  [(0x18014, 0x18018), (0x2000C, 0x20010), (0x20018, 0x20018), (0x30104, 0x30120), (0x40020, 0x40034), (0x50024, 0x50024),
   (0x50048, 0x5006C), (0x61018, 0x61030), (0x7000C, 0x70018), (0x70058, 0x70058), (0x80028, 0x80034), (0x90008, 0x90038),
   (0x90208, 0x90214), (0xA002C, 0xA0038), (0xB0010, 0xB0018), (0xB020C, 0xB0210), (0xC0024, 0xC0034), (0xD0010, 0xD001C),
   (0xF0010, 0xF0010), (0xF8008, 0xF8010)]

/-- Whether an offset is an RC counter. -/
def isRc (off : Nat) : Bool := rcRanges.any fun r => decide (r.1 ≤ off) && decide (off ≤ r.2)

/-- The key of an RC counter: one counter per instance where the window replicates it, else one for the chip. The measurements of
the sampled queue are one set. -/
def rcInst (s : State) (off : Nat) : Nat :=
  if 0x50048 ≤ off && off ≤ 0x5006C then 0 else instOf s off

/-- The current value of an RC counter; the peaks and minima of the bay die are its own captures (R443, R446). -/
def rcValue (s : State) (off : Nat) : Nat :=
  if off = 0xB0010 || off = 0xB0014 || off = 0xB0018 || off = 0xB020C then viewBay s off
  else tget s.regs.rc 0 (rk off (rcInst s off))

/-- Clear an RC counter by a read; `inc` is what the hardware adds in the same cycle, which stands (R10, R519). -/
def rcClear (s : State) (off inc : Nat) : State :=
  let b := rwGet s 0xB0000 0
  let g := rwGet s 0xB0200 0
  match off with
  | 0xB0010 => setChan s b { chanOf s b with iPeak := inc % 65536 }
  | 0xB0014 => setChan s b { chanOf s b with vMin := 0xFFFF }
  | 0xB0018 => setChan s b { chanOf s b with trips := inc % 65536, transients := inc / 65536 % 65536 }
  | 0xB020C => setFeed s g { feedOf s g with aMin := 0xFFFF, bMin := 0xFFFF }
  | _ => { s with regs := { s.regs with rc := tput s.regs.rc 0 (rk off (rcInst s off)) (min (2 ^ 32 - 1) inc) } }

/-- The `_LO` registers whose `_HI` stands 4 bytes above (R11). -/
def loRegs : List Nat :=
  [0x24, 0x10014, 0x18000, 0x18008, 0x1801C, 0x20100, 0x30208, 0x6080C, 0x60F00, 0x61010, 0x70044, 0x80018, 0x80020, 0x9010C,
   0xA0024, 0xA0100, 0xA0108, 0xB0100, 0xB0108, 0xC0014, 0xC001C, 0xE001C, 0xE0028, 0xE0030, 0xF8104, 0xF810C]

/-- The snapshot a path holds of a register, when a read of an instance shows it: any plain snapshot to a plain read (R11), and one
that an atomic access took or asks for only under its own instance (R521). -/
def shownSnap (s : State) (p : Path) (off inst : Nat) (atomic : Bool) : Option Nat :=
  match tget s.regs.snap none (pathKey off p) with
  | some x => if x.inst = inst || !(atomic || x.atomic) then some x.val else none
  | none => none

/-- The snapshots a read of a register takes: the `_HI` of a `_LO`, and both halves of the odd partner with the value of an even
counter (R11, R506). -/
def takeSnaps (s : State) (p : Path) (off inst : Nat) (atomic : Bool) : State :=
  if !loRegs.contains off then s
  else
    let s1 := snapWords s p (off + 4) inst atomic [viewReg s (off + 4)]
    if off = 0xE001C && inst % 2 == 0 then snapWords s1 p 0xE0028 inst atomic [viewReg s 0xE0028, viewReg s 0xE002C] else s1

/-- A register whose value the model leaves free: each read takes a fresh one (log 4). -/
def freeReg (off : Nat) : Bool := off == 0xA000C || (decide (0x11000 ≤ off) && decide (off < 0x12000))

/-- Read a register on a path, of the instance that the select registers name: its value and what the read does. `inc` is what the
hardware adds to an RC field in the same cycle, or the bits it sets in a harvested word (R519). -/
def regRead (s : State) (p : Path) (off : Nat) (atomic : Bool) (inc : Nat) : Nat × State :=
  let inst := instOf s off
  match off with
  | 0x30214 => dlogHarvest s p inc atomic
  | 0x18100 => evrWindowRead s p inst atomic
  | 0x80108 => pageRecRead s p atomic
  | 0x70060 => sampleRead s p
  | 0xF0024 => captureRead s p inst atomic
  | _ =>
    if isRc off then (rcValue s off, rcClear s off inc)
    else match shownSnap s p off inst atomic with
      | some v => (v, s)
      | none =>
        let t := takeSnaps s p off inst atomic
        (viewReg s off % 2 ^ 32, if freeReg off then { t with freeCtr := t.freeCtr + 1 } else t)

/-! ### Writes -/

/-- Hold a `_HI` value for a path (R12). -/
def holdHi (s : State) (p : Path) (off v : Nat) : State :=
  { s with regs := { s.regs with held := tput s.regs.held none (pathKey off p) (some v) } }

/-- Take the `_HI` half that a `_LO` write applies: the value the path holds, used once, else the one in effect (R12). -/
def takeHi (s : State) (p : Path) (hi : Nat) (now : Nat) : Nat × State :=
  match tget s.regs.held none (pathKey hi p) with
  | some v => (v, { s with regs := { s.regs with held := tput s.regs.held none (pathKey hi p) none } })
  | none => (now, s)

/-- A write of a select register: ignored outside its range (R13); that of the sampled queue clears every measurement (R399). -/
def selWrite (s : State) (off v : Nat) : State :=
  if !selAccepts s off v then s
  else
    let s := rwPut s off 0 v
    if off = 0x50040 then
      { s with regs := { s.regs with rc := s.regs.rc.filter fun x => !(decide (0x50048 ≤ x.1) && decide (x.1 ≤ 0x5006C)) } }
    else s

/-- The bits that a W1C register holds. -/
def w1cMask (off : Nat) : Nat :=
  match off with
  | 0x20014 => 0xFF
  | 0x2001C | 0x20020 => 0xFFFFFFFF
  | 0xA0018 => 0x10B
  | _ => 0

/-- Clear the bits written as 1, but for those the hardware sets in the same cycle (R519). -/
def w1cApply (cur v hw : Nat) : Nat := (cur &&& (0xFFFFFFFF ^^^ (v % 2 ^ 32))) ||| hw

/-- A write of a W1C register of the instance selected. -/
def w1cWrite (s : State) (off v hw : Nat) : State :=
  let k := rk off (instOf s off)
  { s with regs := { s.regs with w1c := tput s.regs.w1c 0 k (w1cApply (tget s.regs.w1c 0 k) v (hw &&& w1cMask off)) } }

/-- A write of GBL_CLK_STATUS: LOST is W1C (R518). -/
def clkWrite (s : State) (v hw : Nat) : State :=
  { s with glb := { s.glb with clkLost := BitVec.ofNat 4 (w1cApply s.glb.clkLost.toNat (field v 5 4) (field hw 5 4)) } }

/-- A write of a base or page register of the selected dirty-log slot, whose range stands while the slot is enabled (R190). -/
def dlogSet (s : State) (f : Dlog → Dlog) : State :=
  let n := field (rwGet s 0x30200 0) 0 7
  if n = 0 || 64 < n || (dlogOf s n).enable then s else setDlog s n (f (dlogOf s n))

/-- Change the selected counter of the cyclometer. -/
def onCtr (s : State) (f : CycCtr → CycCtr) : State :=
  let k := field (rwGet s 0xE0010 0) 0 9
  { s with cyc := { s.cyc with ctrs := tput s.cyc.ctrs {} k (f (ctrOf s k)) } }

/-- The fields of CYC_CFG (R516). -/
def cycCfg (v : Nat) (c : CycCtr) : CycCtr :=
  { c with event := field v 0 16, enable := bitAt v 16, chain := bitAt v 17, window := bitAt v 18, vssFilter := bitAt v 19,
           vss := field v 20 12 }

/-- A `_LO` write of a 64-bit value (R12). -/
def loWrite (s : State) (p : Path) (off v : Nat) : State :=
  match off with
  | 0x18008 =>
    let (hi, s) := takeHi s p 0x1800C (rwGet s 0x1800C 0)
    rwPut (rwPut s 0x1800C 0 hi) 0x18008 0 v
  | 0x30208 =>
    let n := field (rwGet s 0x30200 0) 0 7
    let (hi, s) := takeHi s p 0x3020C ((if n = 0 then {} else dlogOf s n).base / 2 ^ 32)
    dlogSet s fun d => { d with base := v + 2 ^ 32 * hi }
  | 0xE001C =>
    let (hi, s) := takeHi s p 0xE0020 ((ctrOf s (field (rwGet s 0xE0010 0) 0 9)).value / 2 ^ 32)
    onCtr s fun c => { c with value := v + 2 ^ 32 * (hi % 65536) }
  | 0xF8104 =>
    let (hi, s) := takeHi s p 0xF8108 (rwGet s 0xF8108 0)
    rwPut (rwPut s 0xF8108 0 hi) 0xF8104 0 v
  | _ => s

/-- A write of the GBL, TRS and PRT blocks. -/
def regWriteLow (s : State) (off v hw : Nat) (m : Moment) : State :=
  if 0x12000 ≤ off && off < 0x14000 then
    { s with trs := { s.trs with buf := memWriteBytes 0 s.trs.buf (off - 0x12000) ((leBytes 4 v).map (BitVec.ofNat 8 ·)) } }
  else match off with
    | 0x08 => modeReqWrite s v m
    | 0x0C => resetWrite s v m
    | 0x20 => clkWrite s v hw
    | 0x1001C => authStart s (word v)
    | 0x10024 => keyRead s (word v)
    | 0x20014 | 0x2001C | 0x20020 => w1cWrite s off v hw
    | 0x20024 => addrCtl s v
    | 0x20028 | 0x2002C | 0x20030 | 0x20034 => rwPut s off (prtSel s) v
    | _ => s

/-- A write of the other blocks. -/
def regWriteHigh (s : State) (off v hw : Nat) : State :=
  match off with
  | 0x3002C => qpDlogWrite s v
  | 0x30034 => qpCtlWrite s v
  | 0x30204 => dlogCfgWrite s v
  | 0x30210 => dlogSet s fun d => { d with pages := v }
  | 0x70050 => rwPut s 0x70050 0 (v % 1024)
  | 0x80204 => setWin s (field (rwGet s 0x80200 0) 0 10) { winOf s (field (rwGet s 0x80200 0) 0 10) with sBase := field v 0 17 }
  | 0x80208 => setWin s (field (rwGet s 0x80200 0) 0 10) { winOf s (field (rwGet s 0x80200 0) 0 10) with sLimit := field v 0 18 }
  | 0x8020C => pwinCtlWrite s v
  | 0xA0014 => slotCtlWrite s (rwGet s 0xA0000 0) v
  | 0xA0018 => w1cWrite s off v hw
  | 0xA003C => spkCtlWrite s (rwGet s 0xA0000 0) v
  | 0xB001C => bayClearAt s (rwGet s 0xB0000 0) v
  | 0xB0214 => feedCtlWrite s (rwGet s 0xB0200 0) v
  | 0xE0000 => cycCtlWrite s v
  | 0xE0014 => onCtr s (cycCfg v)
  | 0xE0018 => onCtr s fun c => { c with inst := field v 0 16, instFilter := bitAt v 16 }
  | 0xE0024 => onCtr s fun c => { c with ovf := c.ovf && !bitAt v 0 || bitAt hw 0 }
  | 0xF0008 => ptbCfgWrite s (rwGet s 0xF0004 0) v
  | 0xF000C => if s.ptb.available then
      setInj s (rwGet s 0xF0004 0) { injOf s (rwGet s 0xF0004 0) with pmin := field v 0 16, pmax := field v 16 12 } else s
  | 0xF8100 => flipWrite s v
  | _ => s

/-- The `_HI` registers that are written. -/
def hiRegs : List Nat := [0x1800C, 0x3020C, 0xE0020, 0xF8108]

/-- Their `_LO` registers. -/
def loWrites : List Nat := [0x18008, 0x30208, 0xE001C, 0xF8104]

/-- Write a register on a path, of the instance that the select registers name; `hw` holds the bits the hardware sets in the same
cycle (R519), `m` what the write meets should it change the mode (R48). In Boot and in Held nothing is written (R45). -/
def regWrite (s : State) (p : Path) (off v hw : Nat) (m : Moment) : State :=
  if !regsWritable s then s
  else if isSelect off then selWrite s off v
  else if hiRegs.contains off then holdHi s p off v
  else if loWrites.contains off then loWrite s p off v
  else if off < 0x30000 then regWriteLow s off v hw m
  else regWriteHigh s off v hw

/-! ### The access rows (R6) -/

/-- An access of the right width and alignment, inside the register space. -/
def accessOk (a : Access) : Bool := a.size == 4 && a.off % 4 == 0 && decide (a.off < 2 ^ 20)

/-- An access that is not: at BAR0 an Unsupported Request; on the other paths the command that carries it fails (R6). -/
def badAccess (s : State) (a : Access) : State :=
  if a.path = .bar0 && s.glb.mode != .held then emit s .unsupportedRequest else s

/-- A register write of a row. -/
def writeAt (s : State) (a : Access) (v hw : Nat) (m : Moment) : State :=
  if accessOk a then regWrite s a.path a.off v hw m else badAccess s a

/-- A register read of a row; nothing answers in Held (R46). -/
def readAt (s : State) (a : Access) (inc : Nat) : State :=
  if accessOk a then (if s.glb.mode = .held then s else answerRead s (regRead s a.path a.off false inc)) else badAccess s a

def execPlainRegisterWrite (a : Access) (val : Word) (hwSet : Word) (m : Moment) (s : State) : Host.Outcome State Fault Refusal :=
  .next (writeAt s a val.toNat hwSet.toNat m)

def execReadClearCounter (a : Access) (hwInc : Nat) (s : State) : Host.Outcome State Fault Refusal := .next (readAt s a hwInc)

def execLoRegisterRead (a : Access) (s : State) : Host.Outcome State Fault Refusal := .next (readAt s a 0)

def execHiRegisterWrite (a : Access) (val : Word) (s : State) : Host.Outcome State Fault Refusal := .next (writeAt s a val.toNat 0 {})

def execLoRegisterWrite (a : Access) (val : Word) (s : State) : Host.Outcome State Fault Refusal := .next (writeAt s a val.toNat 0 {})

def execSelectRegisterWrite (a : Access) (val : Word) (s : State) : Host.Outcome State Fault Refusal :=
  .next (writeAt s a val.toNat 0 {})

/-! ### Register Read and Register Write (R520) -/

/-- The select registers an atomic access sets, with the values its instance gives; none when the instance is out of range or has
a part it does not use. -/
def atomicSel (s : State) (off i0 i1 : Nat) : Option (List (Nat × Nat)) :=
  if harvestOff off then
    if selAccepts s 0x30200 i0 && selAccepts s 0x3021C i1 then some [(0x30200, i0), (0x3021C, i1)] else none
  else match selectOf off with
    | none => none
    | some 0x18008 => some [(0x18008, i0), (0x1800C, i1)]
    | some sel => if selAccepts s sel i0 && i1 == 0 then some [(sel, i0)] else none

/-- Put values into select registers. -/
def putSels (s : State) (l : List (Nat × Nat)) : State := l.foldl (fun s x => rwPut s x.1 0 x.2) s

/-- The values that select registers hold. -/
def heldSels (s : State) (l : List (Nat × Nat)) : List (Nat × Nat) := l.map fun x => (x.1, rwGet s x.1 0)

/-- An atomic read: the select register is unchanged (R15). The measurements belong to the queue that SCH_SAMPLE_ADDR selects, so
another queue has none. -/
def atomicRead (s : State) (off : Nat) (sels : List (Nat × Nat)) : Nat × State :=
  if 0x50048 ≤ off && off ≤ 0x5006C && heldSels s sels != sels then (0, s)
  else
    let r := regRead (putSels s sels) .mgmt off true 0
    (r.1, putSels r.2 (heldSels s sels))

/-- An atomic write. -/
def atomicWrite (s : State) (off v : Nat) (sels : List (Nat × Nat)) (m : Moment) : State :=
  putSels (regWrite (putSels s sels) .mgmt off v 0 m) (heldSels s sels)

/-- The offset of a register command lies in the space and is aligned. -/
def offOk (cdw10 : Word) : Bool := decide (cdw10.toNat < 2 ^ 20) && cdw10.toNat % 4 == 0

/-- Register Read is served in every mode but Held, in Boot at PF0 and over MCTP (R45, R64, R476, R483). -/
def readServed (s : State) (c : Cid) : Bool :=
  authMode s || (s.glb.mode == .boot && match c.org with
    | .pf0 | .mctp _ => true
    | _ => false)

/-- Register Read. -/
def registerRead (s : State) (c : Cid) (cdw10 cdw11 cdw12 cdw13 : Word) : State :=
  asManagerIn s c 1 (readServed s c) fun s =>
    if !offOk cdw10 then reply s c .invalidField
    else if bitAt cdw11.toNat 0 then
      match atomicSel s cdw10.toNat cdw12.toNat cdw13.toNat with
      | none => reply s c .invalidField
      | some l => let r := atomicRead s cdw10.toNat l; reply r.2 c .success r.1
    else let r := regRead s .mgmt cdw10.toNat false 0; reply r.2 c .success r.1

/-- Register Write: the command completes, and the register takes the value. -/
def registerWrite (s : State) (c : Cid) (cdw10 cdw11 cdw12 cdw13 cdw14 : Word) (m : Moment) : State :=
  asManagerIn s c 2 (authMode s) fun s =>
    if !offOk cdw10 then reply s c .invalidField
    else if bitAt cdw11.toNat 0 then
      match atomicSel s cdw10.toNat cdw12.toNat cdw13.toNat with
      | none => reply s c .invalidField
      | some l => atomicWrite (reply s c .success) cdw10.toNat cdw14.toNat l m
    else regWrite (reply s c .success) .mgmt cdw10.toNat cdw14.toNat 0 m

def execRegisterRead (c : Cid) (cdw10 cdw11 cdw12 cdw13 : Word) (s : State) : Host.Outcome State Fault Refusal :=
  .next (registerRead s c cdw10 cdw11 cdw12 cdw13)

def execRegisterWrite (c : Cid) (cdw10 cdw11 cdw12 cdw13 cdw14 : Word) (m : Moment) (s : State) : Host.Outcome State Fault Refusal :=
  .next (registerWrite s c cdw10 cdw11 cdw12 cdw13 cdw14 m)

end Sys2Proof.Machine
end

