-- ==== Sys2Proof/Machine/Mctp.lean ====
section
/-! DEFINITION. Management commands in vendor-defined MCTP messages (R483): the command is the one of its opcode, sent by the
endpoint. -/

namespace Sys2Proof.Machine

/-- The management opcodes whose commands bring data in, or a report of the hardware, and so act through their own rows. -/
def ownRowOpcodes : List Nat := [0x0D, 0x15, 0xC8, 0xC9, 0xCC, 0xD1, 0xD2, 0xD3, 0xD6, 0xD9, 0xDA, 0xE2, 0xE8, 0xE9]

/-- Rebuild Control by its OP (R348). -/
def mctpRebuild (c : Cid) (cdw10 : Nat) (s : State) : Host.Outcome State Fault Refusal :=
  if bitAt cdw10 1 then execRebuildCancel c cdw10 s else execRebuildStart c cdw10 s

/-- Tandem Control by its OP (R471). -/
def mctpTandem (c : Cid) (cdw10 cdw11 : Nat) (m : Moment) (s : State) : Host.Outcome State Fault Refusal :=
  if field cdw10 0 4 = 2 then execAbandonHandback c cdw10 cdw11 s else execTandemReleaseGroup c cdw10 m s

/-- Image Activate by its MODE (R101). -/
def mctpActivate (c : Cid) (cdw10 : Nat) (m : Moment) (s : State) : Host.Outcome State Fault Refusal :=
  if bitAt cdw10 0 then execImageActivateWarm c m s else execImageActivateLive c m s

/-- The commands of VSS 0 from 0xC0 to 0xDF by opcode. -/
def mctpLow (c : Cid) (opcode cdw10 cdw11 cdw12 cdw13 cdw14 : Nat) (m : Moment) (s : State) : Host.Outcome State Fault Refusal :=
  match opcode with
  | 0xC0 => execFormatCocoon c cdw10 s
  | 0xC4 => execRegisterRead c (word cdw10) (word cdw11) (word cdw12) (word cdw13) s
  | 0xC5 => execRegisterWrite c (word cdw10) (word cdw11) (word cdw12) (word cdw13) (word cdw14) m s
  | 0xC6 => execEventRead c cdw10 cdw11 cdw12 s
  | 0xCA => mctpActivate c cdw10 m s
  | 0xCB => execImageSlotInfo c s
  | 0xCD => mctpTandem c cdw10 cdw11 m s
  | 0xCE => execServiceFunctionBind c cdw10 s
  | 0xCF => execFieldLock c cdw10 s
  | 0xD0 => execManagementChallenge c s
  | 0xD4 => execVssReset c cdw10 s
  | 0xD5 => execVssRemove c cdw10 s
  | 0xD7 => execCatalogRead c cdw10 cdw11 cdw12 s
  | 0xD8 => execTenantQueueFreeze c cdw10 cdw11 s
  | 0xDB => execTenantQueueThaw c cdw10 s
  | 0xDC => execDirtyLogControl c cdw10 cdw11 cdw12 cdw13 s
  | 0xDD => execDirtyLogHarvest c cdw10 cdw11 cdw12 s
  | 0xDE => execVirtualControllerReset c cdw10 s
  | _ => .next (if mgmtFull s then reply s c .invalidOpcode else s)

/-- The commands of VSS 0 by opcode; one that VSS 0 does not serve completes with Invalid Command Opcode (R522). -/
def mctpCommand (c : Cid) (opcode cdw10 cdw11 cdw12 cdw13 cdw14 : Nat) (m : Moment) (s : State) : Host.Outcome State Fault Refusal :=
  match opcode with
  | 0xE4 => execKeyRotate c cdw10 s
  | 0xE5 => mctpRebuild c cdw10 s
  | 0xE6 => execChunkMapRead c cdw10 s
  | 0xEA => execLeaseRead c cdw10 s
  | 0xEB => execLeaseRelease c cdw10 s
  | _ => mctpLow c opcode cdw10 cdw11 cdw12 cdw13 cdw14 m s

/-- MCTP_VENDOR_MANAGEMENT: a command that needs more than 8,128 bytes of data completes with Invalid Field in Command. -/
def execMctpVendorManagement (eid dataLen opcode cid cdw10 cdw11 cdw12 cdw13 cdw14 : Nat) (m : Moment) (s : State) :
    Host.Outcome State Fault Refusal :=
  let c : Cid := ⟨.mctp eid, cid⟩
  if !mctpServed s then .next s
  else if 8128 < dataLen then .next (if regsWritable s then reply s c .invalidField else s)
  else if ownRowOpcodes.contains opcode then .next s
  else mctpCommand c opcode cdw10 cdw11 cdw12 cdw13 cdw14 m s

end Sys2Proof.Machine
end

