-- ==== Sys2Proof/Machine/Dispatch.lean ====
section
/-! DEFINITION. The dispatch: one arm per command. -/

namespace Sys2Proof.Machine

/-- The effect of a command on everything but the queue. -/
def exec (i : Instr) (s : State) : Host.Outcome State Fault Refusal :=
  match i with
  | .plainRegisterWrite a val hwSet m => Sys2Proof.Machine.execPlainRegisterWrite a val hwSet m s
  | .readClearCounter a hwInc => Sys2Proof.Machine.execReadClearCounter a hwInc s
  | .loRegisterRead a => Sys2Proof.Machine.execLoRegisterRead a s
  | .hiRegisterWrite a val => Sys2Proof.Machine.execHiRegisterWrite a val s
  | .loRegisterWrite a val => Sys2Proof.Machine.execLoRegisterWrite a val s
  | .selectRegisterWrite a val => Sys2Proof.Machine.execSelectRegisterWrite a val s
  | .registerRead c cdw10 cdw11 cdw12 cdw13 => Sys2Proof.Machine.execRegisterRead c cdw10 cdw11 cdw12 cdw13 s
  | .registerWrite c cdw10 cdw11 cdw12 cdw13 cdw14 m => Sys2Proof.Machine.execRegisterWrite c cdw10 cdw11 cdw12 cdw13 cdw14 m s
  | .pwronLAsserted => Sys2Proof.Machine.execPwronLAsserted s
  | .pwronLReleased straps m => Sys2Proof.Machine.execPwronLReleased straps m s
  | .memoryPreparationDone bad1 bad2 => Sys2Proof.Machine.execMemoryPreparationDone bad1 bad2 s
  | .imageLoadDone r => Sys2Proof.Machine.execImageLoadDone r s
  | .imageVerificationDone v1 reread v2 => Sys2Proof.Machine.execImageVerificationDone v1 reread v2 s
  | .configurationDone => Sys2Proof.Machine.execConfigurationDone s
  | .dramTrainingDone fit1 fit2 => Sys2Proof.Machine.execDramTrainingDone fit1 fit2 s
  | .dramSweepDone swept late1 late2 => Sys2Proof.Machine.execDramSweepDone swept late1 late2 s
  | .recoveryScanDone r => Sys2Proof.Machine.execRecoveryScanDone r s
  | .bootRecordWritten ok1 ok2 ms => Sys2Proof.Machine.execBootRecordWritten ok1 ok2 ms s
  | .bootStageLimitExpiry => Sys2Proof.Machine.execBootStageLimitExpiry s
  | .watchdogExpiry m => Sys2Proof.Machine.execWatchdogExpiry m s
  | .shutdownRequest m => Sys2Proof.Machine.execShutdownRequest m s
  | .safeRequest m => Sys2Proof.Machine.execSafeRequest m s
  | .warmResetRequest val m => Sys2Proof.Machine.execWarmResetRequest val m s
  | .coldResetRequest val m => Sys2Proof.Machine.execColdResetRequest val m s
  | .drainShutdownComplete m => Sys2Proof.Machine.execDrainShutdownComplete m s
  | .drainLimitExpiry m => Sys2Proof.Machine.execDrainLimitExpiry m s
  | .pwrfailLAsserted m => Sys2Proof.Machine.execPwrfailLAsserted m s
  | .pwrfailStableRelease m => Sys2Proof.Machine.execPwrfailStableRelease m s
  | .imageStageWrite c offset length begin_ data => Sys2Proof.Machine.execImageStageWrite c offset length begin_ data s
  | .imageStageCommit c imageLen v => Sys2Proof.Machine.execImageStageCommit c imageLen v s
  | .imageActivateLive c m => Sys2Proof.Machine.execImageActivateLive c m s
  | .imageActivateWarm c m => Sys2Proof.Machine.execImageActivateWarm c m s
  | .imageSlotInfo c => Sys2Proof.Machine.execImageSlotInfo c s
  | .stagingSessionTimeout => Sys2Proof.Machine.execStagingSessionTimeout s
  | .imageSwap recordOk holdMs m => Sys2Proof.Machine.execImageSwap recordOk holdMs m s
  | .activationHoldExpiry c => Sys2Proof.Machine.execActivationHoldExpiry c s
  | .trsEnroll val => Sys2Proof.Machine.execTrsEnroll val s
  | .trsRevoke val => Sys2Proof.Machine.execTrsRevoke val s
  | .trsAdvanceMinSvn val => Sys2Proof.Machine.execTrsAdvanceMinSvn val s
  | .otpBurnComplete ok => Sys2Proof.Machine.execOtpBurnComplete ok s
  | .trsKeyRead val => Sys2Proof.Machine.execTrsKeyRead val s
  | .spdmExchange c length req => Sys2Proof.Machine.execSpdmExchange c length req s
  | .getVersion ep => Sys2Proof.Machine.execGetVersion ep s
  | .getCapabilities ep => Sys2Proof.Machine.execGetCapabilities ep s
  | .negotiateAlgorithms ep asym hash measHash dmtf => Sys2Proof.Machine.execNegotiateAlgorithms ep asym hash measHash dmtf s
  | .getDigests ep => Sys2Proof.Machine.execGetDigests ep s
  | .getCertificate ep slot offset length => Sys2Proof.Machine.execGetCertificate ep slot offset length s
  | .challenge ep slot summary nonce => Sys2Proof.Machine.execChallenge ep slot summary nonce s
  | .getMeasurements ep index signed nonce => Sys2Proof.Machine.execGetMeasurements ep index signed nonce s
  | .spdmUnsupportedRequest ep code => Sys2Proof.Machine.execSpdmUnsupportedRequest ep code s
  | .spdmContextIdleExpiry ep => Sys2Proof.Machine.execSpdmContextIdleExpiry ep s
  | .ethFrameReceive f => Sys2Proof.Machine.execEthFrameReceive f s
  | .linkTrainTimeout sub => Sys2Proof.Machine.execLinkTrainTimeout sub s
  | .linkTrainRetryTimer sub => Sys2Proof.Machine.execLinkTrainRetryTimer sub s
  | .subportLinkUp sub pmd rs => Sys2Proof.Machine.execSubportLinkUp sub pmd rs s
  | .subportLinkDown sub => Sys2Proof.Machine.execSubportLinkDown sub s
  | .pfcPauseExpiry sub prio => Sys2Proof.Machine.execPfcPauseExpiry sub prio s
  | .pfcWatchdogExpiry sub prio endsNow => Sys2Proof.Machine.execPfcWatchdogExpiry sub prio endsNow s
  | .pfcWatchdogResume sub prio => Sys2Proof.Machine.execPfcWatchdogResume sub prio s
  | .addressSlotApply val => Sys2Proof.Machine.execAddressSlotApply val s
  | .macsecRxSaInstall port sc sub an pn => Sys2Proof.Machine.execMacsecRxSaInstall port sc sub an pn s
  | .macsecTxSaInstall port sc sub an pn => Sys2Proof.Machine.execMacsecTxSaInstall port sc sub an pn s
  | .macsecRxSaRetire port sc an => Sys2Proof.Machine.execMacsecRxSaRetire port sc an s
  | .subportTransmit sub core install lost => Sys2Proof.Machine.execSubportTransmit sub core install lost s
  | .rocePacketReceive sub prio p => Sys2Proof.Machine.execRocePacketReceive sub prio p s
  | .cmReq r => Sys2Proof.Machine.execCmReq r s
  | .cmRtu qp => Sys2Proof.Machine.execCmRtu qp s
  | .cmDreq qp => Sys2Proof.Machine.execCmDreq qp s
  | .qpTeardown val => Sys2Proof.Machine.execQpTeardown val s
  | .qpContextFree qp => Sys2Proof.Machine.execQpContextFree qp s
  | .qpContextFetchDone qp r => Sys2Proof.Machine.execQpContextFetchDone qp r s
  | .ackCoalesceExpiry qp psn => Sys2Proof.Machine.execAckCoalesceExpiry qp psn s
  | .ackTimeout qp psn => Sys2Proof.Machine.execAckTimeout qp psn s
  | .rnrWaitExpiry qp => Sys2Proof.Machine.execRnrWaitExpiry qp s
  | .messageLifetimeExpiry qp at_ => Sys2Proof.Machine.execMessageLifetimeExpiry qp at_ s
  | .rateAlphaTimer qp cnpToo => Sys2Proof.Machine.execRateAlphaTimer qp cnpToo s
  | .rateIncreaseTimer qp cnpToo => Sys2Proof.Machine.execRateIncreaseTimer qp cnpToo s
  | .qpPacketSend qp draw => Sys2Proof.Machine.execQpPacketSend qp draw s
  | .dlogEnable val => Sys2Proof.Machine.execDlogEnable val s
  | .dlogDisable val => Sys2Proof.Machine.execDlogDisable val s
  | .qpDlogJoin val => Sys2Proof.Machine.execQpDlogJoin val s
  | .dlogHarvestRead path setNow => Sys2Proof.Machine.execDlogHarvestRead path setNow s
  | .instarBumpDeferred o => Sys2Proof.Machine.execInstarBumpDeferred o s
  | .fabricsConnect qp cid r => Sys2Proof.Machine.execFabricsConnect qp cid r s
  | .authenticationSend c qid m => Sys2Proof.Machine.execAuthenticationSend c qid m s
  | .authenticationReceive c qid => Sys2Proof.Machine.execAuthenticationReceive c qid s
  | .authTimeout assoc qid => Sys2Proof.Machine.execAuthTimeout assoc qid s
  | .propertyGet c off => Sys2Proof.Machine.execPropertyGet c off s
  | .propertySet c off val => Sys2Proof.Machine.execPropertySet c off val s
  | .keepAlive c => Sys2Proof.Machine.execKeepAlive c s
  | .keepAliveExpiry assoc => Sys2Proof.Machine.execKeepAliveExpiry assoc s
  | .identify c cns nsid => Sys2Proof.Machine.execIdentify c cns nsid s
  | .getLogPage c lid rae => Sys2Proof.Machine.execGetLogPage c lid rae s
  | .getFeatures c fid => Sys2Proof.Machine.execGetFeatures c fid s
  | .setFeatures c fid val => Sys2Proof.Machine.execSetFeatures c fid val s
  | .asyncEventRequest c => Sys2Proof.Machine.execAsyncEventRequest c s
  | .abort c qid cid => Sys2Proof.Machine.execAbort c qid cid s
  | .sanitize c cdw10 => Sys2Proof.Machine.execSanitize c cdw10 s
  | .formatNvm c nsid cdw10 => Sys2Proof.Machine.execFormatNvm c nsid cdw10 s
  | .vdqCreate c desc => Sys2Proof.Machine.execVdqCreate c desc s
  | .vdqDelete c cdw10 => Sys2Proof.Machine.execVdqDelete c cdw10 s
  | .nvmRead h => Sys2Proof.Machine.execNvmRead h s
  | .nvmWrite h => Sys2Proof.Machine.execNvmWrite h s
  | .nvmFlush h => Sys2Proof.Machine.execNvmFlush h s
  | .writeZeroes h => Sys2Proof.Machine.execWriteZeroes h s
  | .datasetManagement h => Sys2Proof.Machine.execDatasetManagement h s
  | .nvmCompare h => Sys2Proof.Machine.execNvmCompare h s
  | .admissionReopen vss => Sys2Proof.Machine.execAdmissionReopen vss s
  | .sqTailDoorbell qp imm => Sys2Proof.Machine.execSqTailDoorbell qp imm s
  | .cqHeadDoorbell qp imm => Sys2Proof.Machine.execCqHeadDoorbell qp imm s
  | .pushDoorbell qp imm entry payload ranges => Sys2Proof.Machine.execPushDoorbell qp imm entry payload ranges s
  | .vdqFetch => Sys2Proof.Machine.execVdqFetch s
  | .vdqFetchResponse qp qidx tag entries => Sys2Proof.Machine.execVdqFetchResponse qp qidx tag entries s
  | .cqStallExpiry qp qidx => Sys2Proof.Machine.execCqStallExpiry qp qidx s
  | .notifyTimerExpiry qp qidx => Sys2Proof.Machine.execNotifyTimerExpiry qp qidx s
  | .tenantQueueFree qp qidx => Sys2Proof.Machine.execTenantQueueFree qp qidx s
  | .idleLevel1Entry => Sys2Proof.Machine.execIdleLevel1Entry s
  | .idleLevel2Entry => Sys2Proof.Machine.execIdleLevel2Entry s
  | .managementChallenge c => Sys2Proof.Machine.execManagementChallenge c s
  | .managementProve c anchor data v => Sys2Proof.Machine.execManagementProve c anchor data v s
  | .mgmtAuthTimeout assoc => Sys2Proof.Machine.execMgmtAuthTimeout assoc s
  | .vssCreate c desc => Sys2Proof.Machine.execVssCreate c desc s
  | .vssChangeShare c desc => Sys2Proof.Machine.execVssChangeShare c desc s
  | .vssReset c cdw10 => Sys2Proof.Machine.execVssReset c cdw10 s
  | .vssRemove c cdw10 => Sys2Proof.Machine.execVssRemove c cdw10 s
  | .hostEntrySet c data => Sys2Proof.Machine.execHostEntrySet c data s
  | .catalogRead c cdw10 cdw11 cdw12 => Sys2Proof.Machine.execCatalogRead c cdw10 cdw11 cdw12 s
  | .tenantQueueFreeze c cdw10 cdw11 => Sys2Proof.Machine.execTenantQueueFreeze c cdw10 cdw11 s
  | .tenantQueueSave c cdw10 cdw11 len => Sys2Proof.Machine.execTenantQueueSave c cdw10 cdw11 len s
  | .tenantQueueRestore c off last data => Sys2Proof.Machine.execTenantQueueRestore c off last data s
  | .tenantQueueThaw c cdw10 => Sys2Proof.Machine.execTenantQueueThaw c cdw10 s
  | .dirtyLogControl c cdw10 cdw11 cdw12 cdw13 => Sys2Proof.Machine.execDirtyLogControl c cdw10 cdw11 cdw12 cdw13 s
  | .dirtyLogHarvest c cdw10 cdw11 cdw12 => Sys2Proof.Machine.execDirtyLogHarvest c cdw10 cdw11 cdw12 s
  | .virtualControllerReset c cdw10 => Sys2Proof.Machine.execVirtualControllerReset c cdw10 s
  | .namespaceCreate c desc => Sys2Proof.Machine.execNamespaceCreate c desc s
  | .namespaceDelete c nsid => Sys2Proof.Machine.execNamespaceDelete c nsid s
  | .namespaceAttach c nsid ctrls => Sys2Proof.Machine.execNamespaceAttach c nsid ctrls s
  | .namespaceDetach c nsid ctrls => Sys2Proof.Machine.execNamespaceDetach c nsid ctrls s
  | .catalogChangeReceive fwd id edits => Sys2Proof.Machine.execCatalogChangeReceive fwd id edits s
  | .catalogEchoReceive id => Sys2Proof.Machine.execCatalogEchoReceive id s
  | .catalogPartnerTimeout id => Sys2Proof.Machine.execCatalogPartnerTimeout id s
  | .catalogCopyDone partner => Sys2Proof.Machine.execCatalogCopyDone partner s
  | .vssResetDone vss => Sys2Proof.Machine.execVssResetDone vss s
  | .vssRemoveDone vss => Sys2Proof.Machine.execVssRemoveDone vss s
  | .tqFreezeComplete qp qidx => Sys2Proof.Machine.execTqFreezeComplete qp qidx s
  | .tqFreezeTimeout qp qidx => Sys2Proof.Machine.execTqFreezeTimeout qp qidx s
  | .sanitizeQuiesced vss => Sys2Proof.Machine.execSanitizeQuiesced vss s
  | .sanitizeChunkErased ns chunk failed => Sys2Proof.Machine.execSanitizeChunkErased ns chunk failed s
  | .formatNvmQuiesced ns => Sys2Proof.Machine.execFormatNvmQuiesced ns s
  | .nop ctx w => Sys2Proof.Machine.execNop ctx w s
  | .end_ ctx w => Sys2Proof.Machine.execEnd ctx w s
  | .jmp ctx w => Sys2Proof.Machine.execJmp ctx w s
  | .br ctx w => Sys2Proof.Machine.execBr ctx w s
  | .call ctx w => Sys2Proof.Machine.execCall ctx w s
  | .ret ctx w => Sys2Proof.Machine.execRet ctx w s
  | .fail ctx w => Sys2Proof.Machine.execFail ctx w s
  | .wait ctx w => Sys2Proof.Machine.execWait ctx w s
  | .ldi ctx w => Sys2Proof.Machine.execLdi ctx w s
  | .mov ctx w => Sys2Proof.Machine.execMov ctx w s
  | .add ctx w => Sys2Proof.Machine.execAdd ctx w s
  | .addi ctx w => Sys2Proof.Machine.execAddi ctx w s
  | .sub ctx w => Sys2Proof.Machine.execSub ctx w s
  | .and_ ctx w => Sys2Proof.Machine.execAnd ctx w s
  | .shr ctx w => Sys2Proof.Machine.execShr ctx w s
  | .shl ctx w => Sys2Proof.Machine.execShl ctx w s
  | .cmp ctx w => Sys2Proof.Machine.execCmp ctx w s
  | .cmpi ctx w => Sys2Proof.Machine.execCmpi ctx w s
  | .mark ctx w => Sys2Proof.Machine.execMark ctx w s
  | .ilock ctx w lost => Sys2Proof.Machine.execIlock ctx w lost s
  | .iwait ctx w => Sys2Proof.Machine.execIwait ctx w s
  | .irel ctx w => Sys2Proof.Machine.execIrel ctx w s
  | .nsfence ctx w => Sys2Proof.Machine.execNsfence ctx w s
  | .tref ctx w => Sys2Proof.Machine.execTref ctx w s
  | .tdrop ctx w => Sys2Proof.Machine.execTdrop ctx w s
  | .clook ctx w bad => Sys2Proof.Machine.execClook ctx w bad s
  | .cstage ctx w taken => Sys2Proof.Machine.execCstage ctx w taken s
  | .ccommit ctx w => Sys2Proof.Machine.execCcommit ctx w s
  | .cread ctx w reads tagOk => Sys2Proof.Machine.execCread ctx w reads tagOk s
  | .cdealloc ctx w => Sys2Proof.Machine.execCdealloc ctx w s
  | .echowait ctx w => Sys2Proof.Machine.execEchowait ctx w s
  | .hread ctx w => Sys2Proof.Machine.execHread ctx w s
  | .hwrite ctx w => Sys2Proof.Machine.execHwrite ctx w s
  | .cpl ctx w => Sys2Proof.Machine.execCpl ctx w s
  | .compare ctx w => Sys2Proof.Machine.execCompare ctx w s
  | .pichk ctx w => Sys2Proof.Machine.execPichk ctx w s
  | .map ctx w r => Sys2Proof.Machine.execMap ctx w r s
  | .dread ctx w rows => Sys2Proof.Machine.execDread ctx w rows s
  | .dverify ctx w found => Sys2Proof.Machine.execDverify ctx w found s
  | .recon ctx w rows => Sys2Proof.Machine.execRecon ctx w rows s
  | .dwrite ctx w => Sys2Proof.Machine.execDwrite ctx w s
  | .parity ctx w olds => Sys2Proof.Machine.execParity ctx w olds s
  | .dzero ctx w => Sys2Proof.Machine.execDzero ctx w s
  | .frag ctx w => Sys2Proof.Machine.execFrag ctx w s
  | .crelease ctx w => Sys2Proof.Machine.execCrelease ctx w s
  | .count_ ctx w skid parked => Sys2Proof.Machine.execCount ctx w skid parked s
  | .event ctx w => Sys2Proof.Machine.execEvent ctx w s
  | .contextResume core lost => Sys2Proof.Machine.execContextResume core lost s
  | .internalContextStart lost => Sys2Proof.Machine.execInternalContextStart lost s
  | .waitTimeout ctx waitNo instar => Sys2Proof.Machine.execWaitTimeout ctx waitNo instar s
  | .interlockGrant ctx => Sys2Proof.Machine.execInterlockGrant ctx s
  | .nsfenceDone ctx => Sys2Proof.Machine.execNsfenceDone ctx s
  | .hostTransferComplete ctx by_ ok data ranges => Sys2Proof.Machine.execHostTransferComplete ctx by_ ok data ranges s
  | .tableSlotRetry table => Sys2Proof.Machine.execTableSlotRetry table s
  | .seqSampleRead path => Sys2Proof.Machine.execSeqSampleRead path s
  | .formatCocoon c cdw10 => Sys2Proof.Machine.execFormatCocoon c cdw10 s
  | .odometerPersist => Sys2Proof.Machine.execOdometerPersist s
  | .odometerTick => Sys2Proof.Machine.execOdometerTick s
  | .mirrorLineReceive page blk => Sys2Proof.Machine.execMirrorLineReceive page blk s
  | .mirrorRecordReceive page r crc => Sys2Proof.Machine.execMirrorRecordReceive page r crc s
  | .mirrorResetReceive group => Sys2Proof.Machine.execMirrorResetReceive group s
  | .indexRebuildDone => Sys2Proof.Machine.execIndexRebuildDone s
  | .flushStripeStart => Sys2Proof.Machine.execFlushStripeStart s
  | .mirrorAdoptionDone group => Sys2Proof.Machine.execMirrorAdoptionDone group s
  | .handbackPageReceive group ns pages => Sys2Proof.Machine.execHandbackPageReceive group ns pages s
  | .handbackConfirmReceive group => Sys2Proof.Machine.execHandbackConfirmReceive group s
  | .lineFetchResponse page isRec got => Sys2Proof.Machine.execLineFetchResponse page isRec got s
  | .counterReserveEcho slot to_ => Sys2Proof.Machine.execCounterReserveEcho slot to_ s
  | .counterReserveTimeout slot => Sys2Proof.Machine.execCounterReserveTimeout slot s
  | .cocoonScrubLine addr r => Sys2Proof.Machine.execCocoonScrubLine addr r s
  | .stackAccessTimeout stack m => Sys2Proof.Machine.execStackAccessTimeout stack m s
  | .cocPageRecordRead path => Sys2Proof.Machine.execCocPageRecordRead path s
  | .mapReloadDone chunk => Sys2Proof.Machine.execMapReloadDone chunk s
  | .rebuildDelayExpiry bay => Sys2Proof.Machine.execRebuildDelayExpiry bay s
  | .rebuildStart c cdw10 => Sys2Proof.Machine.execRebuildStart c cdw10 s
  | .rebuildCancel c cdw10 => Sys2Proof.Machine.execRebuildCancel c cdw10 s
  | .chunkMapRead c cdw10 => Sys2Proof.Machine.execChunkMapRead c cdw10 s
  | .keyRotate c cdw10 => Sys2Proof.Machine.execKeyRotate c cdw10 s
  | .rekeyPassStart slot => Sys2Proof.Machine.execRekeyPassStart slot s
  | .reconWriteback chunk stripe row still => Sys2Proof.Machine.execReconWriteback chunk stripe row still s
  | .stripWrite qp slot d => Sys2Proof.Machine.execStripWrite qp slot d s
  | .stripRead qp slot d => Sys2Proof.Machine.execStripRead qp slot d s
  | .alloc qp slot d => Sys2Proof.Machine.execAlloc qp slot d s
  | .leaseFree qp slot d => Sys2Proof.Machine.execLeaseFree qp slot d s
  | .porporAccept qp slot => Sys2Proof.Machine.execPorporAccept qp slot s
  | .porporRefuse qp slot code => Sys2Proof.Machine.execPorporRefuse qp slot code s
  | .readData qp d => Sys2Proof.Machine.execReadData qp d s
  | .allocReply qp d => Sys2Proof.Machine.execAllocReply qp d s
  | .fragTimeout tag acceptToo => Sys2Proof.Machine.execFragTimeout tag acceptToo s
  | .peerWindowApply val => Sys2Proof.Machine.execPeerWindowApply val s
  | .federationMemberSet c data => Sys2Proof.Machine.execFederationMemberSet c data s
  | .leaseCreate c cdw10 cdw11 data => Sys2Proof.Machine.execLeaseCreate c cdw10 cdw11 data s
  | .leaseRead c cdw10 => Sys2Proof.Machine.execLeaseRead c cdw10 s
  | .leaseRelease c cdw10 => Sys2Proof.Machine.execLeaseRelease c cdw10 s
  | .pfcXoffRefresh sub prio => Sys2Proof.Machine.execPfcXoffRefresh sub prio s
  | .mcastDestTimeout tandem ctx accepted => Sys2Proof.Machine.execMcastDestTimeout tandem ctx accepted s
  | .bucketReturn bucket => Sys2Proof.Machine.execBucketReturn bucket s
  | .leakAuditPass found => Sys2Proof.Machine.execLeakAuditPass found s
  | .shaperRefill => Sys2Proof.Machine.execShaperRefill s
  | .policerRefill => Sys2Proof.Machine.execPolicerRefill s
  | .schSampleSelect val => Sys2Proof.Machine.execSchSampleSelect val s
  | .bayScanFrame presence buttons => Sys2Proof.Machine.execBayScanFrame presence buttons s
  | .linkUpTimeout spoke => Sys2Proof.Machine.execLinkUpTimeout spoke s
  | .spokeLinkUp spoke gts width => Sys2Proof.Machine.execSpokeLinkUp spoke gts width s
  | .spokeDpc spoke trigger => Sys2Proof.Machine.execSpokeDpc spoke trigger s
  | .containmentRelease spoke => Sys2Proof.Machine.execContainmentRelease spoke s
  | .buttonTimerExpiry spoke => Sys2Proof.Machine.execButtonTimerExpiry spoke s
  | .orderlyRemovalProgress spoke shstDone => Sys2Proof.Machine.execOrderlyRemovalProgress spoke shstDone s
  | .spokeCtlReset spoke => Sys2Proof.Machine.execSpokeCtlReset spoke s
  | .spokeCtlPowerOff spoke => Sys2Proof.Machine.execSpokeCtlPowerOff spoke s
  | .spokeCtlPowerOn spoke => Sys2Proof.Machine.execSpokeCtlPowerOn spoke s
  | .spokeCtlDisable spoke => Sys2Proof.Machine.execSpokeCtlDisable spoke s
  | .spokeCtlEnable spoke => Sys2Proof.Machine.execSpokeCtlEnable spoke s
  | .slotAttentionWrite spoke val => Sys2Proof.Machine.execSlotAttentionWrite spoke val s
  | .driveDmaRequest spoke addr t => Sys2Proof.Machine.execDriveDmaRequest spoke addr t s
  | .driveCompletion spoke slot hi r => Sys2Proof.Machine.execDriveCompletion spoke slot hi r s
  | .driveReadyTimeout spoke => Sys2Proof.Machine.execDriveReadyTimeout spoke s
  | .abortTimeout spoke => Sys2Proof.Machine.execAbortTimeout spoke s
  | .spokeResetRdyTimeout spoke => Sys2Proof.Machine.execSpokeResetRdyTimeout spoke s
  | .spokeResetLimit spoke => Sys2Proof.Machine.execSpokeResetLimit spoke s
  | .driveIdleTimer spoke ps => Sys2Proof.Machine.execDriveIdleTimer spoke ps s
  | .driveFormat c cdw10 offered => Sys2Proof.Machine.execDriveFormat c cdw10 offered s
  | .presenceStable bay => Sys2Proof.Machine.execPresenceStable bay s
  | .rampEnd bay => Sys2Proof.Machine.execRampEnd bay s
  | .bayPowerGood bay tripToo => Sys2Proof.Machine.execBayPowerGood bay tripToo s
  | .fastTrip bay iMa => Sys2Proof.Machine.execFastTrip bay iMa s
  | .breakerTrip bay iMa => Sys2Proof.Machine.execBreakerTrip bay iMa s
  | .undervoltageTrip bay iMa => Sys2Proof.Machine.execUndervoltageTrip bay iMa s
  | .coolDownEnd bay stable => Sys2Proof.Machine.execCoolDownEnd bay stable s
  | .retryCountRefresh bay => Sys2Proof.Machine.execRetryCountRefresh bay s
  | .bayClear bay val => Sys2Proof.Machine.execBayClear bay val s
  | .feedGood group feedB => Sys2Proof.Machine.execFeedGood group feedB s
  | .feedBad group feedB => Sys2Proof.Machine.execFeedBad group feedB s
  | .feedBbmEnd group => Sys2Proof.Machine.execFeedBbmEnd group s
  | .feedRevert group => Sys2Proof.Machine.execFeedRevert group s
  | .feedSwitchToA group val => Sys2Proof.Machine.execFeedSwitchToA group val s
  | .feedSwitchToB group val => Sys2Proof.Machine.execFeedSwitchToB group val s
  | .feedSwitchSettle group => Sys2Proof.Machine.execFeedSwitchSettle group s
  | .bayTelemetrySample bay iMa vMv peak aMv bMv => Sys2Proof.Machine.execBayTelemetrySample bay iMa vMv peak aMv bMv s
  | .outputHoldExpiry => Sys2Proof.Machine.execOutputHoldExpiry s
  | .bayRailLoss => Sys2Proof.Machine.execBayRailLoss s
  | .bayRailReturn powered => Sys2Proof.Machine.execBayRailReturn powered s
  | .ownFeed path val => Sys2Proof.Machine.execOwnFeed path val s
  | .heartbeatGap group => Sys2Proof.Machine.execHeartbeatGap group s
  | .heartbeatLapse group fedNow m => Sys2Proof.Machine.execHeartbeatLapse group fedNow m s
  | .lineReleasedSeen group => Sys2Proof.Machine.execLineReleasedSeen group s
  | .lineGapSeen group => Sys2Proof.Machine.execLineGapSeen group s
  | .lineStuck group => Sys2Proof.Machine.execLineStuck group s
  | .lineQuietExpiry group => Sys2Proof.Machine.execLineQuietExpiry group s
  | .bootClaimExpiry group => Sys2Proof.Machine.execBootClaimExpiry group s
  | .checkGapSample group low m powered feedB area => Sys2Proof.Machine.execCheckGapSample group low m powered feedB area s
  | .outputHandoverRelease group => Sys2Proof.Machine.execOutputHandoverRelease group s
  | .takeoverAdmissionOpen group => Sys2Proof.Machine.execTakeoverAdmissionOpen group s
  | .tandemFlitReceive crcOk seq acked => Sys2Proof.Machine.execTandemFlitReceive crcOk seq acked s
  | .tandemLinkUp side fed shelf lanes => Sys2Proof.Machine.execTandemLinkUp side fed shelf lanes s
  | .tandemFlitSilence => Sys2Proof.Machine.execTandemFlitSilence s
  | .peerAliveFall => Sys2Proof.Machine.execPeerAliveFall s
  | .tandemRetrainTimer => Sys2Proof.Machine.execTandemRetrainTimer s
  | .tandemEchoArrival page seq ns => Sys2Proof.Machine.execTandemEchoArrival page seq ns s
  | .echoTimeout who => Sys2Proof.Machine.execEchoTimeout who s
  | .cadenceTick heard => Sys2Proof.Machine.execCadenceTick heard s
  | .cadenceFrameReceive crcOk f => Sys2Proof.Machine.execCadenceFrameReceive crcOk f s
  | .standingMapReceive group entries last => Sys2Proof.Machine.execStandingMapReceive group entries last s
  | .tandemReleaseGroup c cdw10 m => Sys2Proof.Machine.execTandemReleaseGroup c cdw10 m s
  | .abandonHandback c cdw10 cdw11 => Sys2Proof.Machine.execAbandonHandback c cdw10 cdw11 s
  | .svcPerstAssert pin => Sys2Proof.Machine.execSvcPerstAssert pin s
  | .svcLinkUp gts width => Sys2Proof.Machine.execSvcLinkUp gts width s
  | .svcLinkDown => Sys2Proof.Machine.execSvcLinkDown s
  | .bmeClear fn cfg => Sys2Proof.Machine.execBmeClear fn cfg s
  | .bmeSet fn cfg => Sys2Proof.Machine.execBmeSet fn cfg s
  | .bmeHoldExpiry fn => Sys2Proof.Machine.execBmeHoldExpiry fn s
  | .flrInitiate fn => Sys2Proof.Machine.execFlrInitiate fn s
  | .flrComplete fn => Sys2Proof.Machine.execFlrComplete fn s
  | .msixUnmask fn vec newEvent => Sys2Proof.Machine.execMsixUnmask fn vec newEvent s
  | .d3hotEntry fn pmeEn => Sys2Proof.Machine.execD3hotEntry fn pmeEn s
  | .d0Return fn pmeEn => Sys2Proof.Machine.execD0Return fn pmeEn s
  | .mctpControl cmd arg => Sys2Proof.Machine.execMctpControl cmd arg s
  | .mctpSpdm eid length req => Sys2Proof.Machine.execMctpSpdm eid length req s
  | .mctpVendorManagement eid dataLen opcode cid cdw10 cdw11 cdw12 cdw13 cdw14 m => Sys2Proof.Machine.execMctpVendorManagement eid dataLen opcode cid cdw10 cdw11 cdw12 cdw13 cdw14 m s
  | .serviceFunctionBind c cdw10 => Sys2Proof.Machine.execServiceFunctionBind c cdw10 s
  | .eventQueueDrain => Sys2Proof.Machine.execEventQueueDrain s
  | .evrSuppressedSummary => Sys2Proof.Machine.execEvrSuppressedSummary s
  | .eventRead c cdw10 cdw11 cdw12 => Sys2Proof.Machine.execEventRead c cdw10 cdw11 cdw12 s
  | .evrWindowRead path => Sys2Proof.Machine.execEvrWindowRead path s
  | .cycFreeze val => Sys2Proof.Machine.execCycFreeze val s
  | .cycResume val => Sys2Proof.Machine.execCycResume val s
  | .cycClearAll val => Sys2Proof.Machine.execCycClearAll val s
  | .freezePinEdge falling => Sys2Proof.Machine.execFreezePinEdge falling s
  | .cycWindowEnd => Sys2Proof.Machine.execCycWindowEnd s
  | .flipArm val => Sys2Proof.Machine.execFlipArm val s
  | .dramScrubLine region addr r pct => Sys2Proof.Machine.execDramScrubLine region addr r pct s
  | .fieldLock c cdw10 => Sys2Proof.Machine.execFieldLock c cdw10 s
  | .ptbArm injector val => Sys2Proof.Machine.execPtbArm injector val s
  | .ptbDisarm injector val => Sys2Proof.Machine.execPtbDisarm injector val s
  | .injectorRelease injector item => Sys2Proof.Machine.execInjectorRelease injector item s
  | .ptbCaptureRead path => Sys2Proof.Machine.execPtbCaptureRead path s
  | .tempWarning die tempC rearmed => Sys2Proof.Machine.execTempWarning die tempC rearmed s
  | .tempShutdownLimit die m => Sys2Proof.Machine.execTempShutdownLimit die m s
  | .logicHardwareTrip => Sys2Proof.Machine.execLogicHardwareTrip s
  | .bayHardwareTrip => Sys2Proof.Machine.execBayHardwareTrip s
  | .railMonitorTrip rail m => Sys2Proof.Machine.execRailMonitorTrip rail m s
  | .refclkLoss plls m => Sys2Proof.Machine.execRefclkLoss plls m s
  | .refclkRestored m => Sys2Proof.Machine.execRefclkRestored m s
  | .pllLockLost pll => Sys2Proof.Machine.execPllLockLost pll s
  | .jtagBypass => Sys2Proof.Machine.execJtagBypass s
  | .jtagIdcode => Sys2Proof.Machine.execJtagIdcode s
  | .jtagSamplePreload => Sys2Proof.Machine.execJtagSamplePreload s
  | .jtagExtest => Sys2Proof.Machine.execJtagExtest s
  | .jtagClamp => Sys2Proof.Machine.execJtagClamp s
  | .mgmtPortLinkUp => Sys2Proof.Machine.execMgmtPortLinkUp s
  | .mgmtPortLinkDown => Sys2Proof.Machine.execMgmtPortLinkDown s
  | .peerAliveRise => Sys2Proof.Machine.execPeerAliveRise s
  | .remirrorRetryTimer group => Sys2Proof.Machine.execRemirrorRetryTimer group s
  | .flushAgeExpiry chunk stripe => Sys2Proof.Machine.execFlushAgeExpiry chunk stripe s
  | .ownerAuthVerificationDone v => Sys2Proof.Machine.execOwnerAuthVerificationDone v s
  | .svcPerstRelease => Sys2Proof.Machine.execSvcPerstRelease s
  | .svcNvmeRegisterWrite fn off val => Sys2Proof.Machine.execSvcNvmeRegisterWrite fn off val s
  | .svcDmaReadCompletion fn tag what urca => Sys2Proof.Machine.execSvcDmaReadCompletion fn tag what urca s
  | .cstsRdyReached spoke => Sys2Proof.Machine.execCstsRdyReached spoke s
  | .cstsRdyCleared spoke => Sys2Proof.Machine.execCstsRdyCleared spoke s
  | .cstsCfsSet spoke => Sys2Proof.Machine.execCstsCfsSet spoke s
  | .driveAdminCommandTimeout spoke => Sys2Proof.Machine.execDriveAdminCommandTimeout spoke s

end Sys2Proof.Machine
end

