-- ==== Sys2Proof/Machine/Tick.lean ====
section
/-! DEFINITION. What one tick of the timebase changes when no command waits. -/

namespace Sys2Proof.Machine

/-- One 10 ns tick of the timebase (R518), which counts in every mode but Held and is the cyclometer's event 0x0001 (R505),
and the time in Standby or Active (R58); the other effects of time are commands of the table (log 5). -/
def idleTick (s : State) : State :=
  match s.glb.mode with
  | .held => s
  | .standby | .active =>
    count { s with now := (s.now + 1) % 2 ^ 64, glb := { s.glb with runTicks := s.glb.runTicks + 1 } } 0x0001
  | _ => count { s with now := (s.now + 1) % 2 ^ 64 } 0x0001

end Sys2Proof.Machine
end

