-- ==== Sys2Proof/WellFormed.lean ====
section
/-! DEFINITION. Well-formed commands: every instance a command names exists, and every operand fits the field that carries it. A
command about an instance that does not exist stops the machine by name; no other operand ever does. -/

namespace Sys2Proof

/-! ### Instances (R3) -/

def okSub (n : Nat) : Bool := decide (n < 32)
def okPort (n : Nat) : Bool := decide (n < 8)
def okPrio (n : Nat) : Bool := decide (n < 8)
def okFour (n : Nat) : Bool := decide (n < 4)
def okBay (n : Nat) : Bool := decide (n < 64)
def okGroup (n : Nat) : Bool := decide (n < 2)
/-- PF0 and PF1 and the 64 virtual functions (R475). -/
def okFn (n : Nat) : Bool := decide (n < 66)
/-- A command context (R249), or an internal one, numbered from 65,536 on (R260). -/
def okCtx (n : Nat) : Bool := decide (n < 2 ^ 17)
def okTable (n : Nat) : Bool := decide (n < 5)
def okBucket (n : Nat) : Bool := decide (n < 4096)
def okRegion (n : Nat) : Bool := decide (n < 16)
/-- A subsystem (R224): 0 names none. -/
def okVss (n : Nat) : Bool := decide (n < 4096)
/-- A chunk of the map (R323). -/
def okChunk (n : Nat) : Bool := decide (n < 4194304)
/-- A bay of this shelf, or 64 + the shelf of a remote member (R355). -/
def okRebuildBay (n : Nat) : Bool := decide (n < 576)
def okShelf (n : Nat) : Bool := decide (n < 512)
/-- A page index on the tandem link. -/
def okPage (n : Nat) : Bool := decide (n < 2 ^ 20)
/-- An address of the cocoon's 8 GiB (R279). -/
def okLine (n : Nat) : Bool := decide (n < 2 ^ 33)
def okPct (n : Nat) : Bool := decide (n ≤ 100)

/-! ### Widths -/

def ok8 (n : Nat) : Bool := decide (n < 2 ^ 8)
def ok16 (n : Nat) : Bool := decide (n < 2 ^ 16)
def okPsn (n : Nat) : Bool := decide (n < 2 ^ 24)
def ok32 (n : Nat) : Bool := decide (n < 2 ^ 32)
def ok48 (n : Nat) : Bool := decide (n < 2 ^ 48)
def ok64 (n : Nat) : Bool := decide (n < 2 ^ 64)

/-- An association, or the virtual controller of a service-port function (65,536 + function). -/
def okAssoc (n : Nat) : Bool := decide (n < 65536 + 66)

/-! ### Operands of several parts -/

def okOrigin (o : Origin) : Bool :=
  match o with
  | .pf0 => true
  | .mctp eid => ok8 eid
  | .assoc id => okAssoc id
  | .ioq a q => okAssoc a && ok16 q
  | .fn n => okFn n
  | .tq k => decide (k < 16 * 65536)

def okCid (c : Cid) : Bool := okOrigin c.org && ok16 c.cid

/-- An access of the register space, which is 1 MiB (R4, R475). -/
def okAccess (a : Access) : Bool := decide (a.off < 2 ^ 20) && decide (1 ≤ a.size)

/-- A descriptor or a piece of an image is at most 1 MiB (Image Stage Write's LENGTH). -/
def okBytes (d : List Byte) : Bool := decide (d.length ≤ 2 ^ 20)

def okHost (h : HostCmd) : Bool := okCid h.c && ok32 h.nsid && ok64 h.slba && ok16 h.nlb && ok64 h.addr && ok32 h.rkey && ok32 h.len

def okStep (w : StepW) : Bool := ok8 w.a && ok8 w.b && ok8 w.cond && ok8 w.tmo && ok8 w.flags && ok32 w.imm

def okPkt (p : RocePkt) : Bool := ok16 p.pkey && okPsn p.qpn && ok8 p.op && okPsn p.psn && ok32 p.rkey && ok64 p.va && ok32 p.imm

def okFrame (f : EthFrame) : Bool := okSub f.sub && ok16 f.len && ok48 f.dst && ok16 f.ety && ok16 f.ety2 && f.tags.all ok16

def okReq (r : CmReq) : Bool := okSub r.sub && decide (r.rqpn < 2 ^ 24) && ok16 r.cntlid && okShelf r.member

def okConnect (r : ConnectReq) : Bool := ok16 r.qid && ok16 r.sqsize && ok32 r.kato && ok16 r.cntlid && decide (r.subnqn.length ≤ 256)

def okSpdm (r : SpdmReq) : Bool :=
  match r with
  | .getVersion | .getCapabilities | .getDigests => true
  | .negotiateAlgorithms _ _ _ _ => true
  | .getCertificate slot off len => ok8 slot && ok32 off && ok32 len
  | .challenge slot summary _ => ok8 slot && ok8 summary
  | .getMeasurements i _ _ => ok8 i
  | .other code => ok8 code

def okObj (o : InstarObj) : Bool :=
  match o with
  | .vss n => okVss n
  | .vc a => okAssoc a
  | .qp n => ok16 n
  | .tq k => decide (k < 16 * 65536)
  | .spoke n | .drive n => okBay n
  | .window _ => true
  | .fn n => okFn n

def okWaiter (w : EchoWaiter) : Bool :=
  match w with
  | .ctx n => okCtx n
  | .remirror g => okGroup g

/-- What lies in a window slot (R361, R362): a header of 128 bytes and at most 16 rows of data and metadata. -/
def okIn (d : PorporIn) : Bool := d.head.length == 128 && decide (d.rows.length ≤ 16)

/-- A queue entry is 64 bytes (R204). -/
def okEntry (e : List Byte) : Bool := e.length == 64
def okEntries (l : List (List Byte)) : Bool := l.all okEntry

/-- SN, MN and NGUID of a drive are 76 bytes (R424). -/
def okDrive (r : DriveResult) : Bool :=
  match r with
  | .ident i => i.idBytes.length == 76
  | .io _ | .aborted | .formatted _ => true

def okTarget (t : DmaTarget) : Bool :=
  match t with
  | .buffer slot => ok16 slot
  | .queueMem | .other => true

/-- A well-formed command. -/
def Instr.wf (i : Instr) : Bool :=
  match i with
  | .plainRegisterWrite a _ _ _ => okAccess a
  | .readClearCounter a hwInc => okAccess a && ok32 hwInc
  | .loRegisterRead a => okAccess a
  | .hiRegisterWrite a _ => okAccess a
  | .loRegisterWrite a _ => okAccess a
  | .selectRegisterWrite a _ => okAccess a
  | .registerRead c _ _ _ _ => okCid c
  | .registerWrite c _ _ _ _ _ _ => okCid c
  | .pwronLAsserted => true
  | .pwronLReleased _ _ => true
  | .memoryPreparationDone _ _ => true
  | .imageLoadDone _ => true
  | .imageVerificationDone _ _ _ => true
  | .configurationDone => true
  | .dramTrainingDone _ _ => true
  | .dramSweepDone _ _ _ => true
  | .recoveryScanDone _ => true
  | .bootRecordWritten _ _ ms => ok32 ms
  | .bootStageLimitExpiry => true
  | .watchdogExpiry _ => true
  | .shutdownRequest _ => true
  | .safeRequest _ => true
  | .warmResetRequest _ _ => true
  | .coldResetRequest _ _ => true
  | .drainShutdownComplete _ => true
  | .drainLimitExpiry _ => true
  | .pwrfailLAsserted _ => true
  | .pwrfailStableRelease _ => true
  | .imageStageWrite c offset length _ data => okCid c && ok32 offset && ok32 length && okBytes data
  | .imageStageCommit c imageLen _ => okCid c && ok32 imageLen
  | .imageActivateLive c _ => okCid c
  | .imageActivateWarm c _ => okCid c
  | .imageSlotInfo c => okCid c
  | .stagingSessionTimeout => true
  | .imageSwap _ holdMs _ => ok32 holdMs
  | .activationHoldExpiry c => okCid c
  | .trsEnroll _ => true
  | .trsRevoke _ => true
  | .trsAdvanceMinSvn _ => true
  | .otpBurnComplete _ => true
  | .trsKeyRead _ => true
  | .spdmExchange c length req => okCid c && ok32 length && okSpdm req
  | .getVersion ep => okOrigin ep
  | .getCapabilities ep => okOrigin ep
  | .negotiateAlgorithms ep _ _ _ _ => okOrigin ep
  | .getDigests ep => okOrigin ep
  | .getCertificate ep slot offset length => okOrigin ep && ok16 slot && ok32 offset && ok32 length
  | .challenge ep slot summary _ => okOrigin ep && ok16 slot && ok8 summary
  | .getMeasurements ep index _ _ => okOrigin ep && ok8 index
  | .spdmUnsupportedRequest ep code => okOrigin ep && ok8 code
  | .spdmContextIdleExpiry ep => okOrigin ep
  | .ethFrameReceive f => okFrame f
  | .linkTrainTimeout sp => okSub sp
  | .linkTrainRetryTimer sp => okSub sp
  | .subportLinkUp sp pmd _ => okSub sp && okPrio pmd
  | .subportLinkDown sp => okSub sp
  | .pfcPauseExpiry sp prio => okSub sp && okPrio prio
  | .pfcWatchdogExpiry sp prio _ => okSub sp && okPrio prio
  | .pfcWatchdogResume sp prio => okSub sp && okPrio prio
  | .addressSlotApply _ => true
  | .macsecRxSaInstall port sc sp an pn => okPort port && okSub sc && okFour sp && okFour an && ok32 pn
  | .macsecTxSaInstall port sc sp an pn => okPort port && okSub sc && okFour sp && okFour an && ok32 pn
  | .macsecRxSaRetire port sc an => okPort port && okSub sc && okFour an
  | .subportTransmit sp _ _ _ => okSub sp
  | .rocePacketReceive sp prio p => okSub sp && okPrio prio && okPkt p
  | .cmReq r => okReq r
  | .cmRtu qp => ok16 qp
  | .cmDreq qp => ok16 qp
  | .qpTeardown _ => true
  | .qpContextFree qp => ok16 qp
  | .qpContextFetchDone qp _ => ok16 qp
  | .ackCoalesceExpiry qp psn => ok16 qp && okPsn psn
  | .ackTimeout qp psn => ok16 qp && okPsn psn
  | .rnrWaitExpiry qp => ok16 qp
  | .messageLifetimeExpiry qp at_ => ok16 qp && ok64 at_
  | .rateAlphaTimer qp _ => ok16 qp
  | .rateIncreaseTimer qp _ => ok16 qp
  | .qpPacketSend qp draw => ok16 qp && ok32 draw
  | .dlogEnable _ => true
  | .dlogDisable _ => true
  | .qpDlogJoin _ => true
  | .dlogHarvestRead _ setNow => ok32 setNow
  | .instarBumpDeferred o => okObj o
  | .fabricsConnect qp cid r => ok16 qp && ok16 cid && okConnect r
  | .authenticationSend c qid _ => okCid c && ok16 qid
  | .authenticationReceive c qid => okCid c && ok16 qid
  | .authTimeout assoc qid => okAssoc assoc && ok16 qid
  | .propertyGet c off => okCid c && ok32 off
  | .propertySet c off val => okCid c && ok32 off && ok64 val
  | .keepAlive c => okCid c
  | .keepAliveExpiry assoc => okAssoc assoc
  | .identify c cns nsid => okCid c && ok8 cns && ok32 nsid
  | .getLogPage c lid _ => okCid c && ok8 lid
  | .getFeatures c fid => okCid c && ok8 fid
  | .setFeatures c fid val => okCid c && ok8 fid && ok32 val
  | .asyncEventRequest c => okCid c
  | .abort c qid cid => okCid c && ok16 qid && ok16 cid
  | .sanitize c cdw10 => okCid c && ok32 cdw10
  | .formatNvm c nsid cdw10 => okCid c && ok32 nsid && ok32 cdw10
  | .vdqCreate c desc => okCid c && okBytes desc
  | .vdqDelete c cdw10 => okCid c && ok32 cdw10
  | .nvmRead h => okHost h
  | .nvmWrite h => okHost h
  | .nvmFlush h => okHost h
  | .writeZeroes h => okHost h
  | .datasetManagement h => okHost h
  | .nvmCompare h => okHost h
  | .admissionReopen vss => okVss vss
  | .sqTailDoorbell qp imm => ok16 qp && ok32 imm
  | .cqHeadDoorbell qp imm => ok16 qp && ok32 imm
  | .pushDoorbell qp imm entry _ _ => ok16 qp && ok32 imm && okEntry entry
  | .vdqFetch => true
  | .vdqFetchResponse qp qidx tag entries => ok16 qp && okRegion qidx && ok32 tag && okEntries entries
  | .cqStallExpiry qp qidx => ok16 qp && okRegion qidx
  | .notifyTimerExpiry qp qidx => ok16 qp && okRegion qidx
  | .tenantQueueFree qp qidx => ok16 qp && okRegion qidx
  | .idleLevel1Entry => true
  | .idleLevel2Entry => true
  | .managementChallenge c => okCid c
  | .managementProve c anchor data _ => okCid c && ok8 anchor && okBytes data
  | .mgmtAuthTimeout assoc => okAssoc assoc
  | .vssCreate c desc => okCid c && okBytes desc
  | .vssChangeShare c desc => okCid c && okBytes desc
  | .vssReset c cdw10 => okCid c && ok32 cdw10
  | .vssRemove c cdw10 => okCid c && ok32 cdw10
  | .hostEntrySet c data => okCid c && okBytes data
  | .catalogRead c cdw10 cdw11 cdw12 => okCid c && ok32 cdw10 && ok32 cdw11 && ok32 cdw12
  | .tenantQueueFreeze c cdw10 cdw11 => okCid c && ok32 cdw10 && ok32 cdw11
  | .tenantQueueSave c cdw10 cdw11 len => okCid c && ok32 cdw10 && ok32 cdw11 && ok32 len
  | .tenantQueueRestore c off _ data => okCid c && ok32 off && okBytes data
  | .tenantQueueThaw c cdw10 => okCid c && ok32 cdw10
  | .dirtyLogControl c cdw10 cdw11 cdw12 cdw13 => okCid c && ok32 cdw10 && ok32 cdw11 && ok32 cdw12 && ok32 cdw13
  | .dirtyLogHarvest c cdw10 cdw11 cdw12 => okCid c && ok32 cdw10 && ok32 cdw11 && ok32 cdw12
  | .virtualControllerReset c cdw10 => okCid c && ok32 cdw10
  | .namespaceCreate c desc => okCid c && okBytes desc
  | .namespaceDelete c nsid => okCid c && ok32 nsid
  | .namespaceAttach c nsid _ => okCid c && ok32 nsid
  | .namespaceDetach c nsid _ => okCid c && ok32 nsid
  | .catalogChangeReceive _ id _ => ok64 id
  | .catalogEchoReceive id => ok64 id
  | .catalogPartnerTimeout id => ok64 id
  | .catalogCopyDone _ => true
  | .vssResetDone vss => okVss vss
  | .vssRemoveDone vss => okVss vss
  | .tqFreezeComplete qp qidx => ok16 qp && okRegion qidx
  | .tqFreezeTimeout qp qidx => ok16 qp && okRegion qidx
  | .sanitizeQuiesced vss => okVss vss
  | .sanitizeChunkErased ns chunk _ => ok16 ns && okChunk chunk
  | .formatNvmQuiesced ns => ok16 ns
  | .nop ctx w => okCtx ctx && okStep w
  | .end_ ctx w => okCtx ctx && okStep w
  | .jmp ctx w => okCtx ctx && okStep w
  | .br ctx w => okCtx ctx && okStep w
  | .call ctx w => okCtx ctx && okStep w
  | .ret ctx w => okCtx ctx && okStep w
  | .fail ctx w => okCtx ctx && okStep w
  | .wait ctx w => okCtx ctx && okStep w
  | .ldi ctx w => okCtx ctx && okStep w
  | .mov ctx w => okCtx ctx && okStep w
  | .add ctx w => okCtx ctx && okStep w
  | .addi ctx w => okCtx ctx && okStep w
  | .sub ctx w => okCtx ctx && okStep w
  | .and_ ctx w => okCtx ctx && okStep w
  | .shr ctx w => okCtx ctx && okStep w
  | .shl ctx w => okCtx ctx && okStep w
  | .cmp ctx w => okCtx ctx && okStep w
  | .cmpi ctx w => okCtx ctx && okStep w
  | .mark ctx w => okCtx ctx && okStep w
  | .ilock ctx w _ => okCtx ctx && okStep w
  | .iwait ctx w => okCtx ctx && okStep w
  | .irel ctx w => okCtx ctx && okStep w
  | .nsfence ctx w => okCtx ctx && okStep w
  | .tref ctx w => okCtx ctx && okStep w
  | .tdrop ctx w => okCtx ctx && okStep w
  | .clook ctx w _ => okCtx ctx && okStep w
  | .cstage ctx w _ => okCtx ctx && okStep w
  | .ccommit ctx w => okCtx ctx && okStep w
  | .cread ctx w _ _ => okCtx ctx && okStep w
  | .cdealloc ctx w => okCtx ctx && okStep w
  | .echowait ctx w => okCtx ctx && okStep w
  | .hread ctx w => okCtx ctx && okStep w
  | .hwrite ctx w => okCtx ctx && okStep w
  | .cpl ctx w => okCtx ctx && okStep w
  | .compare ctx w => okCtx ctx && okStep w
  | .pichk ctx w => okCtx ctx && okStep w
  | .map ctx w _ => okCtx ctx && okStep w
  | .dread ctx w _ => okCtx ctx && okStep w
  | .dverify ctx w _ => okCtx ctx && okStep w
  | .recon ctx w _ => okCtx ctx && okStep w
  | .dwrite ctx w => okCtx ctx && okStep w
  | .parity ctx w _ => okCtx ctx && okStep w
  | .dzero ctx w => okCtx ctx && okStep w
  | .frag ctx w => okCtx ctx && okStep w
  | .crelease ctx w => okCtx ctx && okStep w
  | .count_ ctx w skid _ => okCtx ctx && okStep w && ok8 skid
  | .event ctx w => okCtx ctx && okStep w
  | .contextResume core _ => okSub core
  | .internalContextStart _ => true
  | .waitTimeout ctx waitNo instar => okCtx ctx && ok16 waitNo && ok16 instar
  | .interlockGrant ctx => okCtx ctx
  | .nsfenceDone ctx => okCtx ctx
  | .hostTransferComplete ctx _ _ _ _ => okCtx ctx
  | .tableSlotRetry table => okTable table
  | .seqSampleRead _ => true
  | .formatCocoon c cdw10 => okCid c && ok32 cdw10
  | .odometerPersist => true
  | .odometerTick => true
  | .mirrorLineReceive page _ => okPage page
  | .mirrorRecordReceive page _ crc => okPage page && ok32 crc
  | .mirrorResetReceive group => okGroup group
  | .indexRebuildDone => true
  | .flushStripeStart => true
  | .mirrorAdoptionDone group => okGroup group
  | .handbackPageReceive group ns _ => okGroup group && ok16 ns
  | .handbackConfirmReceive group => okGroup group
  | .lineFetchResponse page _ _ => okPage page
  | .counterReserveEcho slot to_ => ok16 slot && ok48 to_
  | .counterReserveTimeout slot => ok16 slot
  | .cocoonScrubLine addr _ => okLine addr
  | .stackAccessTimeout stack _ => okGroup stack
  | .cocPageRecordRead _ => true
  | .mapReloadDone chunk => okChunk chunk
  | .rebuildDelayExpiry bay => okRebuildBay bay
  | .rebuildStart c cdw10 => okCid c && ok32 cdw10
  | .rebuildCancel c cdw10 => okCid c && ok32 cdw10
  | .chunkMapRead c cdw10 => okCid c && ok32 cdw10
  | .keyRotate c cdw10 => okCid c && ok32 cdw10
  | .rekeyPassStart slot => ok16 slot
  | .reconWriteback chunk stripe row _ => okChunk chunk && ok32 stripe && okRegion row
  | .stripWrite qp slot d => ok16 qp && ok16 slot && okIn d
  | .stripRead qp slot d => ok16 qp && ok16 slot && okIn d
  | .alloc qp slot d => ok16 qp && ok16 slot && okIn d
  | .leaseFree qp slot d => ok16 qp && ok16 slot && okIn d
  | .porporAccept qp slot => ok16 qp && ok16 slot
  | .porporRefuse qp slot code => ok16 qp && ok16 slot && ok8 code
  | .readData qp d => ok16 qp && okIn d
  | .allocReply qp d => ok16 qp && okIn d
  | .fragTimeout tag _ => ok32 tag
  | .peerWindowApply _ => true
  | .federationMemberSet c data => okCid c && okBytes data
  | .leaseCreate c cdw10 cdw11 data => okCid c && ok32 cdw10 && ok32 cdw11 && okBytes data
  | .leaseRead c cdw10 => okCid c && ok32 cdw10
  | .leaseRelease c cdw10 => okCid c && ok32 cdw10
  | .pfcXoffRefresh sp prio => okSub sp && okPrio prio
  | .mcastDestTimeout _ ctx _ => okCtx ctx
  | .bucketReturn bucket => okBucket bucket
  | .leakAuditPass _ => true
  | .shaperRefill => true
  | .policerRefill => true
  | .schSampleSelect _ => true
  | .bayScanFrame _ _ => true
  | .linkUpTimeout spoke => okBay spoke
  | .spokeLinkUp spoke gts width => okBay spoke && ok16 gts && ok8 width
  | .spokeDpc spoke trigger => okBay spoke && (decide (trigger ≤ 2) || trigger == 4)
  | .containmentRelease spoke => okBay spoke
  | .buttonTimerExpiry spoke => okBay spoke
  | .orderlyRemovalProgress spoke _ => okBay spoke
  | .spokeCtlReset spoke => okBay spoke
  | .spokeCtlPowerOff spoke => okBay spoke
  | .spokeCtlPowerOn spoke => okBay spoke
  | .spokeCtlDisable spoke => okBay spoke
  | .spokeCtlEnable spoke => okBay spoke
  | .slotAttentionWrite spoke _ => okBay spoke
  | .driveDmaRequest spoke addr t => okBay spoke && ok64 addr && okTarget t
  | .driveCompletion spoke slot hi r => okBay spoke && ok16 slot && ok8 hi && okDrive r
  | .driveReadyTimeout spoke => okBay spoke
  | .abortTimeout spoke => okBay spoke
  | .spokeResetRdyTimeout spoke => okBay spoke
  | .spokeResetLimit spoke => okBay spoke
  | .driveIdleTimer spoke _ => okBay spoke
  | .driveFormat c cdw10 _ => okCid c && ok32 cdw10
  | .presenceStable bay => okBay bay
  | .rampEnd bay => okBay bay
  | .bayPowerGood bay _ => okBay bay
  | .fastTrip bay iMa => okBay bay && ok32 iMa
  | .breakerTrip bay iMa => okBay bay && ok32 iMa
  | .undervoltageTrip bay iMa => okBay bay && ok32 iMa
  | .coolDownEnd bay _ => okBay bay
  | .retryCountRefresh bay => okBay bay
  | .bayClear bay _ => okBay bay
  | .feedGood group _ => okGroup group
  | .feedBad group _ => okGroup group
  | .feedBbmEnd group => okGroup group
  | .feedRevert group => okGroup group
  | .feedSwitchToA group _ => okGroup group
  | .feedSwitchToB group _ => okGroup group
  | .feedSwitchSettle group => okGroup group
  | .bayTelemetrySample bay iMa vMv peak aMv bMv => okBay bay && ok32 iMa && ok32 vMv && ok32 peak && ok32 aMv && ok32 bMv
  | .outputHoldExpiry => true
  | .bayRailLoss => true
  | .bayRailReturn _ => true
  | .ownFeed _ _ => true
  | .heartbeatGap group => okGroup group
  | .heartbeatLapse group _ _ => okGroup group
  | .lineReleasedSeen group => okGroup group
  | .lineGapSeen group => okGroup group
  | .lineStuck group => okGroup group
  | .lineQuietExpiry group => okGroup group
  | .bootClaimExpiry group => okGroup group
  | .checkGapSample group _ _ _ _ _ => okGroup group
  | .outputHandoverRelease group => okGroup group
  | .takeoverAdmissionOpen group => okGroup group
  | .tandemFlitReceive _ seq acked => ok16 seq && ok16 acked
  | .tandemLinkUp _ fed shelf lanes => ok16 fed && okShelf shelf && ok8 lanes
  | .tandemFlitSilence => true
  | .peerAliveFall => true
  | .tandemRetrainTimer => true
  | .tandemEchoArrival page seq ns => okPage page && ok48 seq && ok32 ns
  | .echoTimeout who => okWaiter who
  | .cadenceTick _ => true
  | .cadenceFrameReceive _ _ => true
  | .standingMapReceive group _ _ => okGroup group
  | .tandemReleaseGroup c cdw10 _ => okCid c && ok32 cdw10
  | .abandonHandback c cdw10 cdw11 => okCid c && ok32 cdw10 && ok32 cdw11
  | .svcPerstAssert _ => true
  | .svcLinkUp gts width => ok16 gts && ok8 width
  | .svcLinkDown => true
  | .bmeClear fn _ => okFn fn
  | .bmeSet fn _ => okFn fn
  | .bmeHoldExpiry fn => okFn fn
  | .flrInitiate fn => okFn fn
  | .flrComplete fn => okFn fn
  | .msixUnmask fn vec _ => okFn fn && ok16 vec
  | .d3hotEntry fn _ => okFn fn
  | .d0Return fn _ => okFn fn
  | .mctpControl cmd arg => ok8 cmd && ok32 arg
  | .mctpSpdm eid length req => ok8 eid && ok32 length && okSpdm req
  | .mctpVendorManagement eid dataLen opcode cid cdw10 cdw11 cdw12 cdw13 cdw14 _ => ok8 eid && ok32 dataLen && ok8 opcode && ok16 cid && ok32 cdw10 && ok32 cdw11 && ok32 cdw12 && ok32 cdw13 && ok32 cdw14
  | .serviceFunctionBind c cdw10 => okCid c && ok32 cdw10
  | .eventQueueDrain => true
  | .evrSuppressedSummary => true
  | .eventRead c cdw10 cdw11 cdw12 => okCid c && ok32 cdw10 && ok32 cdw11 && ok32 cdw12
  | .evrWindowRead _ => true
  | .cycFreeze _ => true
  | .cycResume _ => true
  | .cycClearAll _ => true
  | .freezePinEdge _ => true
  | .cycWindowEnd => true
  | .flipArm _ => true
  | .dramScrubLine region _ _ pct => okRegion region && okPct pct
  | .fieldLock c cdw10 => okCid c && ok32 cdw10
  | .ptbArm injector _ => okPrio injector
  | .ptbDisarm injector _ => okPrio injector
  | .injectorRelease injector item => okPrio injector && ok32 item
  | .ptbCaptureRead _ => true
  | .tempWarning _ tempC _ => ok16 tempC
  | .tempShutdownLimit _ _ => true
  | .logicHardwareTrip => true
  | .bayHardwareTrip => true
  | .railMonitorTrip rail _ => okFour rail
  | .refclkLoss _ _ => true
  | .refclkRestored _ => true
  | .pllLockLost pll => okFour pll
  | .jtagBypass => true
  | .jtagIdcode => true
  | .jtagSamplePreload => true
  | .jtagExtest => true
  | .jtagClamp => true
  | .mgmtPortLinkUp => true
  | .mgmtPortLinkDown => true
  | .peerAliveRise => true
  | .remirrorRetryTimer group => okGroup group
  | .flushAgeExpiry chunk stripe => okChunk chunk && ok32 stripe
  | .ownerAuthVerificationDone _ => true
  | .svcPerstRelease => true
  | .svcNvmeRegisterWrite fn off _ => okFn fn && ok32 off
  | .svcDmaReadCompletion fn tag _ _ => okFn fn && ok32 tag
  | .cstsRdyReached spoke => okBay spoke
  | .cstsRdyCleared spoke => okBay spoke
  | .cstsCfsSet spoke => okBay spoke
  | .driveAdminCommandTimeout spoke => okBay spoke

end Sys2Proof
end

