-- ==== Sys2Proof/Safety.lean ====
section
/-! DEFINITION. What counts as a safe state and as a safe run of the block, in the terms the statements use. -/

namespace Sys2Proof.Machine

/-- The two byte memories of the block, TRS_BUF and the NOR, are in their canonical form. -/
def MemInv (s : State) : Prop := Memory.wf 0 s.trs.buf = true ∧ Memory.wf 0xFF s.nor.flash = true

/-- Every waiting command is well formed. -/
def QueueInv (s : State) : Prop := ∀ i ∈ s.pending, i.wf = true

/-- A safe state: canonical memories, and only well-formed commands wait. -/
def SafeState (s : State) : Prop := MemInv s ∧ QueueInv s

/-- The state after `n` steps; a fault or a refusal ends the run. -/
def runFor (n : Nat) (s : State) : Host.Outcome State Fault Refusal :=
  match n with
  | 0 => .next s
  | n + 1 => match step s with
    | .next t => runFor n t
    | .fault e => .fault e
    | .refused r => .refused r

/-- One-time storage of `t` holds what that of `s` held: a field lock stays, and the SVN bank only grows (R117, R510). -/
def OtpGrows (s t : State) : Prop := (s.trs.fieldLock = true → t.trs.fieldLock = true) ∧ s.trs.svnBank <+: t.trs.svnBank

/-- What every reset of the logic die clears and keeps (R7, R52, R53, R102): the timebase restarts, the RW registers, the running
image, TRS_BUF, the queue pairs, associations, tenant queues, contexts, ports, spokes and links return to their reset values, no group is
owned, the boot lock is released; the NOR (with the slot of an open staging session erased), the bank of security versions, the field
lock and the waiting commands stay. -/
def ResetScope (s t : State) : Prop :=
  t.pending = s.pending ∧ t.now = 0 ∧ t.regs.rw = [] ∧ t.cfg = {} ∧ t.trs.buf = [] ∧ t.trs.svnBank = s.trs.svnBank
    ∧ t.trs.fieldLock = s.trs.fieldLock
    ∧ t.nor.flash = (if s.nor.session.isNone then s.nor.flash else eraseSlot s.nor.flash (otherSlot s))
    ∧ t.nor.session = none ∧ t.prt = {} ∧ t.rdt.qps = [] ∧ t.cfe.assocs = [] ∧ t.cfe.tqs = [] ∧ t.seq = {} ∧ t.swc = {}
    ∧ t.spk.spokes = [] ∧ t.tdm.linkUp = false ∧ (grpOf t 0).owned = false ∧ (grpOf t 1).owned = false ∧ t.glb.bootLock = false

/-- A start-up follows a reset: Boot at step 2 with the cause given, once every PLL has locked at the first or the second try; else
the controller stays in Held (R47, R57, R75). -/
def StartsUp (s t : State) (cause : Nat) (m : Moment) : Prop :=
  ResetScope s t ∧ t.glb.resetCause = cause
    ∧ (m.lock1 ||| m.lock2 = 31 → t.glb.mode = .boot ∧ t.glb.bootStep = 2 ∧ t.glb.transientSeen = (m.lock1 != 31))
    ∧ (m.lock1 ||| m.lock2 ≠ 31 → t.glb.mode = .held)

/-- An admin command `c` comes from the fabric association `a` of a tenant's host, `x` its record: the association stands, has
authenticated if it must, and has no command with the same identifier outstanding (R195, R197). -/
abbrev HostAdmin (s : State) (c : Cid) (a : Nat) (x : Assoc) : Prop :=
  dataRuns s = true ∧ c.org = .assoc a ∧ a < 65536 ∧ assocOf s a = some x ∧ cidBusy s c = false
    ∧ x.auth = false ∧ x.mgmt = false ∧ x.disc = false ∧ capBad x c.cid = none

/-- The context holds a thread (R250). -/
def onThread (c : Ctx) : Bool := match c.run with | .thread _ => true | _ => false

/-- The step that stands at the context's place in its list is the one given; the lists whose steps the spec does not give hold
any step (R253, R275). -/
def stepHere (s : State) (c : Ctx) (opc : Nat) (w : StepW) : Bool :=
  match stepAt s c.list c.step with
  | .known x => x == { opc := opc, w := w }
  | .any => true
  | .past => false

/-- The context `c` with index `n` may run the step of opcode `opc` and words `w` now: it holds a thread, that step is at its
place, the mode runs the data path, and it has steps left to run (R250, R253, R275). -/
abbrev AtStep (s : State) (n : Nat) (c : Ctx) (opc : Nat) (w : StepW) : Prop :=
  ctxOf s n = some c ∧ onThread c = true ∧ stepHere s c opc w = true ∧ dataRuns s = true ∧ (c.steps < stepLimit s ∨ c.cmd = none)

/-- A context that has run one step more and stands at the next one. -/
def advanced (c : Ctx) : Ctx := { c with steps := c.steps + 1, step := c.step + 1 }

/-- A state in which one more step of `c` has been counted (R274). -/
def ticked (s : State) (c : Ctx) (n : Nat) : State := countSkid s c n 0x0601 false

/-- A management command `c` comes, in a mode that serves them, from a sender with the role of bit `r` (R223, R224). -/
abbrev Manager (s : State) (c : Cid) (r : Nat) : Prop := mgmtFull s = true ∧ hasRole s c r = none

/-- The row of an I/O command by its class: 0 NVM_READ, 1 NVM_WRITE, 2 NVM_FLUSH, 3 WRITE_ZEROES, 4 DATASET_MANAGEMENT,
5 NVM_COMPARE. -/
def nvmRow (cls : Nat) (h : HostCmd) : Instr :=
  match cls with
  | 0 => .nvmRead h
  | 1 => .nvmWrite h
  | 2 => .nvmFlush h
  | 3 => .writeZeroes h
  | 4 => .datasetManagement h
  | _ => .nvmCompare h

/-- An I/O command `h` stands at the head of the I/O queue `i` of the association `a`, whose record is `x`: the front end
runs, no injector is available to hold it, the transport has executed its first packet, the queue has authenticated if it must, and no
command with its identifier is outstanding there (R170, R193, R211). -/
abbrev HostIo (s : State) (h : HostCmd) (a qid : Nat) (x : Assoc) (i : IoQ) : Prop :=
  frontRuns s = true ∧ s.ptb.available = false ∧ h.c.org = .ioq a qid ∧ assocOf s a = some x
    ∧ (x.ioqs.find? fun i => i.qid == qid) = some i ∧ i.auth = false ∧ cidBusy s h.c = false
    ∧ (headMsg (qpOf s i.qp)).isNone = false

/-- A command that may change TRS_BUF or the NOR: a reset, a key read, a stage write or commit, the end of a staging session (an FLR
of PF0 that owns it, and a cleared VF, among them), a register write that may reach TRS_BUF, TRS_KEY or GBL_RESET, a packet that an
injector lets go or that meets poison in the firmware, and what ends in one of them. -/
def writesMemory (i : Instr) : Bool :=
  match i with
  | .trsKeyRead _ | .imageStageWrite _ _ _ _ _ | .imageStageCommit _ _ _ | .imageActivateWarm _ _ => true
  | .plainRegisterWrite _ _ _ _ | .hiRegisterWrite _ _ | .loRegisterWrite _ _ | .selectRegisterWrite _ _ => true
  | .registerWrite _ _ _ _ _ _ _ | .mctpVendorManagement _ _ _ _ _ _ _ _ _ _ => true
  | .pwronLAsserted | .pwronLReleased _ _ | .warmResetRequest _ _ | .coldResetRequest _ _ | .watchdogExpiry _ => true
  | .pwrfailStableRelease _ | .refclkRestored _ | .logicHardwareTrip => true
  | .fieldLock _ _ | .stagingSessionTimeout | .svcPerstAssert _ | .flrInitiate _ | .bmeClear _ _ | .bmeSet _ _ => true
  | .ptbArm _ _ | .ptbDisarm _ _ | .injectorRelease _ _ | .rocePacketReceive _ _ _ => true
  | _ => false

/-- Context `m` exists and its class may have a thread of core `k` now (R254). -/
def readyFor (s : State) (k m : Nat) : Bool :=
  match ctxOf s m with
  | some c => entitled s k c.drain
  | none => false

end Sys2Proof.Machine
end

