-- ==== Sys2Proof/Certificates/Slice0/Obligations.lean ====
section
/-! DEFINITION. The statements for the provers. Each is a conjunction; the comment before a part says it in words. Where a
part has a premise that names a record (`x = spkOf s b`), it only gives that record its name. -/

open Sys2Proof Sys2Proof.Machine

/-- A step runs the command at the front of the queue with the queue's rest, and with no command waiting it is one tick of the timebase.
For every state. Rests on parts of R4, spec/02_modes_and_startup.md. -/
def Obligations.StepRunsFront : Prop :=
  -- A step with the command c at the front of the queue is exec of c on the state with the queue's rest.
  (∀ (c : Instr) (l : List Instr) (s : State), step { s with pending := c :: l } = exec c { s with pending := l }) ∧
  -- With no command waiting a step is one tick: outside Held the timebase moves by one, modulo 2^64, and in Held nothing
  -- changes (the model's choice, log 5).
  (∀ (s : State), s.pending = [] → (s.glb.mode = .held → step s = .next s) ∧ (s.glb.mode ≠ .held → ∃ t, step s = .next t ∧ t.now = (s.now + 1) % 2 ^ 64 ∧ t.glb.mode = s.glb.mode ∧ t.pending = []))

/-- The state right after reset: Held, with PWRON_L asserted, an empty queue and nothing in progress.
The values the spec gives for reset. Rests on parts of R45, R46, R52, R53. -/
def Obligations.ResetState : Prop :=
  -- After reset the mode is Held, PWRON_L is asserted, the timebase is 0, no command waits, no image is running, nothing is
  -- pending in the event recorder, no context, page, queue pair, association, spoke or group is in use and the link to the
  -- partner is down; a command that needs an operational mode changes nothing there: a request for shutdown, for Safe or for a
  -- reset.
  (State.reset.glb.mode = .held ∧ State.reset.glb.pwronL = true ∧ State.reset.now = 0 ∧ State.reset.pending = [] ∧ State.reset.cfg.valid = false ∧ State.reset.evr.queue = [] ∧ State.reset.seq.ctxs = [] ∧ State.reset.coc.own = [] ∧ State.reset.rdt.qps = [] ∧ State.reset.cfe.assocs = [] ∧ (∀ b, (spkOf State.reset b).state = .disabled) ∧ (∀ g, (grpOf State.reset g).owned = false) ∧ State.reset.tdm.linkUp = false ∧ (∀ m, exec (.shutdownRequest m) State.reset = .next State.reset) ∧ (∀ m, exec (.safeRequest m) State.reset = .next State.reset) ∧ (∀ v m, exec (.warmResetRequest v m) State.reset = .next State.reset))

/-- TRS_BUF and the NOR are in their canonical form at reset.
For the state after reset. Rests on parts of R79, R134. -/
def Obligations.MemoriesCanonicalAtReset : Prop :=
  -- Both byte memories are in their canonical form: addresses strictly rising, and no cell equal to what an unlisted address
  -- reads as.
  (MemInv State.reset)

/-- Every step keeps TRS_BUF and the NOR in their canonical form.
For every state, whether a run reaches it or not. Rests on parts of R79, R103, R113, R134. -/
def Obligations.MemoriesStayCanonical : Prop :=
  -- From a state in which both byte memories are in their canonical form, whatever command stands at the front of the queue, a
  -- step that answers a next state answers one in which they are.
  (∀ (s t : State), MemInv s → step s = .next t → MemInv t)

/-- A step takes exactly the front command off the queue.
For every state with a command waiting. Rests on parts of R4, spec/02_modes_and_startup.md. -/
def Obligations.QueueFirstInFirstOut : Prop :=
  -- Whatever the front command does, the queue after it is the queue's rest: no command adds to the queue, drops from it or
  -- changes its order.
  (∀ (c : Instr) (l : List Instr) (s t : State), s.pending = c :: l → step s = .next t → t.pending = l)

/-- No step clears the field lock or takes an entry out of the bank of minimum security versions.
For every state and every command. Rests on parts of R117, R510. -/
def Obligations.OneTimeStorageOnlyGrows : Prop :=
  -- The lock never clears: in every next state it is set where it was. The bank of security versions keeps every entry burned,
  -- in order: what it held is a beginning of what it holds.
  (∀ (s t : State), step s = .next t → (s.trs.fieldLock = true → t.trs.fieldLock = true) ∧ s.trs.svnBank <+: t.trs.svnBank)

/-- Which commands can change TRS_BUF or the NOR, and that every other command leaves every byte of both as it was.
For every state and every command that is not one of: a reset or what ends in one (PWRON_L, a warm or cold reset, a
watchdog, the stable release of PWRFAIL_L, the return of REFCLK, the logic die's trip), TRS key read, Image Stage Write and
Commit, Image Activate (warm), the end of a staging session (its timeout, a reset of PF0, a change of Bus Master Enable), a
register write, a management command over MCTP, Field Lock and the release of held items by the test bench, and a RoCE
packet. Rests on parts of R79, R101, R102, R113, R134. -/
def Obligations.MemoryFrame : Prop :=
  -- A next state of such a command reads every byte of TRS_BUF and every byte of the NOR as the state before did, and has the
  -- same queue.
  (∀ (i : Instr) (s t : State), writesMemory i = false → exec i s = .next t → (∀ a, memRead 0 t.trs.buf a = memRead 0 s.trs.buf a) ∧ (∀ a, memRead 0xFF t.nor.flash a = memRead 0xFF s.nor.flash a) ∧ t.pending = s.pending)

/-- Every well-formed command answers a next state in every state, and no command is ever refused.
For every command and every state. Rests on parts of R3, R4. -/
def Obligations.WellFormedCommandsComplete : Prop :=
  -- A command whose operands are all in range answers a next state in every state; no command, in range or not, is ever
  -- refused.
  (∀ (i : Instr) (s : State), (i.wf = true → ∃ t, exec i s = .next t) ∧ (∀ r, exec i s ≠ .refused r))

/-- GBL_ID reads 0x6400_A1C0 on every path that reads registers, and JTAG IDCODE returns it.
With the controller out of Held, and no snapshot that shadows the register. States R1. -/
def Obligations.IdentityRegister : Prop :=
  -- A register read of offset 0x0000_0000 on any path answers 0x6400_A1C0 and changes nothing else; the management command
  -- Register Read of it completes with that value; JTAG IDCODE returns it in every mode.
  (∀ (s : State) (p : Path) (c : Cid) (w x : Word), (s.glb.mode ≠ .held ∧ ∀ q, tget s.regs.snap none (pathKey 0 q) = none) → exec (.loRegisterRead ⟨p, 0, 4⟩) s = .next (emit s (.readData 0x6400A1C0)) ∧ (readServed s c = true → hasRole s c 1 = none → exec (.registerRead c 0 0 w x) s = .next (reply s c .success 0x6400A1C0)) ∧ exec .jtagIdcode s = .next (emit s (.jtag (some 0x6400A1C0))))

/-- A write of GBL_RESET_CTL takes effect only with its key, is counted without it, and COLD wins over WARM.
In the modes in which a register can be written (Standby, Active, Drain, Safe). States R54. -/
def Obligations.ResetControlKey : Prop :=
  -- A write with any other key resets nothing: it is ignored and counted in the cyclometer (event 0x0002). With the key, COLD
  -- and WARM both 1 perform the internal cold reset (cause 1), unless an event of the same cycle outranks it. A write of the
  -- register takes this effect whichever of the two requests carries it.
  (∀ (s : State) (v : Word) (m : Moment), authMode s = true → exec (.warmResetRequest v m) s = exec (.coldResetRequest v m) s ∧ (field v.toNat 16 16 ≠ 0x5A17 → exec (.coldResetRequest v m) s = .next (count s 0x0002)) ∧ (field v.toNat 16 16 = 0x5A17 → bitAt v.toNat 0 = true → bitAt v.toNat 1 = true → outranked m.rivals .reset = false → exec (.coldResetRequest v m) s = .next (internalReset s false 1 m) ∧ (internalReset s false 1 m).glb.resetCause = 1))

/-- A pause that ends in the same tick as its watchdog expires wins: the watchdog does not fire.
For a sub-port and a priority that exist. States R145. -/
def Obligations.PauseEndBeatsWatchdog : Prop :=
  -- For a priority paused and under PFC, whose pause ends in that tick by expiry or by a zero-quanta frame, the pause has
  -- ended after it, and the watchdog has not fired: no storm is marked, no event is written, nothing is dropped, and every
  -- other priority and sub-port is as before.
  (∀ (s : State) (b p : Nat), (b < 32 ∧ p < 8) → (tget (subOf s b).paused 0 p ≠ 0 ∧ bitAt (pfcMask s (b / 4)) p = true) → exec (.pfcWatchdogExpiry b p true) s = .next (setSub s b { subOf s b with paused := tput (subOf s b).paused 0 p 0 }))

/-- What an assertion of PWRFAIL_L does in Boot, in Safe and in Held.
For the first assertion since the last reset, with nothing in the same cycle that outranks it. States R70. -/
def Obligations.PowerFailOutsideOperation : Prop :=
  -- In Boot the controller stops at the current stage: it is halted there, and the end of a stage does nothing any more. If
  -- the cocoon is already up, it takes steps 3 to 5 (the odometer and the event are written and the stacks protected). In Safe
  -- it takes steps 3 to 5. In Held it does nothing.
  (∀ (s t : State) (m : Moment), (t = { s with glb := { s.glb with pwrfail := true } } ∧ s.glb.pwrfail = false ∧ outranked m.rivals .pwrfail = false) → (s.glb.mode = .boot → s.coc.up = false → exec (.pwrfailLAsserted m) s = .next { t with glb := { t.glb with bootHalted := true } }) ∧ (s.glb.mode = .boot → s.coc.up = true → exec (.pwrfailLAsserted m) s = .next { closeCocoon t [] with glb := { (closeCocoon t []).glb with bootHalted := true } }) ∧ (s.glb.mode = .safe → exec (.pwrfailLAsserted m) s = .next (closeCocoon t [])) ∧ (s.glb.mode = .held → exec (.pwrfailLAsserted m) s = .next s) ∧ (∀ u : State, u.glb.mode = .boot → u.glb.bootHalted = true → exec .bootStageLimitExpiry u = .next u ∧ (∀ a b, exec (.memoryPreparationDone a b) u = .next u) ∧ (∀ r, exec (.imageLoadDone r) u = .next u) ∧ (∀ v r w, exec (.imageVerificationDone v r w) u = .next u) ∧ exec .configurationDone u = .next u ∧ (∀ a b, exec (.dramTrainingDone a b) u = .next u) ∧ (∀ l a b, exec (.dramSweepDone l a b) u = .next u) ∧ (∀ r, exec (.recoveryScanDone r) u = .next u) ∧ ∀ a b n, exec (.bootRecordWritten a b n) u = .next u))

/-- What the six register-access rows and the two register commands do to the register they name.
What an access does by its width, alignment and mode, and the effect of each row on a register of its kind. Rests on parts
of R1, R6, R10, R11, R12, R13, R520. -/
def Obligations.RegisterAccess : Prop :=
  -- A 4-byte aligned write at an offset of TRS_BUF, where registers are writable, stores its four bytes there, lowest first,
  -- and changes nothing else.
  (∀ (s : State) (p : Path) (off : Nat) (v hw : Word) (m : Moment), regsWritable s = true → (0x12000 ≤ off ∧ off < 0x14000 ∧ off % 4 = 0) → exec (.plainRegisterWrite ⟨p, off, 4⟩ v hw m) s = .next { s with trs := { s.trs with buf := memWriteBytes 0 s.trs.buf (off - 0x12000) ((leBytes 4 v.toNat).map (BitVec.ofNat 8)) } }) ∧
  -- A read of an RC counter that is not a capture of the bay die answers its value and leaves in it what the hardware adds in
  -- the same cycle.
  (∀ (s : State) (p : Path) (off inc : Nat), s.glb.mode ≠ .held → (isRc off = true ∧ off % 4 = 0 ∧ off < 0xB0000) → exec (.readClearCounter ⟨p, off, 4⟩ inc) s = .next (emit { s with regs := { s.regs with rc := tput s.regs.rc 0 (rk off (rcInst s off)) (min (2 ^ 32 - 1) inc) } } (.readData (word (tget s.regs.rc 0 (rk off (rcInst s off))))))) ∧
  -- A read of GBL_TIMEBASE_LO on a path that holds no snapshot of it answers the low half of the timebase and holds the high
  -- half for that path.
  (∀ (s : State) (p : Path), s.glb.mode ≠ .held → tget s.regs.snap none (pathKey 0x24 p) = none → exec (.loRegisterRead ⟨p, 0x24, 4⟩) s = .next (emit { s with regs := { s.regs with snap := tput s.regs.snap none (pathKey 0x28 p) (some { val := s.now / 2 ^ 32 % 2 ^ 32, inst := 0, atomic := false }) } } (.readData (word (s.now % 2 ^ 32))))) ∧
  -- A write of a writable _HI register is held for its path and changes nothing else.
  (∀ (s : State) (p : Path) (off : Nat) (v : Word), regsWritable s = true → off ∈ hiRegs → exec (.hiRegisterWrite ⟨p, off, 4⟩ v) s = .next { s with regs := { s.regs with held := tput s.regs.held none (pathKey off p) (some v.toNat) } }) ∧
  -- A write of MEM_FLIP_ADDR_LO on a path that holds a high half applies both halves and lets the held one go.
  (∀ (s : State) (p : Path) (v : Word) (h : Nat), regsWritable s = true → tget s.regs.held none (pathKey 0xF8108 p) = some h → exec (.loRegisterWrite ⟨p, 0xF8104, 4⟩ v) s = .next (rwPut (rwPut { s with regs := { s.regs with held := tput s.regs.held none (pathKey 0xF8108 p) none } } 0xF8108 0 h) 0xF8104 0 v.toNat)) ∧
  -- A write of SPK_SEL below 64 selects that spoke; any other value is ignored.
  (∀ (s : State) (p : Path) (v : Word), regsWritable s = true → exec (.selectRegisterWrite ⟨p, 0xA0000, 4⟩ v) s = .next (if v.toNat < 64 then rwPut s 0xA0000 0 v.toNat else s)) ∧
  -- Register Read of offset 0 with ATOMIC 0, by a sender who may read registers, completes with 0x6400_A1C0 in DW0.
  (∀ (s : State) (c : Cid) (w2 w3 : Word), readServed s c = true → hasRole s c 1 = none → tget s.regs.snap none (pathKey 0 .mgmt) = none → exec (.registerRead c 0 0 w2 w3) s = .next (reply s c .success 0x6400A1C0)) ∧
  -- Register Write of SPK_SEL with a spoke's number, by a sender who may write registers, completes and selects the spoke.
  (∀ (s : State) (c : Cid) (w2 w3 v : Word) (m : Moment), authMode s = true → hasRole s c 2 = none → v.toNat < 64 → exec (.registerWrite c 0xA0000 0 w2 w3 v m) s = .next (rwPut (reply s c .success) 0xA0000 0 v.toNat)) ∧
  -- An access that is not 4 aligned bytes inside the space is an Unsupported Request on BAR0 outside Held and does nothing on
  -- the other paths.
  (∀ (s : State) (a : Access) (v hw : Word) (inc : Nat) (m : Moment), accessOk a = false → exec (.plainRegisterWrite a v hw m) s = .next (badAccess s a) ∧ exec (.readClearCounter a inc) s = .next (badAccess s a) ∧ exec (.loRegisterRead a) s = .next (badAccess s a) ∧ exec (.hiRegisterWrite a v) s = .next (badAccess s a) ∧ exec (.loRegisterWrite a v) s = .next (badAccess s a) ∧ exec (.selectRegisterWrite a v) s = .next (badAccess s a) ∧ badAccess s a = if a.path = .bar0 ∧ s.glb.mode ≠ .held then emit s .unsupportedRequest else s) ∧
  -- A write of 4 aligned bytes writes the register at its offset, and does nothing in a mode that writes none; a read answers
  -- with the register's value, and does nothing in Held.
  (∀ (s : State) (a : Access) (v hw : Word) (inc : Nat) (m : Moment), accessOk a = true → exec (.plainRegisterWrite a v hw m) s = .next (regWrite s a.path a.off v.toNat hw.toNat m) ∧ exec (.hiRegisterWrite a v) s = .next (regWrite s a.path a.off v.toNat 0 {}) ∧ exec (.loRegisterWrite a v) s = .next (regWrite s a.path a.off v.toNat 0 {}) ∧ exec (.selectRegisterWrite a v) s = .next (regWrite s a.path a.off v.toNat 0 {}) ∧ (regsWritable s = false → regWrite s a.path a.off v.toNat hw.toNat m = s) ∧ exec (.readClearCounter a inc) s = .next (if s.glb.mode = .held then s else emit (regRead s a.path a.off false inc).2 (.readData (word (regRead s a.path a.off false inc).1))) ∧ exec (.loRegisterRead a) s = .next (if s.glb.mode = .held then s else emit (regRead s a.path a.off false 0).2 (.readData (word (regRead s a.path a.off false 0).1)))) ∧
  -- A register command outside the modes that serve it has no answer; without its role it is refused; an offset outside the
  -- space or not aligned completes with Invalid Field.
  (∀ (s : State) (c : Cid) (w0 w1 w2 w3 v : Word) (m : Moment), (readServed s c = false → exec (.registerRead c w0 w1 w2 w3) s = .next s) ∧ (authMode s = false → exec (.registerWrite c w0 w1 w2 w3 v m) s = .next s) ∧ (∀ r, readServed s c = true → hasRole s c 1 = some r → exec (.registerRead c w0 w1 w2 w3) s = .next (reply s c r)) ∧ (∀ r, authMode s = true → hasRole s c 2 = some r → exec (.registerWrite c w0 w1 w2 w3 v m) s = .next (reply s c r)) ∧ (offOk w0 = false → readServed s c = true → hasRole s c 1 = none → exec (.registerRead c w0 w1 w2 w3) s = .next (reply s c .invalidField)) ∧ (offOk w0 = false → authMode s = true → hasRole s c 2 = none → exec (.registerWrite c w0 w1 w2 w3 v m) s = .next (reply s c .invalidField)))

/-- What PWRON_L, the watchdog, the two reset requests and the end of a power failure do, in every mode.
For every state and all operands; where a row does nothing is said too. Rests on parts of R47, R52, R53, R54, R57, R58, R71,
R74, R102. -/
def Obligations.ResetsAndHolding : Prop :=
  -- PWRON_L asserted takes every state to Held with PWRON_L recorded; the scope of a reset applies.
  (∀ (s : State), ∃ t, exec .pwronLAsserted s = .next t ∧ ResetScope s t ∧ t.glb.mode = .held ∧ t.glb.pwronL = true ∧ t.glb.pwrfail = false ∧ t.glb.resetCause = 0) ∧
  -- PWRON_L released in Held, with TEST_EN low and every PLL locked at the first or the second try, begins Boot at step 2 with
  -- the straps as sampled; a PLL that needed its reset marks the Boot as one that needed a retry. The NOR, the bank of
  -- security versions and the queue stay.
  (∀ (s : State) (x : Straps) (m : Moment), (s.glb.mode = .held ∧ s.glb.pwronL = true ∧ s.glb.tripHeld = false) → (x.testEn = false ∧ m.lock1 ||| m.lock2 = 31) → ∃ t, exec (.pwronLReleased x m) s = .next t ∧ t.glb.mode = .boot ∧ t.glb.bootStep = 2 ∧ t.glb.resetCause = 0 ∧ t.glb.straps = x ∧ t.glb.pwronL = false ∧ t.glb.transientSeen = (m.lock1 != 31) ∧ t.now = 0 ∧ t.nor.flash = s.nor.flash ∧ t.trs.svnBank = s.trs.svnBank ∧ t.pending = s.pending) ∧
  -- With TEST_EN high, or with a PLL that locks neither at first nor after its reset, the controller stays in Held with the
  -- straps as sampled.
  (∀ (s : State) (x : Straps) (m : Moment), (s.glb.mode = .held ∧ s.glb.pwronL = true ∧ s.glb.tripHeld = false) → (x.testEn = true ∨ m.lock1 ||| m.lock2 ≠ 31) → ∃ t, exec (.pwronLReleased x m) s = .next t ∧ t.glb.mode = .held ∧ t.glb.pwronL = false ∧ t.glb.straps = x ∧ t.nor.flash = s.nor.flash ∧ t.trs.svnBank = s.trs.svnBank ∧ t.pending = s.pending) ∧
  -- It does nothing outside Held, where PWRON_L was not asserted, and after a trip of the logic die until PWRON_L has been
  -- asserted.
  (∀ (s : State) (x : Straps) (m : Moment), (s.glb.mode ≠ .held ∨ s.glb.pwronL = false ∨ s.glb.tripHeld = true) → exec (.pwronLReleased x m) s = .next s) ∧
  -- An expiry of the watchdog outside Held, with none before it since 60 s of Standby or Active, is a warm reset with cause 4.
  (∀ (s : State) (m : Moment), (s.glb.mode ≠ .held ∧ outranked m.rivals .reset = false) → (s.glb.wdOnce = false ∨ ticksS 60 ≤ s.glb.runTicks) → ∃ t, exec (.watchdogExpiry m) s = .next t ∧ StartsUp s t 4 m) ∧
  -- A second one before that does not reset: in Standby, Active and a drain that is not a power failure it enters Safe with
  -- cause 0x09, in Boot that has not halted it ends Boot in Safe with that cause; the detail is the seconds since the reset,
  -- at most 0xFFFF. Elsewhere, and in Held in any case, it does nothing.
  (∀ (s : State) (m : Moment) (n : Nat), (s.glb.wdOnce = true ∧ s.glb.runTicks < ticksS 60) → (outranked m.rivals .fatal = false ∧ n = min 0xFFFF (s.now / ticksS 1)) → exec (.watchdogExpiry m) s = .next (match s.glb.mode with | .held => s | .safe => s | .boot => (if s.glb.bootHalted then s else bootFail s 9 n) | _ => (if s.glb.drainReason = .powerFail then s else enterSafe s 9 n))) ∧
  -- An expiry with an event of the same tick that stands before it in the list is discarded, as is every one in Held.
  (∀ (s : State) (m : Moment), (s.glb.mode = .held ∨ outranked m.rivals .fatal = true) → exec (.watchdogExpiry m) s = .next s) ∧
  -- A write of GBL_RESET_CTL with its key, by either row, in Standby, Active, a drain or Safe: COLD is the internal cold reset
  -- with cause 1, also where WARM is written too, and the bay outputs are held; WARM alone is the warm reset with cause 3.
  (∀ (s : State) (v : Word) (m : Moment) (i : Instr), (i = .warmResetRequest v m ∨ i = .coldResetRequest v m) → (authMode s = true ∧ field v.toNat 16 16 = 0x5A17 ∧ outranked m.rivals .reset = false) → (bitAt v.toNat 0 = true ∨ bitAt v.toNat 1 = true) → ∃ t, exec i s = .next t ∧ StartsUp s t (if bitAt v.toNat 1 then 1 else 3) m ∧ (bitAt v.toNat 1 = true → t.bay.outHold = true)) ∧
  -- Without the key such a write is ignored and counted; with the key and neither bit it does nothing; discarded for an event
  -- of the same tick it reports Busy; in Boot and in Held nothing is written.
  (∀ (s : State) (v : Word) (m : Moment) (i : Instr), (i = .warmResetRequest v m ∨ i = .coldResetRequest v m) → (authMode s = true → field v.toNat 16 16 ≠ 0x5A17 → exec i s = .next (count s 0x0002)) ∧ (authMode s = true → field v.toNat 16 16 = 0x5A17 → bitAt v.toNat 0 = false → bitAt v.toNat 1 = false → exec i s = .next s) ∧ (authMode s = true → field v.toNat 16 16 = 0x5A17 → (bitAt v.toNat 0 = true ∨ bitAt v.toNat 1 = true) → outranked m.rivals .reset = true → exec i s = .next { s with glb := { s.glb with reqStatus := 2 } }) ∧ (s.glb.mode = .boot ∨ s.glb.mode = .held → exec i s = .next s)) ∧
  -- PWRFAIL_L released and stable outside Held, while the reference clock runs, is an internal cold reset with cause 2, and no
  -- power failure lasts any more.
  (∀ (s : State) (m : Moment), (s.glb.pwrfail = true ∧ s.glb.refclkLost = false ∧ s.glb.mode ≠ .held) → outranked m.rivals .reset = false → ∃ t, exec (.pwrfailStableRelease m) s = .next t ∧ StartsUp s t 2 m ∧ t.glb.pwrfail = false) ∧
  -- It does nothing where no power failure lasts, while the reference clock is lost, in Held, and where an event of the same
  -- tick stands before it.
  (∀ (s : State) (m : Moment), (s.glb.pwrfail = false ∨ s.glb.refclkLost = true ∨ s.glb.mode = .held ∨ outranked m.rivals .reset = true) → exec (.pwrfailStableRelease m) s = .next s)

/-- The steps of Boot: what ends each of them and where Boot stands then.
A step's end counts only while Boot stands at that step and has not halted. Rests on parts of R56, R57, R59, R61, R62, R63,
R79, R88, R90. -/
def Obligations.BootSteps : Prop :=
  -- Memory preparation at step 2: without a bad memory, or with one that the rerun cures, Boot goes to step 3 (the cure is a
  -- transient fault, as is a stage that ran again after its limit); a memory bad in both runs ends Boot in Safe with cause 4
  -- and its number.
  (∀ (s : State) (b : Option Nat) (k j : Nat), atStep s 2 = true → exec (.memoryPreparationDone none b) s = .next (passStage s 2) ∧ exec (.memoryPreparationDone (some k) none) s = .next (passStage (cured s 2 k) 2) ∧ exec (.memoryPreparationDone (some j) (some k)) s = .next (bootFail s 4 k) ∧ (passStage s 2).glb.bootStep = 3 ∧ (passStage s 2).glb.stageLate = false ∧ (passStage s 2).glb.transientSeen = (s.glb.transientSeen || s.glb.stageLate)) ∧
  -- The first image load of a Boot notes the densities and headers as found. With both densities read, both headers read at
  -- the first attempt and the slot read, the slot sizes are recorded as the NOR layout strap says and Boot goes to step 4.
  (∀ (s : State) (d0 d1 : Nat) (x y z : Bool), (atStep s 3 = true ∧ s.glb.norRead = false) → (s.glb.failA = 0 ∧ s.glb.failB = 0) → ∃ t, exec (.imageLoadDone ⟨some d0, some d1, true, x, true, y, true, z⟩) s = .next t ∧ t.nor.sizeA = some (if s.glb.straps.norLayout then d0 / 2 else d0) ∧ t.nor.sizeB = some (if s.glb.straps.norLayout then d0 / 2 else d1) ∧ t.glb.bootStep = 4 ∧ t.glb.reread = false ∧ t.nor.flash = s.nor.flash ∧ t.glb.mode = .boot) ∧
  -- Where the slot that goes next has no size, or is read neither at first nor in the reread, it is rejected with step 3; read
  -- in the reread, Boot goes to step 4 with no reread left, a transient fault.
  (∀ (s : State) (r : NorReport) (k : Nat), (atStep s 3 = true ∧ s.glb.norRead = true) → nextSlot s = some k → ((slotSize s k = none ∨ (r.ok1 = false ∧ r.ok2 = false)) → exec (.imageLoadDone r) s = .next (rejectSlot s k 3 false)) ∧ ((slotSize s k).isSome = true → r.ok1 = false → r.ok2 = true → exec (.imageLoadDone r) s = .next (measureOwner (passStage { cured s 3 k with glb := { (cured s 3 k).glb with reread := true } } 3)))) ∧
  -- A slot that fails verification is read again and verified once more: failing again rejects it at step 4 with its event; a
  -- reread that fails rejects it at step 3; one that verifies then is cured.
  (∀ (s u : State) (v1 v2 : ImageVerdict) (k : Nat) (r0 : Reject), (atStep s 4 = true ∧ s.glb.reread = false) → (nextSlot s = some k ∧ u = checkImageSigs s (slotBytesOf s k)) → verifyImage u ((slotSize s k).getD 0) (slotBytesOf s k) v1 = some r0 → exec (.imageVerificationDone v1 false v2) s = .next (rejectSlot u k 3 false) ∧ exec (.imageVerificationDone v1 true v2) s = .next (match verifyImage (checkImageSigs u (slotBytesOf s k)) ((slotSize s k).getD 0) (slotBytesOf s k) v2 with | some r => rejectSlot (rejectEvent (checkImageSigs u (slotBytesOf s k)) k r) k 4 (r.code == 0x0D13) | none => imageFound (cured (checkImageSigs u (slotBytesOf s k)) 4 k) k)) ∧
  -- A slot that verifies becomes the boot slot, its header and sections the running configuration, and Boot goes to step 5;
  -- both of its signatures have been put to the trust engine.
  (∀ (s : State) (v1 v2 : ImageVerdict) (x : Bool) (k : Nat), atStep s 4 = true → nextSlot s = some k → verifyImage (checkImageSigs s (slotBytesOf s k)) ((slotSize s k).getD 0) (slotBytesOf s k) v1 = none → ∃ t, exec (.imageVerificationDone v1 x v2) s = .next t ∧ t.glb.bootSlot = k ∧ t.glb.fallback = (k != firstSlot s) ∧ t.glb.bootStep = 5 ∧ t.cfg.header = (slotBytesOf s k).take 64 ∧ t.cfg.sections = sectionsOf (slotBytesOf s k) ∧ t.nor = s.nor) ∧
  -- A configuration that fails a cross-check ends Boot in Safe with the check's event; cause 2 when a claim lacks room, else
  -- 3, with the code of the reject.
  (∀ (s : State) (r : Reject), atStep s 5 = true → checkConfig s.cfg.sections (leAt s.cfg.header 32 1) = some r → exec .configurationDone s = .next (bootFail (rejectEvent s s.glb.bootSlot r) (if r.code = 0x0D40 then 2 else 3) r.code)) ∧
  -- A configuration that passes every cross-check is loaded, and Boot goes to step 6.
  (∀ (s : State), atStep s 5 = true → checkConfig s.cfg.sections (leAt s.cfg.header 32 1) = none → exec .configurationDone s = .next (passStage (loadConfig s) 5)) ∧
  -- DRAM training in which every channel finds what the image names begins step 7, also where the channels that failed pass
  -- their second training (each a transient fault); the first channel that fails both ends Boot in Safe with cause 6 and its
  -- number.
  (∀ (s : State) (f1 f2 : List Nat), atStep s 6 = true → (trainFails s f1 = [] → exec (.dramTrainingDone f1 f2) s = .next (beginStep7 (passStage s 6))) ∧ (∀ c r, trainFails s f1 = c :: r → (∀ x ∈ c :: r, x ∉ trainFails s f2) → exec (.dramTrainingDone f1 f2) s = .next (beginStep7 (passStage ((c :: r).foldl (fun s c => cured s 6 c) s) 6))) ∧ (∀ c r, (trainFails s f1).filter (fun c => (trainFails s f2).contains c) = c :: r → exec (.dramTrainingDone f1 f2) s = .next (bootFail s 6 c))) ∧
  -- Each part of the sweep marks its regions initialised; the sweep is done with the last of them, and then the results of a
  -- recovery scan that has ended are written. A sweep that exceeds its limit twice ends Boot in Safe with cause 5 and step 7,
  -- whatever it swept.
  (∀ (s : State) (l : List Nat) (b : Bool), (atStep s 7 = true ∧ s.glb.sweepDone = false) → exec (.dramSweepDone l false b) s = .next (endStep7 (if (l.foldl markSwept s).mem.regions.all (fun x => x.2.init) then (match (l.foldl markSwept s).glb.scanWait with | some r => scanResults { l.foldl markSwept s with glb := { (l.foldl markSwept s).glb with sweepDone := true } } r | none => { l.foldl markSwept s with glb := { (l.foldl markSwept s).glb with sweepDone := true } }) else l.foldl markSwept s)) ∧ exec (.dramSweepDone l true true) s = .next (bootFail s 5 7)) ∧
  -- The recovery scan writes its results once the sweep is done, and waits for it before that; with both done Boot goes to
  -- step 8. A scan that exceeds its limit twice ends Boot in Safe.
  (∀ (s : State) (r : ScanReport), (atStep s 7 = true ∧ s.glb.scanDone = false ∧ s.glb.scanWait = none) → (r.late1 = false → s.glb.sweepDone = false → exec (.recoveryScanDone r) s = .next { s with glb := { s.glb with scanWait := some r } }) ∧ (r.late1 = false → s.glb.sweepDone = true → exec (.recoveryScanDone r) s = .next (passStage { (if s.coc.formatted then recoveryScan s r else s) with glb := { (if s.coc.formatted then recoveryScan s r else s).glb with scanDone := true, scanWait := none } } 7)) ∧ (r.late1 = true → r.late2 = true → exec (.recoveryScanDone r) s = .next (bootFail s 5 7))) ∧
  -- The first time a stage of Boot exceeds its limit it is run once more; the second time steps 3 and 4 reject the slot that
  -- goes next, and every other step ends Boot in Safe with cause 5 and its number.
  (∀ (s : State) (k : Nat), (s.glb.mode = .boot ∧ s.glb.bootHalted = false) → nextSlot s = some k → (s.glb.stageLate = false → exec .bootStageLimitExpiry s = .next { s with glb := { s.glb with stageLate := true } }) ∧ (s.glb.stageLate = true → exec .bootStageLimitExpiry s = .next (if s.glb.bootStep = 3 ∨ s.glb.bootStep = 4 then rejectSlot s k s.glb.bootStep false else bootFail s 5 s.glb.bootStep))) ∧
  -- Step 9, in Standby and while it is due, exceeds its limit likewise: it runs once more, and the second time the controller
  -- enters Safe with cause 5 and detail 9.
  (∀ (s : State), (step9Due s = true ∧ s.glb.drainReason ≠ .powerFail) → exec .bootStageLimitExpiry s = .next (if s.glb.stageLate then enterSafe s 5 9 else { s with glb := { s.glb with stageLate := true } })) ∧
  -- A boot record that one of its two writes stores, or that is held on an unformatted cocoon, takes the controller to Standby
  -- with the time of Boot recorded; a record that neither write stores takes it to Safe with cause 7 and the stack of its
  -- slot.
  (∀ (s u t : State) (ok1 ok2 d : Bool) (ms : Nat), (atStep s 8 = true ∧ s.glb.stageLate = false) → (u = { s with glb := { s.glb with bootMs := min ms 65535, stageLate := false } } ∧ (t, d) = writeBootRec u (bootRecOf u 1 0) ok1 ok2) → exec (.bootRecordWritten ok1 ok2 ms) s = .next (if d = false then enterSafe t 7 ((brNext u + 1) % 2) else reachStandby (if t.coc.formatted && decide (brNext u < 4096) && !ok1 then cured t 8 8 else t))) ∧
  -- The end of a step at which Boot does not stand, or after Boot has halted, does nothing.
  (∀ (s : State) (a b : Option Nat) (n : NorReport) (v1 v2 : ImageVerdict) (x y : Bool) (l l' : List Nat) (r : ScanReport) (ms : Nat), (atStep s 2 = false → exec (.memoryPreparationDone a b) s = .next s) ∧ (atStep s 3 = false → exec (.imageLoadDone n) s = .next s) ∧ (atStep s 4 = false → exec (.imageVerificationDone v1 x v2) s = .next s) ∧ (atStep s 5 = false → exec .configurationDone s = .next s) ∧ (atStep s 6 = false → exec (.dramTrainingDone l l') s = .next s) ∧ (atStep s 7 = false → exec (.dramSweepDone l x y) s = .next s ∧ exec (.recoveryScanDone r) s = .next s) ∧ (atStep s 8 = false → exec (.bootRecordWritten x y ms) s = .next s))

/-- What a request for a mode, the end of a drain and PWRFAIL_L do, in every mode.
For every state and all operands, those with an event of the same tick that stands before the row in the list of mode events
too. Rests on parts of R48, R50, R67, R70, R73. -/
def Obligations.ModeRequests : Prop :=
  -- A request to shut down in Active is accepted and starts Drain (shutdown): the mode, its reason and the accepted status are
  -- set, the change is notified, and the namespaces of the owned groups become Inaccessible. Discarded for an event of the
  -- same tick it reports Busy.
  (∀ (s : State) (m : Moment), s.glb.mode = .active → exec (.shutdownRequest m) s = .next (if outranked m.rivals .drain then { s with glb := { s.glb with reqStatus := 2 } } else setReq (noteAna (noteMode s { s with glb := { s.glb with mode := .drain, drainReason := .shutdown, drainReturn := .standby } })) 0)) ∧
  -- In Standby, in a drain and in Safe it is Refused; in Boot and in Held nothing is written.
  (∀ (s : State) (m : Moment), (s.glb.mode = .standby ∨ s.glb.mode = .drain ∨ s.glb.mode = .safe → exec (.shutdownRequest m) s = .next { s with glb := { s.glb with reqStatus := 1 } }) ∧ (s.glb.mode = .boot ∨ s.glb.mode = .held → exec (.shutdownRequest m) s = .next s)) ∧
  -- A request for Safe in Standby, Active or a drain that is not a power failure is accepted and enters Safe with cause 0x0B
  -- and detail 0; discarded for an event of the same tick it reports Busy.
  (∀ (s : State) (m : Moment), (s.glb.mode = .standby ∨ s.glb.mode = .active ∨ s.glb.mode = .drain) → s.glb.drainReason ≠ .powerFail → exec (.safeRequest m) s = .next (if outranked m.rivals .fatal then { s with glb := { s.glb with reqStatus := 2 } } else setReq (enterSafe s 0x0B 0) 0)) ∧
  -- In a power failure's drain and in Safe it is Refused; in Boot and in Held nothing is written.
  (∀ (s : State) (m : Moment), (s.glb.mode = .safe ∨ (s.glb.mode = .drain ∧ s.glb.drainReason = .powerFail) → exec (.safeRequest m) s = .next { s with glb := { s.glb with reqStatus := 1 } }) ∧ (s.glb.mode = .boot ∨ s.glb.mode = .held → exec (.safeRequest m) s = .next s)) ∧
  -- Drain (shutdown) with own staging empty for every owned group ends: both groups are released with cause 4 (a drain's end)
  -- and the mode is Standby, notified. With pages left in an owned group, and for an event of the same tick that stands before
  -- it, it does nothing.
  (∀ (s : State) (m : Moment), (s.glb.mode = .drain ∧ s.glb.drainReason = .shutdown) → exec (.drainShutdownComplete m) s = .next (if outranked m.rivals .group = false ∧ ((grpOf s 0).owned = false ∨ groupDrained s 0 = true) ∧ ((grpOf s 1).owned = false ∨ groupDrained s 1 = true) then noteAna (noteMode (releaseBoth s 4) { releaseBoth s 4 with glb := { (releaseBoth s 4).glb with mode := .standby, drainReason := .none } }) else s)) ∧
  -- The drain limit ends Drain (shutdown) in the same way, whatever is left.
  (∀ (s : State) (m : Moment), (s.glb.mode = .drain ∧ s.glb.drainReason = .shutdown) → exec (.drainLimitExpiry m) s = .next (if outranked m.rivals .group then s else noteAna (noteMode (releaseBoth s 4) { releaseBoth s 4 with glb := { (releaseBoth s 4).glb with mode := .standby, drainReason := .none } }))) ∧
  -- Outside Drain (shutdown) the two rows act on the groups that Release Group is draining, and on nothing while it drains
  -- none.
  (∀ (s : State) (m : Moment), (¬(s.glb.mode = .drain ∧ s.glb.drainReason = .shutdown)) → outranked m.rivals .group = false → exec (.drainShutdownComplete m) s = .next (releaseEnd (releaseEnd s 0 false) 1 false) ∧ exec (.drainLimitExpiry m) s = .next (releaseEnd (releaseEnd s 0 true) 1 true) ∧ ((grpOf s 0).releasing = none → (grpOf s 1).releasing = none → exec (.drainShutdownComplete m) s = .next s ∧ exec (.drainLimitExpiry m) s = .next s)) ∧
  -- PWRFAIL_L in Standby, Active or a drain: the frames not yet examined are dropped, both lines released with cause 2, the
  -- odometer saved, the event written and the stacks protected, and the mode is Drain with reason power failure.
  (∀ (s u : State) (m : Moment), (s.glb.mode = .standby ∨ s.glb.mode = .active ∨ s.glb.mode = .drain) → (s.glb.pwrfail = false ∧ outranked m.rivals .pwrfail = false) → u = closeCocoon (releaseBoth (dropIngress { s with glb := { s.glb with pwrfail := true } }) 2) [] → exec (.pwrfailLAsserted m) s = .next (noteMode { s with glb := { s.glb with pwrfail := true } } { u with glb := { u.glb with mode := .drain, drainReason := .powerFail } })) ∧
  -- In Boot it halts Boot, and closes a cocoon that is up; in Safe it closes the cocoon; in Held, while it lasts already, and
  -- for an event of the same tick that stands before it, it does nothing.
  (∀ (s u : State) (m : Moment), u = { s with glb := { s.glb with pwrfail := true } } → (s.glb.mode = .boot → s.glb.pwrfail = false → outranked m.rivals .pwrfail = false → exec (.pwrfailLAsserted m) s = .next (if s.coc.up then { closeCocoon u [] with glb := { (closeCocoon u []).glb with bootHalted := true } } else { u with glb := { u.glb with bootHalted := true } })) ∧ (s.glb.mode = .safe → s.glb.pwrfail = false → outranked m.rivals .pwrfail = false → exec (.pwrfailLAsserted m) s = .next (closeCocoon u [])) ∧ (s.glb.mode = .held ∨ s.glb.pwrfail = true ∨ outranked m.rivals .pwrfail = true → exec (.pwrfailLAsserted m) s = .next s))

/-- Staging, committing and activating an image: what each command stores in the NOR and answers, and when it is turned away.
The image commands of a sender with the role needed, in a mode that serves them. Rests on parts of R88, R101, R102, R103,
R104, R105, R126. -/
def Obligations.ImageStaging : Prop :=
  -- A write of 16-byte units in its owner's open session holds the bytes below 64 for the header, programs the others into the
  -- slot that is not running, changes no other byte of the NOR, and completes.
  (∀ (s : State) (c : Cid) (x : Session) (off len : Nat) (data : List Byte), (stagingServed s = true ∧ hasRole s c 2 = none) → (s.nor.session = some x ∧ x.owner = c.org) → (off % 16 = 0 ∧ len % 16 = 0 ∧ 0 < len ∧ len ≤ 2 ^ 20 ∧ off + len ≤ 50331648) → (64 ≤ off → exec (.imageStageWrite c off len false data) s = .next (reply { s with nor := { s.nor with flash := memWriteBytes 0xFF s.nor.flash (2 ^ 26 * otherSlot s + off) (data.take len), session := some { x with last := s.now } } } c .success)) ∧ (off < 64 → exec (.imageStageWrite c off len false data) s = .next (reply { s with nor := { s.nor with flash := memWriteBytes 0xFF s.nor.flash (2 ^ 26 * otherSlot s + 64) ((data.take len).drop (64 - off)), session := some { x with header := (x.header.take off ++ (data.take len).take (64 - off) ++ x.header.drop (off + ((data.take len).take (64 - off)).length)).take 64, last := s.now } } } c .success))) ∧
  -- With BEGIN, no other agent's session keeping the sender out, it first erases that slot and opens a session with an erased
  -- header; then it acts as a write in that session.
  (∀ (s u : State) (c : Cid) (x : Session) (off len : Nat) (data : List Byte), (stagingServed s = true ∧ hasRole s c 2 = none) → (s.nor.session = none ∨ s.nor.session = some { x with owner := c.org }) → (off % 16 = 0 ∧ len % 16 = 0 ∧ 0 < len ∧ len ≤ 2 ^ 20 ∧ off + len ≤ 50331648) → u = { s with nor := { s.nor with flash := eraseSlot s.nor.flash (otherSlot s), committed := false, session := some { owner := c.org, header := List.replicate 64 0xFF, last := s.now } } } → exec (.imageStageWrite c off len true data) s = .next (reply (stageBytes u { owner := c.org, header := List.replicate 64 0xFF, last := s.now } off (data.take len)) c .success)) ∧
  -- A write that is not in 16-byte units, longer than 1 MiB, or beyond 48 MiB completes with Invalid Field and stores nothing;
  -- one without BEGIN completes with 0xC2 where no session is open, and any one with 0xC1 while another agent holds it.
  (∀ (s : State) (c : Cid) (x : Session) (off len : Nat) (b : Bool) (data : List Byte), (stagingServed s = true ∧ hasRole s c 2 = none) → (s.nor.session = some x → x.owner = c.org → (off % 16 ≠ 0 ∨ len % 16 ≠ 0 ∨ len = 0 ∨ 2 ^ 20 < len ∨ 50331648 < off + len) → exec (.imageStageWrite c off len b data) s = .next (reply s c .invalidField)) ∧ (s.nor.session = none → exec (.imageStageWrite c off len false data) s = .next (reply s c (.vendor 0xC2))) ∧ (s.nor.session = some x → x.owner ≠ c.org → exec (.imageStageWrite c off len b data) s = .next (reply s c (.vendor 0xC1)))) ∧
  -- A commit puts both signatures of the staged bytes to the trust engine. Bytes that pass every check: the held header is
  -- programmed, the session ends, the slot is marked committed, CFG_IMAGE_STAGED is written, and the command completes.
  (∀ (s u : State) (c : Cid) (len : Nat) (v : ImageVerdict) (x : Session) (b : List Byte), (stagingServed s = true ∧ hasRole s c 2 = none) → (s.nor.session = some x ∧ x.owner = c.org) → (b = x.header ++ memReadBytes 0xFF s.nor.flash (2 ^ 26 * otherSlot s + 64) (min len 50331648 - 64) ∧ u = checkImageSigs s b) → stagedReject u b len v = none → exec (.imageStageCommit c len v) s = .next (reply (writeEvent { u with nor := { s.nor with flash := memWriteBytes 0xFF s.nor.flash (2 ^ 26 * otherSlot s) x.header, session := none, hdrA := s.nor.hdrA || otherSlot s == 0, hdrB := s.nor.hdrB || otherSlot s == 1, committed := true } } { num := 0x0D60, inst := otherSlot s, detail := [otherSlot s] }) c .success)) ∧
  -- Bytes that a check rejects: the reject's event is written and the command completes with 0xC0 and the event's code; the
  -- session stays open and nothing is programmed. Without the session it is turned away.
  (∀ (s u : State) (c : Cid) (len : Nat) (v : ImageVerdict) (x : Session) (b : List Byte) (r : Reject), (stagingServed s = true ∧ hasRole s c 2 = none) → s.nor.session = some x → (b = x.header ++ memReadBytes 0xFF s.nor.flash (2 ^ 26 * otherSlot s + 64) (min len 50331648 - 64) ∧ u = checkImageSigs s b) → stagedReject u b len v = some r → (x.owner = c.org → exec (.imageStageCommit c len v) s = .next (reply (rejectEvent { u with nor := { s.nor with session := some { x with last := s.now } } } (otherSlot s) r) c (.vendor 0xC0) r.code)) ∧ (x.owner ≠ c.org → exec (.imageStageCommit c len v) s = .next (reply s c (.vendor 0xC1)))) ∧
  -- A live activation in Standby or Active, with no session open, that is possible puts the controller into Drain
  -- (activation), to return to the present mode; one that is not possible completes with 0xC3, and one discarded for an event
  -- of the same tick with 0xC4.
  (∀ (s : State) (c : Cid) (m : Moment), (s.glb.mode = .standby ∨ s.glb.mode = .active) → (hasRole s c 2 = none ∧ s.nor.session = none) → exec (.imageActivateLive c m) s = .next (if outranked m.rivals .drain then reply s c (.vendor 0xC4) else if livePossible s then noteMode s { s with glb := { s.glb with mode := .drain, drainReason := .activation, drainReturn := s.glb.mode }, nor := { s.nor with activating := some c } } else reply s c (.vendor 0xC3))) ∧
  -- A warm activation there completes and is a warm reset with cause 3; discarded for an event of the same tick it completes
  -- with 0xC4.
  (∀ (s : State) (c : Cid) (m : Moment), (s.glb.mode = .standby ∨ s.glb.mode = .active) → (hasRole s c 2 = none ∧ s.nor.session = none) → (outranked m.rivals .reset = true → exec (.imageActivateWarm c m) s = .next (reply s c (.vendor 0xC4))) ∧ (outranked m.rivals .reset = false → ∃ t, exec (.imageActivateWarm c m) s = .next t ∧ StartsUp (reply s c .success) t 3 m)) ∧
  -- While a session is open either completes with 0xC1, and with none open in a drain with 0xC4.
  (∀ (s : State) (c : Cid) (m : Moment), (s.glb.mode = .standby ∨ s.glb.mode = .active ∨ s.glb.mode = .drain) → hasRole s c 2 = none → (s.nor.session.isSome = true → exec (.imageActivateLive c m) s = .next (reply s c (.vendor 0xC1)) ∧ exec (.imageActivateWarm c m) s = .next (reply s c (.vendor 0xC1))) ∧ (s.nor.session = none → s.glb.mode = .drain → exec (.imageActivateLive c m) s = .next (reply s c (.vendor 0xC4)) ∧ exec (.imageActivateWarm c m) s = .next (reply s c (.vendor 0xC4)))) ∧
  -- Image Slot Info answers the boot slot, which slots are valid and whether a session is open in DW0, with both headers.
  (∀ (s : State) (c : Cid), stagingServed s = true → hasRole s c 1 = none → exec (.imageSlotInfo c) s = .next (reply s c .success (s.glb.bootSlot + 2 * bit (slotValid s 0) + 4 * bit (slotValid s 1) + 8 * bit s.nor.session.isSome) ((storedHeader s 0 ++ storedHeader s 1).map BitVec.toNat))) ∧
  -- The staging timeout ends an open session: its slot is left erased and the event written; without a session it does
  -- nothing.
  (∀ (s : State), exec .stagingSessionTimeout s = .next (if s.nor.session.isNone then s else writeEvent { s with nor := { s.nor with session := none, flash := eraseSlot s.nor.flash (otherSlot s) } } { num := 0x0D62 })) ∧
  -- The swap of a live activation ends with 0xC3 and the old image running where the slot holds no committed image any more,
  -- on an unformatted cocoon, with the boot region at its last slot, and where its record cannot be written (a torn slot).
  (∀ (s : State) (ok : Bool) (ms : Nat) (m : Moment), (s.glb.mode = .drain ∧ s.glb.drainReason = .activation) → (swapReady s = true ∧ outranked m.rivals .drain = false) → (s.nor.committed = false ∨ s.nor.session.isSome = true ∨ s.coc.formatted = false ∨ 4095 ≤ brNext s ∨ ok = false) → exec (.imageSwap ok ms m) s = .next (leaveActivation (if s.nor.committed = false ∨ s.nor.session.isSome = true ∨ s.coc.formatted = false ∨ 4095 ≤ brNext s then s else setBr s (brNext s) .torn) s.nor.activating (.vendor 0xC3))) ∧
  -- A swap whose record is written runs the committed image: its sections, slot, tables and measurements are in force, its
  -- record and event are written, and the activation succeeds in the mode before.
  (∀ (s n : State) (ms k : Nat) (m : Moment) (r : BootRec), (s.glb.mode = .drain ∧ s.glb.drainReason = .activation ∧ swapReady s = true ∧ outranked m.rivals .drain = false) → (s.nor.committed = true ∧ s.nor.session = none ∧ s.coc.formatted = true ∧ brNext s < 4095 ∧ k = otherSlot s) → (n = measureImage { underImage (keepRules s) k with glb := { (underImage (keepRules s) k).glb with bootSlot := k }, nor := { (underImage (keepRules s) k).nor with committed := false } } ∧ r = chainRec s (swapRecord n s ms) (brNext s)) → exec (.imageSwap true ms m) s = .next (leaveActivation (writeEvent (loadLive (setMeas (setBr n (brNext s) (.record r)) 8 (Config.sha384 (bootBody r))) s) { num := 0x0D61, inst := k, detail := [k] }) s.nor.activating .success)) ∧
  -- Outside Drain (activation), while a host command is past dispatch, and for an event of the same tick that stands before
  -- it, the swap does nothing.
  (∀ (s : State) (ok : Bool) (ms : Nat) (m : Moment), (¬(s.glb.mode = .drain ∧ s.glb.drainReason = .activation) ∨ swapReady s = false ∨ outranked m.rivals .drain = true) → exec (.imageSwap ok ms m) s = .next s) ∧
  -- A held command that reaches 100 ms is counted, ends with Command Interrupted and frees its slot; the first of an
  -- activation is reported, with its tenant. Where no such command is held it does nothing.
  (∀ (s u : State) (c : Cid) (n : Nat) (x : Ctx) (l : List (Nat × Ctx)), ctxFilter s (fun x => x.run == .held && (match x.cmd with | some h => h.c == c | none => false)) = (n, x) :: l → u = endHold (rcAdd s 0x6101C 0 1) n x .commandInterrupted → exec (.activationHoldExpiry c) s = .next (if u.cfe.holdRep then u else writeEvent { u with cfe := { u.cfe with holdRep := true } } { num := 0x0504, vss := x.vss }) ∧ (∀ w : State, ctxFilter w (fun x => x.run == .held && (match x.cmd with | some h => h.c == c | none => false)) = [] → exec (.activationHoldExpiry c) w = .next w))

/-- The owner operations, their verification, their burn into OTP and the read of a key.
What a write of TRS_AUTH_CTL starts, what its verification and its burn leave in one-time storage, and the result each
failure reports. Rests on parts of R110, R111, R112, R114, R115, R116, R117, R133. -/
def Obligations.OwnerKeys : Prop :=
  -- On an unowned controller, Enroll into slot 0 where it is blank starts its burn with the keys that stand in TRS_BUF.
  (∀ (s : State) (val : Word), (authMode s = true ∧ s.trs.busy = none ∧ owned s = false) → field val.toNat 0 3 = 1 → authTarget s 1 (field val.toNat 4 2) (field val.toNat 16 16) = 0 → exec (.trsEnroll val) s = .next { s with trs := { s.trs with busy := some { authOpOf s val.toNat with burning := true } } } ∧ (authOpOf s val.toNat).op = 1 ∧ (authOpOf s val.toNat).target = field val.toNat 4 2 ∧ (authOpOf s val.toNat).ed = memReadBytes 0 s.trs.buf 0 32 ∧ (authOpOf s val.toNat).ml = memReadBytes 0 s.trs.buf 32 1952) ∧
  -- On an owned controller, an operation that is signed by an enrolled slot waits for its verification: both of its signatures
  -- over the authorization body go to the trust engine with the keys of the signer; signed by any other slot it fails with
  -- result 4. Each of the three rows does what the OP of its word says.
  (∀ (s : State) (val : Word) (i : Instr), (i = .trsEnroll val ∨ i = .trsRevoke val ∨ i = .trsAdvanceMinSvn val) → (authMode s = true ∧ s.trs.busy = none ∧ owned s = true) → (1 ≤ field val.toNat 0 3 ∧ field val.toNat 0 3 ≤ 3) → exec i s = .next (if ownerState (ownerOf s (field val.toNat 6 2)) = 1 then checkAuthSigs { s with trs := { s.trs with busy := some (authOpOf s val.toNat) } } (authOpOf s val.toNat) else authResult s (field val.toNat 0 3) 4)) ∧
  -- A write while an operation runs is ignored and counted, in every mode; an OP of 0 or above 3 fails with result 1.
  (∀ (s : State) (val : Word) (i : Instr), (i = .trsEnroll val ∨ i = .trsRevoke val ∨ i = .trsAdvanceMinSvn val) → (s.trs.busy.isSome = true → exec i s = .next (count s 0x0002)) ∧ (s.trs.busy = none → field val.toNat 0 3 = 0 ∨ 3 < field val.toNat 0 3 → exec i s = .next (authResult s (field val.toNat 0 3) 1))) ∧
  -- On an unowned controller an operation whose target or value fails its check reports that check's result: 5 for a slot, 7
  -- for a value.
  (∀ (s : State) (val : Word) (i : Instr), (i = .trsEnroll val ∨ i = .trsRevoke val ∨ i = .trsAdvanceMinSvn val) → (authMode s = true ∧ s.trs.busy = none ∧ owned s = false) → (1 ≤ field val.toNat 0 3 ∧ field val.toNat 0 3 ≤ 3) → authTarget s (field val.toNat 0 3) (field val.toNat 4 2) (field val.toNat 16 16) ≠ 0 → exec i s = .next (authResult s (field val.toNat 0 3) (authTarget s (field val.toNat 0 3) (field val.toNat 4 2) (field val.toNat 16 16)))) ∧
  -- The burn of an Advance with room in the bank appends its value to the SVN bank, reports result 0 and writes
  -- TRS_SVN_ADVANCED; with 256 entries burned it reports result 8.
  (∀ (s : State) (o : AuthOp), (s.trs.busy = some o ∧ o.burning = true ∧ o.op = 3) → exec (.otpBurnComplete true) s = .next (if s.trs.svnBank.length < 256 then writeEvent (authResult { s with trs := { s.trs with svnBank := s.trs.svnBank ++ [o.value] } } 3 0) { num := 0x0C13, detail := [minSvn s, o.value] } else authResult s 3 8)) ∧
  -- The burn of an Enroll enrolls its slot with the keys; the burn of a Revoke voids its slot; a burn that failed reports
  -- result 8. With no operation, or with one that does not burn, it does nothing.
  (∀ (s : State) (o : AuthOp), (s.trs.busy = some o ∧ o.burning = true) → (o.op = 1 → exec (.otpBurnComplete true) s = .next (writeEvent (authResult (setOwner s o.target { enrolled := true, void := false, ed := o.ed, ml := o.ml, keysOk := true }) 1 0) { num := 0x0C10, inst := o.target, detail := [o.target, digest64 (keyDigest o.ed o.ml)] })) ∧ (o.op = 2 → exec (.otpBurnComplete true) s = .next (writeEvent (authResult (setOwner s o.target { ownerOf s o.target with void := true }) 2 0) { num := 0x0C11, inst := o.target, detail := [o.target] })) ∧ exec (.otpBurnComplete false) s = .next (authResult s o.op 8) ∧ (∀ (u : State) (b : Bool), u.trs.busy = none ∨ u.trs.busy = some { o with burning := false } → exec (.otpBurnComplete b) u = .next u)) ∧
  -- A read of a key 0 to 4 puts its 1,984 bytes at the start of TRS_BUF and changes nothing else; any other select, and a mode
  -- in which registers are not written, does nothing.
  (∀ (s : State) (val : Word), exec (.trsKeyRead val) s = .next (if authMode s = false ∨ 4 < field val.toNat 0 3 then s else { s with trs := { s.trs with buf := memWriteBytes 0 s.trs.buf 0 (keyBytes s (field val.toNat 0 3)) } })) ∧
  -- A verification with a bad first signature ends with result 2, with a bad second one with 3, with a target that does not
  -- pass its check with that check's result, and otherwise starts the burn of the operation. With no operation that waits for
  -- it, it does nothing.
  (∀ (s : State) (o : AuthOp) (v : AuthVerdict), (s.trs.busy = some o ∧ o.burning = false) → exec (.ownerAuthVerificationDone v) s = .next (if v.ed = false then authResult s o.op 2 else if v.ml = false then authResult s o.op 3 else if authTarget s o.op o.target o.value ≠ 0 then authResult s o.op (authTarget s o.op o.target o.value) else { s with trs := { s.trs with busy := some { o with burning := true } } }) ∧ (∀ u : State, u.trs.busy = none ∨ u.trs.busy = some { o with burning := true } → exec (.ownerAuthVerificationDone v) u = .next u))

/-- Every SPDM request is answered to its endpoint, and request and response join that endpoint's transcript.
In a mode that serves SPDM, for an endpoint that has a transcript context or for which one is free; the last part says what
happens elsewhere. Rests on parts of R106, R118, R128, R129, R130, R131. -/
def Obligations.SpdmRequests : Prop :=
  -- SPDM Exchange from PF0, an MCTP endpoint or a management association is served like the request it carries and completes
  -- with the response; its length in DW0 is a free value (the model's choice, log 4). Another sender's completes with Invalid
  -- Command Opcode, one of more than 8,192 bytes with Invalid Field.
  (∀ (s u : State) (c : Cid) (len : Nat) (req : SpdmReq) (r : SpdmRsp) (fs : List Nat), (authMode s = true ∧ (u, r, fs) = spdmServe s c.org req) → (spdmSender s c = true → len ≤ 8192 → exec (.spdmExchange c len req) s = .next (reply (emit { u with freeCtr := u.freeCtr + 1 } (.spdm c.org r fs)) c .success (Config.freeValue u.freeCtr) fs)) ∧ (spdmSender s c = false → exec (.spdmExchange c len req) s = .next (reply s c .invalidOpcode)) ∧ (spdmSender s c = true → 8192 < len → exec (.spdmExchange c len req) s = .next (reply s c .invalidField))) ∧
  -- GET_VERSION restarts the endpoint's transcript and is answered with version 1.2.
  (∀ (s : State) (ep : Origin), (authMode s = true ∧ ctxRoom s ep = true) → exec (.getVersion ep) s = .next (emit (ctxNote (closeCtx s ep) ep [0x84, 0x04, 0x12]) (.spdm ep .version [0x12]))) ∧
  -- GET_CAPABILITIES is answered with the controller's capabilities.
  (∀ (s : State) (ep : Origin), (authMode s = true ∧ ctxRoom s ep = true) → exec (.getCapabilities ep) s = .next (emit (ctxNote s ep [0xE1, 0x61, 1, 1, 2, 8192, 8192]) (.spdm ep .capabilities [1, 1, 2, 8192, 8192]))) ∧
  -- NEGOTIATE_ALGORITHMS with one offer in common is answered with what is common; with none it is an Invalid Request.
  (∀ (s : State) (ep : Origin) (a h m d : Bool), (authMode s = true ∧ ctxRoom s ep = true) → exec (.negotiateAlgorithms ep a h m d) s = .next (if a || h || m || d then emit (ctxNote s ep [0xE3, bit a, bit h, bit m, bit d, 0x63, bit a, bit h, bit m, bit d]) (.spdm ep .algorithms [bit a, bit h, bit m, bit d]) else emit (ctxNote s ep [0xE3, 0, 0, 0, 0, 0x7F, 0x01]) (.spdm ep .errorInvalid []))) ∧
  -- GET_DIGESTS is answered with the digest of the certificate chain of slot 0.
  (∀ (s : State) (ep : Origin), (authMode s = true ∧ ctxRoom s ep = true) → exec (.getDigests ep) s = .next (emit (ctxNote s ep [0x81, 0x01, 0, Config.sha384 Config.certChain]) (.spdm ep .digests [0, Config.sha384 Config.certChain]))) ∧
  -- GET_CERTIFICATE of a slot other than 0 is an Invalid Request; of slot 0 it is answered with the portion asked for, its
  -- length and the remainder's length.
  (∀ (s : State) (ep : Origin) (slot off len : Nat) (fs : List Nat), (authMode s = true ∧ ctxRoom s ep = true) → fs = [((Config.certChain.drop off).take len).length, (Config.certChain.drop (off + len)).length] ++ (Config.certChain.drop off).take len → exec (.getCertificate ep slot off len) s = .next (if slot = 0 then emit (ctxNote s ep ([0x82, 0, off, len] ++ [0x02] ++ fs)) (.spdm ep .certificate fs) else emit (ctxNote s ep [0x82, slot, off, len, 0x7F, 0x01]) (.spdm ep .errorInvalid []))) ∧
  -- CHALLENGE of slot 0 with a summary type that exists takes one nonce and is answered with the digest of the chain, the
  -- nonce, the summary asked for, and the signature of the transcript up to there; of another slot, or with another summary,
  -- it is an Invalid Request.
  (∀ (s : State) (ep : Origin) (slot sum nonce : Nat) (old fs : List Nat), (authMode s = true ∧ ctxRoom s ep = true) → (old = (match spdmCtxOf s ep with | some c => c.script | none => []) ∧ fs = [Config.sha384 Config.certChain, Config.freeValue s.freeCtr] ++ (if sum = 0 then [] else if sum = 1 then [Config.sha384 (s.trs.meas.take 7)] else [Config.sha384 s.trs.meas])) → (slot = 0 → sum = 0 ∨ sum = 1 ∨ sum = 0xFF → ∃ t, exec (.challenge ep slot sum nonce) s = .next t ∧ t.out = .spdm ep .challengeAuth (fs ++ spdmSigned ctxChallenge (old ++ [0x83, 0, sum, nonce] ++ [0x03] ++ fs)) :: s.out ∧ t.freeCtr = s.freeCtr + 1 ∧ spdmCtxOf t ep = some { ep := ep, script := old ++ ([0x83, 0, sum, nonce] ++ [0x03] ++ (fs ++ spdmSigned ctxChallenge (old ++ [0x83, 0, sum, nonce] ++ [0x03] ++ fs))), last := s.now }) ∧ (¬(slot = 0 ∧ (sum = 0 ∨ sum = 1 ∨ sum = 0xFF)) → exec (.challenge ep slot sum nonce) s = .next (emit (ctxNote s ep [0x83, slot, sum, nonce, 0x7F, 0x01]) (.spdm ep .errorInvalid [])))) ∧
  -- GET_MEASUREMENTS of an index that exists is answered with its values, and when signed also with a nonce and the signature
  -- of the transcript up to there; of any other index it is an Invalid Request.
  (∀ (s : State) (ep : Origin) (index nonce : Nat) (old vs : List Nat), (authMode s = true ∧ ctxRoom s ep = true) → old = (match spdmCtxOf s ep with | some c => c.script | none => []) → (measValues s index = some vs → exec (.getMeasurements ep index false nonce) s = .next (emit (ctxNote s ep ([0xE0, index, 0, nonce] ++ [0x60] ++ vs)) (.spdm ep .measurements vs))) ∧ (measValues s index = some vs → ∃ t, exec (.getMeasurements ep index true nonce) s = .next t ∧ t.freeCtr = s.freeCtr + 1 ∧ t.out = .spdm ep .measurements (vs ++ [Config.freeValue s.freeCtr] ++ spdmSigned ctxMeasurements (old ++ [0xE0, index, 1, nonce] ++ [0x60] ++ vs ++ [Config.freeValue s.freeCtr])) :: s.out) ∧ (∀ b, measValues s index = none → exec (.getMeasurements ep index b nonce) s = .next (emit (ctxNote s ep [0xE0, index, bit b, nonce, 0x7F, 0x01]) (.spdm ep .errorInvalid [])))) ∧
  -- Any other request is answered with ERROR Unsupported Request.
  (∀ (s : State) (ep : Origin) (code : Nat), (authMode s = true ∧ ctxRoom s ep = true) → exec (.spdmUnsupportedRequest ep code) s = .next (emit (ctxNote s ep [code, 0x7F, 0x07]) (.spdm ep .errorUnsupported []))) ∧
  -- An idle context is closed, and no other context changes.
  (∀ (s : State) (ep : Origin), exec (.spdmContextIdleExpiry ep) s = .next { s with trs := { s.trs with spdm := s.trs.spdm.filter fun c => !(c.ep == ep) } }) ∧
  -- With eight contexts of other endpoints, each request is answered ERROR Busy with its event; in a mode that does not serve
  -- SPDM nothing is answered.
  (∀ (s : State) (ep : Origin) (i : Instr) (a b c d : Bool) (k l m : Nat), (i = .getVersion ep ∨ i = .getCapabilities ep ∨ i = .negotiateAlgorithms ep a b c d ∨ i = .getDigests ep ∨ i = .getCertificate ep k l m ∨ i = .challenge ep k l m ∨ i = .getMeasurements ep k a l ∨ i = .spdmUnsupportedRequest ep k) → (authMode s = true → ctxRoom s ep = false → exec i s = .next (emit (writeEvent s { num := 0x0C20 }) (.spdm ep .errorBusy []))) ∧ (authMode s = false → exec i s = .next s))

/-- The sub-port links, their priority pauses, the address slots and the management port's link.
For a sub-port 0 to 31 that its port's mode gives, and a priority 0 to 7. Rests on parts of R137, R138, R141, R143, R144,
R152, R154. -/
def Obligations.PortLinks : Prop :=
  -- While a sub-port trains, the first timeout is counted as a failure and a second attempt begins at once; the second stops
  -- training and writes PRT_TRAIN_FAILED once; one that ends a later attempt only stops it.
  (∀ (s : State) (sub : Nat), (sub < 32 ∧ (subOf s sub).training = true) → ((subOf s sub).fails = 0 → exec (.linkTrainTimeout sub) s = .next (beginTraining (setSub s sub { subOf s sub with fails := 1 }) sub)) ∧ ((subOf s sub).fails = 1 → exec (.linkTrainTimeout sub) s = .next (writeEvent (setSub s sub { subOf s sub with fails := 2, training := false }) { num := 0x0103, inst := sub, detail := [sub / 4, sub % 4] })) ∧ (1 < (subOf s sub).fails → exec (.linkTrainTimeout sub) s = .next (setSub s sub { subOf s sub with training := false }))) ∧
  -- A sub-port that begins training gives out the PMD of its port's mode, its lanes and, where AN is set, its autonegotiation.
  (∀ (s : State) (sub : Nat), beginTraining s sub = emit (setSub s sub { subOf s sub with training := true }) (.train sub (anOn s (sub / 4)) (prtMode s (sub / 4)) (subLanes s sub))) ∧
  -- After two failures the retry timer starts training again.
  (∀ (s : State) (sub : Nat), (sub < 32 ∧ subExists s sub = true ∧ (subOf s sub).up = false ∧ (subOf s sub).fails = 2) → exec (.linkTrainRetryTimer sub) s = .next (beginTraining s sub)) ∧
  -- A timeout without training does nothing, nor does the retry timer of a link that is up, that its port's mode does not give
  -- or that has not failed twice.
  (∀ (s : State) (sub : Nat), sub < 32 → ((subOf s sub).training = false → exec (.linkTrainTimeout sub) s = .next s) ∧ (subExists s sub = false ∨ (subOf s sub).up = true ∨ (subOf s sub).fails ≠ 2 → exec (.linkTrainRetryTimer sub) s = .next s)) ∧
  -- A training link whose partner runs the PMD of its mode with RS(544,514) is up, no longer training, with no failure
  -- counted, and PRT_LINK_UP names its port and sub-port; one failed attempt before it is a transient fault first.
  (∀ (s : State) (sub : Nat), (sub < 32 ∧ subExists s sub = true) → ((subOf s sub).up = false ∧ (subOf s sub).training = true) → exec (.subportLinkUp sub (prtMode s (sub / 4)) true) s = .next (writeEvent (setSub (if (subOf s sub).fails = 1 then transient s 1 sub 1 0x0103 else s) sub { subOf s sub with up := true, training := false, fails := 0, pauseRep := false }) { num := 0x0101, inst := sub, detail := [sub / 4, sub % 4] })) ∧
  -- A link does not come up where it is up already, does not train, is not one of its mode, or its partner runs another PMD or
  -- no RS(544,514).
  (∀ (s : State) (sub pmd : Nat) (rs : Bool), sub < 32 → (subExists s sub = false ∨ (subOf s sub).up = true ∨ (subOf s sub).training = false ∨ pmd ≠ prtMode s (sub / 4) ∨ rs = false) → exec (.subportLinkUp sub pmd rs) s = .next s) ∧
  -- A link that goes down trains again at once, loses its pauses and storm marks, and writes PRT_LINK_DOWN; a port group with
  -- a live member left takes its buckets over. One that is down stays as it is.
  (∀ (s : State) (sub : Nat), sub < 32 → ((subOf s sub).up = true → exec (.subportLinkDown sub) s = .next (rehash (beginTraining (writeEvent (setSub s sub { subOf s sub with up := false, fails := 0, paused := [], storm := [] }) { num := 0x0102, inst := sub, detail := [sub / 4, sub % 4] }) sub) sub)) ∧ ((subOf s sub).up = false → exec (.subportLinkDown sub) s = .next s)) ∧
  -- The end of a pause clears that priority's pause and no other.
  (∀ (s : State) (sub prio : Nat), (sub < 32 ∧ prio < 8) → exec (.pfcPauseExpiry sub prio) s = .next (setSub s sub { subOf s sub with paused := tput (subOf s sub).paused 0 prio 0 })) ∧
  -- On a priority paused and under PFC whose pause does not end in the same cycle, the watchdog marks a storm, sets the
  -- priority's bit of PRT_PFC_STORM, writes its event and drops what that priority's classes hold.
  (∀ (s : State) (sub prio : Nat), (sub < 32 ∧ prio < 8) → (tget (subOf s sub).paused 0 prio ≠ 0 ∧ bitAt (pfcMask s (sub / 4)) prio = true) → exec (.pfcWatchdogExpiry sub prio false) s = .next (dropPrio (writeEvent (w1cSet (setSub s sub { subOf s sub with storm := (subOf s sub).storm.filter (· != prio) ++ [prio] }) 0x20014 (sub / 4) (2 ^ prio)) { num := 0x0110, inst := sub, detail := [sub / 4, sub % 4, prio] }) sub prio)) ∧
  -- A pause that ends in the same cycle wins: only the pause is over. The watchdog of a priority that is not paused, or not
  -- under PFC, does nothing.
  (∀ (s : State) (sub prio : Nat), (sub < 32 ∧ prio < 8) → (tget (subOf s sub).paused 0 prio ≠ 0 ∧ bitAt (pfcMask s (sub / 4)) prio = true → exec (.pfcWatchdogExpiry sub prio true) s = .next (setSub s sub { subOf s sub with paused := tput (subOf s sub).paused 0 prio 0 })) ∧ (tget (subOf s sub).paused 0 prio = 0 ∨ bitAt (pfcMask s (sub / 4)) prio = false → ∀ e, exec (.pfcWatchdogExpiry sub prio e) s = .next s)) ∧
  -- The end of the storm ends the pause and takes the storm mark off that priority.
  (∀ (s : State) (sub prio : Nat), (sub < 32 ∧ prio < 8) → exec (.pfcWatchdogResume sub prio) s = .next (setSub (pauseEnd s sub prio) sub { subOf (pauseEnd s sub prio) sub with storm := (subOf (pauseEnd s sub prio) sub).storm.filter (· != prio) })) ∧
  -- A write of PRT_ADDR_CTL with APPLY and VALID puts the address of the selected port's data registers into the slot named,
  -- and without VALID empties the slot; the low six bits stand in the register.
  (∀ (s : State) (v : Word), authMode s = true → bitAt v.toNat 31 = true → exec (.addressSlotApply v) s = .next (discNote (setSub (rwPut s 0x20024 (prtSel s) (v.toNat % 64)) (4 * prtSel s + field v.toNat 0 2) { subOf s (4 * prtSel s + field v.toNat 0 2) with addrs := tput (subOf s (4 * prtSel s + field v.toNat 0 2)).addrs none (field v.toNat 2 2) (if bitAt v.toNat 5 then some (bitAt v.toNat 4, addrData (rwPut s 0x20024 (prtSel s) (v.toNat % 64)) (prtSel s) (bitAt v.toNat 4)) else none) }))) ∧
  -- Without APPLY only the register's six bits change; in a mode that does not serve the port registers nothing does.
  (∀ (s : State) (v : Word), (authMode s = true → bitAt v.toNat 31 = false → exec (.addressSlotApply v) s = .next (rwPut s 0x20024 (prtSel s) (v.toNat % 64))) ∧ (authMode s = false → exec (.addressSlotApply v) s = .next s)) ∧
  -- The management port's link comes up outside Held where MGMT_MODE is not 0, and goes down, and changes nothing else.
  (∀ (s : State), (s.glb.mode ≠ .held ∧ par s 0x06 128 1 2 ≠ 0 → exec .mgmtPortLinkUp s = .next { s with prt := { s.prt with mgmtUp := true } }) ∧ (s.glb.mode = .held ∨ par s 0x06 128 1 2 = 0 → exec .mgmtPortLinkUp s = .next s) ∧ exec .mgmtPortLinkDown s = .next { s with prt := { s.prt with mgmtUp := false } }) ∧
  -- A sub-port that does not exist is a fault.
  (∀ (s : State) (sub prio pmd : Nat) (b : Bool), 32 ≤ sub → exec (.linkTrainTimeout sub) s = .fault (.noSuchInstance "sub-port") ∧ exec (.linkTrainRetryTimer sub) s = .fault (.noSuchInstance "sub-port") ∧ exec (.subportLinkUp sub pmd b) s = .fault (.noSuchInstance "sub-port") ∧ exec (.subportLinkDown sub) s = .fault (.noSuchInstance "sub-port") ∧ (∃ n, exec (.pfcPauseExpiry sub prio) s = .fault (.noSuchInstance n)) ∧ (∃ n, exec (.pfcWatchdogExpiry sub prio b) s = .fault (.noSuchInstance n)) ∧ (∃ n, exec (.pfcWatchdogResume sub prio) s = .fault (.noSuchInstance n)))

/-- A received frame's ordered checks, the MACsec associations and a sub-port's next frame out.
On a sub-port 0 to 31, on the management port, or on a secure channel 0 to 31 of a port 0 to 7. Rests on parts of R139,
R140, R145, R148, R149, R151, R152, R379, R390. -/
def Obligations.FramesAndMacsec : Prop :=
  -- A frame on a link that is down, or on a sub-port the port's mode does not give, does nothing.
  (∀ (s : State) (f : EthFrame), f.sub < 32 → (subExists s f.sub = false ∨ (subOf s f.sub).up = false) → exec (.ethFrameReceive f) s = .next s) ∧
  -- A frame with an uncorrectable codeword, a bad FCS, or shorter than 64 or longer than 9,216 bytes, is counted and dropped
  -- with the first drop reason, its uncorrectable codewords added to PRT_FEC_UNCORR.
  (∀ (s : State) (f : EthFrame), (f.sub < 32 ∧ subExists s f.sub = true ∧ (subOf s f.sub).up = true) → (f.fecBad ≠ 0 ∨ f.fcsOk = false ∨ f.len < 64 ∨ 9216 < f.len) → exec (.ethFrameReceive f) s = .next (dropFrame (if f.fecBad = 0 then count s 0x0101 (some f.sub) none f.len else rcAdd (count s 0x0101 (some f.sub) none f.len) 0x2000C (f.sub / 4) f.fecBad) f.sub 1)) ∧
  -- A good frame to another station is dropped with the second reason.
  (∀ (s : State) (f : EthFrame), (f.sub < 32 ∧ subExists s f.sub = true ∧ (subOf s f.sub).up = true) → (f.fecBad = 0 ∧ f.fcsOk = true ∧ 64 ≤ f.len ∧ f.len ≤ 9216 ∧ macPasses f.sub f.dst = false) → exec (.ethFrameReceive f) s = .next (dropFrame (count s 0x0101 (some f.sub) none f.len) f.sub 2)) ∧
  -- A good MAC control frame is a PFC frame where its opcode is 0x0101; any other is dropped with the third reason, an 802.3x
  -- pause reported once per link-up.
  (∀ (s : State) (f : EthFrame), (f.sub < 32 ∧ subExists s f.sub = true ∧ (subOf s f.sub).up = true) → (f.fecBad = 0 ∧ f.fcsOk = true ∧ 64 ≤ f.len ∧ f.len ≤ 9216 ∧ macPasses f.sub f.dst = true ∧ f.ety = 0x8808) → exec (.ethFrameReceive f) s = .next (macControl (count s 0x0101 (some f.sub) none f.len) f)) ∧
  -- A good frame for this station that is no MAC control frame goes on to the VLAN, IP and address checks on a port without
  -- MACsec; on one with MACsec an EAPOL frame goes to the management cores, a frame that passes its secure channel goes on in
  -- clear, and any other is dropped with the fourth reason.
  (∀ (s : State) (f : EthFrame), (f.sub < 32 ∧ subExists s f.sub = true ∧ (subOf s f.sub).up = true) → (f.fecBad = 0 ∧ f.fcsOk = true ∧ 64 ≤ f.len ∧ f.len ≤ 9216 ∧ macPasses f.sub f.dst = true ∧ f.ety ≠ 0x8808) → exec (.ethFrameReceive f) s = .next (if macsecOn (count s 0x0101 (some f.sub) none f.len) (f.sub / 4) = false then frameChecks (count s 0x0101 (some f.sub) none f.len) f f.ety else if f.ety = 0x888E then toCores (count s 0x0101 (some f.sub) none f.len) f (framePrio f) f.ety else match f.sec.bind (secPass (count s 0x0101 (some f.sub) none f.len) f.sub) with | some s' => frameChecks s' f f.ety2 | none => dropFrame (count s 0x0101 (some f.sub) none f.len) f.sub 4)) ∧
  -- A frame on the management port goes to the management cores where the port is up and takes it, and is dropped otherwise.
  (∀ (s : State) (f : EthFrame), f.sub = 32 → exec (.ethFrameReceive f) s = .next (if s.prt.mgmtUp && mgmtTakes s f then emit s (.cores 32 f.ety) else s)) ∧
  -- A receive SA joins its channel at its lowest packet number beside the newest one of another number; a third one goes.
  (∀ (s : State) (port sc sub an pn : Nat), (port < 8 ∧ sc < 32) → exec (.macsecRxSaInstall port sc sub an pn) s = .next (setSc s port sc { scOf s port sc with sub := sub % 4, rx := ((scOf s port sc).rx.filter fun y => y.1 != an).drop (((scOf s port sc).rx.filter fun y => y.1 != an).length - 1) ++ [(an % 4, pn)] })) ∧
  -- A transmit SA replaces its channel's and its installation is an event.
  (∀ (s : State) (port sc sub an pn : Nat), (port < 8 ∧ sc < 32) → exec (.macsecTxSaInstall port sc sub an pn) s = .next (writeEvent (setSc s port sc { scOf s port sc with sub := sub % 4, tx := some (an % 4, pn), spent := false }) { num := 0x0122, inst := 4 * port + sub % 4, detail := [port, sub % 4, sc] })) ∧
  -- Retiring a receive SA takes exactly that number out of its channel.
  (∀ (s : State) (port sc an : Nat), (port < 8 ∧ sc < 32) → exec (.macsecRxSaRetire port sc an) s = .next (setSc s port sc { scOf s port sc with rx := (scOf s port sc).rx.filter fun y => y.1 != an })) ∧
  -- A port or channel that does not exist is a fault.
  (∀ (s : State) (port sc sub an pn : Nat), (8 ≤ port ∨ 32 ≤ sc) → exec (.macsecRxSaInstall port sc sub an pn) s = .fault (.noSuchInstance "secure channel") ∧ exec (.macsecTxSaInstall port sc sub an pn) s = .fault (.noSuchInstance "secure channel") ∧ exec (.macsecRxSaRetire port sc an) s = .fault (.noSuchInstance "secure channel")) ∧
  -- A sub-port without a waiting frame sends nothing.
  (∀ (s : State) (sub : Nat) (lost : Bool), sub < 32 → (∀ c, c < 4 → egOf s sub c = []) → exec (.subportTransmit sub none none lost) s = .next s) ∧
  -- With frames waiting and no injector at work, a sub-port whose link is up takes the frame its class order picks, or keeps
  -- them all when none may go now: a frame with an uncorrectable cell is lost and its queue pair goes to Error, a port with
  -- MACsec sends it secured, and any other sends it as it is.
  (∀ (s : State) (sub c : Nat) (lost : Bool), (sub < 32 ∧ c < 4 ∧ egOf s sub c ≠ []) → (s.ptb.available = false ∧ (subOf s sub).up = true) → exec (.subportTransmit sub none none lost) s = .next (match pickFrame s sub with | (t, none) => t | (t, some (cls, f)) => if lost then lostFrame t sub cls f else if macsecOn s (sub / 4) then secureSend t sub cls f s else wire (takeFrame t sub cls f) sub cls f)) ∧
  -- A transmit association installed in the same cycle, and a frame of the management cores' own, come before the choice: the
  -- command with them is the same command without them on the state they leave.
  (∀ (s : State) (sub sc an pn len : Nat) (eapol lost : Bool), sub < 32 → (sc < 32 → exec (.subportTransmit sub none (some (sc, an, pn)) lost) s = exec (.subportTransmit sub none none lost) (installTx s (sub / 4) sc sub an pn)) ∧ exec (.subportTransmit sub (some (eapol, len)) none lost) s = exec (.subportTransmit sub none none lost) (coreFrame s sub eapol len))

/-- Packets in, connection management and the end of a queue pair.
For a queue pair, a sub-port and a priority that exist; with no injector at work, for a packet. Rests on parts of R157,
R158, R159, R160, R162, R163, R164, R222. -/
def Obligations.QueuePairLife : Prop :=
  -- With an empty ingress queue nothing happens. A frame whose ICRC is bad is taken from its queue, its cells are freed and it
  -- is counted.
  (∀ (s : State) (sub prio cells : Nat) (p : RocePkt) (t : State), (sub < 32 ∧ prio < 8) → (t.ptb.available = false ∧ p.poison = none ∧ p.icrc = false) → (ingPop s sub prio = none → exec (.rocePacketReceive sub prio p) s = .next s) ∧ (ingPop s sub prio = some (cells, t) → exec (.rocePacketReceive sub prio p) s = .next (rcAdd (freeCells t cells) 0x30108 0 1))) ∧
  -- A packet for a queue pair on its network goes, counted, to its context: discarded under an old generation, kept while the
  -- context is fetched, or through the checks.
  (∀ (s : State) (sub prio cells : Nat) (p : RocePkt) (t : State), (sub < 32 ∧ prio < 8 ∧ ingPop s sub prio = some (cells, t)) → (t.ptb.available = false ∧ p.poison = none ∧ p.icrc = true ∧ p.ver = 0 ∧ p.pkey % 2 ^ 15 = 0x7FFF ∧ p.op < 32 ∧ 2 ^ 16 ≤ p.qpn ∧ (qpOf t (p.qpn % 2 ^ 16)).sub ≠ 32) → exec (.rocePacketReceive sub prio p) s = .next (afterRts t (packetTo (count t 0x0201 (some (p.qpn % 2 ^ 16)) (some (qpVss t (p.qpn % 2 ^ 16)))) (p.qpn % 2 ^ 16) { p with cells := cells }) (p.qpn % 2 ^ 16))) ∧
  -- A packet to QPN 1 goes to the management cores when their rate allows it.
  (∀ (s : State) (sub prio cells : Nat) (p : RocePkt) (t : State), (sub < 32 ∧ prio < 8 ∧ ingPop s sub prio = some (cells, t)) → (t.ptb.available = false ∧ p.poison = none ∧ p.icrc = true ∧ p.ver = 0 ∧ p.pkey % 2 ^ 15 = 0x7FFF ∧ p.op < 32 ∧ p.qpn = 1 ∧ (qpOf t 1).kind ≠ 2) → ∃ u, exec (.rocePacketReceive sub prio p) s = .next u ∧ u = afterRts t (match coresRate (freeCells t cells) sub with | (true, v) => coresPacket v sub { p with cells := cells } | (false, v) => v) 1) ∧
  -- A packet on the management port goes through the same checks while its link is up, and is nothing while it is down.
  (∀ (s : State) (prio : Nat) (p : RocePkt), exec (.rocePacketReceive 32 prio p) s = .next (if s.prt.mgmtUp then packetIn s 32 { p with cells := 0, poison := none } else s)) ∧
  -- A REQ on a sub-port while the transport is up, of a path MTU of at least 1,024 bytes and with no data of its own, loads a
  -- free context in RTR and answers REP.
  (∀ (s : State) (r : CmReq) (q : Nat), (r.sub < 32 ∧ transportUp s = true ∧ freeQp s = some q ∧ r.recfmt = 0 ∧ 3 ≤ r.pmtu) → exec (.cmReq r) s = .next (loadQp s q 0 r {} []) ∧ (loadQp s q 0 r {} []).rdt.cache.head? = some q) ∧
  -- A REQ of a tenant queue's format, or of Porpor's, that names what it needs loads a context of that kind, and is rejected
  -- otherwise.
  (∀ (s : State) (r : CmReq) (q : Nat), (r.sub < 32 ∧ transportUp s = true ∧ freeQp s = some q ∧ 3 ≤ r.pmtu) → (r.recfmt = 0xAC01 → exec (.cmReq r) s = .next (if vdqAssoc s r then loadQp s q 1 r { assoc := some r.cntlid, dlog := vssDlog s (match assocOf s r.cntlid with | some a => a.vss | none => 0) } [] else emit s (.packet 65536 0x102 0 [r.rqpn]))) ∧ (r.recfmt = 0xAC02 → exec (.cmReq r) s = .next (if porporReqOk s r then match grantWindow s r.member with | some (w, s) => loadQp s q 2 r { member := r.member, grant := w, peerKey := r.peerKey, peerSlots := r.peerSlots } [rkeyPrefix s + w, windowSlots s] | none => emit s (.packet 65536 0x102 0 [r.rqpn]) else emit s (.packet 65536 0x102 0 [r.rqpn])))) ∧
  -- A REQ whose data has no known format, of a smaller path MTU, or without a free context is answered REJ and loads nothing;
  -- while the transport is down it has no answer.
  (∀ (s : State) (r : CmReq), r.sub < 32 → (transportUp s = true → freeQp s = none ∨ r.pmtu < 3 ∨ (r.recfmt ≠ 0 ∧ r.recfmt ≠ 0xAC01 ∧ r.recfmt ≠ 0xAC02) → exec (.cmReq r) s = .next (emit s (.packet 65536 0x102 0 [r.rqpn]))) ∧ (transportUp s = false → exec (.cmReq r) s = .next s)) ∧
  -- A REQ on the management port while its link is up outside Held serves the binding of NVMe-oF alone.
  (∀ (s : State) (r : CmReq), (r.sub = 32 ∧ s.prt.mgmtUp = true ∧ s.glb.mode ≠ .held) → exec (.cmReq r) s = .next (if r.pmtu < 3 ∨ r.recfmt ≠ 0 then emit s (.packet 65536 0x102 0 [r.rqpn]) else match freeQp s with | some q => loadQp s q 0 r {} [] | none => emit s (.packet 65536 0x102 0 [r.rqpn]))) ∧
  -- An RTU takes a queue pair of a host or a tenant from RTR to RTS and changes nothing else; in any other state it does
  -- nothing.
  (∀ (s : State) (q : Nat), (q < 65536 ∧ (qpOf s q).kind ≠ 2) → exec (.cmRtu q) s = .next (if (qpOf s q).state = .rtr then setQp s q { qpOf s q with state := .rts } else s)) ∧
  -- An RTU of a Porpor queue pair in RTR takes it to RTS and hands it the requests that wait for it.
  (∀ (s : State) (q : Nat), (q < 65536 ∧ (qpOf s q).kind = 2 ∧ (qpOf s q).state = .rtr) → exec (.cmRtu q) s = .next (fedSettle (setQp s q { qpOf s q with state := .rts }))) ∧
  -- A DREQ on a queue pair in Init, RTR or RTS without an association ends it with cause 25; a write of QP_CTL with TO_ERROR
  -- tears the selected one down with cause 9, and without TO_ERROR does nothing.
  (∀ (s : State) (q : Nat) (v : Word), (q < 65536 ∧ authMode s = true) → ((qpOf s q).state ≠ .reset ∧ (qpOf s q).state ≠ .error ∧ (qpOf (qpErrorAlone s q 25) q).assoc = none) → exec (.cmDreq q) s = .next (qpErrorAlone s q 25) ∧ exec (.qpTeardown v) s = .next (if bitAt v.toNat 0 then qpDown s (field (rwGet s 0x30000 0) 0 16) 9 else s)) ∧
  -- A queue pair in Reset or Error is not torn down again, and QP_CTL is not written in a mode that does not serve it.
  (∀ (s : State) (q : Nat) (v : Word), (q < 65536 ∧ ((qpOf s q).state = .reset ∨ (qpOf s q).state = .error)) → exec (.cmDreq q) s = .next s ∧ (authMode s = false → exec (.qpTeardown v) s = .next s)) ∧
  -- A DREQ on any queue pair that is neither in Reset nor in Error puts it in Error; the loss of an admin queue ends its
  -- association, and an I/O queue is no longer one of it.
  (∀ (s : State) (q a : Nat) (x : Assoc), (q < 65536 ∧ (qpOf s q).state ≠ .reset ∧ (qpOf s q).state ≠ .error) → ((qpOf (qpErrorAlone s q 25) q).assoc = some a ∧ assocOf (qpErrorAlone s q 25) a = some x) → exec (.cmDreq q) s = .next (if (qpOf (qpErrorAlone s q 25) q).kind = 0 ∧ x.qp = q then assocEnd (qpErrorAlone s q 25) a else setAssoc (qpErrorAlone s q 25) a (some { x with ioqs := x.ioqs.filter fun i => i.qp != q }))) ∧
  -- A context in Error that holds nothing is cleared but for its instar, its generation and its cause, waits in the reset
  -- queue behind the others, and its instar number moves on; in any other state, or while frames still hold it, nothing
  -- happens.
  (∀ (s : State) (q : Nat), q < 65536 → exec (.qpContextFree q) s = .next (if (qpOf s q).state ≠ .error ∨ framesHold s q = true then s else bumpQp { setQp s q { instar := (qpOf s q).instar, gens := (qpOf s q).gens, err := (qpOf s q).err } with rdt := { (setQp s q { instar := (qpOf s q).instar, gens := (qpOf s q).gens, err := (qpOf s q).err }).rdt with resetQ := s.rdt.resetQ.filter (· != q) ++ [q] } } q)) ∧
  -- A context that arrives from DRAM goes to the head of the cache and its waiting packets through the checks in their order;
  -- one that cannot be read poisons and tears the queue pair down with cause 10 first, and a tenant queue's ends that queue
  -- with cause 4.
  (∀ (s : State) (q a n : Nat) (ps : List RocePkt) (t : State), (q < 65536 ∧ (s.rdt.fetching.find? fun x => x.1 == q) = some (q, ps)) → t = { s with rdt := { s.rdt with fetching := s.rdt.fetching.filter fun x => x.1 != q } } → exec (.qpContextFetchDone q .good) s = .next (afterRts s (ps.foldl (fun s p => packetTo s q p) (cacheUse t q)) q) ∧ exec (.qpContextFetchDone q (.lost a)) s = .next (afterRts s (ps.foldl (fun s p => packetTo s q p) (cacheUse (qpDown (consumePoison t a 0 q) q 10) q)) q) ∧ exec (.qpContextFetchDone q (.tqLost a n)) s = .next (afterRts s (ps.foldl (fun s p => packetTo s q p) (cacheUse (tqError (consumePoison t a 0 (16 * q + n)) (16 * q + n) 4) q)) q)) ∧
  -- A context that nothing waits for changes nothing.
  (∀ (s : State) (q : Nat) (r : CtxFetch), (q < 65536 ∧ (s.rdt.fetching.find? fun x => x.1 == q) = none) → exec (.qpContextFetchDone q r) s = .next s) ∧
  -- A sub-port, priority or queue pair that does not exist is a fault.
  (∀ (s : State) (n : Nat) (r : CmReq) (p : RocePkt) (f : CtxFetch), (65536 ≤ n ∧ 33 ≤ r.sub) → exec (.cmRtu n) s = .fault (.noSuchInstance "queue pair") ∧ exec (.cmDreq n) s = .fault (.noSuchInstance "queue pair") ∧ exec (.qpContextFree n) s = .fault (.noSuchInstance "queue pair") ∧ exec (.qpContextFetchDone n f) s = .fault (.noSuchInstance "queue pair") ∧ exec (.cmReq r) s = .fault (.noSuchInstance "sub-port") ∧ exec (.rocePacketReceive n 0 p) s = .fault (.noSuchInstance "ingress queue"))

/-- The timers of a queue pair, its next packet and the dirty logs.
For a queue pair that exists. Rests on parts of R156, R168, R171, R172, R173, R174, R175, R181, R182, R183. -/
def Obligations.QueuePairTimers : Prop :=
  -- The delay of the oldest executed packet that no ACK covers makes an ACK due, sent at once unless the front end still
  -- decides; of any other packet it does nothing.
  (∀ (s : State) (q psn : Nat), q < 65536 → exec (.ackCoalesceExpiry q psn) s = .next (if (qpOf s q).ackPend = 0 ∨ (qpOf s q).ackFrom ≠ psn then s else settleAck (setQp s q { qpOf s q with ackDue := true }) q)) ∧
  -- When the oldest packet unacknowledged times out, one retry is used and every unacknowledged packet is sent again; with
  -- none left the queue pair goes down with cause 1.
  (∀ (s : State) (q : Nat) (p : Pkt) (r : List Pkt), (q < 65536 ∧ (qpOf s q).state = .rts ∧ (qpOf s q).unacked = p :: r) → exec (.ackTimeout q p.psn) s = .next (if (qpOf s q).retry = 0 then qpDown s q 1 else setQp s q { qpOf s q with retry := (qpOf s q).retry - 1, resend := (qpOf s q).unacked.length })) ∧
  -- Outside RTS, or for a packet that is not the oldest unacknowledged, the timer does nothing.
  (∀ (s : State) (q psn : Nat), (q < 65536 ∧ ((qpOf s q).state ≠ .rts ∨ (∀ p r, (qpOf s q).unacked = p :: r → p.psn ≠ psn))) → exec (.ackTimeout q psn) s = .next s) ∧
  -- The end of an RNR wait lets the queue pair send again; without one nothing happens.
  (∀ (s : State) (q : Nat), q < 65536 → exec (.rnrWaitExpiry q) s = .next (if (qpOf s q).rnrWait then setQp s q { qpOf s q with rnrWait := false } else s)) ∧
  -- A message that is waiting or unacknowledged when its lifetime ends takes the queue pair down with cause 3; one that has
  -- been acknowledged does nothing.
  (∀ (s : State) (q t : Nat), q < 65536 → ((∃ p ∈ (qpOf s q).unacked, p.at_ = t) ∨ (∃ m ∈ (qpOf s q).sendq, m.at_ = t) → exec (.messageLifetimeExpiry q t) s = .next (qpDown s q 3)) ∧ ((∀ p ∈ (qpOf s q).unacked, p.at_ ≠ t) ∧ (∀ m ∈ (qpOf s q).sendq, m.at_ ≠ t) → exec (.messageLifetimeExpiry q t) s = .next s)) ∧
  -- While a queue pair is paced under rate control, the alpha timer takes the shifted part of alpha off it; a CNP in the same
  -- cycle wins over it, an unpaced one keeps alpha, and with RC_ENABLE 0 the pacing ends.
  (∀ (s : State) (q : Nat), q < 65536 → exec (.rateAlphaTimer q true) s = .next (cnpReceive s q) ∧ exec (.rateAlphaTimer q false) s = .next (if (qpOf s q).paced = false then s else if rcEnable s = false then rateOff s q else setQp s q { qpOf s q with alpha := (qpOf s q).alpha - (qpOf s q).alpha / 2 ^ rcShift s })) ∧
  -- The increase timer moves a paced queue pair's timer stage on, at most to 15, and raises its rate; a CNP in the same cycle
  -- wins over it, an unpaced one is left, and with RC_ENABLE 0 the pacing ends.
  (∀ (s : State) (q : Nat), q < 65536 → exec (.rateIncreaseTimer q true) s = .next (cnpReceive s q) ∧ exec (.rateIncreaseTimer q false) s = .next (if (qpOf s q).paced = false then s else if rcEnable s = false then rateOff s q else rateIncrease (setQp s q { qpOf s q with tStage := min 15 ((qpOf s q).tStage + 1) }) q)) ∧
  -- Outside RTS a queue pair sends nothing; in RTS without its context on chip it asks for the context, unless it has.
  (∀ (s : State) (q draw : Nat), q < 65536 → ((qpOf s q).state ≠ .rts → exec (.qpPacketSend q draw) s = .next s) ∧ ((qpOf s q).state = .rts → s.rdt.cache.contains q = false → exec (.qpPacketSend q draw) s = .next (if s.rdt.fetching.any (fun f => f.1 == q) then s else fetchCtx s q []))) ∧
  -- In RTS with its context on chip, a queue pair with a read response waiting sends that; else while it waits after an RNR
  -- NAK nothing; else the oldest packet to be sent again; else what is new.
  (∀ (s : State) (q draw : Nat), (q < 65536 ∧ (qpOf s q).state = .rts ∧ s.rdt.cache.contains q = true) → exec (.qpPacketSend q draw) s = .next (if (qpOf s q).respq ≠ [] then sendResponse (cacheUse s q) q else if (qpOf s q).rnrWait then cacheUse s q else if 0 < (qpOf s q).resend then sendAgain (cacheUse s q) q draw else sendNew (cacheUse s q) q draw)) ∧
  -- A packet sent again is the packet as it was, counted as resent, with one fewer to resend, when its class or its rate
  -- allows it.
  (∀ (s : State) (q draw : Nat) (p : Pkt), (qpOf s q).unacked[(qpOf s q).unacked.length - (qpOf s q).resend]? = some p → (p.cpl = true ∨ mayPace s q = true) → sendAgain s q draw = count (rcAdd (emitPacket (setQp s q { qpOf s q with resend := (qpOf s q).resend - 1, unacked := (qpOf s q).unacked.set ((qpOf s q).unacked.length - (qpOf s q).resend) { p with slot := (qpOf s q).dlog } }) q { p with slot := (qpOf s q).dlog } draw) 0x30118 0 1) 0x0202 (some q) (some (qpVss s q))) ∧
  -- A new message of one packet, with window and cells free and its class or its rate allowing it, goes out with the next PSN
  -- and leaves the queue.
  (∀ (s : State) (q draw : Nat) (m : Msg) (t : State), ((qpOf s q).sendq = [m] ∧ m.kind = .send ∧ m.len ≤ pmtuBytes (qpOf s q).pmtu ∧ m.sent = 0 ∧ (m.cpl = true ∨ mayPace s q = true)) → (qpOf s q).unacked.length < (qpOf s q).window → cellAlloc s (msgClass (qpOf s q) m) (cellsOf (frameLen s q m.len)) = some t → sendNew s q draw = emitPacket (setQp t q { qpOf s q with next := psnAdd (qpOf s q).next 1, unacked := (qpOf s q).unacked ++ [⟨(qpOf s q).next, 1, m.len, .send, m.va, m.cpl, m.ctx, m.fetch, true, true, m.at_, cellsOf (frameLen s q m.len), m.rkey, m.len, m.imm, (qpOf s q).dlog⟩], sendq := [] }) q ⟨(qpOf s q).next, 1, m.len, .send, m.va, m.cpl, m.ctx, m.fetch, true, true, m.at_, cellsOf (frameLen s q m.len), m.rkey, m.len, m.imm, (qpOf s q).dlog⟩ draw) ∧
  -- A write of RDT_DLOG_CFG with ENABLE for a stopped slot starts it with a cleared bitmap when DRAM has room, and otherwise
  -- sets its NOSPACE bit and writes an event.
  (∀ (s : State) (v : Word) (n : Nat) (u : State), (authMode s = true ∧ n = field (rwGet s 0x30200 0) 0 7 ∧ 1 ≤ n ∧ n ≤ 64) → ((dlogOf s n).enable = false ∧ bitAt v.toNat 0 = true ∧ bitAt v.toNat 2 = false) → u = setDlog s n { dlogOf s n with page2m := bitAt v.toNat 1 } → exec (.dlogEnable v) s = .next (if dlogUsed u + dlogBytes (dlogOf u n).pages ≤ 2 ^ 20 * par u 0x07 38 2 0 then setDlog u n { dlogOf u n with enable := true, nospace := false, bits := [] } else writeEvent (setDlog u n { dlogOf u n with nospace := true }) { num := 0x0204, inst := n, detail := [n] })) ∧
  -- A write without ENABLE stops a running slot and frees its bitmap, and leaves every other slot.
  (∀ (s : State) (v : Word) (n : Nat), (authMode s = true ∧ n = field (rwGet s 0x30200 0) 0 7 ∧ 1 ≤ n ∧ n ≤ 64) → ((dlogOf s n).enable = true ∧ bitAt v.toNat 0 = false ∧ bitAt v.toNat 2 = false) → exec (.dlogDisable v) s = .next (dlogStop (setDlog s n (dlogOf s n)) n)) ∧
  -- A write of QP_DLOG of a slot number up to 64 joins the selected queue pair to it, 0 leaves, and a larger number is
  -- ignored.
  (∀ (s : State) (v : Word), authMode s = true → exec (.qpDlogJoin v) s = .next (if field v.toNat 0 7 ≤ 64 then setQp s (field (rwGet s 0x30000 0) 0 16) { qpOf s (field (rwGet s 0x30000 0) 0 16) with dlog := field v.toNat 0 7 } else s)) ∧
  -- A read of RDT_DLOG_DATA_LO of a running slot answers the word's low half, holds its high half, and leaves in the word only
  -- what is logged in the same cycle.
  (∀ (s : State) (p : Path) (add n w : Nat), (s.glb.mode ≠ .held ∧ n = field (rwGet s 0x30200 0) 0 7 ∧ w = field (rwGet s 0x3021C 0) 0 26) → (1 ≤ n ∧ n ≤ 64 ∧ (dlogOf s n).enable = true ∧ 64 * w < (dlogOf s n).pages) → exec (.dlogHarvestRead p add) s = .next (emit (snapWords (setDlog s n { dlogOf s n with bits := tput (dlogOf s n).bits 0 w (add % 2 ^ 64) }) p 0x30218 (n + 128 * w) false [tget (dlogOf s n).bits 0 w / 2 ^ 32]) (.readData (word (tget (dlogOf s n).bits 0 w % 2 ^ 32))))) ∧
  -- A write in a mode that serves no register, or with no slot 1 to 64 selected, does nothing; on a running slot with ENABLE
  -- it only clears OVERFLOW where asked, and on a stopped one without ENABLE it only takes the page size and that.
  (∀ (s : State) (v : Word) (n : Nat), n = field (rwGet s 0x30200 0) 0 7 → (authMode s = false ∨ n = 0 ∨ 64 < n → exec (.dlogEnable v) s = .next s ∧ exec (.dlogDisable v) s = .next s) ∧ (authMode s = true → 1 ≤ n → n ≤ 64 → (dlogOf s n).enable = true → bitAt v.toNat 0 = true → exec (.dlogEnable v) s = .next (setDlog s n (if bitAt v.toNat 2 then { dlogOf s n with overflow := false } else dlogOf s n))) ∧ (authMode s = true → 1 ≤ n → n ≤ 64 → (dlogOf s n).enable = false → bitAt v.toNat 0 = false → bitAt v.toNat 2 = false → exec (.dlogDisable v) s = .next (setDlog s n { dlogOf s n with page2m := bitAt v.toNat 1 }))) ∧
  -- QP_DLOG is not written in a mode that serves no register; a harvest read is nothing in Held, reads 0 without a slot 1 to
  -- 64 or past its pages, and clears a stopped slot's word.
  (∀ (s : State) (v : Word) (p : Path) (add n w : Nat), (n = field (rwGet s 0x30200 0) 0 7 ∧ w = field (rwGet s 0x3021C 0) 0 26) → (authMode s = false → exec (.qpDlogJoin v) s = .next s) ∧ (s.glb.mode = .held → exec (.dlogHarvestRead p add) s = .next s) ∧ (s.glb.mode ≠ .held → n = 0 ∨ 64 < n ∨ (dlogOf s n).pages ≤ 64 * w → exec (.dlogHarvestRead p add) s = .next (emit (snapWords s p 0x30218 (n + 128 * w) false [0]) (.readData (word 0)))) ∧ (s.glb.mode ≠ .held → 1 ≤ n → n ≤ 64 → (dlogOf s n).enable = false → 64 * w < (dlogOf s n).pages → exec (.dlogHarvestRead p add) s = .next (emit (snapWords (setDlog s n { dlogOf s n with bits := tput (dlogOf s n).bits 0 w 0 }) p 0x30218 (n + 128 * w) false [tget (dlogOf s n).bits 0 w / 2 ^ 32]) (.readData (word (tget (dlogOf s n).bits 0 w % 2 ^ 32))))))

/-- An instar number held back by the spacing rule moves once its spacing has passed.
For each kind of object that has an instar number. Rests on parts of R38, R39, R41. -/
def Obligations.DeferredBumps : Prop :=
  -- One of the bumps an object owes follows once its spacing has passed: the number moves by one and one bump fewer is owed;
  -- before that, or with none owed, the number stays.
  (∀ (i : Instar) (now gap t : Nat), (0 < i.pending ∧ i.lastBump = some t) → lateBump i now gap = if t + gap ≤ now then { val := i.val + 1, lastBump := some now, pending := i.pending - 1, reported := false } else i) ∧
  -- Without a bump owed nothing of the number changes.
  (∀ (i : Instar) (now gap : Nat), i.pending = 0 → lateBump i now gap = i) ∧
  -- A queue pair's number follows after 256 ms, and its generation with it.
  (∀ (s : State) (n : Nat), exec (.instarBumpDeferred (.qp n)) s = .next (setQp s n { qpOf s n with instar := lateBump (qpOf s n).instar s.now (ticksMs 256), gens := if (lateBump (qpOf s n).instar s.now (ticksMs 256)).val = (qpOf s n).instar.val then (qpOf s n).gens else (qpOf s n).gens + 1 })) ∧
  -- A tenant queue's, a spoke's, a drive's, a virtual controller's, a subsystem's and a function's numbers follow after 1 ms.
  (∀ (s : State) (b : Nat), exec (.instarBumpDeferred (.tq b)) s = .next (setTq s b { tqOf s b with instar := lateBump (tqOf s b).instar s.now (ticksMs 1) }) ∧ exec (.instarBumpDeferred (.spoke b)) s = .next (setSpk s b { spkOf s b with instar := lateBump (spkOf s b).instar s.now (ticksMs 1) }) ∧ exec (.instarBumpDeferred (.drive b)) s = .next (setSpk s b { spkOf s b with drive := lateBump (spkOf s b).drive s.now (ticksMs 1) }) ∧ exec (.instarBumpDeferred (.vc b)) s = .next (setVcInstar s b (lateBump (vcInstar s b) s.now (ticksMs 1))) ∧ exec (.instarBumpDeferred (.vss b)) s = .next { s with cfe := { s.cfe with rt := tput s.cfe.rt {} b { tget s.cfe.rt {} b with instar := lateBump (tget s.cfe.rt {} b).instar s.now (ticksMs 1) } } } ∧ exec (.instarBumpDeferred (.fn b)) s = .next (setFn s b { fnOf s b with instar := lateBump (fnOf s b).instar s.now (ticksMs 1) })) ∧
  -- A peer window's number follows after 1 ms too, and the window is then updated with it.
  (∀ (s : State) (w : Nat), exec (.instarBumpDeferred (.window w)) s = .next (if (lateBump (winOf s w).instar s.now (ticksMs 1)).val = (winOf s w).instar.val then s else tabUpdate (setWin s w { winOf s w with instar := lateBump (winOf s w).instar s.now (ticksMs 1) }) (.win w)))

/-- Fabrics Connect, the DH-HMAC-CHAP messages and their timeout.
A Connect on a queue pair of a host that stands without an association; an authentication message of a tenant's association
on its admin queue. Rests on parts of R192, R194, R195. -/
def Obligations.FabricsAuthentication : Prop :=
  -- A Connect whose SUBNQN is no subsystem of this controller ends with Connect Invalid Parameters and the queue pair is torn
  -- down.
  (∀ (s : State) (q cid : Nat) (r : ConnectReq), (q < 65536 ∧ dataRuns s = true ∧ (qpOf s q).kind = 0 ∧ (qpOf s q).state = .rts ∧ (qpOf s q).assoc = none ∧ (qpOf s q).sub ≠ 32) → connectTarget s r.subnqn = none → exec (.fabricsConnect q cid r) s = .next (qpStop (connectReply s q cid 0 .connectInvalidParams ((65536 + 256) % 2 ^ 32)) q 9)) ∧
  -- A Connect to a virtual subsystem by a host it does not list ends with Connect Invalid Host.
  (∀ (s : State) (q cid v : Nat) (r : ConnectReq), (q < 65536 ∧ dataRuns s = true ∧ (qpOf s q).kind = 0 ∧ (qpOf s q).state = .rts ∧ (qpOf s q).assoc = none ∧ (qpOf s q).sub ≠ 32) → (connectTarget s r.subnqn = some (.tenant v) ∧ hostListed s v r.hostnqn = false) → exec (.fabricsConnect q cid r) s = .next (qpStop (connectReply s q cid 0 .connectInvalidHost (0 % 2 ^ 32)) q 9)) ∧
  -- A Connect to the admin queue with an admin queue's size and a Keep Alive timeout long enough, while associations are free,
  -- makes an association of that host with this queue pair and answers its controller ID.
  (∀ (s : State) (q cid v k : Nat) (r : ConnectReq) (x : VssRec), (q < 65536 ∧ dataRuns s = true ∧ (qpOf s q).kind = 0 ∧ (qpOf s q).state = .rts ∧ (qpOf s q).assoc = none ∧ (qpOf s q).sub ≠ 32) → (connectTarget s r.subnqn = some (.tenant v) ∧ hostListed s v r.hostnqn = true ∧ r.qid = 0 ∧ vssOf s v = some x) → (liveAssocs s < maxAssoc s ∧ tenantAssocs s v < x.maxAssoc ∧ freeCntlid s = some k ∧ r.sqsize = 31 ∧ katoMin s ≤ r.kato) → ∃ u, exec (.fabricsConnect q cid r) s = .next (connectReply (setAssoc { u with cfe := { u.cfe with nextId := 1 + k % 0xFFEF } } k (some { vss := v, host := r.hostnqn, qp := q, kato := r.kato, auth := bitAt x.flags 0, maxQd := maxQd u, maxIo := maxIoQueues u, icd := icdKib u })) q cid k .success (k + 65536 * bit (bitAt x.flags 0))) ∧ u = setQp s q { qpOf s q with recv := 31, srq := none, assoc := some k, dlog := if v = 0 then 0 else vssDlog s v }) ∧
  -- A Connect on a queue pair that is not a host's in RTR or RTS, or already has an association, does nothing; one of a queue
  -- pair that does not exist is a fault.
  (∀ (s : State) (q cid : Nat) (r : ConnectReq), (q < 65536 → (qpOf s q).kind ≠ 0 ∨ ((qpOf s q).state ≠ .rtr ∧ (qpOf s q).state ≠ .rts) ∨ (qpOf s q).assoc.isSome = true → exec (.fabricsConnect q cid r) s = .next s) ∧ (65536 ≤ q → exec (.fabricsConnect q cid r) s = .fault (.noSuchInstance "queue pair"))) ∧
  -- A Connect to an I/O queue of an association of that host and subsystem joins it; one that does not fit ends with Connect
  -- Invalid Parameters.
  (∀ (s : State) (q cid v : Nat) (r : ConnectReq), (q < 65536 ∧ dataRuns s = true ∧ (qpOf s q).kind = 0 ∧ (qpOf s q).state = .rts ∧ (qpOf s q).assoc = none ∧ (qpOf s q).sub ≠ 32) → (connectTarget s r.subnqn = some (.tenant v) ∧ hostListed s v r.hostnqn = true ∧ r.qid ≠ 0) → exec (.fabricsConnect q cid r) s = .next (connectIo s q cid r v)) ∧
  -- A negotiation that offers SHA-384 and a known DH group without a secure channel starts the exchange; without one of them
  -- the queue's exchange fails, and AUTH_FAILURE1 waits with the reason code.
  (∀ (s : State) (c : Cid) (a : Nat) (x : Assoc) (sha g3 g4 sec : Bool), (dataRuns s = true ∧ c.org = .assoc a ∧ a < 65536 ∧ assocOf s a = some x) → (x.mgmt = false ∧ x.disc = false ∧ chapOf x 0 = 0) → exec (.authenticationSend c 0 (.negotiate sha g3 g4 sec)) s = .next (match negotiateBad sha g3 g4 sec with | some b => reply (setChap (authFailed s x b.1) a 0 (16 + b.2)) c .success | none => reply (setChap s a 0 1) c .success)) ∧
  -- After the negotiation the controller answers its challenge, a fresh value each time.
  (∀ (s : State) (c : Cid) (a : Nat) (x : Assoc), (dataRuns s = true ∧ c.org = .assoc a ∧ a < 65536 ∧ assocOf s a = some x) → (x.mgmt = false ∧ x.disc = false ∧ chapOf x 0 = 1) → exec (.authenticationReceive c 0) s = .next (reply (setChap { s with freeCtr := s.freeCtr + 1 } a 0 5) c .success 0 [1, Config.freeValue s.freeCtr])) ∧
  -- A response that verifies is taken, and the success message then ends the requirement to authenticate on that queue; one
  -- that does not fails the exchange; a failure is answered with its reason code and the queue goes, and with nothing due the
  -- answer is empty.
  (∀ (s : State) (c : Cid) (a : Nat) (x : Assoc) (bi : Bool), (dataRuns s = true ∧ c.org = .assoc a ∧ a < 65536 ∧ assocOf s a = some x) → (x.mgmt = false ∧ x.disc = false) → (chapOf x 0 = 5 → exec (.authenticationSend c 0 (.reply true bi)) s = .next (reply (setChap s a 0 (if bi then 7 else 2)) c .success)) ∧ (chapOf x 0 = 5 → exec (.authenticationSend c 0 (.reply false bi)) s = .next (reply (setChap (authFailed s x 1) a 0 17) c .success)) ∧ (chapOf x 0 = 6 → exec (.authenticationSend c 0 .success2) s = .next (reply (authDone s a 0) c .success)) ∧ exec (.authenticationSend c 0 .failure2) s = .next (dropQueue (reply (authFailed s x 5) c .success) a 0) ∧ (chapOf x 0 = 2 → exec (.authenticationReceive c 0) s = .next (authDone (reply s c .success 0 [2]) a 0)) ∧ (chapOf x 0 = 7 → exec (.authenticationReceive c 0) s = .next (reply (setChap s a 0 6) c .success 0 [2])) ∧ (16 ≤ chapOf x 0 → exec (.authenticationReceive c 0) s = .next (dropQueue (reply s c .success 0 [3, chapOf x 0 - 16]) a 0)) ∧ (chapOf x 0 = 3 → exec (.authenticationReceive c 0) s = .next (reply s c .success 0 [0]))) ∧
  -- A message out of its order fails the exchange; without an association nothing happens, and while the transport's data does
  -- not run neither.
  (∀ (s : State) (c : Cid) (a qid : Nat) (x : Assoc) (m : AuthMsg), (c.org = .assoc a ∧ a < 65536) → (dataRuns s = true → assocOf s a = some x → x.mgmt = false → x.disc = false → chapOf x 0 = 3 → m ≠ .failure2 → exec (.authenticationSend c 0 m) s = .next (reply (setChap (authFailed s x 3) a 0 23) c .success)) ∧ (assocOf s a = none ∨ dataRuns s = false → exec (.authenticationSend c qid m) s = .next s ∧ exec (.authenticationReceive c qid) s = .next s)) ∧
  -- An authentication that its queue still owes when its time ends drops the queue, with the failure event unless it had
  -- failed already; without one nothing happens.
  (∀ (s : State) (a qid : Nat), (∀ x, assocOf s a = some x → exec (.authTimeout a qid) s = .next (if awaitsAuth x qid then dropQueue (if 16 ≤ chapOf x qid then s else authFailed s x 4) a qid else s)) ∧ (assocOf s a = none → exec (.authTimeout a qid) s = .next s)) ∧
  -- When an association's Keep Alive timer expires its event is written, the expiry is counted and the association is torn
  -- down; without the association nothing happens.
  (∀ (s : State) (a : Nat), (∀ x, a < 65536 → assocOf s a = some x → exec (.keepAliveExpiry a) s = .next (assocEnd (writeEvent (rcAdd s 0x61024 0 1) { num := 0x0502, vss := x.vss, detail := [x.vss, a] }) a)) ∧ (65536 ≤ a ∨ assocOf s a = none → exec (.keepAliveExpiry a) s = .next s))

/-- The admin commands of a tenant's host, each answered once to its own queue.
For a host's association that stands, has authenticated where it must, and has no command with the same identifier
outstanding. Rests on parts of R195, R196, R197, R198, R200, R214, R232. -/
def Obligations.HostAdminCommands : Prop :=
  -- Property Get of CC answers what stands in it; Property Set of CC stores it and makes the virtual controller ready by its
  -- EN bit.
  (∀ (s : State) (c : Cid) (a : Nat) (x : Assoc) (v : Nat), HostAdmin s c a x → bitAt x.cc 0 = false → exec (.propertyGet c 0x14) s = .next (reply (setAssoc s a (some { x with shst := shstNow s a x })) c .success x.cc) ∧ exec (.propertySet c 0x14 v) s = .next (reply (setAssoc s a (some { x with cc := v % 2 ^ 32, rdy := bitAt (v % 2 ^ 32) 0, shst := 0 })) c .success)) ∧
  -- A Property Set that clears EN resets the virtual controller and deletes its I/O queues.
  (∀ (s : State) (c : Cid) (a : Nat) (x : Assoc), HostAdmin s c a x → bitAt x.cc 0 = true → exec (.propertySet c 0x14 0) s = .next (reply (deleteIoQueues (vcReset (setAssoc s a (some { x with cc := 0, rdy := false, shst := 0 })) a) a) c .success)) ∧
  -- A Keep Alive completes and changes nothing else.
  (∀ (s : State) (c : Cid) (a : Nat) (x : Assoc), HostAdmin s c a x → exec (.keepAlive c) s = .next (reply s c .success)) ∧
  -- Identify Controller answers the controller's data, the active namespace list the attached namespaces above the one given,
  -- and a CNS that is not supported Invalid Field.
  (∀ (s : State) (c : Cid) (a : Nat) (x : Assoc) (n : Nat), HostAdmin s c a x → exec (.identify c 1 n) s = .next (reply s c .success 0 (identifyCtrl s a x)) ∧ exec (.identify c 2 n) s = .next (reply s c .success 0 (((attachedOf s x.vss).map fun y => y.2.nsid).filter fun k => decide (n < k))) ∧ exec (.identify c 4 n) s = .next (reply s c .invalidField)) ∧
  -- The ANA log page answers the change count and the groups, and with RAE clear unmasks the ANA notice; a log page that is
  -- not supported is Invalid Field.
  (∀ (s : State) (c : Cid) (a : Nat) (x : Assoc), HostAdmin s c a x → exec (.getLogPage c 0x0C false) s = .next (reply (setAssoc s a (some { x with masked := x.masked.filter (· != 0), notices := x.notices.filter (· != 0) })) c .success 0 (anaLog s x.vss)) ∧ exec (.getLogPage c 0x0C true) s = .next (reply s c .success 0 (anaLog s x.vss)) ∧ exec (.getLogPage c 0x70 true) s = .next (reply s c .invalidField)) ∧
  -- Feature 0x02 reads the idle level, 0x0B and 0x0F read what was set; setting 0x0B or 0x0F stores the value, and a feature
  -- that is not supported is refused.
  (∀ (s : State) (c : Cid) (a : Nat) (x : Assoc) (v : Nat), HostAdmin s c a x → exec (.getFeatures c 2) s = .next (reply s c .success s.cfe.idle) ∧ exec (.getFeatures c 0x0B) s = .next (reply s c .success x.aenCfg) ∧ exec (.getFeatures c 0x0F) s = .next (reply s c .success x.kato) ∧ exec (.getFeatures c 0x10) s = .next (reply s c .invalidField) ∧ exec (.setFeatures c 0x0B v) s = .next (reply (setAssoc s a (some { x with aenCfg := v % 2 ^ 32 })) c .success) ∧ exec (.setFeatures c 0x0F v) s = .next (reply (setAssoc s a (some { x with kato := v % 2 ^ 32 })) c .success) ∧ exec (.setFeatures c 2 v) s = .next (reply s c .featureNotChangeable)) ∧
  -- Number of Queues, set before any I/O queue stands, grants the smaller of what was asked and what may be given, once.
  (∀ (s : State) (c : Cid) (a : Nat) (x : Assoc) (v n : Nat), HostAdmin s c a x → (x.granted = none ∧ x.ioqs = [] ∧ n = min (min (field v 0 16) (field v 16 16) + 1) (queueCap x) ∧ n ≠ 0) → exec (.setFeatures c 7 v) s = .next (reply (setAssoc s a (some { x with granted := some n })) c .success ((n - 1) + 65536 * (n - 1)))) ∧
  -- With fewer than four requests outstanding and no notice waiting, an Asynchronous Event Request is held; with four it ends
  -- with the limit exceeded.
  (∀ (s : State) (c : Cid) (a : Nat) (x : Assoc), HostAdmin s c a x → x.notices = [] → exec (.asyncEventRequest c) s = .next (if 4 ≤ x.aers.length then reply s c .aerLimit else setAssoc s a (some { x with aers := x.aers ++ [c.cid] }))) ∧
  -- An Abort of an outstanding event request ends that request with Command Abort Requested and completes; an Abort of
  -- anything that is not held completes with 1 and changes nothing.
  (∀ (s : State) (c : Cid) (a k : Nat) (x : Assoc), HostAdmin s c a x → (abortsOut s x < 4 ∧ ctxFilter s (fun y => y.run == .held && (match y.cmd with | some h => h.c == ⟨.ioq a 0, k⟩ | none => false)) = []) → exec (.abort c 0 k) s = .next (if x.aers.contains k then abortReply (reply (setAssoc s a (some { x with aers := x.aers.filter (· != k) })) ⟨vcOrg a, k⟩ .abortRequested) c x 0 else abortReply s c x 1)) ∧
  -- While four Aborts of an association are outstanding a fifth ends with the limit exceeded; an Abort of a held command ends
  -- that command with Command Abort Requested and completes.
  (∀ (s : State) (c : Cid) (a qid k n : Nat) (x : Assoc) (y : Ctx), HostAdmin s c a x → (4 ≤ abortsOut s x → exec (.abort c qid k) s = .next (reply s c .abortLimit)) ∧ (abortsOut s x < 4 → (ctxFilter s (fun y => y.run == .held && (match y.cmd with | some h => h.c == ⟨.ioq a qid, k⟩ | none => false))).head? = some (n, y) → exec (.abort c qid k) s = .next (abortReply (endHold s n y .abortRequested) c x 0))) ∧
  -- The health, firmware and error logs and the namespace identification answer values that are open, each a fresh one;
  -- Identify of an attached namespace answers its size, format and group, of any other namespace Invalid Namespace.
  (∀ (s : State) (c : Cid) (a n k : Nat) (x : Assoc) (r : NsRec), HostAdmin s c a x → exec (.getLogPage c 2 true) s = .next (reply { s with freeCtr := s.freeCtr + 1 } c .success 0 [Config.freeValue s.freeCtr]) ∧ exec (.getLogPage c 3 true) s = .next (reply { s with freeCtr := s.freeCtr + 1 } c .success 0 [Config.freeValue s.freeCtr]) ∧ (nsByNsid s x.vss n = some (k, r) → r.attached = true → exec (.identify c 0 n) s = .next (reply s c .success 0 [r.nsze, r.lbaf, r.pi, r.group + 1]) ∧ exec (.identify c 3 n) s = .next (reply { s with freeCtr := s.freeCtr + 1 } c .success 0 [Config.freeValue s.freeCtr])) ∧ (nsByNsid s x.vss n = none → exec (.identify c 0 n) s = .next (reply s c .invalidNs) ∧ exec (.identify c 3 n) s = .next (reply s c .invalidNs))) ∧
  -- While no data runs and the command does not come over the management port it has no answer, nor from an association that
  -- stands no more; a command whose identifier is outstanding is a conflict.
  (∀ (s : State) (c : Cid) (a v w : Nat) (b : Bool) (i : Instr), (c.org = .assoc a ∧ a < 65536) → i ∈ [Instr.propertyGet c v, .propertySet c v w, .keepAlive c, .identify c v w, .getLogPage c v b, .getFeatures c v, .setFeatures c v w, .asyncEventRequest c, .abort c v w] → (dataRuns s = false ∧ viaMgmtPort s c = false → exec i s = .next s) ∧ (assocOf s a = none → exec i s = .next s) ∧ (dataRuns s = true → (∃ x, assocOf s a = some x) → cidBusy s c = true → exec i s = .next (reply s c .cidConflict)))

/-- Sanitize and Format NVM, from the command to the last erased chunk.
On a virtual subsystem and namespaces of the catalog. Rests on parts of R242, R243, R245. -/
def Obligations.SanitizeAndFormat : Prop :=
  -- A block or crypto erase puts the virtual subsystem into Sanitizing with its action, its command's word, the chunks still
  -- to do and every namespace's checkpoint at its start, as one catalog change.
  (∀ (s : State) (c : Cid) (a w : Nat) (x : Assoc) (r : VssRec), HostAdmin s c a x → (vssOf s x.vss = some r ∧ r.state ≠ .sanitizing ∧ bitAt w 9 = false ∧ (field w 0 3 = 2 ∨ field w 0 3 = 4)) → exec (.sanitize c w) s = .next (catCommand s c (.vss x.vss (some { r with state := .sanitizing, sanAct := field w 0 3, ause := bitAt w 3, sstat := 2, scdw10 := w % 2 ^ 32, sanDone := 0, sanTotal := if field w 0 3 = 4 then 1 else vssChunks s x.vss, sanKeys := false }) :: (nsOfVss s x.vss).map fun (y : Nat × NsRec) => .ns y.1 (some { y.2 with erased := 0 })) 0 0 x.vss)) ∧
  -- A reserved action is Invalid Field; a second sanitize while one runs is Sanitize In Progress.
  (∀ (s : State) (c : Cid) (a w : Nat) (x : Assoc) (r : VssRec), HostAdmin s c a x → (vssOf s x.vss = some r ∧ r.state = .sanitizing ∧ bitAt w 9 = false) → (field w 0 3 = 0 ∨ field w 0 3 = 3 → exec (.sanitize c w) s = .next (reply s c .invalidField)) ∧ (field w 0 3 = 2 → exec (.sanitize c w) s = .next (reply s c .sanitizeInProgress))) ∧
  -- Format NVM of an attached namespace, with a format the controller has and none running, marks the namespace as formatting,
  -- as one catalog change.
  (∀ (s : State) (c : Cid) (a n w k : Nat) (x : Assoc) (r : NsRec) (v : VssRec), HostAdmin s c a x → (n ≠ 0xFFFFFFFF ∧ nsByNsid s x.vss n = some (k, r) ∧ r.attached = true ∧ r.fmt = false ∧ vssOf s x.vss = some v ∧ v.state = .active) → (field w 0 4 = 0 ∧ field w 5 3 = 0 ∧ field w 9 3 ≤ 2) → exec (.formatNvm c n w) s = .next (catCommand s c [.ns k (some { r with fmt := true, ses := field w 9 3, fmtDone := 0, fmtKeys := false, fmtTo := 0 })] 0 1 n)) ∧
  -- Once no admitted command of a virtual subsystem under a block erase is left, its namespaces get fresh keys and it goes on
  -- erasing; while one is left, or once its keys are replaced, nothing happens.
  (∀ (s : State) (v : Nat) (r : VssRec), (vssOf s v = some r ∧ r.state = .sanitizing ∧ r.sanAct = 2) → (r.sanKeys = true ∨ slotsOf s v ≠ 0 → exec (.sanitizeQuiesced v) s = .next s) ∧ (r.sanKeys = false → slotsOf s v = 0 → 0 < r.sanTotal → exec (.sanitizeQuiesced v) s = .next (catOwn (rekeyEdits s ((nsOfVss s v).map Prod.fst)).2 ((rekeyEdits s ((nsOfVss s v).map Prod.fst)).1 ++ [.vss v (some { r with sanKeys := true, sanDone := 0 })]) 0 v))) ∧
  -- The erased chunk after a namespace's checkpoint moves the checkpoint and counts once; the last one ends it as completed
  -- with its event; a bay that fails ends it as failed.
  (∀ (s : State) (n k : Nat) (r : NsRec) (v : VssRec), (nsOf s n = some r ∧ (grpOf s r.group).owned = true ∧ k < r.chunks ∧ r.fmt = false ∧ k = r.erased) → (vssOf s r.vss = some v ∧ v.state = .sanitizing ∧ v.sanKeys = true ∧ v.sanAct = 2) → (v.sanDone + 1 < v.sanTotal → exec (.sanitizeChunkErased n k none) s = .next (catOwn s [.ns n (some { r with erased := r.erased + 1 }), .vss r.vss (some { v with sanDone := v.sanDone + 1 })] 0 r.vss)) ∧ (v.sanTotal ≤ v.sanDone + 1 → exec (.sanitizeChunkErased n k none) s = .next (writeEvent (catOwn s [.ns n (some { r with erased := r.erased + 1 }), .vss r.vss (some (sanitizeEnd { v with sanDone := v.sanDone + 1 }))] 0 r.vss) { num := 0x0516, vss := r.vss, detail := [r.vss] })) ∧ (∀ b, exec (.sanitizeChunkErased n k (some b)) s = .next (writeEvent (catOwn s [.vss r.vss (some { sanState v .sanFailed with sstat := 3 })] 0 r.vss) { num := 0x0517, inst := b, vss := r.vss, detail := [b, r.first + r.erased] }))) ∧
  -- Once no command of a formatting namespace is left, its key is replaced and its format changes; with no erase asked the
  -- format ends.
  (∀ (s : State) (n : Nat) (r : NsRec), (nsOf s n = some r ∧ r.fmt = true ∧ r.fmtKeys = false ∧ nsInflight s n = 0 ∧ r.ses ≠ 1) → exec (.formatNvmQuiesced n) s = .next (formatEnd (rekeyEdits s [n]).2 n { r with fmtKeys := true, lbaf := r.fmtTo % 2, pi := r.fmtTo / 2, blank := (tget (rekeyEdits s [n]).2.cat.keys {} n).epoch + 1 } (rekeyEdits s [n]).1)) ∧
  -- An exit of a failed sanitize with AUSE makes the subsystem Active as one catalog change; without AUSE, or in another
  -- state, it is Invalid Field; NDAS is refused; a command of a subsystem that is gone has no answer.
  (∀ (s : State) (c : Cid) (a w : Nat) (x : Assoc), HostAdmin s c a x → (∀ r, vssOf s x.vss = some r → bitAt w 9 = false → field w 0 3 = 1 → exec (.sanitize c w) s = .next (if r.state = .sanFailed ∧ r.ause = true then catCommand s c [.vss x.vss (some { r with state := .active })] 0 0 x.vss else reply s c .invalidField)) ∧ (∀ r, vssOf s x.vss = some r → bitAt w 9 = true → exec (.sanitize c w) s = .next (reply s c .invalidField)) ∧ (vssOf s x.vss = none → exec (.sanitize c w) s = .next s)) ∧
  -- A format that the controller does not have is Invalid Field; of a namespace that is not attached Invalid Namespace; while
  -- a sanitize or a format runs In Progress.
  (∀ (s : State) (c : Cid) (a n w k : Nat) (x : Assoc) (r : NsRec), HostAdmin s c a x → (1 < field w 0 4 ∨ 2 < field w 9 3 → exec (.formatNvm c n w) s = .next (reply s c .invalidField)) ∧ (field w 0 4 = 0 → field w 5 3 = 0 → field w 9 3 ≤ 2 → n ≠ 0xFFFFFFFF → (nsByNsid s x.vss n = none → exec (.formatNvm c n w) s = .next (reply s c .invalidNs)) ∧ (nsByNsid s x.vss n = some (k, r) → r.attached = true → (∀ v, vssOf s x.vss = some v → v.state = .sanitizing → exec (.formatNvm c n w) s = .next (reply s c .sanitizeInProgress)) ∧ (∀ v, vssOf s x.vss = some v → v.state ≠ .sanitizing → r.fmt = true → exec (.formatNvm c n w) s = .next (reply s c .formatInProgress))))) ∧
  -- A crypto erase, and a block erase without chunks, end once no admitted command is left: fresh keys, the end of the
  -- sanitize in the same catalog change, and its event.
  (∀ (s : State) (v : Nat) (r : VssRec), (vssOf s v = some r ∧ r.state = .sanitizing ∧ r.sanKeys = false ∧ slotsOf s v = 0 ∧ (r.sanAct = 4 ∧ r.sanTotal ≤ 1 ∨ r.sanTotal = 0)) → exec (.sanitizeQuiesced v) s = .next (writeEvent (catOwn (rekeyEdits s ((nsOfVss s v).map Prod.fst)).2 ((rekeyEdits s ((nsOfVss s v).map Prod.fst)).1 ++ [.vss v (some (sanitizeEnd { r with sanKeys := true, sanDone := if r.sanAct = 4 then 1 else 0 }))]) 0 v) { num := 0x0516, vss := v, detail := [v] })) ∧
  -- With an erase asked and chunks to erase the format goes on; while a command of the namespace is left, or without a format
  -- to start, nothing happens.
  (∀ (s : State) (n : Nat), (∀ r, nsOf s n = some r → r.fmt = true → r.fmtKeys = false → nsInflight s n = 0 → r.ses = 1 → r.chunks ≠ 0 → exec (.formatNvmQuiesced n) s = .next (catOwn (rekeyEdits s [n]).2 ((rekeyEdits s [n]).1 ++ [.ns n (some { r with fmtKeys := true, lbaf := r.fmtTo % 2, pi := r.fmtTo / 2, blank := (tget (rekeyEdits s [n]).2.cat.keys {} n).epoch + 1 })]) 1 n)) ∧ (∀ r, nsOf s n = some r → r.fmt = false ∨ r.fmtKeys = true ∨ nsInflight s n ≠ 0 → exec (.formatNvmQuiesced n) s = .next s) ∧ (nsOf s n = none → exec (.formatNvmQuiesced n) s = .next s)) ∧
  -- The next chunk of a format with an erase moves its checkpoint, and the last one ends the format; a chunk that fails, or
  -- that is not the next one, is not checkpointed.
  (∀ (s : State) (n k : Nat) (r : NsRec), (nsOf s n = some r ∧ (grpOf s r.group).owned = true ∧ k < r.chunks ∧ r.fmt = true ∧ r.fmtKeys = true ∧ r.ses = 1) → (k = r.fmtDone → r.chunks ≤ r.fmtDone + 1 → exec (.sanitizeChunkErased n k none) s = .next (formatEnd s n { r with fmtDone := r.fmtDone + 1 } [])) ∧ (k = r.fmtDone → r.fmtDone + 1 < r.chunks → exec (.sanitizeChunkErased n k none) s = .next (catOwn s [.ns n (some { r with fmtDone := r.fmtDone + 1 })] 1 n)) ∧ (k ≠ r.fmtDone → ∀ b, exec (.sanitizeChunkErased n k b) s = .next s) ∧ (∀ b, exec (.sanitizeChunkErased n k (some b)) s = .next s))

/-- The six I/O commands of a host: refused with a status, held back, or admitted into a command context.
Read, Write, Flush, Write Zeroes, Dataset Management and Compare (classes 0 to 5) on an I/O queue of an association or of a
function, no injector holding them. Rests on parts of R169, R170, R193, R194, R211, R212, R214, R259, R261. -/
def Obligations.NvmCommands : Prop :=
  -- A command that a check refuses is taken and ends with that check's status.
  (∀ (s : State) (cls a qid : Nat) (h : HostCmd) (x : Assoc) (i : IoQ) (st : Status), (cls < 6 ∧ HostIo s h a qid x i) → admitCheck s x.vss cls (1024 * i.icd) h false = .bad st → exec (nvmRow cls h) s = .next (reply (takeMsg s i.qp none) h.c st)) ∧
  -- A command that passes is admitted: it takes a command context with its list, its registers and its admission number, and
  -- its message is taken for that context where its payload is in the capsule.
  (∀ (s : State) (cls a qid : Nat) (h : HostCmd) (x : Assoc) (i : IoQ), (cls < 6 ∧ HostIo s h a qid x i) → admitCheck s x.vss cls (1024 * i.icd) h false = .accept → exec (nvmRow cls h) s = .next (takeMsg (admitCmd s x.vss a cls h i.qp 0 none) i.qp (if h.inl then freeCtx s else none))) ∧
  -- A command that finds its tenant stopped or without room stops the tenant, counts the refusal and goes back as receiver not
  -- ready.
  (∀ (s : State) (cls a qid : Nat) (h : HostCmd) (x : Assoc) (i : IoQ), (cls < 6 ∧ HostIo s h a qid x i) → admitCheck s x.vss cls (1024 * i.icd) h false = .refuse → exec (nvmRow cls h) s = .next (refuseMsg (countRefusal (stopTenant s x.vss (needBytes cls h)) x.vss) i.qp)) ∧
  -- While the front end does not run, from an association, queue or function that does not stand, or before its first packet
  -- has come, a command does nothing; on a queue that awaits authentication, or with its identifier outstanding, it is taken
  -- and ends with that status.
  (∀ (s : State) (cls a qid : Nat) (h : HostCmd), (cls < 6 ∧ s.ptb.available = false ∧ h.c.org = .ioq a qid) → (frontRuns s = false ∨ assocOf s a = none → exec (nvmRow cls h) s = .next s) ∧ (∀ x, frontRuns s = true → assocOf s a = some x → (x.ioqs.find? fun i => i.qid == qid) = none → exec (nvmRow cls h) s = .next s) ∧ (∀ x i, frontRuns s = true → assocOf s a = some x → (x.ioqs.find? fun i => i.qid == qid) = some i → exec (nvmRow cls h) s = .next (if (headMsg (qpOf s i.qp)).isNone = true then s else if i.auth = true then reply (takeMsg s i.qp none) h.c .authRequired else if cidBusy s h.c = true then reply (takeMsg s i.qp none) h.c .cidConflict else match admitCheck s x.vss cls (1024 * i.icd) h false with | .bad st => reply (takeMsg s i.qp none) h.c st | .refuse => refuseMsg (countRefusal (stopTenant s x.vss (needBytes cls h)) x.vss) i.qp | .accept => takeMsg (admitCmd s x.vss a cls h i.qp 0 none) i.qp (if h.inl then freeCtx s else none)))) ∧
  -- A command of a function goes through its own checks when the function's DMA is on: a conflict or a refused check answers,
  -- without room it stays with the host, else it is admitted with a fresh free value for its queue number.
  (∀ (s : State) (cls n : Nat) (h : HostCmd) (x : Assoc), (cls < 6 ∧ s.ptb.available = false ∧ h.c.org = .fn n ∧ frontRuns s = true ∧ assocOf s (65536 + n) = some x) → exec (nvmRow cls h) s = .next (if fnDmaOn s n = false then s else if cidBusy s h.c = true then reply s h.c .cidConflict else match admitCheck s x.vss cls 0 h false with | .bad st => reply s h.c st | .refuse => countRefusal (stopTenant s x.vss (needBytes cls h)) x.vss | .accept => admitCmd { s with freeCtr := s.freeCtr + 1 } x.vss (65536 + n) cls h (Config.freeValue s.freeCtr) 0 none)) ∧
  -- For a tenant that is not stopped there is nothing to reopen; a stopped one with room and no waiting entries is reopened
  -- and its paused queues that are not frozen are active again.
  (∀ (s : State) (v : Nat), frontRuns s = true → ((rtOf s v).stopped = false → exec (.admissionReopen v) s = .next s) ∧ ((rtOf s v).stopped = true → mayReopen (retryWaits s v) v = true → (tqKeys (retryWaits s v) fun t => t.vss == v && !t.wait.isEmpty && t.state == .paused) = [] → exec (.admissionReopen v) s = .next (joinFetch { setRt (retryWaits s v) v { rtOf (retryWaits s v) v with stopped := false, pending := 0 } with cfe := { (setRt (retryWaits s v) v { rtOf (retryWaits s v) v with stopped := false, pending := 0 }).cfe with tqs := (setRt (retryWaits s v) v { rtOf (retryWaits s v) v with stopped := false, pending := 0 }).cfe.tqs.map fun x => if x.2.vss = v && x.2.state = .paused && !x.2.frozen then (x.1, { x.2 with state := .active }) else x } } v))) ∧
  -- While the front end does not run a tenant is not reopened; a stopped one without room, or with entries that still wait,
  -- stays stopped after they were tried; and an idle front end whose data does not run stays at level 0.
  (∀ (s : State) (v : Nat), (frontRuns s = false → exec (.admissionReopen v) s = .next s) ∧ (frontRuns s = true → (rtOf s v).stopped = true → mayReopen (retryWaits s v) v = false ∨ (tqKeys (retryWaits s v) fun t => t.vss == v && !t.wait.isEmpty && t.state == .paused) ≠ [] → exec (.admissionReopen v) s = .next (retryWaits s v)) ∧ (dataRuns s = false → exec .idleLevel1Entry s = .next s)) ∧
  -- An idle front end goes to level 1 after its time, and from level 1 to level 2; with a command in hand, or its time at 0,
  -- it stays.
  (∀ (s : State), dataRuns s = true → exec .idleLevel1Entry s = .next (if idle1Us s ≠ 0 ∧ s.cfe.idle = 0 ∧ frontIdle s = true then { s with cfe := { s.cfe with idle := 1 } } else s) ∧ exec .idleLevel2Entry s = .next (if idle1Us s ≠ 0 ∧ idle2Ms s ≠ 0 ∧ s.cfe.idle = 1 ∧ frontIdle s = true then { s with cfe := { s.cfe with idle := 2 } } else s))

/-- The tenant queues: creation, doorbells, fetch, notification and end.
On a queue pair 0 to 65,535 and a queue index 0 to 15. Rests on parts of R202, R207, R208, R209, R210. -/
def Obligations.VirtualDeviceQueues : Prop :=
  -- VDQ Create of a well-formed descriptor for a free queue of a VDQ queue pair of the same association, with quota left,
  -- binds it and answers its push key.
  (∀ (s : State) (c : Cid) (d : List Byte) (a n : Nat) (x : Assoc), HostAdmin s c a x → (vdqDescBad d = false ∧ vdqQp s (leAt d 32 4) = some n ∧ (qpOf s n).assoc = some a) → (tqOf s (16 * n + leAt d 35 1)).state = .free → (tqCount s (fun _ => true) < tqMax s ∧ tqCount s (fun t => t.vss == x.vss) < tqQuota s x.vss) → exec (.vdqCreate c d) s = .next (reply (vdqBind s (16 * n + leAt d 35 1) x.vss a d).2 c .success (vdqBind s (16 * n + leAt d 35 1) x.vss a d).1)) ∧
  -- A descriptor with a value out of range is Invalid Field, and one whose number is no VDQ queue pair's ends with 0xD2;
  -- nothing is bound.
  (∀ (s : State) (c : Cid) (d : List Byte) (a : Nat) (x : Assoc), HostAdmin s c a x → (vdqDescBad d = true → exec (.vdqCreate c d) s = .next (reply s c .invalidField)) ∧ (vdqDescBad d = false → vdqQp s (leAt d 32 4) = none → exec (.vdqCreate c d) s = .next (reply s c (.vendor 0xD2)))) ∧
  -- VDQ Delete of a queue of the same association moves it to Deleting and completes; of any other it ends with 0xD2.
  (∀ (s : State) (c : Cid) (w a k : Nat) (x : Assoc), HostAdmin s c a x → vdqNamed s w = some k → exec (.vdqDelete c w) s = .next (if (tqOf s k).assoc = a then reply (tqDelete s k) c .success else reply s c (.vendor 0xD2))) ∧
  -- A descriptor whose queue pair is another association's, or whose queue is not free, or without quota left binds nothing; a
  -- delete of a number that names no queue ends with 0xD2.
  (∀ (s : State) (c : Cid) (d : List Byte) (a n w : Nat) (x : Assoc), HostAdmin s c a x → (vdqDescBad d = false ∧ vdqQp s (leAt d 32 4) = some n) → ((qpOf s n).assoc ≠ some a → exec (.vdqCreate c d) s = .next (reply s c (.vendor 0xD2))) ∧ ((qpOf s n).assoc = some a → (tqOf s (16 * n + leAt d 35 1)).state ≠ .free → exec (.vdqCreate c d) s = .next (reply s c (.vendor 0xD1))) ∧ ((qpOf s n).assoc = some a → (tqOf s (16 * n + leAt d 35 1)).state = .free → tqMax s ≤ tqCount s (fun _ => true) ∨ tqQuota s x.vss ≤ tqCount s (fun t => t.vss == x.vss) → exec (.vdqCreate c d) s = .next (reply s c (.vendor 0xD0))) ∧ (vdqNamed s w = none → exec (.vdqDelete c w) s = .next (reply s c (.vendor 0xD2)))) ∧
  -- A doorbell that has been delivered, with an index inside the queue, moves the submission tail, or the completion head and
  -- then writes the completions that were held; an index outside puts the queue into Error with cause 2.
  (∀ (s t : State) (q imm k : Nat), (q < 65536 ∧ frontRuns s = true ∧ delivered s q (· == imm) = true) → (t = takeMsg s q none ∧ bellQueue t q imm = some k) → exec (.sqTailDoorbell q imm) s = .next (if sqSize (tqOf t k).desc ≤ imm % 65536 then tqError t k 2 else joinFetch (setTq t k { tqOf t k with tail := imm % 65536 }) (tqOf t k).vss) ∧ exec (.cqHeadDoorbell q imm) s = .next (if cqSize (tqOf t k).desc ≤ imm % 65536 then tqError t k 2 else cqDrain (setTq t k { tqOf t k with cqHead := imm % 65536 }) k (tqOf t k).held)) ∧
  -- A doorbell of a queue that is neither active nor paused is taken, and counted as stale where the queue is in Error or
  -- Deleting; one that has not been delivered, or while the front end does not run, does nothing.
  (∀ (s t : State) (q imm : Nat) (e : List Byte) (bs : List Blk) (rs : List DsmRange), (q < 65536 ∧ t = takeMsg s q none) → (frontRuns s = true → delivered s q (· == imm) = true → bellQueue t q imm = none → exec (.sqTailDoorbell q imm) s = .next (staleBell t q imm) ∧ exec (.cqHeadDoorbell q imm) s = .next (staleBell t q imm)) ∧ (frontRuns s = true → delivered s q (· == imm) = true → bellQueue s q imm = none → exec (.pushDoorbell q imm e bs rs) s = .next (staleBell t q imm)) ∧ (frontRuns s = false ∨ delivered s q (· == imm) = false → exec (.sqTailDoorbell q imm) s = .next s ∧ exec (.cqHeadDoorbell q imm) s = .next s ∧ exec (.pushDoorbell q imm e bs rs) s = .next s)) ∧
  -- A delivered push into a slot in use puts the queue into Error with cause 3; a push of a whole slot with a known opcode
  -- that passes is admitted with its slot marked busy, and its message is taken for its context.
  (∀ (s : State) (q imm k cls : Nat) (m : InMsg) (e : List Byte) (bs : List Blk) (rs : List DsmRange) (g : HostCmd), (q < 65536 ∧ frontRuns s = true ∧ delivered s q (· == imm) = true ∧ headMsg (qpOf s q) = some m ∧ bellQueue s q imm = some k) → (vssStopped s (tqOf s k).vss = false ∧ (tqOf s k).frozen = false) → g = { (sqEntry k e).2 with inl := true, push := some (field imm 16 6), payload := bs, ranges := rs } → ((tqOf s k).busy.contains (field imm 16 6) = true → exec (.pushDoorbell q imm e bs rs) s = .next (tqError (takeMsg s q none) k 3)) ∧ ((tqOf s k).busy.contains (field imm 16 6) = false → m.va = pushSlotBytes * field imm 16 6 → m.len = 64 + g.len → nvmClass (sqEntry k e).1 = some cls → admitCheck s (tqOf s k).vss cls 16384 g false = .accept → exec (.pushDoorbell q imm e bs rs) s = .next (takeMsg (admitCmd (setTq s k { tqOf s k with busy := (tqOf s k).busy ++ [field imm 16 6] }) (tqOf s k).vss (tqOf s k).assoc cls g q (k % 16) (some k)) q (freeCtx (setTq s k { tqOf s k with busy := (tqOf s k).busy ++ [field imm 16 6] }))))) ∧
  -- A push to a stopped tenant or a frozen queue is refused as receiver not ready and counted; of another shape it ends with
  -- Invalid Field, of an unknown opcode with Invalid Opcode, and with a check's status or without room as that check says, its
  -- slot marked busy.
  (∀ (s : State) (q imm k : Nat) (m : InMsg) (e : List Byte) (bs : List Blk) (rs : List DsmRange) (g : HostCmd) (b : State), (q < 65536 ∧ frontRuns s = true ∧ delivered s q (· == imm) = true ∧ headMsg (qpOf s q) = some m ∧ bellQueue s q imm = some k) → g = { (sqEntry k e).2 with inl := true, push := some (field imm 16 6), payload := bs, ranges := rs } → b = setTq s k { tqOf s k with busy := (tqOf s k).busy ++ [field imm 16 6] } → (vssStopped s (tqOf s k).vss = true ∨ (tqOf s k).frozen = true → exec (.pushDoorbell q imm e bs rs) s = .next (refuseMsg (countRefusal (notePending s (tqOf s k).vss ((nvmClass (sqEntry k e).1).elim 0 fun cls => needBytes cls g)) (tqOf s k).vss) q)) ∧ (vssStopped s (tqOf s k).vss = false → (tqOf s k).frozen = false → (tqOf s k).busy.contains (field imm 16 6) = false → (m.va ≠ pushSlotBytes * field imm 16 6 ∨ m.len ≠ 64 + g.len → exec (.pushDoorbell q imm e bs rs) s = .next (replyD (takeMsg b q none) g.c (some (field imm 16 6)) .invalidField (statusDnr .invalidField) 0 [])) ∧ (m.va = pushSlotBytes * field imm 16 6 → m.len = 64 + g.len → (nvmClass (sqEntry k e).1 = none → exec (.pushDoorbell q imm e bs rs) s = .next (replyD (takeMsg b q none) g.c (some (field imm 16 6)) .invalidOpcode (statusDnr .invalidOpcode) 0 [])) ∧ (∀ cls st, nvmClass (sqEntry k e).1 = some cls → admitCheck s (tqOf s k).vss cls 16384 g false = .bad st → exec (.pushDoorbell q imm e bs rs) s = .next (replyD (takeMsg b q none) g.c (some (field imm 16 6)) st (statusDnr st) 0 [])) ∧ (∀ cls, nvmClass (sqEntry k e).1 = some cls → admitCheck s (tqOf s k).vss cls 16384 g false = .refuse → exec (.pushDoorbell q imm e bs rs) s = .next (refuseMsg (countRefusal (stopTenant s (tqOf s k).vss (needBytes cls g)) (tqOf s k).vss) q))))) ∧
  -- When the round-robin picks a tenant with a queue ready, that queue fetches as many entries as may be fetched with one read
  -- of its ring and as many fewer are left in its turn; when none may be, the refusal is counted and the tenant stops; without
  -- a pick nothing is fetched.
  (∀ (s t u : State) (v k n : Nat), frontRuns s = true → drrPick s 0 (fun v => if (readyTqs s v).isEmpty then none else some 1) (drrFuel s 0) = (t, some v) → (nextTq t v = some k ∧ u = { t with cfe := { t.cfe with rr := tput t.cfe.rr 0 v (k + 1) } } ∧ n = fetchCount u (tqOf t k)) → exec .vdqFetch s = .next (if n = 0 then countRefusal (stopTenant u v 0) v else sendMsg (setTq u k { tqOf t k with fetch := n, turn := turnLeft u (tqOf t k) - n }) (tqQp k) { kind := .read, len := 64 * n, va := leAt (tqOf t k).desc 0 8 + 64 * (tqOf t k).head, rkey := leAt (tqOf t k).desc 16 4, fetch := some k })) ∧
  -- While the front end does not run, or no tenant has a queue ready, nothing is fetched.
  (∀ (s t : State), (frontRuns s = false → exec .vdqFetch s = .next s) ∧ (frontRuns s = true → drrPick s 0 (fun v => if (readyTqs s v).isEmpty then none else some 1) (drrFuel s 0) = (t, none) → exec .vdqFetch s = .next t)) ∧
  -- A response to a fetch that is wanted advances the head past its entries, ends the fetch and admits them; one that is no
  -- longer wanted is counted and discarded; while the front end does not run nothing happens.
  (∀ (s : State) (q i tag : Nat) (es : List (List Byte)) (l : List (Nat × HostCmd)) (hd : Nat), (q < 65536 ∧ i < 16) → (l = (es.take (tqOf s (16 * q + i)).fetch).map (sqEntry (16 * q + i)) ∧ hd = ((tqOf s (16 * q + i)).head + l.length) % sqSize (tqOf s (16 * q + i)).desc) → (frontRuns s = true → stale (tqOf s (16 * q + i)).instar tag = false → (tqOf s (16 * q + i)).fetch ≠ 0 → exec (.vdqFetchResponse q i tag es) s = .next (joinFetch (admitEntries (setTq s (16 * q + i) { tqOf s (16 * q + i) with head := hd, fetch := 0, wait := l, turn := if hd = (tqOf s (16 * q + i)).tail then 0 else (tqOf s (16 * q + i)).turn }) (16 * q + i) l) (tqOf s (16 * q + i)).vss)) ∧ (frontRuns s = true → stale (tqOf s (16 * q + i)).instar tag = true ∨ (tqOf s (16 * q + i)).fetch = 0 → exec (.vdqFetchResponse q i tag es) s = .next (tqStale (rcAdd s 0x6102C 0 1) (16 * q + i))) ∧ (frontRuns s = false → exec (.vdqFetchResponse q i tag es) s = .next s)) ∧
  -- Completions held for the stall time put the queue into Error with cause 1; with none held nothing happens.
  (∀ (s : State) (q i : Nat), (q < 65536 ∧ i < 16) → exec (.cqStallExpiry q i) s = .next (if (tqOf s (16 * q + i)).held.isEmpty then s else tqError s (16 * q + i) 1)) ∧
  -- With completions not yet notified, the timer of a queue in service clears their count and sends the newest completion
  -- entry that still waits as the notification with the completion tail, or else a notification alone; with none, or out of
  -- service, nothing happens.
  (∀ (s : State) (q i : Nat) (l : List Msg), (q < 65536 ∧ i < 16) → l = (qpOf (setTq s (16 * q + i) { tqOf s (16 * q + i) with since := 0 }) (tqQp (16 * q + i))).sendq → ((tqOf s (16 * q + i)).since ≠ 0 → (tqOf s (16 * q + i)).state = .active ∨ (tqOf s (16 * q + i)).state = .paused → exec (.notifyTimerExpiry q i) s = .next (match l.reverse.findIdx? (cqWaits (tqOf s (16 * q + i))) with | some j => setQp (setTq s (16 * q + i) { tqOf s (16 * q + i) with since := 0 }) (tqQp (16 * q + i)) { qpOf (setTq s (16 * q + i) { tqOf s (16 * q + i) with since := 0 }) (tqQp (16 * q + i)) with sendq := (l.reverse.modify j fun m => { m with kind := .writeImm, imm := 0xC0000000 + 2 ^ 26 * ((16 * q + i) % 16) + (tqOf s (16 * q + i)).cqTail }).reverse } | none => sendMsg (setTq s (16 * q + i) { tqOf s (16 * q + i) with since := 0 }) (tqQp (16 * q + i)) { kind := .writeImm, len := 0, imm := 0xC0000000 + 2 ^ 26 * ((16 * q + i) % 16) + (tqOf s (16 * q + i)).cqTail, cpl := true })) ∧ ((tqOf s (16 * q + i)).since = 0 ∨ ((tqOf s (16 * q + i)).state ≠ .active ∧ (tqOf s (16 * q + i)).state ≠ .paused) → exec (.notifyTimerExpiry q i) s = .next s)) ∧
  -- A deleting queue without a command in flight is free, keeping only its instar number; otherwise nothing happens.
  (∀ (s : State) (q i : Nat), (q < 65536 ∧ i < 16) → exec (.tenantQueueFree q i) s = .next (if (tqOf s (16 * q + i)).state = .deleting ∧ tqInflight s (16 * q + i) = 0 then setTq s (16 * q + i) { instar := (tqOf s (16 * q + i)).instar } else s)) ∧
  -- A queue pair that does not exist is a fault, and a queue index that does not exist is nothing.
  (∀ (s : State) (q imm i tag : Nat) (e : List Byte) (bs : List Blk) (rs : List DsmRange) (es : List (List Byte)), (65536 ≤ q → exec (.sqTailDoorbell q imm) s = .fault (.noSuchInstance "queue pair") ∧ exec (.cqHeadDoorbell q imm) s = .fault (.noSuchInstance "queue pair") ∧ exec (.pushDoorbell q imm e bs rs) s = .fault (.noSuchInstance "queue pair") ∧ exec (.vdqFetchResponse q i tag es) s = .fault (.noSuchInstance "queue pair") ∧ exec (.cqStallExpiry q i) s = .fault (.noSuchInstance "queue pair") ∧ exec (.notifyTimerExpiry q i) s = .fault (.noSuchInstance "queue pair") ∧ exec (.tenantQueueFree q i) s = .fault (.noSuchInstance "queue pair")) ∧ (q < 65536 → 16 ≤ i → exec (.vdqFetchResponse q i tag es) s = .next s ∧ exec (.cqStallExpiry q i) s = .next s ∧ exec (.notifyTimerExpiry q i) s = .next s ∧ exec (.tenantQueueFree q i) s = .next s))

/-- How a management association proves an anchor and so gets its roles.
For a fabric association of the management subsystem with no command of the same identifier outstanding. Rests on parts of
R223, R224. -/
def Obligations.ManagementProof : Prop :=
  -- Management Challenge takes a fresh nonce, keeps it for the association and answers its 32 bytes.
  (∀ (s : State) (c : Cid) (a : Nat) (x : Assoc), (dataRuns s = true ∧ c.org = .assoc a ∧ a < 65536 ∧ assocOf s a = some x ∧ cidBusy s c = false ∧ x.auth = false ∧ x.mgmt = true ∧ capBad x c.cid = none) → exec (.managementChallenge c) s = .next (reply (setAssoc { s with freeCtr := s.freeCtr + 1 } a (some { x with nonce := some (Config.freeValue s.freeCtr % 2 ^ 256) })) c .success 0 (leBytes 32 (Config.freeValue s.freeCtr % 2 ^ 256)))) ∧
  -- A proof of 3,376 bytes of an anchor of section 0x12 with both signatures good, after a challenge, is checked under that
  -- anchor's keys, grants that anchor's roles and uses the nonce up.
  (∀ (s : State) (c : Cid) (a n k : Nat) (x : Assoc) (e d : List Byte), (dataRuns s = true ∧ c.org = .assoc a ∧ a < 65536 ∧ assocOf s a = some x ∧ cidBusy s c = false ∧ x.auth = false ∧ x.mgmt = true ∧ capBad x c.cid = none) → (x.nonce = some n ∧ anchorEntry s k = some e ∧ d.length = 3376) → exec (.managementProve c k d ⟨true, true⟩) s = .next (reply (setAssoc (checkProof s e (manageMessage n a x.host) d) a (some { x with nonce := none, roles := some (field (leAt e 1 1) 0 3) })) c .success)) ∧
  -- A proof that fails, or of another length, or without a challenge, ends with 0xE4 and its event and is counted; the third
  -- one ends the association.
  (∀ (s u : State) (c : Cid) (a k : Nat) (x : Assoc) (d : List Byte) (v : AuthVerdict), (dataRuns s = true ∧ c.org = .assoc a ∧ a < 65536 ∧ assocOf s a = some x ∧ cidBusy s c = false ∧ x.auth = false ∧ x.mgmt = true ∧ capBad x c.cid = none) → (x.nonce = none ∨ anchorRoles s k = none ∨ d.length ≠ 3376 ∨ v.ed = false ∨ v.ml = false) → u = (match x.nonce, anchorEntry s k with | some n, some e => checkProof s e (manageMessage n a x.host) d | _, _ => s) → ∃ t, t = reply (writeEvent (setAssoc u a (some { x with nonce := none, proofs := x.proofs + 1 })) { num := 0x0510, inst := a, detail := [k, a] }) c (.vendor 0xE4) ∧ exec (.managementProve c k d v) s = .next (if 2 ≤ x.proofs then assocEnd t a else t)) ∧
  -- A management association that has not proved an anchor in its time ends; one that has, or any other association, stays,
  -- and without the association nothing happens.
  (∀ (s : State) (a : Nat), (∀ x, assocOf s a = some x → exec (.mgmtAuthTimeout a) s = .next (if x.mgmt = true ∧ x.roles = none then assocEnd s a else s)) ∧ (assocOf s a = none → exec (.mgmtAuthTimeout a) s = .next s)) ∧
  -- PF0 and the management network have every role: their proof completes at once, and a challenge answers a nonce that
  -- nothing keeps. From a tenant's association both are Invalid Command Opcode.
  (∀ (s : State) (c : Cid) (k : Nat) (d : List Byte) (v : AuthVerdict), dataRuns s = true → (c.org = .pf0 → exec (.managementProve c k d v) s = .next (reply s c .success) ∧ exec (.managementChallenge c) s = .next (reply { s with freeCtr := s.freeCtr + 1 } c .success 0 (leBytes 32 (Config.freeValue s.freeCtr % 2 ^ 256)))) ∧ (∀ a x, HostAdmin s c a x → exec (.managementProve c k d v) s = .next (reply s c .invalidOpcode) ∧ exec (.managementChallenge c) s = .next (reply s c .invalidOpcode)))

/-- The management commands on virtual subsystems, hosts and namespaces, each one catalog change or one status.
From a sender with the role, in a mode that serves management commands. Rests on parts of R225, R229, R230, R231, R233,
R234, R235, R236. -/
def Obligations.VssCommands : Prop :=
  -- VSS Create of a good descriptor with a free number and name and room in the pools records an Active subsystem with its
  -- quotas; a taken number or name is 0xE1, and no room 0xE0.
  (∀ (s : State) (c : Cid) (d : List Byte), Manager s c 0 → (d.length = 256 ∧ shareBad d = false ∧ nqnBad ((d.drop 32).take 224) = false) → exec (.vssCreate c d) s = .next (if (vssOf s (leAt d 0 2)).isSome || (vssList s).any fun x => x.2.nqn == cString ((d.drop 32).take 224) then reply s c (.vendor 0xE1) else if poolRoom s (leAt d 0 2) (withShare { flags := leAt d 2 1, nqn := cString ((d.drop 32).take 224), state := .active } d) then catCommand s c [.vss (leAt d 0 2) (some (withShare { flags := leAt d 2 1, nqn := cString ((d.drop 32).take 224), state := .active } d))] 0 0 (leAt d 0 2) else reply s c (.vendor 0xE0))) ∧
  -- VSS Change Share of a subsystem that stands, with its flags unchanged and room in the pools, records the new quotas; of
  -- none it is 0xE2.
  (∀ (s : State) (c : Cid) (d : List Byte), Manager s c 0 → (d.length = 32 ∧ shareBad d = false) → (vssOf s (leAt d 0 2) = none → exec (.vssChangeShare c d) s = .next (reply s c (.vendor 0xE2))) ∧ ∀ o, vssOf s (leAt d 0 2) = some o → o.flags = leAt d 2 1 → exec (.vssChangeShare c d) s = .next (if poolRoom s (leAt d 0 2) (withShare o d) then catCommand s c [.vss (leAt d 0 2) (some (withShare o d))] 0 0 (leAt d 0 2) else reply s c (.vendor 0xE0))) ∧
  -- VSS Reset takes an Active or Sanitizing subsystem to Resetting, VSS Remove an Active one without namespaces to Removing;
  -- otherwise they are 0xE3, and without a subsystem 0xE2.
  (∀ (s : State) (c : Cid) (w : Nat) (r : VssRec), Manager s c 0 → (vssOf s (field w 0 12) = none → exec (.vssReset c w) s = .next (reply s c (.vendor 0xE2)) ∧ exec (.vssRemove c w) s = .next (reply s c (.vendor 0xE2))) ∧ (vssOf s (field w 0 12) = some r → exec (.vssReset c w) s = .next (if r.state = .active ∨ r.state = .sanitizing then catCommand s c [.vss (field w 0 12) (some { r with state := .resetting, prior := r.state })] 0 0 (field w 0 12) else reply s c (.vendor 0xE3)) ∧ exec (.vssRemove c w) s = .next (if r.state ≠ .active ∨ hasNs s (field w 0 12) = true then reply s c (.vendor 0xE3) else catCommand s c [.vss (field w 0 12) (some { r with state := .removing })] 0 0 (field w 0 12)))) ∧
  -- Host Entry Set with OP 1 for a host the subsystem lists replaces that entry; OP 2 removes it; without the subsystem it is
  -- 0xE2.
  (∀ (s : State) (c : Cid) (d : List Byte) (i : Nat), Manager s c 0 → (hostBad d = false ∧ (vssOf s (leAt d 0 2)).isSome = true ∧ hostIndex s (leAt d 0 2) (cString ((d.drop 64).take 256)) = some i) → (leAt d 2 1 = 2 → exec (.hostEntrySet c d) s = .next (catCommand s c [.host i none] 0 2 i)) ∧ (leAt d 2 1 = 1 → exec (.hostEntrySet c d) s = .next (catCommand s c [.host i (some { vss := leAt d 0 2, nqn := cString ((d.drop 64).take 256), hasHost := bitAt (leAt d 3 1) 0, hasCtrl := bitAt (leAt d 3 1) 1, host := if bitAt (leAt d 3 1) 0 then (d.drop 320).take 32 else [], ctrl := if bitAt (leAt d 3 1) 1 then (d.drop 352).take 32 else [] })] 0 2 i))) ∧
  -- Attach and Detach with the namespace's own controller list change its attachment in one catalog change; with it already so
  -- they answer Namespace Already Attached or Not Attached.
  (∀ (s : State) (c : Cid) (nsid n : Nat) (r : NsRec), Manager s c 0 → nsNamed s nsid = some (n, r) → exec (.namespaceAttach c nsid [r.vss]) s = .next (if r.attached then reply s c .nsAlreadyAttached else catCommand s c [.ns n (some { r with attached := true })] 0 1 n) ∧ exec (.namespaceDetach c nsid [r.vss]) s = .next (if r.attached then catCommand s c [.ns n (some { r with attached := false })] 0 1 n else reply s c .nsNotAttached)) ∧
  -- Namespace Delete of a namespace that is detached and has no command in flight destroys its key and its record in one
  -- catalog change; otherwise it is 0xE3.
  (∀ (s : State) (c : Cid) (nsid n : Nat) (r : NsRec), Manager s c 0 → nsNamed s nsid = some (n, r) → exec (.namespaceDelete c nsid) s = .next (if r.attached = true ∨ nsInflight s n ≠ 0 then reply s c (.vendor 0xE3) else catCommand s c [.key n { epoch := (tget s.cat.keys {} n).epoch }, .ns n none] 0 1 n)) ∧
  -- Namespace Create of a good descriptor in an owned group and an Active subsystem, with its NSID, a number and chunks free,
  -- writes the namespace's entries to the group's present drives before the catalog records it; a taken NSID is 0xE1, no room
  -- 0xE0, a group not owned 0xEA.
  (∀ (s u : State) (c : Cid) (d : List Byte) (y : VssRec) (n first : Nat) (r : NsRec), Manager s c 0 → (nsBad s d = false ∧ bitAt (leAt d 7 1) 1 = false ∧ vssOf s (leAt d 0 2) = some y ∧ y.state = .active) → (freeNsNumber s = some n ∧ freeRun s ((leAt d 8 8 + 65535) / 65536) = some first ∧ catWay s = .alone ∧ s.tdm.linkUp = false) → r = { vss := leAt d 0 2, nsid := leAt d 2 2, group := leAt d 4 1, lbaf := leAt d 5 1, pi := leAt d 6 1, mirror := bitAt (leAt d 7 1) 0, fed := bitAt (leAt d 7 1) 1, nsze := leAt d 8 8, profile := leAt d 16 2, first := first, chunks := (leAt d 8 8 + 65535) / 65536 } → (allocChunks s n r (profileK s (leAt d 16 2)) (profileM s (leAt d 16 2)) (List.range ((leAt d 8 8 + 65535) / 65536)) = some u ∧ u.tdm.linkUp = false) → exec (.namespaceCreate c d) s = .next (if (grpOf s (leAt d 4 1)).owned = false then reply s c (.vendor 0xEA) else if (nsAll s).any (fun x => x.2.vss == leAt d 0 2 && x.2.nsid == leAt d 2 2) then reply s c (.vendor 0xE1) else createBegin u ⟨n, r, c, presentBays u (leAt d 4 1)⟩)) ∧
  -- Catalog Read answers the descriptor of a subsystem or a namespace with the catalog's generation in DW0; of none it is
  -- 0xE2.
  (∀ (s : State) (c : Cid) (n : Nat), Manager s c 1 → exec (.catalogRead c 0 n 0) s = .next (match vssOf s n with | some r => reply s c .success (s.cat.gen % 2 ^ 32) (vssDesc n r) | none => reply s c (.vendor 0xE2)) ∧ exec (.catalogRead c 1 n 0) s = .next (match nsOf s n with | some r => reply s c .success (s.cat.gen % 2 ^ 32) (nsDesc r) | none => reply s c (.vendor 0xE2)) ∧ exec (.catalogRead c 3 n 0) s = .next (reply s c .invalidField)) ∧
  -- A virtual controller of the subsystem named is reset; any other number is 0xE2.
  (∀ (s : State) (c : Cid) (w : Nat) (y : VssRec) (x : Assoc), Manager s c 0 → (vssOf s (field w 0 12) = some y ∧ assocOf s (field w 16 16) = some x ∧ x.disc = false ∧ field w 16 16 < 65536) → exec (.virtualControllerReset c w) s = .next (if x.vss = field w 0 12 then reply (vcReset s (field w 16 16)) c .success else reply s c (.vendor 0xE2))) ∧
  -- A descriptor that breaks a rule of its layout is Invalid Field; a share of other flags too.
  (∀ (s : State) (c : Cid) (d : List Byte), Manager s c 0 → (d.length ≠ 256 ∨ shareBad d = true ∨ nqnBad ((d.drop 32).take 224) = true → exec (.vssCreate c d) s = .next (reply s c .invalidField)) ∧ (d.length ≠ 32 ∨ shareBad d = true → exec (.vssChangeShare c d) s = .next (reply s c .invalidField)) ∧ (∀ o, vssOf s (leAt d 0 2) = some o → o.flags ≠ leAt d 2 1 → d.length = 32 → shareBad d = false → exec (.vssChangeShare c d) s = .next (reply s c .invalidField)) ∧ (hostBad d = true → exec (.hostEntrySet c d) s = .next (reply s c .invalidField)) ∧ (nsBad s d = true → exec (.namespaceCreate c d) s = .next (reply s c .invalidField))) ∧
  -- For a subsystem that does not stand, or an entry to remove that is not there, it is 0xE2; a new host takes the subsystem's
  -- lowest free entry, and is 0xE0 where the subsystem or the controller has none.
  (∀ (s : State) (c : Cid) (d : List Byte) (l : List Nat), Manager s c 0 → (hostBad d = false ∧ l = (pendEdits s).filterMap fun e => match e with | .host i (some _) => some i | _ => none) → (vssOf s (leAt d 0 2) = none → exec (.hostEntrySet c d) s = .next (reply s c (.vendor 0xE2))) ∧ (vssOf s (leAt d 0 2) ≠ none → hostIndex s (leAt d 0 2) (cString ((d.drop 64).take 256)) = none → (leAt d 2 1 = 2 → exec (.hostEntrySet c d) s = .next (reply s c (.vendor 0xE2))) ∧ (leAt d 2 1 = 1 → exec (.hostEntrySet c d) s = .next (match (if 65536 ≤ hostCount s then none else ((List.range 256).find? fun i => (tget s.cat.hosts none (256 * leAt d 0 2 + i)).isNone && !l.contains (256 * leAt d 0 2 + i)).map fun i => 256 * leAt d 0 2 + i) with | none => reply s c (.vendor 0xE0) | some i => catCommand s c [.host i (some { vss := leAt d 0 2, nqn := cString ((d.drop 64).take 256), hasHost := bitAt (leAt d 3 1) 0, hasCtrl := bitAt (leAt d 3 1) 1, host := if bitAt (leAt d 3 1) 0 then (d.drop 320).take 32 else [], ctrl := if bitAt (leAt d 3 1) 1 then (d.drop 352).take 32 else [] })] 0 2 i)))) ∧
  -- Of a federated namespace without a federation it is 0xF2; in a subsystem that is not there or not Active 0xE2; while the
  -- catalog takes no change that status; without a number, a run of chunks or room on the drives 0xE0.
  (∀ (s : State) (c : Cid) (d : List Byte), Manager s c 0 → nsBad s d = false → (bitAt (leAt d 7 1) 1 = true → fedOn s = false → exec (.namespaceCreate c d) s = .next (reply s c (.vendor 0xF2))) ∧ (bitAt (leAt d 7 1) 1 = false → (grpOf s (leAt d 4 1)).owned = true → (vssOf s (leAt d 0 2) = none → exec (.namespaceCreate c d) s = .next (reply s c (.vendor 0xE2))) ∧ (∀ y, vssOf s (leAt d 0 2) = some y → y.state ≠ .active → exec (.namespaceCreate c d) s = .next (reply s c (.vendor 0xE2))) ∧ (∀ y, vssOf s (leAt d 0 2) = some y → y.state = .active → (nsAll s).any (fun x => x.2.vss == leAt d 0 2 && x.2.nsid == leAt d 2 2) = false → (∀ e, catWay s = .refused e → exec (.namespaceCreate c d) s = .next (reply s c e)) ∧ (catWay s = .alone → freeNsNumber s = none ∨ freeRun s ((leAt d 8 8 + 65535) / 65536) = none → exec (.namespaceCreate c d) s = .next (reply s c (.vendor 0xE0)))))) ∧
  -- A namespace, host entry, subsystem or controller that does not stand is 0xE2; a controller list other than the namespace's
  -- own is Invalid Field; a host entry that stands is answered with its generation, its operation byte open.
  (∀ (s : State) (c : Cid) (nsid w n k : Nat) (cs : List Nat), mgmtFull s = true → (hasRole s c 0 = none → (nsNamed s nsid = none → exec (.namespaceAttach c nsid cs) s = .next (reply s c (.vendor 0xE2)) ∧ exec (.namespaceDetach c nsid cs) s = .next (reply s c (.vendor 0xE2)) ∧ exec (.namespaceDelete c nsid) s = .next (reply s c (.vendor 0xE2))) ∧ (∀ m r, nsNamed s nsid = some (m, r) → cs ≠ [r.vss] → exec (.namespaceAttach c nsid cs) s = .next (reply s c .invalidField) ∧ exec (.namespaceDetach c nsid cs) s = .next (reply s c .invalidField)) ∧ (vssOf s (field w 0 12) = none ∨ assocOf s (field w 16 16) = none → exec (.virtualControllerReset c w) s = .next (reply s c (.vendor 0xE2)))) ∧ (hasRole s c 1 = none → (256 ≤ k ∨ tget s.cat.hosts none (256 * n + k) = none → exec (.catalogRead c 2 n k) s = .next (reply s c (.vendor 0xE2))) ∧ (∀ r, k < 256 → tget s.cat.hosts none (256 * n + k) = some r → exec (.catalogRead c 2 n k) s = .next (reply { s with freeCtr := s.freeCtr + 1 } c .success (s.cat.gen % 2 ^ 32) (hostDesc r (Config.freeValue s.freeCtr % 256)))))) ∧
  -- In Boot, Held and Safe these commands are not served: nothing changes and nothing is answered. A sender without the role
  -- is answered with the status that refuses it.
  (∀ (s : State) (c : Cid) (d : List Byte) (w n k : Nat) (cs : List Nat) (i : Instr), i ∈ [Instr.vssCreate c d, .vssChangeShare c d, .vssReset c w, .vssRemove c w, .hostEntrySet c d, .namespaceCreate c d, .namespaceDelete c w, .namespaceAttach c w cs, .namespaceDetach c w cs, .virtualControllerReset c w, .catalogRead c w n k] → (mgmtFull s = false → exec i s = .next s) ∧ (∀ e, mgmtFull s = true → i ≠ .catalogRead c w n k → hasRole s c 0 = some e → exec i s = .next (reply s c e)) ∧ (∀ e, mgmtFull s = true → hasRole s c 1 = some e → exec (.catalogRead c w n k) s = .next (reply s c e)))

/-- Freezing, saving, restoring and thawing a tenant queue, and the dirty log of a subsystem.
From a sender with the Manage role, on a tenant queue that stands. Rests on parts of R183, R238, R239, R240, R241. -/
def Obligations.TenantQueueMoves : Prop :=
  -- Freeze with a limit in range pauses a queue that is active or paused and holds the command; one already frozen, or in
  -- Error, is 0xE3.
  (∀ (s : State) (c : Cid) (w l k : Nat), Manager s c 0 → (1 ≤ l ∧ l ≤ 10000 ∧ tqNamed s w = some k) → exec (.tenantQueueFreeze c w l) s = .next (if (tqOf s k).frozen = true ∨ ((tqOf s k).state ≠ .active ∧ (tqOf s k).state ≠ .paused) then reply s c (.vendor 0xE3) else setTq s k { tqOf s k with state := .paused, frozen := true, freezer := some c })) ∧
  -- The freeze completes when no fetch, waiting entry or command of the queue is left; at its limit it ends with 0xE8 and its
  -- event.
  (∀ (s : State) (q i : Nat) (c : Cid), (q < 65536 ∧ i < 16 ∧ (tqOf s (16 * q + i)).freezer = some c) → exec (.tqFreezeComplete q i) s = .next (if (tqOf s (16 * q + i)).fetch = 0 ∧ (tqOf s (16 * q + i)).wait = [] ∧ tqInflight s (16 * q + i) = 0 then reply (setTq s (16 * q + i) { tqOf s (16 * q + i) with freezer := none }) c .success else s) ∧ exec (.tqFreezeTimeout q i) s = .next (reply (writeEvent (setTq s (16 * q + i) { tqOf s (16 * q + i) with freezer := none }) { num := 0x0515, inst := tqQp (16 * q + i), instar := (tqOf s (16 * q + i)).instar.val.toNat, vss := (tqOf s (16 * q + i)).vss }) c (.vendor 0xE8))) ∧
  -- Save of a frozen queue answers the part of its saved state asked for, and deletes the queue when that part reaches the
  -- end; of a queue that is not frozen it is 0xEB.
  (∀ (s : State) (c : Cid) (w off len k : Nat), Manager s c 0 → tqNamed s w = some k → ((tqOf s k).frozen = false → exec (.tenantQueueSave c w off len) s = .next (reply s c (.vendor 0xEB))) ∧ ((tqOf s k).frozen = true → (tqOf s k).freezer = none → (tqOf s k).state = .paused → len ≤ 2 ^ 20 → off ≤ (savedState (tqOf s k)).length → exec (.tenantQueueSave c w off len) s = .next (reply (if (savedState (tqOf s k)).length ≤ off + len then tqDelete s k else s) c .success (savedState (tqOf s k)).length (((savedState (tqOf s k)).drop off).take len)))) ∧
  -- A first part of a restore that is not the last is kept for its sender and completes; a part that does not follow on what
  -- is kept is Invalid Field.
  (∀ (s : State) (c : Cid) (data : List Byte) (off : Nat), Manager s c 0 → (data.length ≤ 2 ^ 20 ∧ off ≠ 0 ∧ s.cfe.restore = []) → exec (.tenantQueueRestore c 0 false data) s = .next (reply { s with cfe := { s.cfe with restore := [⟨c.org, data⟩] } } c .success) ∧ exec (.tenantQueueRestore c off false data) s = .next (reply s c .invalidField)) ∧
  -- The last part of a restore, with the descriptor and state complete, recreates the queue.
  (∀ (s : State) (c : Cid) (data : List Byte), Manager s c 0 → (data.length ≤ 2 ^ 20 ∧ s.cfe.restore = []) → exec (.tenantQueueRestore c 0 true data) s = .next (tqRestored { s with cfe := { s.cfe with restore := [] } } c (data.take 64) (data.drop 64))) ∧
  -- Thaw of a frozen queue that no freeze waits on ends its freeze and completes; of a queue not frozen it is 0xEB.
  (∀ (s : State) (c : Cid) (w k : Nat), Manager s c 0 → tqNamed s w = some k → ((tqOf s k).frozen = false → exec (.tenantQueueThaw c w) s = .next (reply s c (.vendor 0xEB))) ∧ ((tqOf s k).frozen = true → (tqOf s k).state = .paused → (tqOf s k).freezer = none → ∃ t, t = setTq s k { tqOf s k with frozen := false, state := if vssStopped s (tqOf s k).vss then .paused else .active } ∧ exec (.tenantQueueThaw c w) s = .next (reply (joinFetch t (tqOf s k).vss) c .success))) ∧
  -- Dirty Log Control without ENABLE stops its slot and leaves no queue pair in it; a slot out of range is Invalid Field.
  (∀ (s : State) (c : Cid) (w a b p : Nat), Manager s c 0 → (field w 0 7 = 0 ∨ 64 < field w 0 7 → exec (.dirtyLogControl c w a b p) s = .next (reply s c .invalidField)) ∧ (1 ≤ field w 0 7 → field w 0 7 ≤ 64 → bitAt w 8 = false → exec (.dirtyLogControl c w a b p) s = .next (reply (if (dlogOf s (field w 0 7)).enable then leaveDlog (dlogStop s (field w 0 7)) (field w 0 7) else s) c .success))) ∧
  -- Dirty Log Harvest answers the words asked for, each read and cleared in turn, with the slot's overflow bit in DW0; one
  -- word is one read and clear.
  (∀ (s : State) (c : Cid) (n w : Nat), Manager s c 0 → (1 ≤ n ∧ n ≤ 64) → exec (.dirtyLogHarvest c n w 1) s = .next (reply (dlogTake s n w 0).2 c .success (bit (dlogOf s n).overflow) (leBytes 8 (dlogTake s n w 0).1)) ∧ exec (.dirtyLogHarvest c n w 0) s = .next (reply s c .invalidField)) ∧
  -- A freeze with a limit out of range is Invalid Field; a number that names no queue is 0xE2; a save out of range of a frozen
  -- queue is Invalid Field, and 0xEB while its freeze still waits.
  (∀ (s : State) (c : Cid) (w l off len : Nat), Manager s c 0 → (l = 0 ∨ 10000 < l → exec (.tenantQueueFreeze c w l) s = .next (reply s c .invalidField)) ∧ (tqNamed s w = none → (1 ≤ l ∧ l ≤ 10000 → exec (.tenantQueueFreeze c w l) s = .next (reply s c (.vendor 0xE2))) ∧ exec (.tenantQueueSave c w off len) s = .next (reply s c (.vendor 0xE2)) ∧ exec (.tenantQueueThaw c w) s = .next (reply s c (.vendor 0xE2))) ∧ (∀ k, tqNamed s w = some k → (tqOf s k).frozen = true → (tqOf s k).state = .paused → ((tqOf s k).freezer ≠ none → exec (.tenantQueueSave c w off len) s = .next (reply s c (.vendor 0xEB))) ∧ ((tqOf s k).freezer = none → 2 ^ 20 < len ∨ (savedState (tqOf s k)).length < off → exec (.tenantQueueSave c w off len) s = .next (reply s c .invalidField)) ∧ (∀ f, (tqOf s k).freezer = some f → exec (.tenantQueueThaw c w) s = .next (reply (joinFetch (setTq (endFreeze s k) k { tqOf (endFreeze s k) k with frozen := false, state := if vssStopped (endFreeze s k) (tqOf (endFreeze s k) k).vss then .paused else .active }) (tqOf (endFreeze s k) k).vss) c .success)))) ∧
  -- A queue that no freeze waits on is left as it is; a queue pair that does not exist is a fault, and a queue index that does
  -- not exist is nothing.
  (∀ (s : State) (q i : Nat), (q < 65536 → (tqOf s (16 * q + i)).freezer = none ∨ 16 ≤ i → exec (.tqFreezeComplete q i) s = .next s ∧ exec (.tqFreezeTimeout q i) s = .next s) ∧ (65536 ≤ q → exec (.tqFreezeComplete q i) s = .fault (.noSuchInstance "queue pair") ∧ exec (.tqFreezeTimeout q i) s = .fault (.noSuchInstance "queue pair"))) ∧
  -- A part that is too long, or makes the whole too long, is Invalid Field.
  (∀ (s : State) (c : Cid) (data : List Byte) (off : Nat) (last : Bool), Manager s c 0 → 2 ^ 20 < data.length → exec (.tenantQueueRestore c off last data) s = .next (reply s c .invalidField)) ∧
  -- With ENABLE a slot that is stopped, for a subsystem that stands and an aligned base, starts with its pages and its
  -- subsystem, and every queue pair of that subsystem joins it; a bad base or no pages is Invalid Field, no subsystem 0xE2, a
  -- running slot 0xE3, no room 0xE0.
  (∀ (s u : State) (c : Cid) (w a p : Nat), Manager s c 0 → (1 ≤ field w 0 7 ∧ field w 0 7 ≤ 64 ∧ bitAt w 8 = true ∧ a < 2 ^ 64 ∧ p < 2 ^ 32) → u = setDlog s (field w 0 7) { dlogOf s (field w 0 7) with page2m := bitAt w 9, base := a, pages := p, overflow := false } → (p = 0 ∨ a % (if bitAt w 9 then 2 ^ 21 else 4096) ≠ 0 → exec (.dirtyLogControl c w (a % 2 ^ 32) (a / 2 ^ 32) p) s = .next (reply s c .invalidField)) ∧ (p ≠ 0 → a % (if bitAt w 9 then 2 ^ 21 else 4096) = 0 → (vssOf s (field w 16 12) = none → exec (.dirtyLogControl c w (a % 2 ^ 32) (a / 2 ^ 32) p) s = .next (reply s c (.vendor 0xE2))) ∧ (vssOf s (field w 16 12) ≠ none → exec (.dirtyLogControl c w (a % 2 ^ 32) (a / 2 ^ 32) p) s = .next (if (dlogOf s (field w 0 7)).enable then reply s c (.vendor 0xE3) else if (dlogStart u (field w 0 7)).2 then reply ((tenantQps (setDlog (dlogStart u (field w 0 7)).1 (field w 0 7) { dlogOf (dlogStart u (field w 0 7)).1 (field w 0 7) with vss := some (field w 16 12) }) (field w 16 12)).foldl (fun s q => setQp s q { qpOf s q with dlog := field w 0 7 }) (setDlog (dlogStart u (field w 0 7)).1 (field w 0 7) { dlogOf (dlogStart u (field w 0 7)).1 (field w 0 7) with vss := some (field w 16 12) })) c .success else reply (dlogStart u (field w 0 7)).1 c (.vendor 0xE0))))) ∧
  -- A slot out of range, or more words than may be read, is Invalid Field; several words are read and cleared one after the
  -- other.
  (∀ (s : State) (c : Cid) (n f k : Nat), Manager s c 0 → (field n 0 7 = 0 ∨ 64 < field n 0 7 ∨ k = 0 ∨ 131072 < k → exec (.dirtyLogHarvest c n f k) s = .next (reply s c .invalidField)) ∧ (1 ≤ field n 0 7 → field n 0 7 ≤ 64 → 1 ≤ k → k ≤ 131072 → exec (.dirtyLogHarvest c n f k) s = .next (reply ((List.range k).foldl (fun (x : List Nat × State) i => (x.1 ++ leBytes 8 (dlogTake x.2 (field n 0 7) (f + i) 0).1, (dlogTake x.2 (field n 0 7) (f + i) 0).2)) ([], s)).2 c .success (bit (dlogOf s (field n 0 7)).overflow) ((List.range k).foldl (fun (x : List Nat × State) i => (x.1 ++ leBytes 8 (dlogTake x.2 (field n 0 7) (f + i) 0).1, (dlogTake x.2 (field n 0 7) (f + i) 0).2)) ([], s)).1))) ∧
  -- In Boot, Held and Safe these commands are not served; a sender without the role is answered with the status that refuses
  -- it.
  (∀ (s : State) (c : Cid) (w l m n : Nat) (b : Bool) (d : List Byte) (i : Instr), i ∈ [Instr.tenantQueueFreeze c w l, .tenantQueueSave c w l m, .tenantQueueRestore c w b d, .tenantQueueThaw c w, .dirtyLogControl c w l m n, .dirtyLogHarvest c w l m] → (mgmtFull s = false → exec i s = .next s) ∧ (∀ e, mgmtFull s = true → hasRole s c 0 = some e → exec i s = .next (reply s c e)))

/-- Catalog changes on the tandem link, their echo and timeout, the copy, and the end of a reset or removal.
For a change that is pending under its identifier, and a virtual subsystem of the catalog. Rests on parts of R225, R226,
R231. -/
def Obligations.CatalogBetweenControllers : Prop :=
  -- A change from the partner that owns the order is applied, echoed under its identifier and ends nothing of ours; with the
  -- link down nothing arrives.
  (∀ (s : State) (id : Nat) (es : List CatEdit), (s.tdm.linkUp = false → exec (.catalogChangeReceive false id es) s = .next s) ∧ (s.tdm.linkUp = true → catPending s id = none → exec (.catalogChangeReceive false id es) s = .next (tdmSend (catFollowAll s (catApply s es) es) (.tandem 7 [id])))) ∧
  -- The echo of a change this controller applied ends its wait and completes its command.
  (∀ (s : State) (id : Nat) (p : CatPend), (catPending s id = some p ∧ p.fwd = false) → exec (.catalogEchoReceive id) s = .next (catDone (catUnpend s id) p.who p.dw0 p.kind p.obj)) ∧
  -- Without the echo in time the change ends with 0xE6 to its sender and the catalogs count as not compared.
  (∀ (s : State) (id : Nat) (p : CatPend) (c : Cid), (catPending s id = some p ∧ p.who = some c) → exec (.catalogPartnerTimeout id) s = .next (reply (catUnpend { s with tdm := { s.tdm with compared := false } } id) c (.vendor 0xE6))) ∧
  -- An identifier that is not pending does nothing.
  (∀ (s : State) (id : Nat), catPending s id = none → exec (.catalogEchoReceive id) s = .next s ∧ exec (.catalogPartnerTimeout id) s = .next s) ∧
  -- After the comparison the catalog in force is this side's where only it has advanced, or both have and this is side A, the
  -- partner's where only that has or both have and this is side B, each with its event; the sync generation is its generation,
  -- the catalogs count as compared and both groups go on pairing.
  (∀ (s t : State) (k : CatCopy), s.tdm.linkUp = true → (t = if min s.cat.sync k.cat.sync < s.cat.gen ∧ (¬ min s.cat.sync k.cat.sync < k.cat.gen ∨ isSideA s = true) then writeEvent s { num := 0x0512, detail := [Config.code 0x0512 0, s.cat.gen, k.cat.gen] } else if ¬ min s.cat.sync k.cat.sync < k.cat.gen then s else if min s.cat.sync k.cat.sync < s.cat.gen then writeEvent (writeEvent (takeCopy s k) { num := 0x0512, detail := [Config.code 0x0512 1, s.cat.gen, k.cat.gen] }) { num := 0x0513, detail := [s.cat.gen, k.cat.gen] } else writeEvent (takeCopy s k) { num := 0x0512, detail := [Config.code 0x0512 1, s.cat.gen, k.cat.gen] }) → exec (.catalogCopyDone k) s = .next (pairAfter (pairAfter { t with cat := { t.cat with sync := t.cat.gen }, tdm := { t.tdm with compared := true } } 0) 1)) ∧
  -- A change that side B forwards is applied, sent on and kept until its echo by side A where it fits the pools, and turned
  -- away otherwise; side B ignores one. A change that this side forwarded completes when it comes back, and is turned away
  -- when it comes back without edits.
  (∀ (s : State) (id : Nat) (es : List CatEdit) (t : State), (s.tdm.linkUp = true ∧ t = catFollowAll s (catApply s es) es) → (isSideA s = false → exec (.catalogChangeReceive true id es) s = .next s) ∧ (isSideA s = true → exec (.catalogChangeReceive true id es) s = .next (if es.all (editFits s) then tdmSend { t with cfe := { t.cfe with pend := t.cfe.pend ++ [⟨id, es, none, 0, 0, 0, false⟩] } } (.tandem 6 [id, t.cat.gen]) else tdmSend s (.tandem 20 [id]))) ∧ (∀ p, catPending s id = some p → exec (.catalogChangeReceive false id es) s = .next (if p.fwd = true ∧ es = [] then turnedAway (catUnpend s id) p else if p.fwd = true then catDone (catUnpend (tdmSend t (.tandem 7 [id])) id) p.who p.dw0 p.kind p.obj else tdmSend t (.tandem 7 [id])))) ∧
  -- The echo of a change that was only forwarded does nothing; the timeout of a change without a sender only ends its wait;
  -- with the link down no copy is done; a subsystem that does not stand ends nothing.
  (∀ (s : State) (id v : Nat) (k : CatCopy), (∀ p, catPending s id = some p → p.fwd = true → exec (.catalogEchoReceive id) s = .next s) ∧ (∀ p, catPending s id = some p → p.who = none → exec (.catalogPartnerTimeout id) s = .next (catUnpend { s with tdm := { s.tdm with compared := false } } id)) ∧ (s.tdm.linkUp = false → exec (.catalogCopyDone k) s = .next s) ∧ (vssOf s v = none → exec (.vssResetDone v) s = .next s ∧ exec (.vssRemoveDone v) s = .next s)) ∧
  -- A Resetting subsystem without associations goes back to the state it had; a Removing one without slots and associations
  -- leaves the catalog; while one is left nothing happens.
  (∀ (s : State) (v : Nat) (r : VssRec), vssOf s v = some r → exec (.vssResetDone v) s = .next (if r.state = .resetting ∧ assocsOf s v = [] then catOwn s [.vss v (some { r with state := r.prior })] 0 v else s) ∧ exec (.vssRemoveDone v) s = .next (if r.state = .removing ∧ slotsHeld s v = 0 ∧ assocsOf s v = [] then catOwn s [.vss v none] 0 v else s))

/-- The steps that move a context through its lists.
For a context that holds a thread and stands at the step named, with steps left, in a mode that runs the data path. Rests on
parts of R252, R253, R254, R275. -/
def Obligations.StepControlFlow : Prop :=
  -- NOP only moves on.
  (∀ (s : State) (n : Nat) (w : StepW) (c : Ctx), AtStep s n c 0x00 w → exec (.nop n w) s = .next (setCtx (ticked s c n) n (some (advanced c)))) ∧
  -- JMP continues at IMM.
  (∀ (s : State) (n : Nat) (w : StepW) (c : Ctx), AtStep s n c 0x02 w → exec (.jmp n w) s = .next (setCtx (ticked s c n) n (some (jumpTo (advanced c) w.imm)))) ∧
  -- BR continues at IMM when its condition is true, else at the next step.
  (∀ (s : State) (n : Nat) (w : StepW) (c : Ctx), AtStep s n c 0x03 w → exec (.br n w) s = .next (setCtx (ticked s c n) n (some (if condHolds (ticked s c n) (advanced c) w.cond then jumpTo (advanced c) w.imm else advanced c)))) ∧
  -- CALL pushes the place after it, four deep at most, and enters the list of IMM at its first step; a fifth is a list fault.
  (∀ (s : State) (n : Nat) (w : StepW) (c : Ctx), AtStep s n c 0x04 w → exec (.call n w) s = .next (if 4 ≤ c.stack.length then faultAny (ticked s c n) n (advanced c) else setCtx (ticked s c n) n (some { advanced c with stack := (c.list, c.step + 1) :: c.stack, list := w.imm % 512, step := 0 }))) ∧
  -- RET returns to the place popped; with nothing pushed it ends the list.
  (∀ (s : State) (n : Nat) (w : StepW) (c : Ctx) (l k : Nat) (r : List (Nat × Nat)), AtStep s n c 0x05 w → (c.stack = (l, k) :: r → exec (.ret n w) s = .next (setCtx (ticked s c n) n (some { advanced c with list := l, step := k, stack := r }))) ∧ (c.stack = [] → exec (.ret n w) s = .next (endAny (ticked s c n) n (advanced c)))) ∧
  -- END of a command that has completed and holds no interlock frees the thread and the context, with its writes counted as
  -- durable where no echo is awaited any more.
  (∀ (s : State) (n : Nat) (w : StepW) (c : Ctx), AtStep s n c 0x01 w → (c.op = none ∧ c.done = true ∧ c.lock = .none_) → exec (.end_ n w) s = .next (freeCtxNow (if c.committed && !c.durable then durableNow (ticked s c n) (advanced c) else ticked s c n) n (advanced c))) ∧
  -- FAIL completes a command that has not completed with the status of IMM, and ends.
  (∀ (s : State) (n : Nat) (w : StepW) (c : Ctx), AtStep s n c 0x06 w → exec (.fail n w) s = .next (endAny (if c.done then ticked s c n else completeCtx (ticked s c n) n (advanced c) (statusOfWord w.imm) (bitAt w.imm 15) 0) n { advanced c with done := true })) ∧
  -- WAIT parks the context, its thread free, on the timer of its class.
  (∀ (s : State) (n : Nat) (w : StepW) (c : Ctx), AtStep s n c 0x07 w → exec (.wait n w) s = .next (parkCtx (ticked s c n) n (advanced c) .timer w.tmo)) ∧
  -- END of an internal operation ends the operation; of a command that has not completed, with no operation, it is a list
  -- fault; of one that has completed but still holds its interlock entry it frees the context with the list fault's event.
  (∀ (s : State) (n : Nat) (w : StepW) (c : Ctx), AtStep s n c 0x01 w → (∀ op, c.op = some op → exec (.end_ n w) s = .next (finishOp (ticked s c n) n (advanced c) op)) ∧ (c.op = none → c.cmd.isSome = true → c.done = false → exec (.end_ n w) s = .next (listFault (if c.committed && !c.durable then durableNow (ticked s c n) (advanced c) else ticked s c n) n (advanced c))) ∧ (c.op = none → c.done = true → c.lock = .taken → exec (.end_ n w) s = .next (freeCtxNow (listFaultEvent (if c.committed && !c.durable then durableNow (ticked s c n) (advanced c) else ticked s c n) n (advanced c)) n (advanced c))) ∧ (c.op = none → (c.cmd = none ∨ c.done = true) → c.lock ≠ .taken → exec (.end_ n w) s = .next (freeCtxNow (if c.committed && !c.durable then durableNow (ticked s c n) (advanced c) else ticked s c n) n (advanced c)))) ∧
  -- A step named for a context that does not exist, does not hold a thread or stands at another step, or in a mode that does
  -- not run the data path, does nothing; a command at its step limit ends with a list fault, counted in the sequencers' step-
  -- limit counter.
  (∀ (s : State) (n : Nat) (w : StepW), ∀ x ∈ [(Instr.nop n w, 0x00), (Instr.end_ n w, 0x01), (Instr.jmp n w, 0x02), (Instr.br n w, 0x03), (Instr.call n w, 0x04), (Instr.ret n w, 0x05), (Instr.fail n w, 0x06), (Instr.wait n w, 0x07)], (ctxOf s n = none → exec x.1 s = .next s) ∧ (∀ c, ctxOf s n = some c → (onThread c = false ∨ stepHere s c x.2 w = false ∨ dataRuns s = false) → exec x.1 s = .next s) ∧ (∀ c, ctxOf s n = some c → onThread c = true → stepHere s c x.2 w = true → dataRuns s = true → stepLimit s ≤ c.steps → c.cmd.isSome = true → exec x.1 s = .next (listFault (rcAdd s 0x70010 0 1) n c)))

/-- The arithmetic steps on the sixteen 64-bit registers of a context.
For a context that holds a thread and stands at the step named, with steps left, in a mode that runs the data path. Rests on
parts of R253, R257. -/
def Obligations.StepArithmetic : Prop :=
  -- LDI loads IMM, zero-extended.
  (∀ (s : State) (n : Nat) (w : StepW) (c : Ctx), AtStep s n c 0x10 w → exec (.ldi n w) s = .next (setCtx (ticked s c n) n (some (setReg (advanced c) w.a (w.imm % 2 ^ 32))))) ∧
  -- MOV copies a register.
  (∀ (s : State) (n : Nat) (w : StepW) (c : Ctx), AtStep s n c 0x11 w → exec (.mov n w) s = .next (setCtx (ticked s c n) n (some (setReg (advanced c) w.a (creg c w.b))))) ∧
  -- ADD adds modulo 2^64.
  (∀ (s : State) (n : Nat) (w : StepW) (c : Ctx), AtStep s n c 0x12 w → exec (.add n w) s = .next (setCtx (ticked s c n) n (some (setReg (advanced c) w.a (creg c w.a + creg c w.b))))) ∧
  -- ADDI adds IMM, sign-extended, modulo 2^64.
  (∀ (s : State) (n : Nat) (w : StepW) (c : Ctx), AtStep s n c 0x13 w → exec (.addi n w) s = .next (setCtx (ticked s c n) n (some (setReg (advanced c) w.a (creg c w.a + signExt w.imm))))) ∧
  -- SUB subtracts modulo 2^64.
  (∀ (s : State) (n : Nat) (w : StepW) (c : Ctx), AtStep s n c 0x14 w → exec (.sub n w) s = .next (setCtx (ticked s c n) n (some (setReg (advanced c) w.a (creg c w.a + (2 ^ 64 - creg c w.b)))))) ∧
  -- AND takes the bitwise and.
  (∀ (s : State) (n : Nat) (w : StepW) (c : Ctx), AtStep s n c 0x15 w → exec (.and_ n w) s = .next (setCtx (ticked s c n) n (some (setReg (advanced c) w.a (creg c w.a &&& creg c w.b))))) ∧
  -- SHR shifts right by the low six bits of IMM.
  (∀ (s : State) (n : Nat) (w : StepW) (c : Ctx), AtStep s n c 0x16 w → exec (.shr n w) s = .next (setCtx (ticked s c n) n (some (setReg (advanced c) w.a (creg c w.a >>> (w.imm % 64)))))) ∧
  -- SHL shifts left by the low six bits of IMM, modulo 2^64.
  (∀ (s : State) (n : Nat) (w : StepW) (c : Ctx), AtStep s n c 0x17 w → exec (.shl n w) s = .next (setCtx (ticked s c n) n (some (setReg (advanced c) w.a (creg c w.a <<< (w.imm % 64)))))) ∧
  -- CMP sets EQ and LT by the unsigned comparison of two registers and leaves the other flags.
  (∀ (s : State) (n : Nat) (w : StepW) (c : Ctx), AtStep s n c 0x18 w → exec (.cmp n w) s = .next (setCtx (ticked s c n) n (some ({ advanced c with flg := { c.flg with eq := decide (creg c w.a = creg c w.b), lt := decide (creg c w.a < creg c w.b) } })))) ∧
  -- CMPI does so with IMM.
  (∀ (s : State) (n : Nat) (w : StepW) (c : Ctx), AtStep s n c 0x19 w → exec (.cmpi n w) s = .next (setCtx (ticked s c n) n (some ({ advanced c with flg := { c.flg with eq := decide (creg c w.a = w.imm % 2 ^ 32), lt := decide (creg c w.a < w.imm % 2 ^ 32) } })))) ∧
  -- MARK loads the timebase.
  (∀ (s : State) (n : Nat) (w : StepW) (c : Ctx), AtStep s n c 0x1A w → exec (.mark n w) s = .next (setCtx (ticked s c n) n (some (setReg (advanced c) w.a (ticked s c n).now)))) ∧
  -- A step named for a context that does not exist, does not hold a thread or stands at another step, or in a mode that does
  -- not run the data path, does nothing; a command at its step limit ends with a list fault, counted in the sequencers' step-
  -- limit counter.
  (∀ (s : State) (n : Nat) (w : StepW), ∀ x ∈ [(Instr.ldi n w, 0x10), (Instr.mov n w, 0x11), (Instr.add n w, 0x12), (Instr.addi n w, 0x13), (Instr.sub n w, 0x14), (Instr.and_ n w, 0x15), (Instr.shr n w, 0x16), (Instr.shl n w, 0x17), (Instr.cmp n w, 0x18), (Instr.cmpi n w, 0x19), (Instr.mark n w, 0x1A)], (ctxOf s n = none → exec x.1 s = .next s) ∧ (∀ c, ctxOf s n = some c → (onThread c = false ∨ stepHere s c x.2 w = false ∨ dataRuns s = false) → exec x.1 s = .next s) ∧ (∀ c, ctxOf s n = some c → onThread c = true → stepHere s c x.2 w = true → dataRuns s = true → stepLimit s ≤ c.steps → c.cmd.isSome = true → exec x.1 s = .next (listFault (rcAdd s 0x70010 0 1) n c)))

/-- The steps that order commands, hold table versions, count and report.
For a context that holds a thread and stands at the step named, with steps left, in a mode that runs the data path. Rests on
parts of R42, R44, R253, R264, R265, R266, R267. -/
def Obligations.StepOrder : Prop :=
  -- ILOCK takes the interlock entry when every earlier command of the namespace has passed its own, or parks until then; an
  -- entry of the interlock array that SEC-DED cannot correct is fatal, with cause 0x08 and the array's number.
  (∀ (s : State) (n : Nat) (w : StepW) (c : Ctx), AtStep s n c 0x20 w → exec (.ilock n w false) s = .next (if ilockFree (ticked s c n) { advanced c with wr := bitAt w.flags 0 } then setCtx (ticked s c n) n (some { advanced c with wr := bitAt w.flags 0, lock := .taken, flg := flgPark c.flg true false false }) else parkCtx (rcAdd (ticked s c n) 0x7000C 0 1) n { advanced c with wr := bitAt w.flags 0 } .ilock w.tmo) ∧ exec (.ilock n w true) s = .next (fatal (ticked s c n) 0x08 4)) ∧
  -- IWAIT of a held entry proceeds when no earlier command that conflicts still holds one, and parks until then; a command
  -- that holds no entry proceeds; of an entry withdrawn by its own wait's timeout it fails by order (DEDUCED, log 20).
  (∀ (s : State) (n : Nat) (w : StepW) (c : Ctx), AtStep s n c 0x21 w → (c.lock = .withdrawn → exec (.iwait n w) s = .next (setCtx (ticked s c n) n (some (orderFail (advanced c))))) ∧ (c.lock ≠ .withdrawn → exec (.iwait n w) s = .next (if c.lock ≠ .taken ∨ iwaitFree (ticked s c n) (advanced c) = true then setCtx (ticked s c n) n (some { advanced c with flg := flgPark c.flg true false false }) else parkCtx (rcAdd (ticked s c n) 0x7000C 0 1) n (advanced c) .iwait w.tmo))) ∧
  -- IREL releases an entry that is held.
  (∀ (s : State) (n : Nat) (w : StepW) (c : Ctx), AtStep s n c 0x22 w → exec (.irel n w) s = .next (setCtx (ticked s c n) n (some (if c.lock = .taken then { advanced c with lock := .released } else advanced c)))) ∧
  -- NSFENCE proceeds when no earlier write of the namespaces is left, and parks until then.
  (∀ (s : State) (n : Nat) (w : StepW) (c : Ctx), AtStep s n c 0x23 w → exec (.nsfence n w) s = .next (if (fenceLeft (ticked s c n) (advanced c)).isEmpty then setCtx (ticked s c n) n (some { advanced c with fence := [], flg := flgPark c.flg true false false }) else parkCtx (ticked s c n) n (advanced c) .nsfence w.tmo)) ∧
  -- TREF of an entry that stands takes a reference to the version in force and puts its handle into a register; of none, and
  -- of a table or a key that does not exist, it fails with Internal Error.
  (∀ (s : State) (n : Nat) (w : StepW) (c : Ctx) (v : Nat) (u : State), AtStep s n c 0x24 w → ((5 ≤ w.imm % 8 ∨ tableKeys (w.imm % 8) ≤ creg c w.a) → exec (.tref n w) s = .next (setCtx (ticked s c n) n (some (failWith (advanced c) .internalError)))) ∧ (w.imm % 8 < 5 → creg c w.a < tableKeys (w.imm % 8) → tableRef (ticked s c n) (w.imm % 8) (creg c w.a) = (some v, u) → exec (.tref n w) s = .next (setCtx u n (some (setReg { (okHold (advanced c)) with refs := c.refs ++ [(w.imm % 8, creg c w.a, v)] } w.b (handleOf (w.imm % 8) (creg c w.a) v))))) ∧ (w.imm % 8 < 5 → creg c w.a < tableKeys (w.imm % 8) → tableRef (ticked s c n) (w.imm % 8) (creg c w.a) = (none, u) → exec (.tref n w) s = .next (setCtx u n (some (failWith (advanced c) .internalError))))) ∧
  -- TDROP of a handle the context holds gives the reference back; of any other it does nothing.
  (∀ (s : State) (n : Nat) (w : StepW) (c : Ctx) (r : Nat × Nat × Nat), AtStep s n c 0x25 w → r = (creg c w.a % 8, creg c w.a / 8 % 2 ^ 29, creg c w.a / 2 ^ 32) → exec (.tdrop n w) s = .next (if c.refs.contains r then setCtx (tableDrop (ticked s c n) r.1 r.2.1 r.2.2) n (some { advanced c with refs := c.refs.erase r }) else setCtx (ticked s c n) n (some (advanced c)))) ∧
  -- COUNT counts the event of IMM for its core and tenant, and may take a sample.
  (∀ (s : State) (n : Nat) (w : StepW) (c : Ctx) (k : Nat) (pk : Bool), AtStep s n c 0x70 w → exec (.count_ n w k pk) s = .next (setCtx (countStep (ticked s c n) (advanced c) n (w.imm % 65536) (k % 4) pk (c.step + (if k % 4 = 0 then 1 else k % 4))) n (some (advanced c)))) ∧
  -- EVENT writes the event of IMM with two registers as its detail.
  (∀ (s : State) (n : Nat) (w : StepW) (c : Ctx), AtStep s n c 0x71 w → exec (.event n w) s = .next (setCtx (writeEvent (ticked s c n) { num := w.imm % 65536, vss := if c.vss = 0 then 0xFFFF else c.vss, detail := [creg c w.a, creg c w.b] }) n (some (okHold (advanced c))))) ∧
  -- A step named for a context that does not exist, does not hold a thread or stands at another step, or in a mode that does
  -- not run the data path, does nothing; a command at its step limit ends with a list fault, counted in the sequencers' step-
  -- limit counter.
  (∀ (s : State) (n : Nat) (w : StepW) (lost : Bool) (k : Nat) (pk : Bool), ∀ x ∈ [(Instr.ilock n w lost, 0x20), (Instr.iwait n w, 0x21), (Instr.irel n w, 0x22), (Instr.nsfence n w, 0x23), (Instr.tref n w, 0x24), (Instr.tdrop n w, 0x25), (Instr.count_ n w k pk, 0x70), (Instr.event n w, 0x71)], (ctxOf s n = none → exec x.1 s = .next s) ∧ (∀ c, ctxOf s n = some c → (onThread c = false ∨ stepHere s c x.2 w = false ∨ dataRuns s = false) → exec x.1 s = .next s) ∧ (∀ c, ctxOf s n = some c → onThread c = true → stepHere s c x.2 w = true → dataRuns s = true → stepLimit s ≤ c.steps → c.cmd.isSome = true → exec x.1 s = .next (listFault (rcAdd s 0x70010 0 1) n c)))

/-- The steps of the cocoon: look up, stage, commit, read and wait for the echo.
For a context that holds a thread and stands at the step named, with steps left, in a mode that runs the data path. Rests on
parts of R253, R288, R289, R290, R291, R297. -/
def Obligations.StepCocoon : Prop :=
  -- CLOOK with the index whole sets HIT when every block of the range is found and MISS otherwise; while the index is rebuilt,
  -- or when it finds it bad, it parks at the same step.
  (∀ (s : State) (n : Nat) (w : StepW) (c : Ctx) (bad : Bool), AtStep s n c 0x30 w → exec (.clook n w bad) s = .next (if bad = true ∨ (ticked s c n).coc.rebuildIx = true then parkRetry (indexBad (ticked s c n)) n (advanced c) .index 3 else setCtx (ticked s c n) n (some { advanced c with flg := flgLook c.flg ((ctxBlocks c).all fun b => (newest (ticked s c n) c.ns b).isSome) }))) ∧
  -- CSTAGE of a namespace that is gone, or of a context without a command, fails with Internal Error. Its data still streaming
  -- in, it keeps its pages and stays at its step; with its queue pair gone it fails with Data Transfer Error, and its staged
  -- pages stay with the context. With its counters exhausted it fails with Key Exhausted, counted; with its counters being
  -- reserved it parks at the same step.
  (∀ (s : State) (n : Nat) (w : StepW) (c : Ctx) (tk : Bool) (u : State), AtStep s n c 0x31 w → (stallAt (ticked s c n) 5 (((freePage (ticked s c n)).getD 0) % 2)) = (false, u) → (c.cmd = none ∨ nsOf u c.ns = none → exec (.cstage n w tk) s = .next (setCtx u n (some (failWith (advanced c) .internalError)))) ∧ (∀ h r, c.cmd = some h → nsOf u c.ns = some r → bitAt w.flags 1 = false → c.staging = true → exec (.cstage n w tk) s = .next (stageOn u n (advanced c) r tk)) ∧ (∀ h r v, c.cmd = some h → nsOf u c.ns = some r → bitAt w.flags 1 = false → c.staging = false → takeCtrs u c.ns (h.nlb + 1) = (.exhausted, v) → exec (.cstage n w tk) s = .next (setCtx (rcAdd v 0x90038 0 1) n (some (failWith (advanced c) (.vendor 0xEF))))) ∧ (∀ h r v, c.cmd = some h → nsOf u c.ns = some r → bitAt w.flags 1 = false → c.staging = false → takeCtrs u c.ns (h.nlb + 1) = (.wait, v) → exec (.cstage n w tk) s = .next (parkRetry v n (advanced c) .counter 3))) ∧
  -- A CSTAGE of zeros takes one page for its range.
  (∀ (s : State) (n : Nat) (w : StepW) (c : Ctx) (tk : Bool) (u v : State) (h : HostCmd) (r : NsRec) (ps : List Nat), AtStep s n c 0x31 w → ((stallAt (ticked s c n) 5 (((freePage (ticked s c n)).getD 0) % 2)) = (false, u) ∧ c.cmd = some h ∧ nsOf u c.ns = some r ∧ bitAt w.flags 1 = true) → stagePages u c.vss [(rangeRec r c.ns h.slba (h.nlb + 1) 2 0 0, {})] = some (v, ps) → exec (.cstage n w tk) s = .next (staged v n (advanced c) r ps)) ∧
  -- A payload in arrival: CSTAGE stays at its step; one that will not arrive fails it with Data Transfer Error; one that is
  -- whole but not yet taken by the cocoon's write queues stays, holding its buffer cells.
  (∀ (s : State) (n : Nat) (c : Ctx) (r : NsRec) (tk : Bool), tk = false → (c.whole = false → payloadComing s n = false → stageOn s n c r tk = setCtx s n (some (failWith { c with staging := false } .dataTransferError))) ∧ (c.whole = false → payloadComing s n = true → stageOn s n c r tk = setCtx s n (some { c with step := c.step - 1, staging := true })) ∧ (c.whole = true → stageOn s n c r tk = setCtx s n (some { c with step := c.step - 1, staging := true, mcast := some (if mirrorSend s r then 3 else 1, 0) }))) ∧
  -- The first CSTAGE of a payload takes a page for each block, seals each into its page under the next counters, and goes on
  -- as its data arrives and the cocoon takes it.
  (∀ (s : State) (n : Nat) (w : StepW) (c : Ctx) (tk : Bool) (h : HostCmd) (r : NsRec) (k : Nat) (t u v : State) (ps : List Nat), AtStep s n c 0x31 w → ((stallAt (ticked s c n) 5 (((freePage (ticked s c n)).getD 0) % 2)) = (false, t) ∧ c.cmd = some h ∧ nsOf t c.ns = some r ∧ bitAt w.flags 1 = false ∧ c.staging = false) → takeCtrs t c.ns (h.nlb + 1) = (.from_ k, u) → stagePages u c.vss ((List.range (h.nlb + 1)).map fun i => (writeRec t r c.ns h.slba (h.nlb + 1) i k (bitAt w.flags 0) ((h.payload[i]?).getD {}), (h.payload[i]?).getD {})) = some (v, ps) → exec (.cstage n w tk) s = .next (stageOn (noteOccupancy (keyWarn (count (count v 0x0801 none none (h.nlb + 1)) 0x0503 none (some c.vss) h.len) c.ns)) n { advanced c with pages := c.pages ++ ps } r tk)) ∧
  -- CCOMMIT of a command that is not protected from writing commits its staged pages in order under the next sequence numbers
  -- of the group, sends each record on where the namespace is mirrored, and marks the command committed.
  (∀ (s : State) (n : Nat) (w : StepW) (c : Ctx) (r : NsRec) (ps : List Nat) (b : Nat), AtStep s n c 0x32 w → ((ticked s c n).coc.protect = false ∧ nsOf (ticked s c n) c.ns = some r) → (ps = c.pages.filter (fun p => (ownPg (ticked s c n) p).st == .staged) ∧ b = nextSeq (ticked s c n) r.group) → mirrorSend (ps.foldl (fun s p => commitPage s p b (mirrorOn (ticked s c n) r)) (setSeq (ticked s c n) r.group (b + ps.length))) r = false → exec (.ccommit n w) s = .next (setCtx (ps.foldl (fun t p => commitPage t p b (mirrorOn (ticked s c n) r)) (setSeq (ticked s c n) r.group (b + ps.length))) n (some { (okHold (advanced c)) with committed := true, echo := if mirrorOn (ticked s c n) r then ps else [] }))) ∧
  -- While the cocoon protects itself CCOMMIT stays at its step.
  (∀ (s : State) (n : Nat) (w : StepW) (c : Ctx), AtStep s n c 0x32 w → (ticked s c n).coc.protect = true → exec (.ccommit n w) s = .next (ticked s c n)) ∧
  -- CREAD with clean lines and good tags fills the buffer from the pages of the range, with their protection information.
  (∀ (s : State) (n : Nat) (w : StepW) (c : Ctx), AtStep s n c 0x33 w → cocoonPages (ticked s c n) c.ns (ctxBlocks c) = [] → ((ctxBlocks c).map fun b => (cocoonBlk (ticked s c n) c.ns b).getD {}).any (fun b => b.st == 5) = false → exec (.cread n w [] true) s = .next (setCtx (count (ticked s c n) 0x0802 none none 0) n (some { (okHold (advanced c)) with buf := (ctxBlocks c).map fun b => (cocoonBlk (ticked s c n) c.ns b).getD {} }))) ∧
  -- CDEALLOC stages one deallocation record for each range of the command; while the index is rebuilt it parks at the same
  -- step.
  (∀ (s : State) (n : Nat) (w : StepW) (c : Ctx) (h : HostCmd) (r : NsRec) (v : State) (ps : List Nat), AtStep s n c 0x34 w → (c.cmd = some h ∧ nsOf (ticked s c n) c.ns = some r) → stagePages (ticked s c n) c.vss (h.ranges.zipIdx.map fun x => (rangeRec r c.ns x.1.lba x.1.len 3 (h.ranges.length - 1) x.2, {})) = some (v, ps) → exec (.cdealloc n w) s = .next (if (ticked s c n).coc.rebuildIx then parkRetry (ticked s c n) n (advanced c) .index 3 else staged v n (advanced c) r ps)) ∧
  -- ECHOWAIT with echoes outstanding on a mirrored namespace parks for them; otherwise the command is as durable as it is
  -- committed and goes on.
  (∀ (s : State) (n : Nat) (w : StepW) (c : Ctx), AtStep s n c 0x38 w → exec (.echowait n w) s = .next (if c.echo = [] ∨ condHolds (ticked s c n) (advanced c) 12 = false then setCtx (if c.committed then durableNow (noEcho (ticked s c n) (advanced c)) { advanced c with durable := c.committed, echo := [], flg := flgPark c.flg true false false } else noEcho (ticked s c n) (advanced c)) n (some { advanced c with durable := c.committed, echo := [], flg := flgPark c.flg true false false }) else parkCtx (ticked s c n) n (advanced c) .echo w.tmo)) ∧
  -- CCOMMIT of a namespace that is gone fails with Internal Error.
  (∀ (s : State) (n : Nat) (w : StepW) (c : Ctx), AtStep s n c 0x32 w → ((ticked s c n).coc.protect = false ∧ nsOf (ticked s c n) c.ns = none) → exec (.ccommit n w) s = .next (setCtx (ticked s c n) n (some (failWith (advanced c) .internalError)))) ∧
  -- A CREAD whose tag fails reports the fault of the first page it read and counts it before the buffer is filled.
  (∀ (s : State) (n : Nat) (w : StepW) (c : Ctx) (m : Bool) (p : Nat) (l : List (Bool × Nat)), AtStep s n c 0x33 w → cocoonPages (ticked s c n) c.ns (ctxBlocks c) = (m, p) :: l → (m = false ∧ (pageFault (ticked s c n) m p false).coc.fetches.contains (p, false) = true) → exec (.cread n w [] false) s = .next (parkRetry (pageFault (ticked s c n) m p false) n (advanced c) .repair 3)) ∧
  -- CDEALLOC of a namespace that is gone, or of a context without a command, fails with Internal Error once the index is
  -- whole.
  (∀ (s : State) (n : Nat) (w : StepW) (c : Ctx), AtStep s n c 0x34 w → ((ticked s c n).coc.rebuildIx = false ∧ (c.cmd = none ∨ nsOf (ticked s c n) c.ns = none)) → exec (.cdealloc n w) s = .next (setCtx (ticked s c n) n (some (failWith (advanced c) .internalError)))) ∧
  -- Each of CCOMMIT, CREAD and CDEALLOC answers a next state in every case, that of its one operation on the context moved on
  -- by a step.
  (∀ (s : State) (n : Nat) (w : StepW) (c : Ctx) (reads : List LineRead) (tagOk : Bool), ∀ x ∈ [(Instr.ccommit n w, 0x32, ccommitStep (ticked s c n) n (advanced c)), (Instr.cread n w reads tagOk, 0x33, creadStep (ticked s c n) n (advanced c) reads tagOk), (Instr.cdealloc n w, 0x34, cdeallocStep (ticked s c n) n (advanced c))], AtStep s n c x.2.1 w → exec x.1 s = .next x.2.2) ∧
  -- A step named for a context that does not exist, does not hold a thread or stands at another step, or in a mode that does
  -- not run the data path, does nothing; a command at its step limit ends with a list fault, counted in the sequencers' step-
  -- limit counter.
  (∀ (s : State) (n : Nat) (w : StepW) (bad : Bool) (tagOk : Bool) (reads : List LineRead), ∀ x ∈ [(Instr.clook n w bad, 0x30), (Instr.cstage n w tagOk, 0x31), (Instr.ccommit n w, 0x32), (Instr.cread n w reads tagOk, 0x33), (Instr.cdealloc n w, 0x34), (Instr.echowait n w, 0x38)], (ctxOf s n = none → exec x.1 s = .next s) ∧ (∀ c, ctxOf s n = some c → (onThread c = false ∨ stepHere s c x.2 w = false ∨ dataRuns s = false) → exec x.1 s = .next s) ∧ (∀ c, ctxOf s n = some c → onThread c = true → stepHere s c x.2 w = true → dataRuns s = true → stepLimit s ≤ c.steps → c.cmd.isSome = true → exec x.1 s = .next (listFault (rcAdd s 0x70010 0 1) n c)))

/-- The steps that move host data, complete the command and check it.
For a context that holds a thread and stands at the step named, with steps left, in a mode that runs the data path. Rests on
parts of R193, R253, R261, R347. -/
def Obligations.StepHost : Prop :=
  -- HREAD of a fabric command hands the transport one read of the host data into its queue pair and parks for the data.
  (∀ (s : State) (n : Nat) (w : StepW) (c : Ctx), AtStep s n c 0x40 w → ctxFn c = none → exec (.hread n w) s = .next (parkCtx (sendMsg (ticked s c n) (hostQp c) { kind := .read, len := creg c 2, va := creg c 3, rkey := creg c 4 % 2 ^ 32, ctx := some n }) n (advanced c) .host w.tmo)) ∧
  -- HWRITE of a fabric command writes the buffer to the host by one RDMA WRITE, counted with its bytes, and goes on.
  (∀ (s : State) (n : Nat) (w : StepW) (c : Ctx), AtStep s n c 0x41 w → ctxFn c = none → exec (.hwrite n w) s = .next (setCtx (sendMsg (count (emit (ticked s c n) (.hostWrite (hostQp c) (creg c 3) (creg c 4 % 2 ^ 32) (c.buf.map BufBlk.blk))) 0x0504 none (some c.vss) (creg c 2)) (hostQp c) { kind := .write, len := creg c 2, va := creg c 3, rkey := creg c 4 % 2 ^ 32, ctx := some n }) n (some (okHold (advanced c))))) ∧
  -- Of a service-port command HWRITE writes the buffer by DMA, counted with its bytes; a function that may not issue requests
  -- fails it with Data Transfer Error, counted.
  (∀ (s : State) (n : Nat) (w : StepW) (c : Ctx) (k : Nat), AtStep s n c 0x41 w → ctxFn c = some k → (fnDmaOn (ticked s c n) k = true → exec (.hwrite n w) s = .next (setCtx (count (emit (ticked s c n) (.hostWrite (hostQp c) (creg c 3) (creg c 4 % 2 ^ 32) (c.buf.map BufBlk.blk))) 0x0504 none (some c.vss) (creg c 2)) n (some (okHold (advanced c))))) ∧ (fnDmaOn (ticked s c n) k = false → exec (.hwrite n w) s = .next (setCtx (rcAdd (ticked s c n) 0xD0018 0 1) n (some (failWith (advanced c) .dataTransferError))))) ∧
  -- CPL completes a command that has not completed, with the status of IMM or of R15 and the low half of a register as its
  -- result; a command is completed once.
  (∀ (s : State) (n : Nat) (w : StepW) (c : Ctx), AtStep s n c 0x42 w → exec (.cpl n w) s = .next (if c.done then setCtx (ticked s c n) n (some (okHold (advanced c))) else completeCtx (ticked s c n) n (okHold (advanced c)) (statusOfWord (if bitAt w.flags 0 then creg c 15 else w.imm)) (bitAt (if bitAt w.flags 0 then creg c 15 else w.imm) 15) (if bitAt w.flags 1 then creg c w.a % 2 ^ 32 else 0))) ∧
  -- COMPARE goes on when the buffer equals the host data, block by block, with the protection information where the namespace
  -- has it, and else fails with Compare Failure; while the host data still streams in it stays at its step.
  (∀ (s : State) (n : Nat) (w : StepW) (c : Ctx), AtStep s n c 0x43 w → (c.whole = false → exec (.compare n w) s = .next (payloadWait (ticked s c n) n (advanced c))) ∧ (c.whole = true → ∀ p, p = ((c.cmd.map (·.payload)).getD []) → exec (.compare n w) s = .next (setCtx (ticked s c n) n (some (if (c.buf.zip p).all (fun x => if condHolds (ticked s c n) (advanced c) 13 then x.1.blk == x.2 else x.1.blk.data == x.2.data) && c.buf.length == p.length then okHold (advanced c) else failWith (advanced c) .compareFailure))))) ∧
  -- PICHK of a context with no command, or whose namespace is gone, goes on; so does PICHK of a command whose blocks all pass;
  -- that of a write whose payload still streams in stays at its step.
  (∀ (s : State) (n : Nat) (w : StepW) (c : Ctx), AtStep s n c 0x44 w → (c.opc = 1 → c.whole = false → exec (.pichk n w) s = .next (payloadWait (ticked s c n) n (advanced c))) ∧ ((c.opc ≠ 1 ∨ c.whole = true) → (c.cmd = none ∨ nsOf (ticked s c n) c.ns = none) → exec (.pichk n w) s = .next (setCtx (ticked s c n) n (some (okHold (advanced c)))))) ∧
  -- The first block of the command that fails its guard, application tag or reference tag check ends it with that status,
  -- counted in that check's counter; the blocks of a write are its payload's, those of another command the buffer's; with no
  -- such block it goes on.
  (∀ (s : State) (n : Nat) (w : StepW) (c : Ctx) (h : HostCmd) (r : NsRec) (bs : List BufBlk), AtStep s n c 0x44 w → (c.cmd = some h ∧ nsOf (ticked s c n) c.ns = some r ∧ (c.opc = 1 → c.whole = true)) → bs = (if c.opc = 1 then h.payload.map (fun b => ({ st := 3, blk := b } : BufBlk)) else c.buf) → exec (.pichk n w) s = .next (match (bs.zipIdx.map fun x => piFails r.pi h.prchk (creg c 7 % 2 ^ 32) (field (creg c 7) 32 16) (field (creg c 7) 48 16) x.2 x.1).find? (· != 0) with | none => setCtx (ticked s c n) n (some (okHold (advanced c))) | some 1 => setCtx (rcAdd (ticked s c n) 0x9002C 0 1) n (some (failWith (advanced c) .guardCheck)) | some 2 => setCtx (rcAdd (ticked s c n) 0x90030 0 1) n (some (failWith (advanced c) .appTagCheck)) | some _ => setCtx (rcAdd (ticked s c n) 0x90034 0 1) n (some (failWith (advanced c) .refTagCheck)))) ∧
  -- Of a service-port command HREAD issues the DMA reads of its function and parks for them, and HWRITE writes the buffer by
  -- DMA, counted with its bytes; a function that may not issue requests fails either with Data Transfer Error, counted.
  (∀ (s : State) (n : Nat) (w : StepW) (c : Ctx) (k : Nat), AtStep s n c 0x40 w → ctxFn c = some k → (fnDmaOn (ticked s c n) k = true → exec (.hread n w) s = .next (parkCtx (setFn (ticked s c n) k { fnOf (ticked s c n) k with dma := (fnOf (ticked s c n) k).dma ++ [(tagOfInstar (fnOf (ticked s c n) k).instar, n)] }) n (advanced c) .host w.tmo)) ∧ (fnDmaOn (ticked s c n) k = false → exec (.hread n w) s = .next (setCtx (rcAdd (ticked s c n) 0xD0018 0 1) n (some (setReg { advanced c with flg := flgPark c.flg false false false } 15 (statusWord .dataTransferError)))))) ∧
  -- A step named for a context that does not exist, does not hold a thread or stands at another step, or in a mode that does
  -- not run the data path, does nothing; a command at its step limit ends with a list fault, counted in the sequencers' step-
  -- limit counter.
  (∀ (s : State) (n : Nat) (w : StepW), ∀ x ∈ [(Instr.hread n w, 0x40), (Instr.hwrite n w, 0x41), (Instr.cpl n w, 0x42), (Instr.compare n w, 0x43), (Instr.pichk n w, 0x44)], (ctxOf s n = none → exec x.1 s = .next s) ∧ (∀ c, ctxOf s n = some c → (onThread c = false ∨ stepHere s c x.2 w = false ∨ dataRuns s = false) → exec x.1 s = .next s) ∧ (∀ c, ctxOf s n = some c → onThread c = true → stepHere s c x.2 w = true → dataRuns s = true → stepLimit s ≤ c.steps → c.cmd.isSome = true → exec x.1 s = .next (listFault (rcAdd s 0x70010 0 1) n c)))

/-- The steps that read and write the drives and the stripes.
For a context that holds a thread and stands at the step named, with steps left, in a mode that runs the data path. Rests on
parts of R42, R253, R324, R326, R328, R329, R333, R334, R335, R336, R337. -/
def Obligations.StepDrives : Prop :=
  -- MAP of chunks whose entries are whole takes a reference to each version in force; of an entry that is being reloaded it
  -- parks at the same step; a poisoned entry is set to be reloaded first, and a poisoned line of the spilled table is fatal,
  -- with cause 0x08 and 0x10 plus its region.
  (∀ (s : State) (n : Nat) (w : StepW) (c : Ctx) (a : Nat), AtStep s n c 0x50 w → ((ctxChunks (ticked s c n) (advanced c)).any (fun e => (ticked s c n).xfm.reload.contains e) = true → exec (.map n w .good) s = .next (parkRetry (ticked s c n) n (advanced c) .map 3)) ∧ ((ctxChunks (ticked s c n) (advanced c)).any (fun e => (ticked s c n).xfm.reload.contains e) = false → exec (.map n w .good) s = .next (setCtx ((ctxChunks (ticked s c n) (advanced c)).foldl mapRef (ticked s c n, [])).1 n (some { (okHold (advanced c)) with refs := c.refs ++ ((ctxChunks (ticked s c n) (advanced c)).foldl mapRef (ticked s c n, [])).2 }))) ∧ exec (.map n w (.entryLost a)) s = .next (mapRefs (mapPoison (ticked s c n) a ((ctxChunks (ticked s c n) (advanced c)).take 1)) n (advanced c) (ctxChunks (ticked s c n) (advanced c))) ∧ exec (.map n w (.tableLost a)) s = .next (fatal (consumePoison (ticked s c n) a 2 (((ctxChunks (ticked s c n) (advanced c)).head?).getD 0)) 0x08 (0x10 + regionAt (ticked s c n) a))) ∧
  -- DREAD of a host read issues one drive read for each run of blocks its plan names, seen through the versions the command
  -- holds, and parks for them, with the degraded rows counted; while a read finds no room it stays as it is.
  (∀ (s : State) (n : Nat) (w : StepW) (c : Ctx) (rows : List RowRead), AtStep s n c 0x51 w → c.op = none → (∀ u, issueRds (ticked s c n) c.refs n .host (mergeRd (dreadPlan (ticked s c n) c.refs c.ns c.buf rows (ctxBlocks c)).1) = some u → exec (.dread n w rows) s = .next (parkReads (rcAdd u 0x90028 0 (dreadPlan (ticked s c n) c.refs c.ns c.buf rows (ctxBlocks c)).2.2) n { advanced c with buf := (dreadPlan (ticked s c n) c.refs c.ns c.buf rows (ctxBlocks c)).2.1 } .drives w.tmo (mergeRd (dreadPlan (ticked s c n) c.refs c.ns c.buf rows (ctxBlocks c)).1).length)) ∧ (issueRds (ticked s c n) c.refs n .host (mergeRd (dreadPlan (ticked s c n) c.refs c.ns c.buf rows (ctxBlocks c)).1) = none → exec (.dread n w rows) s = .next (ticked s c n))) ∧
  -- DREAD of an internal operation issues the reads of its stripe and parks for them; that of a hosted request not being read
  -- goes on.
  (∀ (s : State) (n : Nat) (w : StepW) (c : Ctx) (rows : List RowRead) (op : IntOp), AtStep s n c 0x51 w → c.op = some op → exec (.dread n w rows) s = .next (dreadOp (ticked s c n) n (advanced c) w op) ∧ (∀ e k ps u, op = .flush e k ps → issueRds (ticked s c n) c.refs n (useOf (advanced c)) (mergeRd (opReads (ticked s c n) c.refs op)) = some u → exec (.dread n w rows) s = .next (parkReads u n (advanced c) .drives w.tmo (mergeRd (opReads (ticked s c n) c.refs op)).length)) ∧ (∀ q k, op = .inbound q k → hostedOf (ticked s c n) q k = none → exec (.dread n w rows) s = .next (setCtx (ticked s c n) n (some (okHold (advanced c)))))) ∧
  -- The first DVERIFY of blocks that all pass goes on with them opened; a block that fails sets TAGFAIL and is counted, and
  -- the step fails with Unrecovered Read. A second attempt that passes counts a transient tag failure and writes its event;
  -- the blocks verified before it stay.
  (∀ (s : State) (n : Nat) (w : StepW) (c : Ctx) (found : List DriveBlk) (buf : List BufBlk) (u : State), AtStep s n c 0x52 w → buf = verifyBufs (ticked s c n) c.ns c.buf found → u = count (ticked s c n) 0x0802 none none ((c.buf.zip buf).filter fun x => x.1.st == 2 && x.2.st == 3 && !x.2.unw).length → (bitAt w.flags 0 = false → exec (.dverify n w found) s = .next (setCtx (rcAdd u 0x90014 0 (buf.filter fun b => b.st == 4).length) n (some (if buf.all (fun b => b.st == 1 || b.st == 3) then { advanced c with buf := buf, flg := flgVerify c.flg true } else setReg { advanced c with buf := buf, flg := flgVerify c.flg false } 15 (statusWord .unrecoveredRead))))) ∧ (bitAt w.flags 0 = true → buf.all (fun b => b.st == 1 || b.st == 3) = true → exec (.dverify n w found) s = .next (setCtx (transient (rcAdd u 0x90018 0 1) 8 c.ns 1 0x0806) n (some { advanced c with buf := buf, flg := flgVerify c.flg true }))) ∧ (bitAt w.flags 0 = true → buf.all (fun b => b.st == 1 || b.st == 3) = false → exec (.dverify n w found) s = .next (setCtx u n (some (setReg { advanced c with buf := buf, flg := flgVerify c.flg false } 15 (statusWord .unrecoveredRead)))))) ∧
  -- RECON issues the reads its plan names, seen through the versions the command holds, and parks for them; with nothing to
  -- read it goes on at once; while a read finds no room it stays as it is.
  (∀ (s : State) (n : Nat) (w : StepW) (c : Ctx) (rows : List RowRead) (pl : List RdReq × List BufBlk), AtStep s n c 0x53 w → pl = reconPlan (ticked s c n) c.refs c.ns c.buf rows (ctxBlocks c) → (issueRds (ticked s c n) c.refs n .host (mergeRd pl.1) = none → exec (.recon n w rows) s = .next (ticked s c n)) ∧ (∀ u, issueRds (ticked s c n) c.refs n .host (mergeRd pl.1) = some u → (mergeRd pl.1).isEmpty = true → exec (.recon n w rows) s = .next (reconArrive (parkCtx u n { advanced c with plan := pl.2 } .recon w.tmo) n { advanced c with plan := pl.2 })) ∧ (∀ u, issueRds (ticked s c n) c.refs n .host (mergeRd pl.1) = some u → (mergeRd pl.1).isEmpty = false → exec (.recon n w rows) s = .next (parkCtx u n { advanced c with plan := pl.2, out := (mergeRd pl.1).length, bad := false } .recon w.tmo))) ∧
  -- DWRITE of an operation of this shelf writes its strips, group by group, to the local drives and parks until they are done;
  -- of a hosted request it writes that request's rows; of one gone or that reads it goes on.
  (∀ (s : State) (n : Nat) (w : StepW) (c : Ctx) (q k : Nat) (g : Hosted) (u : State), AtStep s n c 0x54 w → ((∀ q k, c.op ≠ some (.inbound q k)) → exec (.dwrite n w) s = .next (writeGroups (ticked s c n) n (advanced c) w.tmo (stripGroups (ticked s c n) (advanced c) false) .writes)) ∧ (c.op = some (.inbound q k) → hostedOf (ticked s c n) q k = none → exec (.dwrite n w) s = .next (setCtx (ticked s c n) n (some (okHold (advanced c))))) ∧ (c.op = some (.inbound q k) → hostedOf (ticked s c n) q k = some g → g.reading = false → hostedWrite (ticked s c n) n g = (u, true) → exec (.dwrite n w) s = .next (parkCtx u n { advanced c with out := 1, bad := false } .writes w.tmo))) ∧
  -- PARITY of a flush encodes the stripe from its pages and the old blocks read, and holds the strips to write, on the members
  -- that take writes; when a block it needs is lost it fails with Unrecovered Read.
  (∀ (s : State) (n : Nat) (w : StepW) (c : Ctx) (e k : Nat) (ps : List (Bool × Nat)) (olds : List DriveBlk), AtStep s n c 0x55 w → c.op = some (.flush e k ps) → (∀ l ms, encodeRows (ticked s c n) (opRows (ticked s c n) c.refs (.flush e k ps)) olds = some (l, ms) → exec (.parity n w olds) s = .next (setCtx (lostPages (countStripes (ticked s c n) ms) ps) n (some { (okHold (advanced c)) with strips := writableStrips (lostPages (countStripes (ticked s c n) ms) ps) c.refs l none }))) ∧ (encodeRows (ticked s c n) (opRows (ticked s c n) c.refs (.flush e k ps)) olds = none → exec (.parity n w olds) s = .next (setCtx (ticked s c n) n (some (failWith (advanced c) .unrecoveredRead))))) ∧
  -- PARITY of a range record encodes the partly covered stripes and adds the unwritten blocks of the whole stripes on other
  -- shelves; of an operation with no stripe it goes on.
  (∀ (s : State) (n : Nat) (w : StepW) (c : Ctx) (m : Bool) (p : Nat) (sts : List (Nat × Nat)) (olds : List DriveBlk), AtStep s n c 0x55 w → (∀ l ms, c.op = some (.range m p sts) → encodeRows (ticked s c n) (opRows (ticked s c n) c.refs (.range m p sts)) olds = some (l, ms) → exec (.parity n w olds) s = .next (setCtx (countStripes (ticked s c n) ms) n (some { (okHold (advanced c)) with strips := writableStrips (countStripes (ticked s c n) ms) c.refs (remoteZeros (ticked s c n) c.refs m p sts ++ l) none }))) ∧ (c.op = some (.range m p sts) → encodeRows (ticked s c n) (opRows (ticked s c n) c.refs (.range m p sts)) olds = none → exec (.parity n w olds) s = .next (setCtx (ticked s c n) n (some (failWith (advanced c) .unrecoveredRead)))) ∧ (c.op = none → exec (.parity n w olds) s = .next (setCtx (ticked s c n) n (some (okHold (advanced c)))))) ∧
  -- DZERO of a range with no whole stripe on a member of this shelf that takes writes marks its deallocation done and goes on;
  -- an operation without a range, or whose record is gone, goes on.
  (∀ (s : State) (n : Nat) (w : StepW) (c : Ctx) (m : Bool) (p : Nat) (sts : List (Nat × Nat)) (r : CommitRec), AtStep s n c 0x56 w → (c.op = some (.range m p sts) → (anyPg (ticked s c n) m p).rc = some r → (rangeSplit (ticked s c n) c.refs r sts).1 = [] → exec (.dzero n w) s = .next (setCtx (ticked s c n) n (some { advanced c with committed := true, flg := flgPark c.flg true false false }))) ∧ (c.op = some (.range m p sts) → (anyPg (ticked s c n) m p).rc = none → exec (.dzero n w) s = .next (setCtx (ticked s c n) n (some (okHold (advanced c))))) ∧ ((∀ m p sts, c.op ≠ some (.range m p sts)) → exec (.dzero n w) s = .next (setCtx (ticked s c n) n (some (okHold (advanced c)))))) ∧
  -- FRAG with no strip on another shelf goes on; with such strips it sends their fragments and parks for the answers.
  (∀ (s : State) (n : Nat) (w : StepW) (c : Ctx), AtStep s n c 0x57 w → exec (.frag n w) s = .next (if (stripGroups (ticked s c n) (advanced c) true).isEmpty then setCtx (ticked s c n) n (some { advanced c with flg := flgPark c.flg true false false }) else writeGroups (ticked s c n) n (advanced c) 3 (stripGroups (ticked s c n) (advanced c) true) .frag)) ∧
  -- CRELEASE of a flush that is durable clears the records of its pages; of one that is not it keeps them; of a range record
  -- that is applied whole it releases its page; of any other operation it goes on.
  (∀ (s : State) (n : Nat) (w : StepW) (c : Ctx) (e k : Nat) (ps : List (Bool × Nat)) (m : Bool) (p : Nat) (sts : List (Nat × Nat)) (r : CommitRec), AtStep s n c 0x58 w → (c.op = some (.flush e k ps) → exec (.crelease n w) s = .next (if c.durable then setCtx (ps.foldl releaseFlushed (ticked s c n)) n (some { (okHold (advanced c)) with op := some (.flush e k []) }) else setCtx (ticked s c n) n (some (okHold (advanced c))))) ∧ (c.op = some (.range m p sts) → (anyPg (ticked s c n) m p).rc = some r → exec (.crelease n w) s = .next (if ((rangeSplit (ticked s c n) c.refs r sts).1.isEmpty || c.committed) && (((rangeSplit (ticked s c n) c.refs r sts).2.isEmpty && (remoteZeros (ticked s c n) c.refs m p sts).isEmpty) || c.durable) then setCtx (releaseFlushed (vacate (ticked s c n) (.range m p sts)) (m, p)) n (some { (okHold (advanced c)) with op := some .nothing }) else setCtx (ticked s c n) n (some (okHold (advanced c))))) ∧ (c.op = none → exec (.crelease n w) s = .next (setCtx (ticked s c n) n (some (okHold (advanced c)))))) ∧
  -- Each of DWRITE, PARITY, DZERO and CRELEASE answers a next state in every case, that of its one operation on the context
  -- moved on by a step.
  (∀ (s : State) (n : Nat) (w : StepW) (c : Ctx) (olds : List DriveBlk), ∀ x ∈ [(Instr.dwrite n w, 0x54, dwriteStep (ticked s c n) n (advanced c) w), (Instr.parity n w olds, 0x55, parityStep (ticked s c n) n (advanced c) olds), (Instr.dzero n w, 0x56, dzeroStep (ticked s c n) n (advanced c) w), (Instr.crelease n w, 0x58, creleaseStep (ticked s c n) n (advanced c))], AtStep s n c x.2.1 w → exec x.1 s = .next x.2.2) ∧
  -- A step named for a context that does not exist, does not hold a thread or stands at another step, or in a mode that does
  -- not run the data path, does nothing; a command at its step limit ends with a list fault, counted in the sequencers' step-
  -- limit counter.
  (∀ (s : State) (n : Nat) (w : StepW) (r : MapRead) (rows : List RowRead) (found : List DriveBlk) (olds : List DriveBlk), ∀ x ∈ [(Instr.map n w r, 0x50), (Instr.dread n w rows, 0x51), (Instr.dverify n w found, 0x52), (Instr.recon n w rows, 0x53), (Instr.dwrite n w, 0x54), (Instr.parity n w olds, 0x55), (Instr.dzero n w, 0x56), (Instr.frag n w, 0x57), (Instr.crelease n w, 0x58)], (ctxOf s n = none → exec x.1 s = .next s) ∧ (∀ c, ctxOf s n = some c → (onThread c = false ∨ stepHere s c x.2 w = false ∨ dataRuns s = false) → exec x.1 s = .next s) ∧ (∀ c, ctxOf s n = some c → onThread c = true → stepHere s c x.2 w = true → dataRuns s = true → stepLimit s ≤ c.steps → c.cmd.isSome = true → exec x.1 s = .next (listFault (rcAdd s 0x70010 0 1) n c)))

/-- What resumes, starts and times out the contexts of the sequencers.
Each row answers a next state for every operand it names; a core or a table that does not exist is a fault. Rests on parts
of R250, R254, R255, R260, R264, R265, R267, R270, R273, R274. -/
def Obligations.SequencerEvents : Prop :=
  -- A core gives its first ready context whose class may have a thread now a free thread, and takes it out of the ready queue;
  -- with none nothing happens. What is lost on the way acts only where it is read: a step memory word for an image list and a
  -- context memory word for a command are fatal with cause 0x08, a poisoned line of pool 2 ends the internal context it holds.
  (∀ (s : State) (k n : Nat) (c : Ctx) (l : Option ResumeLoss), k < 32 → ((readyQ s k).find? (readyFor s k) = none → exec (.contextResume k l) s = .next s) ∧ (ctxOf s n = some c → (readyQ s k).find? (readyFor s k) = some n → exec (.contextResume k none) s = .next (bindThread (setReadyQ s k ((readyQ s k).filter (· != n))) n c)) ∧ (ctxOf s n = some c → (readyQ s k).find? (readyFor s k) = some n → exec (.contextResume k (some .steps)) s = .next (if c.list < 256 then fatal s 0x08 1 else bindThread (setReadyQ s k ((readyQ s k).filter (· != n))) n c)) ∧ (ctxOf s n = some c → (readyQ s k).find? (readyFor s k) = some n → c.op = none → exec (.contextResume k (some .context)) s = .next (fatal s 0x08 5)) ∧ (∀ a op, ctxOf s n = some c → (readyQ s k).find? (readyFor s k) = some n → c.op = some op → exec (.contextResume k (some (.spill a))) s = .next (spillLost (setReadyQ s k ((readyQ s k).filter (· != n))) a n c op))) ∧
  -- A core or a table that does not exist is a fault.
  (∀ (s : State) (k : Nat) (l : Option ResumeLoss), 32 ≤ k → exec (.contextResume k l) s = .fault (.noSuchInstance "core") ∧ ∀ t, 5 ≤ t → exec (.tableSlotRetry t) s = .fault (.noSuchInstance "table")) ∧
  -- With an internal context free, the first waiting operation that may start leaves the queue and begins; with none free or
  -- startable nothing happens. When the line of pool 2 it is read from is poisoned it ends as a list fault and waits to start
  -- again.
  (∀ (s : State) (n a : Nat) (op : IntOp) (l : Option Nat), (freeInternal s = none → exec (.internalContextStart l) s = .next s) ∧ (freeInternal s = some n → s.seq.queue.find? (opStartable s) = none → exec (.internalContextStart l) s = .next s) ∧ (freeInternal s = some n → s.seq.queue.find? (opStartable s) = some op → exec (.internalContextStart none) s = .next (beginOp { s with seq := { s.seq with queue := s.seq.queue.erase op } } n op)) ∧ (freeInternal s = some n → s.seq.queue.find? (opStartable s) = some op → exec (.internalContextStart (some a)) s = .next (listFaultEvent (consumePoison s a 5 n) n { op := some op, list := internalList op }))) ∧
  -- A timeout of the wait that is in force, other than for an echo, is counted and written, and ends that wait as its kind
  -- says; for an echo it acts as the echo's timeout. One of an earlier wait or instar, of a context that does not wait, or of
  -- none, counts as stale and changes nothing else.
  (∀ (s : State) (n k i : Nat) (c : Ctx) (w : Wait), (ctxOf s n = none → exec (.waitTimeout n k i) s = .next (rcAdd s 0x70018 0 1)) ∧ (ctxOf s n = some c → waitOf c = none → exec (.waitTimeout n k i) s = .next (rcAdd s 0x70018 0 1)) ∧ (ctxOf s n = some c → waitOf c = some w → (c.waitNo ≠ k ∨ c.vci ≠ i) → exec (.waitTimeout n k i) s = .next (rcAdd s 0x70018 0 1)) ∧ (ctxOf s n = some c → waitOf c = some w → c.waitNo = k → c.vci = i → exec (.waitTimeout n k i) s = .next (if w = .echo then echoTimeout s n else waitEnds (writeEvent (rcAdd s 0x70014 0 1) { num := 0x0602, vss := if c.vss = 0 then 0xFFFF else c.vss, detail := [c.list, parkedStep c w, c.cls] }) n c w))) ∧
  -- A WAIT step's timer sets TIMEOUT and makes its context ready again.
  (∀ (s : State) (n : Nat) (c : Ctx), (ctxOf s n = some c ∧ c.run = .parked .timer) → ∃ t, exec (.waitTimeout n c.waitNo c.vci) s = .next (arrive t n { c with flg := { c.flg with timeout := true } } c.drain) ∧ t = writeEvent (rcAdd s 0x70014 0 1) { num := 0x0602, vss := if c.vss = 0 then 0xFFFF else c.vss, detail := [c.list, parkedStep c .timer, c.cls] }) ∧
  -- A parked ILOCK or IWAIT that may proceed now takes its entry, or goes on, and its context is ready; one that may not stays
  -- parked; a context that waits for something else, or that does not exist, counts as stale.
  (∀ (s : State) (n : Nat) (c : Ctx), (ctxOf s n = some c → waitOf c = some .ilock → exec (.interlockGrant n) s = .next (if ilockFree s c then arrive s n { c with lock := .taken, flg := flgPark c.flg true false false } c.drain else s)) ∧ (ctxOf s n = some c → waitOf c = some .iwait → exec (.interlockGrant n) s = .next (if iwaitFree s c then arrive s n { c with flg := flgPark c.flg true false false } c.drain else s)) ∧ (ctxOf s n = some c → waitOf c ≠ some .ilock → waitOf c ≠ some .iwait → exec (.interlockGrant n) s = .next (rcAdd s 0x70018 0 1)) ∧ (ctxOf s n = none → exec (.interlockGrant n) s = .next (rcAdd s 0x70018 0 1))) ∧
  -- A parked NSFENCE proceeds once no earlier write of its namespaces is left; a context that waits for something else, or
  -- that does not exist, counts as stale.
  (∀ (s : State) (n : Nat) (c : Ctx), (ctxOf s n = some c → waitOf c = some .nsfence → exec (.nsfenceDone n) s = .next (if (fenceLeft s c).isEmpty then arrive s n { c with fence := [], flg := flgPark c.flg true false false } c.drain else s)) ∧ (ctxOf s n = some c → waitOf c ≠ some .nsfence → exec (.nsfenceDone n) s = .next (rcAdd s 0x70018 0 1)) ∧ (ctxOf s n = none → exec (.nsfenceDone n) s = .next (rcAdd s 0x70018 0 1))) ∧
  -- Host data that arrives in force for a parked command becomes its payload and its context is ready; a transfer that fails,
  -- or whose function's bus mastering is off, puts Data Transfer Error into R15.
  (∀ (s : State) (n a tag : Nat) (c : Ctx) (h : HostCmd) (d : List Blk) (rs : List DsmRange), stale (vcInstar s a) tag = false → (ctxOf s n = some c ∧ waitOf c = some .host ∧ c.cmd = some h) → (ctxFn c = none → exec (.hostTransferComplete n (.vc a tag) true d rs) s = .next (arrive s n { c with cmd := some { h with payload := d, ranges := rs }, flg := flgPark c.flg true false false } 2)) ∧ (ctxFn c = none → exec (.hostTransferComplete n (.vc a tag) false d rs) s = .next (arrive s n (setReg { c with flg := flgPark c.flg false false false } 15 (statusWord .dataTransferError)) 2)) ∧ (∀ f, ctxFn c = some f → (fnOf s f).bme = true → exec (.hostTransferComplete n (.vc a tag) true d rs) s = .next (arrive (dmaOver s f n) n { c with cmd := some { h with payload := d, ranges := rs }, flg := flgPark c.flg true false false } 2)) ∧ (∀ f, ctxFn c = some f → (fnOf s f).bme = false → ∀ ok, exec (.hostTransferComplete n (.vc a tag) ok d rs) s = .next (arrive (dmaOver (rcAdd s 0xD0018 0 1) f n) n (setReg { c with flg := flgPark c.flg false false false } 15 (statusWord .dataTransferError)) 2))) ∧
  -- A transfer issued under an old instar of its virtual controller or of its tenant queue, or for a context that does not
  -- wait for one, is counted as stale; an old instar's first is reported too.
  (∀ (s : State) (n a tag : Nat) (ok : Bool) (d : List Blk) (rs : List DsmRange), (stale (vcInstar s a) tag = true → exec (.hostTransferComplete n (.vc a tag) ok d rs) s = .next (vcStale s a)) ∧ (stale (tqOf s a).instar tag = true → exec (.hostTransferComplete n (.tq a tag) ok d rs) s = .next (tqStale s a)) ∧ (stale (tqOf s a).instar tag = false → exec (.hostTransferComplete n (.tq a tag) ok d rs) s = .next (hostTransfer s n ok d rs)) ∧ (stale (vcInstar s a) tag = false → (ctxOf s n = none ∨ ∃ c, ctxOf s n = some c ∧ waitOf c ≠ some .host) → exec (.hostTransferComplete n (.vc a tag) ok d rs) s = .next (rcAdd s 0x70018 0 1))) ∧
  -- The updates of one table that wait for a slot are tried again in order; those of other tables stay.
  (∀ (s : State) (k : Nat), k < 5 → exec (.tableSlotRetry k) s = .next ((s.seq.slotWait.filter fun u => updTable u == k).foldl retryUpd { s with seq := { s.seq with slotWait := s.seq.slotWait.filter fun u => updTable u != k } })) ∧
  -- A read of SEQ_SAMPLE_DATA0 answers the oldest sample's first word, holds its other words and takes it out; with no sample
  -- it answers zeros; in Held nothing is answered.
  (∀ (s : State) (p : Path) (r : SampleRec) (l : List SampleRec), (s.glb.mode = .held → exec (.seqSampleRead p) s = .next s) ∧ (s.glb.mode ≠ .held → s.seq.fifo = [] → exec (.seqSampleRead p) s = .next (emit (snapWords s p 0x70064 0 false [0, 0, 0]) (.readData (word 0)))) ∧ (s.glb.mode ≠ .held → s.seq.fifo = r :: l → exec (.seqSampleRead p) s = .next (emit (snapWords { s with seq := { s.seq with fifo := l } } p 0x70064 0 false ((sampleWords r).drop 1)) (.readData (word ((sampleWords r).headD 0))))))

/-- Formatting the cocoon, the odometer, the scrubber, a stack that fails and the index rebuild.
Each row answers a next state in every mode; an address or a stack that does not exist is a fault. Rests on parts of R283,
R284, R298, R313, R314, R317, R503. -/
def Obligations.CocoonUpkeep : Prop :=
  -- In Standby with no group owned, Format Cocoon of an unformatted cocoon formats it; of a formatted one it needs FORCE, and
  -- with records present DISCARD too; anywhere else it is 0xC4.
  (∀ (s : State) (c : Cid) (w : Nat), Manager s c 2 → exec (.formatCocoon c w) s = .next (if s.glb.mode ≠ .standby ∨ s.tdm.grp0.owned = true ∨ s.tdm.grp1.owned = true then reply s c (.vendor 0xC4) else if s.coc.formatted = false then formatDone (formatNew s) c else if bitAt w 0 = false then reply s c (.vendor 0xE1) else if recordsPresent s = true ∧ bitAt w 1 = false then reply s c (.vendor 0xE3) else formatDone (formatForced s) c)) ∧
  -- Outside Safe, while the cocoon is up, formatted and not protected, the odometer and the cycle count stand in its header;
  -- otherwise nothing changes.
  (∀ (s : State), exec .odometerPersist s = .next (if s.glb.mode ≠ .safe ∧ s.coc.up = true ∧ s.coc.formatted = true ∧ s.coc.protect = false then { s with coc := { s.coc with hdrOdo := s.evr.odo, hdrCycles := s.evr.cycles } } else s)) ∧
  -- Outside Held the odometer counts one second more, as a 40-bit number.
  (∀ (s : State), exec .odometerTick s = .next (if s.glb.mode = .held then s else { s with evr := { s.evr with odo := (s.evr.odo + 1) % 2 ^ 40 } })) ∧
  -- The end of an index rebuild is written and resumes every lookup that waited for it.
  (∀ (s : State), exec .indexRebuildDone s = .next (if s.coc.rebuildIx then resumeAll (writeEvent { s with coc := { s.coc with rebuildIx := false } } { num := 0x070D }) .index fun _ => true else s)) ∧
  -- Outside Safe, with the cocoon up, the scrubber's read of a line acts as any read of it, and moves its progress on; at the
  -- last line the pass is counted and progress starts again; otherwise nothing happens.
  (∀ (s : State) (a : Nat) (r : LineRead), a < 2 ^ 33 → ((s.coc.up = false ∨ s.glb.mode = .safe) → exec (.cocoonScrubLine a r) s = .next s) ∧ (s.coc.up = true → s.glb.mode ≠ .safe → ∃ t, t = cocoonLine s a r ∧ exec (.cocoonScrubLine a r) s = .next (if a / 64 = 2 ^ 27 - 1 then { t with coc := { t.coc with scrubPct := 0, scrubPasses := satAdd 0xFFFF t.coc.scrubPasses 1 } } else { t with coc := { t.coc with scrubPct := 100 * a / 2 ^ 33 } }))) ∧
  -- In an operational mode a stack that stops answering fails: its bit, its event and a fatal fault. In Held, or when a fatal
  -- fault of the same tick stands before it, nothing happens. In Boot step 7 waits for one retry, and a second fails Boot with
  -- detail of the stack; an earlier step does not use the stacks.
  (∀ (s : State) (k : Nat) (m : Moment), k < 2 → (outranked m.rivals .fatal = true → exec (.stackAccessTimeout k m) s = .next s) ∧ (s.glb.mode = .held → exec (.stackAccessTimeout k m) s = .next s) ∧ (outranked m.rivals .fatal = false → s.glb.mode = .active ∨ s.glb.mode = .standby ∨ s.glb.mode = .drain ∨ s.glb.mode = .safe → exec (.stackAccessTimeout k m) s = .next (stackFail s k)) ∧ (outranked m.rivals .fatal = false → s.glb.mode = .boot → s.glb.bootHalted = true ∨ s.glb.bootStep < 7 → exec (.stackAccessTimeout k m) s = .next s) ∧ (outranked m.rivals .fatal = false → s.glb.mode = .boot → s.glb.bootHalted = false → s.glb.bootStep = 7 → s.glb.stageLate = false → exec (.stackAccessTimeout k m) s = .next { s with glb := { s.glb with stageLate := true } }) ∧ (outranked m.rivals .fatal = false → s.glb.mode = .boot → s.glb.bootHalted = false → 7 ≤ s.glb.bootStep → (s.glb.bootStep = 7 → s.glb.stageLate = true) → exec (.stackAccessTimeout k m) s = .next (bootFail (stackFail s k) 7 k))) ∧
  -- A read of COC_PAGE_REC0 answers the selected page's first record word and holds the others; in Held nothing is answered.
  (∀ (s : State) (p : Path), exec (.cocPageRecordRead p) s = .next (if s.glb.mode = .held then s else emit (snapWords s p 0x8010C (rwGet s 0x80100 0) false ((windowRecord s).drop 1)) (.readData (word ((windowRecord s).headD 0))))) ∧
  -- An address beyond the cocoon, or a stack that does not exist, is a fault.
  (∀ (s : State) (a k : Nat) (r : LineRead) (m : Moment), (2 ^ 33 ≤ a ∧ 2 ≤ k) → exec (.cocoonScrubLine a r) s = .fault (.noSuchInstance "cocoon address") ∧ exec (.stackAccessTimeout k m) s = .fault (.noSuchInstance "stack")) ∧
  -- In a mode that serves no management commands Format Cocoon does nothing; without the role it is answered with the status
  -- of that check, and nothing is formatted.
  (∀ (s : State) (c : Cid) (w : Nat), (mgmtFull s = false → exec (.formatCocoon c w) s = .next s) ∧ (∀ e, mgmtFull s = true → hasRole s c 2 = some e → exec (.formatCocoon c w) s = .next (reply s c e)))

/-- The mirror partition, adoption, hand-back, line fetches and counter reservations between the two controllers.
What comes from the partner acts only while the mirror is open (the link up, in a mode that runs the data path, the cocoon
not protecting itself); a group or a chunk that does not exist is a fault. Rests on parts of R293, R296, R300, R306, R307,
R309, R312. -/
def Obligations.MirrorAndHandback : Prop :=
  -- A staging line of the partner is stored in its mirror page and clears a poison there; with the mirror closed nothing is
  -- stored.
  (∀ (s : State) (p : Nat) (b : Blk), p < pageCount → exec (.mirrorLineReceive p b) s = .next (if mirrorOpen s then flipHit (setMir s p { mirPg s p with blk := b, poison := false }) 17 (pageAddr true p false) else s)) ∧
  -- A mirror record whose CRC is right is held and echoed with its sequence number; one whose CRC is wrong is reported and not
  -- kept; with the mirror closed, or for a page that does not exist, neither it nor a line is stored.
  (∀ (s : State) (p x : Nat) (r : CommitRec) (b : Blk), (mirrorOpen s = true → p < pageCount → exec (.mirrorRecordReceive p r x) s = .next (if recCrc p r = x then tdmSend (setMir s p { mirPg s p with st := .held, rc := some r, unus := false }) (.tandem 4 [p, r.seq]) else writeEvent s { num := 0x0709, detail := [p] })) ∧ ((mirrorOpen s = false ∨ pageCount ≤ p) → exec (.mirrorRecordReceive p r x) s = .next s ∧ exec (.mirrorLineReceive p b) s = .next s)) ∧
  -- A mirror reset clears the held records of its group and nothing else. With the mirror closed neither it nor a hand-back
  -- acts; a group that does not exist, and a chunk that does not, is a fault.
  (∀ (s : State) (g ns : Nat) (ps : List PageMsg), (g < 2 → mirrorOpen s = true → exec (.mirrorResetReceive g) s = .next (s.coc.mir.foldl (fun t x => match x.2.rc with | some r => if r.group = g && x.2.st = .held then setMir t x.1 {} else t | none => t) s)) ∧ (g < 2 → mirrorOpen s = false → exec (.mirrorResetReceive g) s = .next s ∧ exec (.handbackPageReceive g ns ps) s = .next s ∧ exec (.handbackConfirmReceive g) s = .next s) ∧ (2 ≤ g → ∀ i ∈ [Instr.mirrorResetReceive g, .handbackPageReceive g ns ps, .handbackConfirmReceive g, .mirrorAdoptionDone g], exec i s = .fault (.noSuchInstance "group")) ∧ (4194304 ≤ ns → exec (.mapReloadDone ns) s = .fault (.noSuchInstance "chunk"))) ∧
  -- With a stripe slot free, the highest-ranked flush candidate that may start begins; with none, with no context free, in a
  -- mode that does not run the data path, or while the cocoon protects itself, nothing happens.
  (∀ (s : State) (n : Nat) (x : Cand), ((dataRuns s = false ∨ s.coc.protect = true) → exec .flushStripeStart s = .next s) ∧ (freeInternal s = none → exec .flushStripeStart s = .next s) ∧ (bestCand ((flushCands s).filter fun c => opStartable s c.op) = none → exec .flushStripeStart s = .next s) ∧ (dataRuns s = true → s.coc.protect = false → bestCand ((flushCands s).filter fun c => opStartable s c.op) = some x → freeInternal s = some n → exec .flushStripeStart s = .next (beginOp s n x.op))) ∧
  -- Adoption of a group not owned, or already adopted, changes nothing. Of an owned one the group's records of held pages are
  -- kept where they are complete and not outdated, and adopted; the others are discarded with their events; the sequence
  -- numbers go past what the partner had used, the adoption's event is written, and the group opens.
  (∀ (s : State) (g : Nat), g < 2 → ((grpOf s g).owned = false ∨ (grpOf s g).pagesDone = true → exec (.mirrorAdoptionDone g) s = .next s) ∧ ((grpOf s g).owned = true → (grpOf s g).pagesDone = false → ∃ t u k, exec (.mirrorAdoptionDone g) s = .next (openGroup (setGrp t g { grpOf t g with pagesDone := true, fromPartner := false }) g) ∧ t = writeEvent u { num := 0x070B, inst := g, detail := [g, k] })) ∧
  -- Orphan pages for a namespace that is awaited, with room for all, are taken in order and end its wait; otherwise they are
  -- refused whole.
  (∀ (s : State) (g ns : Nat) (ps : List PageMsg), (g < 2 ∧ mirrorOpen s = true) → exec (.handbackPageReceive g ns ps) s = .next (if (grpOf s g).owned = false ∨ (grpOf s g).await.contains ns = false ∨ ownFree s < ps.length then s else awaitEnd (noteOccupancy (ps.foldl takeHanded s)) g ns false)) ∧
  -- A confirmation clears every orphan page of the group, with their number in its event; with no orphan nothing happens.
  (∀ (s : State) (g : Nat) (ps : List Nat), (g < 2 ∧ mirrorOpen s = true) → ps = s.coc.own.filterMap (fun x => match x.2.rc with | some r => if r.group == g && x.2.orphan then some x.1 else none | none => none) → exec (.handbackConfirmReceive g) s = .next (if ps.isEmpty then s else writeEvent (noteOccupancy (ps.foldl (fun t p => setOwn t p {}) s)) { num := 0x070C, inst := g, detail := [g, ps.length] })) ∧
  -- A response to a fetch that is not outstanding does nothing; the partner's data repair a page's line and clear its poison,
  -- its record restores the record, and every read that waited goes on; without them the page is poisoned, or its record lost.
  (∀ (s : State) (p : Nat) (m : PageMsg) (x : Bool) (o : Option PageMsg), (s.coc.fetches.contains (p, x) = false → exec (.lineFetchResponse p x o) s = .next s) ∧ (s.coc.fetches.contains (p, x) = true → ∃ u, u = { s with coc := { s.coc with fetches := s.coc.fetches.filter (· != (p, x)) } } ∧ ((ownPg s p).st = .free → exec (.lineFetchResponse p x o) s = .next (resumeAll u .repair fun _ => true)) ∧ ((ownPg s p).st ≠ .free → (ownPg s p).unus = false → x = false → exec (.lineFetchResponse p x (some m)) s = .next (resumeAll (lineRepaired (setOwn u p { ownPg s p with blk := m.blk, poison := false }) (pageAddr false p false)) .repair fun _ => true)) ∧ ((ownPg s p).st ≠ .free → (ownPg s p).unus = false → x = true → exec (.lineFetchResponse p x (some m)) s = .next (resumeAll (lineRepaired (setOwn u p { ownPg s p with rc := some m.r }) (pageAddr false p true)) .repair fun _ => true)) ∧ ((ownPg s p).st ≠ .free → x = false → exec (.lineFetchResponse p x none) s = .next (resumeAll (setOwn u p { ownPg s p with poison := true }) .repair fun _ => true)) ∧ ((ownPg s p).st ≠ .free → x = true → exec (.lineFetchResponse p x none) s = .next (resumeAll (recordLost u p) .repair fun _ => true)) ∧ ((ownPg s p).st ≠ .free → (ownPg s p).unus = true → exec (.lineFetchResponse p x (some m)) s = .next (resumeAll (if 1 ≤ m.r.kind ∧ m.r.kind ≤ 3 then lineRepaired (unusBack u p m) (pageAddr false p true) else recordLost u p) .repair fun _ => true)))) ∧
  -- The partner's echo of the reservation that is awaited makes it usable and resumes who waited for counters; another echo
  -- does nothing; a timeout makes it usable alone; with none awaited neither does anything.
  (∀ (s : State) (k x y : Nat), ((ctrRun s k).await = some x → exec (.counterReserveEcho k x) s = .next (resumeAll (setRun s k { ctrRun s k with limit := x, await := none }) .counter fun c => c.ns == k) ∧ exec (.counterReserveTimeout k) s = .next (resumeAll (setRun s k { ctrRun s k with limit := x, await := none }) .counter fun c => c.ns == k)) ∧ ((ctrRun s k).await ≠ some y → exec (.counterReserveEcho k y) s = .next s) ∧ ((ctrRun s k).await = none → exec (.counterReserveTimeout k) s = .next s)) ∧
  -- A reloaded chunk-map entry is in force again, is reported and resumes the MAP steps that waited for it; an entry that was
  -- not reloading changes nothing.
  (∀ (s : State) (e : Nat), e < 4194304 → exec (.mapReloadDone e) s = .next (if s.xfm.reload.contains e then resumeAll (writeEvent { s with xfm := { s.xfm with reload := s.xfm.reload.filter (· != e) } } { num := 0x080C, detail := [e] }) .map fun c => (ctxChunks (writeEvent { s with xfm := { s.xfm with reload := s.xfm.reload.filter (· != e) } } { num := 0x080C, detail := [e] }) c).contains e else s)) ∧
  -- A stripe that reaches its age is noted once as aged, which makes it a flush candidate of class 5.
  (∀ (s : State) (e k : Nat), exec (.flushAgeExpiry e k) s = .next (if s.coc.aged.contains (e, k) = true then s else { s with coc := { s.coc with aged := s.coc.aged ++ [(e, k)] } }))

/-- Rebuilds of a bay, the chunk map, key rotation, the rekey pass and write-backs.
A bay, group, chunk or key slot that does not exist is a fault. Rests on parts of R334, R336, R338, R342, R346, R348. -/
def Obligations.RebuildsAndKeys : Prop :=
  -- An owned group's member bay whose drive is absent and that no rebuild has in hand is rebuilt onto the spare: at once, or
  -- after the running rebuild in bay order.
  (∀ (s : State) (b g t : Nat), (b < 64 ∧ groupOfBay s b = some g ∧ (grpOf s g).owned = true ∧ drivePresent s b = false ∧ bayIsMember s b = true) → (((rbOf s g).active && (rbOf s g).bay == b) = false ∧ s.xfm.rbWait.any (fun x => x.1 == b) = false ∧ spareFor s g = some t) → exec (.rebuildDelayExpiry b) s = .next (if (rbOf s g).active then { s with xfm := { s.xfm with rbWait := s.xfm.rbWait.filter (fun x => x.1 < b) ++ [(b, t)] ++ s.xfm.rbWait.filter (fun x => b < x.1) } } else rebuildBegin s g b t)) ∧
  -- With the bay in no group, the group not owned, the drive back, the bay no member, its rebuild running or waiting already,
  -- or no spare, nothing is started.
  (∀ (s : State) (b g : Nat), b < 64 → (groupOfBay s b = none → exec (.rebuildDelayExpiry b) s = .next s) ∧ (groupOfBay s b = some g → ((grpOf s g).owned = false ∨ drivePresent s b = true ∨ bayIsMember s b = false ∨ (rbOf s g).active = true ∧ (rbOf s g).bay = b ∨ s.xfm.rbWait.any (fun x => x.1 == b) = true ∨ spareFor s g = none) → exec (.rebuildDelayExpiry b) s = .next s) ∧ exec (.rebuildDelayExpiry (b + 576)) s = .fault (.noSuchInstance "bay")) ∧
  -- For a remote member with a Porpor queue pair of a path again the missing slots of the owned origin entries begin a rebuild
  -- in place; without one nothing is started.
  (∀ (s : State) (k : Nat), k < 512 → exec (.rebuildDelayExpiry (64 + k)) s = .next (if (porporQp s (2 * k)).isSome = true ∨ (porporQp s (2 * k + 1)).isSome = true then shelfReturned s k else s)) ∧
  -- Rebuild Control with OP 0 is Invalid Field where a bay is outside the group, 0xEE where the target has no drive or is a
  -- member already, 0xEA where the group is not owned, 0xE3 while one runs, and otherwise begins the rebuild and succeeds.
  (∀ (s : State) (c : Cid) (d g b t : Nat), (Manager s c 0 ∧ g = field d 0 1 ∧ b = field d 8 6 ∧ t = field d 16 6) → exec (.rebuildStart c d) s = .next (if groupOfBay s t ≠ some g ∨ groupOfBay s b ≠ some g then reply s c .invalidField else if drivePresent s t = false ∨ (t ≠ b ∧ bayIsMember s t = true) then reply s c (.vendor 0xEE) else if (grpOf s g).owned = false then reply s c (.vendor 0xEA) else if (rbOf s g).active = true then reply s c (.vendor 0xE3) else reply (rebuildBegin s g b t) c .success)) ∧
  -- Rebuild Control with OP 1 has the running rebuild of an owned group stop after the current stripe; with none running it
  -- only succeeds, and a group not owned is 0xEA.
  (∀ (s : State) (c : Cid) (d : Nat), Manager s c 0 → exec (.rebuildCancel c d) s = .next (if (grpOf s (field d 0 1)).owned = false then reply s c (.vendor 0xEA) else reply (if (rbOf s (field d 0 1)).active = true then setRb s (field d 0 1) { rbOf s (field d 0 1) with cancel := true } else s) c .success)) ∧
  -- Chunk Map Read answers a valid entry's 256 bytes and its version's low bits, and an invalid or absent one 0xE2.
  (∀ (s : State) (c : Cid) (d : Nat) (v : VEnt MapEnt), Manager s c 1 → (mapEnt s (field d 0 23) = some v → exec (.chunkMapRead c d) s = .next (if v.cur.valid then reply s c .success (v.ver % 65536) (mapBytes s v.cur) else reply s c (.vendor 0xE2))) ∧ (mapEnt s (field d 0 23) = none → exec (.chunkMapRead c d) s = .next (reply s c (.vendor 0xE2)))) ∧
  -- Key Rotate is 0xED while a previous key is kept, Invalid Field at the last epoch, 0xEA with the group not owned, and
  -- otherwise raises the epoch by one in the catalog with a fresh key and keeps the old key; the answer names the new epoch.
  (∀ (s : State) (c : Cid) (d : Nat) (n : NsRec) (k : KeyRec), (Manager s c 0 ∧ nsOf s (field d 0 16) = some n ∧ k = tget s.cat.keys {} (field d 0 16)) → exec (.keyRotate c d) s = .next (if k.prev.isSome then reply s c (.vendor 0xED) else if k.epoch = 0xFFFFFFFF then reply s c .invalidField else if (grpOf s n.group).owned = false then reply s c (.vendor 0xEA) else catChange (freshKey s).2 (some c) [.key (field d 0 16) { epoch := k.epoch + 1, cur := some (freshKey s).1, prev := k.cur.map fun x => (k.epoch, x) }] (k.epoch + 1) 3 (field d 0 16))) ∧
  -- Of a key slot with a previous key it is 0xED, whether its namespace stands or not; of one with neither it is 0xE2.
  (∀ (s : State) (c : Cid) (d : Nat), (Manager s c 0 ∧ nsOf s (field d 0 16) = none) → exec (.keyRotate c d) s = .next (if (tget s.cat.keys {} (field d 0 16)).prev.isSome then reply s c (.vendor 0xED) else reply s c (.vendor 0xE2))) ∧
  -- Once no record carries the previous epoch and no pass of the slot runs or waits, the pass of an owned namespace starts at
  -- chunk 0, marked in the catalog; a marked pass goes on where it was.
  (∀ (s : State) (k : Nat) (r : KeyRec) (p : Nat × Nat) (n : NsRec), (k < 65536 ∧ r = tget s.cat.keys {} k ∧ r.prev = some p ∧ nsOf s k = some n ∧ (grpOf s n.group).owned = true ∧ epochStaged s k p.1 = false) → ((∀ y z, IntOp.rekey k y z ∉ s.seq.queue) ∧ (∀ x ∈ s.seq.ctxs, ∀ y z, x.2.bind Ctx.op ≠ some (.rekey k y z))) → exec (.rekeyPassStart k) s = .next (if r.pass then rekeyChunk s k else rekeyChunk (catRecord { s with xfm := { s.xfm with bgPct := none } } [.key k { r with pass := true, done := 0 }] 3 k) k)) ∧
  -- With no previous key, namespace or owned group, a record still under the previous epoch, or a pass running or waiting,
  -- nothing changes.
  (∀ (s : State) (k : Nat) (p : Nat × Nat) (n : NsRec), k < 65536 → ((tget s.cat.keys {} k).prev = none ∨ nsOf s k = none → exec (.rekeyPassStart k) s = .next s) ∧ ((tget s.cat.keys {} k).prev = some p → nsOf s k = some n → (grpOf s n.group).owned = false ∨ epochStaged s k p.1 = true ∨ (∃ y z, IntOp.rekey k y z ∈ s.seq.queue) ∨ (∃ x ∈ s.seq.ctxs, ∃ y z, x.2.bind Ctx.op = some (.rekey k y z)) → exec (.rekeyPassStart k) s = .next s) ∧ exec (.rekeyPassStart (k + 65536)) s = .fault (.noSuchInstance "key slot")) ∧
  -- A write-back with no position still to be written on a member that takes writes ends; one with no such operation, or whose
  -- chunk is gone, changes nothing; every other ends, or waits for a free command slot as it is.
  (∀ (s : State) (e k r n : Nat) (c : Ctx) (x : MapEnt) (l : List Nat), ((s.seq.ctxs.find? fun y => (y.2.bind Ctx.op) == some (.writeback e k r)) = some (n, some c) → chunkEnt s e = some x → (l.filter fun p => decide (p < x.k + x.m) && memWritable s e k x (memberAt x.k x.m k p)) = [] → exec (.reconWriteback e k r l) s = .next (finishOp (rcAdd s 0x90024 0 0) n c (.writeback e k r))) ∧ ((s.seq.ctxs.find? fun y => (y.2.bind Ctx.op) == some (.writeback e k r)) = none → exec (.reconWriteback e k r l) s = .next s) ∧ (chunkEnt s e = none → exec (.reconWriteback e k r l) s = .next s) ∧ (exec (.reconWriteback e k r l) s = .next s ∨ ∃ t m d, exec (.reconWriteback e k r l) s = .next (finishOp t m d (.writeback e k r)))) ∧
  -- A position still to be written whose member is local and writable, with a free command slot on its ready spoke, gets one
  -- drive write of that row; the corrected blocks are counted, the event names them, and the operation ends.
  (∀ (s : State) (e k r n q : Nat) (c : Ctx) (x : MapEnt), ((s.seq.ctxs.find? fun y => (y.2.bind Ctx.op) == some (.writeback e k r)) = some (n, some c) ∧ chunkEnt s e = some x) → (q < x.k + x.m ∧ memWritable s e k x (memberAt x.k x.m k q) = true ∧ isRemote (memOf x (memberAt x.k x.m k q)) = false) → (issueDrive s (memOf x (memberAt x.k x.m k q)).bay .flush { opcode := 0x01, bytes := 4160 } [driveLba (memOf x (memberAt x.k x.m k q)).start k r, 2 ^ r]).2 = true → exec (.reconWriteback e k r [q]) s = .next (finishOp (writeEvent (rcAdd (issueDrive s (memOf x (memberAt x.k x.m k q)).bay .flush { opcode := 0x01, bytes := 4160 } [driveLba (memOf x (memberAt x.k x.m k q)).start k r, 2 ^ r]).1 0x90024 0 1) { num := 0x0805, detail := [e, k, r, q] }) n c (.writeback e k r))) ∧
  -- With a position whose member is local and no free command slot on its spoke the write-back waits; one whose member is on
  -- another shelf is sent there as a strip write, and the operation ends.
  (∀ (s : State) (e k r n q : Nat) (c : Ctx) (x : MapEnt), ((s.seq.ctxs.find? fun y => (y.2.bind Ctx.op) == some (.writeback e k r)) = some (n, some c) ∧ chunkEnt s e = some x) → (q < x.k + x.m ∧ memWritable s e k x (memberAt x.k x.m k q) = true) → (isRemote (memOf x (memberAt x.k x.m k q)) = false → (issueDrive s (memOf x (memberAt x.k x.m k q)).bay .flush { opcode := 0x01, bytes := 4160 } [driveLba (memOf x (memberAt x.k x.m k q)).start k r, 2 ^ r]).2 = false → exec (.reconWriteback e k r [q]) s = .next s) ∧ (isRemote (memOf x (memberAt x.k x.m k q)) = true → ∃ u, u = fragSend s { plainFrag 1 (x.place % 65536) (memberAt x.k x.m k q) ((memOf x (memberAt x.k x.m k q)).bay - 64) [] with chunk := e, stripe := k, lba := driveLba (memOf x (memberAt x.k x.m k q)).start k 0, rows := 2 ^ r } [] ∧ exec (.reconWriteback e k r [q]) s = .next (finishOp (writeEvent (rcAdd u 0x90024 0 1) { num := 0x0805, detail := [e, k, r, q] }) n c (.writeback e k r)))) ∧
  -- Where management commands are not served these do nothing; without the role they get that status alone.
  (∀ (s : State) (c : Cid) (d : Nat) (e : Status), ∀ x ∈ [(Instr.rebuildStart c d, 0), (Instr.rebuildCancel c d, 0), (Instr.chunkMapRead c d, 1), (Instr.keyRotate c d, 0)], (mgmtFull s = false → exec x.1 s = .next s) ∧ (mgmtFull s = true → hasRole s c x.2 = some e → exec x.1 s = .next (reply s c e)))

/-- What a controller does with the requests of another controller of its federation.
A request acts once a whole message with an immediate of operation 1 lies untaken on a Porpor queue pair that receives; the
row's bytes are the slot the immediate names, read as the header of R363. In u that message is taken. Rests on parts of
R354, R357, R362, R363, R364, R365, R366, R371. -/
def Obligations.HostedRequests : Prop :=
  -- A STRIP_WRITE or STRIP_READ whose checks pass and whose bay holds a ready drive of a group this controller hosts is
  -- entered as a hosted request with its message, and its operation starts.
  (∀ (s u : State) (q n : Nat) (d : PorporIn) (m : PorporMsg), (q < 65536 ∧ porporTake s q 1 = some u ∧ m = readMsg d) → (hostedOf u q n = none ∧ hostCheck u q m true true = 0 ∧ drivePresent u (hostBay u m) = true ∧ hosts u m.group = true) → exec (.stripWrite q n d) s = .next (startInternal { u with fed := { u.fed with hosted := u.fed.hosted ++ [{ qp := q, slot := n, spoke := hostBay u m, lba := m.lba, rows := m.rows, retried := false, reading := false, msg := m }] } } (.inbound q n)) ∧ exec (.stripRead q n d) s = .next (startInternal { u with fed := { u.fed with hosted := u.fed.hosted ++ [{ qp := q, slot := n, spoke := hostBay u m, lba := m.lba, rows := m.rows, retried := false, reading := true, msg := m }] } } (.inbound q n))) ∧
  -- One that fails a check is refused with the check's code; one whose drive is absent with code 6, one of a group not hosted
  -- here with code 7; a slot still being served is not served again.
  (∀ (s u : State) (q n k : Nat) (d : PorporIn) (m : PorporMsg) (rd : Bool) (i : Instr), (q < 65536 ∧ porporTake s q 1 = some u ∧ m = readMsg d ∧ i = (if rd then .stripRead q n d else .stripWrite q n d)) → (hostedOf u q n = none → hostCheck u q m true (!rd) = k → k ≠ 0 → exec i s = .next (porporAnswer u q n 3 k)) ∧ (hostedOf u q n = none → hostCheck u q m true (!rd) = 0 → drivePresent u (hostBay u m) = false → exec i s = .next (porporAnswer u q n 3 6)) ∧ (hostedOf u q n = none → hostCheck u q m true (!rd) = 0 → drivePresent u (hostBay u m) = true → hosts u m.group = false → exec i s = .next (porporAnswer u q n 3 7)) ∧ ((hostedOf u q n).isSome = true → exec i s = .next u)) ∧
  -- An ALLOC whose checks pass takes the extent and the entry that the rules choose, records the lease and answers ALLOC_REPLY
  -- with the extent, or is refused with code 5 for want of room, with code 7 where the group is not hosted here, or with the
  -- code of the check it fails.
  (∀ (s u : State) (q n b a e k : Nat) (d : PorporIn) (m : PorporMsg) (sz : Nat), (q < 65536 ∧ porporTake s q 1 = some u ∧ m = readMsg d ∧ sz = (m.params[2]?).getD 0 * (m.params[3]?).getD 0) → (hostCheck u q m false false = k → k ≠ 0 → exec (.alloc q n d) s = .next (porporAnswer u q n 3 k)) ∧ (hostCheck u q m false false = 0 → chooseExtent u m.group sz = some (b, a) → freePlace u = some e → hosts u m.group = false → exec (.alloc q n d) s = .next (porporAnswer u q n 3 7)) ∧ (hostCheck u q m false false = 0 → chooseExtent u m.group sz = some (b, a) → freePlace u = some e → hosts u m.group = true → exec (.alloc q n d) s = .next (porporReply (tabUpdate u (.place e { valid := true, hosted := true, k := (m.params[0]?).getD 0, m := (m.params[1]?).getD 0, group := m.group, chunks := (m.params[2]?).getD 0, stripes := (m.params[3]?).getD 0, origin := m.origin, oent := m.entry, slots := [{ shelf := ownShelf u, bay := b, start := a }] })) q 5 { m with reqSlot := n, params := [b, a] })) ∧ (hostCheck u q m false false = 0 → (chooseExtent u m.group sz = none ∨ freePlace u = none) → exec (.alloc q n d) s = .next (porporAnswer u q n 3 5))) ∧
  -- A LEASE_FREE whose checks pass drops the hosted entry of that origin and accepts; without such an entry it is refused with
  -- code 3, and one that fails a check with that check's code.
  (∀ (s u : State) (q n k : Nat) (d : PorporIn) (m : PorporMsg) (x : Nat × PlaceEnt), (q < 65536 ∧ porporTake s q 1 = some u ∧ m = readMsg d) → (hostCheck u q m false false = k → k ≠ 0 → exec (.leaseFree q n d) s = .next (porporAnswer u q n 3 k)) ∧ (hostCheck u q m false false = 0 → hostedEntry u m = some x → exec (.leaseFree q n d) s = .next (porporAnswer (dropPlace u x.1) q n 2 0)) ∧ (hostCheck u q m false false = 0 → hostedEntry u m = none → exec (.leaseFree q n d) s = .next (porporAnswer u q n 3 3))) ∧
  -- With no such message, as on a queue pair that is not a Porpor one in RTR or RTS, nothing happens, and a queue pair that
  -- does not exist is a fault.
  (∀ (s : State) (q n : Nat) (d : PorporIn), ∀ i ∈ [fun q => Instr.stripWrite q n d, fun q => .stripRead q n d, fun q => .alloc q n d, fun q => .leaseFree q n d], (q < 65536 → porporTake s q 1 = none → exec (i q) s = .next s) ∧ (65536 ≤ q → exec (i q) s = .fault (.noSuchInstance "queue pair")) ∧ (porporOn s q = false → porporTake s q 1 = none))

/-- What the answers to a request of this controller do, and its timeout.
An answer acts once its signal lies untaken on a Porpor queue pair that receives, in u taken (operation 2 for an accept, 3
for a refusal, 4 for a reply); fedSettle then sends what waits for a slot. Rests on parts of R357, R362, R363, R366, R368,
R369, R371. -/
def Obligations.FederationAnswers : Prop :=
  -- With no injector at the point, an accept ends the request of its queue pair and slot; one for a slot with no request
  -- outstanding changes nothing more. With an injector it is dropped, delayed or held as that injector does.
  (∀ (s u : State) (q n : Nat), (q < 65536 ∧ porporTake s q 2 = some u) → (∀ f, injectorAt u 8 (qpOf u q).member = none → fragAt u q n = some f → exec (.porporAccept q n) s = .next (fedSettle (fragAccept u f))) ∧ (injectorAt u 8 (qpOf u q).member = none → fragAt u q n = none → exec (.porporAccept q n) s = .next u) ∧ exec (.porporAccept q n) s = .next (atPoint u 8 (qpOf u q).member (.accept q n) fun t => porporAccept t q n)) ∧
  -- With no injector at the point, a refusal with code 1 leads to the other controller, unless both have been tried, and
  -- another code to one resend of a STRIP_WRITE and else to the failure; one for a slot with no request outstanding changes
  -- nothing more. With an injector it is dropped, delayed or held as that injector does.
  (∀ (s u : State) (q n k : Nat), (q < 65536 ∧ porporTake s q 3 = some u) → (∀ f, injectorAt u 8 (qpOf u q).member = none → fragAt u q n = some f → exec (.porporRefuse q n k) s = .next (fedSettle (if k = 1 then (if f.tried.contains (otherSide f) then fragFails u f k else toOther u f) else if f.typ = 1 ∧ f.refused = 0 then fragResend u { f with refused := 1 } f.side (fragFields u f) else fragFails u f k))) ∧ (injectorAt u 8 (qpOf u q).member = none → fragAt u q n = none → exec (.porporRefuse q n k) s = .next u) ∧ exec (.porporRefuse q n k) s = .next (atPoint u 8 (qpOf u q).member (.refuse q n k) fun t => porporRefuse t q n k)) ∧
  -- With no such message nothing happens, and a queue pair that does not exist is a fault.
  (∀ (s : State) (q n k : Nat) (d : PorporIn), ∀ x ∈ [(fun q => Instr.porporAccept q n, 2), (fun q => .porporRefuse q n k, 3), (fun q => .readData q d, 4), (fun q => .allocReply q d, 4)], (q < 65536 → porporTake s q x.2 = none → exec (x.1 q) s = .next s) ∧ (65536 ≤ q → exec (x.1 q) s = .fault (.noSuchInstance "queue pair"))) ∧
  -- A READ_DATA with the TAG and slot of an outstanding read ends it and hands its rows, readable where its first parameter is
  -- 0, to the context that waits; one that matches no read changes nothing more.
  (∀ (s u : State) (q : Nat) (d : PorporIn) (m : PorporMsg) (f : Frag), (q < 65536 ∧ porporTake s q 4 = some u ∧ m = readMsg d) → (replyFrag u q m 2 = some f → exec (.readData q d) s = .next (fedSettle (remoteRead (fragDrop u f) f ((m.params[0]?).getD 0 == 0)))) ∧ (replyFrag u q m 2 = none → exec (.readData q d) s = .next u)) ∧
  -- An ALLOC_REPLY for a Lease Create under way records that member's extent, for a spare asked for of an entry that stands
  -- begins the member's rebuild there, and for an entry no longer there frees the extent again; one that matches no request
  -- changes nothing more.
  (∀ (s u : State) (q : Nat) (d : PorporIn) (m : PorporMsg) (f : Frag) (l : LeaseOp), (q < 65536 ∧ porporTake s q 4 = some u ∧ m = readMsg d) → (replyFrag u q m 4 = none → exec (.allocReply q d) s = .next u) ∧ (replyFrag u q m 4 = some f → leaseOf (fragDrop u f) f.entry = some l → exec (.allocReply q d) s = .next (fedSettle (leaseGot (fragDrop u f) l f.member f.shelf ((m.params[0]?).getD 0) ((m.params[1]?).getD 0)))) ∧ (replyFrag u q m 4 = some f → leaseOf (fragDrop u f) f.entry = none → exec (.allocReply q d) s = .next (fedSettle (if (placeEnt (fragDrop u f) f.entry).any (fun v => v.cur.valid) then spareTaken (fragDrop u f) f ((m.params[0]?).getD 0) ((m.params[1]?).getD 0) else sendFree (fragDrop u f) f.entry f.shelf)))) ∧
  -- A request that times out while the accept arrives in the same cycle is accepted; else it goes to the other controller of
  -- its shelf, or fails once both have been tried or an ALLOC of a Lease Create got no answer; a request that is held or gone
  -- is not touched.
  (∀ (s : State) (t : Nat) (f : Frag) (b : Bool), ((s.fed.frags.find? fun f => f.tag == t) = none → exec (.fragTimeout t b) s = .next s) ∧ ((s.fed.frags.find? fun f => f.tag == t) = some f → fragHeld f = true → exec (.fragTimeout t b) s = .next s) ∧ ((s.fed.frags.find? fun f => f.tag == t) = some f → fragHeld f = false → exec (.fragTimeout t true) s = .next (fedSettle (fragAccept s f)) ∧ exec (.fragTimeout t false) s = .next (fedSettle (if (f.typ = 4 ∧ (leaseOf s f.entry).isSome = true) ∨ f.tried.contains (otherSide f) = true then fragFails s f 0 else toOther s f))))

/-- Peer windows, the members of the federation and its leases.
The management commands ask for their role, in the modes that serve them. Rests on parts of R353, R357, R359, R360, R373,
R375. -/
def Obligations.FederationManagement : Prop :=
  -- A write of COC_PWIN_CTL without APPLY stores the shadow control; with APPLY a shadow range that is empty, beyond the
  -- window space or meeting another window's is rejected with its event, and otherwise the window's instar is bumped and the
  -- shadow becomes active at once or when a version slot is free, or with the bump that the spacing rule holds back. In Held
  -- and Boot nothing happens.
  (∀ (s : State) (v : Word) (w : Nat) (x : PWin), (w = field (rwGet s 0x80200 0) 0 10 ∧ x = { winOf s w with sCtl := field v.toNat 0 13 }) → (authMode s = false → exec (.peerWindowApply v) s = .next s) ∧ (authMode s = true → bitAt v.toNat 31 = false → exec (.peerWindowApply v) s = .next (setWin s w x)) ∧ (authMode s = true → bitAt v.toNat 31 = true → (x.sLimit ≤ x.sBase ∨ 131072 < x.sLimit ∨ (winTaken (setWin s w x) w).any (fun r => rangesMeet x.sBase x.sLimit r.1 r.2) = true) → exec (.peerWindowApply v) s = .next (writeEvent (setWin (setWin s w x) w { x with rejected := true }) { num := 0x0720, inst := w, detail := [w] })) ∧ (authMode s = true → bitAt v.toNat 31 = true → x.sBase < x.sLimit → x.sLimit ≤ 131072 → (winTaken (setWin s w x) w).any (fun r => rangesMeet x.sBase x.sLimit r.1 r.2) = false → ∃ i t, i = bumpInstar x.instar s.now (ticksMs 1) ∧ t = setWin (setWin s w x) w { x with rejected := false, instar := i, kept := x.kept ++ keptSlots (setWin s w x) w x x.sBase x.sLimit } ∧ exec (.peerWindowApply v) s = .next (if i.val = x.instar.val then t else tabUpdate t (.win w)))) ∧
  -- Federation Member Set is 0xF2 with federation off, Invalid Field for a malformed entry, and otherwise the catalog change
  -- of that one member, which acts at once where this controller writes the catalog itself.
  (∀ (s : State) (c : Cid) (d : List Byte) (k : Nat) (m : FedMember), Manager s c 0 → (fedOn s = false → exec (.federationMemberSet c d) s = .next (reply s c (.vendor 0xF2))) ∧ (fedOn s = true → memberEntry d = none → exec (.federationMemberSet c d) s = .next (reply s c .invalidField)) ∧ (fedOn s = true → memberEntry d = some (k, m) → (catWay s = .alone ∨ catWay s = .sideA) → exec (.federationMemberSet c d) s = .next (catFollowAll s (catChange s (some c) [.member k m] 0 4 k) [.member k m])) ∧ (fedOn s = true → memberEntry d = some (k, m) → catWay s ≠ .alone → catWay s ≠ .sideA → exec (.federationMemberSet c d) s = .next (catChange s (some c) [.member k m] 0 4 k))) ∧
  -- Lease Create checks, in this order, federation (0xF2), the geometry and the shelves named (Invalid Field), that each is a
  -- member in service (0xF0), that no shelf is named twice (Invalid Field), a free entry (0xE0) and the group (0xEA).
  (∀ (s : State) (c : Cid) (a b k m : Nat) (d : List Byte) (l : List Nat), (Manager s c 0 ∧ k = field a 8 8 ∧ m = field a 16 8 ∧ l = shelfIds d 0 (k + m)) → (fedOn s = false ∨ k < 2 ∨ 28 < k ∨ m < 1 ∨ 4 < m ∨ field b 0 16 = 0 ∨ l.contains 0xFFFF = true ∨ (l ++ (shelfIds d 64 4).filter (· != 0xFFFF)).any (fun h => (memberOf s h).state != 1) = true ∨ l.eraseDups.length ≠ l.length ∨ freePlace s = none ∨ (grpOf s (field a 0 1)).owned = false) → exec (.leaseCreate c a b d) s = .next (reply s c (if fedOn s = false then .vendor 0xF2 else if k < 2 ∨ 28 < k ∨ m < 1 ∨ 4 < m ∨ field b 0 16 = 0 ∨ l.contains 0xFFFF = true then .invalidField else if (l ++ (shelfIds d 64 4).filter (· != 0xFFFF)).any (fun h => (memberOf s h).state != 1) = true then .vendor 0xF0 else if l.eraseDups.length ≠ l.length then .invalidField else if freePlace s = none then .vendor 0xE0 else .vendor 0xEA))) ∧
  -- With all of them right, and none of the shelves its own, it enters the lease in the free entry and sends an ALLOC to each
  -- shelf, in slot order.
  (∀ (s : State) (c : Cid) (a b k m e : Nat) (d : List Byte) (l sp : List Nat), (Manager s c 0 ∧ k = field a 8 8 ∧ m = field a 16 8 ∧ l = shelfIds d 0 (k + m) ∧ sp = (shelfIds d 64 4).filter (· != 0xFFFF)) → (fedOn s = true ∧ 2 ≤ k ∧ k ≤ 28 ∧ 1 ≤ m ∧ m ≤ 4 ∧ field b 0 16 ≠ 0 ∧ l.contains 0xFFFF = false ∧ (l ++ sp).any (fun h => (memberOf s h).state != 1) = false ∧ l.eraseDups.length = l.length ∧ freePlace s = some e ∧ (grpOf s (field a 0 1)).owned = true ∧ l.contains (ownShelf s) = false) → ∃ t, t = tabUpdate s (.place e { valid := true, k := k, m := m, group := field a 0 1, chunks := field b 0 16, stripes := stripesOf k, origin := ownMember s, oent := e, spares := sp, slots := l.map fun h => { shelf := h } }) ∧ exec (.leaseCreate c a b d) s = .next (l.zipIdx.foldl (fun u i => fragSend u (plainFrag 4 e i.2 i.1 []) [k, m, field b 0 16, stripesOf k]) { t with fed := { t.fed with leases := t.fed.leases ++ [⟨c, e, l, [], none⟩] } })) ∧
  -- With its own shelf among them and no extent to take there it is 0xF1, with its event; with one it takes it as the extent
  -- of that slot, and sends an ALLOC to each other shelf.
  (∀ (s : State) (c : Cid) (a b k m e : Nat) (d : List Byte) (l sp : List Nat), (Manager s c 0 ∧ k = field a 8 8 ∧ m = field a 16 8 ∧ l = shelfIds d 0 (k + m) ∧ sp = (shelfIds d 64 4).filter (· != 0xFFFF)) → (fedOn s = true ∧ 2 ≤ k ∧ k ≤ 28 ∧ 1 ≤ m ∧ m ≤ 4 ∧ field b 0 16 ≠ 0 ∧ l.contains 0xFFFF = false ∧ (l ++ sp).any (fun h => (memberOf s h).state != 1) = false ∧ l.eraseDups.length = l.length ∧ freePlace s = some e ∧ (grpOf s (field a 0 1)).owned = true ∧ l.contains (ownShelf s) = true) → (chooseExtent s (field a 0 1) (field b 0 16 * stripesOf k) = none → exec (.leaseCreate c a b d) s = .next (reply (writeEvent s { num := 0x0824, inst := e, detail := [ownShelf s, 5] }) c (.vendor 0xF1))) ∧ (∀ y z, chooseExtent s (field a 0 1) (field b 0 16 * stripesOf k) = some (y, z) → ∃ t, t = tabUpdate s (.place e { valid := true, k := k, m := m, group := field a 0 1, chunks := field b 0 16, stripes := stripesOf k, origin := ownMember s, oent := e, spares := sp, slots := l.map fun h => { shelf := h } }) ∧ exec (.leaseCreate c a b d) s = .next (l.zipIdx.foldl (fun u i => if i.1 = ownShelf u then ((leaseOf u e).map fun x => leaseGot u x i.2 i.1 y z).getD u else fragSend u (plainFrag 4 e i.2 i.1 []) [k, m, field b 0 16, stripesOf k]) { t with fed := { t.fed with leases := t.fed.leases ++ [⟨c, e, l, [], none⟩] } }))) ∧
  -- Lease Read answers a valid entry that no Lease Create is still building, with its version, and else, as of an entry that
  -- never was, 0xE2.
  (∀ (s : State) (c : Cid) (d : Nat), Manager s c 1 → (∀ v, placeEnt s (field d 0 16) = some v → exec (.leaseRead c d) s = .next (if v.cur.valid = true ∧ leaseOf s (field d 0 16) = none then reply s c .success (v.ver % 65536) (placeBytes v.cur) else reply s c (.vendor 0xE2))) ∧ (placeEnt s (field d 0 16) = none → exec (.leaseRead c d) s = .next (reply s c (.vendor 0xE2)))) ∧
  -- Lease Release of an origin entry that no chunk uses sends a LEASE_FREE to every other shelf of it and drops the entry; one
  -- in use is 0xE3, and no such origin entry is 0xE2.
  (∀ (s : State) (c : Cid) (d e : Nat), (Manager s c 0 ∧ e = field d 0 16) → (∀ v, placeEnt s e = some v → exec (.leaseRelease c d) s = .next (if v.cur.valid = false ∨ v.cur.hosted = true ∨ (leaseOf s e).isSome = true then reply s c (.vendor 0xE2) else if (fedChunks s e).isEmpty = false then reply s c (.vendor 0xE3) else reply (dropPlace (v.cur.slots.foldl (fun t q => if q.shelf = ownShelf t then t else sendFree t e q.shelf) s) e) c .success)) ∧ (placeEnt s e = none → exec (.leaseRelease c d) s = .next (reply s c (.vendor 0xE2)))) ∧
  -- Where management commands are not served these do nothing; without the role they get that status alone.
  (∀ (s : State) (c : Cid) (a b : Nat) (d : List Byte) (e : Status), ∀ x ∈ [(Instr.federationMemberSet c d, 0), (Instr.leaseCreate c a b d, 0), (Instr.leaseRead c a, 1), (Instr.leaseRelease c a, 0)], (mgmtFull s = false → exec x.1 s = .next s) ∧ (mgmtFull s = true → hasRole s c x.2 = some e → exec x.1 s = .next (reply s c e)))

/-- The refresh of PFC, the end of a multicast, buckets, the leak audit, shapers, policers and the measurement select.
Each row answers a next state for every context, cell and value; a queue or a bucket that does not exist is a fault. Rests
on parts of R377, R380, R381, R386, R388, R392, R393, R399. -/
def Obligations.SwitchTimers : Prop :=
  -- A queue above XOFF sends its PFC frame again, any other sends nothing; a priority or a sub-port that does not exist is a
  -- fault.
  (∀ (s : State) (b p : Nat), (b < 32 → p < 8 → exec (.pfcXoffRefresh b p) s = .next (if (ingOf s b p).xoff = true then sendPfc s b p true else s)) ∧ ((32 ≤ b ∨ 8 ≤ p) → ∃ m, exec (.pfcXoffRefresh b p) s = .fault (.noSuchInstance m))) ∧
  -- Of a record that does not wait for that destination nothing changes; when the destination accepted in the same cycle the
  -- acceptance is applied. Otherwise the timeout is counted: the tandem as destination degrades the group and ends its echo
  -- waits, while a cocoon stack as destination fails; either then counts as done for the record, whose cells are freed when it
  -- was the last one.
  (∀ (s : State) (n : Nat) (c : Ctx) (b : Bool), ctxOf s n = some c → (mcastWaits c (if b then 2 else 1) = false → ∀ a, exec (.mcastDestTimeout b n a) s = .next s) ∧ (mcastWaits c (if b then 2 else 1) = true → exec (.mcastDestTimeout b n true) s = .next (mcastDone s n c (if b then 2 else 1))) ∧ (mcastWaits c (if b then 2 else 1) = true → ∃ t, t = (if b then mcastTandemFail s n c else stackFail (rcAdd s 0x4002C 0 1) (field (pageAddr false (c.pages.headD 0) false) 12 1)) ∧ (∀ d, ctxOf t n = some d → exec (.mcastDestTimeout b n false) s = .next (mcastDone t n d (if b then 2 else 1))) ∧ (ctxOf t n = none → exec (.mcastDestTimeout b n false) s = .next t))) ∧
  -- A destination that is done with a record leaves it with the other still wanted, or, as the last, frees its cells.
  (∀ (s : State) (n d need got : Nat) (c : Ctx), c.mcast = some (need, got) → (need &&& (got ||| d) = need → mcastDone s n c d = setCtx (freeCells s c.cells) n (some { c with cells := 0, mcast := none })) ∧ (need &&& (got ||| d) ≠ need → mcastDone s n c d = setCtx s n (some { c with mcast := some (need, got ||| d) }))) ∧
  -- Of a context that is gone nothing changes.
  (∀ (s : State) (n : Nat) (a b : Bool), ctxOf s n = none → exec (.mcastDestTimeout a n b) s = .next s) ∧
  -- A bucket that is away from its initial member, idle for REBAL_IDLE_US and with that member up goes back to it; any other,
  -- and one that was never placed, stays; one that does not exist is a fault.
  (∀ (s : State) (b : Nat), (b < 4096 → tget s.swc.derail none b = none → exec (.bucketReturn b) s = .next s) ∧ (∀ e, b < 4096 → tget s.swc.derail none b = some e → exec (.bucketReturn b) s = .next (if e.cur.sub ≠ e.cur.init ∧ (subOf s e.cur.init).up = true ∧ tget s.swc.used 0 b + rebalIdle s ≤ s.now then tabUpdate s (.derail b { e.cur with sub := e.cur.init }) else s)) ∧ (4096 ≤ b → exec (.bucketReturn b) s = .fault (.noSuchInstance "bucket"))) ∧
  -- A pass of the leak audit counts, marks the ownerless cells found for the first time, and reclaims, counts and reports
  -- those already marked, each to the pool its number stands in (DESIGN CHOICE, log 74).
  (∀ (s : State) (l m : List (Nat × Nat)) (t : State), (m = l.filter (fun x => s.swc.marked.contains x.1) ∧ t = { s with swc := { s.swc with passes := min 65535 (s.swc.passes + 1), marked := (l.filter fun x => !s.swc.marked.contains x.1).map Prod.fst } }) → (m = [] → exec (.leakAuditPass l) s = .next t) ∧ ∀ x r, m = x :: r → exec (.leakAuditPass l) s = .next (writeEvent (rcAdd (m.foldl (fun u y => reclaimCell u y.1) t) 0x40030 0 m.length) { num := 0x0305, detail := [m.length, x.2] })) ∧
  -- Every tenant's bucket is refilled by one microsecond's share up to its depth, and a tenant that was stopped and may send
  -- again reopens; the tenants are taken in the order of their numbers.
  (∀ (s : State), exec .shaperRefill s = .next (s.cat.vss.foldl (fun t x => match x.2 with | some r => refillOne t x.1 r | none => t) s)) ∧
  -- Every policer in force loses one microsecond's share of its debt.
  (∀ (s : State), exec .policerRefill s = .next ((List.range (polCount s)).foldl (fun t i => { t with sch := { t.sch with polDebt := tput t.sch.polDebt 0 i (tget t.sch.polDebt 0 i - 128 * polPar t i 8 4) } }) s)) ∧
  -- A write of SCH_SAMPLE_ADDR selects the queue and clears the ten measurements; a value that names an egress class of 4 or
  -- more is ignored.
  (∀ (s : State) (v : Word), exec (.schSampleSelect v) s = .next (if bitAt v.toNat 0 = true ∧ 4 ≤ field v.toNat 6 3 then s else { rwPut s 0x50040 0 (v.toNat % 512) with regs := { (rwPut s 0x50040 0 (v.toNat % 512)).regs with rc := ([0x50048, 0x5004C] ++ (List.range 8).map fun i => 0x50050 + 4 * i).foldl (fun t o => tput t 0 (rk o 0) 0) (rwPut s 0x50040 0 (v.toNat % 512)).regs.rc } }))

/-- The scan frame, the link of a spoke, containment and the button.
p is the record of spoke b; a spoke of number 64 or more is a fault. Rests on parts of R404, R406, R407, R408, R409, R410,
R412, R414, R422, R428. -/
def Obligations.SpokeLink : Prop :=
  -- A scan frame counts, samples the presence and button of every bay in order, and shifts out the indicators of the bays
  -- owned; while the frame is not scanned nothing happens.
  (∀ (s : State) (l m : List Nat), exec (.bayScanFrame l m) s = .next (if s.spk.scanning = false then s else emit ((List.range 64).foldl (fun t b => scanBay t l m b) { s with spk := { s.spk with frames := (s.spk.frames + 1) % 65536 } }) (.scan (((List.range 64).filter (ownsBay ((List.range 64).foldl (fun t b => scanBay t l m b) { s with spk := { s.spk with frames := (s.spk.frames + 1) % 65536 } }))).flatMap (litOf ((List.range 64).foldl (fun t b => scanBay t l m b) { s with spk := { s.spk with frames := (s.spk.frames + 1) % 65536 } })))))) ∧
  -- A bay whose samples agree with what stands for it, or that differs but not yet for the filter's samples, only counts; one
  -- that differs for that many samples changes: a presence change acts, and a button pressed or let go is taken over.
  (∀ (s : State) (l m : List Nat) (b : Nat) (p q : Spoke), (p = spkOf s b ∧ q = { p with presCnt := if l.contains b = p.present then 0 else p.presCnt + 1, btnCnt := if m.contains b = p.button then 0 else p.btnCnt + 1 }) → (q.presCnt < scanFilter s ∨ q.presCnt = 0) → (q.btnCnt < scanFilter s ∨ q.btnCnt = 0) → scanBay s l m b = setSpk s b q) ∧
  -- A link that does not come up in Training retrains once and then fails; in another state nothing happens.
  (∀ (s : State) (b : Nat) (p : Spoke), (b < 64 ∧ p = spkOf s b) → exec (.linkUpTimeout b) s = .next (if p.state ≠ .training then s else if p.tries = 0 then emit (setSpk s b { p with tries := 1 }) (.drive b 0x101 []) else spkFail s b 0x0902)) ∧
  -- Outside Safe, at a speed and width the spoke trains to, DL_Active moves Training to Initializing with the speed and width,
  -- its event and the drive's bring-up, a second try being reported as a transient; it starts the bring-up of a Resetting
  -- spoke again and lifts its fence; a spoke in another state does nothing, nor does a link in Safe or at another speed or
  -- width.
  (∀ (s : State) (b g w : Nat) (p : Spoke), (b < 64 ∧ p = spkOf s b) → (s.glb.mode ≠ .safe → spkTrains s b g w = true → p.state = .training → ∃ t, t = writeEvent (w1cSet (setSpk s b { p with state := .initializing, gts := g, width := w, dl := true }) 0xA0018 b 0x100) { num := 0x0901, inst := b, detail := [b, g, w] } ∧ exec (.spokeLinkUp b g w) s = .next (startBring (if p.tries = 0 then t else transient t 9 b 1 0x0902) b)) ∧ (s.glb.mode ≠ .safe → spkTrains s b g w = true → p.state = .resetting → exec (.spokeLinkUp b g w) s = .next (startBring (writeEvent (setSpk s b { p with gts := g, width := w, dl := true, fenced := false }) { num := 0x0901, inst := b, detail := [b, g, w] }) b)) ∧ ((s.glb.mode = .safe ∨ spkTrains s b g w = false ∨ p.state ≠ .training ∧ p.state ≠ .resetting) → exec (.spokeLinkUp b g w) s = .next s)) ∧
  -- DL_Down or an uncorrected error contains a port that trains, initializes, is ready or resets: its event with the trigger,
  -- the spoke instar, the state Contained with the number of slots it had in use, every command slot reclaimed, and the DPC
  -- bit of its status; a reset under way is abandoned but for trigger 3; another port does nothing. A corrected error (trigger
  -- 4; that it comes with this row is the model's choice, log 44) is only counted.
  (∀ (s : State) (b k : Nat) (p : Spoke), (b < 64 ∧ p = spkOf s b ∧ k ≠ 4) → exec (.spokeDpc b 4) s = .next (rcAdd s 0xA0034 b 1) ∧ (p.state = .training ∨ p.state = .initializing ∨ p.state = .ready ∨ p.state = .resetting → ∃ t, t = bumpSpoke (writeEvent s { num := 0x0905, inst := b, detail := [b, Config.code 0x0905 k] }) b ∧ exec (.spokeDpc b k) s = .next (w1cSet (reclaimSlots (setSpk t b { spkOf t b with state := .contained, dl := false, bring := 0, removal := 0, reclaimed := slotsUsed p, rcause := if k = 3 then p.rcause else 0 }) b) 0xA0018 b 0x100)) ∧ (p.state ≠ .training → p.state ≠ .initializing → p.state ≠ .ready → p.state ≠ .resetting → exec (.spokeDpc b k) s = .next s)) ∧
  -- Of a contained port whose drive is gone the bay is emptied with its surprise event, which carries the slots reclaimed at
  -- the containment; with the drive present and no reset under way a reset begins (cause 6), counted, and its event is written
  -- and the link trained again, unless eight resets fell into the last hour, when it fails; with a reset under way that reset
  -- goes on; a port not contained does nothing.
  (∀ (s : State) (b : Nat) (p : Spoke) (l : List Nat), (b < 64 ∧ p = spkOf s b ∧ l = p.resets.filter (fun t => decide (s.now < t + ticksS 3600))) → (p.state ≠ .contained → exec (.containmentRelease b) s = .next s) ∧ (p.state = .contained → p.present = false → exec (.containmentRelease b) s = .next (spkGone s b true)) ∧ (p.state = .contained → p.present = true → p.rcause = 0 → 8 ≤ l.length → (spkOf (spkFail (setSpk s b { p with resets := l, rcause := 0 }) b 0x0909) b).state ≠ .resetting → exec (.containmentRelease b) s = .next (spkFail (setSpk s b { p with resets := l, rcause := 0 }) b 0x0909)) ∧ (p.state = .contained → p.present = true → p.rcause = 0 → l.length < 8 → ∃ t, t = rcAdd (setSpk s b { p with state := .resetting, resets := l ++ [s.now], rcause := 6, bring := 0, removal := 0 }) 0xA0030 b 1 ∧ exec (.containmentRelease b) s = .next (emit (resetEvent t b) (.drive b 0x101 []))) ∧ (p.state = .contained → p.present = true → p.rcause ≠ 0 → exec (.containmentRelease b) s = .next (emit (resetEvent (spkTo s b .resetting) b) (.drive b 0x101 [])))) ∧
  -- Five seconds after a press that still stands, a ready spoke begins an orderly removal, one that is Off an insertion, and
  -- any other drops the press; with no press standing nothing happens.
  (∀ (s : State) (b : Nat) (p : Spoke), (b < 64 ∧ p = spkOf s b) → exec (.buttonTimerExpiry b) s = .next (if p.pendBtn = false then s else if p.state = .ready then setSpk s b { p with removal := 1, pendBtn := false, disabling := false } else if p.state = .off then spkInsert (setSpk s b { p with pendBtn := false }) b else setSpk s b { p with pendBtn := false })) ∧
  -- An orderly removal of a ready spoke sends the shutdown once no command slot is used, and once the drive reports it done
  -- turns the bay off and ends Off, or Disabled when it was a disable, its members absent, with its event; otherwise it waits.
  -- A spoke that is not ready, or in no removal, does nothing.
  (∀ (s : State) (b : Nat) (d : Bool) (p : Spoke), (b < 64 ∧ p = spkOf s b) → (p.state = .ready → p.removal = 1 → exec (.orderlyRemovalProgress b d) s = .next (if slotsUsed p = 0 then emit (setSpk s b { p with removal := 2 }) (.drive b 0x103 [1]) else s)) ∧ (p.state = .ready → p.removal = 2 → exec (.orderlyRemovalProgress b false) s = .next s ∧ exec (.orderlyRemovalProgress b true) s = .next (writeEvent (mapGone (setSpk (chanOffRequest s b) b { spkOf (chanOffRequest s b) b with state := if p.disabling then .disabled else .off, removal := 0, disabling := false, dl := false }) b) { num := 0x090B, inst := b, detail := [b] })) ∧ ((p.state ≠ .ready ∨ p.removal ≠ 1 ∧ p.removal ≠ 2) → exec (.orderlyRemovalProgress b d) s = .next s)) ∧
  -- A spoke that does not exist is a fault.
  (∀ (s : State) (b g w : Nat) (x : Bool), 64 ≤ b → ∀ i ∈ [Instr.linkUpTimeout b, .spokeLinkUp b g w, .spokeDpc b g, .containmentRelease b, .buttonTimerExpiry b, .orderlyRemovalProgress b x], exec i s = .fault (.noSuchInstance "spoke"))

/-- The spoke's control register, its attention indicator, its idle timer and Drive Format.
p is the record of spoke b; the control registers act in the modes that serve register writes (Standby, Active, Drain,
Safe), and a spoke of number 64 or more is a fault. Rests on parts of R411, R412, R425, R426, R429. -/
def Obligations.SpokeControl : Prop :=
  -- RESET resets a ready spoke (cause 5); restarts the insertion of an Unusable or Failed one with a drive, clearing a latch
  -- first and training at once where the bay is on; of any other it only clears a latch.
  (∀ (s : State) (b : Nat) (p : Spoke) (t : State), (b < 64 ∧ authMode s = true ∧ p = spkOf s b ∧ t = (if (chanOf s b).state = .latched then chanUnlatch s b 2 else s)) → (p.state = .ready → exec (.spokeCtlReset b) s = .next (spkReset s b 5)) ∧ (p.state = .unusable ∨ p.state = .failed → exec (.spokeCtlReset b) s = .next (if p.present = false then t else if (chanOf t b).state = .on ∧ (spkInsert t b).glb.mode ≠ .safe then setSpk (spkInsert t b) b { spkOf (spkInsert t b) b with state := .training } else spkInsert t b)) ∧ (p.state ≠ .ready → p.state ≠ .unusable → p.state ≠ .failed → exec (.spokeCtlReset b) s = .next t)) ∧
  -- POWER_OFF begins an orderly removal of a ready spoke and POWER_ON an insertion of one that is Off; of another spoke each
  -- does nothing.
  (∀ (s : State) (b : Nat) (p : Spoke), (b < 64 ∧ authMode s = true ∧ p = spkOf s b) → exec (.spokeCtlPowerOff b) s = .next (if p.state = .ready then setSpk s b { p with removal := 1, pendBtn := false, disabling := false } else s) ∧ exec (.spokeCtlPowerOn b) s = .next (if p.state = .off then spkInsert s b else s)) ∧
  -- DISABLE begins an orderly removal of a ready spoke that ends Disabled, and of any other turns its bay off, makes it
  -- Disabled with what it was doing dropped and reclaims its slots; ENABLE of a Disabled spoke whose bay belongs to a group
  -- makes it Empty and inserts a drive that is present.
  (∀ (s : State) (b : Nat) (p : Spoke), (b < 64 ∧ authMode s = true ∧ p = spkOf s b) → exec (.spokeCtlDisable b) s = .next (if p.state = .ready then setSpk s b { p with removal := 1, pendBtn := false, disabling := true } else if p.state = .disabled then s else reclaimSlots (setSpk (chanOffRequest s b) b { spkOf (chanOffRequest s b) b with state := .disabled, dl := false, bring := 0, pendBtn := false, heldBtn := false, rcause := 0 }) b) ∧ (p.state = .disabled → (groupOfBay s b).isSome = true → exec (.spokeCtlEnable b) s = .next (if (spkOf (spkTo s b .empty) b).present = true then spkInsert (spkTo s b .empty) b else spkTo s b .empty)) ∧ (p.state ≠ .disabled ∨ groupOfBay s b = none → exec (.spokeCtlEnable b) s = .next s)) ∧
  -- A write of ATTN_IND other than 0 sets the attention indicator; 0 leaves it.
  (∀ (s : State) (b : Nat) (v : Word), (b < 64 ∧ authMode s = true) → exec (.slotAttentionWrite b v) s = .next (if field v.toNat 6 2 = 0 then s else setSpk s b { spkOf s b with attn := field v.toNat 6 2 })) ∧
  -- A ready drive of an owned bay with no command slot used, idle for DRV_IDLE_MS where that is not 0, is sent the power state
  -- offered; with none offered nothing happens.
  (∀ (s : State) (b n : Nat) (p : Spoke), (b < 64 ∧ p = spkOf s b) → exec (.driveIdleTimer b (some n)) s = .next (if p.state = .ready ∧ ownsBay s b = true ∧ slotsUsed p = 0 ∧ drvIdleMs s ≠ 0 then emit (setSpk s b { p with drvPs := n }) (.drive b 0x09 [2, n]) else s) ∧ exec (.driveIdleTimer b none) s = .next s) ∧
  -- Drive Format, in the modes that serve management and for a sender with the role, is 0xE3 for a member bay, 0xEA for one
  -- whose group is not owned, 0xF3 where the drive does not offer the format, 0xEB in a state that does not allow it, and
  -- otherwise is sent to the drive and answered when that completes.
  (∀ (s : State) (c : Cid) (d b : Nat) (o : Bool) (p : Spoke), (Manager s c 0 ∧ b = field d 0 6 ∧ p = spkOf s b) → exec (.driveFormat c d o) s = .next (if bayIsMember s b = true then reply s c (.vendor 0xE3) else if ownsBay s b = false then reply s c (.vendor 0xEA) else if o = false then reply s c (.vendor 0xF3) else if p.state = .ready ∨ (p.state = .unusable ∧ (p.reason = 5 ∨ p.reason = 6)) then emit (setSpk s b { p with format := some c }) (.drive b 0x80 [1]) else reply s c (.vendor 0xEB))) ∧
  -- In Held and Boot a control write does nothing; a spoke that does not exist is a fault.
  (∀ (s : State) (b : Nat) (v : Word) (o : Option Nat), (b < 64 → authMode s = false → ∀ i ∈ [Instr.spokeCtlReset b, .spokeCtlPowerOff b, .spokeCtlPowerOn b, .spokeCtlDisable b, .spokeCtlEnable b, .slotAttentionWrite b v], exec i s = .next s) ∧ (64 ≤ b → ∀ i ∈ [Instr.spokeCtlReset b, .spokeCtlPowerOff b, .spokeCtlPowerOn b, .spokeCtlDisable b, .spokeCtlEnable b, .slotAttentionWrite b v, .driveIdleTimer b o], exec i s = .fault (.noSuchInstance "spoke"))) ∧
  -- In a mode that serves no management commands Drive Format does nothing; without the role it is answered with the status of
  -- that check.
  (∀ (s : State) (c : Cid) (d : Nat) (o : Bool) (e : Status), (mgmtFull s = false → exec (.driveFormat c d o) s = .next s) ∧ (mgmtFull s = true → hasRole s c 0 = some e → exec (.driveFormat c d o) s = .next (reply s c e)))

/-- The requests, completions, resets and timeouts of a drive.
p is the record of spoke b; a spoke of number 64 or more is a fault. Rests on parts of R37, R407, R412, R416, R417, R418,
R419, R421, R422, R426, R428, R451. -/
def Obligations.DriveProtocol : Prop :=
  -- A drive's DMA into its queue memory or a buffer of a used command slot is served; any of a fenced spoke is refused,
  -- uncounted; any of a contained spoke never arrives.
  (∀ (s : State) (b a : Nat) (p : Spoke) (g : DmaTarget), (b < 64 ∧ p = spkOf s b) → (p.state = .contained → exec (.driveDmaRequest b a g) s = .next s) ∧ (p.state ≠ .contained → p.fenced = true → exec (.driveDmaRequest b a g) s = .next (emit s (.drive b 0x102 [0, a]))) ∧ (p.state ≠ .contained → p.fenced = false → exec (.driveDmaRequest b a .queueMem) s = .next (emit s (.drive b 0x102 [1, a])) ∧ ∀ n, (tget p.slots none n).isSome = true → exec (.driveDmaRequest b a (.buffer n)) s = .next (emit s (.drive b 0x102 [1, a])))) ∧
  -- Any other address, also of a buffer of a slot not in use, is refused, counted and reported as a violation, and a second
  -- one within a second resets the spoke.
  (∀ (s : State) (b a : Nat) (g : DmaTarget) (p : Spoke) (t u : State), (b < 64 ∧ p = spkOf s b ∧ p.state ≠ .contained ∧ p.fenced = false ∧ (∀ n, g = .buffer n → tget p.slots none n = none) ∧ g ≠ .queueMem) → (t = writeEvent (emit (rcAdd s 0xA0038 b 1) (.drive b 0x102 [0, a])) { num := 0x090A, inst := b, detail := [b, a] } ∧ u = setSpk t b { spkOf t b with violAt := some t.now }) → (p.violAt = none → exec (.driveDmaRequest b a g) s = .next u) ∧ ∀ v, p.violAt = some v → exec (.driveDmaRequest b a g) s = .next (if t.now < v + ticksS 1 then spkReset u b 4 else u)) ∧
  -- With no injector at the point, a completion of a used command slot that carries its tag, of a spoke and drive not bumped
  -- since, frees the slot, counts it as stale where a controller reset withdrew its command, wakes the context that still
  -- waits with the result, reports to the strip write, the journal and the namespace creation that the slot served, and starts
  -- a journal write that waited.
  (∀ (s : State) (b n x : Nat) (ok : Bool) (p : Spoke) (d : DriveSlot), (b < 64 ∧ injectorAt s 4 b = none ∧ p = spkOf s b ∧ tget p.slots none n = some d ∧ x = slotTag d.spoke d.drive ∧ stale p.instar d.spoke = false ∧ stale p.drive d.drive = false) → ∃ r t u v w, r = (match d.vc with | some a => vcStale (dropSlot s b n) a | none => dropSlot s b n) ∧ t = (match d.ctx with | some c => if d.timedOut then r else wakeCtx r c (if ok then .ok else .fail) | none => r) ∧ u = (match d.strip with | some y => stripDone t y ok | none => t) ∧ v = (match d.journal with | some j => journalDone u b j ok | none => u) ∧ w = (match d.create with | some m => createDone v b m ok | none => v) ∧ exec (.driveCompletion b n x (.io ok)) s = .next (journalKick (count w 0x0902 (some b) none d.bytes) b)) ∧
  -- One that is stale, for a slot in use or emptied by the bump, is discarded and reported once for each instar value; one in
  -- force for an unused slot counts as stale. With an injector it is dropped, delayed or held as that injector does.
  (∀ (s : State) (b n x : Nat) (ok : Bool) (p : Spoke) (r : DriveResult), (b < 64 ∧ p = spkOf s b) → (injectorAt s 4 b = none → tget p.slots none n = none → x = slotTag (tagOfInstar p.instar) (tagOfInstar p.drive) → exec (.driveCompletion b n x (.io ok)) s = .next (rcAdd s 0x70018 0 1)) ∧ (injectorAt s 4 b = none → (tget p.slots none n = none ∧ x ≠ slotTag (tagOfInstar p.instar) (tagOfInstar p.drive) ∨ ∃ d, tget p.slots none n = some d ∧ (x ≠ slotTag d.spoke d.drive ∨ stale p.instar d.spoke = true ∨ stale p.drive d.drive = true)) → ∃ t i, (t, i) = discardStale s 9 0x090D b p.instar ∧ exec (.driveCompletion b n x (.io ok)) s = .next (setSpk t b { spkOf t b with instar := i })) ∧ exec (.driveCompletion b n x r) s = .next (atPoint s 4 b (.drive b n x r) fun t => driveDone t b n x r)) ∧
  -- CSTS.RDY reached in the first part of a bring-up sends Identify; CSTS.RDY not reached there makes an Initializing drive
  -- Unusable with reason 1; at another time neither does anything.
  (∀ (s : State) (b : Nat) (p : Spoke), (b < 64 ∧ p = spkOf s b) → exec (.cstsRdyReached b) s = .next (if p.bring = 1 then emit (setSpk s b { p with bring := 2 }) (.drive b 0x06 []) else s) ∧ exec (.driveReadyTimeout b) s = .next (if p.state = .initializing ∧ p.bring = 1 then spkUnusable s b 1 else s)) ∧
  -- An unanswered Abort, CSTS.CFS and an admin command that times out reset a ready or resetting spoke (causes 1, 2, 3), while
  -- an Initializing one becomes Unusable by the last two (reasons 1 and 2); with no Abort under way its timeout does nothing.
  (∀ (s : State) (b : Nat) (p : Spoke), (b < 64 ∧ p = spkOf s b) → exec (.abortTimeout b) s = .next (if p.slots.any (fun x => x.2.any (·.timedOut)) then spkReset s b 1 else s) ∧ (p.state = .initializing → exec (.cstsCfsSet b) s = .next (spkUnusable s b 1) ∧ exec (.driveAdminCommandTimeout b) s = .next (spkUnusable s b 2)) ∧ (p.state ≠ .initializing → exec (.cstsCfsSet b) s = .next (spkReset s b 2) ∧ exec (.driveAdminCommandTimeout b) s = .next (spkReset s b 3))) ∧
  -- A reset of a ready or resetting spoke that had none in the last second makes it Resetting, with its cause, counts it and
  -- clears the drive's enable; the ninth in an hour fails it; a spoke in another state, or reset in the last second, is left
  -- as it is.
  (∀ (s : State) (b k : Nat) (p : Spoke) (l : List Nat), (p = spkOf s b ∧ l = p.resets.filter (fun t => decide (s.now < t + ticksS 3600))) → ((p.state = .ready ∨ p.state = .resetting) → l.any (fun t => decide (s.now < t + ticksS 1)) = false → l.length < 8 → spkReset s b k = (emit (rcAdd (setSpk s b { p with state := .resetting, resets := l ++ [s.now], rcause := k, bring := 0, removal := 0 }) 0xA0030 b 1) (.drive b 0x100 [0]))) ∧ ((p.state = .ready ∨ p.state = .resetting) → l.any (fun t => decide (s.now < t + ticksS 1)) = false → 8 ≤ l.length → (spkOf (spkFail (setSpk s b { p with resets := l, rcause := 0 }) b 0x0909) b).state ≠ .resetting → spkReset s b k = spkFail (setSpk s b { p with resets := l, rcause := 0 }) b 0x0909) ∧ ((p.state ≠ .ready ∧ p.state ≠ .resetting ∨ l.any (fun t => decide (s.now < t + ticksS 1)) = true) → spkReset s b k = s)) ∧
  -- While a spoke resets, CSTS.RDY not 0 in time contains the port (trigger 3); CSTS.RDY read as 0 bumps its instar, reclaims
  -- its slots, lifts its fence, writes the reset's event with its cause and enables the drive again; the limit counts as a
  -- failed reset, the second in a row failing the spoke and the first resetting it once more (cause 7). A spoke in another
  -- state does nothing.
  (∀ (s : State) (b : Nat) (p : Spoke), (b < 64 ∧ p = spkOf s b) → (p.state ≠ .resetting → exec (.spokeResetRdyTimeout b) s = .next s ∧ exec (.spokeResetLimit b) s = .next s ∧ exec (.cstsRdyCleared b) s = .next s) ∧ (p.state = .resetting → exec (.spokeResetRdyTimeout b) s = .next (spkContain s b 3) ∧ exec (.cstsRdyCleared b) s = .next (startBring (resetEvent (setSpk (reclaimSlots (bumpSpoke s b) b) b { spkOf (reclaimSlots (bumpSpoke s b) b) b with fenced := false }) b) b) ∧ exec (.spokeResetLimit b) s = .next (if 1 ≤ p.failed then spkFail (setSpk s b { p with failed := 2 }) b 0x0909 else spkReset (setSpk s b { p with failed := 1 }) b 7))) ∧
  -- With no injector at the point: the completion of an Abort frees the slot it was for when that had timed out; that of a
  -- Drive Format under way starts the bring-up of the drive, or answers the format with Internal Error; Identify results act
  -- in the second part of a bring-up only.
  (∀ (s : State) (b n x : Nat) (ok : Bool) (p : Spoke) (i : Ident), (b < 64 ∧ injectorAt s 4 b = none ∧ p = spkOf s b) → exec (.driveCompletion b n x .aborted) s = .next (if (tget p.slots none n).any (·.timedOut) then dropSlot s b n else s) ∧ (p.format = none → exec (.driveCompletion b n x (.formatted ok)) s = .next s) ∧ (∀ c, p.format = some c → exec (.driveCompletion b n x (.formatted ok)) s = .next (if ok then startBring (setSpk s b { p with state := .initializing }) b else reply (setSpk s b { p with format := none }) c .internalError)) ∧ (p.bring ≠ 2 → exec (.driveCompletion b n x (.ident i)) s = .next s) ∧ exec (.driveCompletion b n x (.ident i)) s = .next (identDone s b i)) ∧
  -- A spoke that does not exist is a fault.
  (∀ (s : State) (b n x : Nat) (g : DmaTarget) (r : DriveResult), 64 ≤ b → ∀ i ∈ [Instr.driveDmaRequest b n g, .driveCompletion b n x r, .driveReadyTimeout b, .cstsRdyReached b, .abortTimeout b, .cstsCfsSet b, .driveAdminCommandTimeout b, .spokeResetRdyTimeout b, .spokeResetLimit b, .cstsRdyCleared b], exec i s = .fault (.noSuchInstance "spoke"))

/-- The power channel of a bay: its ramp, trips, cool-down, retries, telemetry and the hold of the outputs.
c is the channel of bay b; a bay of number 64 or more is a fault. Rests on parts of R412, R432, R433, R434, R435, R437,
R438, R440, R441, R443, R528. -/
def Obligations.BayChannels : Prop :=
  -- Presence stable for its time starts the ramp of a Waiting channel, outside Safe; any other channel stays as it is.
  (∀ (s : State) (b : Nat) (c : Channel), (b < 64 ∧ c = chanOf s b ∧ s.bay.outHold = false) → exec (.presenceStable b) s = .next (if c.state = .waiting ∧ s.glb.mode ≠ .safe then setChan s b { c with state := .ramping, gate := driveGate s b .ramp } else s)) ∧
  -- At the end of its ramp a Ramping channel drives its gate fully on; any other stays.
  (∀ (s : State) (b : Nat) (c : Channel), (b < 64 ∧ c = chanOf s b ∧ s.bay.outHold = false) → exec (.rampEnd b) s = .next (if c.state = .ramping then setChan s b { c with gate := driveGate s b .full } else s)) ∧
  -- With the outputs not held, power good of a Ramping channel whose gate is fully on and that has taken no retry makes it On
  -- with its event, and its Powering spoke trains; before the reference has ended it changes nothing; a trip in the same cycle
  -- comes first.
  (∀ (s : State) (b k : Nat) (c : Channel) (t : State), (b < 64 ∧ c = chanOf s b ∧ s.bay.outHold = false ∧ c.state = .ramping) → t = writeEvent (setChan s b { c with state := .on, gate := driveGate s b .full }) { num := 0x0A01, inst := b, detail := [b, c.iPeak] } → exec (.bayPowerGood b (some k)) s = .next (chanTrip s b k c.iMa) ∧ (c.gate ≠ .full → exec (.bayPowerGood b none) s = .next s) ∧ (c.gate = .full → c.taken = 0 → exec (.bayPowerGood b none) s = .next (if (spkOf t b).state = .powering then spkTo t b .training else t))) ∧
  -- After one retry it is reported as a transient and counted, after more as recovered; a channel that is not Ramping, or
  -- held, lets its spoke train only where this controller does not drive the bay.
  (∀ (s : State) (b : Nat) (c : Channel) (t : State) (o : Option Nat), (b < 64 ∧ c = chanOf s b) → (s.bay.outHold = false → c.state = .ramping → c.gate = .full → c.taken = 1 → t = writeEvent (setChan s b { c with state := .on, gate := driveGate s b .full, transients := satAdd 0xFFFF c.transients 1 }) { num := 0x0A01, inst := b, detail := [b, c.iPeak] } → ∃ u, u = transient t 0x0A b c.lastTrip 0x0A03 ∧ exec (.bayPowerGood b none) s = .next (if (spkOf u b).state = .powering then spkTo u b .training else u)) ∧ (s.bay.outHold = false → c.state = .ramping → c.gate = .full → 2 ≤ c.taken → t = writeEvent (setChan s b { c with state := .on, gate := driveGate s b .full }) { num := 0x0A01, inst := b, detail := [b, c.iPeak] } → ∃ u, u = writeEvent t { num := 0x0A03, inst := b, detail := [b] } ∧ exec (.bayPowerGood b none) s = .next (if (spkOf u b).state = .powering then spkTo u b .training else u)) ∧ ((c.state ≠ .ramping ∨ s.bay.outHold = true) → exec (.bayPowerGood b o) s = .next (if drivesBay s b = false ∧ (spkOf s b).state = .powering then spkTo s b .training else s))) ∧
  -- The fast threshold trips with cause 1, the breaker with 2 unless its feed still settles, undervoltage of an On channel on
  -- a steady feed with 3.
  (∀ (s : State) (b i : Nat) (c : Channel), (b < 64 ∧ c = chanOf s b ∧ s.bay.outHold = false) → exec (.fastTrip b i) s = .next (chanTrip s b 1 i) ∧ exec (.breakerTrip b i) s = .next (if breakerOff s b = true then s else chanTrip s b 2 i) ∧ exec (.undervoltageTrip b i) s = .next (if c.state = .on ∧ feedSteady s b = true then chanTrip s b 3 i else s)) ∧
  -- A trip of a Ramping or On channel sinks its gate, starts the cool-down, counts it, and writes its cause and current in the
  -- status bit and the event; of another channel it does nothing.
  (∀ (s : State) (b k i : Nat) (c : Channel), c = chanOf s b → chanTrip s b k i = (if c.state = .ramping ∨ c.state = .on then w1cSet (writeEvent (setChan s b { c with state := .cooling, gate := driveGate s b .sink, lastTrip := k, trips := satAdd 0xFFFF c.trips 1, cancelled := false, offReq := false }) { num := 0x0A02, inst := b, detail := [b, k, i] }) 0xA0018 b 2 else s)) ∧
  -- With the outputs not held: at the end of a cool-down not cancelled the channel ramps again with one retry less, in Safe it
  -- goes Off instead, and with no retry left it latches with its event and fails a Powering spoke; one cancelled by a removal,
  -- an off request or Safe goes Off, and by an insertion ramps, or waits for a stable presence, with its retries back. A
  -- channel that does not cool is left as it is.
  (∀ (s : State) (b : Nat) (k : Bool) (c : Channel), (b < 64 ∧ c = chanOf s b ∧ s.bay.outHold = false) → (c.state ≠ .cooling → exec (.coolDownEnd b k) s = .next s) ∧ (c.state = .cooling → c.cancelled = false → c.retries ≠ 0 → exec (.coolDownEnd b k) s = .next (if s.glb.mode = .safe then setChan s b { c with state := .off, cancelled := false, offReq := false, gate := driveGate s b .sink } else setChan s b { c with state := .ramping, gate := driveGate s b .ramp, retries := c.retries - 1, taken := c.taken + 1 })) ∧ (c.state = .cooling → c.cancelled = false → c.retries = 0 → ∃ t, t = writeEvent (setChan s b { c with state := .latched }) { num := 0x0A04, inst := b, detail := [b] } ∧ exec (.coolDownEnd b k) s = .next (if (spkOf t b).state = .powering then heldPress (spkTo t b .failed) b else t)) ∧ (c.state = .cooling → c.cancelled = true → exec (.coolDownEnd b k) s = .next (if c.offReq = true ∨ (spkOf s b).present = false ∨ s.glb.mode = .safe then setChan s b { c with state := .off, cancelled := false, offReq := false, gate := driveGate s b .sink } else if k = true then setChan s b { c with state := .ramping, gate := driveGate s b .ramp, cancelled := false, retries := retryCount s, taken := 0 } else setChan s b { c with state := .waiting, cancelled := false, retries := retryCount s, taken := 0 }))) ∧
  -- Power good held a minute gives an On channel its retries back. A telemetry sample stores current and voltage and updates
  -- the peak and the minimum, of the bay and of its group's feed.
  (∀ (s : State) (b i v p x y : Nat) (c : Channel) (t : State) (g : Nat), (b < 64 ∧ c = chanOf s b) → t = setChan s b { c with iMa := i % 65536, vMv := v % 65536, iPeak := max c.iPeak (max (p % 65536) (i % 65536)), vMin := min c.vMin (v % 65536) } → exec (.retryCountRefresh b) s = .next (if c.state = .on then setChan s b { c with retries := retryCount s, taken := 0 } else s) ∧ (groupOfBay t b = none → exec (.bayTelemetrySample b i v p x y) s = .next t) ∧ (groupOfBay t b = some g → exec (.bayTelemetrySample b i v p x y) s = .next (setFeed t g { feedOf t g with aMv := x % 65536, bMv := y % 65536, aMin := min (feedOf t g).aMin (x % 65536), bMin := min (feedOf t g).bMin (y % 65536) }))) ∧
  -- BAY_CTL CLEAR, in the modes that serve register writes, unlatches a Latched channel with its event and gives a Cooling one
  -- its retries back; it does nothing to another, and a write without CLEAR, or in Held and Boot, does nothing.
  (∀ (s : State) (b : Nat) (v : Word) (c : Channel), (b < 64 ∧ c = chanOf s b) → exec (.bayClear b v) s = .next (if authMode s = false ∨ bitAt v.toNat 0 = false then s else if c.state = .latched then chanUnlatch s b 1 else if c.state = .cooling then setChan s b { c with retries := retryCount s, taken := 0 } else s)) ∧
  -- The end of the outputs' hold, and the loss of a bay rail, turn every gate and feed output to high impedance; the rails'
  -- return drives again every bay still powered, turns every other On channel Off, and drives the feeds.
  (∀ (s : State) (l : List Nat) (t u : State), (t = { s with bay := { s.bay with rails := true } } ∧ u = t.bay.chans.foldl (fun a x => if (chanOf a x.1).state = .on then (if l.contains x.1 then setChan a x.1 { chanOf a x.1 with gate := driveGate a x.1 .full } else setChan a x.1 { chanOf a x.1 with state := .off, gate := driveGate a x.1 .sink }) else a) t) → (s.bay.outHold = false → exec .outputHoldExpiry s = .next s) ∧ (s.bay.outHold = true → exec .outputHoldExpiry s = .next { gatesOff s with bay := { (gatesOff s).bay with outHold := false } }) ∧ exec .bayRailLoss s = .next { gatesOff s with bay := { (gatesOff s).bay with rails := false } } ∧ ∃ v, v = (if (feedOf u 0).state = .off then feedStart u 0 else setFeed u 0 { feedOf u 0 with driving := drivesGroup u 0 }) ∧ exec (.bayRailReturn l) s = .next (if (feedOf v 1).state = .off then feedStart v 1 else setFeed v 1 { feedOf v 1 with driving := drivesGroup v 1 })) ∧
  -- With the outputs held no trip, ramp or cool-down moves a channel, but the fast comparator still sinks a held gate.
  (∀ (s : State) (b i : Nat) (k : Bool) (c : Channel), (b < 64 ∧ c = chanOf s b ∧ s.bay.outHold = true) → exec (.fastTrip b i) s = .next (if c.holding = true then setChan s b { c with gate := .sink } else s) ∧ exec (.breakerTrip b i) s = .next s ∧ exec (.undervoltageTrip b i) s = .next s ∧ exec (.presenceStable b) s = .next s ∧ exec (.rampEnd b) s = .next s ∧ exec (.coolDownEnd b k) s = .next s) ∧
  -- A bay that does not exist is a fault.
  (∀ (s : State) (b i x y z m : Nat) (k : Bool) (o : Option Nat) (v : Word), 64 ≤ b → ∀ a ∈ [Instr.presenceStable b, .rampEnd b, .bayPowerGood b o, .fastTrip b i, .breakerTrip b i, .undervoltageTrip b i, .coolDownEnd b k, .retryCountRefresh b, .bayTelemetrySample b i x y z m, .bayClear b v], exec a s = .fault (.noSuchInstance "bay"))

/-- The two feeds of a group: which is good, the switch between them, its break and its settling.
f is the feed record of group g; a group of number 2 or more is a fault. Rests on parts of R439, R440. -/
def Obligations.PowerFeeds : Prop :=
  -- A feed that becomes good is noted and ends the state both bad. It starts a selector that is Off, where the group is
  -- enabled and driven here; a selector on the other, bad, feed switches to it (cause 1), and one that is leaving it for a
  -- feed turned bad returns to it.
  (∀ (s : State) (g : Nat) (f h : Feed) (t u : State), (g < 2 ∧ f = { feedOf s g with aGood := true, bothBad := false } ∧ t = setFeed s g f) → (h = { feedOf s g with bGood := true, bothBad := false } ∧ u = setFeed s g h) → exec (.feedGood g false) s = .next (if f.state = .off then feedStart t g else if f.state = .onB ∧ f.bGood = false then feedSwitchTo t g false 1 else if f.state = .toB ∧ f.bGood = false then setFeed t g { f with state := .onA } else t) ∧ exec (.feedGood g true) s = .next (if h.state = .off then feedStart u g else if h.state = .onA ∧ h.aGood = false then feedSwitchTo u g true 1 else if h.state = .toA ∧ h.aGood = false then setFeed u g { h with state := .onB } else u)) ∧
  -- Starting puts the preferred feed in use where it is good, else the other, and reports both bad where neither is; a group
  -- not enabled, not driven here or not Off stays as it is.
  (∀ (s : State) (g : Nat) (f : Feed) (p : Bool), (f = feedOf s g ∧ p = feedPrefersB s g) → feedStart s g = (if feedEnabled s g = true ∧ drivesGroup s g = true ∧ f.state = .off then (if feedIsGood f p = true then setFeed s g { f with state := if p then .onB else .onA, driving := true } else if feedIsGood f (!p) = true then setFeed s g { f with state := if p then .onA else .onB, driving := true } else feedBothBad s g f) else s)) ∧
  -- A feed that becomes bad while it is in use switches to the other where that is good (cause 1), and else both bad is
  -- reported once; while a switch to it is under way it ends that switch on the other; one that becomes bad while the other is
  -- in use or being switched to is only noted.
  (∀ (s : State) (g : Nat) (f : Feed) (t : State), (g < 2 ∧ f = { feedOf s g with aGood := false } ∧ t = setFeed s g f) → (f.state = .onA → exec (.feedBad g false) s = .next (if f.bGood = true then feedSwitchTo t g true 1 else if f.bothBad = true then t else feedBothBad t g f)) ∧ (f.state = .onB → exec (.feedBad g false) s = .next t) ∧ (f.state = .toA → exec (.feedBad g false) s = .next (if f.bGood = true then setFeed t g { f with state := .onB } else t)) ∧ (f.state = .toB → exec (.feedBad g false) s = .next t)) ∧
  -- The same for feed B.
  (∀ (s : State) (g : Nat) (f : Feed) (t : State), (g < 2 ∧ f = { feedOf s g with bGood := false } ∧ t = setFeed s g f) → (f.state = .onB → exec (.feedBad g true) s = .next (if f.aGood = true then feedSwitchTo t g false 1 else if f.bothBad = true then t else feedBothBad t g f)) ∧ (f.state = .onA → exec (.feedBad g true) s = .next t) ∧ (f.state = .toB → exec (.feedBad g true) s = .next (if f.aGood = true then setFeed t g { f with state := .onA } else t)) ∧ (f.state = .toA → exec (.feedBad g true) s = .next t)) ∧
  -- The end of the break of a switch puts the new feed in use, restarts the ramp of each Ramping channel of the group, counts
  -- the switch and writes its event with the old feed, the new one and the cause; with no switch under way nothing happens.
  (∀ (s : State) (g : Nat) (f : Feed), (g < 2 ∧ f = feedOf s g) → (f.state = .toA → exec (.feedBbmEnd g) s = .next (writeEvent (rcAdd (rampsAgain (setFeed s g { f with state := .onA }) g) 0xB0210 g 1) { num := 0x0A10, inst := g, detail := [1, 0, f.cause] })) ∧ (f.state = .toB → exec (.feedBbmEnd g) s = .next (writeEvent (rcAdd (rampsAgain (setFeed s g { f with state := .onB }) g) 0xB0210 g 1) { num := 0x0A10, inst := g, detail := [0, 1, f.cause] })) ∧ (f.state ≠ .toA → f.state ≠ .toB → exec (.feedBbmEnd g) s = .next s)) ∧
  -- Where the group reverts and its preferred feed is good, the other feed in use is switched back (cause 2); otherwise
  -- nothing happens.
  (∀ (s : State) (g : Nat) (f : Feed) (p : Bool), (g < 2 ∧ f = feedOf s g ∧ p = feedPrefersB s g) → exec (.feedRevert g) s = .next (if feedReverts s g = true ∧ feedIsGood f p = true ∧ ((f.state = .onA ∧ p = true) ∨ (f.state = .onB ∧ p = false)) then feedSwitchTo s g p 2 else s)) ∧
  -- FEED_CTL in the modes that serve register writes: TO_A alone switches from B to a good A, TO_B alone from A to a good B
  -- (cause 3); both bits, neither, or another state do nothing, nor does a write in Held and Boot.
  (∀ (s : State) (g : Nat) (v : Word) (f : Feed), (g < 2 ∧ f = feedOf s g) → exec (.feedSwitchToA g v) s = .next (if authMode s = false then s else if bitAt v.toNat 0 = true ∧ bitAt v.toNat 1 = false ∧ f.state = .onB ∧ f.aGood = true then feedSwitchTo s g false 3 else if bitAt v.toNat 1 = true ∧ bitAt v.toNat 0 = false ∧ f.state = .onA ∧ f.bGood = true then feedSwitchTo s g true 3 else s) ∧ exec (.feedSwitchToB g v) s = exec (.feedSwitchToA g v) s) ∧
  -- Two milliseconds after a switch has ended the checks resume; with a switch under way they stay suspended.
  (∀ (s : State) (g : Nat) (f : Feed), (g < 2 ∧ f = feedOf s g) → exec (.feedSwitchSettle g) s = .next (if f.state = .toA ∨ f.state = .toB then s else setFeed s g { f with settling := false })) ∧
  -- A group that does not exist is a fault.
  (∀ (s : State) (g : Nat) (b : Bool) (v : Word), 2 ≤ g → ∀ i ∈ [Instr.feedGood g b, .feedBad g b, .feedBbmEnd g, .feedRevert g, .feedSwitchToA g v, .feedSwitchToB g v, .feedSwitchSettle g], exec i s = .fault (.noSuchInstance "group")) ∧
  -- With the selector Off a feed that becomes bad is noted; where the other is bad too, and the group is enabled and driven
  -- here, both bad is reported once.
  (∀ (s : State) (g : Nat) (b : Bool) (f : Feed) (t : State), (g < 2 ∧ f = (if b then { feedOf s g with bGood := false } else { feedOf s g with aGood := false }) ∧ t = setFeed s g f ∧ f.state = .off) → exec (.feedBad g b) s = .next (if feedIsGood f (!b) = false ∧ drivesGroup t g = true ∧ feedEnabled t g = true ∧ f.bothBad = false then feedBothBad t g f else t))

/-- The ownership lines: heartbeat, release, take-over, acquisition and the hand-over of the outputs.
For a group g, 0 or 1, whose record is x, on a controller that is not alone (paired, so that it has lines). Rests on parts
of R449, R450, R452, R453, R464, R467. -/
def Obligations.OwnershipLines : Prop :=
  -- The holder's heartbeat gap is put on the line; a group not held makes none. A feed of TDM_OWN_FEED by a core feeds the
  -- lines of the groups whose bits the value has, the timer of each counting from now; by another agent it feeds nothing.
  (∀ (s : State) (g : Nat) (x : Grp) (p : Path) (v : Word) (t : State), (g < 2 ∧ unpaired s = false ∧ x = grpOf s g ∧ t = (if bitAt v.toNat 0 = true then setGrp s 0 { grpOf s 0 with fedAt := s.now } else s)) → exec (.heartbeatGap g) s = .next (if x.line = .mine then emit s (.line g 2) else s) ∧ exec (.ownFeed p v) s = .next (if p ≠ .cores then s else if bitAt v.toNat 1 = true then setGrp t 1 { grpOf t 1 with fedAt := t.now } else t)) ∧
  -- A lapse of a held line, HB_TIMEOUT_MS after its last feed and neither fed nor outranked by another mode event in its tick,
  -- releases the group with cause 1, and a release that a manager waits for succeeds; any other lapse does nothing.
  (∀ (s : State) (g : Nat) (x : Grp) (b : Bool) (m : Moment), (g < 2 ∧ unpaired s = false ∧ x = grpOf s g) → (x.line ≠ .mine ∨ b = true ∨ s.now < x.fedAt + hbTimeout s ∨ outranked m.rivals .group = true → exec (.heartbeatLapse g b m) s = .next s) ∧ (x.line = .mine → x.fedAt + hbTimeout s ≤ s.now → outranked m.rivals .group = false → exec (.heartbeatLapse g false m) s = .next (match x.releasing with | some c => reply (releaseGroup s g 1) c .success | none => releaseGroup s g 1))) ∧
  -- A partner's line that is released is taken over where this controller may (its event, the start of the take-over and
  -- whether from the drives), and else is only classed Released; a line of another class stays.
  (∀ (s : State) (g : Nat) (x : Grp), (g < 2 ∧ unpaired s = false ∧ x = grpOf s g) → exec (.lineReleasedSeen g) s = .next (if x.line ≠ .partner then s else if mayTakeOver s g = false then setGrp s g { x with line := .released } else noteAna (writeEvent (setGrp s g { x with line := .released, taking := true, takeAt := s.now, fromDrives := !standingNow s g }) { num := 0x0B05, inst := g, detail := [g] }))) ∧
  -- A gap on a Released or Stuck line classes it as the partner's, seen and last held there, ends a bar, a take-over and a
  -- claim, orphans the group's records and lifts or resets the fenced spokes; a partner's line low without a gap becomes Stuck
  -- with its event; otherwise nothing changes.
  (∀ (s : State) (g : Nat) (x : Grp), (g < 2 ∧ unpaired s = false ∧ x = grpOf s g) → exec (.lineGapSeen g) s = .next (if x.line = .released ∨ x.line = .stuck then fencedReset (setOrphans (noteAna (setGrp s g { x with line := .partner, seen := true, barred := false, taking := false, claimed := false, fromPartner := true })) g true) g else s) ∧ exec (.lineStuck g) s = .next (if x.line = .partner then writeEvent (setGrp s g { x with line := .stuck }) { num := 0x0B08, inst := g, detail := [g] } else s)) ∧
  -- A Released line, quiet for its time, that this controller may acquire is driven and becomes Acquiring; after BOOT_CLAIM_MS
  -- a Released group is marked as claimed first, so that a group it does not prefer may be acquired too.
  (∀ (s : State) (g : Nat) (x : Grp), (g < 2 ∧ unpaired s = false ∧ x = grpOf s g) → exec (.lineQuietExpiry g) s = .next (if x.line = .released ∧ mayAcquire s g = true then emit (setGrp s g { x with line := .acquiring, clean := 0, periods := 0 }) (.line g 0) else s) ∧ exec (.bootClaimExpiry g) s = (if x.line = .released then exec (.lineQuietExpiry g) (setGrp s g { x with claimed := true }) else .next s)) ∧
  -- A check gap, put on the line, that is clean the fourth time in a row acquires the group, unless a mode event of the tick
  -- outranks it or a take-over is not allowed any more (then the line is let go); a clean one before only counts. A low one on
  -- side B stops the acquisition; on side A it counts the period, and the third stops it as a collision. A line not Acquiring
  -- takes no sample.
  (∀ (s : State) (g : Nat) (x : Grp) (m : Moment) (w : List Nat) (f : Option Bool) (a : AreaRead) (t : State), (g < 2 ∧ unpaired s = false ∧ x = grpOf s g ∧ t = emit s (.line g 3)) → (x.line ≠ .acquiring → ∀ b, exec (.checkGapSample g b m w f a) s = .next s) ∧ (x.line = .acquiring → exec (.checkGapSample g true m w f a) s = .next (if isSideA t = false then stopAcquiring t g false else if 2 ≤ x.periods then stopAcquiring t g true else setGrp t g { x with periods := x.periods + 1, clean := 0 }) ∧ exec (.checkGapSample g false m w f a) s = .next (if x.clean < 3 then setGrp t g { x with clean := x.clean + 1 } else if outranked m.rivals .group = true then t else if mayTakeOver t g = true then acquireGroup t g w f a else emit (setGrp t g { x with line := .released, clean := 0, periods := 0, taking := false }) (.line g 1)))) ∧
  -- Outputs still held, of a line the partner holds for its time, are given up; admission of an owned group opens once its
  -- bays, map and pages are done and it is not open.
  (∀ (s : State) (g : Nat) (x : Grp), (g < 2 ∧ unpaired s = false ∧ x = grpOf s g) → exec (.outputHandoverRelease g) s = .next (if x.hold = true ∧ x.line = .partner then groupOutputsOff (setGrp s g { x with hold := false }) g else s) ∧ (x.owned = false ∨ x.bayDone = false ∨ x.mapDone = false ∨ x.pagesDone = false ∨ x.open_ = true → exec (.takeoverAdmissionOpen g) s = .next s) ∧ (x.owned = true → x.bayDone = true → x.mapDone = true → x.pagesDone = true → x.open_ = false → x.taking = false → exec (.takeoverAdmissionOpen g) s = .next (noteAna (setGrp s g { x with open_ := true, taking := false })))) ∧
  -- Where that ends a take-over, its duration in microseconds and its source are kept and reported; with no hand-back awaited
  -- the partner is told, and otherwise the wait is reported.
  (∀ (s : State) (g d : Nat) (x : Grp) (t u : State), (g < 2 ∧ x = grpOf s g ∧ x.owned = true ∧ x.bayDone = true ∧ x.mapDone = true ∧ x.pagesDone = true ∧ x.open_ = false ∧ x.taking = true ∧ d = min (2 ^ 24 - 1) ((s.now - x.takeAt) / 100)) → (t = setGrp s g { x with open_ := true, taking := false } ∧ u = writeEvent { t with tdm := { t.tdm with lastGroup := g, lastFromDrives := x.fromDrives, gapUs := d } } { num := 0x0B06, inst := g, detail := [g, d, if x.fromDrives then 1 else 0] }) → exec (.takeoverAdmissionOpen g) s = .next (noteAna (if x.await = [] then (if partnerAnswers u = true then tdmSend u (.tandem 11 [g]) else u) else writeEvent u { num := 0x0B0A, inst := g, detail := [g, x.await.length] }))) ∧
  -- A controller that is alone has no lines, so these do nothing there, the opening of admission apart; a group that does not
  -- exist is a fault.
  (∀ (s : State) (g : Nat) (b : Bool) (m : Moment) (w : List Nat) (f : Option Bool) (a : AreaRead), (g < 2 ∧ unpaired s = true) → (∀ i ∈ [Instr.heartbeatGap g, .heartbeatLapse g b m, .lineReleasedSeen g, .lineGapSeen g, .lineStuck g, .lineQuietExpiry g, .bootClaimExpiry g, .checkGapSample g b m w f a, .outputHandoverRelease g], exec i s = .next s) ∧ ∀ i ∈ [Instr.heartbeatGap (g + 2), .heartbeatLapse (g + 2) b m, .lineReleasedSeen (g + 2), .lineGapSeen (g + 2), .lineStuck (g + 2), .lineQuietExpiry (g + 2), .bootClaimExpiry (g + 2), .checkGapSample (g + 2) b m w f a, .outputHandoverRelease (g + 2), .takeoverAdmissionOpen (g + 2)], exec i s = .fault (.noSuchInstance "group"))

/-- The tandem link: flits, training, silence and retraining, the partner's presence, its cadence frames and the standing copy of its map.
Stated of every state, or of a link that is up or down as each clause says. Rests on parts of R455, R456, R460, R463. -/
def Obligations.TandemLink : Prop :=
  -- A good flit in sequence frees what it acknowledges of the replay buffer, so that records that wait for room there go on,
  -- is acknowledged, and moves the expected number on, ending the run of replay requests; any other is answered with a replay
  -- request and counted (a bad CRC too), and the seventeenth in a row takes the link down; with the link down nothing happens.
  (∀ (s : State) (k : Bool) (n a : Nat) (t u : State), (t = (if k then s else rcAdd s 0xC0024 0 1) ∧ u = { s with tdm := { s.tdm with rxFlit := (s.tdm.rxFlit + 1) % 4096, replays := 0, txOut := s.tdm.txOut - a } }) → (s.tdm.linkUp = false → exec (.tandemFlitReceive k n a) s = .next s) ∧ (s.tdm.linkUp = true → exec (.tandemFlitReceive true s.tdm.rxFlit a) s = .next (tdmSend (if u.tdm.txOut < 1024 then mcastTandem u else u) (.tandem 14 [s.tdm.rxFlit]))) ∧ (s.tdm.linkUp = true → k = false ∨ n ≠ s.tdm.rxFlit → exec (.tandemFlitReceive k n a) s = .next (if 16 ≤ s.tdm.replays then tandemDown t 2 else tdmSend { (rcAdd t 0xC0028 0 1) with tdm := { s.tdm with replays := s.tdm.replays + 1 } } (.tandem 15 [s.tdm.rxFlit])))) ∧
  -- Training that completes on a link that runs sends this controller's identities; a partner strapped to the same side keeps
  -- the link down and is reported once.
  (∀ (s : State) (f h n : Nat) (t : State), (linkRuns s = true ∧ s.tdm.linkUp = false ∧ t = tdmSend s (.tandem 19 [if s.glb.straps.tdmSide then 1 else 0, fedId s, ownShelf s])) → exec (.tandemLinkUp s.glb.straps.tdmSide f h n) s = .next (if t.tdm.sideConflict = true then { t with tdm := { t.tdm with sideConflict := true } } else writeEvent { t with tdm := { t.tdm with sideConflict := true } } { num := 0x0B0C })) ∧
  -- With a partner on the other side the link is up, at half width with fewer than 32 lanes, with its events, the partner's
  -- identities are checked, the standing copies of the groups owned are sent and the pair state is noted.
  (∀ (s : State) (f h n : Nat) (t u : State), (linkRuns s = true ∧ s.tdm.linkUp = false ∧ t = tdmSend s (.tandem 19 [if s.glb.straps.tdmSide then 1 else 0, fedId s, ownShelf s])) → u = writeEvent { t with tdm := { t.tdm with linkUp := true, half := n != 32, sideConflict := false, rxFlit := 0, replays := 0, missed := 0, compared := false } } { num := 0x0B01, detail := [n] } → exec (.tandemLinkUp (!s.glb.straps.tdmSide) f h n) s = .next (notePair (sendStanding (sendStanding (checkIdentity (if n = 32 then u else writeEvent u { num := 0x0B0E, detail := [n] }) f h) 0) 1))) ∧
  -- A link that does not run, or is up, is neither trained nor retrained; a running link that is down retrains every second.
  (∀ (s : State) (b : Bool) (f h n : Nat), (linkRuns s = false ∨ s.tdm.linkUp = true → exec (.tandemLinkUp b f h n) s = .next s ∧ exec .tandemRetrainTimer s = .next s) ∧ (linkRuns s = true → s.tdm.linkUp = false → exec .tandemRetrainTimer s = .next (tdmSend s (.tandem 18 [])))) ∧
  -- A microsecond without a good flit, and the fall of PEER_ALIVE, take a link that is up down (causes 1 and 4) and start
  -- training; PEER_ALIVE shows what the pin shows.
  (∀ (s : State) (t : State), t = { s with tdm := { s.tdm with peerAlive := false } } → exec .tandemFlitSilence s = .next (if s.tdm.linkUp = true then tdmSend (linkDown s 1) (.tandem 18 []) else s) ∧ exec .peerAliveFall s = .next (if s.tdm.linkUp = true then tdmSend (linkDown t 4) (.tandem 18 []) else t) ∧ exec .peerAliveRise s = .next { s with tdm := { s.tdm with peerAlive := true } }) ∧
  -- A link that goes down empties the replay buffer and ends the standing copies, the count of missed frames and replays, and
  -- the releases queued; its event carries the number of the cause (the numbering is the model's, log 22); records that wait
  -- for the link go on, what waits for an echo ends as at its timeout, both groups are solo and their re-mirroring is dropped.
  (∀ (s : State) (k : Nat) (t : State), (s.tdm.linkUp = true ∧ t = { s with tdm := { s.tdm with linkUp := false, compared := false, missed := 0, replays := 0, txOut := 0, releases := [], grp0 := { s.tdm.grp0 with standing := false }, grp1 := { s.tdm.grp1 with standing := false } } }) → linkDown s k = notePair (setPair (remirrorAbort (setPair (remirrorAbort (echoEndAll (mcastTandem (writeEvent t { num := 0x0B02, detail := [Config.code 0x0B02 k] }))) 0) 0 .solo) 1) 1 .solo)) ∧
  -- A cadence tick sends a frame after trying the releases under way; the sixteenth in a row with no frame heard takes the
  -- link down (cause 3); with the link down nothing is sent.
  (∀ (s : State) (b : Bool), exec (.cadenceTick b) s = .next (if s.tdm.linkUp = false then s else if b = false ∧ 15 ≤ s.tdm.missed then tandemDown s 3 else sendFrame (releaseEnd (releaseEnd { s with tdm := { s.tdm with missed := if b then 0 else s.tdm.missed + 1 } } 0 false) 1 false))) ∧
  -- A frame with a wrong CRC is counted and dropped, one whose tick is not newer is dropped, and a newer one is kept and its
  -- releases, repairs, endings, awaited hand-backs and orphans are applied in that order; new addresses change what the
  -- discovery log counts.
  (∀ (s : State) (f : FrameItems) (t u : State), (s.tdm.linkUp = true ∧ t = { s with tdm := { s.tdm with frame := { tick := f.tick, mode := f.mode, owned := f.owned, seq0 := f.seq0, seq1 := f.seq1, catGen := f.catGen, unmirrored := f.unmirrored, latched := f.latched, retries := f.retries.foldl (fun t x => tput t 0 x.1 (x.2 + 1)) [], awaiting := f.awaiting, orphans := f.orphans, addrs := f.addrs } } }) → u = (if f.addrs = s.tdm.frame.addrs then t else discNote t) → exec (.cadenceFrameReceive false f) s = .next (rcAdd s 0xC0030 0 1) ∧ exec (.cadenceFrameReceive true f) s = .next (if f.tick ≤ s.tdm.frame.tick then s else orphansIn (orphansIn (f.awaiting.foldl awaitIn (f.endings.foldl endingIn (f.repairs.foldl repairIn (f.releases.foldl (fun t x => releaseIn t x.1 x.2) u)))) f 0) f 1)) ∧
  -- The owner's map entries that arrive for a group not owned here, with the link up, form its standing copy, complete with
  -- the last of them; of a group owned here they are ignored.
  (∀ (s : State) (g : Nat) (x : Grp) (a : AreaRead) (b : Bool) (t : State), (g < 2 ∧ x = grpOf s g ∧ t = setGrp s g { x with standing := x.standing || b, standingMap := a.map.foldl (fun t y => tput t {} y.1 y.2) x.standingMap }) → exec (.standingMapReceive g a b) s = .next (if s.tdm.linkUp = false ∨ x.owned = true then s else { t with fed := { t.fed with area := a.place.foldl (fun t y => tput t {} y.1 y.2) t.fed.area } }) ∧ exec (.standingMapReceive (g + 2) a b) s = .fault (.noSuchInstance "group")) ∧
  -- With the link down a frame is not taken.
  (∀ (s : State) (b : Bool) (f : FrameItems), s.tdm.linkUp = false → exec (.cadenceFrameReceive b f) s = .next s)

/-- Echoes of mirrored pages, their timeout, the retry of a re-mirroring, and Tandem Control.
Commands of a manager with its role, but for the last clause. Rests on parts of R26, R458, R459, R471. -/
def Obligations.EchoesAndReleases : Prop :=
  -- An echo goes through the bench's injection point 3 of the page's group, if one is armed; else, of a page that has no
  -- record, is free or staged, or holds another sequence number, it is only counted, and so, as stale, is one that comes after
  -- the wait for it ended.
  (∀ (s : State) (p q n : Nat) (t : State) (g : Page), (g = ownPg s p ∧ t = count s 0x0B02) → exec (.tandemEchoArrival p q n) s = .next (atPoint s 3 (match g.rc with | some r => r.group | none => 0) (.echo p q n) fun s => echoArrive s p q n) ∧ (g.rc = none → echoArrive s p q n = t) ∧ (∀ r, g.rc = some r → r.seq ≠ q ∨ g.st = .free ∨ g.st = .staged → echoArrive s p q n = t) ∧ (∀ r, g.rc = some r → r.seq = q → g.st ≠ .free → g.st ≠ .staged → g.late = true → (remirLeft t r.group).contains p = false → echoArrive s p q n = rcAdd t 0x70018 0 1)) ∧
  -- Any other echo of a page makes it mirrored (one being flushed, once the flush ends) and keeps the longest echo time, tells
  -- every context that waits for it, and counts a page that its group's re-mirroring has left: the last of them ends the re-
  -- mirroring.
  (∀ (s : State) (p n : Nat) (r : CommitRec) (g : Page) (t u : State), (g = ownPg s p ∧ g.rc = some r ∧ g.st ≠ .free ∧ g.st ≠ .staged ∧ t = rcMax (count s 0x0B02) 0xC0034 0 (min n 0xFFFF) ∧ (g.late = false ∨ (remirLeft s r.group).contains p = true)) → u = (ctxFilter (setOwn t p { g with unmir := false, late := false, st := if g.st = .committed then .mirrored else g.st, prior := if g.st = .flushing then .mirrored else g.prior }) fun c => c.echo.contains p).foldl (echoCtx p) (setOwn t p { g with unmir := false, late := false, st := if g.st = .committed then .mirrored else g.st, prior := if g.st = .flushing then .mirrored else g.prior }) → echoArrive s p r.seq n = if (remirLeft u r.group).contains p = false then u else (let v := unpinPage (setRemir u r.group ((remirLeft u r.group).filter (· != p)) (remirCount u r.group)) false p; if ((remirLeft u r.group).filter (· != p)).isEmpty then remirrorEnd v r.group else v)) ∧
  -- A context that waited for that echo alone goes on, durable where it has committed; one that waits for more keeps the
  -- others.
  (∀ (s : State) (p n : Nat) (c : Ctx) (d : Ctx), (c.run = .parked .echo ∧ d = { c with echo := c.echo.filter (· != p) }) → echoCtx p s (n, c) = if d.echo.isEmpty = false then setCtx s n (some d) else arrive (if c.committed = true then durableNow s { d with durable := c.committed, flg := flgPark c.flg true false false } else s) n { d with durable := c.committed, flg := flgPark c.flg true false false } 4) ∧
  -- An echo that does not come in time is counted, ends the wait of its context on the local commit alone and degrades a
  -- paired group; for a context that does not wait for an echo, or is none, it is stale.
  (∀ (s : State) (n : Nat) (c : Ctx), (ctxOf s n = none → exec (.echoTimeout (.ctx n)) s = .next (rcAdd s 0x70018 0 1)) ∧ (ctxOf s n = some c → exec (.echoTimeout (.ctx n)) s = .next (if c.run = .parked .echo then pairLost (echoEnd (rcAdd s 0xC002C 0 1) n c) (ctxGroup s c) (c.echo.headD 0) else rcAdd s 0x70018 0 1))) ∧
  -- One of a re-mirroring counts and ends that re-mirroring, with its event; a second later the re-mirroring of an owned,
  -- Degraded group starts again where the link is up and none runs. A group that does not exist is a fault.
  (∀ (s : State) (g : Nat) (x : Grp), (g < 2 ∧ x = grpOf s g) → exec (.echoTimeout (.remirror g)) s = .next (if x.remirror = true then writeEvent (remirrorAbort (rcAdd s 0xC002C 0 1) g) { num := 0x0B0D, inst := g, detail := [g] } else s) ∧ exec (.remirrorRetryTimer g) s = .next (if x.owned = true ∧ x.pair = .degraded ∧ s.tdm.linkUp = true ∧ x.remirror = false then remirrorStart s g else s) ∧ ∀ i ∈ [Instr.echoTimeout (.remirror (g + 2)), .remirrorRetryTimer (g + 2)], exec i s = .fault (.noSuchInstance "group")) ∧
  -- Tandem Control OP 1 is 0xEA for a group not owned, 0xEB while the partner does not answer, 0xE3 while that group is being
  -- released, and otherwise marks the release, tells the hosts, and completes it as soon as the group is drained, unless a
  -- mode event of the tick outranks it; another OP is Invalid Field.
  (∀ (s : State) (c : Cid) (d g : Nat) (x : Grp) (m : Moment) (t : State), (Manager s c 0 ∧ g = field d 8 1 ∧ x = grpOf s g ∧ t = noteAna (setGrp s g { x with releasing := some c })) → exec (.tandemReleaseGroup c d m) s = .next (if field d 0 4 ≠ 1 then reply s c .invalidField else if x.owned = false then reply s c (.vendor 0xEA) else if s.tdm.linkUp = false then reply s c (.vendor 0xEB) else if x.releasing.isSome = true then reply s c (.vendor 0xE3) else if outranked m.rivals .group = true then t else match (grpOf t g).releasing with | none => t | some e => if groupDrained t g = true then reply (releaseGroup t g 5) e .success else t)) ∧
  -- Tandem Control OP 2 ends the wait for the hand-back of a namespace that a group awaits, as abandoned, with its event, and
  -- succeeds; one that no group awaits is 0xE2, and another OP Invalid Field.
  (∀ (s : State) (c : Cid) (d e n : Nat), (Manager s c 0 ∧ n = field e 0 16) → exec (.abandonHandback c d e) s = .next (if field d 0 4 ≠ 2 then reply s c .invalidField else if (grpOf s 0).await.contains n = true then reply (awaitEnd (writeEvent s { num := 0x0B0B, inst := 0, detail := [n] }) 0 n true) c .success else if (grpOf s 1).await.contains n = true then reply (awaitEnd (writeEvent s { num := 0x0B0B, inst := 1, detail := [n] }) 1 n true) c .success else reply s c (.vendor 0xE2))) ∧
  -- In a mode without full management access neither has an effect, and a manager without its role gets only that status.
  (∀ (s : State) (c : Cid) (d e : Nat) (m : Moment) (w : Status), ∀ i ∈ [Instr.tandemReleaseGroup c d m, .abandonHandback c d e], (mgmtFull s = false → exec i s = .next s) ∧ (mgmtFull s = true → hasRole s c 0 = some w → exec i s = .next (reply s c w)))

/-- The service port's reset, link, Bus Master Enable, function-level resets, power states and vectors.
For a function n below 66 whose record is f. Rests on parts of R474, R479, R480, R481, R482, R485. -/
def Obligations.ServiceLink : Prop :=
  -- SVC_PERST_L or a hot reset clears the port's registers, resets every function and ends the link; the pin's state is kept
  -- for SVC_PERST_L. Its release lets go a held wake with its event.
  (∀ (s : State) (t : State), t = svcLinkLost (flr (flr (svcRegsClear s) 0) 1) → exec (.svcPerstAssert false) s = .next t ∧ exec (.svcPerstAssert true) s = .next { t with svc := { t.svc with perst := true } } ∧ exec .svcPerstRelease s = .next (if s.svc.wake = true then writeEvent { s with svc := { s.svc with perst := false, wake := false } } { num := 0x0E07, inst := s.svc.wakeFn, detail := [s.svc.wakeFn] } else { s with svc := { s.svc with perst := false, wake := false } })) ∧
  -- The link trains with PERST released, outside Held and after Boot step 2, at a speed from 1 to MAX_GTS and a width of 1, 2,
  -- 4 or 8, with its event; a link that is up and lost closes the port's SPDM contexts and shows speed and width 0 with its
  -- event.
  (∀ (s : State) (g w : Nat), exec (.svcLinkUp g w) s = .next (if s.svc.perst = false ∧ s.glb.mode ≠ .held ∧ (s.glb.mode = .boot → 2 < s.glb.bootStep) ∧ g ≠ 0 ∧ g ≤ maxGts s ∧ w ∈ [1, 2, 4, 8] then writeEvent { s with svc := { s.svc with linkUp := true, gts := g, width := w } } { num := 0x0E01, inst := 0, detail := [0, g, w] } else s) ∧ exec .svcLinkDown s = .next (if s.svc.linkUp = true then writeEvent { closePortCtxs s with svc := { s.svc with linkUp := false, gts := 0, width := 0 } } { num := 0x0E02, inst := 0, detail := [0] } else s)) ∧
  -- On a function in force, outside its FLR and with PERST released, clearing Bus Master Enable stops new DMA and, with reads
  -- or fetches outstanding, begins the hold with its event; setting it ends the hold and sends what waited, in order, unless
  -- the function is in D3hot. Then the configuration controls that came with the write take effect.
  (∀ (s : State) (n : Nat) (f : SvcFn) (c : FnCfg), (n < 66 ∧ f = fnOf s n ∧ fnLive s n = true ∧ f.flr = false ∧ s.svc.perst = false) → (f.bme = false → exec (.bmeClear n c) s = .next (setFnCfg s n c)) ∧ (f.bme = true → exec (.bmeClear n c) s = .next (setFnCfg (if f.dma = [] ∧ f.fetching = [] then setFn s n { f with bme := false, hold := false } else writeEvent (setFn s n { f with bme := false, hold := true }) { num := 0x0E04, inst := n, instar := f.instar.val.toNat, detail := [n] }) n c)) ∧ exec (.bmeSet n c) s = .next (setFnCfg (flushHolding (setFn s n { f with bme := true, hold := false }) n) n c)) ∧
  -- The configuration controls that come with such a write: MSI-X Enable and the Function Mask take their values, a mask that
  -- clears sends one message for each vector pending and not masked itself, and NumVFs of PF1, at most TOTAL_VFS, resets the
  -- VFs that cease (the rows that bring them are the model's choice, log 70).
  (∀ (s : State) (n : Nat) (f : SvcFn) (c : FnCfg) (l : List Nat) (t : State), (f = fnOf s n ∧ l = (if f.fnMask = true ∧ c.fnMask = false then f.pending.filter fun v => !f.masked.contains v else []) ∧ t = setFn s n { f with msixEn := c.msixEn, fnMask := c.fnMask, pending := f.pending.filter fun v => !l.contains v }) → setFnCfg s n c = l.foldl (fun u v => raiseVec u n v) (if n = 1 then setVfs t (min c.vfs (totalVfs t)) else t)) ∧
  -- On a function that is not in force, is in its FLR, or while PERST is asserted, these change nothing.
  (∀ (s : State) (n : Nat) (c : FnCfg) (b : Bool), (n < 66 ∧ (fnLive s n = false ∨ (fnOf s n).flr = true ∨ s.svc.perst = true)) → exec (.bmeClear n c) s = .next s ∧ exec (.bmeSet n c) s = .next s ∧ exec (.d3hotEntry n b) s = .next s ∧ exec (.d0Return n b) s = .next s) ∧
  -- After BME_HOLD_MS a function whose hold still runs, with Bus Master Enable clear, drops what waits, sets CSTS.CFS, resets
  -- its virtual controller (its commands aborted) and writes its event; otherwise nothing happens.
  (∀ (s : State) (n : Nat) (f : SvcFn) (t : State), (n < 66 ∧ f = fnOf s n ∧ t = vcResetBy s (65536 + n) false abortCtx) → exec (.bmeHoldExpiry n) s = .next (if f.bme = true ∨ f.hold = false then s else writeEvent (setFn t n { fnOf t n with holding := [], hold := false, cfs := true }) { num := 0x0E05, inst := n, instar := f.instar.val.toNat, detail := [n] })) ∧
  -- An FLR resets a function that is in force, PF1 with its VFs, whose number goes to 0; its end clears all of the function
  -- but its instar and PME_En; without one under way the end does nothing.
  (∀ (s : State) (n : Nat) (f : SvcFn), (n < 66 ∧ f = fnOf s n) → exec (.flrInitiate n) s = .next (if fnLive s n = false then s else if n = 1 then setVfs (flrOne s 1) 0 else flrOne s n) ∧ exec (.flrComplete n) s = .next (if f.flr = true then setFn s n { instar := f.instar, pmeEn := f.pmeEn } else s)) ∧
  -- The reset of one function ends its virtual controller (its commands withdrawn, their completions dropped), stops DMA and
  -- readiness, bumps the instar and drops what waits and what is outstanding, counts, and writes its event with the commands
  -- withdrawn; PF0's also ends the MCTP assembly, closes the port's SPDM contexts and abandons a staging session that PF0
  -- opened.
  (∀ (s : State) (n : Nat) (t u v w : State), (t = assocEndBy (setFn s n { fnOf s n with flr := true, bme := false, rdy := false, instar := bumpInstar (fnOf s n).instar s.now (ticksMs 1) }) (65536 + n) false withdrawCtx ∧ u = setFn t n { fnOf t n with holding := [], hold := false, dma := [], fetching := [] } ∧ v = writeEvent (rcAdd u 0xD0010 0 1) { num := 0x0E03, inst := n, instar := (fnOf u n).instar.val.toNat, detail := [n, (vcCommands s (65536 + n)).length] } ∧ w = closePortCtxs { v with svc := { v.svc with mctpAsm := false } }) → flrOne s n = if n ≠ 0 then v else match w.nor.session with | some x => if x.owner = .pf0 then abandonSession w else w | none => w) ∧
  -- VFs that cease as NumVFs becomes k are each reset, in order; then k stand.
  (∀ (s : State) (k : Nat) (t : State), t = (List.range (s.svc.vfs - k)).foldl (fun u i => flrOne u (k + i + 2)) s → setVfs s k = { t with svc := { t.svc with vfs := k } }) ∧
  -- Unmasking a vector ends its mask; a pending message, or a new event in the same cycle, is then raised once, and the
  -- pending bit ends, unless the whole function is masked.
  (∀ (s : State) (n v : Nat) (f : SvcFn) (b : Bool) (t : State), (n < 66 ∧ f = fnOf s n ∧ t = setFn s n { f with masked := f.masked.filter (· != v), pending := if f.fnMask then f.pending else f.pending.filter (· != v) }) → exec (.msixUnmask n v b) s = .next (if b = true ∨ (f.pending.contains v = true ∧ f.fnMask = false) then raiseVec t n v else t)) ∧
  -- A message of a function with MSI-X on and PERST released: a masked one only stays pending, once; in D3hot it waits, and
  -- with PME_En set counts and sends a PME; without Bus Master Enable it waits; else it is sent. With MSI-X off there is none.
  -- With PERST asserted a function with PME_En set drives the wake pin, the first keeping its number, and counts; another does
  -- nothing.
  (∀ (s : State) (n v : Nat) (f : SvcFn), f = fnOf s n → (s.svc.perst = false → f.msixEn = true → f.fnMask = true ∨ f.masked.contains v = true → raiseVec s n v = setFn s n { f with pending := if f.pending.contains v then f.pending else f.pending ++ [v] }) ∧ (s.svc.perst = false → f.msixEn = true → f.fnMask = false → f.masked.contains v = false → f.d3hot = false → raiseVec s n v = if f.bme = true then emit s (.msix n v) else setFn s n { f with holding := f.holding ++ [.msix n v] }) ∧ (∀ t, t = setFn s n { f with holding := f.holding ++ [.msix n v] } → s.svc.perst = false → f.msixEn = true → f.fnMask = false → f.masked.contains v = false → f.d3hot = true → raiseVec s n v = if f.pmeEn = true then emit (rcAdd t 0xD001C 0 1) (.pme n) else t) ∧ (s.svc.perst = false → f.msixEn = false → raiseVec s n v = s) ∧ (s.svc.perst = true → raiseVec s n v = if f.pmeEn = true then rcAdd { s with svc := { s.svc with wake := true, wakeFn := if s.svc.wake = true then s.svc.wakeFn else n } } 0xD001C 0 1 else s)) ∧
  -- A function in force, outside its FLR and with PERST released, enters D3hot; on its return to D0 what waited is sent where
  -- Bus Master Enable is on. Each takes the PME_En that comes with it.
  (∀ (s : State) (n : Nat) (b : Bool), (n < 66 ∧ fnLive s n = true ∧ (fnOf s n).flr = false ∧ s.svc.perst = false) → exec (.d3hotEntry n b) s = .next (setFn s n { fnOf s n with d3hot := true, pmeEn := b }) ∧ exec (.d0Return n b) s = .next (flushHolding (setFn s n { fnOf s n with d3hot := false, pmeEn := b }) n)) ∧
  -- What waits goes out in order once Bus Master Enable is on and the function is not in D3hot.
  (∀ (s : State) (n : Nat) (f : SvcFn), f = fnOf s n → flushHolding s n = if f.bme = true ∧ f.d3hot = false then f.holding.foldl emit (setFn s n { f with holding := [] }) else s) ∧
  -- A function that does not exist is a fault.
  (∀ (s : State) (n k g : Nat) (c : FnCfg) (b : Bool) (v : Word) (d : DmaRead), 66 ≤ n → ∀ i ∈ [Instr.bmeClear n c, .bmeSet n c, .bmeHoldExpiry n, .flrInitiate n, .flrComplete n, .msixUnmask n k b, .d3hotEntry n b, .d0Return n b, .svcNvmeRegisterWrite n k v, .svcDmaReadCompletion n g d b], exec i s = .fault (.noSuchInstance "service-port function"))

/-- The register block of a function, its DMA reads, the MCTP messages and Service Function Bind.
For a function n below 66 whose record is f; the messages where MCTP is served, but for the clause that says otherwise.
Rests on parts of R476, R477, R478, R479, R481, R483. -/
def Obligations.ServiceRegistersAndMctp : Prop :=
  -- CC stores its value and the shutdown status it asks for, enables the function where EN rises and disables it where EN
  -- falls; AQA, ASQ and ACQ, a half at a time, are written while EN is 0 and ignored while it is 1.
  (∀ (s : State) (n : Nat) (v : Word) (f : SvcFn) (t : State), (n < 66 ∧ f = fnOf s n ∧ fnLive s n = true ∧ f.flr = false ∧ f.d3hot = false ∧ s.svc.perst = false ∧ s.glb.mode ≠ .held) → t = setFn s n { f with cc := v.toNat, shst := if field v.toNat 14 2 = 0 then 0 else 2 } → exec (.svcNvmeRegisterWrite n 0x14 v) s = .next (if bitAt v.toNat 0 = true ∧ bitAt f.cc 0 = false then fnEnable t n else if bitAt v.toNat 0 = false ∧ bitAt f.cc 0 = true then fnDisable t n else t) ∧ (bitAt f.cc 0 = true → ∀ o ∈ [0x24, 0x28, 0x2C, 0x30, 0x34], exec (.svcNvmeRegisterWrite n o v) s = .next s) ∧ (bitAt f.cc 0 = false → exec (.svcNvmeRegisterWrite n 0x24 v) s = .next (setFn s n { f with aqa := v.toNat }) ∧ exec (.svcNvmeRegisterWrite n 0x28 v) s = .next (setFn s n { f with asq := f.asq / 2 ^ 32 * 2 ^ 32 + v.toNat }) ∧ exec (.svcNvmeRegisterWrite n 0x2C v) s = .next (setFn s n { f with asq := f.asq % 2 ^ 32 + v.toNat * 2 ^ 32 }) ∧ exec (.svcNvmeRegisterWrite n 0x30 v) s = .next (setFn s n { f with acq := f.acq / 2 ^ 32 * 2 ^ 32 + v.toNat }) ∧ exec (.svcNvmeRegisterWrite n 0x34 v) s = .next (setFn s n { f with acq := f.acq % 2 ^ 32 + v.toNat * 2 ^ 32 }))) ∧
  -- Enabling PF0 makes its management queue ready in the modes that serve it; another function, bound to an active tenant
  -- while the data path runs, becomes a virtual controller of it, with the queue limits of the image, and is ready. Disabling
  -- ends the virtual controller, its commands aborted, and clears readiness, the fault and shutdown status, the doorbells and
  -- the fetches.
  (∀ (s : State) (n : Nat) (r : VssRec) (t : State), (vssOf s (fnVss s n) = some r ∧ t = assocEndBy s (65536 + n) true abortCtx) → fnEnable s 0 = setFn s 0 { fnOf s 0 with rdy := mgmtFull s || s.glb.mode == .safe || s.glb.mode == .boot } ∧ (n ≠ 0 → fnEnable s n = if fnVss s n ≠ 0 ∧ r.state = .active ∧ dataRuns s = true then setFn (setAssoc s (65536 + n) (some { vss := fnVss s n, qp := 65536, cc := (fnOf s n).cc, rdy := true, maxQd := maxQd s, maxIo := maxIoQueues s, icd := icdKib s })) n { fnOf s n with rdy := true } else s) ∧ fnDisable s n = setFn t n { fnOf t n with rdy := false, cfs := false, shst := 0, bells := [], fetching := [] }) ∧
  -- A doorbell of an existing queue of a ready function, in range, stores its value, and a moved submission tail starts
  -- fetching where DMA may run; one of a function not ready, of a queue it has not or out of range does nothing. A vector
  -- control word of the MSI-X table masks or unmasks its vector; the other words of the table and the offsets of no register
  -- do nothing. A write to a function that is not in force, resets or sleeps, and any write with PERST asserted or in Held,
  -- does nothing.
  (∀ (s : State) (n i : Nat) (v : Word) (f : SvcFn), (n < 66 ∧ f = fnOf s n) → (∀ k, i = 0x1000 + 4 * k → k < 1024 → fnLive s n = true → f.flr = false → f.d3hot = false → s.svc.perst = false → s.glb.mode ≠ .held → exec (.svcNvmeRegisterWrite n i v) s = .next (if f.rdy = true ∧ k < 2 * fnQueues s n ∧ v.toNat < fnMaxQd s n then setFn s n { f with bells := tput f.bells 0 k v.toNat, fetching := if k % 2 = 0 ∧ tget f.bells 0 k ≠ v.toNat ∧ fnDmaOn s n = true ∧ f.fetching.contains (k / 2) = false then f.fetching ++ [k / 2] else f.fetching } else s)) ∧ (∀ k, i = (msixTable n).1 + 16 * k + 12 → k < (msixTable n).2 → fnLive s n = true → f.flr = false → f.d3hot = false → s.svc.perst = false → s.glb.mode ≠ .held → exec (.svcNvmeRegisterWrite n i v) s = (if bitAt v.toNat 0 = true then .next (setFn s n { f with masked := if f.masked.contains k then f.masked else f.masked ++ [k] }) else exec (.msixUnmask n k false) s)) ∧ (∀ k j, i = (msixTable n).1 + 16 * k + j → k < (msixTable n).2 → j < 12 → exec (.svcNvmeRegisterWrite n i v) s = .next s) ∧ (i < 0x1000 → i ∉ [0x14, 0x24, 0x28, 0x2C, 0x30, 0x34] → exec (.svcNvmeRegisterWrite n i v) s = .next s) ∧ (fnLive s n = false ∨ f.flr = true ∨ f.d3hot = true ∨ s.svc.perst = true ∨ s.glb.mode = .held → exec (.svcNvmeRegisterWrite n i v) s = .next s)) ∧
  -- A completion goes through the bench's injection point 7 of the function, if one is armed; else one whose tag is not the
  -- function's instar is counted and discarded; a current one ends the fetch of the queue it answers, or, with Bus Master
  -- Enable off or as an Unsupported Request or abort, ends the transfer of its context as failed; the data of a good transfer
  -- comes with the transfer's own end.
  (∀ (s : State) (n g k : Nat) (f : SvcFn) (b : Bool) (d : DmaRead), (n < 66 ∧ f = fnOf s n) → exec (.svcDmaReadCompletion n g d b) s = .next (atPoint s 7 n (.dma n g d b) fun s => dmaCompletion s n g d b) ∧ (stale f.instar g = false → dmaCompletion s n g (.entries k) b = setFn s n { f with fetching := f.fetching.filter (· != k) } ∧ dmaCompletion s n g (.data k) b = if f.bme = false ∨ b = true then hostTransfer s k false [] [] else s) ∧ (stale f.instar g = true → ∃ t i, (t, i) = discardStale (rcAdd s 0xD0014 0 1) 0x0E 0x0E06 n f.instar ∧ dmaCompletion s n g d b = setFn t n { fnOf t n with instar := i })) ∧
  -- Set Endpoint ID stores and answers it, Get Endpoint ID answers it, Get Version Support answers a value the spec does not
  -- state, Get Message Type Support the types 0, 5 and 0x7E, and any other command an error; nothing is answered where MCTP is
  -- not served.
  (∀ (s : State) (a n : Nat), mctpServed s = true → exec (.mctpControl 1 a) s = .next (emit { s with svc := { s.svc with eid := a % 256 } } (.mctp 0 [1, a % 256])) ∧ exec (.mctpControl 2 a) s = .next (emit s (.mctp 0 [2, s.svc.eid])) ∧ exec (.mctpControl 4 a) s = .next (emit { s with freeCtr := s.freeCtr + 1 } (.mctp 0 [4, Config.freeValue s.freeCtr])) ∧ exec (.mctpControl 5 a) s = .next (emit s (.mctp 0 [5, 0, 5, 0x7E])) ∧ (n ≠ 1 → n ≠ 2 → n ≠ 4 → n ≠ 5 → exec (.mctpControl n a) s = .next (emit s (.mctp 0 [n, 0x105])))) ∧
  -- An SPDM message of at most 8,192 bytes is served by the responder for that endpoint, in the modes that serve it; a longer
  -- one is dropped.
  (∀ (s : State) (e n : Nat) (q : SpdmReq), mctpServed s = true → (8192 < n → exec (.mctpSpdm e n q) s = .next s) ∧ (n ≤ 8192 → authMode s = true → exec (.mctpSpdm e n q) s = .next (emit (spdmServe s (.mctp e) q).1 (.spdm (.mctp e) (spdmServe s (.mctp e) q).2.1 (spdmServe s (.mctp e) q).2.2))) ∧ (authMode s = false → exec (.mctpSpdm e n q) s = .next s)) ∧
  -- A vendor-defined message carries the management command of its opcode, for the MCTP endpoint, and has its effect.
  (∀ (s : State) (e n i a b c d f : Nat) (m : Moment), (mctpServed s = true ∧ n ≤ 8128) → exec (.mctpVendorManagement e n 0xE4 i a b c d f m) s = exec (.keyRotate ⟨.mctp e, i⟩ a) s ∧ exec (.mctpVendorManagement e n 0xE6 i a b c d f m) s = exec (.chunkMapRead ⟨.mctp e, i⟩ a) s ∧ exec (.mctpVendorManagement e n 0xEA i a b c d f m) s = exec (.leaseRead ⟨.mctp e, i⟩ a) s ∧ exec (.mctpVendorManagement e n 0xEB i a b c d f m) s = exec (.leaseRelease ⟨.mctp e, i⟩ a) s ∧ exec (.mctpVendorManagement e n 0xC0 i a b c d f m) s = exec (.formatCocoon ⟨.mctp e, i⟩ a) s ∧ exec (.mctpVendorManagement e n 0xC6 i a b c d f m) s = exec (.eventRead ⟨.mctp e, i⟩ a b c) s ∧ exec (.mctpVendorManagement e n 0xCB i a b c d f m) s = exec (.imageSlotInfo ⟨.mctp e, i⟩) s ∧ exec (.mctpVendorManagement e n 0xCE i a b c d f m) s = exec (.serviceFunctionBind ⟨.mctp e, i⟩ a) s ∧ exec (.mctpVendorManagement e n 0xCF i a b c d f m) s = exec (.fieldLock ⟨.mctp e, i⟩ a) s ∧ exec (.mctpVendorManagement e n 0xD4 i a b c d f m) s = exec (.vssReset ⟨.mctp e, i⟩ a) s ∧ exec (.mctpVendorManagement e n 0xDE i a b c d f m) s = exec (.virtualControllerReset ⟨.mctp e, i⟩ a) s) ∧
  -- Register Read and Write (0xC4, 0xC5), Image Activate, Tandem and Rebuild Control by their OP, Tenant Queue Freeze and
  -- Thaw, Dirty Log Control and Harvest, Catalog Read, VSS Remove and Management Challenge come the same way; an opcode not in
  -- the table is Invalid Command Opcode.
  (∀ (s : State) (e n i a b c d f : Nat) (m : Moment), (mctpServed s = true ∧ n ≤ 8128) → exec (.mctpVendorManagement e n 0xC4 i a b c d f m) s = exec (.registerRead ⟨.mctp e, i⟩ (word a) (word b) (word c) (word d)) s ∧ exec (.mctpVendorManagement e n 0xC5 i a b c d f m) s = exec (.registerWrite ⟨.mctp e, i⟩ (word a) (word b) (word c) (word d) (word f) m) s ∧ exec (.mctpVendorManagement e n 0xE5 i a b c d f m) s = (if bitAt a 1 = true then exec (.rebuildCancel ⟨.mctp e, i⟩ a) s else exec (.rebuildStart ⟨.mctp e, i⟩ a) s) ∧ exec (.mctpVendorManagement e n 0xCA i a b c d f m) s = (if bitAt a 0 = true then exec (.imageActivateWarm ⟨.mctp e, i⟩ m) s else exec (.imageActivateLive ⟨.mctp e, i⟩ m) s) ∧ exec (.mctpVendorManagement e n 0xCD i a b c d f m) s = (if field a 0 4 = 2 then exec (.abandonHandback ⟨.mctp e, i⟩ a b) s else exec (.tandemReleaseGroup ⟨.mctp e, i⟩ a m) s) ∧ exec (.mctpVendorManagement e n 0xD0 i a b c d f m) s = exec (.managementChallenge ⟨.mctp e, i⟩) s ∧ exec (.mctpVendorManagement e n 0xD5 i a b c d f m) s = exec (.vssRemove ⟨.mctp e, i⟩ a) s ∧ exec (.mctpVendorManagement e n 0xD7 i a b c d f m) s = exec (.catalogRead ⟨.mctp e, i⟩ a b c) s ∧ exec (.mctpVendorManagement e n 0xD8 i a b c d f m) s = exec (.tenantQueueFreeze ⟨.mctp e, i⟩ a b) s ∧ exec (.mctpVendorManagement e n 0xDB i a b c d f m) s = exec (.tenantQueueThaw ⟨.mctp e, i⟩ a) s ∧ exec (.mctpVendorManagement e n 0xDC i a b c d f m) s = exec (.dirtyLogControl ⟨.mctp e, i⟩ a b c d) s ∧ exec (.mctpVendorManagement e n 0xDD i a b c d f m) s = exec (.dirtyLogHarvest ⟨.mctp e, i⟩ a b c) s ∧ ∀ o ∈ [0, 0x0D - 1, 0xC1, 0xC2, 0xDF, 0xE0, 0xFF], exec (.mctpVendorManagement e n o i a b c d f m) s = .next (if mgmtFull s = true then reply s ⟨.mctp e, i⟩ .invalidOpcode else s)) ∧
  -- More than 8,128 data bytes are Invalid Field in Command in the modes that serve registers. The commands whose data or
  -- report come with their own rows act through those and not through this one (the model's choice, log 28).
  (∀ (s : State) (e n o i a b c d f : Nat) (m : Moment), mctpServed s = true → (8128 < n → exec (.mctpVendorManagement e n o i a b c d f m) s = .next (if regsWritable s = true then reply s ⟨.mctp e, i⟩ .invalidField else s)) ∧ (n ≤ 8128 → o ∈ [0x0D, 0x15, 0xC8, 0xC9, 0xCC, 0xD1, 0xD2, 0xD3, 0xD6, 0xD9, 0xDA, 0xE2, 0xE8, 0xE9] → exec (.mctpVendorManagement e n o i a b c d f m) s = .next s)) ∧
  -- Where MCTP is not served these have no effect.
  (∀ (s : State) (e n o i a b c d f : Nat) (m : Moment) (q : SpdmReq), mctpServed s = false → exec (.mctpControl o a) s = .next s ∧ exec (.mctpSpdm e n q) s = .next s ∧ exec (.mctpVendorManagement e n o i a b c d f m) s = .next s) ∧
  -- Service Function Bind with tenant 0 is 0xE2 for function 0 or one that does not exist, 0xE3 while it is enabled, and
  -- otherwise the catalog change that unbinds it.
  (∀ (s : State) (c : Cid) (d n : Nat), (Manager s c 0 ∧ n = field d 0 7 ∧ field d 16 12 = 0) → exec (.serviceFunctionBind c d) s = .next (if n = 0 ∨ fnExists s n = false then reply s c (.vendor 0xE2) else if bitAt (fnOf s n).cc 0 = true then reply s c (.vendor 0xE3) else catCommand s c [.bind s.glb.straps.tdmSide n 0] 0 7 n)) ∧
  -- With a tenant named it is 0xE2 too where that tenant is not active, 0xE0 where it has no association left for a function
  -- not bound to it yet, and otherwise the catalog change of that one binding.
  (∀ (s : State) (c : Cid) (d n v : Nat) (r : VssRec), (Manager s c 0 ∧ n = field d 0 7 ∧ v = field d 16 12 ∧ v ≠ 0 ∧ vssOf s v = some r) → exec (.serviceFunctionBind c d) s = .next (if r.state ≠ .active ∨ n = 0 ∨ fnExists s n = false then reply s c (.vendor 0xE2) else if bitAt (fnOf s n).cc 0 = true then reply s c (.vendor 0xE3) else if fnVss s n ≠ v ∧ r.maxAssoc ≤ tenantAssocs s v then reply s c (.vendor 0xE0) else catCommand s c [.bind s.glb.straps.tdmSide n v] 0 7 n)) ∧
  -- In a mode without full management access it has no effect, a manager without its role gets only that status, and with a
  -- tenant that does not exist named it is 0xE2.
  (∀ (s : State) (c : Cid) (d : Nat) (w : Status), (mgmtFull s = false → exec (.serviceFunctionBind c d) s = .next s) ∧ (mgmtFull s = true → hasRole s c 0 = some w → exec (.serviceFunctionBind c d) s = .next (reply s c w)) ∧ (Manager s c 0 → field d 16 12 ≠ 0 → vssOf s (field d 16 12) = none → exec (.serviceFunctionBind c d) s = .next (reply s c (.vendor 0xE2))))

/-- The event ring, its reads, and the cyclometer's controls.
Commands of a manager with their role, but for the clause that says otherwise; a path p of register access. Rests on parts
of R499, R500, R501, R502, R507, R508, R516. -/
def Obligations.RecordsAndCounters : Prop :=
  -- Once the ring can be written and has been scanned, every queued record is written with LATE set, oldest first, and records
  -- lost meanwhile are reported once; until then nothing happens.
  (∀ (s : State) (t : State), t = (List.range (s.evr.queue.length + 1)).foldl (fun u _ => drainOne u) s → (ringWritable s = false ∨ s.evr.scanned = false → exec .eventQueueDrain s = .next s) ∧ (ringWritable s = true → s.evr.scanned = true → exec .eventQueueDrain s = .next (if t.evr.lostNew = 0 then t else writeEvent { t with evr := { t.evr with lostNew := 0 } } { num := 0x0C31, detail := [t.evr.lostNew] }))) ∧
  -- Writing one queued record takes the oldest out of the queue and puts it, with LATE set, into its place in the ring; with
  -- none queued it changes nothing.
  (∀ (s : State) (r : EvRec) (l : List EvRec), (s.evr.queue = [] → drainOne s = s) ∧ (s.evr.queue = r :: l → drainOne s = freezeOn (ringPut { s with evr := { s.evr with queue := l } } { r with late := true }) r.num)) ∧
  -- After a second with suppression one record with the numbers and counts is written and they restart; without suppression
  -- nothing happens.
  (∀ (s : State), exec .evrSuppressedSummary s = .next (if s.evr.supp = [] then s else writeEvent { s with evr := { s.evr with supp := [] } } { num := 0x0C30, detail := suppItems s.evr.supp })) ∧
  -- Event Read of 1 to 4,096 records from a first sequence, in the modes that serve register access, answers the live records
  -- from there and how many sequences it skipped; any other count is Invalid Field. In another mode it has no effect, and a
  -- manager without the Read role gets only that status.
  (∀ (s : State) (c : Cid) (a b n f k : Nat) (l : List Nat), (f = a % 2 ^ 32 + 2 ^ 32 * (b % 2 ^ 32) ∧ k = n % 2 ^ 32 ∧ l = liveSeqs s f) → (authMode s = true → hasRole s c 1 = none → exec (.eventRead c a b n) s = .next (if k = 0 ∨ 4096 < k then reply s c .invalidField else reply s c .success ((l.take k).length + 65536 * min 0xFFFF (match l with | q :: _ => q - f | [] => s.evr.head - f)) ((l.take k).flatMap (readBytes s)))) ∧ (authMode s = false → exec (.eventRead c a b n) s = .next s) ∧ (∀ e, authMode s = true → hasRole s c 1 = some e → exec (.eventRead c a b n) s = .next (reply s c e))) ∧
  -- A read of EVR_WINDOW word 0 answers the record the cursor names and holds its other words and its status for that path; in
  -- Held nothing answers.
  (∀ (s : State) (p : Path) (l : List Nat), l = evrWords s (evrCursor s) → exec (.evrWindowRead p) s = .next (if s.glb.mode = .held then s else emit (snapWords (snapWords s p 0x18010 (evrCursor s) false [evrStatus s (evrCursor s)]) p 0x18104 (evrCursor s) false (l.drop 1)) (.readData (word (l.headD 0))))) ∧
  -- A write of CYC_CTL, in the modes that serve register writes, stores its enables and event, clears every counter where
  -- CLEAR_ALL is 1, and freezes or resumes the counters as FREEZE says.
  (∀ (s : State) (v : Word) (t u : State), (t = { s with cyc := { s.cyc with onPin := bitAt v.toNat 2, onEvent := bitAt v.toNat 3, freezeEvent := field v.toNat 16 16 } } ∧ u = (if bitAt v.toNat 1 = true then cycClear t else t)) → exec (.cycFreeze v) s = .next (if authMode s = false then s else if bitAt v.toNat 0 = true then freezeNow u 1 else { u with cyc := { u.cyc with frozen := false, cause := 0 } }) ∧ exec (.cycResume v) s = exec (.cycFreeze v) s ∧ exec (.cycClearAll v) s = exec (.cycFreeze v) s) ∧
  -- Freezing stops every counter with its cause and writes the freeze event, once; the freeze pin freezes on the edge
  -- configured, where it is enabled and claimed.
  (∀ (s : State) (k : Nat) (b : Bool), (s.cyc.frozen = true → freezeNow s k = s) ∧ (s.cyc.frozen = false → freezeNow s k = placeEvent { s with cyc := { s.cyc with frozen := true, cause := k } } { num := 0x0C50, detail := [k] }) ∧ exec (.freezePinEdge b) s = .next (if s.cyc.onPin = true ∧ pinClaimed s 0x0050 = true ∧ bitAt (par s 0x13 9 1 0) 0 = b then freezeNow s 2 else s)) ∧
  -- At a window's end the count of every window counter moves to its window value and restarts at 0; frozen counters keep
  -- theirs.
  (∀ (s : State), exec .cycWindowEnd s = .next (if s.cyc.frozen = true then s else { s with cyc := { s.cyc with ctrs := s.cyc.ctrs.foldl (fun t x => if x.2.window = true then tput t {} x.1 { x.2 with windowVal := x.2.value, value := 0 } else t) s.cyc.ctrs } }))

/-- The flip mask, the DRAM scrubber, the field lock, the injectors of the protocol test bench and its capture.
Stated of every state, or in the modes that each clause says. Rests on parts of R491, R495, R496, R510, R511, R512, R516. -/
def Obligations.MemoryAndTestBench : Prop :=
  -- A write of MEM_FLIP_CTL, in the modes that serve register writes, stores target, word and arm, unless it would arm under
  -- the field lock, which is only marked as refused.
  (∀ (s : State) (v : Word), exec (.flipArm v) s = .next (if authMode s = false then s else if bitAt v.toNat 8 = true ∧ s.trs.fieldLock = true then { s with mem := { s.mem with flipRefused := true } } else { s with mem := { s.mem with flipTarget := field v.toNat 0 5, flipWord := field v.toNat 5 3, flipArm := bitAt v.toNat 8 } })) ∧
  -- The scrubber's read of a data line of a declared region shows its progress and is corrected or uncorrectable where a flip
  -- stands on the line, and else as reported: a clean read clears a poison of that line, a corrected one counts too, one good
  -- on the reread is a transient, and one bad twice poisons a line not poisoned yet. A line of a region not swept is only
  -- reported; an address that is no data line does nothing, and a region that does not exist is a fault.
  (∀ (s : State) (r a k : Nat) (x y : LineRead) (t u : State), (r < 16 ∧ t = setRegion s r { regionOf s r with scrubPct := min 100 k } ∧ (y, u) = flipRead t r a x) → (dataLine (regionOf s r) a = false → exec (.dramScrubLine r a x k) s = .next s) ∧ (dataLine (regionOf s r) a = true → exec (.dramScrubLine r a x k) s = .next (if (regionOf u r).init = false then writeEvent u { num := 0x0F04, inst := r, detail := [r] } else match y with | .clean => unpoison u r a | .corrected => dramCorrected (unpoison u r a) r a | .badThenGood => transient (unpoison u r a) 15 r 1 0x0F02 | .badTwice => if (regionOf u r).poison.contains a = true then u else dramPoison u r a)) ∧ exec (.dramScrubLine (r + 16) a x k) s = .fault (.noSuchInstance "region")) ∧
  -- A read of a line with a flip armed takes it away and is uncorrectable where the flip is, and else corrected or worse as
  -- the line is; without one it is as reported.
  (∀ (s : State) (r a : Nat) (x : LineRead), flipRead s r a x = match s.mem.flips.find? fun f => f.1 == r && f.2.1 == a with | none => (x, s) | some f => (if f.2.2 = true then .badTwice else if x = .badTwice then x else .corrected, unflip s r a)) ∧
  -- Field Lock, for the Image role, in Standby, Active or Drain, with another word than 0x4C4B0001 is Invalid Field; locked
  -- already it succeeds; and else it disarms every injector, burns the lock, withdraws the test bench and writes its event.
  (∀ (s : State) (c : Cid) (d : Nat) (t : State), (Manager s c 2 ∧ t = (List.range 8).foldl injDisarm s) → exec (.fieldLock c d) s = .next (if d % 2 ^ 32 ≠ 0x4C4B0001 then reply s c .invalidField else if s.trs.fieldLock = true then reply s c .success else reply (writeEvent { t with trs := { t.trs with fieldLock := true }, ptb := { t.ptb with available := false } } { num := 0x0C42 }) c .success)) ∧
  -- With the test bench available a write of PTB_CFG stores the injector's fields; ARM 1 arms it with its event where the kind
  -- fits the point and the parameters fit, and else reports BAD_CFG and disarms it; ARM 0 disarms it. Without the test bench
  -- nothing happens.
  (∀ (s : State) (i : Nat) (v : Word) (j : Injector) (t : State), (i < 8 ∧ authMode s = true ∧ s.ptb.available = true ∧ j = { injOf s i with point := field v.toNat 0 4, kind := field v.toNat 4 3, instFilter := bitAt v.toNat 8, inst := field v.toNat 16 16 } ∧ t = setInj s i j) → exec (.ptbArm i v) s = .next (if bitAt v.toNat 7 = false then injDisarm t i else if (pointKinds j.point).contains j.kind = true ∧ paramFits j = true then writeEvent (setInj { t with ptb := { t.ptb with badCfg := false } } i { j with armed := true, seen := 0 }) { num := 0x0D70, inst := i, detail := [i, j.point, j.kind] } else injDisarm { t with ptb := { t.ptb with badCfg := true } } i) ∧ exec (.ptbDisarm i v) s = exec (.ptbArm i v) s ∧ exec (.ptbArm i v) { s with ptb := { s.ptb with available := false } } = .next { s with ptb := { s.ptb with available := false } }) ∧
  -- Disarming releases every item the injector holds, in order, as if each arrived now.
  (∀ (s : State) (i : Nat), injDisarm s i = (injOf s i).items.foldl (fun t x => deliver t x.cmd) (setInj s i { injOf s i with armed := false, items := [] })) ∧
  -- The end of a delay or stall releases the item it names, as if it arrived now; where items are kept in order only the first
  -- may go, and an item not held changes nothing.
  (∀ (s : State) (i n : Nat) (j : Injector) (x : HeldItem), (i < 8 ∧ j = injOf s i) → (j.items[n]? = some x → j.kind = 2 ∨ n = 0 → exec (.injectorRelease i n) s = .next (deliver (setInj s i { j with items := j.items.eraseIdx n }) x.cmd)) ∧ (j.items[n]? = none ∨ (j.kind ≠ 2 ∧ n ≠ 0) → exec (.injectorRelease i n) s = .next s) ∧ exec (.injectorRelease (i + 8) n) s = .fault (.noSuchInstance "injector")) ∧
  -- A read of PTB_CAP_DATA0 answers the first word of the capture record selected, holds its other words for that path, and
  -- clears that word for every path; in Held nothing answers.
  (∀ (s : State) (p : Path) (r : CapRec) (l : List Nat) (t : State), (r = tget s.ptb.caps {} (rwGet s 0xF0020 0) ∧ l = capWords r ∧ t = { s with ptb := { s.ptb with caps := tput s.ptb.caps {} (rwGet s 0xF0020 0) { r with timebase := r.timebase / 2 ^ 32 * 2 ^ 32 } } }) → exec (.ptbCaptureRead p) s = .next (if s.glb.mode = .held then s else emit (snapWords t p 0xF0028 (rwGet s 0xF0020 0) false (l.drop 1)) (.readData (word (l.headD 0))))) ∧
  -- Field Lock in a mode without full management access has no effect, and a manager without the Image role gets only that
  -- status. An injector cannot be armed or disarmed outside the modes that serve register writes, and one that does not exist
  -- is a fault.
  (∀ (s : State) (c : Cid) (d i : Nat) (v : Word) (e : Status), (mgmtFull s = false → exec (.fieldLock c d) s = .next s) ∧ (mgmtFull s = true → hasRole s c 2 = some e → exec (.fieldLock c d) s = .next (reply s c e)) ∧ (i < 8 → authMode s = false → exec (.ptbArm i v) s = .next s ∧ exec (.ptbDisarm i v) s = .next s) ∧ (8 ≤ i → exec (.ptbArm i v) s = .fault (.noSuchInstance "injector") ∧ exec (.ptbDisarm i v) s = .fault (.noSuchInstance "injector")))

/-- Temperatures, rails, the reference clock, the PLLs and JTAG.
m is what the tick brings beside the event: the other mode events, and which PLLs lock at a start-up. Rests on parts of R48,
R47, R518, R527, R535, R539, R541. -/
def Obligations.ElectricalEvents : Prop :=
  -- Outside Held a temperature is noted, for the logic die with its maximum, and where it is above the die's warning level,
  -- and the warning was rearmed or not given yet, the event is written once.
  (∀ (s : State) (d : Die) (k : Nat) (b : Bool) (t : State), (s.glb.mode ≠ .held ∧ t = noteTemp s d k) → exec (.tempWarning d k b) s = .next (if k ≤ warnLevel d ∨ (warned t d = true ∧ b = false) then t else writeEvent (setWarned t d) { num := 0x0C43, inst := dieNo d, detail := [dieNo d, k] }) ∧ exec (.tempWarning d k b) { s with glb := { s.glb with mode := .held } } = .next { s with glb := { s.glb with mode := .held } }) ∧
  -- In Standby, Active or Drain without a power failure the shutdown limit, not outranked, enters Safe with cause 0x0C and the
  -- die; in any other state, or outranked, it does nothing.
  (∀ (s : State) (d : Die) (m : Moment), exec (.tempShutdownLimit d m) s = .next (if outranked m.rivals .fatal = false ∧ (s.glb.mode = .standby ∨ s.glb.mode = .active ∨ s.glb.mode = .drain) ∧ s.glb.drainReason ≠ .powerFail then enterSafe s 0x0C (dieNo d) else s)) ∧
  -- The logic die's trip enters Held as PWRON_L does, without firmware, and is kept as the reason; the bay die's trip latches
  -- every channel of an owned bay with its event and sinks every gate it drives, bay by bay.
  (∀ (s : State), (s.glb.mode = .held → exec .logicHardwareTrip s = .next s) ∧ (s.glb.mode ≠ .held → exec .logicHardwareTrip s = .next { toHeld s with glb := { (toHeld s).glb with tripHeld := true, pwrfail := false, refclkLost := false } }) ∧ exec .bayHardwareTrip s = .next ((List.range 64).foldl (fun t b => if ownsBay t b = true ∧ (chanOf t b).state ≠ .disabled then writeEvent (setChan t b { chanOf t b with state := .latched, gate := driveGate t b .sink }) { num := 0x0A04, inst := b, detail := [b] } else if drivesBay t b = true ∧ (chanOf t b).gate ≠ .hiZ then setChan t b { chanOf t b with gate := .sink } else t) s)) ∧
  -- A rail trip that is not outranked acts as a power failure of that rail; a rail that does not exist is a fault.
  (∀ (s : State) (k : Nat) (m : Moment), k < 4 → exec (.railMonitorTrip k m) s = .next (if outranked m.rivals .pwrfail = true then s else powerFail s [k]) ∧ exec (.railMonitorTrip (k + 4) m) s = .fault (.noSuchInstance "rail")) ∧
  -- A power failure in Standby, Active or Drain, the first since the last reset, drops what enters, releases both groups,
  -- closes the cocoon and drains for power failure; in Boot it halts the start-up, closing a cocoon that is up, and in Safe it
  -- only closes the cocoon; one after it, or in Held, does nothing.
  (∀ (s : State) (l : List Nat) (t u : State), (t = { s with glb := { s.glb with pwrfail := true } } ∧ u = closeCocoon (releaseBoth (dropIngress t) 2) l) → (s.glb.pwrfail = true ∨ s.glb.mode = .held → powerFail s l = s) ∧ (s.glb.pwrfail = false → s.glb.mode = .standby ∨ s.glb.mode = .active ∨ s.glb.mode = .drain → powerFail s l = noteMode t { u with glb := { u.glb with mode := .drain, drainReason := .powerFail } }) ∧ (s.glb.pwrfail = false → s.glb.mode = .boot → ∀ w, w = (if t.coc.up = true then closeCocoon t l else t) → powerFail s l = { w with glb := { w.glb with bootHalted := true } }) ∧ (s.glb.pwrfail = false → s.glb.mode = .safe → powerFail s l = closeCocoon t l)) ∧
  -- The loss of REFCLK outside Held, not outranked, runs the power-failure actions and notes the PLLs that lost; its return,
  -- where it was lost and not outranked, is an internal cold reset (cause 2); otherwise neither does anything.
  (∀ (s : State) (b : BitVec 4) (m : Moment), exec (.refclkLoss b m) s = .next (if s.glb.mode = .held ∨ outranked m.rivals .pwrfail = true then s else { powerFail s [] with glb := { (powerFail s []).glb with clkLost := (powerFail s []).glb.clkLost ||| b, refclkLost := true } }) ∧ exec (.refclkRestored m) s = .next (if s.glb.refclkLost = true ∧ s.glb.mode ≠ .held ∧ outranked m.rivals .reset = false then { internalReset s false 2 m with glb := { (internalReset s false 2 m).glb with refclkLost := false, pwrfail := false } } else s)) ∧
  -- A PLL that loses lock outside Held sets its LOST bit, and its links go down: the 32 sub-ports, the 64 spokes, the tandem
  -- link (cause 2) or the service port; in Held it does nothing, and a PLL that does not exist is a fault.
  (∀ (s : State) (k : Nat) (t : State), (k < 4 ∧ t = { s with glb := { s.glb with clkLost := s.glb.clkLost ||| BitVec.ofNat 4 (2 ^ k) } }) → exec (.pllLockLost k) s = .next (if s.glb.mode = .held then s else if k = 0 then (List.range 32).foldl linkGoesDown t else if k = 1 then (List.range 64).foldl (fun u b => spkContain u b 0) t else if k = 2 then tandemDown t 2 else svcLinkLost t) ∧ exec (.pllLockLost (k + 4)) s = .fault (.noSuchInstance "PLL")) ∧
  -- IDCODE returns GBL_ID, 0x6400A1C0. BYPASS and SAMPLE/PRELOAD scan out what the spec does not give as a value; so do EXTEST
  -- and CLAMP, which are refused while PWRON_L is released (the values scanned are free, log 4). No JTAG instruction changes
  -- anything else.
  (∀ (s : State) (t : State), t = emit { s with freeCtr := s.freeCtr + 1 } (.jtag (some (Config.freeValue s.freeCtr))) → exec .jtagIdcode s = .next (emit s (.jtag (some 0x6400A1C0))) ∧ exec .jtagBypass s = .next t ∧ exec .jtagSamplePreload s = .next t ∧ (s.glb.pwronL = true → exec .jtagExtest s = .next t ∧ exec .jtagClamp s = .next t) ∧ (s.glb.pwronL = false → exec .jtagExtest s = .next (emit s (.jtag none)) ∧ exec .jtagClamp s = .next (emit s (.jtag none))))
end

