-- ==== Sys2Proof/Laws/Dispatch.lean ====
section
/-! SUPPORT. The arm of each command, so that no proof unfolds the whole dispatch. -/

namespace Sys2Proof.Machine

theorem exec_plainRegisterWrite (a val hwSet m s) : exec (.plainRegisterWrite a val hwSet m) s = execPlainRegisterWrite a val hwSet m s := rfl
theorem exec_readClearCounter (a hwInc s) : exec (.readClearCounter a hwInc) s = execReadClearCounter a hwInc s := rfl
theorem exec_loRegisterRead (a s) : exec (.loRegisterRead a) s = execLoRegisterRead a s := rfl
theorem exec_hiRegisterWrite (a val s) : exec (.hiRegisterWrite a val) s = execHiRegisterWrite a val s := rfl
theorem exec_loRegisterWrite (a val s) : exec (.loRegisterWrite a val) s = execLoRegisterWrite a val s := rfl
theorem exec_selectRegisterWrite (a val s) : exec (.selectRegisterWrite a val) s = execSelectRegisterWrite a val s := rfl
theorem exec_registerRead (c cdw10 cdw11 cdw12 cdw13 s) : exec (.registerRead c cdw10 cdw11 cdw12 cdw13) s = execRegisterRead c cdw10 cdw11 cdw12 cdw13 s := rfl
theorem exec_registerWrite (c cdw10 cdw11 cdw12 cdw13 cdw14 m s) : exec (.registerWrite c cdw10 cdw11 cdw12 cdw13 cdw14 m) s = execRegisterWrite c cdw10 cdw11 cdw12 cdw13 cdw14 m s := rfl
theorem exec_pwronLAsserted (s) : exec .pwronLAsserted s = execPwronLAsserted s := rfl
theorem exec_pwronLReleased (straps m s) : exec (.pwronLReleased straps m) s = execPwronLReleased straps m s := rfl
theorem exec_memoryPreparationDone (bad1 bad2 s) : exec (.memoryPreparationDone bad1 bad2) s = execMemoryPreparationDone bad1 bad2 s := rfl
theorem exec_imageLoadDone (r s) : exec (.imageLoadDone r) s = execImageLoadDone r s := rfl
theorem exec_imageVerificationDone (v1 reread v2 s) : exec (.imageVerificationDone v1 reread v2) s = execImageVerificationDone v1 reread v2 s := rfl
theorem exec_configurationDone (s) : exec .configurationDone s = execConfigurationDone s := rfl
theorem exec_dramTrainingDone (fit1 fit2 s) : exec (.dramTrainingDone fit1 fit2) s = execDramTrainingDone fit1 fit2 s := rfl
theorem exec_dramSweepDone (swept late1 late2 s) : exec (.dramSweepDone swept late1 late2) s = execDramSweepDone swept late1 late2 s := rfl
theorem exec_recoveryScanDone (r s) : exec (.recoveryScanDone r) s = execRecoveryScanDone r s := rfl
theorem exec_bootRecordWritten (ok1 ok2 ms s) : exec (.bootRecordWritten ok1 ok2 ms) s = execBootRecordWritten ok1 ok2 ms s := rfl
theorem exec_bootStageLimitExpiry (s) : exec .bootStageLimitExpiry s = execBootStageLimitExpiry s := rfl
theorem exec_watchdogExpiry (m s) : exec (.watchdogExpiry m) s = execWatchdogExpiry m s := rfl
theorem exec_shutdownRequest (m s) : exec (.shutdownRequest m) s = execShutdownRequest m s := rfl
theorem exec_safeRequest (m s) : exec (.safeRequest m) s = execSafeRequest m s := rfl
theorem exec_warmResetRequest (val m s) : exec (.warmResetRequest val m) s = execWarmResetRequest val m s := rfl
theorem exec_coldResetRequest (val m s) : exec (.coldResetRequest val m) s = execColdResetRequest val m s := rfl
theorem exec_drainShutdownComplete (m s) : exec (.drainShutdownComplete m) s = execDrainShutdownComplete m s := rfl
theorem exec_drainLimitExpiry (m s) : exec (.drainLimitExpiry m) s = execDrainLimitExpiry m s := rfl
theorem exec_pwrfailLAsserted (m s) : exec (.pwrfailLAsserted m) s = execPwrfailLAsserted m s := rfl
theorem exec_pwrfailStableRelease (m s) : exec (.pwrfailStableRelease m) s = execPwrfailStableRelease m s := rfl
theorem exec_imageStageWrite (c offset length begin_ data s) : exec (.imageStageWrite c offset length begin_ data) s = execImageStageWrite c offset length begin_ data s := rfl
theorem exec_imageStageCommit (c imageLen v s) : exec (.imageStageCommit c imageLen v) s = execImageStageCommit c imageLen v s := rfl
theorem exec_imageActivateLive (c m s) : exec (.imageActivateLive c m) s = execImageActivateLive c m s := rfl
theorem exec_imageActivateWarm (c m s) : exec (.imageActivateWarm c m) s = execImageActivateWarm c m s := rfl
theorem exec_imageSlotInfo (c s) : exec (.imageSlotInfo c) s = execImageSlotInfo c s := rfl
theorem exec_stagingSessionTimeout (s) : exec .stagingSessionTimeout s = execStagingSessionTimeout s := rfl
theorem exec_imageSwap (recordOk holdMs m s) : exec (.imageSwap recordOk holdMs m) s = execImageSwap recordOk holdMs m s := rfl
theorem exec_activationHoldExpiry (c s) : exec (.activationHoldExpiry c) s = execActivationHoldExpiry c s := rfl
theorem exec_trsEnroll (val s) : exec (.trsEnroll val) s = execTrsEnroll val s := rfl
theorem exec_trsRevoke (val s) : exec (.trsRevoke val) s = execTrsRevoke val s := rfl
theorem exec_trsAdvanceMinSvn (val s) : exec (.trsAdvanceMinSvn val) s = execTrsAdvanceMinSvn val s := rfl
theorem exec_otpBurnComplete (ok s) : exec (.otpBurnComplete ok) s = execOtpBurnComplete ok s := rfl
theorem exec_trsKeyRead (val s) : exec (.trsKeyRead val) s = execTrsKeyRead val s := rfl
theorem exec_spdmExchange (c length req s) : exec (.spdmExchange c length req) s = execSpdmExchange c length req s := rfl
theorem exec_getVersion (ep s) : exec (.getVersion ep) s = execGetVersion ep s := rfl
theorem exec_getCapabilities (ep s) : exec (.getCapabilities ep) s = execGetCapabilities ep s := rfl
theorem exec_negotiateAlgorithms (ep asym hash measHash dmtf s) : exec (.negotiateAlgorithms ep asym hash measHash dmtf) s = execNegotiateAlgorithms ep asym hash measHash dmtf s := rfl
theorem exec_getDigests (ep s) : exec (.getDigests ep) s = execGetDigests ep s := rfl
theorem exec_getCertificate (ep slot offset length s) : exec (.getCertificate ep slot offset length) s = execGetCertificate ep slot offset length s := rfl
theorem exec_challenge (ep slot summary nonce s) : exec (.challenge ep slot summary nonce) s = execChallenge ep slot summary nonce s := rfl
theorem exec_getMeasurements (ep index signed nonce s) : exec (.getMeasurements ep index signed nonce) s = execGetMeasurements ep index signed nonce s := rfl
theorem exec_spdmUnsupportedRequest (ep code s) : exec (.spdmUnsupportedRequest ep code) s = execSpdmUnsupportedRequest ep code s := rfl
theorem exec_spdmContextIdleExpiry (ep s) : exec (.spdmContextIdleExpiry ep) s = execSpdmContextIdleExpiry ep s := rfl
theorem exec_ethFrameReceive (f s) : exec (.ethFrameReceive f) s = execEthFrameReceive f s := rfl
theorem exec_linkTrainTimeout (sub s) : exec (.linkTrainTimeout sub) s = execLinkTrainTimeout sub s := rfl
theorem exec_linkTrainRetryTimer (sub s) : exec (.linkTrainRetryTimer sub) s = execLinkTrainRetryTimer sub s := rfl
theorem exec_subportLinkUp (sub pmd rs s) : exec (.subportLinkUp sub pmd rs) s = execSubportLinkUp sub pmd rs s := rfl
theorem exec_subportLinkDown (sub s) : exec (.subportLinkDown sub) s = execSubportLinkDown sub s := rfl
theorem exec_pfcPauseExpiry (sub prio s) : exec (.pfcPauseExpiry sub prio) s = execPfcPauseExpiry sub prio s := rfl
theorem exec_pfcWatchdogExpiry (sub prio endsNow s) : exec (.pfcWatchdogExpiry sub prio endsNow) s = execPfcWatchdogExpiry sub prio endsNow s := rfl
theorem exec_pfcWatchdogResume (sub prio s) : exec (.pfcWatchdogResume sub prio) s = execPfcWatchdogResume sub prio s := rfl
theorem exec_addressSlotApply (val s) : exec (.addressSlotApply val) s = execAddressSlotApply val s := rfl
theorem exec_macsecRxSaInstall (port sc sub an pn s) : exec (.macsecRxSaInstall port sc sub an pn) s = execMacsecRxSaInstall port sc sub an pn s := rfl
theorem exec_macsecTxSaInstall (port sc sub an pn s) : exec (.macsecTxSaInstall port sc sub an pn) s = execMacsecTxSaInstall port sc sub an pn s := rfl
theorem exec_macsecRxSaRetire (port sc an s) : exec (.macsecRxSaRetire port sc an) s = execMacsecRxSaRetire port sc an s := rfl
theorem exec_subportTransmit (sub core install lost s) : exec (.subportTransmit sub core install lost) s = execSubportTransmit sub core install lost s := rfl
theorem exec_rocePacketReceive (sub prio p s) : exec (.rocePacketReceive sub prio p) s = execRocePacketReceive sub prio p s := rfl
theorem exec_cmReq (r s) : exec (.cmReq r) s = execCmReq r s := rfl
theorem exec_cmRtu (qp s) : exec (.cmRtu qp) s = execCmRtu qp s := rfl
theorem exec_cmDreq (qp s) : exec (.cmDreq qp) s = execCmDreq qp s := rfl
theorem exec_qpTeardown (val s) : exec (.qpTeardown val) s = execQpTeardown val s := rfl
theorem exec_qpContextFree (qp s) : exec (.qpContextFree qp) s = execQpContextFree qp s := rfl
theorem exec_qpContextFetchDone (qp r s) : exec (.qpContextFetchDone qp r) s = execQpContextFetchDone qp r s := rfl
theorem exec_ackCoalesceExpiry (qp psn s) : exec (.ackCoalesceExpiry qp psn) s = execAckCoalesceExpiry qp psn s := rfl
theorem exec_ackTimeout (qp psn s) : exec (.ackTimeout qp psn) s = execAckTimeout qp psn s := rfl
theorem exec_rnrWaitExpiry (qp s) : exec (.rnrWaitExpiry qp) s = execRnrWaitExpiry qp s := rfl
theorem exec_messageLifetimeExpiry (qp at_ s) : exec (.messageLifetimeExpiry qp at_) s = execMessageLifetimeExpiry qp at_ s := rfl
theorem exec_rateAlphaTimer (qp cnpToo s) : exec (.rateAlphaTimer qp cnpToo) s = execRateAlphaTimer qp cnpToo s := rfl
theorem exec_rateIncreaseTimer (qp cnpToo s) : exec (.rateIncreaseTimer qp cnpToo) s = execRateIncreaseTimer qp cnpToo s := rfl
theorem exec_qpPacketSend (qp draw s) : exec (.qpPacketSend qp draw) s = execQpPacketSend qp draw s := rfl
theorem exec_dlogEnable (val s) : exec (.dlogEnable val) s = execDlogEnable val s := rfl
theorem exec_dlogDisable (val s) : exec (.dlogDisable val) s = execDlogDisable val s := rfl
theorem exec_qpDlogJoin (val s) : exec (.qpDlogJoin val) s = execQpDlogJoin val s := rfl
theorem exec_dlogHarvestRead (path setNow s) : exec (.dlogHarvestRead path setNow) s = execDlogHarvestRead path setNow s := rfl
theorem exec_instarBumpDeferred (o s) : exec (.instarBumpDeferred o) s = execInstarBumpDeferred o s := rfl
theorem exec_fabricsConnect (qp cid r s) : exec (.fabricsConnect qp cid r) s = execFabricsConnect qp cid r s := rfl
theorem exec_authenticationSend (c qid m s) : exec (.authenticationSend c qid m) s = execAuthenticationSend c qid m s := rfl
theorem exec_authenticationReceive (c qid s) : exec (.authenticationReceive c qid) s = execAuthenticationReceive c qid s := rfl
theorem exec_authTimeout (assoc qid s) : exec (.authTimeout assoc qid) s = execAuthTimeout assoc qid s := rfl
theorem exec_propertyGet (c off s) : exec (.propertyGet c off) s = execPropertyGet c off s := rfl
theorem exec_propertySet (c off val s) : exec (.propertySet c off val) s = execPropertySet c off val s := rfl
theorem exec_keepAlive (c s) : exec (.keepAlive c) s = execKeepAlive c s := rfl
theorem exec_keepAliveExpiry (assoc s) : exec (.keepAliveExpiry assoc) s = execKeepAliveExpiry assoc s := rfl
theorem exec_identify (c cns nsid s) : exec (.identify c cns nsid) s = execIdentify c cns nsid s := rfl
theorem exec_getLogPage (c lid rae s) : exec (.getLogPage c lid rae) s = execGetLogPage c lid rae s := rfl
theorem exec_getFeatures (c fid s) : exec (.getFeatures c fid) s = execGetFeatures c fid s := rfl
theorem exec_setFeatures (c fid val s) : exec (.setFeatures c fid val) s = execSetFeatures c fid val s := rfl
theorem exec_asyncEventRequest (c s) : exec (.asyncEventRequest c) s = execAsyncEventRequest c s := rfl
theorem exec_abort (c qid cid s) : exec (.abort c qid cid) s = execAbort c qid cid s := rfl
theorem exec_sanitize (c cdw10 s) : exec (.sanitize c cdw10) s = execSanitize c cdw10 s := rfl
theorem exec_formatNvm (c nsid cdw10 s) : exec (.formatNvm c nsid cdw10) s = execFormatNvm c nsid cdw10 s := rfl
theorem exec_vdqCreate (c desc s) : exec (.vdqCreate c desc) s = execVdqCreate c desc s := rfl
theorem exec_vdqDelete (c cdw10 s) : exec (.vdqDelete c cdw10) s = execVdqDelete c cdw10 s := rfl
theorem exec_nvmRead (h s) : exec (.nvmRead h) s = execNvmRead h s := rfl
theorem exec_nvmWrite (h s) : exec (.nvmWrite h) s = execNvmWrite h s := rfl
theorem exec_nvmFlush (h s) : exec (.nvmFlush h) s = execNvmFlush h s := rfl
theorem exec_writeZeroes (h s) : exec (.writeZeroes h) s = execWriteZeroes h s := rfl
theorem exec_datasetManagement (h s) : exec (.datasetManagement h) s = execDatasetManagement h s := rfl
theorem exec_nvmCompare (h s) : exec (.nvmCompare h) s = execNvmCompare h s := rfl
theorem exec_admissionReopen (vss s) : exec (.admissionReopen vss) s = execAdmissionReopen vss s := rfl
theorem exec_sqTailDoorbell (qp imm s) : exec (.sqTailDoorbell qp imm) s = execSqTailDoorbell qp imm s := rfl
theorem exec_cqHeadDoorbell (qp imm s) : exec (.cqHeadDoorbell qp imm) s = execCqHeadDoorbell qp imm s := rfl
theorem exec_pushDoorbell (qp imm entry payload ranges s) : exec (.pushDoorbell qp imm entry payload ranges) s = execPushDoorbell qp imm entry payload ranges s := rfl
theorem exec_vdqFetch (s) : exec .vdqFetch s = execVdqFetch s := rfl
theorem exec_vdqFetchResponse (qp qidx tag entries s) : exec (.vdqFetchResponse qp qidx tag entries) s = execVdqFetchResponse qp qidx tag entries s := rfl
theorem exec_cqStallExpiry (qp qidx s) : exec (.cqStallExpiry qp qidx) s = execCqStallExpiry qp qidx s := rfl
theorem exec_notifyTimerExpiry (qp qidx s) : exec (.notifyTimerExpiry qp qidx) s = execNotifyTimerExpiry qp qidx s := rfl
theorem exec_tenantQueueFree (qp qidx s) : exec (.tenantQueueFree qp qidx) s = execTenantQueueFree qp qidx s := rfl
theorem exec_idleLevel1Entry (s) : exec .idleLevel1Entry s = execIdleLevel1Entry s := rfl
theorem exec_idleLevel2Entry (s) : exec .idleLevel2Entry s = execIdleLevel2Entry s := rfl
theorem exec_managementChallenge (c s) : exec (.managementChallenge c) s = execManagementChallenge c s := rfl
theorem exec_managementProve (c anchor data v s) : exec (.managementProve c anchor data v) s = execManagementProve c anchor data v s := rfl
theorem exec_mgmtAuthTimeout (assoc s) : exec (.mgmtAuthTimeout assoc) s = execMgmtAuthTimeout assoc s := rfl
theorem exec_vssCreate (c desc s) : exec (.vssCreate c desc) s = execVssCreate c desc s := rfl
theorem exec_vssChangeShare (c desc s) : exec (.vssChangeShare c desc) s = execVssChangeShare c desc s := rfl
theorem exec_vssReset (c cdw10 s) : exec (.vssReset c cdw10) s = execVssReset c cdw10 s := rfl
theorem exec_vssRemove (c cdw10 s) : exec (.vssRemove c cdw10) s = execVssRemove c cdw10 s := rfl
theorem exec_hostEntrySet (c data s) : exec (.hostEntrySet c data) s = execHostEntrySet c data s := rfl
theorem exec_catalogRead (c cdw10 cdw11 cdw12 s) : exec (.catalogRead c cdw10 cdw11 cdw12) s = execCatalogRead c cdw10 cdw11 cdw12 s := rfl
theorem exec_tenantQueueFreeze (c cdw10 cdw11 s) : exec (.tenantQueueFreeze c cdw10 cdw11) s = execTenantQueueFreeze c cdw10 cdw11 s := rfl
theorem exec_tenantQueueSave (c cdw10 cdw11 len s) : exec (.tenantQueueSave c cdw10 cdw11 len) s = execTenantQueueSave c cdw10 cdw11 len s := rfl
theorem exec_tenantQueueRestore (c off last data s) : exec (.tenantQueueRestore c off last data) s = execTenantQueueRestore c off last data s := rfl
theorem exec_tenantQueueThaw (c cdw10 s) : exec (.tenantQueueThaw c cdw10) s = execTenantQueueThaw c cdw10 s := rfl
theorem exec_dirtyLogControl (c cdw10 cdw11 cdw12 cdw13 s) : exec (.dirtyLogControl c cdw10 cdw11 cdw12 cdw13) s = execDirtyLogControl c cdw10 cdw11 cdw12 cdw13 s := rfl
theorem exec_dirtyLogHarvest (c cdw10 cdw11 cdw12 s) : exec (.dirtyLogHarvest c cdw10 cdw11 cdw12) s = execDirtyLogHarvest c cdw10 cdw11 cdw12 s := rfl
theorem exec_virtualControllerReset (c cdw10 s) : exec (.virtualControllerReset c cdw10) s = execVirtualControllerReset c cdw10 s := rfl
theorem exec_namespaceCreate (c desc s) : exec (.namespaceCreate c desc) s = execNamespaceCreate c desc s := rfl
theorem exec_namespaceDelete (c nsid s) : exec (.namespaceDelete c nsid) s = execNamespaceDelete c nsid s := rfl
theorem exec_namespaceAttach (c nsid ctrls s) : exec (.namespaceAttach c nsid ctrls) s = execNamespaceAttach c nsid ctrls s := rfl
theorem exec_namespaceDetach (c nsid ctrls s) : exec (.namespaceDetach c nsid ctrls) s = execNamespaceDetach c nsid ctrls s := rfl
theorem exec_catalogChangeReceive (fwd id edits s) : exec (.catalogChangeReceive fwd id edits) s = execCatalogChangeReceive fwd id edits s := rfl
theorem exec_catalogEchoReceive (id s) : exec (.catalogEchoReceive id) s = execCatalogEchoReceive id s := rfl
theorem exec_catalogPartnerTimeout (id s) : exec (.catalogPartnerTimeout id) s = execCatalogPartnerTimeout id s := rfl
theorem exec_catalogCopyDone (partner s) : exec (.catalogCopyDone partner) s = execCatalogCopyDone partner s := rfl
theorem exec_vssResetDone (vss s) : exec (.vssResetDone vss) s = execVssResetDone vss s := rfl
theorem exec_vssRemoveDone (vss s) : exec (.vssRemoveDone vss) s = execVssRemoveDone vss s := rfl
theorem exec_tqFreezeComplete (qp qidx s) : exec (.tqFreezeComplete qp qidx) s = execTqFreezeComplete qp qidx s := rfl
theorem exec_tqFreezeTimeout (qp qidx s) : exec (.tqFreezeTimeout qp qidx) s = execTqFreezeTimeout qp qidx s := rfl
theorem exec_sanitizeQuiesced (vss s) : exec (.sanitizeQuiesced vss) s = execSanitizeQuiesced vss s := rfl
theorem exec_sanitizeChunkErased (ns chunk failed s) : exec (.sanitizeChunkErased ns chunk failed) s = execSanitizeChunkErased ns chunk failed s := rfl
theorem exec_formatNvmQuiesced (ns s) : exec (.formatNvmQuiesced ns) s = execFormatNvmQuiesced ns s := rfl
theorem exec_nop (ctx w s) : exec (.nop ctx w) s = execNop ctx w s := rfl
theorem exec_end_ (ctx w s) : exec (.end_ ctx w) s = execEnd ctx w s := rfl
theorem exec_jmp (ctx w s) : exec (.jmp ctx w) s = execJmp ctx w s := rfl
theorem exec_br (ctx w s) : exec (.br ctx w) s = execBr ctx w s := rfl
theorem exec_call (ctx w s) : exec (.call ctx w) s = execCall ctx w s := rfl
theorem exec_ret (ctx w s) : exec (.ret ctx w) s = execRet ctx w s := rfl
theorem exec_fail (ctx w s) : exec (.fail ctx w) s = execFail ctx w s := rfl
theorem exec_wait (ctx w s) : exec (.wait ctx w) s = execWait ctx w s := rfl
theorem exec_ldi (ctx w s) : exec (.ldi ctx w) s = execLdi ctx w s := rfl
theorem exec_mov (ctx w s) : exec (.mov ctx w) s = execMov ctx w s := rfl
theorem exec_add (ctx w s) : exec (.add ctx w) s = execAdd ctx w s := rfl
theorem exec_addi (ctx w s) : exec (.addi ctx w) s = execAddi ctx w s := rfl
theorem exec_sub (ctx w s) : exec (.sub ctx w) s = execSub ctx w s := rfl
theorem exec_and_ (ctx w s) : exec (.and_ ctx w) s = execAnd ctx w s := rfl
theorem exec_shr (ctx w s) : exec (.shr ctx w) s = execShr ctx w s := rfl
theorem exec_shl (ctx w s) : exec (.shl ctx w) s = execShl ctx w s := rfl
theorem exec_cmp (ctx w s) : exec (.cmp ctx w) s = execCmp ctx w s := rfl
theorem exec_cmpi (ctx w s) : exec (.cmpi ctx w) s = execCmpi ctx w s := rfl
theorem exec_mark (ctx w s) : exec (.mark ctx w) s = execMark ctx w s := rfl
theorem exec_ilock (ctx w lost s) : exec (.ilock ctx w lost) s = execIlock ctx w lost s := rfl
theorem exec_iwait (ctx w s) : exec (.iwait ctx w) s = execIwait ctx w s := rfl
theorem exec_irel (ctx w s) : exec (.irel ctx w) s = execIrel ctx w s := rfl
theorem exec_nsfence (ctx w s) : exec (.nsfence ctx w) s = execNsfence ctx w s := rfl
theorem exec_tref (ctx w s) : exec (.tref ctx w) s = execTref ctx w s := rfl
theorem exec_tdrop (ctx w s) : exec (.tdrop ctx w) s = execTdrop ctx w s := rfl
theorem exec_clook (ctx w bad s) : exec (.clook ctx w bad) s = execClook ctx w bad s := rfl
theorem exec_cstage (ctx w taken s) : exec (.cstage ctx w taken) s = execCstage ctx w taken s := rfl
theorem exec_ccommit (ctx w s) : exec (.ccommit ctx w) s = execCcommit ctx w s := rfl
theorem exec_cread (ctx w reads tagOk s) : exec (.cread ctx w reads tagOk) s = execCread ctx w reads tagOk s := rfl
theorem exec_cdealloc (ctx w s) : exec (.cdealloc ctx w) s = execCdealloc ctx w s := rfl
theorem exec_echowait (ctx w s) : exec (.echowait ctx w) s = execEchowait ctx w s := rfl
theorem exec_hread (ctx w s) : exec (.hread ctx w) s = execHread ctx w s := rfl
theorem exec_hwrite (ctx w s) : exec (.hwrite ctx w) s = execHwrite ctx w s := rfl
theorem exec_cpl (ctx w s) : exec (.cpl ctx w) s = execCpl ctx w s := rfl
theorem exec_compare (ctx w s) : exec (.compare ctx w) s = execCompare ctx w s := rfl
theorem exec_pichk (ctx w s) : exec (.pichk ctx w) s = execPichk ctx w s := rfl
theorem exec_map (ctx w r s) : exec (.map ctx w r) s = execMap ctx w r s := rfl
theorem exec_dread (ctx w rows s) : exec (.dread ctx w rows) s = execDread ctx w rows s := rfl
theorem exec_dverify (ctx w found s) : exec (.dverify ctx w found) s = execDverify ctx w found s := rfl
theorem exec_recon (ctx w rows s) : exec (.recon ctx w rows) s = execRecon ctx w rows s := rfl
theorem exec_dwrite (ctx w s) : exec (.dwrite ctx w) s = execDwrite ctx w s := rfl
theorem exec_parity (ctx w olds s) : exec (.parity ctx w olds) s = execParity ctx w olds s := rfl
theorem exec_dzero (ctx w s) : exec (.dzero ctx w) s = execDzero ctx w s := rfl
theorem exec_frag (ctx w s) : exec (.frag ctx w) s = execFrag ctx w s := rfl
theorem exec_crelease (ctx w s) : exec (.crelease ctx w) s = execCrelease ctx w s := rfl
theorem exec_count_ (ctx w skid parked s) : exec (.count_ ctx w skid parked) s = execCount ctx w skid parked s := rfl
theorem exec_event (ctx w s) : exec (.event ctx w) s = execEvent ctx w s := rfl
theorem exec_contextResume (core lost s) : exec (.contextResume core lost) s = execContextResume core lost s := rfl
theorem exec_internalContextStart (lost s) : exec (.internalContextStart lost) s = execInternalContextStart lost s := rfl
theorem exec_waitTimeout (ctx waitNo instar s) : exec (.waitTimeout ctx waitNo instar) s = execWaitTimeout ctx waitNo instar s := rfl
theorem exec_interlockGrant (ctx s) : exec (.interlockGrant ctx) s = execInterlockGrant ctx s := rfl
theorem exec_nsfenceDone (ctx s) : exec (.nsfenceDone ctx) s = execNsfenceDone ctx s := rfl
theorem exec_hostTransferComplete (ctx by_ ok data ranges s) : exec (.hostTransferComplete ctx by_ ok data ranges) s = execHostTransferComplete ctx by_ ok data ranges s := rfl
theorem exec_tableSlotRetry (table s) : exec (.tableSlotRetry table) s = execTableSlotRetry table s := rfl
theorem exec_seqSampleRead (path s) : exec (.seqSampleRead path) s = execSeqSampleRead path s := rfl
theorem exec_formatCocoon (c cdw10 s) : exec (.formatCocoon c cdw10) s = execFormatCocoon c cdw10 s := rfl
theorem exec_odometerPersist (s) : exec .odometerPersist s = execOdometerPersist s := rfl
theorem exec_odometerTick (s) : exec .odometerTick s = execOdometerTick s := rfl
theorem exec_mirrorLineReceive (page blk s) : exec (.mirrorLineReceive page blk) s = execMirrorLineReceive page blk s := rfl
theorem exec_mirrorRecordReceive (page r crc s) : exec (.mirrorRecordReceive page r crc) s = execMirrorRecordReceive page r crc s := rfl
theorem exec_mirrorResetReceive (group s) : exec (.mirrorResetReceive group) s = execMirrorResetReceive group s := rfl
theorem exec_indexRebuildDone (s) : exec .indexRebuildDone s = execIndexRebuildDone s := rfl
theorem exec_flushStripeStart (s) : exec .flushStripeStart s = execFlushStripeStart s := rfl
theorem exec_mirrorAdoptionDone (group s) : exec (.mirrorAdoptionDone group) s = execMirrorAdoptionDone group s := rfl
theorem exec_handbackPageReceive (group ns pages s) : exec (.handbackPageReceive group ns pages) s = execHandbackPageReceive group ns pages s := rfl
theorem exec_handbackConfirmReceive (group s) : exec (.handbackConfirmReceive group) s = execHandbackConfirmReceive group s := rfl
theorem exec_lineFetchResponse (page isRec got s) : exec (.lineFetchResponse page isRec got) s = execLineFetchResponse page isRec got s := rfl
theorem exec_counterReserveEcho (slot to_ s) : exec (.counterReserveEcho slot to_) s = execCounterReserveEcho slot to_ s := rfl
theorem exec_counterReserveTimeout (slot s) : exec (.counterReserveTimeout slot) s = execCounterReserveTimeout slot s := rfl
theorem exec_cocoonScrubLine (addr r s) : exec (.cocoonScrubLine addr r) s = execCocoonScrubLine addr r s := rfl
theorem exec_stackAccessTimeout (stack m s) : exec (.stackAccessTimeout stack m) s = execStackAccessTimeout stack m s := rfl
theorem exec_cocPageRecordRead (path s) : exec (.cocPageRecordRead path) s = execCocPageRecordRead path s := rfl
theorem exec_mapReloadDone (chunk s) : exec (.mapReloadDone chunk) s = execMapReloadDone chunk s := rfl
theorem exec_rebuildDelayExpiry (bay s) : exec (.rebuildDelayExpiry bay) s = execRebuildDelayExpiry bay s := rfl
theorem exec_rebuildStart (c cdw10 s) : exec (.rebuildStart c cdw10) s = execRebuildStart c cdw10 s := rfl
theorem exec_rebuildCancel (c cdw10 s) : exec (.rebuildCancel c cdw10) s = execRebuildCancel c cdw10 s := rfl
theorem exec_chunkMapRead (c cdw10 s) : exec (.chunkMapRead c cdw10) s = execChunkMapRead c cdw10 s := rfl
theorem exec_keyRotate (c cdw10 s) : exec (.keyRotate c cdw10) s = execKeyRotate c cdw10 s := rfl
theorem exec_rekeyPassStart (slot s) : exec (.rekeyPassStart slot) s = execRekeyPassStart slot s := rfl
theorem exec_reconWriteback (chunk stripe row still s) : exec (.reconWriteback chunk stripe row still) s = execReconWriteback chunk stripe row still s := rfl
theorem exec_stripWrite (qp slot d s) : exec (.stripWrite qp slot d) s = execStripWrite qp slot d s := rfl
theorem exec_stripRead (qp slot d s) : exec (.stripRead qp slot d) s = execStripRead qp slot d s := rfl
theorem exec_alloc (qp slot d s) : exec (.alloc qp slot d) s = execAlloc qp slot d s := rfl
theorem exec_leaseFree (qp slot d s) : exec (.leaseFree qp slot d) s = execLeaseFree qp slot d s := rfl
theorem exec_porporAccept (qp slot s) : exec (.porporAccept qp slot) s = execPorporAccept qp slot s := rfl
theorem exec_porporRefuse (qp slot code s) : exec (.porporRefuse qp slot code) s = execPorporRefuse qp slot code s := rfl
theorem exec_readData (qp d s) : exec (.readData qp d) s = execReadData qp d s := rfl
theorem exec_allocReply (qp d s) : exec (.allocReply qp d) s = execAllocReply qp d s := rfl
theorem exec_fragTimeout (tag acceptToo s) : exec (.fragTimeout tag acceptToo) s = execFragTimeout tag acceptToo s := rfl
theorem exec_peerWindowApply (val s) : exec (.peerWindowApply val) s = execPeerWindowApply val s := rfl
theorem exec_federationMemberSet (c data s) : exec (.federationMemberSet c data) s = execFederationMemberSet c data s := rfl
theorem exec_leaseCreate (c cdw10 cdw11 data s) : exec (.leaseCreate c cdw10 cdw11 data) s = execLeaseCreate c cdw10 cdw11 data s := rfl
theorem exec_leaseRead (c cdw10 s) : exec (.leaseRead c cdw10) s = execLeaseRead c cdw10 s := rfl
theorem exec_leaseRelease (c cdw10 s) : exec (.leaseRelease c cdw10) s = execLeaseRelease c cdw10 s := rfl
theorem exec_pfcXoffRefresh (sub prio s) : exec (.pfcXoffRefresh sub prio) s = execPfcXoffRefresh sub prio s := rfl
theorem exec_mcastDestTimeout (tandem ctx accepted s) : exec (.mcastDestTimeout tandem ctx accepted) s = execMcastDestTimeout tandem ctx accepted s := rfl
theorem exec_bucketReturn (bucket s) : exec (.bucketReturn bucket) s = execBucketReturn bucket s := rfl
theorem exec_leakAuditPass (found s) : exec (.leakAuditPass found) s = execLeakAuditPass found s := rfl
theorem exec_shaperRefill (s) : exec .shaperRefill s = execShaperRefill s := rfl
theorem exec_policerRefill (s) : exec .policerRefill s = execPolicerRefill s := rfl
theorem exec_schSampleSelect (val s) : exec (.schSampleSelect val) s = execSchSampleSelect val s := rfl
theorem exec_bayScanFrame (presence buttons s) : exec (.bayScanFrame presence buttons) s = execBayScanFrame presence buttons s := rfl
theorem exec_linkUpTimeout (spoke s) : exec (.linkUpTimeout spoke) s = execLinkUpTimeout spoke s := rfl
theorem exec_spokeLinkUp (spoke gts width s) : exec (.spokeLinkUp spoke gts width) s = execSpokeLinkUp spoke gts width s := rfl
theorem exec_spokeDpc (spoke trigger s) : exec (.spokeDpc spoke trigger) s = execSpokeDpc spoke trigger s := rfl
theorem exec_containmentRelease (spoke s) : exec (.containmentRelease spoke) s = execContainmentRelease spoke s := rfl
theorem exec_buttonTimerExpiry (spoke s) : exec (.buttonTimerExpiry spoke) s = execButtonTimerExpiry spoke s := rfl
theorem exec_orderlyRemovalProgress (spoke shstDone s) : exec (.orderlyRemovalProgress spoke shstDone) s = execOrderlyRemovalProgress spoke shstDone s := rfl
theorem exec_spokeCtlReset (spoke s) : exec (.spokeCtlReset spoke) s = execSpokeCtlReset spoke s := rfl
theorem exec_spokeCtlPowerOff (spoke s) : exec (.spokeCtlPowerOff spoke) s = execSpokeCtlPowerOff spoke s := rfl
theorem exec_spokeCtlPowerOn (spoke s) : exec (.spokeCtlPowerOn spoke) s = execSpokeCtlPowerOn spoke s := rfl
theorem exec_spokeCtlDisable (spoke s) : exec (.spokeCtlDisable spoke) s = execSpokeCtlDisable spoke s := rfl
theorem exec_spokeCtlEnable (spoke s) : exec (.spokeCtlEnable spoke) s = execSpokeCtlEnable spoke s := rfl
theorem exec_slotAttentionWrite (spoke val s) : exec (.slotAttentionWrite spoke val) s = execSlotAttentionWrite spoke val s := rfl
theorem exec_driveDmaRequest (spoke addr t s) : exec (.driveDmaRequest spoke addr t) s = execDriveDmaRequest spoke addr t s := rfl
theorem exec_driveCompletion (spoke slot hi r s) : exec (.driveCompletion spoke slot hi r) s = execDriveCompletion spoke slot hi r s := rfl
theorem exec_driveReadyTimeout (spoke s) : exec (.driveReadyTimeout spoke) s = execDriveReadyTimeout spoke s := rfl
theorem exec_abortTimeout (spoke s) : exec (.abortTimeout spoke) s = execAbortTimeout spoke s := rfl
theorem exec_spokeResetRdyTimeout (spoke s) : exec (.spokeResetRdyTimeout spoke) s = execSpokeResetRdyTimeout spoke s := rfl
theorem exec_spokeResetLimit (spoke s) : exec (.spokeResetLimit spoke) s = execSpokeResetLimit spoke s := rfl
theorem exec_driveIdleTimer (spoke ps s) : exec (.driveIdleTimer spoke ps) s = execDriveIdleTimer spoke ps s := rfl
theorem exec_driveFormat (c cdw10 offered s) : exec (.driveFormat c cdw10 offered) s = execDriveFormat c cdw10 offered s := rfl
theorem exec_presenceStable (bay s) : exec (.presenceStable bay) s = execPresenceStable bay s := rfl
theorem exec_rampEnd (bay s) : exec (.rampEnd bay) s = execRampEnd bay s := rfl
theorem exec_bayPowerGood (bay tripToo s) : exec (.bayPowerGood bay tripToo) s = execBayPowerGood bay tripToo s := rfl
theorem exec_fastTrip (bay iMa s) : exec (.fastTrip bay iMa) s = execFastTrip bay iMa s := rfl
theorem exec_breakerTrip (bay iMa s) : exec (.breakerTrip bay iMa) s = execBreakerTrip bay iMa s := rfl
theorem exec_undervoltageTrip (bay iMa s) : exec (.undervoltageTrip bay iMa) s = execUndervoltageTrip bay iMa s := rfl
theorem exec_coolDownEnd (bay stable s) : exec (.coolDownEnd bay stable) s = execCoolDownEnd bay stable s := rfl
theorem exec_retryCountRefresh (bay s) : exec (.retryCountRefresh bay) s = execRetryCountRefresh bay s := rfl
theorem exec_bayClear (bay val s) : exec (.bayClear bay val) s = execBayClear bay val s := rfl
theorem exec_feedGood (group feedB s) : exec (.feedGood group feedB) s = execFeedGood group feedB s := rfl
theorem exec_feedBad (group feedB s) : exec (.feedBad group feedB) s = execFeedBad group feedB s := rfl
theorem exec_feedBbmEnd (group s) : exec (.feedBbmEnd group) s = execFeedBbmEnd group s := rfl
theorem exec_feedRevert (group s) : exec (.feedRevert group) s = execFeedRevert group s := rfl
theorem exec_feedSwitchToA (group val s) : exec (.feedSwitchToA group val) s = execFeedSwitchToA group val s := rfl
theorem exec_feedSwitchToB (group val s) : exec (.feedSwitchToB group val) s = execFeedSwitchToB group val s := rfl
theorem exec_feedSwitchSettle (group s) : exec (.feedSwitchSettle group) s = execFeedSwitchSettle group s := rfl
theorem exec_bayTelemetrySample (bay iMa vMv peak aMv bMv s) : exec (.bayTelemetrySample bay iMa vMv peak aMv bMv) s = execBayTelemetrySample bay iMa vMv peak aMv bMv s := rfl
theorem exec_outputHoldExpiry (s) : exec .outputHoldExpiry s = execOutputHoldExpiry s := rfl
theorem exec_bayRailLoss (s) : exec .bayRailLoss s = execBayRailLoss s := rfl
theorem exec_bayRailReturn (powered s) : exec (.bayRailReturn powered) s = execBayRailReturn powered s := rfl
theorem exec_ownFeed (path val s) : exec (.ownFeed path val) s = execOwnFeed path val s := rfl
theorem exec_heartbeatGap (group s) : exec (.heartbeatGap group) s = execHeartbeatGap group s := rfl
theorem exec_heartbeatLapse (group fedNow m s) : exec (.heartbeatLapse group fedNow m) s = execHeartbeatLapse group fedNow m s := rfl
theorem exec_lineReleasedSeen (group s) : exec (.lineReleasedSeen group) s = execLineReleasedSeen group s := rfl
theorem exec_lineGapSeen (group s) : exec (.lineGapSeen group) s = execLineGapSeen group s := rfl
theorem exec_lineStuck (group s) : exec (.lineStuck group) s = execLineStuck group s := rfl
theorem exec_lineQuietExpiry (group s) : exec (.lineQuietExpiry group) s = execLineQuietExpiry group s := rfl
theorem exec_bootClaimExpiry (group s) : exec (.bootClaimExpiry group) s = execBootClaimExpiry group s := rfl
theorem exec_checkGapSample (group low m powered feedB area s) : exec (.checkGapSample group low m powered feedB area) s = execCheckGapSample group low m powered feedB area s := rfl
theorem exec_outputHandoverRelease (group s) : exec (.outputHandoverRelease group) s = execOutputHandoverRelease group s := rfl
theorem exec_takeoverAdmissionOpen (group s) : exec (.takeoverAdmissionOpen group) s = execTakeoverAdmissionOpen group s := rfl
theorem exec_tandemFlitReceive (crcOk seq acked s) : exec (.tandemFlitReceive crcOk seq acked) s = execTandemFlitReceive crcOk seq acked s := rfl
theorem exec_tandemLinkUp (side fed shelf lanes s) : exec (.tandemLinkUp side fed shelf lanes) s = execTandemLinkUp side fed shelf lanes s := rfl
theorem exec_tandemFlitSilence (s) : exec .tandemFlitSilence s = execTandemFlitSilence s := rfl
theorem exec_peerAliveFall (s) : exec .peerAliveFall s = execPeerAliveFall s := rfl
theorem exec_tandemRetrainTimer (s) : exec .tandemRetrainTimer s = execTandemRetrainTimer s := rfl
theorem exec_tandemEchoArrival (page seq ns s) : exec (.tandemEchoArrival page seq ns) s = execTandemEchoArrival page seq ns s := rfl
theorem exec_echoTimeout (who s) : exec (.echoTimeout who) s = execEchoTimeout who s := rfl
theorem exec_cadenceTick (heard s) : exec (.cadenceTick heard) s = execCadenceTick heard s := rfl
theorem exec_cadenceFrameReceive (crcOk f s) : exec (.cadenceFrameReceive crcOk f) s = execCadenceFrameReceive crcOk f s := rfl
theorem exec_standingMapReceive (group entries last s) : exec (.standingMapReceive group entries last) s = execStandingMapReceive group entries last s := rfl
theorem exec_tandemReleaseGroup (c cdw10 m s) : exec (.tandemReleaseGroup c cdw10 m) s = execTandemReleaseGroup c cdw10 m s := rfl
theorem exec_abandonHandback (c cdw10 cdw11 s) : exec (.abandonHandback c cdw10 cdw11) s = execAbandonHandback c cdw10 cdw11 s := rfl
theorem exec_svcPerstAssert (pin s) : exec (.svcPerstAssert pin) s = execSvcPerstAssert pin s := rfl
theorem exec_svcLinkUp (gts width s) : exec (.svcLinkUp gts width) s = execSvcLinkUp gts width s := rfl
theorem exec_svcLinkDown (s) : exec .svcLinkDown s = execSvcLinkDown s := rfl
theorem exec_bmeClear (fn cfg s) : exec (.bmeClear fn cfg) s = execBmeClear fn cfg s := rfl
theorem exec_bmeSet (fn cfg s) : exec (.bmeSet fn cfg) s = execBmeSet fn cfg s := rfl
theorem exec_bmeHoldExpiry (fn s) : exec (.bmeHoldExpiry fn) s = execBmeHoldExpiry fn s := rfl
theorem exec_flrInitiate (fn s) : exec (.flrInitiate fn) s = execFlrInitiate fn s := rfl
theorem exec_flrComplete (fn s) : exec (.flrComplete fn) s = execFlrComplete fn s := rfl
theorem exec_msixUnmask (fn vec newEvent s) : exec (.msixUnmask fn vec newEvent) s = execMsixUnmask fn vec newEvent s := rfl
theorem exec_d3hotEntry (fn pmeEn s) : exec (.d3hotEntry fn pmeEn) s = execD3hotEntry fn pmeEn s := rfl
theorem exec_d0Return (fn pmeEn s) : exec (.d0Return fn pmeEn) s = execD0Return fn pmeEn s := rfl
theorem exec_mctpControl (cmd arg s) : exec (.mctpControl cmd arg) s = execMctpControl cmd arg s := rfl
theorem exec_mctpSpdm (eid length req s) : exec (.mctpSpdm eid length req) s = execMctpSpdm eid length req s := rfl
theorem exec_mctpVendorManagement (eid dataLen opcode cid cdw10 cdw11 cdw12 cdw13 cdw14 m s) : exec (.mctpVendorManagement eid dataLen opcode cid cdw10 cdw11 cdw12 cdw13 cdw14 m) s = execMctpVendorManagement eid dataLen opcode cid cdw10 cdw11 cdw12 cdw13 cdw14 m s := rfl
theorem exec_serviceFunctionBind (c cdw10 s) : exec (.serviceFunctionBind c cdw10) s = execServiceFunctionBind c cdw10 s := rfl
theorem exec_eventQueueDrain (s) : exec .eventQueueDrain s = execEventQueueDrain s := rfl
theorem exec_evrSuppressedSummary (s) : exec .evrSuppressedSummary s = execEvrSuppressedSummary s := rfl
theorem exec_eventRead (c cdw10 cdw11 cdw12 s) : exec (.eventRead c cdw10 cdw11 cdw12) s = execEventRead c cdw10 cdw11 cdw12 s := rfl
theorem exec_evrWindowRead (path s) : exec (.evrWindowRead path) s = execEvrWindowRead path s := rfl
theorem exec_cycFreeze (val s) : exec (.cycFreeze val) s = execCycFreeze val s := rfl
theorem exec_cycResume (val s) : exec (.cycResume val) s = execCycResume val s := rfl
theorem exec_cycClearAll (val s) : exec (.cycClearAll val) s = execCycClearAll val s := rfl
theorem exec_freezePinEdge (falling s) : exec (.freezePinEdge falling) s = execFreezePinEdge falling s := rfl
theorem exec_cycWindowEnd (s) : exec .cycWindowEnd s = execCycWindowEnd s := rfl
theorem exec_flipArm (val s) : exec (.flipArm val) s = execFlipArm val s := rfl
theorem exec_dramScrubLine (region addr r pct s) : exec (.dramScrubLine region addr r pct) s = execDramScrubLine region addr r pct s := rfl
theorem exec_fieldLock (c cdw10 s) : exec (.fieldLock c cdw10) s = execFieldLock c cdw10 s := rfl
theorem exec_ptbArm (injector val s) : exec (.ptbArm injector val) s = execPtbArm injector val s := rfl
theorem exec_ptbDisarm (injector val s) : exec (.ptbDisarm injector val) s = execPtbDisarm injector val s := rfl
theorem exec_injectorRelease (injector item s) : exec (.injectorRelease injector item) s = execInjectorRelease injector item s := rfl
theorem exec_ptbCaptureRead (path s) : exec (.ptbCaptureRead path) s = execPtbCaptureRead path s := rfl
theorem exec_tempWarning (die tempC rearmed s) : exec (.tempWarning die tempC rearmed) s = execTempWarning die tempC rearmed s := rfl
theorem exec_tempShutdownLimit (die m s) : exec (.tempShutdownLimit die m) s = execTempShutdownLimit die m s := rfl
theorem exec_logicHardwareTrip (s) : exec .logicHardwareTrip s = execLogicHardwareTrip s := rfl
theorem exec_bayHardwareTrip (s) : exec .bayHardwareTrip s = execBayHardwareTrip s := rfl
theorem exec_railMonitorTrip (rail m s) : exec (.railMonitorTrip rail m) s = execRailMonitorTrip rail m s := rfl
theorem exec_refclkLoss (plls m s) : exec (.refclkLoss plls m) s = execRefclkLoss plls m s := rfl
theorem exec_refclkRestored (m s) : exec (.refclkRestored m) s = execRefclkRestored m s := rfl
theorem exec_pllLockLost (pll s) : exec (.pllLockLost pll) s = execPllLockLost pll s := rfl
theorem exec_jtagBypass (s) : exec .jtagBypass s = execJtagBypass s := rfl
theorem exec_jtagIdcode (s) : exec .jtagIdcode s = execJtagIdcode s := rfl
theorem exec_jtagSamplePreload (s) : exec .jtagSamplePreload s = execJtagSamplePreload s := rfl
theorem exec_jtagExtest (s) : exec .jtagExtest s = execJtagExtest s := rfl
theorem exec_jtagClamp (s) : exec .jtagClamp s = execJtagClamp s := rfl
theorem exec_mgmtPortLinkUp (s) : exec .mgmtPortLinkUp s = execMgmtPortLinkUp s := rfl
theorem exec_mgmtPortLinkDown (s) : exec .mgmtPortLinkDown s = execMgmtPortLinkDown s := rfl
theorem exec_peerAliveRise (s) : exec .peerAliveRise s = execPeerAliveRise s := rfl
theorem exec_remirrorRetryTimer (group s) : exec (.remirrorRetryTimer group) s = execRemirrorRetryTimer group s := rfl
theorem exec_flushAgeExpiry (chunk stripe s) : exec (.flushAgeExpiry chunk stripe) s = execFlushAgeExpiry chunk stripe s := rfl
theorem exec_ownerAuthVerificationDone (v s) : exec (.ownerAuthVerificationDone v) s = execOwnerAuthVerificationDone v s := rfl
theorem exec_svcPerstRelease (s) : exec .svcPerstRelease s = execSvcPerstRelease s := rfl
theorem exec_svcNvmeRegisterWrite (fn off val s) : exec (.svcNvmeRegisterWrite fn off val) s = execSvcNvmeRegisterWrite fn off val s := rfl
theorem exec_svcDmaReadCompletion (fn tag what urca s) : exec (.svcDmaReadCompletion fn tag what urca) s = execSvcDmaReadCompletion fn tag what urca s := rfl
theorem exec_cstsRdyReached (spoke s) : exec (.cstsRdyReached spoke) s = execCstsRdyReached spoke s := rfl
theorem exec_cstsRdyCleared (spoke s) : exec (.cstsRdyCleared spoke) s = execCstsRdyCleared spoke s := rfl
theorem exec_cstsCfsSet (spoke s) : exec (.cstsCfsSet spoke) s = execCstsCfsSet spoke s := rfl
theorem exec_driveAdminCommandTimeout (spoke s) : exec (.driveAdminCommandTimeout spoke) s = execDriveAdminCommandTimeout spoke s := rfl

end Sys2Proof.Machine
end

