-- ==== Sys2Proof/Laws/Keep0.lean ====
section
/-! SUPPORT. One lemma per operation of the model: it leaves the queue, TRS_BUF, the NOR, the field lock and the SVN bank as they
were (part 1 of 9; the operations that do touch one of them are in Laws/Grow.lean). -/

namespace Sys2Proof.Machine

set_option linter.unusedSimpArgs false
set_option linter.unusedVariables false

/-- The part of the state that few commands touch: the queue, TRS_BUF, the NOR, the field lock and the SVN bank. -/
structure Keep where
  pending : List Instr
  buf     : List Host.Cell
  flash   : List Host.Cell
  lock    : Bool
  svn     : List Nat

/-- That part of a state. -/
def keep (s : State) : Keep := ⟨s.pending, s.trs.buf, s.nor.flash, s.trs.fieldLock, s.trs.svnBank⟩

theorem keep_eta (s : State) : Keep.mk s.pending s.trs.buf s.nor.flash s.trs.fieldLock s.trs.svnBank = keep s := rfl

theorem keep_mk (p o n f g r no c t pr rd cf ca se co x fe sw sc sp b td sv ev cy pt me) :
    keep (State.mk p o n f g r no c t pr rd cf ca se co x fe sw sc sp b td sv ev cy pt me)
      = Keep.mk p t.buf no.flash t.fieldLock t.svnBank := rfl

theorem keep_foldl {α : Type} (f : State → α → State) (l : List α) (s : State) (h : ∀ s x, keep (f s x) = keep s) :
    keep (l.foldl f s) = keep s := by
  induction l generalizing s with
  | nil => rfl
  | cons x l ih => exact (ih (f s x)).trans (h s x)

theorem keep_foldl_fst {α β : Type} (f : State × β → α → State × β) (l : List α) (p : State × β)
    (h : ∀ p x, keep (f p x).1 = keep p.1) : keep (l.foldl f p).1 = keep p.1 := by
  induction l generalizing p with
  | nil => rfl
  | cons x l ih => exact (ih (f p x)).trans (h p x)

theorem keep_foldl_snd {α β : Type} (f : β × State → α → β × State) (l : List α) (p : β × State)
    (h : ∀ p x, keep (f p x).2 = keep p.2) : keep (l.foldl f p).2 = keep p.2 := by
  induction l generalizing p with
  | nil => rfl
  | cons x l ih => exact (ih (f p x)).trans (h p x)

theorem keep_foldl_bind {α : Type} (g : State → α → Option State) (l : List α) (s t : State)
    (h : ∀ s x t, g s x = some t → keep t = keep s)
    (e : l.foldl (fun (acc : Option State) x => acc.bind fun s => g s x) (some s) = some t) : keep t = keep s := by
  induction l generalizing s with
  | nil => cases e; rfl
  | cons x l ih =>
    rw [List.foldl_cons, Option.bind_some] at e
    cases hg : g s x with
    | none =>
      rw [hg] at e
      have : l.foldl (fun (acc : Option State) x => acc.bind fun s => g s x) none = none := by
        clear e ih
        induction l with
        | nil => rfl
        | cons y l ih => exact ih
      rw [this] at e
      cases e
    | some u =>
      rw [hg] at e
      exact (ih u e).trans (h s x u hg)

theorem keep_snd {α : Type} {p : α × State} {v : α} {t : State} (e : p = (v, t)) : keep t = keep p.2 := by rw [e]

theorem keep_fst {α : Type} {p : State × α} {v : α} {t : State} (e : p = (t, v)) : keep t = keep p.1 := by rw [e]

/-- An outcome keeps that part of a state. -/
def Keeps (s : State) (o : Host.Outcome State Fault Refusal) : Prop := ∀ t, o = .next t → keep t = keep s

theorem keeps_next {s t : State} (h : keep t = keep s) : Keeps s (.next t) := by
  intro u e
  cases e
  exact h

theorem keeps_fault (s : State) (e : Fault) : Keeps s (.fault e) := by
  intro u h
  cases h

theorem keep_rcMax (s a1 a2 a3)  : keep (rcMax s a1 a2 a3) = keep s := rfl

theorem keep_count (s a1 a2 a3 a4)  : keep (count s a1 a2 a3 a4) = keep s := by unfold count; (repeat' split) <;> simp only [keep_mk, keep_eta]

theorem keep_rollSecond (s)  : keep (rollSecond s) = keep s := by unfold rollSecond; (repeat' split) <;> simp only [keep_mk, keep_eta]

theorem keep_takeSeq (s)  : keep (takeSeq s) = keep s := by unfold takeSeq; (repeat' split) <;> simp only [keep_mk, keep_eta]

theorem keep_rcAdd (s a1 a2 a3)  : keep (rcAdd s a1 a2 a3) = keep s := rfl

theorem keep_setFn (s a1 a2)  : keep (setFn s a1 a2) = keep s := rfl

theorem keep_emit (s a1)  : keep (emit s a1) = keep s := rfl

theorem keep_raiseVec (s a1 a2)  : keep (raiseVec s a1 a2) = keep s := by
  unfold raiseVec
  repeat' first | rfl | split | refine (keep_foldl _ _ _ (fun _ _ => ?_)).trans ?_ | simp only [keep_mk, keep_eta, keep_rcAdd, keep_setFn, keep_emit]

theorem keep_ringPut (s a1)  : keep (ringPut s a1) = keep s := by
  unfold ringPut
  repeat' first | rfl | split | refine (keep_foldl _ _ _ (fun _ _ => ?_)).trans ?_ | simp only [keep_mk, keep_eta, keep_raiseVec]

theorem keep_countRate (s a1)  : keep (countRate s a1) = keep s := by unfold countRate; (repeat' split) <;> simp only [keep_mk, keep_eta]

theorem keep_loseSeq (s)  : keep (loseSeq s) = keep s := by unfold loseSeq; (repeat' split) <;> simp only [keep_mk, keep_eta, keep_takeSeq]

theorem keep_placeEvent (s a1)  : keep (placeEvent s a1) = keep s := by
  unfold placeEvent
  repeat' first | rfl | split | refine (keep_foldl _ _ _ (fun _ _ => ?_)).trans ?_ | simp only [keep_mk, keep_eta, keep_rollSecond, keep_takeSeq, keep_ringPut, keep_countRate, keep_rcAdd, keep_loseSeq]

theorem keep_freezeNow (s a1)  : keep (freezeNow s a1) = keep s := by unfold freezeNow; (repeat' split) <;> simp only [keep_mk, keep_eta, keep_placeEvent]

theorem keep_freezeOn (s a1)  : keep (freezeOn s a1) = keep s := by unfold freezeOn; (repeat' split) <;> simp only [keep_mk, keep_eta, keep_freezeNow]

theorem keep_writeEvent (s a1)  : keep (writeEvent s a1) = keep s := by
  unfold writeEvent
  repeat' first | rfl | split | refine (keep_foldl _ _ _ (fun _ _ => ?_)).trans ?_ | simp only [keep_mk, keep_eta, keep_rollSecond, keep_placeEvent, keep_freezeOn, keep_raiseVec]

theorem keep_discardStale (s a1 a2 a3 a4)  : keep (discardStale s a1 a2 a3 a4).1 = keep s := by unfold discardStale; (repeat' split) <;> simp only [keep_mk, keep_eta, keep_count, keep_writeEvent]

theorem keep_takeFree (s)  : keep (takeFree s).2 = keep s := rfl

theorem keep_tdmSend (s a1)  : keep (tdmSend s a1) = keep s := by unfold tdmSend; simp only [keep_mk, keep_eta, keep_takeFree, keep_emit, keep_count]

theorem keep_w1cSet (s a1 a2 a3)  : keep (w1cSet s a1 a2 a3) = keep s := rfl

theorem keep_rwPut (s a1 a2 a3)  : keep (rwPut s a1 a2 a3) = keep s := rfl

theorem keep_transient (s a1 a2 a3 a4)  : keep (transient s a1 a2 a3 a4) = keep s := by unfold transient; simp only [keep_mk, keep_eta, keep_writeEvent, keep_count]

theorem keep_cured (s a1 a2)  : keep (cured s a1 a2) = keep s := by unfold cured; simp only [keep_mk, keep_eta, keep_transient]

theorem keep_noteMode (r0 s)  : keep (noteMode r0 s) = keep s := by unfold noteMode; (repeat' split) <;> simp only [keep_mk, keep_eta, keep_raiseVec]

theorem keep_takeFrees (s a1)  : keep (takeFrees s a1).2 = keep s := rfl

theorem keep_spdmAnswer (s a1 a2)  : keep (spdmAnswer s a1 a2).1 = keep s := by
  unfold spdmAnswer
  repeat' first | rfl | split | refine (keep_foldl _ _ _ (fun _ _ => ?_)).trans ?_ | simp only [keep_mk, keep_eta, keep_takeFree]

theorem keep_closeCtx (s a1)  : keep (closeCtx s a1) = keep s := rfl

theorem keep_ctxNote (s a1 a2)  : keep (ctxNote s a1 a2) = keep s := rfl

theorem keep_spdmServe (s a1 a2)  : keep (spdmServe s a1 a2).1 = keep s := by unfold spdmServe; (repeat' split) <;> simp only [keep_mk, keep_eta, keep_writeEvent, keep_closeCtx, keep_spdmAnswer, keep_ctxNote]

theorem keep_spdmRequest (s a1 a2)  : keep (spdmRequest s a1 a2) = keep s := by unfold spdmRequest; grind [keep_mk, keep_eta, keep_spdmServe, keep_emit]

theorem keep_execGetMeasurements (a0 a1 a2 a3 s)  : Keeps s (execGetMeasurements a0 a1 a2 a3 s) := keeps_next (by simp only [keep_mk, keep_eta, keep_spdmRequest])

theorem keep_newNonce (s)  : keep (newNonce s) = keep s := rfl

theorem keep_authResult (s a1 a2)  : keep (authResult s a1 a2) = keep s := by unfold authResult; (repeat' split) <;> simp only [keep_mk, keep_eta, keep_newNonce, keep_writeEvent]

theorem keep_checkAuthSigs (s a1)  : keep (checkAuthSigs s a1) = keep s := rfl

theorem keep_startBurn (s a1)  : keep (startBurn s a1) = keep s := rfl

theorem keep_authStart (s a1)  : keep (authStart s a1) = keep s := by
  unfold authStart
  repeat' first | rfl | split | refine (keep_foldl _ _ _ (fun _ _ => ?_)).trans ?_ | simp only [keep_mk, keep_eta, keep_count, keep_authResult, keep_checkAuthSigs, keep_startBurn]

theorem keep_execTrsAdvanceMinSvn (a0 s)  : Keeps s (execTrsAdvanceMinSvn a0 s) := keeps_next (by simp only [keep_mk, keep_eta, keep_authStart])

theorem keep_execNegotiateAlgorithms (a0 a1 a2 a3 a4 s)  : Keeps s (execNegotiateAlgorithms a0 a1 a2 a3 a4 s) := keeps_next (by simp only [keep_mk, keep_eta, keep_spdmRequest])

theorem keep_execChallenge (a0 a1 a2 a3 s)  : Keeps s (execChallenge a0 a1 a2 a3 s) := keeps_next (by simp only [keep_mk, keep_eta, keep_spdmRequest])

theorem keep_setMeas (s a1 a2)  : keep (setMeas s a1 a2) = keep s := rfl

theorem keep_measureOwner (s)  : keep (measureOwner s) = keep s := rfl

theorem keep_measureImage (s)  : keep (measureImage s) = keep s := rfl

theorem keep_measureHw (s)  : keep (measureHw s) = keep s := rfl

theorem keep_brEvents (s a1)  : keep (brEvents s a1) = keep s := by
  unfold brEvents
  repeat' first | rfl | split | refine (keep_foldl _ _ _ (fun _ _ => ?_)).trans ?_ | simp only [keep_mk, keep_eta, keep_writeEvent]

theorem keep_setBr (s a1 a2)  : keep (setBr s a1 a2) = keep s := rfl

theorem keep_tryBootRec (s a1 a2)  : keep (tryBootRec s a1 a2).1 = keep s := by
  unfold tryBootRec
  repeat' first | rfl | split | refine (keep_foldl _ _ _ (fun _ _ => ?_)).trans ?_ | simp only [keep_mk, keep_eta, keep_setBr]

theorem keep_writeBootRec (s a1 a2 a3)  : keep (writeBootRec s a1 a2 a3).1 = keep s := by
  unfold writeBootRec
  repeat' first | rfl | split | refine (keep_foldl _ _ _ (fun _ _ => ?_)).trans ?_ | refine (keep_fst (p := tryBootRec _ _ _ ) (by assumption)).trans ((keep_tryBootRec _ _ _ ).trans ?_) | simp only [keep_mk, keep_eta, keep_brEvents, keep_tryBootRec]

theorem keep_setOwner (s a1 a2)  : keep (setOwner s a1 a2) = keep s := rfl

theorem keep_execGetCapabilities (a0 s)  : Keeps s (execGetCapabilities a0 s) := keeps_next (by simp only [keep_mk, keep_eta, keep_spdmRequest])

theorem keep_execGetDigests (a0 s)  : Keeps s (execGetDigests a0 s) := keeps_next (by simp only [keep_mk, keep_eta, keep_spdmRequest])

theorem keep_execTrsRevoke (a0 s)  : Keeps s (execTrsRevoke a0 s) := keeps_next (by simp only [keep_mk, keep_eta, keep_authStart])

theorem keep_execTrsEnroll (a0 s)  : Keeps s (execTrsEnroll a0 s) := keeps_next (by simp only [keep_mk, keep_eta, keep_authStart])

theorem keep_execSpdmUnsupportedRequest (a0 a1 s)  : Keeps s (execSpdmUnsupportedRequest a0 a1 s) := keeps_next (by simp only [keep_mk, keep_eta, keep_spdmRequest])

theorem keep_execSpdmContextIdleExpiry (a0 s)  : Keeps s (execSpdmContextIdleExpiry a0 s) := keeps_next (by simp only [keep_mk, keep_eta, keep_closeCtx])

theorem keep_execGetCertificate (a0 a1 a2 a3 s)  : Keeps s (execGetCertificate a0 a1 a2 a3 s) := keeps_next (by simp only [keep_mk, keep_eta, keep_spdmRequest])

theorem keep_authVerified (s a1)  : keep (authVerified s a1) = keep s := by unfold authVerified; (repeat' split) <;> simp only [keep_mk, keep_eta, keep_authResult, keep_startBurn]

theorem keep_execGetVersion (a0 s)  : Keeps s (execGetVersion a0 s) := keeps_next (by simp only [keep_mk, keep_eta, keep_spdmRequest])

theorem keep_execOwnerAuthVerificationDone (a0 s)  : Keeps s (execOwnerAuthVerificationDone a0 s) := keeps_next (by simp only [keep_mk, keep_eta, keep_authVerified])

theorem keep_ringScan (s)  : keep (ringScan s) = keep s := by unfold ringScan; (repeat' split) <;> simp only [keep_mk, keep_eta, keep_rcAdd]

theorem keep_persistOdo (s)  : keep (persistOdo s) = keep s := by unfold persistOdo; (repeat' split) <;> simp only [keep_mk, keep_eta]

theorem keep_cocoonUp (s)  : keep (cocoonUp s) = keep s := by unfold cocoonUp; (repeat' split) <;> simp only [keep_mk, keep_eta, keep_ringScan, keep_persistOdo]

theorem keep_setChan (s a1 a2)  : keep (setChan s a1 a2) = keep s := rfl

theorem keep_startRamp (s a1 a2)  : keep (startRamp s a1 a2) = keep s := rfl

theorem keep_chanCancel (s a1 a2)  : keep (chanCancel s a1 a2) = keep s := by unfold chanCancel; simp only [keep_mk, keep_eta, keep_writeEvent, keep_setChan]

theorem keep_chanUnlatch (s a1 a2)  : keep (chanUnlatch s a1 a2) = keep s := by unfold chanUnlatch; simp only [keep_mk, keep_eta, keep_writeEvent, keep_setChan]

theorem keep_chanPresenceLost (s a1)  : keep (chanPresenceLost s a1) = keep s := by
  unfold chanPresenceLost
  repeat' first | rfl | split | refine (keep_foldl _ _ _ (fun _ _ => ?_)).trans ?_ | simp only [keep_mk, keep_eta, keep_setChan, keep_chanCancel, keep_chanUnlatch]

theorem keep_chanInsert (s a1)  : keep (chanInsert s a1) = keep s := by
  unfold chanInsert
  repeat' first | rfl | split | refine (keep_foldl _ _ _ (fun _ _ => ?_)).trans ?_ | simp only [keep_mk, keep_eta, keep_setChan]

theorem keep_chanOffRequest (s a1)  : keep (chanOffRequest s a1) = keep s := by
  unfold chanOffRequest
  repeat' first | rfl | split | refine (keep_foldl _ _ _ (fun _ _ => ?_)).trans ?_ | simp only [keep_mk, keep_eta, keep_setChan, keep_chanCancel]

theorem keep_setFeed (s a1 a2)  : keep (setFeed s a1 a2) = keep s := by unfold setFeed; (repeat' split) <;> simp only [keep_mk, keep_eta]

theorem keep_feedBothBad (s a1 a2)  : keep (feedBothBad s a1 a2) = keep s := by unfold feedBothBad; simp only [keep_mk, keep_eta, keep_writeEvent, keep_setFeed]

theorem keep_chanTrip (s a1 a2 a3)  : keep (chanTrip s a1 a2 a3) = keep s := by
  unfold chanTrip
  repeat' first | rfl | split | refine (keep_foldl _ _ _ (fun _ _ => ?_)).trans ?_ | simp only [keep_mk, keep_eta, keep_setChan, keep_w1cSet, keep_writeEvent]

theorem keep_feedSwitchTo (s a1 a2 a3)  : keep (feedSwitchTo s a1 a2 a3) = keep s := by unfold feedSwitchTo; simp only [keep_mk, keep_eta, keep_setFeed]

theorem keep_groupOutputsOff (s a1)  : keep (groupOutputsOff s a1) = keep s := by
  unfold groupOutputsOff
  repeat' first | rfl | split | refine (keep_foldl _ _ _ (fun _ _ => ?_)).trans ?_ | simp only [keep_mk, keep_eta, keep_setChan, keep_setFeed]

theorem keep_feedStart (s a1)  : keep (feedStart s a1) = keep s := by
  unfold feedStart
  repeat' first | rfl | split | refine (keep_foldl _ _ _ (fun _ _ => ?_)).trans ?_ | simp only [keep_mk, keep_eta, keep_setFeed, keep_feedBothBad]

theorem keep_adoptOutputs (s a1 a2 a3)  : keep (adoptOutputs s a1 a2 a3) = keep s := by
  unfold adoptOutputs
  repeat' first | rfl | split | refine (keep_foldl _ _ _ (fun _ _ => ?_)).trans ?_ | simp only [keep_mk, keep_eta, keep_setChan, keep_setFeed, keep_feedStart]

theorem keep_setGrp (s a1 a2)  : keep (setGrp s a1 a2) = keep s := by unfold setGrp; (repeat' split) <;> simp only [keep_mk, keep_eta]

theorem keep_setPlace (s a1 a2)  : keep (setPlace s a1 a2) = keep s := rfl

theorem keep_setDisp (s a1 a2)  : keep (setDisp s a1 a2) = keep s := rfl

theorem keep_setMap (s a1 a2)  : keep (setMap s a1 a2) = keep s := rfl

theorem keep_setWin (s a1 a2)  : keep (setWin s a1 a2) = keep s := rfl

theorem keep_tableDrop (s a1 a2 a3)  : keep (tableDrop s a1 a2 a3) = keep s := by unfold tableDrop; (repeat' split) <;> simp only [keep_mk, keep_eta, keep_setDisp, keep_setMap, keep_setPlace, keep_setWin]

theorem keep_dropRefs (s a1)  : keep (dropRefs s a1) = keep s := by
  unfold dropRefs
  repeat' first | rfl | split | refine (keep_foldl _ _ _ (fun _ _ => ?_)).trans ?_ | simp only [keep_mk, keep_eta, keep_tableDrop]

theorem keep_noteOverflow (s)  : keep (noteOverflow s) = keep s := by
  unfold noteOverflow
  repeat' first | rfl | split | refine (keep_foldl _ _ _ (fun _ _ => ?_)).trans ?_ | simp only [keep_mk, keep_eta]

theorem keep_noteCongested (s)  : keep (noteCongested s) = keep s := by unfold noteCongested; (repeat' split) <;> simp only [keep_mk, keep_eta, keep_writeEvent]

theorem keep_freeCells (s a1)  : keep (freeCells s a1) = keep s := by unfold freeCells; simp only [keep_mk, keep_eta, keep_noteOverflow, keep_noteCongested]

theorem keep_dropTx (s a1)  : keep (dropTx s a1) = keep s := by unfold dropTx; (repeat' split) <;> simp only [keep_mk, keep_eta, keep_tableDrop, keep_freeCells]

theorem keep_sampleDepth (s a1 a2 a3 a4)  : keep (sampleDepth s a1 a2 a3 a4) = keep s := by
  unfold sampleDepth
  repeat' first | rfl | split | refine (keep_foldl _ _ _ (fun _ _ => ?_)).trans ?_ | simp only [keep_mk, keep_eta, keep_rcMax]

theorem keep_setEg (s a1 a2 a3)  : keep (setEg s a1 a2 a3) = keep s := rfl

theorem keep_egPush (s a1 a2 a3 a4)  : keep (egPush s a1 a2 a3 a4) = keep s := by
  unfold egPush
  repeat' first | rfl | split | refine (keep_foldl _ _ _ (fun _ _ => ?_)).trans ?_ | simp only [keep_mk, keep_eta, keep_dropTx, keep_rcAdd, keep_sampleDepth, keep_setEg]

theorem keep_sampleLeave (s a1 a2 a3 a4)  : keep (sampleLeave s a1 a2 a3 a4) = keep s := by
  unfold sampleLeave
  repeat' first | rfl | split | refine (keep_foldl _ _ _ (fun _ _ => ?_)).trans ?_ | simp only [keep_mk, keep_eta, keep_rcAdd, keep_rcMax]

theorem keep_cellAlloc (s a1 a2)  (t : State) : (cellAlloc s a1 a2) = some t → keep t = keep s := by unfold cellAlloc; grind [keep_mk, keep_eta, keep_noteOverflow, keep_noteCongested, keep_count]

theorem keep_tableRef (s a1 a2)  : keep (tableRef s a1 a2).2 = keep s := by unfold tableRef; (repeat' split) <;> simp only [keep_mk, keep_eta, keep_setDisp, keep_setMap, keep_setPlace, keep_setWin]

theorem keep_setSub (s a1 a2)  : keep (setSub s a1 a2) = keep s := rfl

theorem keep_beginTraining (s a1)  : keep (beginTraining s a1) = keep s := rfl

theorem keep_injNote (s a1 a2 a3 a4)  : keep (injNote s a1 a2 a3 a4) = keep s := by
  unfold injNote
  repeat' first | rfl | split | refine (keep_foldl _ _ _ (fun _ _ => ?_)).trans ?_ | simp only [keep_mk, keep_eta, keep_rcAdd]

theorem keep_setInj (s a1 a2)  : keep (setInj s a1 a2) = keep s := rfl

theorem keep_injDelay (s a1)  : keep (injDelay s a1).2 = keep s := by unfold injDelay; grind [keep_mk, keep_eta, keep_takeFree]

theorem keep_stallAt (s a1 a2)  : keep (stallAt s a1 a2).2 = keep s := by unfold stallAt; grind [keep_mk, keep_eta, keep_injDelay, keep_injNote]

theorem keep_atPoint (s a1 a2 a3 a4) (h4 : ∀ t, keep (a4 t) = keep t) : keep (atPoint s a1 a2 a3 a4) = keep s := by
  unfold atPoint
  repeat' first | rfl | split | refine (keep_foldl _ _ _ (fun _ _ => ?_)).trans ?_ | refine (keep_snd (p := injDelay _ _ ) (by assumption)).trans ((keep_injDelay _ _ ).trans ?_) | simp only [keep_mk, keep_eta, h4, keep_setInj, keep_injNote, keep_injDelay]

theorem keep_setRun (s a1 a2)  : keep (setRun s a1 a2) = keep s := rfl

theorem keep_latchRules (s)  : keep (latchRules s) = keep s := by
  unfold latchRules
  repeat' first | rfl | split | refine (keep_foldl _ _ _ (fun _ _ => ?_)).trans ?_ | simp only [keep_mk, keep_eta, keep_setRun]

theorem keep_setMir (s a1 a2)  : keep (setMir s a1 a2) = keep s := rfl

theorem keep_setOwn (s a1 a2)  : keep (setOwn s a1 a2) = keep s := rfl

theorem keep_setPg (s a1 a2 a3)  : keep (setPg s a1 a2 a3) = keep s := by unfold setPg; (repeat' split) <;> simp only [keep_mk, keep_eta, keep_setMir, keep_setOwn]

theorem keep_noteOccupancy (s)  : keep (noteOccupancy s) = keep s := by
  unfold noteOccupancy
  repeat' first | rfl | split | refine (keep_foldl _ _ _ (fun _ _ => ?_)).trans ?_ | simp only [keep_mk, keep_eta, keep_writeEvent]

theorem keep_freeNow (s a1 a2)  : keep (freeNow s a1 a2) = keep s := by
  unfold freeNow
  repeat' first | rfl | split | refine (keep_foldl _ _ _ (fun _ _ => ?_)).trans ?_ | simp only [keep_mk, keep_eta, keep_noteOccupancy, keep_setPg]

theorem keep_unpinPage (s a1 a2)  : keep (unpinPage s a1 a2) = keep s := by
  unfold unpinPage
  repeat' first | rfl | split | refine (keep_foldl _ _ _ (fun _ _ => ?_)).trans ?_ | simp only [keep_mk, keep_eta, keep_setPg, keep_freeNow]

theorem keep_unpinPages (s a1)  : keep (unpinPages s a1) = keep s := by
  unfold unpinPages
  repeat' first | rfl | split | refine (keep_foldl _ _ _ (fun _ _ => ?_)).trans ?_ | simp only [keep_mk, keep_eta, keep_unpinPage]

theorem keep_pinPage (s a1 a2)  : keep (pinPage s a1 a2) = keep s := by unfold pinPage; simp only [keep_mk, keep_eta, keep_setPg]

theorem keep_supersede (s a1 a2)  : keep (supersede s a1 a2) = keep s := by
  unfold supersede
  repeat' first | rfl | split | refine (keep_foldl _ _ _ (fun _ _ => ?_)).trans ?_ | simp only [keep_mk, keep_eta, keep_setOwn]

theorem keep_releasePage (s a1 a2)  : keep (releasePage s a1 a2) = keep s := by
  unfold releasePage
  repeat' first | rfl | split | refine (keep_foldl _ _ _ (fun _ _ => ?_)).trans ?_ | simp only [keep_mk, keep_eta, keep_setPg, keep_freeNow]

theorem keep_freeSuperseded (s a1 a2)  : keep (freeSuperseded s a1 a2) = keep s := by
  unfold freeSuperseded
  repeat' first | rfl | split | refine (keep_foldl _ _ _ (fun _ _ => ?_)).trans ?_ | simp only [keep_mk, keep_eta, keep_releasePage]

theorem keep_reserve (s a1)  : keep (reserve s a1) = keep s := by
  unfold reserve
  repeat' first | rfl | split | refine (keep_foldl _ _ _ (fun _ _ => ?_)).trans ?_ | simp only [keep_mk, keep_eta, keep_tdmSend, keep_setRun]

theorem keep_takeCtrs (s a1 a2)  : keep (takeCtrs s a1 a2).2 = keep s := by
  unfold takeCtrs
  repeat' first | rfl | split | refine (keep_foldl _ _ _ (fun _ _ => ?_)).trans ?_ | simp only [keep_mk, keep_eta, keep_writeEvent, keep_setRun, keep_reserve]

theorem keep_setSeq (s a1 a2)  : keep (setSeq s a1 a2) = keep s := by unfold setSeq; (repeat' split) <;> simp only [keep_mk, keep_eta]

theorem keep_setRt (s a1 a2)  : keep (setRt s a1 a2) = keep s := rfl

theorem keep_releaseNs (s a1)  : keep (releaseNs s a1) = keep s := by
  unfold releaseNs
  repeat' first | rfl | split | refine (keep_foldl _ _ _ (fun _ _ => ?_)).trans ?_ | simp only [keep_mk, keep_eta, keep_releasePage]

theorem keep_postFn (s a1 a2)  : keep (postFn s a1 a2) = keep s := by
  unfold postFn
  repeat' first | rfl | split | refine (keep_foldl _ _ _ (fun _ _ => ?_)).trans ?_ | simp only [keep_mk, keep_eta, keep_setFn, keep_emit]

theorem keep_setQp (s a1 a2)  : keep (setQp s a1 a2) = keep s := rfl

theorem keep_sendMsg (s a1 a2)  : keep (sendMsg s a1 a2) = keep s := by
  unfold sendMsg
  repeat' first | rfl | split | refine (keep_foldl _ _ _ (fun _ _ => ?_)).trans ?_ | simp only [keep_mk, keep_eta, keep_setQp]

theorem keep_recvReturn (s a1)  : keep (recvReturn s a1) = keep s := by
  unfold recvReturn
  repeat' first | rfl | split | refine (keep_foldl _ _ _ (fun _ _ => ?_)).trans ?_ | simp only [keep_mk, keep_eta, keep_setQp]

theorem keep_postCapsule (s a1 a2 a3)  : keep (postCapsule s a1 a2 a3) = keep s := by unfold postCapsule; (repeat' split) <;> simp only [keep_mk, keep_eta, keep_sendMsg, keep_recvReturn, keep_emit]

theorem keep_setTq (s a1 a2)  : keep (setTq s a1 a2) = keep s := rfl

theorem keep_cqWrite (s a1 a2)  : keep (cqWrite s a1 a2) = keep s := by unfold cqWrite; simp only [keep_mk, keep_eta, keep_setTq, keep_sendMsg, keep_emit]

theorem keep_tqComplete (s a1 a2)  : keep (tqComplete s a1 a2) = keep s := by
  unfold tqComplete
  repeat' first | rfl | split | refine (keep_foldl _ _ _ (fun _ _ => ?_)).trans ?_ | simp only [keep_mk, keep_eta, keep_cqWrite, keep_setTq]

theorem keep_replyD (s a1 a2 a3 a4 a5 a6)  : keep (replyD s a1 a2 a3 a4 a5 a6) = keep s := by unfold replyD; grind [keep_mk, keep_eta, keep_raiseVec, keep_postFn, keep_takeFree, keep_emit, keep_postCapsule, keep_tqComplete]

theorem keep_reply (s a1 a2 a3 a4)  : keep (reply s a1 a2 a3 a4) = keep s := by unfold reply; simp only [keep_mk, keep_eta, keep_replyD]

theorem keep_asManagerIn (s a1 a2 a3 a4) (h4 : ∀ t, keep (a4 t) = keep t) : keep (asManagerIn s a1 a2 a3 a4) = keep s := by
  unfold asManagerIn
  split
  · rfl
  · split
    · simp only [keep_reply]
    · exact h4 s

theorem keep_tqStale (s a1)  : keep (tqStale s a1) = keep s := by unfold tqStale; simp only [keep_mk, keep_eta, keep_discardStale, keep_setTq]

theorem keep_setAssoc (s a1 a2)  : keep (setAssoc s a1 a2) = keep s := rfl

theorem keep_cqDrain (s a1 a2)  : keep (cqDrain s a1 a2) = keep s := by
  induction a2 generalizing s with
  | nil => unfold cqDrain; exact keep_setTq _ _ _
  | cons c r ih => unfold cqDrain; split <;> simp only [keep_setTq, ih, keep_cqWrite]

theorem keep_asManager (s a1 a2 a3) (h3 : ∀ t, keep (a3 t) = keep t) : keep (asManager s a1 a2 a3) = keep s := keep_asManagerIn _ _ _ _ _ h3

theorem keep_setSpk (s a1 a2)  : keep (setSpk s a1 a2) = keep s := rfl

theorem keep_issueDrive (s a1 a2 a3 a4)  : keep (issueDrive s a1 a2 a3 a4).1 = keep s := by
  unfold issueDrive
  repeat' first | rfl | split | refine (keep_foldl _ _ _ (fun _ _ => ?_)).trans ?_ | simp only [keep_mk, keep_eta, keep_setSpk, keep_emit, keep_count]

theorem keep_onSpoke (a0 s a2) (h2 : ∀ t, keep (a2 t) = keep t) : Keeps s (onSpoke a0 s a2) := by unfold onSpoke; (repeat' split) <;> first | exact keeps_fault _ _ | exact keeps_refused _ _  | exact keeps_next (by simp only [keep_mk, keep_eta, h2])

theorem keep_dropSlot (s a1 a2)  : keep (dropSlot s a1 a2) = keep s := by
  unfold dropSlot
  repeat' first | rfl | split | refine (keep_foldl _ _ _ (fun _ _ => ?_)).trans ?_ | simp only [keep_mk, keep_eta, keep_freeCells, keep_unpinPages, keep_setSpk]

theorem keep_setCtx (s a1 a2)  : keep (setCtx s a1 a2) = keep s := rfl

theorem keep_completeCtx (s a1 a2 a3 a4 a5)  : keep (completeCtx s a1 a2 a3 a4 a5) = keep s := by unfold completeCtx; (repeat' split) <;> simp only [keep_mk, keep_eta, keep_setCtx, keep_replyD]

theorem keep_dropStaged (s a1)  : keep (dropStaged s a1) = keep s := by
  unfold dropStaged
  repeat' first | rfl | split | refine (keep_foldl _ _ _ (fun _ _ => ?_)).trans ?_ | simp only [keep_mk, keep_eta, keep_noteOccupancy, keep_setOwn]

theorem keep_freeCtxNow (s a1 a2)  : keep (freeCtxNow s a1 a2) = keep s := by unfold freeCtxNow; simp only [keep_mk, keep_eta, keep_setCtx, keep_dropRefs, keep_dropStaged, keep_freeCells]

theorem keep_listFaultEvent (s a1 a2)  : keep (listFaultEvent s a1 a2) = keep s := by unfold listFaultEvent; simp only [keep_mk, keep_eta, keep_writeEvent]

theorem keep_listFault (s a1 a2)  : keep (listFault s a1 a2) = keep s := by unfold listFault; (repeat' split) <;> simp only [keep_mk, keep_eta, keep_completeCtx, keep_freeCtxNow, keep_listFaultEvent]

theorem keep_samplePush (s a1)  : keep (samplePush s a1) = keep s := by unfold samplePush; (repeat' split) <;> simp only [keep_mk, keep_eta, keep_rcAdd]

theorem keep_countStep (s a1 a2 a3 a4 a5 a6)  : keep (countStep s a1 a2 a3 a4 a5 a6) = keep s := by
  unfold countStep
  repeat' first | rfl | split | refine (keep_foldl _ _ _ (fun _ _ => ?_)).trans ?_ | simp only [keep_mk, keep_eta, keep_count, keep_samplePush]

theorem keep_countSkid (s a1 a2 a3 a4)  : keep (countSkid s a1 a2 a3 a4) = keep s := by unfold countSkid; grind [keep_mk, keep_eta, keep_takeFree, keep_countStep]

theorem keep_runStep (s a1 a2 a3 a4) (h4 : ∀ y0 t, keep (a4 y0 t) = keep t) : keep (runStep s a1 a2 a3 a4) = keep s := by
  unfold runStep
  repeat' first | rfl | split | simp only [keep_listFault, keep_rcAdd, h4, keep_countSkid]

theorem keep_parkCtx (s a1 a2 a3 a4)  : keep (parkCtx s a1 a2 a3 a4) = keep s := by unfold parkCtx; simp only [keep_mk, keep_eta, keep_setCtx, keep_countSkid]

theorem keep_parkRetry (s a1 a2 a3 a4)  : keep (parkRetry s a1 a2 a3 a4) = keep s := by unfold parkRetry; simp only [keep_mk, keep_eta, keep_parkCtx]

theorem keep_endCtx (s a1 a2)  : keep (endCtx s a1 a2) = keep s := by unfold endCtx; (repeat' split) <;> simp only [keep_mk, keep_eta, keep_listFault, keep_freeCtxNow, keep_listFaultEvent]

theorem keep_setVcInstar (s a1 a2)  : keep (setVcInstar s a1 a2) = keep s := rfl

theorem keep_mcastDone (s a1 a2 a3)  : keep (mcastDone s a1 a2 a3) = keep s := by
  unfold mcastDone
  repeat' first | rfl | split | refine (keep_foldl _ _ _ (fun _ _ => ?_)).trans ?_ | simp only [keep_mk, keep_eta, keep_setCtx, keep_freeCells]

end Sys2Proof.Machine
end

