-- ==== Sys2Proof/Laws/Keep1.lean ====
section
/-! SUPPORT. One lemma per operation of the model: it leaves the queue, TRS_BUF, the NOR, the field lock and the SVN bank as they
were (part 2 of 9; the operations that do touch one of them are in Laws/Grow.lean). -/

namespace Sys2Proof.Machine

set_option linter.unusedSimpArgs false
set_option linter.unusedVariables false

theorem keep_mcastTandem (s)  : keep (mcastTandem s) = keep s := by
  unfold mcastTandem
  repeat' first | rfl | split | refine (keep_foldl _ _ _ (fun _ _ => ?_)).trans ?_ | simp only [keep_mk, keep_eta, keep_mcastDone]

theorem keep_runPlain (s a1 a2 a3 a4)  : keep (runPlain s a1 a2 a3 a4) = keep s := by
  unfold runPlain
  repeat' first | rfl | split | refine (keep_foldl _ _ _ (fun _ _ => ?_)).trans ?_ | refine (keep_runStep _ _ _ _ _  (fun _ _ => ?_)).trans ?_ | simp only [keep_mk, keep_eta, keep_runStep, keep_setCtx]

theorem keep_bindThread (s a1 a2)  : keep (bindThread s a1 a2) = keep s := rfl

theorem keep_setReadyQ (s a1 a2)  : keep (setReadyQ s a1 a2) = keep s := rfl

theorem keep_makeReady (s a1 a2 a3)  : keep (makeReady s a1 a2 a3) = keep s := rfl

theorem keep_dispatchCtx (s a1 a2)  : keep (dispatchCtx s a1 a2) = keep s := by
  unfold dispatchCtx
  repeat' first | rfl | split | refine (keep_foldl _ _ _ (fun _ _ => ?_)).trans ?_ | simp only [keep_mk, keep_eta, keep_bindThread, keep_makeReady]

theorem keep_staleArrival (s)  : keep (staleArrival s) = keep s := rfl

theorem keep_vcStale (s a1)  : keep (vcStale s a1) = keep s := by unfold vcStale; simp only [keep_mk, keep_eta, keep_discardStale, keep_staleArrival, keep_setVcInstar]

theorem keep_onCtx (s a1 a2)  : keep (onCtx s a1 a2) = keep s := by unfold onCtx; (repeat' split) <;> simp only [keep_mk, keep_eta, keep_setCtx]

theorem keep_arrive (s a1 a2 a3)  : keep (arrive s a1 a2 a3) = keep s := rfl

theorem keep_resumeAll (s a1 a2)  : keep (resumeAll s a1 a2) = keep s := by
  unfold resumeAll
  repeat' first | rfl | split | refine (keep_foldl _ _ _ (fun _ _ => ?_)).trans ?_ | simp only [keep_mk, keep_eta, keep_arrive]

theorem keep_resumeCore (s a1)  : keep (resumeCore s a1) = keep s := by unfold resumeCore; (repeat' split) <;> simp only [keep_mk, keep_eta, keep_bindThread, keep_setReadyQ]

theorem keep_noEcho (s a1)  : keep (noEcho s a1) = keep s := by
  unfold noEcho
  repeat' first | rfl | split | refine (keep_foldl _ _ _ (fun _ _ => ?_)).trans ?_ | simp only [keep_mk, keep_eta, keep_setOwn]

theorem keep_catDone (s a1 a2 a3 a4)  : keep (catDone s a1 a2 a3 a4) = keep s := by unfold catDone; (repeat' split) <;> simp only [keep_mk, keep_eta, keep_writeEvent, keep_reply]

theorem keep_setArea (s a1 a2)  : keep (setArea s a1 a2) = keep s := rfl

theorem keep_setStanding (s a1 a2)  : keep (setStanding s a1 a2) = keep s := by unfold setStanding; simp only [keep_mk, keep_eta, keep_setGrp]

theorem keep_dropChunks (s a1)  : keep (dropChunks s a1) = keep s := by
  unfold dropChunks
  repeat' first | rfl | split | refine (keep_foldl _ _ _ (fun _ _ => ?_)).trans ?_ | simp only [keep_mk, keep_eta, keep_setMap, keep_setArea, keep_setStanding]

theorem keep_raiseAen (s a1 a2)  : keep (raiseAen s a1 a2) = keep s := by unfold raiseAen; (repeat' split) <;> simp only [keep_mk, keep_eta, keep_setAssoc, keep_reply]

theorem keep_noteNsChange (s a1)  : keep (noteNsChange s a1) = keep s := by
  unfold noteNsChange
  repeat' first | rfl | split | refine (keep_foldl _ _ _ (fun _ _ => ?_)).trans ?_ | simp only [keep_mk, keep_eta, keep_raiseAen]

theorem keep_noteJournal (s a1)  : keep (noteJournal s a1) = keep s := by unfold noteJournal; (repeat' split) <;> simp only [keep_mk, keep_eta, keep_setStanding]

theorem keep_catEdit (s a1)  : keep (catEdit s a1) = keep s := by unfold catEdit; grind [keep_mk, keep_eta, keep_dropChunks, keep_releaseNs, keep_noteNsChange, keep_writeEvent, keep_noteJournal]

theorem keep_catApply (s a1)  : keep (catApply s a1) = keep s := by
  unfold catApply
  repeat' first | rfl | split | refine (keep_foldl _ _ _ (fun _ _ => ?_)).trans ?_ | simp only [keep_mk, keep_eta, keep_catEdit]

theorem keep_catChange (s a1 a2 a3 a4 a5)  : keep (catChange s a1 a2 a3 a4 a5) = keep s := by unfold catChange; (repeat' split) <;> simp only [keep_mk, keep_eta, keep_reply, keep_catDone, keep_catApply, keep_tdmSend]

theorem keep_catRecord (s a1 a2 a3)  : keep (catRecord s a1 a2 a3) = keep s := by
  unfold catRecord
  repeat' first | rfl | split | refine (keep_foldl _ _ _ (fun _ _ => ?_)).trans ?_ | simp only [keep_mk, keep_eta, keep_catDone, keep_catApply, keep_tdmSend]

theorem keep_noteAnaOf (s a1)  : keep (noteAnaOf s a1) = keep s := by
  unfold noteAnaOf
  repeat' first | rfl | split | refine (keep_foldl _ _ _ (fun _ _ => ?_)).trans ?_ | simp only [keep_mk, keep_eta, keep_writeEvent, keep_raiseAen]

theorem keep_noteAna (s)  : keep (noteAna s) = keep s := by unfold noteAna; simp only [keep_mk, keep_eta, keep_noteAnaOf]

theorem keep_freshKey (s)  : keep (freshKey s).2 = keep s := rfl

theorem keep_fanTake (s a1 a2)  : keep (fanTake s a1 a2) = keep s := by unfold fanTake; (repeat' split) <;> simp only [keep_mk, keep_eta]

theorem keep_fragDrop (s a1)  : keep (fragDrop s a1) = keep s := rfl

theorem keep_fragPost (s a1 a2)  : keep (fragPost s a1 a2).1 = keep s := by
  unfold fragPost
  repeat' first | rfl | split | refine (keep_foldl _ _ _ (fun _ _ => ?_)).trans ?_ | simp only [keep_mk, keep_eta, keep_rcAdd, keep_sendMsg, keep_emit]

theorem keep_fragSend (s a1 a2)  : keep (fragSend s a1 a2) = keep s := by unfold fragSend; simp only [keep_mk, keep_eta, keep_fragPost]

theorem keep_fanFree (s a1 a2)  : keep (fanFree s a1 a2) = keep s := rfl

theorem keep_fragResend (s a1 a2 a3)  : keep (fragResend s a1 a2 a3) = keep s := by unfold fragResend; simp only [keep_mk, keep_eta, keep_fragSend, keep_fragDrop]

theorem keep_setRb (s a1 a2)  : keep (setRb s a1 a2) = keep s := by unfold setRb; (repeat' split) <;> simp only [keep_mk, keep_eta]

theorem keep_occupy (s a1)  : keep (occupy s a1) = keep s := by
  unfold occupy
  repeat' first | rfl | split | refine (keep_foldl _ _ _ (fun _ _ => ?_)).trans ?_ | simp only [keep_mk, keep_eta, keep_pinPage, keep_setOwn, keep_fanTake]

theorem keep_beginOp (s a1 a2)  : keep (beginOp s a1 a2) = keep s := by unfold beginOp; simp only [keep_mk, keep_eta, keep_dispatchCtx, keep_occupy]

theorem keep_startInternal (s a1)  : keep (startInternal s a1) = keep s := by unfold startInternal; (repeat' split) <;> simp only [keep_mk, keep_eta, keep_beginOp]

theorem keep_journalWrite (s a1 a2)  : keep (journalWrite s a1 a2) = keep s := by unfold journalWrite; simp only [keep_mk, keep_eta, keep_issueDrive]

theorem keep_journalled (s a1 a2) (h2 : ∀ t, keep (a2 t) = keep t) : keep (journalled s a1 a2) = keep s := by
  unfold journalled
  repeat' first | rfl | split | refine (keep_foldl _ _ _ (fun _ _ => ?_)).trans ?_ | simp only [keep_mk, keep_eta, h2, keep_catRecord, keep_journalWrite]

theorem keep_mapApply (s a1 a2)  : keep (mapApply s a1 a2) = keep s := by unfold mapApply; grind [keep_mk, keep_eta, keep_journalled, keep_setArea, keep_setMap]

theorem keep_putPlace (s a1 a2)  : keep (putPlace s a1 a2) = keep s := rfl

theorem keep_placeApply (s a1 a2)  : keep (placeApply s a1 a2) = keep s := by unfold placeApply; grind [keep_mk, keep_eta, keep_journalled, keep_putPlace]

theorem keep_tabApply (s a1)  : keep (tabApply s a1) = keep s := by unfold tabApply; (repeat' split) <;> simp only [keep_mk, keep_eta, keep_mapApply, keep_placeApply, keep_setWin]

theorem keep_tabUpdate (s a1)  : keep (tabUpdate s a1) = keep s := by unfold tabUpdate; (repeat' split) <;> simp only [keep_mk, keep_eta, keep_tabApply]

theorem keep_rebuildChunk (s a1 a2)  : keep (rebuildChunk s a1 a2) = keep s := by
  induction a2 generalizing s with
  | zero => rfl
  | succ n ih =>
    unfold rebuildChunk
    repeat' first | rfl | split | simp only [keep_writeEvent, keep_setRb, ih, keep_startInternal, keep_tabUpdate]

theorem keep_rebuildOver (s a1 a2 a3 a4)  : keep (rebuildOver s a1 a2 a3 a4) = keep s := by unfold rebuildOver; simp only [keep_mk, keep_eta, keep_setRb, keep_writeEvent, keep_rebuildChunk]

theorem keep_rebuildBegin (s a1 a2 a3)  : keep (rebuildBegin s a1 a2 a3) = keep s := by unfold rebuildBegin; simp only [keep_mk, keep_eta, keep_rebuildOver]

theorem keep_rebuildAsk (s a1 a2 a3)  : keep (rebuildAsk s a1 a2 a3) = keep s := by unfold rebuildAsk; (repeat' split) <;> simp only [keep_mk, keep_eta, keep_rebuildBegin]

theorem keep_rekeyChunk (s a1)  : keep (rekeyChunk s a1) = keep s := by
  unfold rekeyChunk
  repeat' first | rfl | split | refine (keep_foldl _ _ _ (fun _ _ => ?_)).trans ?_ | simp only [keep_mk, keep_eta, keep_writeEvent, keep_catRecord, keep_startInternal]

theorem keep_setFedRb (s a1 a2 a3)  : keep (setFedRb s a1 a2 a3) = keep s := rfl

theorem keep_fedRbDone (s a1 a2)  : keep (fedRbDone s a1 a2) = keep s := by unfold fedRbDone; (repeat' split) <;> simp only [keep_mk, keep_eta, keep_tabUpdate, keep_writeEvent, keep_setFedRb]

theorem keep_fedRbStart (s a1 a2)  : keep (fedRbStart s a1 a2) = keep s := by unfold fedRbStart; grind [keep_mk, keep_eta, keep_fedRbDone, keep_startInternal, keep_setFedRb]

theorem keep_journalRoom (s)  : keep (journalRoom s) = keep s := by unfold journalRoom; (repeat' split) <;> simp only [keep_mk, keep_eta, keep_tabApply]

theorem keep_journalDone (s a1 a2 a3)  : keep (journalDone s a1 a2 a3) = keep s := by
  unfold journalDone
  repeat' first | rfl | split | refine (keep_foldl _ _ _ (fun _ _ => ?_)).trans ?_ | simp only [keep_mk, keep_eta, keep_journalWrite, keep_journalRoom, keep_catRecord]

theorem keep_createWrite (s a1 a2)  : keep (createWrite s a1 a2) = keep s := by unfold createWrite; simp only [keep_mk, keep_eta, keep_issueDrive]

theorem keep_createEnd (s a1)  : keep (createEnd s a1) = keep s := by
  unfold createEnd
  repeat' first | rfl | split | refine (keep_foldl _ _ _ (fun _ _ => ?_)).trans ?_ | simp only [keep_mk, keep_eta, keep_reply, keep_dropChunks, keep_freshKey, keep_catChange]

theorem keep_createDone (s a1 a2 a3)  : keep (createDone s a1 a2 a3) = keep s := by
  unfold createDone
  repeat' first | rfl | split | refine (keep_foldl _ _ _ (fun _ _ => ?_)).trans ?_ | simp only [keep_mk, keep_eta, keep_createWrite, keep_createEnd]

theorem keep_mapGone (s a1)  : keep (mapGone s a1) = keep s := by
  unfold mapGone
  repeat' first | rfl | split | refine (keep_foldl _ _ _ (fun _ _ => ?_)).trans ?_ | simp only [keep_mk, keep_eta, keep_journalDone, keep_createDone]

theorem keep_markUnread (s a1 a2)  : keep (markUnread s a1 a2) = keep s := by unfold markUnread; (repeat' split) <;> simp only [keep_mk, keep_eta, keep_tabUpdate, keep_writeEvent]

theorem keep_setMemState (s a1 a2 a3 a4)  : keep (setMemState s a1 a2 a3 a4) = keep s := by unfold setMemState; (repeat' split) <;> simp only [keep_mk, keep_eta, keep_tabUpdate]

theorem keep_markMissing (s a1 a2)  : keep (markMissing s a1 a2) = keep s := by unfold markMissing; grind [keep_mk, keep_eta, keep_writeEvent, keep_markUnread, keep_setMemState, keep_tabUpdate]

theorem keep_rebuildNext (s a1)  : keep (rebuildNext s a1) = keep s := by unfold rebuildNext; (repeat' split) <;> simp only [keep_mk, keep_eta, keep_rebuildBegin]

theorem keep_rebuildStep (s a1 a2 a3 a4)  : keep (rebuildStep s a1 a2 a3 a4) = keep s := by unfold rebuildStep; grind [keep_mk, keep_eta, keep_setRb, keep_rebuildNext, keep_markMissing, keep_startInternal, keep_tabUpdate, keep_rebuildChunk]

theorem keep_loseMember (s a1 a2 a3)  : keep (loseMember s a1 a2 a3) = keep s := by unfold loseMember; (repeat' split) <;> simp only [keep_mk, keep_eta, keep_markMissing]

theorem keep_stripeHeld (s a1 a2)  : keep (stripeHeld s a1 a2) = keep s := by unfold stripeHeld; (repeat' split) <;> simp only [keep_mk, keep_eta, keep_writeEvent]

theorem keep_stripeSettled (s a1 a2 a3 a4)  : keep (stripeSettled s a1 a2 a3 a4) = keep s := by
  unfold stripeSettled
  repeat' first | rfl | split | refine (keep_foldl _ _ _ (fun _ _ => ?_)).trans ?_ | simp only [keep_mk, keep_eta, keep_stripeHeld, keep_arrive]

theorem keep_stripFin (s a1 a2)  : keep (stripFin s a1 a2) = keep s := by unfold stripFin; grind [keep_mk, keep_eta, keep_loseMember, keep_stripeSettled, keep_setCtx]

theorem keep_rekeyStep (s a1 a2 a3 a4)  : keep (rekeyStep s a1 a2 a3 a4) = keep s := by
  unfold rekeyStep
  repeat' first | rfl | split | refine (keep_foldl _ _ _ (fun _ _ => ?_)).trans ?_ | simp only [keep_mk, keep_eta, keep_startInternal, keep_rekeyChunk, keep_catRecord]

theorem keep_rebuildResume (s a1 a2)  : keep (rebuildResume s a1 a2) = keep s := by unfold rebuildResume; (repeat' split) <;> simp only [keep_mk, keep_eta, keep_rebuildOver]

theorem keep_resumeRebuilds (s a1)  : keep (resumeRebuilds s a1) = keep s := by
  unfold resumeRebuilds
  refine (keep_foldl _ _ _ (fun t x => ?_)).trans (keep_foldl _ _ _ (fun _ _ => keep_rebuildResume _ _ _))
  split
  · rfl
  · refine keep_foldl _ _ _ (fun t y => ?_)
    split
    · exact keep_fedRbStart _ _ _
    · rfl

theorem keep_stripWrite (s a1 a2 a3 a4 a5 a6)  : keep (stripWrite s a1 a2 a3 a4 a5 a6).1 = keep s := by
  unfold stripWrite
  repeat' first | rfl | split | refine (keep_foldl _ _ _ (fun _ _ => ?_)).trans ?_ | simp only [keep_mk, keep_eta, keep_fragSend, keep_issueDrive]

theorem keep_startWaiting (s)  : keep (startWaiting s) = keep s := by unfold startWaiting; (repeat' split) <;> simp only [keep_mk, keep_eta, keep_beginOp]

theorem keep_createBegin (s a1)  : keep (createBegin s a1) = keep s := by
  unfold createBegin
  repeat' first | rfl | split | refine (keep_foldl _ _ _ (fun _ _ => ?_)).trans ?_ | simp only [keep_mk, keep_eta, keep_createEnd, keep_createWrite]

theorem keep_flushStart (s)  : keep (flushStart s) = keep s := by unfold flushStart; (repeat' split) <;> simp only [keep_mk, keep_eta, keep_beginOp]

theorem keep_driveReturned (s a1)  : keep (driveReturned s a1) = keep s := by
  unfold driveReturned
  repeat' first | rfl | split | refine (keep_foldl _ _ _ (fun _ _ => ?_)).trans ?_ | simp only [keep_mk, keep_eta, keep_issueDrive, keep_rebuildAsk, keep_rebuildResume]

theorem keep_vacate (s a1)  : keep (vacate s a1) = keep s := by
  unfold vacate
  repeat' first | rfl | split | refine (keep_foldl _ _ _ (fun _ _ => ?_)).trans ?_ | simp only [keep_mk, keep_eta, keep_fanFree]

theorem keep_unflush (s a1)  : keep (unflush s a1) = keep s := by
  unfold unflush
  repeat' first | rfl | split | refine (keep_foldl _ _ _ (fun _ _ => ?_)).trans ?_ | simp only [keep_mk, keep_eta, keep_setOwn, keep_unpinPage]

theorem keep_driveReplaced (s a1)  : keep (driveReplaced s a1) = keep s := by
  unfold driveReplaced
  repeat' first | rfl | split | refine (keep_foldl _ _ _ (fun _ _ => ?_)).trans ?_ | simp only [keep_mk, keep_eta, keep_markMissing]

theorem keep_leaveArea (s a1 a2)  : keep (leaveArea s a1 a2) = keep s := rfl

theorem keep_fedRbStep (s a1 a2 a3 a4 a5)  : keep (fedRbStep s a1 a2 a3 a4 a5) = keep s := by
  unfold fedRbStep
  repeat' first | rfl | split | refine (keep_foldl _ _ _ (fun _ _ => ?_)).trans ?_ | simp only [keep_mk, keep_eta, keep_setFedRb, keep_markMissing, keep_startInternal, keep_fedRbDone]

theorem keep_finishOp (s a1 a2 a3)  : keep (finishOp s a1 a2 a3) = keep s := by
  unfold finishOp
  repeat' first | rfl | split | simp only [keep_mk, keep_eta, keep_vacate, keep_freeCtxNow, keep_unflush, keep_rebuildStep, keep_rekeyStep, keep_fedRbStep, keep_leaveArea] | refine (keep_foldl _ _ _ (fun _ _ => keep_unflush _ _)).trans ?_

theorem keep_stripDone (s a1 a2)  : keep (stripDone s a1 a2) = keep s := by unfold stripDone; grind [keep_mk, keep_eta, keep_stripFin, keep_transient, keep_stripWrite]

theorem keep_journalKick (s a1)  : keep (journalKick s a1) = keep s := by
  unfold journalKick
  repeat' first | rfl | split | refine (keep_foldl _ _ _ (fun _ _ => ?_)).trans ?_ | simp only [keep_mk, keep_eta, keep_journalWrite, keep_createWrite]

theorem keep_porporReply (s a1 a2 a3)  : keep (porporReply s a1 a2 a3) = keep s := by unfold porporReply; simp only [keep_mk, keep_eta, keep_emit, keep_sendMsg]

theorem keep_unkeep (s a1 a2)  : keep (unkeep s a1 a2) = keep s := rfl

theorem keep_reconArrive (s a1 a2)  : keep (reconArrive s a1 a2) = keep s := by
  unfold reconArrive
  repeat' first | rfl | split | refine (keep_foldl _ _ _ (fun _ _ => ?_)).trans ?_ | simp only [keep_mk, keep_eta, keep_rcAdd, keep_startInternal, keep_writeEvent, keep_arrive]

theorem keep_porporAnswer (s a1 a2 a3 a4)  : keep (porporAnswer s a1 a2 a3 a4) = keep s := by unfold porporAnswer; simp only [keep_mk, keep_eta, keep_emit, keep_sendMsg]

theorem keep_hostedWrite (s a1 a2)  : keep (hostedWrite s a1 a2).1 = keep s := by unfold hostedWrite; simp only [keep_mk, keep_eta, keep_issueDrive]

theorem keep_hostedArrive (s a1 a2 a3 a4 a5)  : keep (hostedArrive s a1 a2 a3 a4 a5) = keep s := by unfold hostedArrive; grind [keep_mk, keep_eta, keep_arrive, keep_porporReply, keep_unkeep, keep_transient, keep_porporAnswer, keep_rcAdd, keep_hostedWrite, keep_setCtx]

theorem keep_driveArrive (s a1 a2)  : keep (driveArrive s a1 a2) = keep s := by unfold driveArrive; grind [keep_mk, keep_eta, keep_staleArrival, keep_setCtx, keep_reconArrive, keep_hostedArrive, keep_arrive]

theorem keep_wakeCtx (s a1 a2)  : keep (wakeCtx s a1 a2) = keep s := by unfold wakeCtx; (repeat' split) <;> simp only [keep_mk, keep_eta, keep_driveArrive]

theorem keep_lostEvent (s a1 a2)  : keep (lostEvent s a1 a2) = keep s := by unfold lostEvent; simp only [keep_mk, keep_eta, keep_writeEvent]

theorem keep_lineCorrected (s)  : keep (lineCorrected s) = keep s := by
  unfold lineCorrected
  repeat' first | rfl | split | refine (keep_foldl _ _ _ (fun _ _ => ?_)).trans ?_ | simp only [keep_mk, keep_eta, keep_rcAdd, keep_writeEvent]

theorem keep_recordLost (s a1)  : keep (recordLost s a1) = keep s := by unfold recordLost; simp only [keep_mk, keep_eta, keep_noteOccupancy, keep_setOwn, keep_lostEvent]

theorem keep_pageFault (s a1 a2 a3)  : keep (pageFault s a1 a2 a3) = keep s := by
  unfold pageFault
  repeat' first | rfl | split | refine (keep_foldl _ _ _ (fun _ _ => ?_)).trans ?_ | simp only [keep_mk, keep_eta, keep_rcAdd, keep_writeEvent, keep_setMir, keep_lostEvent, keep_tdmSend, keep_recordLost, keep_setOwn]

theorem keep_pageLine (s a1 a2 a3 a4)  : keep (pageLine s a1 a2 a3 a4) = keep s := by unfold pageLine; (repeat' split) <;> simp only [keep_mk, keep_eta, keep_lineCorrected, keep_transient, keep_pageFault]

theorem keep_unflip (s a1 a2)  : keep (unflip s a1 a2) = keep s := rfl

theorem keep_flipRead (s a1 a2 a3)  : keep (flipRead s a1 a2 a3).2 = keep s := by unfold flipRead; (repeat' split) <;> simp only [keep_mk, keep_eta, keep_unflip]

theorem keep_setRegion (s a1 a2)  : keep (setRegion s a1 a2) = keep s := rfl

theorem keep_flipHit (s a1 a2)  : keep (flipHit s a1 a2) = keep s := by
  unfold flipHit
  repeat' first | rfl | split | refine (keep_foldl _ _ _ (fun _ _ => ?_)).trans ?_ | simp only [keep_mk, keep_eta, keep_unflip, keep_writeEvent]

theorem keep_dramPoison (s a1 a2)  : keep (dramPoison s a1 a2) = keep s := by unfold dramPoison; simp only [keep_mk, keep_eta, keep_count, keep_rcAdd, keep_setRegion, keep_flipHit, keep_writeEvent]

theorem keep_iwaitStep (s a1 a2 a3)  : keep (iwaitStep s a1 a2 a3) = keep s := by unfold iwaitStep; (repeat' split) <;> simp only [keep_mk, keep_eta, keep_setCtx, keep_parkCtx, keep_rcAdd]

theorem keep_execShl (a0 a1 s)  : Keeps s (execShl a0 a1 s) := keeps_next (by simp only [keep_mk, keep_eta, keep_runPlain])

theorem keep_tdropStep (s a1 a2 a3)  : keep (tdropStep s a1 a2 a3) = keep s := by
  unfold tdropStep
  repeat' first | rfl | split | refine (keep_foldl _ _ _ (fun _ _ => ?_)).trans ?_ | simp only [keep_mk, keep_eta, keep_setCtx, keep_tableDrop]

theorem keep_durableNow (s a1)  : keep (durableNow s a1) = keep s := by
  unfold durableNow
  repeat' first | rfl | split | refine (keep_foldl _ _ _ (fun _ _ => keep_freeSuperseded _ _ _)).trans ?_

theorem keep_endAny (s a1 a2)  : keep (endAny s a1 a2) = keep s := by unfold endAny; (repeat' split) <;> simp only [keep_mk, keep_eta, keep_finishOp, keep_endCtx, keep_durableNow]

theorem keep_failList (s a1 a2 a3)  : keep (failList s a1 a2 a3) = keep s := by unfold failList; (repeat' split) <;> simp only [keep_mk, keep_eta, keep_completeCtx, keep_endAny]

theorem keep_execFail (a0 a1 s)  : Keeps s (execFail a0 a1 s) := by
  unfold execFail
  repeat' first | exact keeps_fault _ _ | refine (keep_runStep _ _ _ _ _  (fun _ _ => ?_)).trans ?_ | refine keeps_next ?_ | rfl | split | refine (keep_foldl _ _ _ (fun _ _ => ?_)).trans ?_ | simp only [keep_mk, keep_eta, keep_runStep, keep_failList]

theorem keep_execIrel (a0 a1 s)  : Keeps s (execIrel a0 a1 s) := keeps_next (by simp only [keep_mk, keep_eta, keep_runPlain])

theorem keep_execCmpi (a0 a1 s)  : Keeps s (execCmpi a0 a1 s) := keeps_next (by simp only [keep_mk, keep_eta, keep_runPlain])

theorem keep_cplStep (s a1 a2 a3)  : keep (cplStep s a1 a2 a3) = keep s := by
  unfold cplStep
  repeat' first | rfl | split | refine (keep_foldl _ _ _ (fun _ _ => ?_)).trans ?_ | simp only [keep_mk, keep_eta, keep_setCtx, keep_completeCtx]

theorem keep_execCpl (a0 a1 s)  : Keeps s (execCpl a0 a1 s) := by
  unfold execCpl
  repeat' first | exact keeps_fault _ _ | refine (keep_runStep _ _ _ _ _  (fun _ _ => ?_)).trans ?_ | refine keeps_next ?_ | rfl | split | refine (keep_foldl _ _ _ (fun _ _ => ?_)).trans ?_ | simp only [keep_mk, keep_eta, keep_runStep, keep_cplStep]

theorem keep_execWait (a0 a1 s)  : Keeps s (execWait a0 a1 s) := by
  unfold execWait
  repeat' first | exact keeps_fault _ _ | refine (keep_runStep _ _ _ _ _  (fun _ _ => ?_)).trans ?_ | refine keeps_next ?_ | rfl | split | refine (keep_foldl _ _ _ (fun _ _ => ?_)).trans ?_ | simp only [keep_mk, keep_eta, keep_runStep, keep_parkCtx]

theorem keep_faultAny (s a1 a2)  : keep (faultAny s a1 a2) = keep s := by unfold faultAny; (repeat' split) <;> simp only [keep_mk, keep_eta, keep_finishOp, keep_listFaultEvent, keep_listFault]

theorem keep_callList (s a1 a2 a3)  : keep (callList s a1 a2 a3) = keep s := by unfold callList; (repeat' split) <;> simp only [keep_mk, keep_eta, keep_faultAny, keep_setCtx]

theorem keep_execCall (a0 a1 s)  : Keeps s (execCall a0 a1 s) := by
  unfold execCall
  repeat' first | exact keeps_fault _ _ | refine (keep_runStep _ _ _ _ _  (fun _ _ => ?_)).trans ?_ | refine keeps_next ?_ | rfl | split | refine (keep_foldl _ _ _ (fun _ _ => ?_)).trans ?_ | simp only [keep_mk, keep_eta, keep_runStep, keep_callList]

theorem keep_trefStep (s a1 a2 a3)  : keep (trefStep s a1 a2 a3) = keep s := by unfold trefStep; grind [keep_mk, keep_eta, keep_setCtx, keep_tableRef]

theorem keep_execTref (a0 a1 s)  : Keeps s (execTref a0 a1 s) := by
  unfold execTref
  repeat' first | exact keeps_fault _ _ | refine (keep_runStep _ _ _ _ _  (fun _ _ => ?_)).trans ?_ | refine keeps_next ?_ | rfl | split | refine (keep_foldl _ _ _ (fun _ _ => ?_)).trans ?_ | simp only [keep_mk, keep_eta, keep_runStep, keep_trefStep]

theorem keep_ilockStep (s a1 a2 a3)  : keep (ilockStep s a1 a2 a3) = keep s := by
  unfold ilockStep
  repeat' first | rfl | split | refine (keep_foldl _ _ _ (fun _ _ => ?_)).trans ?_ | simp only [keep_mk, keep_eta, keep_setCtx, keep_parkCtx, keep_rcAdd]

theorem keep_execAddi (a0 a1 s)  : Keeps s (execAddi a0 a1 s) := keeps_next (by simp only [keep_mk, keep_eta, keep_runPlain])

theorem keep_execBr (a0 a1 s)  : Keeps s (execBr a0 a1 s) := by
  unfold execBr
  repeat' first | exact keeps_fault _ _ | refine (keep_runStep _ _ _ _ _  (fun _ _ => ?_)).trans ?_ | refine keeps_next ?_ | rfl | split | refine (keep_foldl _ _ _ (fun _ _ => ?_)).trans ?_ | simp only [keep_mk, keep_eta, keep_runStep, keep_setCtx]

theorem keep_nsfenceStep (s a1 a2 a3)  : keep (nsfenceStep s a1 a2 a3) = keep s := by unfold nsfenceStep; (repeat' split) <;> simp only [keep_mk, keep_eta, keep_setCtx, keep_parkCtx]

theorem keep_execIwait (a0 a1 s)  : Keeps s (execIwait a0 a1 s) := by
  unfold execIwait
  repeat' first | exact keeps_fault _ _ | refine (keep_runStep _ _ _ _ _  (fun _ _ => ?_)).trans ?_ | refine keeps_next ?_ | rfl | split | refine (keep_foldl _ _ _ (fun _ _ => ?_)).trans ?_ | simp only [keep_mk, keep_eta, keep_runStep, keep_iwaitStep]

theorem keep_execNsfence (a0 a1 s)  : Keeps s (execNsfence a0 a1 s) := by
  unfold execNsfence
  repeat' first | exact keeps_fault _ _ | refine (keep_runStep _ _ _ _ _  (fun _ _ => ?_)).trans ?_ | refine keeps_next ?_ | rfl | split | refine (keep_foldl _ _ _ (fun _ _ => ?_)).trans ?_ | simp only [keep_mk, keep_eta, keep_runStep, keep_nsfenceStep]

theorem keep_execMov (a0 a1 s)  : Keeps s (execMov a0 a1 s) := keeps_next (by simp only [keep_mk, keep_eta, keep_runPlain])

theorem keep_retList (s a1 a2)  : keep (retList s a1 a2) = keep s := by unfold retList; (repeat' split) <;> simp only [keep_mk, keep_eta, keep_endAny, keep_setCtx]

theorem keep_execTdrop (a0 a1 s)  : Keeps s (execTdrop a0 a1 s) := by
  unfold execTdrop
  repeat' first | exact keeps_fault _ _ | refine (keep_runStep _ _ _ _ _  (fun _ _ => ?_)).trans ?_ | refine keeps_next ?_ | rfl | split | refine (keep_foldl _ _ _ (fun _ _ => ?_)).trans ?_ | simp only [keep_mk, keep_eta, keep_runStep, keep_tdropStep]

theorem keep_execSub (a0 a1 s)  : Keeps s (execSub a0 a1 s) := keeps_next (by simp only [keep_mk, keep_eta, keep_runPlain])

theorem keep_execLdi (a0 a1 s)  : Keeps s (execLdi a0 a1 s) := keeps_next (by simp only [keep_mk, keep_eta, keep_runPlain])

theorem keep_execShr (a0 a1 s)  : Keeps s (execShr a0 a1 s) := keeps_next (by simp only [keep_mk, keep_eta, keep_runPlain])

theorem keep_execEvent (a0 a1 s)  : Keeps s (execEvent a0 a1 s) := by
  unfold execEvent
  repeat' first | exact keeps_fault _ _ | refine (keep_runStep _ _ _ _ _  (fun _ _ => ?_)).trans ?_ | refine keeps_next ?_ | rfl | split | refine (keep_foldl _ _ _ (fun _ _ => ?_)).trans ?_ | simp only [keep_mk, keep_eta, keep_runStep, keep_setCtx, keep_writeEvent]

theorem keep_execJmp (a0 a1 s)  : Keeps s (execJmp a0 a1 s) := keeps_next (by simp only [keep_mk, keep_eta, keep_runPlain])

theorem keep_execNop (a0 a1 s)  : Keeps s (execNop a0 a1 s) := keeps_next (by simp only [keep_mk, keep_eta, keep_runPlain])

theorem keep_execEnd (a0 a1 s)  : Keeps s (execEnd a0 a1 s) := by
  unfold execEnd
  repeat' first | exact keeps_fault _ _ | refine (keep_runStep _ _ _ _ _  (fun _ _ => ?_)).trans ?_ | refine keeps_next ?_ | rfl | split | refine (keep_foldl _ _ _ (fun _ _ => ?_)).trans ?_ | simp only [keep_mk, keep_eta, keep_runStep, keep_endAny]

theorem keep_execAnd (a0 a1 s)  : Keeps s (execAnd a0 a1 s) := keeps_next (by simp only [keep_mk, keep_eta, keep_runPlain])

theorem keep_execCmp (a0 a1 s)  : Keeps s (execCmp a0 a1 s) := keeps_next (by simp only [keep_mk, keep_eta, keep_runPlain])

theorem keep_execMark (a0 a1 s)  : Keeps s (execMark a0 a1 s) := by
  unfold execMark
  repeat' first | exact keeps_fault _ _ | refine (keep_runStep _ _ _ _ _  (fun _ _ => ?_)).trans ?_ | refine keeps_next ?_ | rfl | split | refine (keep_foldl _ _ _ (fun _ _ => ?_)).trans ?_ | simp only [keep_mk, keep_eta, keep_runStep, keep_setCtx]

theorem keep_execCount (a0 a1 a2 a3 s)  : Keeps s (execCount a0 a1 a2 a3 s) := by
  unfold execCount
  repeat' first | exact keeps_fault _ _ | refine (keep_runStep _ _ _ _ _  (fun _ _ => ?_)).trans ?_ | refine keeps_next ?_ | rfl | split | refine (keep_foldl _ _ _ (fun _ _ => ?_)).trans ?_ | simp only [keep_mk, keep_eta, keep_runStep, keep_setCtx, keep_countStep]

theorem keep_execRet (a0 a1 s)  : Keeps s (execRet a0 a1 s) := by
  unfold execRet
  repeat' first | exact keeps_fault _ _ | refine (keep_runStep _ _ _ _ _  (fun _ _ => ?_)).trans ?_ | refine keeps_next ?_ | rfl | split | refine (keep_foldl _ _ _ (fun _ _ => ?_)).trans ?_ | simp only [keep_mk, keep_eta, keep_runStep, keep_retList]

theorem keep_execAdd (a0 a1 s)  : Keeps s (execAdd a0 a1 s) := keeps_next (by simp only [keep_mk, keep_eta, keep_runPlain])

theorem keep_setRemir (s a1 a2 a3)  : keep (setRemir s a1 a2 a3) = keep s := by unfold setRemir; (repeat' split) <;> simp only [keep_mk, keep_eta]

theorem keep_remirrorAbort (s a1)  : keep (remirrorAbort s a1) = keep s := by
  unfold remirrorAbort
  repeat' first | rfl | split | refine (keep_foldl _ _ _ (fun _ _ => ?_)).trans ?_ | simp only [keep_mk, keep_eta, keep_unpinPage, keep_setRemir, keep_setGrp]

theorem keep_copyPage (s a1)  : keep (copyPage s a1) = keep s := by unfold copyPage; simp only [keep_mk, keep_eta, keep_tdmSend]

theorem keep_notePair (s)  : keep (notePair s) = keep s := by unfold notePair; simp only [keep_mk, keep_eta, keep_noteAna, keep_noteMode]

theorem keep_setPair (s a1 a2)  : keep (setPair s a1 a2) = keep s := by unfold setPair; grind [keep_mk, keep_eta, keep_notePair, keep_writeEvent, keep_setGrp]

theorem keep_remirrorEnd (s a1)  : keep (remirrorEnd s a1) = keep s := by unfold remirrorEnd; grind [keep_mk, keep_eta, keep_setRemir, keep_setGrp, keep_writeEvent, keep_setPair]

theorem keep_remirrorStart (s a1)  : keep (remirrorStart s a1) = keep s := by
  unfold remirrorStart
  repeat' first | rfl | split | refine (keep_foldl _ _ _ (fun _ _ => ?_)).trans ?_ | simp only [keep_mk, keep_eta, keep_remirrorAbort, keep_tdmSend, keep_setGrp, keep_copyPage, keep_pinPage, keep_setRemir, keep_remirrorEnd]

theorem keep_degrade (s a1)  : keep (degrade s a1) = keep s := by unfold degrade; (repeat' split) <;> simp only [keep_mk, keep_eta, keep_remirrorStart, keep_setPair]

theorem keep_pairLost (s a1 a2)  : keep (pairLost s a1 a2) = keep s := by unfold pairLost; (repeat' split) <;> simp only [keep_mk, keep_eta, keep_degrade, keep_writeEvent]

theorem keep_echoEnd (s a1 a2)  : keep (echoEnd s a1 a2) = keep s := by
  unfold echoEnd
  repeat' first | rfl | split | refine (keep_foldl _ _ _ (fun _ _ => ?_)).trans ?_ | simp only [keep_mk, keep_eta, keep_noEcho, keep_arrive, keep_rcAdd, keep_durableNow]

end Sys2Proof.Machine
end

