-- ==== Sys2Proof/Laws/Keep2.lean ====
section
/-! SUPPORT. One lemma per operation of the model: it leaves the queue, TRS_BUF, the NOR, the field lock and the SVN bank as they
were (part 3 of 9; the operations that do touch one of them are in Laws/Grow.lean). -/

namespace Sys2Proof.Machine

set_option linter.unusedSimpArgs false
set_option linter.unusedVariables false

theorem keep_echoTimeout (s a1)  : keep (echoTimeout s a1) = keep s := by unfold echoTimeout; (repeat' split) <;> simp only [keep_mk, keep_eta, keep_staleArrival, keep_pairLost, keep_echoEnd, keep_rcAdd]

theorem keep_echoCtx (a0 s a2)  : keep (echoCtx a0 s a2) = keep s := by
  unfold echoCtx
  repeat' first | rfl | split | refine (keep_foldl _ _ _ (fun _ _ => ?_)).trans ?_ | simp only [keep_mk, keep_eta, keep_arrive, keep_durableNow, keep_setCtx]

theorem keep_echoArrive (s a1 a2 a3)  : keep (echoArrive s a1 a2 a3) = keep s := by
  unfold echoArrive
  repeat' first | rfl | split | refine (keep_foldl _ _ _ (fun _ _ => ?_)).trans ?_ | simp only [keep_mk, keep_eta, keep_count, keep_staleArrival, keep_rcMax, keep_setOwn, keep_echoCtx, keep_unpinPage, keep_setRemir, keep_remirrorEnd]

theorem keep_echoEndAll (s)  : keep (echoEndAll s) = keep s := by
  unfold echoEndAll
  repeat' first | rfl | split | refine (keep_foldl _ _ _ (fun _ _ => ?_)).trans ?_ | simp only [keep_mk, keep_eta, keep_echoEnd]

theorem keep_linkDown (s a1)  : keep (linkDown s a1) = keep s := by unfold linkDown; grind [keep_mk, keep_eta, keep_writeEvent, keep_notePair, keep_setPair, keep_remirrorAbort, keep_echoEndAll, keep_mcastTandem]

theorem keep_remirrorFail (s a1)  : keep (remirrorFail s a1) = keep s := by unfold remirrorFail; (repeat' split) <;> simp only [keep_mk, keep_eta, keep_writeEvent, keep_remirrorAbort, keep_rcAdd]

theorem keep_heldPress (s a1)  : keep (heldPress s a1) = keep s := by
  unfold heldPress
  repeat' first | rfl | split | refine (keep_foldl _ _ _ (fun _ _ => ?_)).trans ?_ | simp only [keep_mk, keep_eta, keep_setSpk]

theorem keep_spkUnusable (s a1 a2)  : keep (spkUnusable s a1 a2) = keep s := by unfold spkUnusable; simp only [keep_mk, keep_eta, keep_heldPress, keep_writeEvent, keep_mapGone, keep_setSpk]

theorem keep_slotCtlWrite (s a1 a2)  : keep (slotCtlWrite s a1 a2) = keep s := by unfold slotCtlWrite; (repeat' split) <;> simp only [keep_mk, keep_eta, keep_setSpk]

theorem keep_spkTo (s a1 a2)  : keep (spkTo s a1 a2) = keep s := rfl

theorem keep_spkInsert (s a1)  : keep (spkInsert s a1) = keep s := by unfold spkInsert; (repeat' split) <;> simp only [keep_mk, keep_eta, keep_chanInsert, keep_setSpk]

theorem keep_ctlEnable (s a1)  : keep (ctlEnable s a1) = keep s := by
  unfold ctlEnable
  repeat' first | rfl | split | refine (keep_foldl _ _ _ (fun _ _ => ?_)).trans ?_ | simp only [keep_mk, keep_eta, keep_spkTo, keep_spkInsert]

theorem keep_formatDrive (s a1 a2 a3)  : keep (formatDrive s a1 a2 a3) = keep s := by
  unfold formatDrive
  repeat' first | rfl | split | refine (keep_foldl _ _ _ (fun _ _ => ?_)).trans ?_ | refine (keep_asManager _ _ _ _  (fun _ => ?_)).trans ?_ | simp only [keep_mk, keep_eta, keep_asManager, keep_reply, keep_emit, keep_setSpk]

theorem keep_execDriveFormat (a0 a1 a2 s)  : Keeps s (execDriveFormat a0 a1 a2 s) := keeps_next (by simp only [keep_mk, keep_eta, keep_formatDrive])

theorem keep_spkFail (s a1 a2)  : keep (spkFail s a1 a2) = keep s := by unfold spkFail; simp only [keep_mk, keep_eta, keep_heldPress, keep_writeEvent, keep_mapGone, keep_spkTo]

theorem keep_resetBegin (s a1 a2)  : keep (resetBegin s a1 a2) = keep s := by unfold resetBegin; grind [keep_mk, keep_eta, keep_spkFail, keep_setSpk, keep_rcAdd]

theorem keep_startRemoval (s a1 a2)  : keep (startRemoval s a1 a2) = keep s := rfl

theorem keep_execButtonTimerExpiry (a0 s)  : Keeps s (execButtonTimerExpiry a0 s) := by
  unfold execButtonTimerExpiry
  repeat' first | exact keeps_fault _ _ | refine keep_onSpoke _ _ _  (fun _ => ?_) | refine keeps_next ?_ | rfl | split | refine (keep_foldl _ _ _ (fun _ _ => ?_)).trans ?_ | simp only [keep_mk, keep_eta, keep_startRemoval, keep_spkInsert, keep_setSpk]

theorem keep_reclaimSlots (s a1)  : keep (reclaimSlots s a1) = keep s := by
  unfold reclaimSlots
  repeat' first | rfl | split | refine (keep_foldl _ _ _ (fun _ _ => ?_)).trans ?_ | simp only [keep_mk, keep_eta, keep_dropSlot, keep_wakeCtx, keep_stripDone, keep_journalDone, keep_createDone, keep_mapGone]

theorem keep_ctlDisable (s a1)  : keep (ctlDisable s a1) = keep s := by unfold ctlDisable; (repeat' split) <;> simp only [keep_mk, keep_eta, keep_startRemoval, keep_chanOffRequest, keep_reclaimSlots, keep_setSpk]

theorem keep_execSpokeCtlDisable (a0 s)  : Keeps s (execSpokeCtlDisable a0 s) := by
  unfold execSpokeCtlDisable
  repeat' first | exact keeps_fault _ _ | refine keep_onSpoke _ _ _  (fun _ => ?_) | refine keeps_next ?_ | rfl | split | refine (keep_foldl _ _ _ (fun _ _ => ?_)).trans ?_ | simp only [keep_mk, keep_eta, keep_ctlDisable]

theorem keep_ctlPowerOff (s a1)  : keep (ctlPowerOff s a1) = keep s := by unfold ctlPowerOff; (repeat' split) <;> simp only [keep_mk, keep_eta, keep_startRemoval]

theorem keep_execDriveIdleTimer (a0 a1 s)  : Keeps s (execDriveIdleTimer a0 a1 s) := by
  unfold execDriveIdleTimer
  repeat' first | exact keeps_fault _ _ | refine keep_onSpoke _ _ _  (fun _ => ?_) | refine keeps_next ?_ | rfl | split | refine (keep_foldl _ _ _ (fun _ _ => ?_)).trans ?_ | simp only [keep_mk, keep_eta, keep_emit, keep_setSpk]

theorem keep_spkReset (s a1 a2)  : keep (spkReset s a1 a2) = keep s := by unfold spkReset; grind [keep_mk, keep_eta, keep_resetBegin, keep_emit]

theorem keep_ctlReset (s a1)  : keep (ctlReset s a1) = keep s := by
  unfold ctlReset
  repeat' first | rfl | split | refine (keep_foldl _ _ _ (fun _ _ => ?_)).trans ?_ | simp only [keep_mk, keep_eta, keep_spkReset, keep_chanUnlatch, keep_spkInsert, keep_setSpk]

theorem keep_bumpDrive (s a1)  : keep (bumpDrive s a1) = keep s := rfl

theorem keep_spkGone (s a1 a2)  : keep (spkGone s a1 a2) = keep s := by unfold spkGone; (repeat' split) <;> simp only [keep_mk, keep_eta, keep_bumpDrive, keep_chanOffRequest, keep_setSpk, keep_mapGone, keep_writeEvent]

theorem keep_execAbortTimeout (a0 s)  : Keeps s (execAbortTimeout a0 s) := by
  unfold execAbortTimeout
  repeat' first | exact keeps_fault _ _ | refine keep_onSpoke _ _ _  (fun _ => ?_) | refine keeps_next ?_ | rfl | split | refine (keep_foldl _ _ _ (fun _ _ => ?_)).trans ?_ | simp only [keep_mk, keep_eta, keep_spkReset]

theorem keep_noteIdentity (s a1 a2)  : keep (noteIdentity s a1 a2) = keep s := by
  unfold noteIdentity
  repeat' first | rfl | split | refine (keep_foldl _ _ _ (fun _ _ => ?_)).trans ?_ | simp only [keep_mk, keep_eta, keep_writeEvent, keep_bumpDrive, keep_setSpk]

theorem keep_identDone (s a1 a2)  : keep (identDone s a1 a2) = keep s := by unfold identDone; grind [keep_mk, keep_eta, keep_noteIdentity, keep_driveReplaced, keep_reply, keep_setSpk, keep_heldPress, keep_driveReturned, keep_writeEvent, keep_journalKick, keep_spkUnusable]

theorem keep_dmaRequest (s a1 a2 a3)  : keep (dmaRequest s a1 a2 a3) = keep s := by unfold dmaRequest; grind [keep_mk, keep_eta, keep_emit, keep_rcAdd, keep_writeEvent, keep_setSpk, keep_spkReset]

theorem keep_execDriveDmaRequest (a0 a1 a2 s)  : Keeps s (execDriveDmaRequest a0 a1 a2 s) := by
  unfold execDriveDmaRequest
  repeat' first | exact keeps_fault _ _ | refine keep_onSpoke _ _ _  (fun _ => ?_) | refine keeps_next ?_ | grind [keep_mk, keep_eta, keep_dmaRequest]

theorem keep_bumpSpoke (s a1)  : keep (bumpSpoke s a1) = keep s := rfl

theorem keep_presenceChange (s a1 a2)  : keep (presenceChange s a1 a2) = keep s := by unfold presenceChange; grind [keep_mk, keep_eta, keep_w1cSet, keep_setSpk, keep_spkInsert, keep_chanPresenceLost, keep_spkGone]

theorem keep_startBring (s a1)  : keep (startBring s a1) = keep s := rfl

theorem keep_spkStale (s a1)  : keep (spkStale s a1) = keep s := by unfold spkStale; simp only [keep_mk, keep_eta, keep_discardStale, keep_setSpk]

theorem keep_driveDone (s a1 a2 a3 a4)  : keep (driveDone s a1 a2 a3 a4) = keep s := by
  unfold driveDone
  dsimp only
  split
  · exact keep_identDone _ _ _
  · split
    · rfl
    · split
      · exact (keep_startBring _ _).trans (keep_setSpk _ _ _)
      · exact (keep_reply _ _ _ _ _).trans (keep_setSpk _ _ _)
  · split
    · split
      · exact keep_dropSlot _ _ _
      · rfl
    · rfl
  · split
    · split
      · exact keep_spkStale _ _
      · exact keep_staleArrival _
    · split
      · exact keep_spkStale _ _
      · refine (keep_journalKick _ _).trans ((keep_count _ _ _ _ _).trans ?_)
        repeat' first | split | simp only [keep_createDone, keep_journalDone, keep_stripDone, keep_wakeCtx, keep_vcStale, keep_dropSlot]

theorem keep_execDriveCompletion (a0 a1 a2 a3 s)  : Keeps s (execDriveCompletion a0 a1 a2 a3 s) := by
  unfold execDriveCompletion
  repeat' first | exact keeps_fault _ _ | refine keep_onSpoke _ _ _  (fun _ => ?_) | refine (keep_atPoint _ _ _ _ _  (fun _ => ?_)).trans ?_ | refine keeps_next ?_ | grind [keep_mk, keep_eta, keep_atPoint, keep_driveDone]

theorem keep_buttonPress (s a1)  : keep (buttonPress s a1) = keep s := by
  unfold buttonPress
  repeat' first | rfl | split | refine (keep_foldl _ _ _ (fun _ _ => ?_)).trans ?_ | simp only [keep_mk, keep_eta, keep_w1cSet, keep_setSpk]

theorem keep_scanBay (s a1 a2 a3)  : keep (scanBay s a1 a2 a3) = keep s := by unfold scanBay; grind [keep_mk, keep_eta, keep_setSpk, keep_presenceChange, keep_buttonPress]

theorem keep_removalStep (s a1 a2)  : keep (removalStep s a1 a2) = keep s := by unfold removalStep; grind [keep_mk, keep_eta, keep_emit, keep_setSpk, keep_chanOffRequest, keep_writeEvent, keep_mapGone]

theorem keep_execSpokeCtlPowerOff (a0 s)  : Keeps s (execSpokeCtlPowerOff a0 s) := by
  unfold execSpokeCtlPowerOff
  repeat' first | exact keeps_fault _ _ | refine keep_onSpoke _ _ _  (fun _ => ?_) | refine keeps_next ?_ | rfl | split | refine (keep_foldl _ _ _ (fun _ _ => ?_)).trans ?_ | simp only [keep_mk, keep_eta, keep_ctlPowerOff]

theorem keep_resetEvent (s a1)  : keep (resetEvent s a1) = keep s := by
  unfold resetEvent
  repeat' first | rfl | split | refine (keep_foldl _ _ _ (fun _ _ => ?_)).trans ?_ | simp only [keep_mk, keep_eta, keep_writeEvent, keep_setSpk]

theorem keep_scanFrame (s a1 a2)  : keep (scanFrame s a1 a2) = keep s := by
  unfold scanFrame
  split
  · rfl
  · simp only [keep_emit]
    exact keep_foldl _ _ _ (fun _ _ => keep_scanBay _ _ _ _)

theorem keep_execSpokeCtlReset (a0 s)  : Keeps s (execSpokeCtlReset a0 s) := by
  unfold execSpokeCtlReset
  repeat' first | exact keeps_fault _ _ | refine keep_onSpoke _ _ _  (fun _ => ?_) | refine keeps_next ?_ | rfl | split | refine (keep_foldl _ _ _ (fun _ _ => ?_)).trans ?_ | simp only [keep_mk, keep_eta, keep_ctlReset]

theorem keep_ctlPowerOn (s a1)  : keep (ctlPowerOn s a1) = keep s := by unfold ctlPowerOn; (repeat' split) <;> simp only [keep_mk, keep_eta, keep_spkInsert]

theorem keep_execDriveReadyTimeout (a0 s)  : Keeps s (execDriveReadyTimeout a0 s) := by
  unfold execDriveReadyTimeout
  repeat' first | exact keeps_fault _ _ | refine keep_onSpoke _ _ _  (fun _ => ?_) | refine keeps_next ?_ | grind [keep_mk, keep_eta, keep_spkUnusable]

theorem keep_spkContain (s a1 a2)  : keep (spkContain s a1 a2) = keep s := by unfold spkContain; grind [keep_mk, keep_eta, keep_writeEvent, keep_bumpSpoke, keep_setSpk, keep_reclaimSlots, keep_w1cSet]

theorem keep_execSlotAttentionWrite (a0 a1 s)  : Keeps s (execSlotAttentionWrite a0 a1 s) := by
  unfold execSlotAttentionWrite
  repeat' first | exact keeps_fault _ _ | refine keep_onSpoke _ _ _  (fun _ => ?_) | refine keeps_next ?_ | rfl | split | refine (keep_foldl _ _ _ (fun _ _ => ?_)).trans ?_ | simp only [keep_mk, keep_eta, keep_slotCtlWrite]

theorem keep_linkUpSpoke (s a1 a2 a3)  : keep (linkUpSpoke s a1 a2 a3) = keep s := by
  unfold linkUpSpoke
  repeat' first | rfl | split | refine (keep_foldl _ _ _ (fun _ _ => ?_)).trans ?_ | simp only [keep_mk, keep_eta, keep_setSpk, keep_writeEvent, keep_w1cSet, keep_startBring, keep_transient]

theorem keep_driveCmdTimeout (s a1 a2)  : keep (driveCmdTimeout s a1 a2) = keep s := by
  unfold driveCmdTimeout
  repeat' first | rfl | split | refine (keep_foldl _ _ _ (fun _ _ => ?_)).trans ?_ | simp only [keep_mk, keep_eta, keep_setSpk, keep_emit, keep_writeEvent, keep_rcAdd]

theorem keep_execCstsCfsSet (a0 s)  : Keeps s (execCstsCfsSet a0 s) := by
  unfold execCstsCfsSet
  repeat' first | exact keeps_fault _ _ | refine keep_onSpoke _ _ _  (fun _ => ?_) | refine keeps_next ?_ | grind [keep_mk, keep_eta, keep_spkUnusable, keep_spkReset]

theorem keep_execCstsRdyCleared (a0 s)  : Keeps s (execCstsRdyCleared a0 s) := by
  unfold execCstsRdyCleared
  repeat' first | exact keeps_fault _ _ | refine keep_onSpoke _ _ _  (fun _ => ?_) | refine keeps_next ?_ | grind [keep_mk, keep_eta, keep_reclaimSlots, keep_bumpSpoke, keep_startBring, keep_resetEvent, keep_setSpk]

theorem keep_execSpokeCtlPowerOn (a0 s)  : Keeps s (execSpokeCtlPowerOn a0 s) := by
  unfold execSpokeCtlPowerOn
  repeat' first | exact keeps_fault _ _ | refine keep_onSpoke _ _ _  (fun _ => ?_) | refine keeps_next ?_ | rfl | split | refine (keep_foldl _ _ _ (fun _ _ => ?_)).trans ?_ | simp only [keep_mk, keep_eta, keep_ctlPowerOn]

theorem keep_execDriveAdminCommandTimeout (a0 s)  : Keeps s (execDriveAdminCommandTimeout a0 s) := by
  unfold execDriveAdminCommandTimeout
  repeat' first | exact keeps_fault _ _ | refine keep_onSpoke _ _ _  (fun _ => ?_) | refine keeps_next ?_ | grind [keep_mk, keep_eta, keep_spkUnusable, keep_spkReset]

theorem keep_execSpokeResetRdyTimeout (a0 s)  : Keeps s (execSpokeResetRdyTimeout a0 s) := by
  unfold execSpokeResetRdyTimeout
  repeat' first | exact keeps_fault _ _ | refine keep_onSpoke _ _ _  (fun _ => ?_) | refine keeps_next ?_ | rfl | split | refine (keep_foldl _ _ _ (fun _ _ => ?_)).trans ?_ | simp only [keep_mk, keep_eta, keep_spkContain]

theorem keep_execSpokeCtlEnable (a0 s)  : Keeps s (execSpokeCtlEnable a0 s) := by
  unfold execSpokeCtlEnable
  repeat' first | exact keeps_fault _ _ | refine keep_onSpoke _ _ _  (fun _ => ?_) | refine keeps_next ?_ | rfl | split | refine (keep_foldl _ _ _ (fun _ _ => ?_)).trans ?_ | simp only [keep_mk, keep_eta, keep_ctlEnable]

theorem keep_linkTimeout (s a1)  : keep (linkTimeout s a1) = keep s := by unfold linkTimeout; grind [keep_mk, keep_eta, keep_emit, keep_setSpk, keep_spkFail]

theorem keep_spkCtlWrite (s a1 a2)  : keep (spkCtlWrite s a1 a2) = keep s := by unfold spkCtlWrite; (repeat' split) <;> simp only [keep_mk, keep_eta, keep_ctlReset, keep_ctlPowerOff, keep_ctlPowerOn, keep_ctlDisable, keep_ctlEnable]

theorem keep_execContainmentRelease (a0 s)  : Keeps s (execContainmentRelease a0 s) := by
  unfold execContainmentRelease
  refine keep_onSpoke _ _ _ (fun u => ?_)
  split
  · split
    · have h : keep (if (spkOf u a0).rcause = 0 then resetBegin u a0 6 else spkTo u a0 .resetting) = keep u := by
        split
        · exact keep_resetBegin _ _ _
        · exact keep_spkTo _ _ _
      dsimp only
      generalize (if (spkOf u a0).rcause = 0 then resetBegin u a0 6 else spkTo u a0 .resetting) = v at h ⊢
      split
      · exact (keep_emit _ _).trans ((keep_resetEvent _ _).trans h)
      · exact h
    · exact keep_spkGone _ _ _
  · rfl

theorem keep_execOrderlyRemovalProgress (a0 a1 s)  : Keeps s (execOrderlyRemovalProgress a0 a1 s) := by
  unfold execOrderlyRemovalProgress
  repeat' first | exact keeps_fault _ _ | refine keep_onSpoke _ _ _  (fun _ => ?_) | refine keeps_next ?_ | grind [keep_mk, keep_eta, keep_removalStep]

theorem keep_execCstsRdyReached (a0 s)  : Keeps s (execCstsRdyReached a0 s) := by
  unfold execCstsRdyReached
  repeat' first | exact keeps_fault _ _ | refine keep_onSpoke _ _ _  (fun _ => ?_) | refine keeps_next ?_ | rfl | split | refine (keep_foldl _ _ _ (fun _ _ => ?_)).trans ?_ | simp only [keep_mk, keep_eta, keep_emit, keep_setSpk]

theorem keep_execBayScanFrame (a0 a1 s)  : Keeps s (execBayScanFrame a0 a1 s) := keeps_next (by simp only [keep_mk, keep_eta, keep_scanFrame])

theorem keep_execSpokeDpc (a0 a1 s)  : Keeps s (execSpokeDpc a0 a1 s) := by
  unfold execSpokeDpc
  repeat' first | exact keeps_fault _ _ | refine keep_onSpoke _ _ _  (fun _ => ?_) | refine keeps_next ?_ | rfl | split | refine (keep_foldl _ _ _ (fun _ _ => ?_)).trans ?_ | simp only [keep_mk, keep_eta, keep_spkContain, keep_rcAdd]

theorem keep_execSpokeResetLimit (a0 s)  : Keeps s (execSpokeResetLimit a0 s) := by
  unfold execSpokeResetLimit
  repeat' first | exact keeps_fault _ _ | refine keep_onSpoke _ _ _  (fun _ => ?_) | refine keeps_next ?_ | grind [keep_mk, keep_eta, keep_spkFail, keep_setSpk, keep_spkReset]

theorem keep_execLinkUpTimeout (a0 s)  : Keeps s (execLinkUpTimeout a0 s) := by
  unfold execLinkUpTimeout
  repeat' first | exact keeps_fault _ _ | refine keep_onSpoke _ _ _  (fun _ => ?_) | refine keeps_next ?_ | grind [keep_mk, keep_eta, keep_linkTimeout]

theorem keep_execSpokeLinkUp (a0 a1 a2 s)  : Keeps s (execSpokeLinkUp a0 a1 a2 s) := by
  unfold execSpokeLinkUp
  repeat' first | exact keeps_fault _ _ | refine keep_onSpoke _ _ _  (fun _ => ?_) | refine keeps_next ?_ | rfl | split | refine (keep_foldl _ _ _ (fun _ _ => ?_)).trans ?_ | simp only [keep_mk, keep_eta, keep_linkUpSpoke]

theorem keep_onGroup (a0 s a2) (h2 : ∀ t, keep (a2 t) = keep t) : Keeps s (onGroup a0 s a2) := by unfold onGroup; (repeat' split) <;> first | exact keeps_fault _ _ | exact keeps_refused _ _  | exact keeps_next (by simp only [keep_mk, keep_eta, h2])

theorem keep_rampsAgain (s a1)  : keep (rampsAgain s a1) = keep s := by
  unfold rampsAgain
  repeat' first | rfl | split | refine (keep_foldl _ _ _ (fun _ _ => ?_)).trans ?_ | simp only [keep_mk, keep_eta, keep_startRamp]

theorem keep_feedBbm (s a1)  : keep (feedBbm s a1) = keep s := by
  unfold feedBbm
  repeat' first | rfl | split | refine (keep_foldl _ _ _ (fun _ _ => ?_)).trans ?_ | simp only [keep_mk, keep_eta, keep_writeEvent, keep_rcAdd, keep_rampsAgain, keep_setFeed]

theorem keep_execFeedBbmEnd (a0 s)  : Keeps s (execFeedBbmEnd a0 s) := by
  unfold execFeedBbmEnd
  repeat' first | exact keeps_fault _ _ | refine keep_onGroup _ _ _  (fun _ => ?_) | refine keeps_next ?_ | rfl | split | refine (keep_foldl _ _ _ (fun _ _ => ?_)).trans ?_ | simp only [keep_mk, keep_eta, keep_feedBbm]

theorem keep_feedCtlWrite (s a1 a2)  : keep (feedCtlWrite s a1 a2) = keep s := by
  unfold feedCtlWrite
  repeat' first | rfl | split | refine (keep_foldl _ _ _ (fun _ _ => ?_)).trans ?_ | simp only [keep_mk, keep_eta, keep_feedSwitchTo]

theorem keep_onBay (a0 s a2) (h2 : ∀ t, keep (a2 t) = keep t) : Keeps s (onBay a0 s a2) := by unfold onBay; (repeat' split) <;> first | exact keeps_fault _ _ | exact keeps_refused _ _  | exact keeps_next (by simp only [keep_mk, keep_eta, h2])

theorem keep_execBreakerTrip (a0 a1 s)  : Keeps s (execBreakerTrip a0 a1 s) := by
  unfold execBreakerTrip
  repeat' first | exact keeps_fault _ _ | refine keep_onBay _ _ _  (fun _ => ?_) | refine keeps_next ?_ | rfl | split | refine (keep_foldl _ _ _ (fun _ _ => ?_)).trans ?_ | simp only [keep_mk, keep_eta, keep_chanTrip]

theorem keep_execRetryCountRefresh (a0 s)  : Keeps s (execRetryCountRefresh a0 s) := by
  unfold execRetryCountRefresh
  repeat' first | exact keeps_fault _ _ | refine keep_onBay _ _ _  (fun _ => ?_) | refine keeps_next ?_ | rfl | split | refine (keep_foldl _ _ _ (fun _ _ => ?_)).trans ?_ | simp only [keep_mk, keep_eta, keep_setChan]

theorem keep_fastTripAt (s a1 a2)  : keep (fastTripAt s a1 a2) = keep s := by
  unfold fastTripAt
  repeat' first | rfl | split | refine (keep_foldl _ _ _ (fun _ _ => ?_)).trans ?_ | simp only [keep_mk, keep_eta, keep_setChan, keep_chanTrip]

theorem keep_feedBadAt (s a1 a2)  : keep (feedBadAt s a1 a2) = keep s := by
  unfold feedBadAt
  repeat' first | rfl | split | refine (keep_foldl _ _ _ (fun _ _ => ?_)).trans ?_ | simp only [keep_mk, keep_eta, keep_setFeed, keep_feedBothBad, keep_feedSwitchTo]

theorem keep_execFeedBad (a0 a1 s)  : Keeps s (execFeedBad a0 a1 s) := by
  unfold execFeedBad
  repeat' first | exact keeps_fault _ _ | refine keep_onGroup _ _ _  (fun _ => ?_) | refine keeps_next ?_ | rfl | split | refine (keep_foldl _ _ _ (fun _ _ => ?_)).trans ?_ | simp only [keep_mk, keep_eta, keep_feedBadAt]

theorem keep_gatesOff (s)  : keep (gatesOff s) = keep s := rfl

theorem keep_execBayRailLoss (s)  : Keeps s (execBayRailLoss s) := keeps_next (by simp only [keep_mk, keep_eta, keep_gatesOff])

theorem keep_rampEnd (s a1)  : keep (rampEnd s a1) = keep s := by
  unfold rampEnd
  repeat' first | rfl | split | refine (keep_foldl _ _ _ (fun _ _ => ?_)).trans ?_ | simp only [keep_mk, keep_eta, keep_setChan]

theorem keep_execFeedSwitchSettle (a0 s)  : Keeps s (execFeedSwitchSettle a0 s) := by
  unfold execFeedSwitchSettle
  repeat' first | exact keeps_fault _ _ | refine keep_onGroup _ _ _  (fun _ => ?_) | refine keeps_next ?_ | rfl | split | refine (keep_foldl _ _ _ (fun _ _ => ?_)).trans ?_ | simp only [keep_mk, keep_eta, keep_setFeed]

theorem keep_powerGood (s a1 a2)  : keep (powerGood s a1 a2) = keep s := by unfold powerGood; grind [keep_mk, keep_eta, keep_spkTo, keep_chanTrip, keep_setChan, keep_writeEvent, keep_transient]

theorem keep_execBayPowerGood (a0 a1 s)  : Keeps s (execBayPowerGood a0 a1 s) := by
  unfold execBayPowerGood
  repeat' first | exact keeps_fault _ _ | refine keep_onBay _ _ _  (fun _ => ?_) | refine keeps_next ?_ | grind [keep_mk, keep_eta, keep_powerGood]

theorem keep_execFastTrip (a0 a1 s)  : Keeps s (execFastTrip a0 a1 s) := by
  unfold execFastTrip
  repeat' first | exact keeps_fault _ _ | refine keep_onBay _ _ _  (fun _ => ?_) | refine keeps_next ?_ | rfl | split | refine (keep_foldl _ _ _ (fun _ _ => ?_)).trans ?_ | simp only [keep_mk, keep_eta, keep_fastTripAt]

theorem keep_telemetry (s a1 a2 a3 a4 a5 a6)  : keep (telemetry s a1 a2 a3 a4 a5 a6) = keep s := by
  unfold telemetry
  repeat' first | rfl | split | refine (keep_foldl _ _ _ (fun _ _ => ?_)).trans ?_ | simp only [keep_mk, keep_eta, keep_setChan, keep_setFeed]

theorem keep_execBayTelemetrySample (a0 a1 a2 a3 a4 a5 s)  : Keeps s (execBayTelemetrySample a0 a1 a2 a3 a4 a5 s) := by
  unfold execBayTelemetrySample
  repeat' first | exact keeps_fault _ _ | refine keep_onBay _ _ _  (fun _ => ?_) | refine keeps_next ?_ | rfl | split | refine (keep_foldl _ _ _ (fun _ _ => ?_)).trans ?_ | simp only [keep_mk, keep_eta, keep_telemetry]

theorem keep_execUndervoltageTrip (a0 a1 s)  : Keeps s (execUndervoltageTrip a0 a1 s) := by
  unfold execUndervoltageTrip
  repeat' first | exact keeps_fault _ _ | refine keep_onBay _ _ _  (fun _ => ?_) | refine keeps_next ?_ | rfl | split | refine (keep_foldl _ _ _ (fun _ _ => ?_)).trans ?_ | simp only [keep_mk, keep_eta, keep_chanTrip]

theorem keep_presenceStable (s a1)  : keep (presenceStable s a1) = keep s := by
  unfold presenceStable
  repeat' first | rfl | split | refine (keep_foldl _ _ _ (fun _ _ => ?_)).trans ?_ | simp only [keep_mk, keep_eta, keep_startRamp]

theorem keep_execPresenceStable (a0 s)  : Keeps s (execPresenceStable a0 s) := by
  unfold execPresenceStable
  repeat' first | exact keeps_fault _ _ | refine keep_onBay _ _ _  (fun _ => ?_) | refine keeps_next ?_ | rfl | split | refine (keep_foldl _ _ _ (fun _ _ => ?_)).trans ?_ | simp only [keep_mk, keep_eta, keep_presenceStable]

theorem keep_execRampEnd (a0 s)  : Keeps s (execRampEnd a0 s) := by
  unfold execRampEnd
  repeat' first | exact keeps_fault _ _ | refine keep_onBay _ _ _  (fun _ => ?_) | refine keeps_next ?_ | rfl | split | refine (keep_foldl _ _ _ (fun _ _ => ?_)).trans ?_ | simp only [keep_mk, keep_eta, keep_rampEnd]

theorem keep_feedGoodAt (s a1 a2)  : keep (feedGoodAt s a1 a2) = keep s := by
  unfold feedGoodAt
  repeat' first | rfl | split | refine (keep_foldl _ _ _ (fun _ _ => ?_)).trans ?_ | simp only [keep_mk, keep_eta, keep_setFeed, keep_feedStart, keep_feedSwitchTo]

theorem keep_execFeedGood (a0 a1 s)  : Keeps s (execFeedGood a0 a1 s) := by
  unfold execFeedGood
  repeat' first | exact keeps_fault _ _ | refine keep_onGroup _ _ _  (fun _ => ?_) | refine keeps_next ?_ | rfl | split | refine (keep_foldl _ _ _ (fun _ _ => ?_)).trans ?_ | simp only [keep_mk, keep_eta, keep_feedGoodAt]

theorem keep_railsBack (s a1)  : keep (railsBack s a1) = keep s := by
  unfold railsBack
  repeat' first | rfl | split | refine (keep_foldl _ _ _ (fun _ _ => ?_)).trans ?_ | simp only [keep_mk, keep_eta, keep_setChan, keep_feedStart, keep_setFeed]

theorem keep_execFeedSwitchToA (a0 a1 s)  : Keeps s (execFeedSwitchToA a0 a1 s) := by
  unfold execFeedSwitchToA
  repeat' first | exact keeps_fault _ _ | refine keep_onGroup _ _ _  (fun _ => ?_) | refine keeps_next ?_ | rfl | split | refine (keep_foldl _ _ _ (fun _ _ => ?_)).trans ?_ | simp only [keep_mk, keep_eta, keep_feedCtlWrite]

theorem keep_execBayRailReturn (a0 s)  : Keeps s (execBayRailReturn a0 s) := keeps_next (by simp only [keep_mk, keep_eta, keep_railsBack])

theorem keep_bayClearAt (s a1 a2)  : keep (bayClearAt s a1 a2) = keep s := by
  unfold bayClearAt
  repeat' first | rfl | split | refine (keep_foldl _ _ _ (fun _ _ => ?_)).trans ?_ | simp only [keep_mk, keep_eta, keep_chanUnlatch, keep_setChan]

theorem keep_execBayClear (a0 a1 s)  : Keeps s (execBayClear a0 a1 s) := by
  unfold execBayClear
  repeat' first | exact keeps_fault _ _ | refine keep_onBay _ _ _  (fun _ => ?_) | refine keeps_next ?_ | rfl | split | refine (keep_foldl _ _ _ (fun _ _ => ?_)).trans ?_ | simp only [keep_mk, keep_eta, keep_bayClearAt]

theorem keep_feedRevertAt (s a1)  : keep (feedRevertAt s a1) = keep s := by
  unfold feedRevertAt
  repeat' first | rfl | split | refine (keep_foldl _ _ _ (fun _ _ => ?_)).trans ?_ | simp only [keep_mk, keep_eta, keep_feedSwitchTo]

theorem keep_execFeedSwitchToB (a0 a1 s)  : Keeps s (execFeedSwitchToB a0 a1 s) := by
  unfold execFeedSwitchToB
  repeat' first | exact keeps_fault _ _ | refine keep_onGroup _ _ _  (fun _ => ?_) | refine keeps_next ?_ | rfl | split | refine (keep_foldl _ _ _ (fun _ _ => ?_)).trans ?_ | simp only [keep_mk, keep_eta, keep_feedCtlWrite]

theorem keep_execOutputHoldExpiry (s)  : Keeps s (execOutputHoldExpiry s) := by unfold execOutputHoldExpiry; (repeat' split) <;> first | exact keeps_fault _ _ | exact keeps_refused _ _  | exact keeps_next (by simp only [keep_mk, keep_eta, keep_gatesOff])

theorem keep_coolEnd (s a1 a2)  : keep (coolEnd s a1 a2) = keep s := by
  unfold coolEnd
  repeat' first | rfl | split | refine (keep_foldl _ _ _ (fun _ _ => ?_)).trans ?_ | simp only [keep_mk, keep_eta, keep_setChan, keep_startRamp, keep_writeEvent, keep_heldPress, keep_spkTo]

theorem keep_execCoolDownEnd (a0 a1 s)  : Keeps s (execCoolDownEnd a0 a1 s) := by
  unfold execCoolDownEnd
  repeat' first | exact keeps_fault _ _ | refine keep_onBay _ _ _  (fun _ => ?_) | refine keeps_next ?_ | rfl | split | refine (keep_foldl _ _ _ (fun _ _ => ?_)).trans ?_ | simp only [keep_mk, keep_eta, keep_coolEnd]

theorem keep_bayTrip (s)  : keep (bayTrip s) = keep s := by
  unfold bayTrip
  repeat' first | rfl | split | refine (keep_foldl _ _ _ (fun _ _ => ?_)).trans ?_ | simp only [keep_mk, keep_eta, keep_writeEvent, keep_setChan]

theorem keep_execBayHardwareTrip (s)  : Keeps s (execBayHardwareTrip s) := keeps_next (by simp only [keep_mk, keep_eta, keep_bayTrip])

theorem keep_execFeedRevert (a0 s)  : Keeps s (execFeedRevert a0 s) := by
  unfold execFeedRevert
  repeat' first | exact keeps_fault _ _ | refine keep_onGroup _ _ _  (fun _ => ?_) | refine keeps_next ?_ | rfl | split | refine (keep_foldl _ _ _ (fun _ _ => ?_)).trans ?_ | simp only [keep_mk, keep_eta, keep_feedRevertAt]

theorem keep_dropGroupWork (s a1)  : keep (dropGroupWork s a1) = keep s := by
  unfold dropGroupWork
  repeat' first | rfl | split | refine (keep_foldl _ _ _ (fun _ _ => ?_)).trans ?_ | simp only [keep_mk, keep_eta, keep_reply, keep_dropChunks, keep_setRb]

theorem keep_leaveGroup (s a1)  : keep (leaveGroup s a1) = keep s := by
  unfold leaveGroup
  repeat' first | rfl | split | refine (keep_foldl _ _ _ (fun _ _ => ?_)).trans ?_ | simp only [keep_mk, keep_eta, keep_setGrp, keep_setMir]

theorem keep_setFence (s a1 a2)  : keep (setFence s a1 a2) = keep s := by
  unfold setFence
  repeat' first | rfl | split | refine (keep_foldl _ _ _ (fun _ _ => ?_)).trans ?_ | simp only [keep_mk, keep_eta, keep_setSpk]

theorem keep_noteOwned (s)  : keep (noteOwned s) = keep s := by unfold noteOwned; (repeat' split) <;> simp only [keep_mk, keep_eta]

theorem keep_releaseGroup (s a1 a2)  : keep (releaseGroup s a1 a2) = keep s := by
  unfold releaseGroup
  repeat' first | rfl | split | refine (keep_foldl _ _ _ (fun _ _ => ?_)).trans ?_ | simp only [keep_mk, keep_eta, keep_setGrp, keep_remirrorAbort, keep_dropGroupWork, keep_leaveGroup, keep_setFence, keep_emit, keep_writeEvent, keep_notePair, keep_setPair, keep_noteMode, keep_noteOwned]

theorem keep_releaseBoth (s a1)  : keep (releaseBoth s a1) = keep s := by unfold releaseBoth; simp only [keep_mk, keep_eta, keep_releaseGroup]

theorem keep_startBays (s a1)  : keep (startBays s a1) = keep s := by
  unfold startBays
  repeat' first | rfl | split | refine (keep_foldl _ _ _ (fun _ _ => ?_)).trans ?_ | simp only [keep_mk, keep_eta, keep_chanInsert]

theorem keep_takeOutputs (s a1 a2 a3 a4)  : keep (takeOutputs s a1 a2 a3 a4) = keep s := by unfold takeOutputs; (repeat' split) <;> simp only [keep_mk, keep_eta, keep_startBays, keep_adoptOutputs]

theorem keep_resetAdm (s a1)  : keep (resetAdm s a1) = keep s := rfl

theorem keep_loadEntry (s a1)  : keep (loadEntry s a1) = keep s := by unfold loadEntry; (repeat' split) <;> simp only [keep_mk, keep_eta, keep_setMap]

theorem keep_setOrphans (s a1 a2)  : keep (setOrphans s a1 a2) = keep s := by
  unfold setOrphans
  repeat' first | rfl | split | refine (keep_foldl _ _ _ (fun _ _ => ?_)).trans ?_ | simp only [keep_mk, keep_eta, keep_setOwn]

theorem keep_loadPlace (s a1)  : keep (loadPlace s a1) = keep s := by
  unfold loadPlace
  repeat' first | rfl | split | refine (keep_foldl _ _ _ (fun _ _ => ?_)).trans ?_ | simp only [keep_mk, keep_eta, keep_writeEvent, keep_putPlace]

theorem keep_noteArea (s a1)  : keep (noteArea s a1) = keep s := by
  unfold noteArea
  repeat' first | rfl | split | refine (keep_foldl _ _ _ (fun _ _ => ?_)).trans ?_ | simp only [keep_mk, keep_eta, keep_setArea]

theorem keep_replay (s a1 a2)  : keep (replay s a1 a2) = keep s := by unfold replay; (repeat' split) <;> simp only [keep_mk, keep_eta, keep_setArea, keep_loadEntry]

theorem keep_lostChunks (s a1)  : keep (lostChunks s a1) = keep s := by
  unfold lostChunks
  repeat' first | rfl | split | refine (keep_foldl _ _ _ (fun _ _ => ?_)).trans ?_ | simp only [keep_mk, keep_eta, keep_writeEvent]

theorem keep_loadMap (s a1 a2)  : keep (loadMap s a1 a2) = keep s := by
  unfold loadMap
  repeat' first | rfl | split | refine (keep_foldl _ _ _ (fun _ _ => ?_)).trans ?_ | simp only [keep_mk, keep_eta, keep_setGrp, keep_noteArea, keep_setMap, keep_loadEntry, keep_replay, keep_writeEvent, keep_lostChunks, keep_loadPlace]

theorem keep_resumeErase (s a1)  : keep (resumeErase s a1) = keep s := by
  unfold resumeErase
  repeat' first | rfl | split | refine (keep_foldl _ _ _ (fun _ _ => ?_)).trans ?_ | simp only [keep_mk, keep_eta, keep_writeEvent]

theorem keep_unusableRecords (s)  : keep (unusableRecords s) = keep s := by
  unfold unusableRecords
  repeat' first | rfl | split | refine (keep_foldl _ _ _ (fun _ _ => ?_)).trans ?_ | simp only [keep_mk, keep_eta, keep_tdmSend, keep_recordLost]

theorem keep_openGroup (s a1)  : keep (openGroup s a1) = keep s := by unfold openGroup; grind [keep_mk, keep_eta, keep_setGrp, keep_writeEvent, keep_tdmSend, keep_noteAna]

theorem keep_acquireGroup (s a1 a2 a3 a4)  : keep (acquireGroup s a1 a2 a3 a4) = keep s := by unfold acquireGroup; grind [keep_mk, keep_eta, keep_setGrp, keep_setOrphans, keep_setFence, keep_loadMap, keep_takeOutputs, keep_resumeRebuilds, keep_resetAdm, keep_resumeErase, keep_unusableRecords, keep_cured, keep_noteMode, keep_degrade, keep_notePair, keep_openGroup]

theorem keep_claimUnpaired (s)  : keep (claimUnpaired s) = keep s := by unfold claimUnpaired; grind [keep_mk, keep_eta, keep_acquireGroup]

theorem keep_fencedReset (s a1)  : keep (fencedReset s a1) = keep s := by
  unfold fencedReset
  repeat' first | rfl | split | refine (keep_foldl _ _ _ (fun _ _ => ?_)).trans ?_ | simp only [keep_mk, keep_eta, keep_spkReset, keep_setSpk]

theorem keep_bootBegin (s)  : keep (bootBegin s) = keep s := rfl

theorem keep_portsDown (s)  : keep (portsDown s) = keep s := by
  unfold portsDown
  repeat' first | rfl | split | refine (keep_foldl _ _ _ (fun _ _ => ?_)).trans ?_ | simp only [keep_mk, keep_eta, keep_dropTx, keep_writeEvent]

theorem keep_enterSafe (s a1 a2)  : keep (enterSafe s a1 a2) = keep s := by
  unfold enterSafe
  simp only [keep_noteAna, keep_noteMode, keep_writeEvent]
  have h : ∀ (u : State) (l : List Nat), keep (l.foldl (fun s b => spkContain s b 0) u) = keep u :=
    fun u l => keep_foldl _ _ _ (fun _ _ => keep_spkContain _ _ _)
  simp only [h, keep_portsDown, keep_linkDown, keep_mk, keep_eta, keep_releaseBoth]

theorem keep_fatal (s a1 a2)  : keep (fatal s a1 a2) = keep s := by unfold fatal; (repeat' split) <;> simp only [keep_mk, keep_eta, keep_enterSafe]

theorem keep_stackFail (s a1)  : keep (stackFail s a1) = keep s := by unfold stackFail; (repeat' split) <;> simp only [keep_mk, keep_eta, keep_fatal, keep_writeEvent]

theorem keep_closeCocoon (s a1)  : keep (closeCocoon s a1) = keep s := by unfold closeCocoon; simp only [keep_mk, keep_eta, keep_writeEvent, keep_persistOdo]

theorem keep_dropIngress (s)  : keep (dropIngress s) = keep s := by unfold dropIngress; simp only [keep_mk, keep_eta, keep_freeCells]

theorem keep_powerFail (s a1)  : keep (powerFail s a1) = keep s := by
  unfold powerFail
  repeat' first | rfl | split | refine (keep_foldl _ _ _ (fun _ _ => ?_)).trans ?_ | simp only [keep_mk, keep_eta, keep_closeCocoon, keep_releaseBoth, keep_dropIngress, keep_noteMode]

theorem keep_lostLine (s a1 a2)  : keep (lostLine s a1 a2) = keep s := by unfold lostLine; (repeat' split) <;> simp only [keep_mk, keep_eta, keep_writeEvent, keep_dramPoison]

theorem keep_consumePoison (s a1 a2 a3)  : keep (consumePoison s a1 a2 a3) = keep s := by unfold consumePoison; simp only [keep_mk, keep_eta, keep_writeEvent, keep_rcAdd, keep_lostLine]

theorem keep_spillLost (s a1 a2 a3 a4)  : keep (spillLost s a1 a2 a3 a4) = keep s := by unfold spillLost; (repeat' split) <;> simp only [keep_mk, keep_eta, keep_listFaultEvent, keep_consumePoison, keep_finishOp, keep_startInternal, keep_vacate, keep_freeCtxNow]

theorem keep_tablePoison (s a1 a2)  : keep (tablePoison s a1 a2) = keep s := by unfold tablePoison; simp only [keep_mk, keep_eta, keep_fatal, keep_consumePoison]

theorem keep_ctlPoison (s a1)  : keep (ctlPoison s a1) = keep s := by unfold ctlPoison; simp only [keep_mk, keep_eta, keep_fatal]

theorem keep_resumeLost (s a1 a2 a3 a4)  : keep (resumeLost s a1 a2 a3 a4) = keep s := by unfold resumeLost; (repeat' split) <;> simp only [keep_mk, keep_eta, keep_ctlPoison, keep_resumeCore, keep_spillLost, keep_setReadyQ]

theorem keep_startRead (s a1)  : keep (startRead s a1) = keep s := by unfold startRead; (repeat' split) <;> simp only [keep_mk, keep_eta, keep_listFaultEvent, keep_consumePoison, keep_startWaiting]

theorem keep_resumeRead (s a1 a2)  : keep (resumeRead s a1 a2) = keep s := by unfold resumeRead; (repeat' split) <;> simp only [keep_mk, keep_eta, keep_resumeLost, keep_resumeCore]

theorem keep_commitPage (s a1 a2 a3)  : keep (commitPage s a1 a2 a3) = keep s := by
  unfold commitPage
  repeat' first | rfl | split | refine (keep_foldl _ _ _ (fun _ _ => ?_)).trans ?_ | simp only [keep_mk, keep_eta, keep_setOwn, keep_supersede, keep_count]

theorem keep_creadStep (s a1 a2 a3 a4)  : keep (creadStep s a1 a2 a3 a4) = keep s := by
  unfold creadStep
  repeat' first | rfl | split | refine (keep_foldl _ _ _ (fun _ _ => ?_)).trans ?_ | simp only [keep_mk, keep_eta, keep_flipRead, keep_pageLine, keep_pageFault, keep_parkRetry, keep_setCtx, keep_count]

theorem keep_staged (s a1 a2 a3 a4)  : keep (staged s a1 a2 a3 a4) = keep s := by
  unfold staged
  repeat' first | rfl | split | refine (keep_foldl _ _ _ (fun _ _ => ?_)).trans ?_ | simp only [keep_mk, keep_eta, keep_tdmSend, keep_noteOccupancy, keep_setCtx]

theorem keep_stagePages (s a1 a2)  (t) : (stagePages s a1 a2) = some t → keep t.1 = keep s := by
  intro e
  induction a2 generalizing s t with
  | nil => cases e; rfl
  | cons x l ih =>
    unfold stagePages at e
    split at e
    · cases e
    · dsimp only at e
      split at e
      · rename_i u ps hu
        cases e
        exact (ih _ _ hu).trans (by simp only [keep_flipHit, keep_setOwn])
      · cases e

theorem keep_stageOn (s a1 a2 a3 a4)  : keep (stageOn s a1 a2 a3 a4) = keep s := by
  unfold stageOn
  repeat' first | rfl | split | refine (keep_foldl _ _ _ (fun _ _ => ?_)).trans ?_ | simp only [keep_mk, keep_eta, keep_setCtx, keep_staged, keep_mcastDone]

theorem keep_rotateEdit (s a1)  : keep (rotateEdit s a1).1 = keep s := rfl

end Sys2Proof.Machine
end

