-- ==== Sys2Proof/Laws/Keep3.lean ====
section
/-! SUPPORT. One lemma per operation of the model: it leaves the queue, TRS_BUF, the NOR, the field lock and the SVN bank as they
were (part 4 of 9; the operations that do touch one of them are in Laws/Grow.lean). -/

namespace Sys2Proof.Machine

set_option linter.unusedSimpArgs false
set_option linter.unusedVariables false

theorem keep_keyWarn (s a1)  : keep (keyWarn s a1) = keep s := by
  unfold keyWarn
  split
  · dsimp only
    split
    · simp only [keep_catRecord, keep_writeEvent, keep_setRun, keep_rotateEdit]
    · simp only [keep_writeEvent, keep_setRun]
  · rfl

theorem keep_cstageStep (s a1 a2 a3 a4)  : keep (cstageStep s a1 a2 a3 a4) = keep s := by
  unfold cstageStep
  split
  · dsimp only
    split
    · split
      · rename_i u ps hu
        exact (keep_staged _ _ _ _ _).trans (keep_stagePages _ _ _ _ hu)
      · rfl
    · split
      · exact keep_stageOn _ _ _ _ _
      · split
        · rename_i u hu
          simp only [keep_setCtx, keep_rcAdd]
          exact (keep_snd hu).trans (keep_takeCtrs _ _ _)
        · rename_i u hu
          simp only [keep_parkRetry]
          exact (keep_snd hu).trans (keep_takeCtrs _ _ _)
        · rename_i ctr u hu
          have h1 := (keep_snd hu).trans (keep_takeCtrs _ _ _)
          split
          · rename_i v ps hv
            simp only [keep_stageOn, keep_noteOccupancy, keep_keyWarn, keep_count]
            exact (keep_stagePages _ _ _ _ hv).trans h1
          · rfl
  · exact keep_setCtx _ _ _

theorem keep_execCstage (a0 a1 a2 s)  : Keeps s (execCstage a0 a1 a2 s) := by
  unfold execCstage
  repeat' first | exact keeps_fault _ _ | refine (keep_runStep _ _ _ _ _  (fun _ _ => ?_)).trans ?_ | refine keeps_next ?_ | grind [keep_mk, keep_eta, keep_runStep, keep_stallAt, keep_cstageStep]

theorem keep_ccommitStep (s a1 a2)  : keep (ccommitStep s a1 a2) = keep s := by
  unfold ccommitStep
  repeat' first | rfl | split | refine (keep_foldl _ _ _ (fun _ _ => ?_)).trans ?_ | simp only [keep_mk, keep_eta, keep_setCtx, keep_setSeq, keep_commitPage, keep_tdmSend]

theorem keep_hreadStep (s a1 a2 a3)  : keep (hreadStep s a1 a2 a3) = keep s := by unfold hreadStep; (repeat' split) <;> simp only [keep_mk, keep_eta, keep_parkCtx, keep_setFn, keep_setCtx, keep_rcAdd, keep_sendMsg]

theorem keep_indexBad (s)  : keep (indexBad s) = keep s := rfl

theorem keep_execHread (a0 a1 s)  : Keeps s (execHread a0 a1 s) := by
  unfold execHread
  repeat' first | exact keeps_fault _ _ | refine (keep_runStep _ _ _ _ _  (fun _ _ => ?_)).trans ?_ | refine keeps_next ?_ | rfl | split | refine (keep_foldl _ _ _ (fun _ _ => ?_)).trans ?_ | simp only [keep_mk, keep_eta, keep_runStep, keep_hreadStep]

theorem keep_echowaitStep (s a1 a2 a3)  : keep (echowaitStep s a1 a2 a3) = keep s := by
  unfold echowaitStep
  repeat' first | rfl | split | refine (keep_foldl _ _ _ (fun _ _ => ?_)).trans ?_ | simp only [keep_mk, keep_eta, keep_noEcho, keep_setCtx, keep_durableNow, keep_parkCtx]

theorem keep_clookStep (s a1 a2 a3)  : keep (clookStep s a1 a2 a3) = keep s := by unfold clookStep; (repeat' split) <;> simp only [keep_mk, keep_eta, keep_parkRetry, keep_indexBad, keep_setCtx]

theorem keep_payloadWait (s a1 a2)  : keep (payloadWait s a1 a2) = keep s := rfl

theorem keep_compareStep (s a1 a2)  : keep (compareStep s a1 a2) = keep s := by unfold compareStep; (repeat' split) <;> simp only [keep_mk, keep_eta, keep_payloadWait, keep_setCtx]

theorem keep_execCompare (a0 a1 s)  : Keeps s (execCompare a0 a1 s) := by
  unfold execCompare
  repeat' first | exact keeps_fault _ _ | refine (keep_runStep _ _ _ _ _  (fun _ _ => ?_)).trans ?_ | refine keeps_next ?_ | rfl | split | refine (keep_foldl _ _ _ (fun _ _ => ?_)).trans ?_ | simp only [keep_mk, keep_eta, keep_runStep, keep_compareStep]

theorem keep_hwriteStep (s a1 a2)  : keep (hwriteStep s a1 a2) = keep s := by unfold hwriteStep; (repeat' split) <;> simp only [keep_mk, keep_eta, keep_setCtx, keep_count, keep_emit, keep_rcAdd, keep_sendMsg]

theorem keep_execHwrite (a0 a1 s)  : Keeps s (execHwrite a0 a1 s) := by
  unfold execHwrite
  repeat' first | exact keeps_fault _ _ | refine (keep_runStep _ _ _ _ _  (fun _ _ => ?_)).trans ?_ | refine keeps_next ?_ | rfl | split | refine (keep_foldl _ _ _ (fun _ _ => ?_)).trans ?_ | simp only [keep_mk, keep_eta, keep_runStep, keep_hwriteStep]

theorem keep_pichkStep (s a1 a2)  : keep (pichkStep s a1 a2) = keep s := by
  unfold pichkStep
  repeat' first | rfl | split | refine (keep_foldl _ _ _ (fun _ _ => ?_)).trans ?_ | simp only [keep_mk, keep_eta, keep_payloadWait, keep_setCtx, keep_rcAdd]

theorem keep_execPichk (a0 a1 s)  : Keeps s (execPichk a0 a1 s) := by
  unfold execPichk
  repeat' first | exact keeps_fault _ _ | refine (keep_runStep _ _ _ _ _  (fun _ _ => ?_)).trans ?_ | refine keeps_next ?_ | rfl | split | refine (keep_foldl _ _ _ (fun _ _ => ?_)).trans ?_ | simp only [keep_mk, keep_eta, keep_runStep, keep_pichkStep]

theorem keep_execIlock (a0 a1 a2 s)  : Keeps s (execIlock a0 a1 a2 s) := by
  unfold execIlock
  repeat' first | exact keeps_fault _ _ | refine (keep_runStep _ _ _ _ _  (fun _ _ => ?_)).trans ?_ | refine keeps_next ?_ | rfl | split | refine (keep_foldl _ _ _ (fun _ _ => ?_)).trans ?_ | simp only [keep_mk, keep_eta, keep_runStep, keep_ctlPoison, keep_ilockStep]

theorem keep_execCread (a0 a1 a2 a3 s)  : Keeps s (execCread a0 a1 a2 a3 s) := by
  unfold execCread
  repeat' first | exact keeps_fault _ _ | refine (keep_runStep _ _ _ _ _  (fun _ _ => ?_)).trans ?_ | refine keeps_next ?_ | rfl | split | refine (keep_foldl _ _ _ (fun _ _ => ?_)).trans ?_ | simp only [keep_mk, keep_eta, keep_runStep, keep_creadStep]

theorem keep_cdeallocStep (s a1 a2)  : keep (cdeallocStep s a1 a2) = keep s := by
  unfold cdeallocStep
  split
  · exact keep_parkRetry _ _ _ _ _
  · split
    · dsimp only
      split
      · rename_i u ps hu
        exact (keep_staged _ _ _ _ _).trans (keep_stagePages _ _ _ _ hu)
      · rfl
    · exact keep_setCtx _ _ _

theorem keep_execCcommit (a0 a1 s)  : Keeps s (execCcommit a0 a1 s) := by
  unfold execCcommit
  repeat' first | exact keeps_fault _ _ | refine (keep_runStep _ _ _ _ _  (fun _ _ => ?_)).trans ?_ | refine keeps_next ?_ | rfl | split | refine (keep_foldl _ _ _ (fun _ _ => ?_)).trans ?_ | simp only [keep_mk, keep_eta, keep_runStep, keep_ccommitStep]

theorem keep_execEchowait (a0 a1 s)  : Keeps s (execEchowait a0 a1 s) := by
  unfold execEchowait
  repeat' first | exact keeps_fault _ _ | refine (keep_runStep _ _ _ _ _  (fun _ _ => ?_)).trans ?_ | refine keeps_next ?_ | rfl | split | refine (keep_foldl _ _ _ (fun _ _ => ?_)).trans ?_ | simp only [keep_mk, keep_eta, keep_runStep, keep_echowaitStep]

theorem keep_execClook (a0 a1 a2 s)  : Keeps s (execClook a0 a1 a2 s) := by
  unfold execClook
  repeat' first | exact keeps_fault _ _ | refine (keep_runStep _ _ _ _ _  (fun _ _ => ?_)).trans ?_ | refine keeps_next ?_ | rfl | split | refine (keep_foldl _ _ _ (fun _ _ => ?_)).trans ?_ | simp only [keep_mk, keep_eta, keep_runStep, keep_clookStep]

theorem keep_execCdealloc (a0 a1 s)  : Keeps s (execCdealloc a0 a1 s) := by
  unfold execCdealloc
  repeat' first | exact keeps_fault _ _ | refine (keep_runStep _ _ _ _ _  (fun _ _ => ?_)).trans ?_ | refine keeps_next ?_ | rfl | split | refine (keep_foldl _ _ _ (fun _ _ => ?_)).trans ?_ | simp only [keep_mk, keep_eta, keep_runStep, keep_cdeallocStep]

theorem keep_interlockGrant (s a1)  : keep (interlockGrant s a1) = keep s := by unfold interlockGrant; (repeat' split) <;> simp only [keep_mk, keep_eta, keep_staleArrival, keep_arrive]

theorem keep_execInterlockGrant (a0 s)  : Keeps s (execInterlockGrant a0 s) := keeps_next (by simp only [keep_mk, keep_eta, keep_interlockGrant])

theorem keep_retryUpd (s a1)  : keep (retryUpd s a1) = keep s := by unfold retryUpd; (repeat' split) <;> simp only [keep_mk, keep_eta, keep_transient, keep_tabApply, keep_writeEvent]

theorem keep_tableRetry (s a1)  : keep (tableRetry s a1) = keep s := by
  unfold tableRetry
  repeat' first | rfl | split | refine (keep_foldl _ _ _ (fun _ _ => ?_)).trans ?_ | simp only [keep_mk, keep_eta, keep_retryUpd]

theorem keep_execTableSlotRetry (a0 s)  : Keeps s (execTableSlotRetry a0 s) := by unfold execTableSlotRetry; (repeat' split) <;> first | exact keeps_fault _ _ | exact keeps_refused _ _  | exact keeps_next (by simp only [keep_mk, keep_eta, keep_tableRetry])

theorem keep_stripSlotTimeout (a0 s a2)  : keep (stripSlotTimeout a0 s a2) = keep s := by
  unfold stripSlotTimeout
  repeat' first | rfl | split | refine (keep_foldl _ _ _ (fun _ _ => ?_)).trans ?_ | simp only [keep_mk, keep_eta, keep_setSpk, keep_driveCmdTimeout]

theorem keep_stripsTimeout (s a1)  : keep (stripsTimeout s a1) = keep s := keep_foldl _ _ _ (fun _ _ => (keep_stripDone _ _ _).trans (keep_foldl _ _ _ (fun _ _ => keep_stripSlotTimeout _ _ _)))

theorem keep_dmaOver (s a1 a2)  : keep (dmaOver s a1 a2) = keep s := rfl

theorem keep_hostTransfer (s a1 a2 a3 a4)  : keep (hostTransfer s a1 a2 a3 a4) = keep s := by
  unfold hostTransfer
  repeat' first | rfl | split | refine (keep_foldl _ _ _ (fun _ _ => ?_)).trans ?_ | simp only [keep_mk, keep_eta, keep_staleArrival, keep_dmaOver, keep_rcAdd, keep_arrive]

theorem keep_hostArrival (s a1 a2 a3 a4 a5)  : keep (hostArrival s a1 a2 a3 a4 a5) = keep s := by unfold hostArrival; (repeat' split) <;> simp only [keep_mk, keep_eta, keep_vcStale, keep_hostTransfer, keep_tqStale]

theorem keep_answerRead (s r) (h : keep r.2 = keep s) : keep (answerRead s r) = keep s := by
  unfold answerRead
  split
  · rfl
  · exact (keep_emit _ _).trans h

theorem keep_snapWords (s a1 a2 a3 a4 a5)  : keep (snapWords s a1 a2 a3 a4 a5) = keep s := by
  unfold snapWords
  repeat' first | rfl | split | refine (keep_foldl _ _ _ (fun _ _ => ?_)).trans ?_ | simp only [keep_mk, keep_eta]

theorem keep_sampleRead (s a1)  : keep (sampleRead s a1).2 = keep s := by unfold sampleRead; (repeat' split) <;> simp only [keep_mk, keep_eta, keep_snapWords]

theorem keep_execSeqSampleRead (a0 s)  : Keeps s (execSeqSampleRead a0 s) := keeps_next (by simp only [keep_mk, keep_eta, keep_answerRead, keep_sampleRead])

theorem keep_execHostTransferComplete (a0 a1 a2 a3 a4 s)  : Keeps s (execHostTransferComplete a0 a1 a2 a3 a4 s) := keeps_next (by simp only [keep_mk, keep_eta, keep_hostArrival])

theorem keep_execEchoTimeout (a0 s)  : Keeps s (execEchoTimeout a0 s) := by unfold execEchoTimeout; (repeat' split) <;> first | exact keeps_fault _ _ | exact keeps_refused _ _  | exact keeps_next (by simp only [keep_mk, keep_eta, keep_echoTimeout, keep_remirrorFail])

theorem keep_ctxSlotsTimeout (s a1)  : keep (ctxSlotsTimeout s a1) = keep s := by
  unfold ctxSlotsTimeout
  repeat' first | rfl | split | refine (keep_foldl _ _ _ (fun _ _ => ?_)).trans ?_ | simp only [keep_mk, keep_eta, keep_driveCmdTimeout]

theorem keep_fragsTimeout (s a1 a2)  : keep (fragsTimeout s a1 a2) = keep s := by
  unfold fragsTimeout
  repeat' first | rfl | split | refine (keep_foldl _ _ _ (fun _ _ => ?_)).trans ?_ | simp only [keep_mk, keep_eta, keep_stripFin]

theorem keep_nsfenceDone (s a1)  : keep (nsfenceDone s a1) = keep s := by unfold nsfenceDone; (repeat' split) <;> simp only [keep_mk, keep_eta, keep_staleArrival, keep_arrive]

theorem keep_execNsfenceDone (a0 s)  : Keeps s (execNsfenceDone a0 s) := keeps_next (by simp only [keep_mk, keep_eta, keep_nsfenceDone])

theorem keep_waitEnds (s a1 a2 a3)  : keep (waitEnds s a1 a2 a3) = keep s := by unfold waitEnds; (repeat' split) <;> simp only [keep_mk, keep_eta, keep_arrive, keep_ctxSlotsTimeout, keep_driveArrive, keep_stripsTimeout, keep_fragsTimeout, keep_echoTimeout]

theorem keep_waitTimeout (s a1 a2 a3)  : keep (waitTimeout s a1 a2 a3) = keep s := by unfold waitTimeout; (repeat' split) <;> simp only [keep_mk, keep_eta, keep_staleArrival, keep_echoTimeout, keep_waitEnds, keep_writeEvent, keep_rcAdd]

theorem keep_execTandemEchoArrival (a0 a1 a2 s)  : Keeps s (execTandemEchoArrival a0 a1 a2 s) := by
  unfold execTandemEchoArrival
  repeat' first | exact keeps_fault _ _ | refine (keep_atPoint _ _ _ _ _  (fun _ => ?_)).trans ?_ | refine keeps_next ?_ | rfl | split | refine (keep_foldl _ _ _ (fun _ _ => ?_)).trans ?_ | simp only [keep_mk, keep_eta, keep_atPoint, keep_echoArrive]

theorem keep_execWaitTimeout (a0 a1 a2 s)  : Keeps s (execWaitTimeout a0 a1 a2 s) := keeps_next (by simp only [keep_mk, keep_eta, keep_waitTimeout])

theorem keep_execInternalContextStart (a0 s)  : Keeps s (execInternalContextStart a0 s) := keeps_next (by simp only [keep_mk, keep_eta, keep_startRead])

theorem keep_execContextResume (a0 a1 s)  : Keeps s (execContextResume a0 a1 s) := by unfold execContextResume; (repeat' split) <;> first | exact keeps_fault _ _ | exact keeps_refused _ _  | exact keeps_next (by simp only [keep_mk, keep_eta, keep_resumeRead])

theorem keep_discardEvents (s a1)  : keep (discardEvents s a1) = keep s := by
  unfold discardEvents
  repeat' first | rfl | split | refine (keep_foldl _ _ _ (fun _ _ => ?_)).trans ?_ | simp only [keep_mk, keep_eta, keep_writeEvent]

theorem keep_keepPage (s a1)  : keep (keepPage s a1) = keep s := rfl

theorem keep_execOdometerPersist (s)  : Keeps s (execOdometerPersist s) := by unfold execOdometerPersist; (repeat' split) <;> first | exact keeps_fault _ _ | exact keeps_refused _ _  | exact keeps_next (by simp only [keep_mk, keep_eta, keep_persistOdo])

theorem keep_placeHeldRec (s)  : keep (placeHeldRec s) = keep s := by unfold placeHeldRec; (repeat' split) <;> simp only [keep_mk, keep_eta, keep_setBr]

theorem keep_formatNew (s)  : keep (formatNew s) = keep s := by unfold formatNew; simp only [keep_mk, keep_eta, keep_placeHeldRec]

theorem keep_mirrorRecord (s a1 a2 a3)  : keep (mirrorRecord s a1 a2 a3) = keep s := by unfold mirrorRecord; (repeat' split) <;> simp only [keep_mk, keep_eta, keep_tdmSend, keep_setMir, keep_writeEvent]

theorem keep_formatDone (s a1)  : keep (formatDone s a1) = keep s := by unfold formatDone; simp only [keep_mk, keep_eta, keep_claimUnpaired, keep_reply, keep_writeEvent]

theorem keep_formatForced (s)  : keep (formatForced s) = keep s := by
  unfold formatForced
  repeat' first | rfl | split | refine (keep_foldl _ _ _ (fun _ _ => ?_)).trans ?_ | simp only [keep_mk, keep_eta, keep_tdmSend]

theorem keep_formatCocoon (s a1 a2)  : keep (formatCocoon s a1 a2) = keep s := by
  unfold formatCocoon
  repeat' first | rfl | split | refine (keep_foldl _ _ _ (fun _ _ => ?_)).trans ?_ | refine (keep_asManager _ _ _ _  (fun _ => ?_)).trans ?_ | simp only [keep_mk, keep_eta, keep_asManager, keep_reply, keep_formatDone, keep_formatNew, keep_formatForced]

theorem keep_execFormatCocoon (a0 a1 s)  : Keeps s (execFormatCocoon a0 a1 s) := keeps_next (by simp only [keep_mk, keep_eta, keep_formatCocoon])

theorem keep_awaitEnd (s a1 a2 a3)  : keep (awaitEnd s a1 a2 a3) = keep s := by
  unfold awaitEnd
  repeat' first | rfl | split | refine (keep_foldl _ _ _ (fun _ _ => ?_)).trans ?_ | simp only [keep_mk, keep_eta, keep_setGrp, keep_tdmSend]

theorem keep_takeHanded (s a1)  : keep (takeHanded s a1) = keep s := by unfold takeHanded; (repeat' split) <;> simp only [keep_mk, keep_eta, keep_supersede, keep_setOwn, keep_freeSuperseded]

theorem keep_handback (s a1 a2 a3)  : keep (handback s a1 a2 a3) = keep s := by
  unfold handback
  repeat' first | rfl | split | refine (keep_foldl _ _ _ (fun _ _ => ?_)).trans ?_ | simp only [keep_mk, keep_eta, keep_awaitEnd, keep_noteOccupancy, keep_takeHanded]

theorem keep_execHandbackPageReceive (a0 a1 a2 s)  : Keeps s (execHandbackPageReceive a0 a1 a2 s) := by
  unfold execHandbackPageReceive
  repeat' first | exact keeps_fault _ _ | refine keep_onGroup _ _ _  (fun _ => ?_) | refine keeps_next ?_ | rfl | split | refine (keep_foldl _ _ _ (fun _ _ => ?_)).trans ?_ | simp only [keep_mk, keep_eta, keep_handback]

theorem keep_lineRepaired (s a1)  : keep (lineRepaired s a1) = keep s := by unfold lineRepaired; simp only [keep_mk, keep_eta, keep_writeEvent, keep_rcAdd]

theorem keep_unusBack (s a1 a2)  : keep (unusBack s a1 a2) = keep s := by
  unfold unusBack
  repeat' first | rfl | split | refine (keep_foldl _ _ _ (fun _ _ => ?_)).trans ?_ | simp only [keep_mk, keep_eta, keep_keepPage, keep_setOwn, keep_releasePage]

theorem keep_lineFetched (s a1 a2 a3)  : keep (lineFetched s a1 a2 a3) = keep s := by unfold lineFetched; grind [keep_mk, keep_eta, keep_lineRepaired, keep_unusBack, keep_recordLost, keep_setOwn, keep_resumeAll]

theorem keep_execMirrorRecordReceive (a0 a1 a2 s)  : Keeps s (execMirrorRecordReceive a0 a1 a2 s) := keeps_next (by simp only [keep_mk, keep_eta, keep_mirrorRecord])

theorem keep_mirrorLine (s a1 a2)  : keep (mirrorLine s a1 a2) = keep s := by unfold mirrorLine; (repeat' split) <;> simp only [keep_mk, keep_eta, keep_flipHit, keep_setMir]

theorem keep_execMirrorLineReceive (a0 a1 s)  : Keeps s (execMirrorLineReceive a0 a1 s) := keeps_next (by simp only [keep_mk, keep_eta, keep_mirrorLine])

theorem keep_execOdometerTick (s)  : Keeps s (execOdometerTick s) := by unfold execOdometerTick; (repeat' split) <;> first | exact keeps_fault _ _ | exact keeps_refused _ _  | exact keeps_next (by simp only [keep_mk, keep_eta])

theorem keep_scanBad (s a1)  : keep (scanBad s a1) = keep s := by unfold scanBad; (repeat' split) <;> simp only [keep_mk, keep_eta, keep_setMir, keep_setOwn]

theorem keep_loseCounter (s a1)  : keep (loseCounter s a1) = keep s := by unfold loseCounter; simp only [keep_mk, keep_eta, keep_setRun, keep_writeEvent]

theorem keep_recoveryScan (s a1)  : keep (recoveryScan s a1) = keep s := by
  unfold recoveryScan
  dsimp only
  have h1 : ∀ (l : List (Bool × Nat)) (u : State), keep (l.foldl scanBad u) = keep u := fun l u => keep_foldl _ _ _ (fun _ _ => keep_scanBad _ _)
  have h2 : ∀ (l : List Nat) (u : State), keep (l.foldl (fun s p => setOwn s p {}) u) = keep u := fun l u => keep_foldl _ _ _ (fun _ _ => keep_setOwn _ _ _)
  have h3 : ∀ (l : List Nat) (u : State), keep (l.foldl (fun s p => setMir s p {}) u) = keep u := fun l u => keep_foldl _ _ _ (fun _ _ => keep_setMir _ _ _)
  have h4 : ∀ (l : List (Nat × CommitRec)) (u : State), keep (l.foldl keepPage u) = keep u := fun l u => keep_foldl _ _ _ (fun _ _ => keep_keepPage _ _)
  have h5 : ∀ (l : List Nat) (u : State), keep (l.foldl loseCounter u) = keep u := fun l u => keep_foldl _ _ _ (fun _ _ => keep_loseCounter _ _)
  simp only [keep_writeEvent, keep_noteOccupancy, keep_mk, keep_eta, h1, h2, h3, h4, h5, keep_discardEvents]

theorem keep_adoptLost (s a1)  : keep (adoptLost s a1) = keep s := by
  unfold adoptLost
  repeat' first | rfl | split | refine (keep_foldl _ _ _ (fun _ _ => ?_)).trans ?_ | simp only [keep_mk, keep_eta, keep_setMir, keep_lostEvent]

theorem keep_execIndexRebuildDone (s)  : Keeps s (execIndexRebuildDone s) := by unfold execIndexRebuildDone; (repeat' split) <;> first | exact keeps_fault _ _ | exact keeps_refused _ _  | exact keeps_next (by simp only [keep_mk, keep_eta, keep_resumeAll, keep_writeEvent])

theorem keep_adoptPages (s a1)  : keep (adoptPages s a1) = keep s := by
  unfold adoptPages
  dsimp only
  split
  · rfl
  · simp only [keep_openGroup, keep_setGrp, keep_writeEvent]
    split <;> simp only [keep_setSeq] <;>
      exact (keep_foldl _ _ _ (fun _ _ => by split <;> exact keep_setMir _ _ _)).trans ((keep_discardEvents _ _).trans (keep_adoptLost _ _))

theorem keep_execMirrorAdoptionDone (a0 s)  : Keeps s (execMirrorAdoptionDone a0 s) := by
  unfold execMirrorAdoptionDone
  repeat' first | exact keeps_fault _ _ | refine keep_onGroup _ _ _  (fun _ => ?_) | refine keeps_next ?_ | rfl | split | refine (keep_foldl _ _ _ (fun _ _ => ?_)).trans ?_ | simp only [keep_mk, keep_eta, keep_adoptPages]

theorem keep_areaFault (s a1)  : keep (areaFault s a1) = keep s := by
  unfold areaFault
  repeat' first | rfl | split | refine (keep_foldl _ _ _ (fun _ _ => ?_)).trans ?_ | simp only [keep_mk, keep_eta, keep_writeEvent, keep_rcAdd, keep_lineRepaired, keep_fatal, keep_loseCounter, keep_setBr]

theorem keep_cocoonLine (s a1 a2)  : keep (cocoonLine s a1 a2) = keep s := by
  unfold cocoonLine
  repeat' first | rfl | split | refine (keep_foldl _ _ _ (fun _ _ => ?_)).trans ?_ | refine (keep_snd (p := flipRead _ _ _ _ ) (by assumption)).trans ((keep_flipRead _ _ _ _ ).trans ?_) | simp only [keep_mk, keep_eta, keep_flipRead, keep_pageLine, keep_lineCorrected, keep_transient, keep_areaFault]

theorem keep_cocoonScrub (s a1 a2)  : keep (cocoonScrub s a1 a2) = keep s := by unfold cocoonScrub; (repeat' split) <;> simp only [keep_mk, keep_eta, keep_cocoonLine]

theorem keep_execCocoonScrubLine (a0 a1 s)  : Keeps s (execCocoonScrubLine a0 a1 s) := by unfold execCocoonScrubLine; (repeat' split) <;> first | exact keeps_fault _ _ | exact keeps_refused _ _  | exact keeps_next (by simp only [keep_mk, keep_eta, keep_cocoonScrub])

theorem keep_handbackDone (s a1)  : keep (handbackDone s a1) = keep s := by
  unfold handbackDone
  repeat' first | rfl | split | refine (keep_foldl _ _ _ (fun _ _ => ?_)).trans ?_ | simp only [keep_mk, keep_eta, keep_writeEvent, keep_noteOccupancy, keep_setOwn]

theorem keep_execHandbackConfirmReceive (a0 s)  : Keeps s (execHandbackConfirmReceive a0 s) := by
  unfold execHandbackConfirmReceive
  repeat' first | exact keeps_fault _ _ | refine keep_onGroup _ _ _  (fun _ => ?_) | refine keeps_next ?_ | rfl | split | refine (keep_foldl _ _ _ (fun _ _ => ?_)).trans ?_ | simp only [keep_mk, keep_eta, keep_handbackDone]

theorem keep_execLineFetchResponse (a0 a1 a2 s)  : Keeps s (execLineFetchResponse a0 a1 a2 s) := by unfold execLineFetchResponse; (repeat' split) <;> first | exact keeps_fault _ _ | exact keeps_refused _ _  | exact keeps_next (by simp only [keep_mk, keep_eta, keep_lineFetched])

theorem keep_reserveReady (s a1)  : keep (reserveReady s a1) = keep s := by
  unfold reserveReady
  repeat' first | rfl | split | refine (keep_foldl _ _ _ (fun _ _ => ?_)).trans ?_ | simp only [keep_mk, keep_eta, keep_resumeAll, keep_setRun]

theorem keep_reserveEcho (s a1 a2)  : keep (reserveEcho s a1 a2) = keep s := by unfold reserveEcho; (repeat' split) <;> simp only [keep_mk, keep_eta, keep_reserveReady]

theorem keep_execFlushStripeStart (s)  : Keeps s (execFlushStripeStart s) := by unfold execFlushStripeStart; (repeat' split) <;> first | exact keeps_fault _ _ | exact keeps_refused _ _  | exact keeps_next (by simp only [keep_mk, keep_eta, keep_flushStart])

theorem keep_mirrorReset (s a1)  : keep (mirrorReset s a1) = keep s := by
  unfold mirrorReset
  repeat' first | rfl | split | refine (keep_foldl _ _ _ (fun _ _ => ?_)).trans ?_ | simp only [keep_mk, keep_eta, keep_setMir]

theorem keep_execMirrorResetReceive (a0 s)  : Keeps s (execMirrorResetReceive a0 s) := by
  unfold execMirrorResetReceive
  repeat' first | exact keeps_fault _ _ | refine keep_onGroup _ _ _  (fun _ => ?_) | refine keeps_next ?_ | rfl | split | refine (keep_foldl _ _ _ (fun _ _ => ?_)).trans ?_ | simp only [keep_mk, keep_eta, keep_mirrorReset]

theorem keep_execCounterReserveEcho (a0 a1 s)  : Keeps s (execCounterReserveEcho a0 a1 s) := keeps_next (by simp only [keep_mk, keep_eta, keep_reserveEcho])

theorem keep_execFlushAgeExpiry (a0 a1 s)  : Keeps s (execFlushAgeExpiry a0 a1 s) := by unfold execFlushAgeExpiry; (repeat' split) <;> first | exact keeps_fault _ _ | exact keeps_refused _ _  | exact keeps_next (by simp only [keep_mk, keep_eta])

theorem keep_pageRecRead (s a1 a2)  : keep (pageRecRead s a1 a2).2 = keep s := rfl

theorem keep_execCocPageRecordRead (a0 s)  : Keeps s (execCocPageRecordRead a0 s) := by
  unfold execCocPageRecordRead
  repeat' first | exact keeps_fault _ _ | refine keeps_next ?_ | grind [keep_mk, keep_eta, keep_answerRead, keep_pageRecRead]

theorem keep_execCounterReserveTimeout (a0 s)  : Keeps s (execCounterReserveTimeout a0 s) := keeps_next (by simp only [keep_mk, keep_eta, keep_reserveReady])

theorem keep_releaseFlushed (s a1)  : keep (releaseFlushed s a1) = keep s := by
  unfold releaseFlushed
  repeat' first | rfl | split | refine (keep_foldl _ _ _ (fun _ _ => ?_)).trans ?_ | simp only [keep_mk, keep_eta, keep_count, keep_setOwn, keep_unpinPage, keep_releasePage]

theorem keep_writeGroups (s a1 a2 a3 a4 a5)  : keep (writeGroups s a1 a2 a3 a4 a5) = keep s := by
  unfold writeGroups
  dsimp only
  split
  · rfl
  · rename_i u hu
    have h1 : keep u = keep s := by
      refine keep_foldl_bind _ _ _ _ ?_ hu
      intro s x t e
      try dsimp only at e
      split at e
      · rename_i w hw
        cases e
        exact (keep_fst hw).trans (keep_stripWrite _ _ _ _ _ _ _)
      · cases e
    split
    · refine (keep_stripeSettled _ _ _ _ _).trans ((keep_foldl _ _ _ (fun _ _ => keep_loseMember _ _ _ _)).trans ?_)
      exact (keep_parkCtx _ _ _ _ _).trans h1
    · refine (keep_foldl _ _ _ (fun _ _ => keep_loseMember _ _ _ _)).trans ?_
      exact (keep_parkCtx _ _ _ _ _).trans h1

theorem keep_dzeroStep (s a1 a2 a3)  : keep (dzeroStep s a1 a2 a3) = keep s := by
  unfold dzeroStep
  split
  · split
    · exact keep_setCtx _ _ _
    · dsimp only
      split
      · rfl
      · rename_i u hu
        have h1 : keep u = keep s := by
          refine keep_foldl_bind _ _ _ _ ?_ hu
          intro s x t e
          try dsimp only at e
          split at e
          · rename_i w hw
            cases e
            exact (keep_fst hw).trans (keep_issueDrive _ _ _ _ _)
          · cases e
        have h2 := fun (l : List ((Nat × Nat × Nat) × MapEnt × Nat)) =>
          (keep_foldl (fun s j => loseMember s j.2.1 j.1.1 j.2.2) l u (fun _ _ => keep_loseMember _ _ _ _)).trans h1
        split
        · exact (keep_setCtx _ _ _).trans (h2 _)
        · exact (keep_parkCtx _ _ _ _ _).trans (h2 _)
  · exact keep_setCtx _ _ _

theorem keep_execDzero (a0 a1 s)  : Keeps s (execDzero a0 a1 s) := by
  unfold execDzero
  repeat' first | exact keeps_fault _ _ | refine (keep_runStep _ _ _ _ _  (fun _ _ => ?_)).trans ?_ | refine keeps_next ?_ | rfl | split | refine (keep_foldl _ _ _ (fun _ _ => ?_)).trans ?_ | simp only [keep_mk, keep_eta, keep_runStep, keep_dzeroStep]

theorem keep_dwriteStep (s a1 a2 a3)  : keep (dwriteStep s a1 a2 a3) = keep s := by unfold dwriteStep; grind [keep_mk, keep_eta, keep_setCtx, keep_hostedWrite, keep_parkCtx, keep_hostedArrive, keep_writeGroups]

theorem keep_execDwrite (a0 a1 s)  : Keeps s (execDwrite a0 a1 s) := by
  unfold execDwrite
  repeat' first | exact keeps_fault _ _ | refine (keep_runStep _ _ _ _ _  (fun _ _ => ?_)).trans ?_ | refine keeps_next ?_ | rfl | split | refine (keep_foldl _ _ _ (fun _ _ => ?_)).trans ?_ | simp only [keep_mk, keep_eta, keep_runStep, keep_dwriteStep]

theorem keep_issueRd (s a1 a2 a3 a4)  (t : State) : (issueRd s a1 a2 a3 a4) = some t → keep t = keep s := by unfold issueRd; grind [keep_mk, keep_eta, keep_fragSend, keep_issueDrive, keep_cellAlloc]

theorem keep_issueRds (s a1 a2 a3 a4)  (t : State) : (issueRds s a1 a2 a3 a4) = some t → keep t = keep s := by
  intro e
  exact keep_foldl_bind _ _ _ _ (fun _ _ _ e => keep_issueRd _ _ _ _ _ _ e) e

theorem keep_reconStep (s a1 a2 a3 a4)  : keep (reconStep s a1 a2 a3 a4) = keep s := by unfold reconStep; grind [keep_mk, keep_eta, keep_reconArrive, keep_parkCtx, keep_issueRds]

theorem keep_execRecon (a0 a1 a2 s)  : Keeps s (execRecon a0 a1 a2 s) := by
  unfold execRecon
  repeat' first | exact keeps_fault _ _ | refine (keep_runStep _ _ _ _ _  (fun _ _ => ?_)).trans ?_ | refine keeps_next ?_ | rfl | split | refine (keep_foldl _ _ _ (fun _ _ => ?_)).trans ?_ | simp only [keep_mk, keep_eta, keep_runStep, keep_reconStep]

theorem keep_dverifyStep (s a1 a2 a3 a4)  : keep (dverifyStep s a1 a2 a3 a4) = keep s := by
  unfold dverifyStep
  repeat' first | rfl | split | refine (keep_foldl _ _ _ (fun _ _ => ?_)).trans ?_ | simp only [keep_mk, keep_eta, keep_count, keep_transient, keep_rcAdd, keep_setCtx]

theorem keep_execDverify (a0 a1 a2 s)  : Keeps s (execDverify a0 a1 a2 s) := by
  unfold execDverify
  repeat' first | exact keeps_fault _ _ | refine (keep_runStep _ _ _ _ _  (fun _ _ => ?_)).trans ?_ | refine keeps_next ?_ | rfl | split | refine (keep_foldl _ _ _ (fun _ _ => ?_)).trans ?_ | simp only [keep_mk, keep_eta, keep_runStep, keep_dverifyStep]

theorem keep_parkReads (s a1 a2 a3 a4 a5)  : keep (parkReads s a1 a2 a3 a4 a5) = keep s := by unfold parkReads; (repeat' split) <;> simp only [keep_mk, keep_eta, keep_setCtx, keep_parkCtx]

theorem keep_lostPages (s a1)  : keep (lostPages s a1) = keep s := by
  unfold lostPages
  repeat' first | rfl | split | refine (keep_foldl _ _ _ (fun _ _ => ?_)).trans ?_ | simp only [keep_mk, keep_eta, keep_writeEvent, keep_rcAdd]

theorem keep_countStripes (s a1)  : keep (countStripes s a1) = keep s := by
  unfold countStripes
  repeat' first | rfl | split | refine (keep_foldl _ _ _ (fun _ _ => ?_)).trans ?_ | simp only [keep_mk, keep_eta, keep_rcAdd]

theorem keep_parityStep (s a1 a2 a3)  : keep (parityStep s a1 a2 a3) = keep s := by
  unfold parityStep
  dsimp only
  repeat' first | rfl | split | simp only [keep_setCtx, keep_lostPages, keep_countStripes, keep_count, keep_parkRetry]
  all_goals (rename (takeCtrs _ _ _ = _) => hu; exact (keep_snd hu).trans (keep_takeCtrs _ _ _))

theorem keep_execParity (a0 a1 a2 s)  : Keeps s (execParity a0 a1 a2 s) := by
  unfold execParity
  repeat' first | exact keeps_fault _ _ | refine (keep_runStep _ _ _ _ _  (fun _ _ => ?_)).trans ?_ | refine keeps_next ?_ | rfl | split | refine (keep_foldl _ _ _ (fun _ _ => ?_)).trans ?_ | simp only [keep_mk, keep_eta, keep_runStep, keep_parityStep]

theorem keep_creleaseStep (s a1 a2)  : keep (creleaseStep s a1 a2) = keep s := by
  unfold creleaseStep
  repeat' first | rfl | split | refine (keep_foldl _ _ _ (fun _ _ => ?_)).trans ?_ | simp only [keep_mk, keep_eta, keep_setCtx, keep_releaseFlushed, keep_vacate]

theorem keep_execCrelease (a0 a1 s)  : Keeps s (execCrelease a0 a1 s) := by
  unfold execCrelease
  repeat' first | exact keeps_fault _ _ | refine (keep_runStep _ _ _ _ _  (fun _ _ => ?_)).trans ?_ | refine keeps_next ?_ | rfl | split | refine (keep_foldl _ _ _ (fun _ _ => ?_)).trans ?_ | simp only [keep_mk, keep_eta, keep_runStep, keep_creleaseStep]

theorem keep_mapRef (x e) : keep (mapRef x e).1 = keep x.1 := by unfold mapRef; grind [keep_mk, keep_eta, keep_tableRef]

theorem keep_mapRefs (s a1 a2 a3)  : keep (mapRefs s a1 a2 a3) = keep s := by
  unfold mapRefs
  split
  · exact keep_parkRetry _ _ _ _ _
  · exact (keep_setCtx _ _ _).trans (keep_foldl_fst mapRef _ _ (fun _ _ => keep_mapRef _ _))

theorem keep_mapPoison (s a1 a2)  : keep (mapPoison s a1 a2) = keep s := by
  unfold mapPoison
  repeat' first | rfl | split | refine (keep_foldl _ _ _ (fun _ _ => ?_)).trans ?_ | simp only [keep_mk, keep_eta, keep_consumePoison]

theorem keep_mapStep (s a1 a2 a3)  : keep (mapStep s a1 a2 a3) = keep s := by
  unfold mapStep
  dsimp only
  split
  · exact keep_tablePoison _ _ _
  · exact (keep_mapRefs _ _ _ _).trans (keep_mapPoison _ _ _)
  · exact keep_mapRefs _ _ _ _

theorem keep_execMap (a0 a1 a2 s)  : Keeps s (execMap a0 a1 a2 s) := by
  unfold execMap
  repeat' first | exact keeps_fault _ _ | refine (keep_runStep _ _ _ _ _  (fun _ _ => ?_)).trans ?_ | refine keeps_next ?_ | rfl | split | refine (keep_foldl _ _ _ (fun _ _ => ?_)).trans ?_ | simp only [keep_mk, keep_eta, keep_runStep, keep_mapStep]

theorem keep_fragStep (s a1 a2)  : keep (fragStep s a1 a2) = keep s := by
  unfold fragStep
  repeat' first | rfl | split | refine (keep_foldl _ _ _ (fun _ _ => ?_)).trans ?_ | simp only [keep_mk, keep_eta, keep_setCtx, keep_writeGroups]

theorem keep_execFrag (a0 a1 s)  : Keeps s (execFrag a0 a1 s) := by
  unfold execFrag
  repeat' first | exact keeps_fault _ _ | refine (keep_runStep _ _ _ _ _  (fun _ _ => ?_)).trans ?_ | refine keeps_next ?_ | rfl | split | refine (keep_foldl _ _ _ (fun _ _ => ?_)).trans ?_ | simp only [keep_mk, keep_eta, keep_runStep, keep_fragStep]

theorem keep_dreadStep (s a1 a2 a3 a4)  : keep (dreadStep s a1 a2 a3 a4) = keep s := by unfold dreadStep; grind [keep_mk, keep_eta, keep_parkReads, keep_rcAdd, keep_issueRds]

theorem keep_dreadOp (s a1 a2 a3 a4)  : keep (dreadOp s a1 a2 a3 a4) = keep s := by unfold dreadOp; grind [keep_mk, keep_eta, keep_setCtx, keep_issueDrive, keep_parkCtx, keep_hostedArrive, keep_parkReads, keep_issueRds]

theorem keep_execDread (a0 a1 a2 s)  : Keeps s (execDread a0 a1 a2 s) := by
  unfold execDread
  repeat' first | exact keeps_fault _ _ | refine (keep_runStep _ _ _ _ _  (fun _ _ => ?_)).trans ?_ | refine keeps_next ?_ | rfl | split | refine (keep_foldl _ _ _ (fun _ _ => ?_)).trans ?_ | simp only [keep_mk, keep_eta, keep_runStep, keep_dreadOp, keep_dreadStep]

theorem keep_keyRotate (s a1 a2)  : keep (keyRotate s a1 a2) = keep s := by
  unfold keyRotate
  repeat' first | rfl | split | refine (keep_foldl _ _ _ (fun _ _ => ?_)).trans ?_ | simp only [keep_mk, keep_eta, keep_reply, keep_rotateEdit, keep_catChange]

theorem keep_execKeyRotate (a0 a1 s)  : Keeps s (execKeyRotate a0 a1 s) := by
  unfold execKeyRotate
  repeat' first | exact keeps_fault _ _ | refine (keep_asManager _ _ _ _  (fun _ => ?_)).trans ?_ | refine keeps_next ?_ | rfl | split | refine (keep_foldl _ _ _ (fun _ _ => ?_)).trans ?_ | simp only [keep_mk, keep_eta, keep_asManager, keep_keyRotate]

theorem keep_shelfReturned (s a1)  : keep (shelfReturned s a1) = keep s := by
  refine keep_foldl _ _ _ (fun _ _ => ?_)
  try dsimp only
  split
  · rfl
  · refine keep_foldl _ _ _ (fun _ _ => ?_)
    try dsimp only
    split
    · split
      · simp only [keep_fedRbStart, keep_tabUpdate]
      · rfl
    · rfl

theorem keep_rebuildDelay (s a1)  : keep (rebuildDelay s a1) = keep s := by unfold rebuildDelay; (repeat' split) <;> simp only [keep_mk, keep_eta, keep_shelfReturned, keep_rebuildAsk]

theorem keep_rebuildStop (s a1 a2)  : keep (rebuildStop s a1 a2) = keep s := by
  unfold rebuildStop
  repeat' first | rfl | split | refine (keep_foldl _ _ _ (fun _ _ => ?_)).trans ?_ | simp only [keep_mk, keep_eta, keep_reply, keep_setRb]

theorem keep_chunkMapRead (s a1 a2)  : keep (chunkMapRead s a1 a2) = keep s := by unfold chunkMapRead; (repeat' split) <;> simp only [keep_mk, keep_eta, keep_reply]

theorem keep_execChunkMapRead (a0 a1 s)  : Keeps s (execChunkMapRead a0 a1 s) := by
  unfold execChunkMapRead
  repeat' first | exact keeps_fault _ _ | refine (keep_asManager _ _ _ _  (fun _ => ?_)).trans ?_ | refine keeps_next ?_ | rfl | split | refine (keep_foldl _ _ _ (fun _ _ => ?_)).trans ?_ | simp only [keep_mk, keep_eta, keep_asManager, keep_chunkMapRead]

theorem keep_writeBack (s a1 a2 a3 a4)  : keep (writeBack s a1 a2 a3 a4) = keep s := by
  unfold writeBack
  split
  · dsimp only
    split
    · rename_i u hu
      have h1 : keep u = keep s := by
        refine (keep_fst hu).trans (keep_foldl_fst _ _ _ ?_)
        intro p x
        try dsimp only
        split
        · exact keep_fragSend _ _ _
        · exact keep_issueDrive _ _ _ _ _
      refine (keep_finishOp _ _ _ _).trans ?_
      split <;> simp only [keep_writeEvent, keep_rcAdd, h1]
    · rfl
  · rfl

theorem keep_execRebuildCancel (a0 a1 s)  : Keeps s (execRebuildCancel a0 a1 s) := by
  unfold execRebuildCancel
  repeat' first | exact keeps_fault _ _ | refine (keep_asManager _ _ _ _  (fun _ => ?_)).trans ?_ | refine keeps_next ?_ | rfl | split | refine (keep_foldl _ _ _ (fun _ _ => ?_)).trans ?_ | simp only [keep_mk, keep_eta, keep_asManager, keep_rebuildStop]

theorem keep_mapReload (s a1)  : keep (mapReload s a1) = keep s := by unfold mapReload; (repeat' split) <;> simp only [keep_mk, keep_eta, keep_writeEvent, keep_resumeAll]

theorem keep_execMapReloadDone (a0 s)  : Keeps s (execMapReloadDone a0 s) := by unfold execMapReloadDone; (repeat' split) <;> first | exact keeps_fault _ _ | exact keeps_refused _ _  | exact keeps_next (by simp only [keep_mk, keep_eta, keep_mapReload])

theorem keep_rebuildControl (s a1 a2)  : keep (rebuildControl s a1 a2) = keep s := by
  unfold rebuildControl
  repeat' first | rfl | split | refine (keep_foldl _ _ _ (fun _ _ => ?_)).trans ?_ | simp only [keep_mk, keep_eta, keep_reply, keep_rebuildBegin]

theorem keep_execRebuildStart (a0 a1 s)  : Keeps s (execRebuildStart a0 a1 s) := by
  unfold execRebuildStart
  repeat' first | exact keeps_fault _ _ | refine (keep_asManager _ _ _ _  (fun _ => ?_)).trans ?_ | refine keeps_next ?_ | rfl | split | refine (keep_foldl _ _ _ (fun _ _ => ?_)).trans ?_ | simp only [keep_mk, keep_eta, keep_asManager, keep_rebuildControl]

theorem keep_rekeyStart (s a1)  : keep (rekeyStart s a1) = keep s := by
  unfold rekeyStart
  repeat' first | rfl | split | refine (keep_foldl _ _ _ (fun _ _ => ?_)).trans ?_ | simp only [keep_mk, keep_eta, keep_rekeyChunk, keep_catRecord]

theorem keep_execRekeyPassStart (a0 s)  : Keeps s (execRekeyPassStart a0 s) := by unfold execRekeyPassStart; (repeat' split) <;> first | exact keeps_fault _ _ | exact keeps_refused _ _  | exact keeps_next (by simp only [keep_mk, keep_eta, keep_rekeyStart])

theorem keep_execReconWriteback (a0 a1 a2 a3 s)  : Keeps s (execReconWriteback a0 a1 a2 a3 s) := keeps_next (by simp only [keep_mk, keep_eta, keep_writeBack])

theorem keep_execRebuildDelayExpiry (a0 s)  : Keeps s (execRebuildDelayExpiry a0 s) := by unfold execRebuildDelayExpiry; (repeat' split) <;> first | exact keeps_fault _ _ | exact keeps_refused _ _  | exact keeps_next (by simp only [keep_mk, keep_eta, keep_rebuildDelay])

theorem keep_endFreeze (s a1)  : keep (endFreeze s a1) = keep s := by unfold endFreeze; (repeat' split) <;> simp only [keep_mk, keep_eta, keep_reply, keep_setTq]

theorem keep_bumpTq (s a1)  : keep (bumpTq s a1) = keep s := rfl

theorem keep_tqDelete (s a1)  : keep (tqDelete s a1) = keep s := by unfold tqDelete; (repeat' split) <;> simp only [keep_mk, keep_eta, keep_endFreeze, keep_bumpTq, keep_setTq]

theorem keep_tqErrorEvent (s a1 a2)  : keep (tqErrorEvent s a1 a2) = keep s := by unfold tqErrorEvent; simp only [keep_mk, keep_eta, keep_writeEvent]

theorem keep_tqAssocEnd (s a1)  : keep (tqAssocEnd s a1) = keep s := by unfold tqAssocEnd; (repeat' split) <;> simp only [keep_mk, keep_eta, keep_tqDelete, keep_tqErrorEvent, keep_setTq]

theorem keep_recvBack (s a1 a2)  : keep (recvBack s a1 a2) = keep s := by
  unfold recvBack
  repeat' first | rfl | split | refine (keep_foldl _ _ _ (fun _ _ => ?_)).trans ?_ | simp only [keep_mk, keep_eta, keep_recvReturn]

theorem keep_setQpInstar (s a1 a2)  : keep (setQpInstar s a1 a2) = keep s := rfl

theorem keep_bumpQp (s a1)  : keep (bumpQp s a1) = keep s := rfl

theorem keep_dropPorpor (s a1)  : keep (dropPorpor s a1) = keep s := rfl

theorem keep_tqError (s a1 a2)  : keep (tqError s a1 a2) = keep s := by unfold tqError; (repeat' split) <;> simp only [keep_mk, keep_eta, keep_rcAdd, keep_tqErrorEvent, keep_endFreeze, keep_bumpTq, keep_setTq]

end Sys2Proof.Machine
end

