-- ==== Sys2Proof/Laws/Keep4.lean ====
section
/-! SUPPORT. One lemma per operation of the model: it leaves the queue, TRS_BUF, the NOR, the field lock and the SVN bank as they
were (part 5 of 9; the operations that do touch one of them are in Laws/Grow.lean). -/

namespace Sys2Proof.Machine

set_option linter.unusedSimpArgs false
set_option linter.unusedVariables false

theorem keep_qpErrorAlone (s a1 a2)  : keep (qpErrorAlone s a1 a2) = keep s := by
  unfold qpErrorAlone
  have h1 : ∀ (t : State) (l : List Nat), keep (l.foldl (fun s n => hostTransfer s n false [] []) t) = keep t :=
    fun t l => keep_foldl _ _ _ (fun _ _ => keep_hostTransfer _ _ _ _ _)
  have h2 : ∀ (t : State) (l : List Nat), keep (l.foldl (fun s k => if tqQp k = a1 then tqError s k 5 else s) t) = keep t :=
    fun t l => keep_foldl _ _ _ (fun _ _ => by split; · exact keep_tqError _ _ _
                                               · rfl)
  lift_lets
  extract_lets x u1 y u2 u3 u4 u5
  have e1 : keep u1 = keep s := (keep_dropRefs _ _).trans ((keep_recvBack _ _ _).trans (keep_freeCells _ _))
  have e2 : keep u2 = keep u1 := keep_setQp _ _ _
  have e3 : keep u3 = keep u2 := by
    show keep (ite _ _ _) = _
    split
    · exact keep_emit _ _
    · exact keep_writeEvent _ _
  have e4 : keep u4 = keep u3 := keep_bumpQp _ _
  have e5 : keep u5 = keep u4 := h1 _ _
  have e : keep u5 = keep s := e5.trans (e4.trans (e3.trans (e2.trans e1)))
  split
  · exact (keep_dropPorpor _ _).trans e
  · split
    · exact (h2 _ _).trans e
    · exact e

theorem keep_qpStop (s a1 a2)  : keep (qpStop s a1 a2) = keep s := by unfold qpStop; grind [keep_mk, keep_eta, keep_qpErrorAlone]

theorem keep_vcResetBy (s a1 a2 a3) (h3 : ∀ t y1, keep (a3 t y1) = keep t) : keep (vcResetBy s a1 a2 a3) = keep s := by
  unfold vcResetBy
  repeat' first | rfl | split | refine (keep_foldl _ _ _ (fun _ _ => ?_)).trans ?_ | simp only [keep_mk, keep_eta, h3, keep_setAssoc, keep_setVcInstar, keep_reply, keep_writeEvent]

theorem keep_assocEndBy (s a1 a2 a3) (h3 : ∀ t y1, keep (a3 t y1) = keep t) : keep (assocEndBy s a1 a2 a3) = keep s := by
  unfold assocEndBy
  split
  · rfl
  · have h1 : ∀ (l : List Nat) (u : State), keep (l.foldl tqAssocEnd u) = keep u := fun l u => keep_foldl _ _ _ (fun _ _ => keep_tqAssocEnd _ _)
    have h2 : ∀ (l : List Nat) (u : State), keep (l.foldl (fun s q => qpStop s q 9) u) = keep u := fun l u => keep_foldl _ _ _ (fun _ _ => keep_qpStop _ _ _)
    dsimp only
    refine (keep_setAssoc _ _ _).trans ((keep_vcResetBy _ _ _ _ h3).trans ?_)
    simp only [keep_mk, keep_eta]
    repeat' first | split | simp only [keep_setFn, keep_setAssoc, h1, h2]

theorem keep_letGo (s a1)  : keep (letGo s a1) = keep s := rfl

theorem keep_assocEnd (s a1)  : keep (assocEnd s a1) = keep s := by unfold assocEnd; grind [keep_mk, keep_eta, keep_assocEndBy, keep_letGo]

theorem keep_endAssocs (s a1 a2)  : keep (endAssocs s a1 a2) = keep s := by
  unfold endAssocs
  repeat' first | rfl | split | refine (keep_foldl _ _ _ (fun _ _ => ?_)).trans ?_ | simp only [keep_mk, keep_eta, keep_assocEnd]

theorem keep_deferredBump (s a1)  : keep (deferredBump s a1) = keep s := by
  unfold deferredBump
  repeat' first | rfl | split | refine (keep_foldl _ _ _ (fun _ _ => ?_)).trans ?_ | simp only [keep_mk, keep_eta, keep_setQpInstar, keep_setTq, keep_setVcInstar, keep_setSpk, keep_tabUpdate, keep_setWin, keep_setFn]

theorem keep_execInstarBumpDeferred (a0 s)  : Keeps s (execInstarBumpDeferred a0 s) := keeps_next (by simp only [keep_mk, keep_eta, keep_deferredBump])

theorem keep_purgeCtx (s a1 a2)  : keep (purgeCtx s a1 a2) = keep s := by unfold purgeCtx; (repeat' split) <;> simp only [keep_mk, keep_eta, keep_noEcho, keep_durableNow, keep_setReadyQ, keep_freeCtxNow]

theorem keep_qpDown (s a1 a2)  : keep (qpDown s a1 a2) = keep s := by
  unfold qpDown
  repeat' first | rfl | split | refine (keep_foldl _ _ _ (fun _ _ => ?_)).trans ?_ | simp only [keep_mk, keep_eta, keep_qpErrorAlone, keep_assocEnd, keep_setAssoc]

theorem keep_withdrawCtx (s a1)  : keep (withdrawCtx s a1) = keep s := by unfold withdrawCtx; simp only [keep_mk, keep_eta, keep_purgeCtx]

theorem keep_deleteIoQueues (s a1)  : keep (deleteIoQueues s a1) = keep s := by
  unfold deleteIoQueues
  repeat' first | rfl | split | refine (keep_foldl _ _ _ (fun _ _ => ?_)).trans ?_ | simp only [keep_mk, keep_eta, keep_tqDelete, keep_qpStop, keep_setAssoc]

theorem keep_abortCtx (s a1)  : keep (abortCtx s a1) = keep s := by unfold abortCtx; grind [keep_mk, keep_eta, keep_completeCtx, keep_purgeCtx]

theorem keep_vcReset (s a1)  : keep (vcReset s a1) = keep s := by
  unfold vcReset
  repeat' first | rfl | split | refine (keep_foldl _ _ _ (fun _ _ => ?_)).trans ?_ | refine (keep_vcResetBy _ _ _ _  (fun _ _ => ?_)).trans ?_ | simp only [keep_mk, keep_eta, keep_vcResetBy, keep_abortCtx]

theorem keep_joinActive (s a1 a2)  : keep (joinActive s a1 a2) = keep s := by
  unfold joinActive
  repeat' first | rfl | split | refine (keep_foldl _ _ _ (fun _ _ => ?_)).trans ?_ | simp only [keep_mk, keep_eta]

theorem keep_qpFrame (s a1 a2 a3 a4 a5)  : keep (qpFrame s a1 a2 a3 a4 a5) = keep s := by unfold qpFrame; grind [keep_mk, keep_eta, keep_rcAdd, keep_tableRef, keep_joinActive, keep_egPush, keep_cellAlloc]

theorem keep_rollMgmt (s)  : keep (rollMgmt s) = keep s := by
  unfold rollMgmt
  repeat' first | rfl | split | refine (keep_foldl _ _ _ (fun _ _ => ?_)).trans ?_ | simp only [keep_mk, keep_eta]

theorem keep_sendPfc (s a1 a2 a3)  : keep (sendPfc s a1 a2 a3) = keep s := rfl

theorem keep_ovfMove (s a1)  : keep (ovfMove s a1) = keep s := rfl

theorem keep_setIng (s a1 a2 a3)  : keep (setIng s a1 a2 a3) = keep s := rfl

theorem keep_ingPop (s a1 a2)  (t) : (ingPop s a1 a2) = some t → keep t.2 = keep s := by unfold ingPop; grind [keep_mk, keep_eta, keep_ovfMove, keep_sampleLeave, keep_sendPfc, keep_setIng]

theorem keep_coresRate (s a1)  : keep (coresRate s a1).2 = keep s := by
  unfold coresRate
  repeat' first | rfl | split | refine (keep_foldl _ _ _ (fun _ _ => ?_)).trans ?_ | simp only [keep_mk, keep_eta, keep_rollMgmt, keep_rcAdd, keep_writeEvent]

theorem keep_rnrEnds (s a1)  : keep (rnrEnds s a1) = keep s := by unfold rnrEnds; (repeat' split) <;> simp only [keep_mk, keep_eta, keep_setQp]

theorem keep_debitBucket (s a1 a2)  : keep (debitBucket s a1 a2) = keep s := by
  unfold debitBucket
  repeat' first | rfl | split | refine (keep_foldl _ _ _ (fun _ _ => ?_)).trans ?_ | simp only [keep_mk, keep_eta, keep_setQp]

theorem keep_giveCells (s a1 a2)  : keep (giveCells s a1 a2) = keep s := by unfold giveCells; (repeat' split) <;> simp only [keep_mk, keep_eta, keep_freeCells, keep_setCtx]

theorem keep_releaseMsg (s a1)  : keep (releaseMsg s a1) = keep s := by unfold releaseMsg; (repeat' split) <;> simp only [keep_mk, keep_eta, keep_tableDrop, keep_giveCells, keep_onCtx]

theorem keep_packetOut (s a1 a2 a3 a4)  : keep (packetOut s a1 a2 a3 a4) = keep s := rfl

theorem keep_sendControl (s a1 a2 a3 a4 a5)  : keep (sendControl s a1 a2 a3 a4 a5) = keep s := by unfold sendControl; simp only [keep_mk, keep_eta, keep_packetOut, keep_qpFrame]

theorem keep_sendRnr (s a1 a2)  : keep (sendRnr s a1 a2) = keep s := by unfold sendRnr; simp only [keep_mk, keep_eta, keep_sendControl]

theorem keep_refuseMsg (s a1)  : keep (refuseMsg s a1) = keep s := by
  unfold refuseMsg
  dsimp only
  split
  · rfl
  · have h1 : ∀ (l : List InMsg) (u : State), keep (l.foldl (fun s k => releaseMsg s { k with ctx := none }) u) = keep u :=
      fun l u => keep_foldl _ _ _ (fun _ _ => keep_releaseMsg _ _)
    simp only [keep_sendRnr, keep_setQp, h1, keep_recvBack]

theorem keep_cnpSend (s a1)  : keep (cnpSend s a1) = keep s := by
  unfold cnpSend
  repeat' first | rfl | split | refine (keep_foldl _ _ _ (fun _ _ => ?_)).trans ?_ | simp only [keep_mk, keep_eta, keep_rcAdd, keep_sendControl, keep_setQp]

theorem keep_rateOff (s a1)  : keep (rateOff s a1) = keep s := rfl

theorem keep_cnpReceive (s a1)  : keep (cnpReceive s a1) = keep s := by
  unfold cnpReceive
  repeat' first | rfl | split | refine (keep_foldl _ _ _ (fun _ _ => ?_)).trans ?_ | simp only [keep_mk, keep_eta, keep_rcAdd, keep_rateOff, keep_setQp]

theorem keep_setDlog (s a1 a2)  : keep (setDlog s a1 a2) = keep s := rfl

theorem keep_dlogOverflow (s a1 a2 a3)  : keep (dlogOverflow s a1 a2 a3) = keep s := by unfold dlogOverflow; (repeat' split) <;> simp only [keep_mk, keep_eta, keep_setDlog, keep_writeEvent]

theorem keep_dlogTouch (s a1 a2 a3 a4)  : keep (dlogTouch s a1 a2 a3 a4) = keep s := by
  unfold dlogTouch
  repeat' first | rfl | split | refine (keep_foldl _ _ _ (fun _ _ => ?_)).trans ?_ | simp only [keep_mk, keep_eta, keep_setDlog, keep_dlogOverflow]

theorem keep_ackPackets (s a1 a2 a3)  : keep (ackPackets s a1 a2 a3) = keep s := by
  unfold ackPackets
  repeat' first | rfl | split | refine (keep_foldl _ _ _ (fun _ _ => ?_)).trans ?_ | simp only [keep_mk, keep_eta, keep_freeCells, keep_dlogTouch, keep_setQp]

theorem keep_ackUpTo (s a1 a2)  : keep (ackUpTo s a1 a2) = keep s := by unfold ackUpTo; simp only [keep_mk, keep_eta, keep_ackPackets]

theorem keep_seqErrorAt (s a1 a2)  : keep (seqErrorAt s a1 a2) = keep s := by
  unfold seqErrorAt
  repeat' first | rfl | split | refine (keep_foldl _ _ _ (fun _ _ => ?_)).trans ?_ | simp only [keep_mk, keep_eta, keep_qpDown, keep_setQp]

theorem keep_ackReceive (s a1 a2 a3)  : keep (ackReceive s a1 a2 a3) = keep s := by
  unfold ackReceive
  repeat' first | rfl | split | refine (keep_foldl _ _ _ (fun _ _ => ?_)).trans ?_ | simp only [keep_mk, keep_eta, keep_ackUpTo, keep_qpDown, keep_setQp, keep_seqErrorAt]

theorem keep_nakError (s a1 a2)  : keep (nakError s a1 a2) = keep s := by unfold nakError; simp only [keep_mk, keep_eta, keep_sendControl, keep_qpDown]

theorem keep_readResponse (s a1 a2)  : keep (readResponse s a1 a2) = keep s := by
  unfold readResponse
  repeat' first | rfl | split | refine (keep_foldl _ _ _ (fun _ _ => ?_)).trans ?_ | simp only [keep_mk, keep_eta, keep_freeCells, keep_nakError, keep_giveCells, keep_ackPackets, keep_setQp, keep_seqErrorAt]

theorem keep_sendSeqNak (s a1)  : keep (sendSeqNak s a1) = keep s := by
  unfold sendSeqNak
  repeat' first | rfl | split | refine (keep_foldl _ _ _ (fun _ _ => ?_)).trans ?_ | simp only [keep_mk, keep_eta, keep_sendControl, keep_setQp]

theorem keep_sendAck (s a1)  : keep (sendAck s a1) = keep s := by unfold sendAck; simp only [keep_mk, keep_eta, keep_sendControl, keep_setQp]

theorem keep_settleAck (s a1)  : keep (settleAck s a1) = keep s := by
  unfold settleAck
  repeat' first | rfl | split | refine (keep_foldl _ _ _ (fun _ _ => ?_)).trans ?_ | simp only [keep_mk, keep_eta, keep_sendAck]

theorem keep_ackPacket (s a1 a2 a3)  : keep (ackPacket s a1 a2 a3) = keep s := by unfold ackPacket; simp only [keep_mk, keep_eta, keep_settleAck, keep_setQp]

theorem keep_duplicate (s a1 a2)  : keep (duplicate s a1 a2) = keep s := by unfold duplicate; grind [keep_mk, keep_eta, keep_rcAdd, keep_nakError, keep_setQp, keep_ackPacket]

theorem keep_execRead (s a1 a2)  : keep (execRead s a1 a2) = keep s := by unfold execRead; grind [keep_mk, keep_eta, keep_nakError, keep_tableRef, keep_setQp, keep_ackPacket, keep_dropRefs]

theorem keep_countRefusal (s a1)  : keep (countRefusal s a1) = keep s := by unfold countRefusal; simp only [keep_mk, keep_eta, keep_count, keep_rcAdd]

theorem keep_notePending (s a1 a2)  : keep (notePending s a1 a2) = keep s := rfl

theorem keep_takeEntry (s a1)  (t : State) : (takeEntry s a1) = some t → keep t = keep s := by unfold takeEntry; grind [keep_mk, keep_eta, keep_setQp]

theorem keep_beginMsg (s a1 a2)  : keep (beginMsg s a1 a2).2 = keep s := by
  unfold beginMsg
  repeat' first | rfl | split | refine (keep_foldl _ _ _ (fun _ _ => ?_)).trans ?_ | refine (keep_snd (p := tableRef _ _ _ ) (by assumption)).trans ((keep_tableRef _ _ _ ).trans ?_) | simp only [keep_mk, keep_eta, keep_tableRef]

theorem keep_noteCap (s a1 a2)  : keep (noteCap s a1 a2) = keep s := by unfold noteCap; (repeat' split) <;> simp only [keep_mk, keep_eta, keep_setAssoc]

theorem keep_joinMsg (s a1 a2 a3 a4)  : keep (joinMsg s a1 a2 a3 a4) = keep s := by
  unfold joinMsg
  repeat' first | rfl | split | refine (keep_foldl _ _ _ (fun _ _ => ?_)).trans ?_ | simp only [keep_mk, keep_eta, keep_releaseMsg, keep_noteCap, keep_setQp]

theorem keep_executed (s a1 a2)  : keep (executed s a1 a2) = keep s := by unfold executed; grind [keep_mk, keep_eta, keep_beginMsg, keep_joinMsg, keep_ackPacket, keep_setQp]

theorem keep_execWrite (s a1 a2)  : keep (execWrite s a1 a2) = keep s := by
  unfold execWrite
  dsimp only
  repeat' first | split | simp only [keep_nakError, keep_freeCells, keep_sendRnr, keep_countRefusal, keep_notePending, keep_executed]
  all_goals (rename_i h; exact keep_takeEntry _ _ _ h)

theorem keep_request (s a1 a2)  : keep (request s a1 a2) = keep s := by
  unfold request
  dsimp only
  repeat' first | split | simp only [keep_sendSeqNak, keep_freeCells, keep_duplicate, keep_nakError, keep_execRead, keep_execWrite]

theorem keep_qpPacket (s a1 a2)  : keep (qpPacket s a1 a2) = keep s := by unfold qpPacket; grind [keep_mk, keep_eta, keep_freeCells, keep_rcAdd, keep_cnpSend, keep_cnpReceive, keep_ackReceive, keep_readResponse, keep_request]

theorem keep_dlogPoison (r0 s a2 a3)  : keep (dlogPoison r0 s a2 a3) = keep s := by
  unfold dlogPoison
  repeat' first | rfl | split | refine (keep_foldl _ _ _ (fun _ _ => ?_)).trans ?_ | simp only [keep_mk, keep_eta, keep_dlogOverflow, keep_consumePoison]

theorem keep_qpHandle (s a1 a2)  : keep (qpHandle s a1 a2) = keep s := by unfold qpHandle; (repeat' split) <;> simp only [keep_mk, keep_eta, keep_qpPacket, keep_dlogPoison]

theorem keep_takeMsg (s a1 a2)  : keep (takeMsg s a1 a2) = keep s := by unfold takeMsg; (repeat' split) <;> simp only [keep_mk, keep_eta, keep_recvReturn, keep_releaseMsg, keep_setQp, keep_onCtx, keep_settleAck]

theorem keep_onQp (a0 s a2) (h2 : ∀ t, keep (a2 t) = keep t) : Keeps s (onQp a0 s a2) := by unfold onQp; (repeat' split) <;> first | exact keeps_fault _ _ | exact keeps_refused _ _  | exact keeps_next (by simp only [keep_mk, keep_eta, h2])

theorem keep_execCmDreq (a0 s)  : Keeps s (execCmDreq a0 s) := by
  unfold execCmDreq
  repeat' first | exact keeps_fault _ _ | refine keep_onQp _ _ _  (fun _ => ?_) | refine keeps_next ?_ | rfl | split | refine (keep_foldl _ _ _ (fun _ _ => ?_)).trans ?_ | simp only [keep_mk, keep_eta, keep_qpDown]

theorem keep_ackExpired (s a1 a2)  : keep (ackExpired s a1 a2) = keep s := by
  unfold ackExpired
  repeat' first | rfl | split | refine (keep_foldl _ _ _ (fun _ _ => ?_)).trans ?_ | simp only [keep_mk, keep_eta, keep_qpDown, keep_setQp]

theorem keep_cacheUse (s a1)  : keep (cacheUse s a1) = keep s := rfl

theorem keep_loadQp (s a1 a2 a3 a4 a5)  : keep (loadQp s a1 a2 a3 a4 a5) = keep s := rfl

theorem keep_grantWindow (s a1)  (t) : (grantWindow s a1) = some t → keep t.2 = keep s := by unfold grantWindow; grind [keep_mk, keep_eta, keep_setWin]

theorem keep_cmRequest (s a1)  : keep (cmRequest s a1) = keep s := by
  unfold cmRequest
  dsimp only
  have h0 : ∀ r : Option (Nat × State), grantWindow s a1.member = r → ∀ w u, r = some (w, u) → keep u = keep s :=
    fun r e w u h => keep_grantWindow _ _ _ (e.trans h)
  repeat' first | rfl | split | simp only [keep_emit, keep_loadQp]
  all_goals (rename_i hu; exact keep_grantWindow _ _ _ hu)

theorem keep_qpCtlWrite (s a1)  : keep (qpCtlWrite s a1) = keep s := by unfold qpCtlWrite; (repeat' split) <;> simp only [keep_mk, keep_eta, keep_qpDown]

theorem keep_execQpTeardown (a0 s)  : Keeps s (execQpTeardown a0 s) := keeps_next (by simp only [keep_mk, keep_eta, keep_qpCtlWrite])

theorem keep_qpDlogWrite (s a1)  : keep (qpDlogWrite s a1) = keep s := by unfold qpDlogWrite; (repeat' split) <;> simp only [keep_mk, keep_eta, keep_setQp]

theorem keep_dlogStop (s a1)  : keep (dlogStop s a1) = keep s := rfl

theorem keep_dlogStart (s a1)  : keep (dlogStart s a1).1 = keep s := by
  unfold dlogStart
  repeat' first | rfl | split | refine (keep_foldl _ _ _ (fun _ _ => ?_)).trans ?_ | simp only [keep_mk, keep_eta, keep_setDlog, keep_writeEvent]

theorem keep_dlogCfgWrite (s a1)  : keep (dlogCfgWrite s a1) = keep s := by
  unfold dlogCfgWrite
  repeat' first | rfl | split | refine (keep_foldl _ _ _ (fun _ _ => ?_)).trans ?_ | simp only [keep_mk, keep_eta, keep_setDlog, keep_dlogStop, keep_dlogStart]

theorem keep_execDlogDisable (a0 s)  : Keeps s (execDlogDisable a0 s) := keeps_next (by simp only [keep_mk, keep_eta, keep_dlogCfgWrite])

theorem keep_execAckTimeout (a0 a1 s)  : Keeps s (execAckTimeout a0 a1 s) := by
  unfold execAckTimeout
  repeat' first | exact keeps_fault _ _ | refine keep_onQp _ _ _  (fun _ => ?_) | refine keeps_next ?_ | rfl | split | refine (keep_foldl _ _ _ (fun _ _ => ?_)).trans ?_ | simp only [keep_mk, keep_eta, keep_ackExpired]

theorem keep_rateEvent (s a1 a2 a3) (h3 : ∀ x, keep (a3 x) = keep s) : keep (rateEvent s a1 a2 a3) = keep s := by
  unfold rateEvent
  repeat' first | rfl | split | simp only [keep_cnpReceive, keep_rateOff, h3]

theorem keep_rateIncrease (s a1)  : keep (rateIncrease s a1) = keep s := rfl

theorem keep_increaseTick (s a1 a2)  : keep (increaseTick s a1 a2) = keep s := keep_rateEvent _ _ _ _ (fun _ => (keep_rateIncrease _ _).trans (keep_setQp _ _ _))

theorem keep_countBytes (s a1 a2)  : keep (countBytes s a1 a2) = keep s := by
  unfold countBytes
  dsimp only
  split
  · rfl
  · split
    · exact keep_setQp _ _ _
    · exact keep_rateEvent _ _ _ _ (fun _ => (keep_rateIncrease _ _).trans (keep_setQp _ _ _))

theorem keep_lifetimeExpired (s a1 a2)  : keep (lifetimeExpired s a1 a2) = keep s := by
  unfold lifetimeExpired
  repeat' first | rfl | split | refine (keep_foldl _ _ _ (fun _ _ => ?_)).trans ?_ | simp only [keep_mk, keep_eta, keep_qpDown]

theorem keep_execMessageLifetimeExpiry (a0 a1 s)  : Keeps s (execMessageLifetimeExpiry a0 a1 s) := by
  unfold execMessageLifetimeExpiry
  repeat' first | exact keeps_fault _ _ | refine keep_onQp _ _ _  (fun _ => ?_) | refine keeps_next ?_ | rfl | split | refine (keep_foldl _ _ _ (fun _ _ => ?_)).trans ?_ | simp only [keep_mk, keep_eta, keep_lifetimeExpired]

theorem keep_sendResponse (s a1)  : keep (sendResponse s a1) = keep s := by unfold sendResponse; (repeat' split) <;> simp only [keep_mk, keep_eta, keep_countBytes, keep_debitBucket, keep_setQp, keep_packetOut, keep_qpFrame]

theorem keep_execQpDlogJoin (a0 s)  : Keeps s (execQpDlogJoin a0 s) := keeps_next (by simp only [keep_mk, keep_eta, keep_qpDlogWrite])

theorem keep_coalesceExpired (s a1 a2)  : keep (coalesceExpired s a1 a2) = keep s := by
  unfold coalesceExpired
  repeat' first | rfl | split | refine (keep_foldl _ _ _ (fun _ _ => ?_)).trans ?_ | simp only [keep_mk, keep_eta, keep_settleAck, keep_setQp]

theorem keep_execAckCoalesceExpiry (a0 a1 s)  : Keeps s (execAckCoalesceExpiry a0 a1 s) := by
  unfold execAckCoalesceExpiry
  repeat' first | exact keeps_fault _ _ | refine keep_onQp _ _ _  (fun _ => ?_) | refine keeps_next ?_ | rfl | split | refine (keep_foldl _ _ _ (fun _ _ => ?_)).trans ?_ | simp only [keep_mk, keep_eta, keep_coalesceExpired]

theorem keep_execRateIncreaseTimer (a0 a1 s)  : Keeps s (execRateIncreaseTimer a0 a1 s) := by
  unfold execRateIncreaseTimer
  repeat' first | exact keeps_fault _ _ | refine keep_onQp _ _ _  (fun _ => ?_) | refine keeps_next ?_ | rfl | split | refine (keep_foldl _ _ _ (fun _ _ => ?_)).trans ?_ | simp only [keep_mk, keep_eta, keep_increaseTick]

theorem keep_fetchCtx (s a1 a2)  : keep (fetchCtx s a1 a2) = keep s := rfl

theorem keep_dlogTake (s a1 a2 a3)  : keep (dlogTake s a1 a2 a3).2 = keep s := by
  unfold dlogTake
  repeat' first | rfl | split | refine (keep_foldl _ _ _ (fun _ _ => ?_)).trans ?_ | simp only [keep_mk, keep_eta, keep_setDlog]

theorem keep_dlogHarvest (s a1 a2 a3)  : keep (dlogHarvest s a1 a2 a3).2 = keep s := by
  unfold dlogHarvest
  repeat' first | rfl | split | refine (keep_foldl _ _ _ (fun _ _ => ?_)).trans ?_ | simp only [keep_mk, keep_eta, keep_dlogTake, keep_snapWords]

theorem keep_execDlogEnable (a0 s)  : Keeps s (execDlogEnable a0 s) := keeps_next (by simp only [keep_mk, keep_eta, keep_dlogCfgWrite])

theorem keep_execRnrWaitExpiry (a0 s)  : Keeps s (execRnrWaitExpiry a0 s) := by
  unfold execRnrWaitExpiry
  repeat' first | exact keeps_fault _ _ | refine keep_onQp _ _ _  (fun _ => ?_) | refine keeps_next ?_ | rfl | split | refine (keep_foldl _ _ _ (fun _ _ => ?_)).trans ?_ | simp only [keep_mk, keep_eta, keep_rnrEnds]

theorem keep_execCmReq (a0 s)  : Keeps s (execCmReq a0 s) := by unfold execCmReq; (repeat' split) <;> first | exact keeps_fault _ _ | exact keeps_refused _ _  | exact keeps_next (by simp only [keep_mk, keep_eta, keep_cmRequest])

theorem keep_emitPacket (s a1 a2 a3)  : keep (emitPacket s a1 a2 a3) = keep s := by unfold emitPacket; (repeat' split) <;> simp only [keep_mk, keep_eta, keep_countBytes, keep_debitBucket, keep_dlogTouch, keep_packetOut, keep_qpFrame]

theorem keep_sendAgain (s a1 a2)  : keep (sendAgain s a1 a2) = keep s := by
  unfold sendAgain
  repeat' first | rfl | split | refine (keep_foldl _ _ _ (fun _ _ => ?_)).trans ?_ | simp only [keep_mk, keep_eta, keep_count, keep_rcAdd, keep_emitPacket, keep_setQp]

theorem keep_alphaTick (s a1 a2)  : keep (alphaTick s a1 a2) = keep s := keep_rateEvent _ _ _ _ (fun _ => keep_setQp _ _ _)

theorem keep_execRateAlphaTimer (a0 a1 s)  : Keeps s (execRateAlphaTimer a0 a1 s) := by
  unfold execRateAlphaTimer
  repeat' first | exact keeps_fault _ _ | refine keep_onQp _ _ _  (fun _ => ?_) | refine keeps_next ?_ | rfl | split | refine (keep_foldl _ _ _ (fun _ _ => ?_)).trans ?_ | simp only [keep_mk, keep_eta, keep_alphaTick]

theorem keep_contextFree (s a1)  : keep (contextFree s a1) = keep s := by
  unfold contextFree
  repeat' first | rfl | split | refine (keep_foldl _ _ _ (fun _ _ => ?_)).trans ?_ | simp only [keep_mk, keep_eta, keep_setQp, keep_bumpQp]

theorem keep_execDlogHarvestRead (a0 a1 s)  : Keeps s (execDlogHarvestRead a0 a1 s) := keeps_next (by simp only [keep_mk, keep_eta, keep_answerRead, keep_dlogHarvest])

theorem keep_sendNew (s a1 a2)  : keep (sendNew s a1 a2) = keep s := by unfold sendNew; grind [keep_mk, keep_eta, keep_setQp, keep_emitPacket, keep_cellAlloc]

theorem keep_packetSend (s a1 a2)  : keep (packetSend s a1 a2) = keep s := by
  unfold packetSend
  repeat' first | rfl | split | refine (keep_foldl _ _ _ (fun _ _ => ?_)).trans ?_ | simp only [keep_mk, keep_eta, keep_fetchCtx, keep_cacheUse, keep_sendResponse, keep_sendAgain, keep_sendNew]

theorem keep_rtuReceive (s a1)  : keep (rtuReceive s a1) = keep s := by unfold rtuReceive; (repeat' split) <;> simp only [keep_mk, keep_eta, keep_setQp]

theorem keep_packetTo (s a1 a2)  : keep (packetTo s a1 a2) = keep s := by
  unfold packetTo
  repeat' first | rfl | split | refine (keep_foldl _ _ _ (fun _ _ => ?_)).trans ?_ | simp only [keep_mk, keep_eta, keep_discardStale, keep_rcAdd, keep_freeCells, keep_setQp, keep_qpHandle, keep_cacheUse, keep_fetchCtx]

theorem keep_execQpPacketSend (a0 a1 s)  : Keeps s (execQpPacketSend a0 a1 s) := by
  unfold execQpPacketSend
  repeat' first | exact keeps_fault _ _ | refine keep_onQp _ _ _  (fun _ => ?_) | refine keeps_next ?_ | rfl | split | refine (keep_foldl _ _ _ (fun _ _ => ?_)).trans ?_ | simp only [keep_mk, keep_eta, keep_packetSend]

theorem keep_onIng (a0 a1 s a3) (h3 : ∀ t, keep (a3 t) = keep t) : Keeps s (onIng a0 a1 s a3) := by unfold onIng; (repeat' split) <;> first | exact keeps_fault _ _ | exact keeps_refused _ _  | exact keeps_next (by simp only [keep_mk, keep_eta, h3])

theorem keep_execQpContextFree (a0 s)  : Keeps s (execQpContextFree a0 s) := by
  unfold execQpContextFree
  repeat' first | exact keeps_fault _ _ | refine keep_onQp _ _ _  (fun _ => ?_) | refine keeps_next ?_ | rfl | split | refine (keep_foldl _ _ _ (fun _ _ => ?_)).trans ?_ | simp only [keep_mk, keep_eta, keep_contextFree]

theorem keep_contextFetched (s a1 a2)  : keep (contextFetched s a1 a2) = keep s := by
  unfold contextFetched
  repeat' first | rfl | split | refine (keep_foldl _ _ _ (fun _ _ => ?_)).trans ?_ | simp only [keep_mk, keep_eta, keep_qpDown, keep_consumePoison, keep_tqError, keep_packetTo, keep_cacheUse]

theorem keep_leaseRead (s a1 a2)  : keep (leaseRead s a1 a2) = keep s := by
  unfold leaseRead
  repeat' first | rfl | split | refine (keep_foldl _ _ _ (fun _ _ => ?_)).trans ?_ | simp only [keep_mk, keep_eta, keep_reply]

theorem keep_execLeaseRead (a0 a1 s)  : Keeps s (execLeaseRead a0 a1 s) := by
  unfold execLeaseRead
  repeat' first | exact keeps_fault _ _ | refine (keep_asManager _ _ _ _  (fun _ => ?_)).trans ?_ | refine keeps_next ?_ | rfl | split | refine (keep_foldl _ _ _ (fun _ _ => ?_)).trans ?_ | simp only [keep_mk, keep_eta, keep_asManager, keep_leaseRead]

theorem keep_porporTake (s a1 a2)  (t : State) : (porporTake s a1 a2) = some t → keep t = keep s := by unfold porporTake; grind [keep_mk, keep_eta, keep_takeMsg]

theorem keep_onPorpor (a0 a1 s a3) (h3 : ∀ t, keep (a3 t) = keep t) : Keeps s (onPorpor a0 a1 s a3) := by
  unfold onPorpor
  refine keep_onQp _ _ _ (fun u => ?_)
  split
  · rename_i h
    exact (h3 _).trans (keep_porporTake _ _ _ _ h)
  · rfl

theorem keep_fragKick (s)  : keep (fragKick s) = keep s := by
  unfold fragKick
  repeat' first | rfl | split | refine (keep_foldl _ _ _ (fun _ _ => ?_)).trans ?_ | refine (keep_fst (p := fragPost _ _ _ ) (by assumption)).trans ((keep_fragPost _ _ _ ).trans ?_) | simp only [keep_mk, keep_eta, keep_fragPost]

theorem keep_freeReplaced (s)  : keep (freeReplaced s) = keep s := by
  unfold freeReplaced
  repeat' first | rfl | split | refine (keep_foldl _ _ _ (fun _ _ => ?_)).trans ?_ | simp only [keep_mk, keep_eta, keep_fragSend]

theorem keep_fedSettle (s)  : keep (fedSettle s) = keep s := by unfold fedSettle; simp only [keep_mk, keep_eta, keep_fragKick, keep_freeReplaced]

theorem keep_setSlot (s a1 a2 a3)  : keep (setSlot s a1 a2 a3) = keep s := by unfold setSlot; (repeat' split) <;> simp only [keep_mk, keep_eta, keep_tabUpdate]

theorem keep_dropLease (s a1)  : keep (dropLease s a1) = keep s := rfl

theorem keep_setLease (s a1)  : keep (setLease s a1) = keep s := rfl

theorem keep_leaseGot (s a1 a2 a3 a4 a5)  : keep (leaseGot s a1 a2 a3 a4 a5) = keep s := by
  unfold leaseGot
  repeat' first | rfl | split | refine (keep_foldl _ _ _ (fun _ _ => ?_)).trans ?_ | simp only [keep_mk, keep_eta, keep_setSlot, keep_reply, keep_dropLease, keep_setLease]

theorem keep_moveFrag (s a1)  : keep (moveFrag s a1) = keep s := by
  unfold moveFrag
  repeat' first | rfl | split | refine (keep_foldl _ _ _ (fun _ _ => ?_)).trans ?_ | simp only [keep_mk, keep_eta, keep_fragDrop, keep_dropRefs, keep_tableRef, keep_setCtx, keep_stripWrite]

theorem keep_spareTaken (s a1 a2 a3)  : keep (spareTaken s a1 a2 a3) = keep s := by
  unfold spareTaken
  split
  · rfl
  · split
    · rfl
    · refine (keep_fedRbStart _ _ _).trans ((keep_foldl _ _ _ (fun _ _ => keep_moveFrag _ _)).trans ?_)
      simp only [keep_mk, keep_eta, keep_writeEvent, keep_rcAdd, keep_tabUpdate]

theorem keep_sendFree (s a1 a2)  : keep (sendFree s a1 a2) = keep s := by unfold sendFree; simp only [keep_mk, keep_eta, keep_fragSend]

theorem keep_allocReply (s a1 a2)  : keep (allocReply s a1 a2) = keep s := by unfold allocReply; grind [keep_mk, keep_eta, keep_fragDrop, keep_fedSettle, keep_leaseGot, keep_spareTaken, keep_sendFree]

theorem keep_execAllocReply (a0 a1 s)  : Keeps s (execAllocReply a0 a1 s) := by
  unfold execAllocReply
  repeat' first | exact keeps_fault _ _ | refine keep_onPorpor _ _ _ _  (fun _ => ?_) | refine keeps_next ?_ | rfl | split | refine (keep_foldl _ _ _ (fun _ _ => ?_)).trans ?_ | simp only [keep_mk, keep_eta, keep_allocReply]

theorem keep_pwinCtlWrite (s a1)  : keep (pwinCtlWrite s a1) = keep s := by
  unfold pwinCtlWrite
  repeat' first | rfl | split | refine (keep_foldl _ _ _ (fun _ _ => ?_)).trans ?_ | simp only [keep_mk, keep_eta, keep_setWin, keep_writeEvent, keep_tabUpdate]

theorem keep_noSpare (s a1 a2)  : keep (noSpare s a1 a2) = keep s := by
  unfold noSpare
  repeat' first | rfl | split | refine (keep_foldl _ _ _ (fun _ _ => ?_)).trans ?_ | simp only [keep_mk, keep_eta, keep_setSlot, keep_writeEvent, keep_markUnread, keep_stripFin, keep_fragDrop]

theorem keep_askSpare (s a1 a2 a3)  : keep (askSpare s a1 a2 a3) = keep s := by unfold askSpare; (repeat' split) <;> simp only [keep_mk, keep_eta, keep_noSpare, keep_fragSend]

theorem keep_declareFailed (s a1)  : keep (declareFailed s a1) = keep s := by unfold declareFailed; (repeat' split) <;> simp only [keep_mk, keep_eta, keep_stripFin, keep_fragDrop, keep_moveFrag, keep_writeEvent, keep_rcAdd, keep_askSpare]

theorem keep_remoteRead (s a1 a2)  : keep (remoteRead s a1 a2) = keep s := by unfold remoteRead; (repeat' split) <;> simp only [keep_mk, keep_eta, keep_driveArrive]

theorem keep_dropPlace (s a1)  : keep (dropPlace s a1) = keep s := by unfold dropPlace; (repeat' split) <;> simp only [keep_mk, keep_eta, keep_tabUpdate]

theorem keep_leaseFails (s a1 a2 a3)  : keep (leaseFails s a1 a2 a3) = keep s := by
  unfold leaseFails
  repeat' first | rfl | split | refine (keep_foldl _ _ _ (fun _ _ => ?_)).trans ?_ | simp only [keep_mk, keep_eta, keep_dropLease, keep_sendFree, keep_dropPlace, keep_reply, keep_writeEvent]

theorem keep_fragFails (s a1 a2)  : keep (fragFails s a1 a2) = keep s := by
  unfold fragFails
  repeat' first | rfl | split | refine (keep_foldl _ _ _ (fun _ _ => ?_)).trans ?_ | simp only [keep_mk, keep_eta, keep_declareFailed, keep_remoteRead, keep_fragDrop, keep_leaseFails, keep_askSpare]

theorem keep_toOther (s a1)  : keep (toOther s a1) = keep s := by unfold toOther; simp only [keep_mk, keep_eta, keep_fragResend]

theorem keep_fragLate (s a1)  : keep (fragLate s a1) = keep s := by unfold fragLate; (repeat' split) <;> simp only [keep_mk, keep_eta, keep_fragFails, keep_toOther]

theorem keep_leaseCreate (s a1 a2 a3 a4)  : keep (leaseCreate s a1 a2 a3 a4) = keep s := by
  unfold leaseCreate
  repeat' first | rfl | split | refine (keep_foldl _ _ _ (fun _ _ => ?_)).trans ?_ | simp only [keep_mk, keep_eta, keep_reply, keep_writeEvent, keep_tabUpdate, keep_leaseGot, keep_fragSend]

theorem keep_fragAccept (s a1)  : keep (fragAccept s a1) = keep s := by unfold fragAccept; (repeat' split) <;> simp only [keep_mk, keep_eta, keep_fragDrop, keep_transient, keep_stripFin]

theorem keep_fragTimeout (s a1 a2)  : keep (fragTimeout s a1 a2) = keep s := by unfold fragTimeout; (repeat' split) <;> simp only [keep_mk, keep_eta, keep_fedSettle, keep_fragAccept, keep_fragLate]

theorem keep_hostStrip (s a1 a2 a3 a4)  : keep (hostStrip s a1 a2 a3 a4) = keep s := by
  unfold hostStrip
  repeat' first | rfl | split | refine (keep_foldl _ _ _ (fun _ _ => ?_)).trans ?_ | simp only [keep_mk, keep_eta, keep_porporAnswer, keep_startInternal]

theorem keep_execStripRead (a0 a1 a2 s)  : Keeps s (execStripRead a0 a1 a2 s) := by
  unfold execStripRead
  repeat' first | exact keeps_fault _ _ | refine keep_onPorpor _ _ _ _  (fun _ => ?_) | refine keeps_next ?_ | rfl | split | refine (keep_foldl _ _ _ (fun _ _ => ?_)).trans ?_ | simp only [keep_mk, keep_eta, keep_hostStrip]

theorem keep_execFragTimeout (a0 a1 s)  : Keeps s (execFragTimeout a0 a1 s) := keeps_next (by simp only [keep_mk, keep_eta, keep_fragTimeout])

theorem keep_hostFree (s a1 a2 a3)  : keep (hostFree s a1 a2 a3) = keep s := by
  unfold hostFree
  repeat' first | rfl | split | refine (keep_foldl _ _ _ (fun _ _ => ?_)).trans ?_ | simp only [keep_mk, keep_eta, keep_porporAnswer, keep_dropPlace]

theorem keep_porporAccept (s a1 a2)  : keep (porporAccept s a1 a2) = keep s := by unfold porporAccept; (repeat' split) <;> simp only [keep_mk, keep_eta, keep_fedSettle, keep_fragAccept]

theorem keep_execLeaseCreate (a0 a1 a2 a3 s)  : Keeps s (execLeaseCreate a0 a1 a2 a3 s) := by
  unfold execLeaseCreate
  repeat' first | exact keeps_fault _ _ | refine (keep_asManager _ _ _ _  (fun _ => ?_)).trans ?_ | refine keeps_next ?_ | rfl | split | refine (keep_foldl _ _ _ (fun _ _ => ?_)).trans ?_ | simp only [keep_mk, keep_eta, keep_asManager, keep_leaseCreate]

theorem keep_execLeaseFree (a0 a1 a2 s)  : Keeps s (execLeaseFree a0 a1 a2 s) := by
  unfold execLeaseFree
  repeat' first | exact keeps_fault _ _ | refine keep_onPorpor _ _ _ _  (fun _ => ?_) | refine keeps_next ?_ | rfl | split | refine (keep_foldl _ _ _ (fun _ _ => ?_)).trans ?_ | simp only [keep_mk, keep_eta, keep_hostFree]

theorem keep_fragRefuse (s a1 a2)  : keep (fragRefuse s a1 a2) = keep s := by unfold fragRefuse; (repeat' split) <;> simp only [keep_mk, keep_eta, keep_fragFails, keep_toOther, keep_fragResend]

theorem keep_leaseRelease (s a1 a2)  : keep (leaseRelease s a1 a2) = keep s := by
  unfold leaseRelease
  repeat' first | rfl | split | refine (keep_foldl _ _ _ (fun _ _ => ?_)).trans ?_ | simp only [keep_mk, keep_eta, keep_reply, keep_sendFree, keep_dropPlace]

theorem keep_execLeaseRelease (a0 a1 s)  : Keeps s (execLeaseRelease a0 a1 s) := by
  unfold execLeaseRelease
  repeat' first | exact keeps_fault _ _ | refine (keep_asManager _ _ _ _  (fun _ => ?_)).trans ?_ | refine keeps_next ?_ | rfl | split | refine (keep_foldl _ _ _ (fun _ _ => ?_)).trans ?_ | simp only [keep_mk, keep_eta, keep_asManager, keep_leaseRelease]

theorem keep_afterRts (r0 s a2)  : keep (afterRts r0 s a2) = keep s := by unfold afterRts; (repeat' split) <;> simp only [keep_mk, keep_eta, keep_fedSettle]

theorem keep_execQpContextFetchDone (a0 a1 s)  : Keeps s (execQpContextFetchDone a0 a1 s) := by
  unfold execQpContextFetchDone
  repeat' first | exact keeps_fault _ _ | refine keep_onQp _ _ _  (fun _ => ?_) | refine keeps_next ?_ | rfl | split | refine (keep_foldl _ _ _ (fun _ _ => ?_)).trans ?_ | simp only [keep_mk, keep_eta, keep_afterRts, keep_contextFetched]

theorem keep_readDataArrives (s a1 a2)  : keep (readDataArrives s a1 a2) = keep s := by unfold readDataArrives; (repeat' split) <;> simp only [keep_mk, keep_eta, keep_fedSettle, keep_remoteRead, keep_fragDrop]

end Sys2Proof.Machine
end

