-- ==== Sys2Proof/Laws/Keep5.lean ====
section
/-! SUPPORT. One lemma per operation of the model: it leaves the queue, TRS_BUF, the NOR, the field lock and the SVN bank as they
were (part 6 of 9; the operations that do touch one of them are in Laws/Grow.lean). -/

namespace Sys2Proof.Machine

set_option linter.unusedSimpArgs false
set_option linter.unusedVariables false

theorem keep_execReadData (a0 a1 s)  : Keeps s (execReadData a0 a1 s) := by
  unfold execReadData
  repeat' first | exact keeps_fault _ _ | refine keep_onPorpor _ _ _ _  (fun _ => ?_) | refine keeps_next ?_ | rfl | split | refine (keep_foldl _ _ _ (fun _ _ => ?_)).trans ?_ | simp only [keep_mk, keep_eta, keep_readDataArrives]

theorem keep_porporRefuse (s a1 a2 a3)  : keep (porporRefuse s a1 a2 a3) = keep s := by unfold porporRefuse; (repeat' split) <;> simp only [keep_mk, keep_eta, keep_fedSettle, keep_fragRefuse]

theorem keep_execPorporRefuse (a0 a1 a2 s)  : Keeps s (execPorporRefuse a0 a1 a2 s) := by
  unfold execPorporRefuse
  repeat' first | exact keeps_fault _ _ | refine keep_onPorpor _ _ _ _  (fun _ => ?_) | refine (keep_atPoint _ _ _ _ _  (fun _ => ?_)).trans ?_ | refine keeps_next ?_ | rfl | split | refine (keep_foldl _ _ _ (fun _ _ => ?_)).trans ?_ | simp only [keep_mk, keep_eta, keep_atPoint, keep_porporRefuse]

theorem keep_execPeerWindowApply (a0 s)  : Keeps s (execPeerWindowApply a0 s) := keeps_next (by simp only [keep_mk, keep_eta, keep_pwinCtlWrite])

theorem keep_hostAlloc (s a1 a2 a3)  : keep (hostAlloc s a1 a2 a3) = keep s := by
  unfold hostAlloc
  repeat' first | rfl | split | refine (keep_foldl _ _ _ (fun _ _ => ?_)).trans ?_ | simp only [keep_mk, keep_eta, keep_porporAnswer, keep_porporReply, keep_tabUpdate]

theorem keep_execStripWrite (a0 a1 a2 s)  : Keeps s (execStripWrite a0 a1 a2 s) := by
  unfold execStripWrite
  repeat' first | exact keeps_fault _ _ | refine keep_onPorpor _ _ _ _  (fun _ => ?_) | refine keeps_next ?_ | rfl | split | refine (keep_foldl _ _ _ (fun _ _ => ?_)).trans ?_ | simp only [keep_mk, keep_eta, keep_hostStrip]

theorem keep_execPorporAccept (a0 a1 s)  : Keeps s (execPorporAccept a0 a1 s) := by
  unfold execPorporAccept
  repeat' first | exact keeps_fault _ _ | refine keep_onPorpor _ _ _ _  (fun _ => ?_) | refine (keep_atPoint _ _ _ _ _  (fun _ => ?_)).trans ?_ | refine keeps_next ?_ | rfl | split | refine (keep_foldl _ _ _ (fun _ _ => ?_)).trans ?_ | simp only [keep_mk, keep_eta, keep_atPoint, keep_porporAccept]

theorem keep_execCmRtu (a0 s)  : Keeps s (execCmRtu a0 s) := by
  unfold execCmRtu
  repeat' first | exact keeps_fault _ _ | refine keep_onQp _ _ _  (fun _ => ?_) | refine keeps_next ?_ | rfl | split | refine (keep_foldl _ _ _ (fun _ _ => ?_)).trans ?_ | simp only [keep_mk, keep_eta, keep_afterRts, keep_rtuReceive]

theorem keep_execAlloc (a0 a1 a2 s)  : Keeps s (execAlloc a0 a1 a2 s) := by
  unfold execAlloc
  repeat' first | exact keeps_fault _ _ | refine keep_onPorpor _ _ _ _  (fun _ => ?_) | refine keeps_next ?_ | rfl | split | refine (keep_foldl _ _ _ (fun _ _ => ?_)).trans ?_ | simp only [keep_mk, keep_eta, keep_hostAlloc]

theorem keep_endHold (s a1 a2 a3)  : keep (endHold s a1 a2 a3) = keep s := by unfold endHold; grind [keep_mk, keep_eta, keep_completeCtx, keep_purgeCtx]

theorem keep_setActive (s a1 a2 a3)  : keep (setActive s a1 a2 a3) = keep s := rfl

theorem keep_releaseHolds (s)  : keep (releaseHolds s) = keep s := by
  unfold releaseHolds
  repeat' first | rfl | split | refine (keep_foldl _ _ _ (fun _ _ => ?_)).trans ?_ | simp only [keep_mk, keep_eta, keep_dropRefs, keep_tableRef, keep_dispatchCtx]

theorem keep_stopTenant (s a1 a2)  : keep (stopTenant s a1 a2) = keep s := rfl

theorem keep_holdExpired (s a1)  : keep (holdExpired s a1) = keep s := by
  unfold holdExpired
  repeat' first | rfl | split | refine (keep_foldl _ _ _ (fun _ _ => ?_)).trans ?_ | simp only [keep_mk, keep_eta, keep_endHold, keep_rcAdd, keep_writeEvent]

theorem keep_admNext (s a1)  : keep (admNext s a1) = keep s := rfl

theorem keep_idleWake (s)  : keep (idleWake s) = keep s := by unfold idleWake; (repeat' split) <;> simp only [keep_mk, keep_eta]

theorem keep_setTokens (s a1 a2)  : keep (setTokens s a1 a2) = keep s := rfl

theorem keep_debitShaper (s a1 a2)  : keep (debitShaper s a1 a2) = keep s := by
  unfold debitShaper
  repeat' first | rfl | split | refine (keep_foldl _ _ _ (fun _ _ => ?_)).trans ?_ | simp only [keep_mk, keep_eta, keep_setTokens, keep_stopTenant]

theorem keep_admitCmd (s a1 a2 a3 a4 a5 a6 a7)  : keep (admitCmd s a1 a2 a3 a4 a5 a6 a7) = keep s := by
  unfold admitCmd
  split
  · rfl
  · have h0 : ∀ (u : State) (l : List (Nat × NsRec)), keep (l.foldl (fun s x => admNext s x.1) u) = keep u :=
      fun u l => keep_foldl _ _ _ (fun _ _ => keep_admNext _ _)
    dsimp only
    split
    · exact keep_ctlPoison _ _
    · generalize hu : tableRef _ _ _ = r
      obtain ⟨ver, u⟩ := r
      have e1 := (keep_snd hu).trans ((keep_tableRef _ _ _).trans (keep_idleWake s))
      dsimp only
      generalize hw : (if (a3 == 2 && a4.nsid == 0xFFFFFFFF) = true then takeFree u else _) = r
      obtain ⟨free, w⟩ := r
      have e2 : keep w = keep s := by
        refine Eq.trans ?_ e1
        split at hw
        · exact (keep_snd hw).trans (keep_takeFree _)
        · cases hw; rfl
      generalize hv : (if (decide (a3 = 0) || decide (a3 = 1) || decide (a3 = 5)) = true then
          debitShaper (count (List.foldl (fun s x => admNext s x.fst) (free, w).snd (namedNs s a1 a3 a4)) 1281 none (some a1)) a1 a4.len
        else count (List.foldl (fun s x => admNext s x.fst) (free, w).snd (namedNs s a1 a3 a4)) 1281 none (some a1)) = v
      have e3 : keep v = keep s := by
        refine (congrArg keep hv).symm.trans (Eq.trans ?_ e2)
        split <;> simp only [keep_debitShaper, keep_count, h0]
      split
      · exact (keep_setCtx _ _ _).trans e3
      · exact (keep_dispatchCtx _ _ _).trans e3

theorem keep_execIdleLevel1Entry (s)  : Keeps s (execIdleLevel1Entry s) := by unfold execIdleLevel1Entry; (repeat' split) <;> first | exact keeps_fault _ _ | exact keeps_refused _ _  | exact keeps_next (by simp only [keep_mk, keep_eta])

theorem keep_setDeficit (s a1 a2 a3)  : keep (setDeficit s a1 a2 a3) = keep s := rfl

theorem keep_shareApplied (s a1 a2)  : keep (shareApplied s a1 a2) = keep s := by
  unfold shareApplied
  repeat' first | rfl | split | refine (keep_foldl _ _ _ (fun _ _ => ?_)).trans ?_ | simp only [keep_mk, keep_eta, keep_writeEvent]

theorem keep_drrPick (s a1 a2 a3)  : keep (drrPick s a1 a2 a3).1 = keep s := by
  induction a3 generalizing s with
  | zero => rfl
  | succ n ih =>
    unfold drrPick
    dsimp only
    repeat' first | rfl | split | simp only [ih, keep_setActive, keep_setDeficit, keep_shareApplied]

theorem keep_execIdleLevel2Entry (s)  : Keeps s (execIdleLevel2Entry s) := by unfold execIdleLevel2Entry; (repeat' split) <;> first | exact keeps_fault _ _ | exact keeps_refused _ _  | exact keeps_next (by simp only [keep_mk, keep_eta])

theorem keep_execActivationHoldExpiry (a0 s)  : Keeps s (execActivationHoldExpiry a0 s) := keeps_next (by simp only [keep_mk, keep_eta, keep_holdExpired])

theorem keep_onAdmin (s a1 a2 a3 a4) (h3 : ∀ y0 y1 t, keep (a3 y0 y1 t) = keep t) (h4 : ∀ t, keep (a4 t) = keep t) : keep (onAdmin s a1 a2 a3 a4) = keep s := by unfold onAdmin; (repeat' split) <;> simp only [keep_mk, keep_eta, h3, h4, keep_reply]

theorem keep_eventRequest (s a1 a2 a3)  : keep (eventRequest s a1 a2 a3) = keep s := by unfold eventRequest; (repeat' split) <;> simp only [keep_mk, keep_eta, keep_reply, keep_setAssoc]

theorem keep_execAsyncEventRequest (a0 s)  : Keeps s (execAsyncEventRequest a0 s) := by
  unfold execAsyncEventRequest
  repeat' first | exact keeps_fault _ _ | refine (keep_onAdmin _ _ _ _ _  (fun _ _ _ => ?_) (fun _ => ?_)).trans ?_ | refine keeps_next ?_ | rfl | split | refine (keep_foldl _ _ _ (fun _ _ => ?_)).trans ?_ | simp only [keep_mk, keep_eta, keep_onAdmin, keep_eventRequest]

theorem keep_takeIo (s a1)  : keep (takeIo s a1) = keep s := by unfold takeIo; (repeat' split) <;> simp only [keep_mk, keep_eta, keep_takeMsg]

theorem keep_setChap (s a1 a2 a3)  : keep (setChap s a1 a2 a3) = keep s := by unfold setChap; (repeat' split) <;> simp only [keep_mk, keep_eta, keep_setAssoc]

theorem keep_authDone (s a1 a2)  : keep (authDone s a1 a2) = keep s := by unfold authDone; (repeat' split) <;> simp only [keep_mk, keep_eta, keep_setAssoc]

theorem keep_dropQueue (s a1 a2)  : keep (dropQueue s a1 a2) = keep s := by unfold dropQueue; (repeat' split) <;> simp only [keep_mk, keep_eta, keep_assocEnd, keep_qpDown]

theorem keep_authReceive (s a1 a2)  : keep (authReceive s a1 a2) = keep s := by unfold authReceive; grind [keep_mk, keep_eta, keep_takeIo, keep_reply, keep_takeFree, keep_setChap, keep_authDone, keep_dropQueue]

theorem keep_execAuthenticationReceive (a0 a1 s)  : Keeps s (execAuthenticationReceive a0 a1 s) := by unfold execAuthenticationReceive; (repeat' split) <;> first | exact keeps_fault _ _ | exact keeps_refused _ _  | exact keeps_next (by simp only [keep_mk, keep_eta, keep_authReceive])

theorem keep_connectReply (s a1 a2 a3 a4 a5)  : keep (connectReply s a1 a2 a3 a4 a5) = keep s := by unfold connectReply; simp only [keep_mk, keep_eta, keep_sendMsg, keep_recvReturn, keep_emit]

theorem keep_connectFail (s a1 a2 a3 a4)  : keep (connectFail s a1 a2 a3 a4) = keep s := by unfold connectFail; grind [keep_mk, keep_eta, keep_takeFree, keep_qpStop, keep_connectReply]

theorem keep_connectAdmin (s a1 a2 a3 a4)  : keep (connectAdmin s a1 a2 a3 a4) = keep s := by unfold connectAdmin; grind [keep_mk, keep_eta, keep_connectFail, keep_setQp, keep_setAssoc, keep_connectReply]

theorem keep_connectIo (s a1 a2 a3 a4)  : keep (connectIo s a1 a2 a3 a4) = keep s := by
  unfold connectIo
  repeat' first | rfl | split | refine (keep_foldl _ _ _ (fun _ _ => ?_)).trans ?_ | simp only [keep_mk, keep_eta, keep_connectFail, keep_setQp, keep_setAssoc, keep_connectReply]

theorem keep_connect (s a1 a2 a3)  : keep (connect s a1 a2 a3) = keep s := by unfold connect; grind [keep_mk, keep_eta, keep_connectFail, keep_connectAdmin, keep_connectIo]

theorem keep_execFabricsConnect (a0 a1 a2 s)  : Keeps s (execFabricsConnect a0 a1 a2 s) := by
  unfold execFabricsConnect
  repeat' first | exact keeps_fault _ _ | refine keep_onQp _ _ _  (fun _ => ?_) | refine keeps_next ?_ | rfl | split | refine (keep_foldl _ _ _ (fun _ _ => ?_)).trans ?_ | simp only [keep_mk, keep_eta, keep_connect]

theorem keep_capsule (s a1 a2 a3 a4)  : keep (capsule s a1 a2 a3 a4) = keep s := by
  unfold capsule
  repeat' first | rfl | split | simp only [keep_reply, keep_takeMsg, keep_refuseMsg, keep_countRefusal, keep_stopTenant, keep_admitCmd]

theorem keep_fnCommand (s a1 a2 a3)  : keep (fnCommand s a1 a2 a3) = keep s := by
  unfold fnCommand
  repeat' first | rfl | split | simp only [keep_reply, keep_countRefusal, keep_stopTenant, keep_admitCmd]
  all_goals (rename_i h; exact (keep_snd h).trans (keep_takeFree _))

theorem keep_hostCommand (s a1 a2)  : keep (hostCommand s a1 a2) = keep s := by unfold hostCommand; (repeat' split) <;> simp only [keep_mk, keep_eta, keep_capsule, keep_fnCommand]

theorem keep_identifyData (s a1 a2 a3 a4 a5)  : keep (identifyData s a1 a2 a3 a4 a5) = keep s := by unfold identifyData; grind [keep_mk, keep_eta, keep_reply, keep_takeFree]

theorem keep_propSet (s a1 a2 a3 a4 a5)  : keep (propSet s a1 a2 a3 a4 a5) = keep s := by
  unfold propSet
  repeat' first | rfl | split | refine (keep_foldl _ _ _ (fun _ _ => ?_)).trans ?_ | simp only [keep_mk, keep_eta, keep_reply, keep_setAssoc, keep_deleteIoQueues, keep_vcReset]

theorem keep_execPropertySet (a0 a1 a2 s)  : Keeps s (execPropertySet a0 a1 a2 s) := by
  unfold execPropertySet
  repeat' first | exact keeps_fault _ _ | refine (keep_onAdmin _ _ _ _ _  (fun _ _ _ => ?_) (fun _ => ?_)).trans ?_ | refine keeps_next ?_ | rfl | split | refine (keep_foldl _ _ _ (fun _ _ => ?_)).trans ?_ | simp only [keep_mk, keep_eta, keep_reply, keep_onAdmin, keep_propSet]

theorem keep_abortReply (s a1 a2 a3)  : keep (abortReply s a1 a2 a3) = keep s := by
  unfold abortReply
  repeat' first | rfl | split | refine (keep_foldl _ _ _ (fun _ _ => ?_)).trans ?_ | simp only [keep_mk, keep_eta, keep_reply, keep_setQp]

theorem keep_propGet (s a1 a2 a3 a4)  : keep (propGet s a1 a2 a3 a4) = keep s := by unfold propGet; (repeat' split) <;> simp only [keep_mk, keep_eta, keep_setAssoc, keep_reply, keep_takeFree]

theorem keep_hostLog (s a1 a2 a3 a4 a5)  : keep (hostLog s a1 a2 a3 a4 a5) = keep s := by unfold hostLog; grind [keep_mk, keep_eta, keep_reply, keep_takeFrees, keep_takeFree, keep_setAssoc]

theorem keep_execGetLogPage (a0 a1 a2 s)  : Keeps s (execGetLogPage a0 a1 a2 s) := by
  unfold execGetLogPage
  repeat' first | exact keeps_fault _ _ | refine (keep_onAdmin _ _ _ _ _  (fun _ _ _ => ?_) (fun _ => ?_)).trans ?_ | refine keeps_next ?_ | rfl | split | refine (keep_foldl _ _ _ (fun _ _ => ?_)).trans ?_ | simp only [keep_mk, keep_eta, keep_onAdmin, keep_hostLog]

theorem keep_authFailed (s a1 a2)  : keep (authFailed s a1 a2) = keep s := by unfold authFailed; simp only [keep_mk, keep_eta, keep_writeEvent, keep_rcAdd]

theorem keep_authLate (s a1 a2)  : keep (authLate s a1 a2) = keep s := by unfold authLate; (repeat' split) <;> simp only [keep_mk, keep_eta, keep_dropQueue, keep_authFailed]

theorem keep_execAuthTimeout (a0 a1 s)  : Keeps s (execAuthTimeout a0 a1 s) := keeps_next (by simp only [keep_mk, keep_eta, keep_authLate])

theorem keep_authSend (s a1 a2 a3)  : keep (authSend s a1 a2 a3) = keep s := by unfold authSend; (repeat' split) <;> simp only [keep_mk, keep_eta, keep_takeIo, keep_reply, keep_setChap, keep_authFailed, keep_dropQueue, keep_authDone]

theorem keep_execAuthenticationSend (a0 a1 a2 s)  : Keeps s (execAuthenticationSend a0 a1 a2 s) := by unfold execAuthenticationSend; (repeat' split) <;> first | exact keeps_fault _ _ | exact keeps_refused _ _  | exact keeps_next (by simp only [keep_mk, keep_eta, keep_authSend])

theorem keep_execWriteZeroes (a0 s)  : Keeps s (execWriteZeroes a0 s) := by
  unfold execWriteZeroes
  repeat' first | exact keeps_fault _ _ | refine (keep_atPoint _ _ _ _ _  (fun _ => ?_)).trans ?_ | refine keeps_next ?_ | rfl | split | refine (keep_foldl _ _ _ (fun _ _ => ?_)).trans ?_ | simp only [keep_mk, keep_eta, keep_atPoint, keep_hostCommand]

theorem keep_execNvmRead (a0 s)  : Keeps s (execNvmRead a0 s) := by
  unfold execNvmRead
  repeat' first | exact keeps_fault _ _ | refine (keep_atPoint _ _ _ _ _  (fun _ => ?_)).trans ?_ | refine keeps_next ?_ | rfl | split | refine (keep_foldl _ _ _ (fun _ _ => ?_)).trans ?_ | simp only [keep_mk, keep_eta, keep_atPoint, keep_hostCommand]

theorem keep_execKeepAlive (a0 s)  : Keeps s (execKeepAlive a0 s) := by
  unfold execKeepAlive
  repeat' first | exact keeps_fault _ _ | refine (keep_onAdmin _ _ _ _ _  (fun _ _ _ => ?_) (fun _ => ?_)).trans ?_ | refine keeps_next ?_ | rfl | split | refine (keep_foldl _ _ _ (fun _ _ => ?_)).trans ?_ | simp only [keep_mk, keep_eta, keep_onAdmin, keep_reply]

theorem keep_queuesDw0 (s a1)  : keep (queuesDw0 s a1).2 = keep s := by
  unfold queuesDw0
  repeat' first | rfl | split | refine (keep_foldl _ _ _ (fun _ _ => ?_)).trans ?_ | simp only [keep_mk, keep_eta, keep_takeFree]

theorem keep_featureGet (s a1 a2 a3)  : keep (featureGet s a1 a2 a3) = keep s := by unfold featureGet; grind [keep_mk, keep_eta, keep_takeFree, keep_reply, keep_queuesDw0]

theorem keep_execNvmCompare (a0 s)  : Keeps s (execNvmCompare a0 s) := by
  unfold execNvmCompare
  repeat' first | exact keeps_fault _ _ | refine (keep_atPoint _ _ _ _ _  (fun _ => ?_)).trans ?_ | refine keeps_next ?_ | rfl | split | refine (keep_foldl _ _ _ (fun _ _ => ?_)).trans ?_ | simp only [keep_mk, keep_eta, keep_atPoint, keep_hostCommand]

theorem keep_featureSet (s a1 a2 a3 a4 a5)  : keep (featureSet s a1 a2 a3 a4 a5) = keep s := by unfold featureSet; (repeat' split) <;> simp only [keep_mk, keep_eta, keep_reply, keep_queuesDw0, keep_setAssoc]

theorem keep_katoExpired (s a1)  : keep (katoExpired s a1) = keep s := by unfold katoExpired; (repeat' split) <;> simp only [keep_mk, keep_eta, keep_assocEnd, keep_writeEvent, keep_rcAdd]

theorem keep_execKeepAliveExpiry (a0 s)  : Keeps s (execKeepAliveExpiry a0 s) := keeps_next (by simp only [keep_mk, keep_eta, keep_katoExpired])

theorem keep_abortCommand (s a1 a2 a3 a4 a5)  : keep (abortCommand s a1 a2 a3 a4 a5) = keep s := by
  unfold abortCommand
  repeat' first | rfl | split | refine (keep_foldl _ _ _ (fun _ _ => ?_)).trans ?_ | simp only [keep_mk, keep_eta, keep_reply, keep_abortReply, keep_endHold, keep_setAssoc]

theorem keep_execDatasetManagement (a0 s)  : Keeps s (execDatasetManagement a0 s) := by
  unfold execDatasetManagement
  repeat' first | exact keeps_fault _ _ | refine (keep_atPoint _ _ _ _ _  (fun _ => ?_)).trans ?_ | refine keeps_next ?_ | rfl | split | refine (keep_foldl _ _ _ (fun _ _ => ?_)).trans ?_ | simp only [keep_mk, keep_eta, keep_atPoint, keep_hostCommand]

theorem keep_execNvmWrite (a0 s)  : Keeps s (execNvmWrite a0 s) := by
  unfold execNvmWrite
  repeat' first | exact keeps_fault _ _ | refine (keep_atPoint _ _ _ _ _  (fun _ => ?_)).trans ?_ | refine keeps_next ?_ | rfl | split | refine (keep_foldl _ _ _ (fun _ _ => ?_)).trans ?_ | simp only [keep_mk, keep_eta, keep_atPoint, keep_hostCommand]

theorem keep_execGetFeatures (a0 a1 s)  : Keeps s (execGetFeatures a0 a1 s) := by
  unfold execGetFeatures
  repeat' first | exact keeps_fault _ _ | refine (keep_onAdmin _ _ _ _ _  (fun _ _ _ => ?_) (fun _ => ?_)).trans ?_ | refine keeps_next ?_ | rfl | split | refine (keep_foldl _ _ _ (fun _ _ => ?_)).trans ?_ | simp only [keep_mk, keep_eta, keep_onAdmin, keep_featureGet]

theorem keep_execPropertyGet (a0 a1 s)  : Keeps s (execPropertyGet a0 a1 s) := by
  unfold execPropertyGet
  repeat' first | exact keeps_fault _ _ | refine (keep_onAdmin _ _ _ _ _  (fun _ _ _ => ?_) (fun _ => ?_)).trans ?_ | refine keeps_next ?_ | rfl | split | refine (keep_foldl _ _ _ (fun _ _ => ?_)).trans ?_ | simp only [keep_mk, keep_eta, keep_propGet, keep_takeIo, keep_reply, keep_onAdmin]

theorem keep_execAbort (a0 a1 a2 s)  : Keeps s (execAbort a0 a1 a2 s) := by
  unfold execAbort
  repeat' first | exact keeps_fault _ _ | refine (keep_onAdmin _ _ _ _ _  (fun _ _ _ => ?_) (fun _ => ?_)).trans ?_ | refine keeps_next ?_ | rfl | split | refine (keep_foldl _ _ _ (fun _ _ => ?_)).trans ?_ | simp only [keep_mk, keep_eta, keep_onAdmin, keep_abortCommand]

theorem keep_execSetFeatures (a0 a1 a2 s)  : Keeps s (execSetFeatures a0 a1 a2 s) := by
  unfold execSetFeatures
  repeat' first | exact keeps_fault _ _ | refine (keep_onAdmin _ _ _ _ _  (fun _ _ _ => ?_) (fun _ => ?_)).trans ?_ | refine keeps_next ?_ | rfl | split | refine (keep_foldl _ _ _ (fun _ _ => ?_)).trans ?_ | simp only [keep_mk, keep_eta, keep_onAdmin, keep_featureSet, keep_reply]

theorem keep_execIdentify (a0 a1 a2 s)  : Keeps s (execIdentify a0 a1 a2 s) := by
  unfold execIdentify
  repeat' first | exact keeps_fault _ _ | refine (keep_onAdmin _ _ _ _ _  (fun _ _ _ => ?_) (fun _ => ?_)).trans ?_ | refine keeps_next ?_ | rfl | split | refine (keep_foldl _ _ _ (fun _ _ => ?_)).trans ?_ | simp only [keep_mk, keep_eta, keep_onAdmin, keep_identifyData]

theorem keep_execNvmFlush (a0 s)  : Keeps s (execNvmFlush a0 s) := by
  unfold execNvmFlush
  repeat' first | exact keeps_fault _ _ | refine (keep_atPoint _ _ _ _ _  (fun _ => ?_)).trans ?_ | refine keeps_next ?_ | rfl | split | refine (keep_foldl _ _ _ (fun _ _ => ?_)).trans ?_ | simp only [keep_mk, keep_eta, keep_atPoint, keep_hostCommand]

theorem keep_onBell (a0 a1 s a3) (h3 : ∀ t, keep (a3 t) = keep t) : Keeps s (onBell a0 a1 s a3) := by
  unfold onBell
  repeat' first | exact keeps_fault _ _ | refine keep_onQp _ _ _  (fun _ => ?_) | refine keeps_next ?_ | rfl | split | refine (keep_foldl _ _ _ (fun _ _ => ?_)).trans ?_ | simp only [keep_mk, keep_eta, h3]

theorem keep_staleBell (s a1 a2)  : keep (staleBell s a1 a2) = keep s := by
  unfold staleBell
  repeat' first | rfl | split | refine (keep_foldl _ _ _ (fun _ _ => ?_)).trans ?_ | simp only [keep_mk, keep_eta, keep_tqStale, keep_rcAdd]

theorem keep_cqHeadBell (s a1 a2)  : keep (cqHeadBell s a1 a2) = keep s := by
  unfold cqHeadBell
  repeat' first | rfl | split | refine (keep_foldl _ _ _ (fun _ _ => ?_)).trans ?_ | simp only [keep_mk, keep_eta, keep_staleBell, keep_tqError, keep_cqDrain, keep_setTq]

theorem keep_execCqHeadDoorbell (a0 a1 s)  : Keeps s (execCqHeadDoorbell a0 a1 s) := by
  unfold execCqHeadDoorbell
  repeat' first | exact keeps_fault _ _ | refine keep_onBell _ _ _ _  (fun _ => ?_) | refine keeps_next ?_ | rfl | split | refine (keep_foldl _ _ _ (fun _ _ => ?_)).trans ?_ | simp only [keep_mk, keep_eta, keep_cqHeadBell, keep_takeMsg]

theorem keep_joinFetch (s a1)  : keep (joinFetch s a1) = keep s := by unfold joinFetch; (repeat' split) <;> simp only [keep_mk, keep_eta, keep_joinActive]

theorem keep_pushBell (s a1 a2 a3 a4 a5)  : keep (pushBell s a1 a2 a3 a4 a5) = keep s := by unfold pushBell; grind [keep_mk, keep_eta, keep_staleBell, keep_takeMsg, keep_refuseMsg, keep_countRefusal, keep_notePending, keep_tqError, keep_setTq, keep_replyD, keep_stopTenant, keep_admitCmd]

theorem keep_execPushDoorbell (a0 a1 a2 a3 a4 s)  : Keeps s (execPushDoorbell a0 a1 a2 a3 a4 s) := by
  unfold execPushDoorbell
  repeat' first | exact keeps_fault _ _ | refine keep_onBell _ _ _ _  (fun _ => ?_) | refine keeps_next ?_ | rfl | split | refine (keep_foldl _ _ _ (fun _ _ => ?_)).trans ?_ | simp only [keep_mk, keep_eta, keep_pushBell]

theorem keep_vdqFetch (s)  : keep (vdqFetch s) = keep s := by unfold vdqFetch; grind [keep_mk, keep_eta, keep_drrPick, keep_countRefusal, keep_stopTenant, keep_sendMsg, keep_setTq]

theorem keep_execVdqFetch (s)  : Keeps s (execVdqFetch s) := by unfold execVdqFetch; (repeat' split) <;> first | exact keeps_fault _ _ | exact keeps_refused _ _  | exact keeps_next (by simp only [keep_mk, keep_eta, keep_vdqFetch])

theorem keep_cqStalled (s a1)  : keep (cqStalled s a1) = keep s := by unfold cqStalled; (repeat' split) <;> simp only [keep_mk, keep_eta, keep_tqError]

theorem keep_admitEntries (s a1 a2)  : keep (admitEntries s a1 a2) = keep s := by
  induction a2 generalizing s with
  | nil => exact keep_setTq _ _ _
  | cons x l ih =>
    unfold admitEntries
    dsimp only
    repeat' first | rfl | split | simp only [ih, keep_reply, keep_setTq, keep_countRefusal, keep_stopTenant, keep_admitCmd, keep_setDeficit]

theorem keep_retryWaits (s a1)  : keep (retryWaits s a1) = keep s := by
  unfold retryWaits
  repeat' first | rfl | split | refine (keep_foldl _ _ _ (fun _ _ => ?_)).trans ?_ | simp only [keep_mk, keep_eta, keep_admitEntries]

theorem keep_sqTail (s a1 a2)  : keep (sqTail s a1 a2) = keep s := by
  unfold sqTail
  repeat' first | rfl | split | refine (keep_foldl _ _ _ (fun _ _ => ?_)).trans ?_ | simp only [keep_mk, keep_eta, keep_staleBell, keep_tqError, keep_joinFetch, keep_setTq]

theorem keep_vdqBind (s a1 a2 a3 a4)  : keep (vdqBind s a1 a2 a3 a4).2 = keep s := by unfold vdqBind; grind [keep_mk, keep_eta, keep_takeFree, keep_setTq]

theorem keep_execSqTailDoorbell (a0 a1 s)  : Keeps s (execSqTailDoorbell a0 a1 s) := by
  unfold execSqTailDoorbell
  repeat' first | exact keeps_fault _ _ | refine keep_onBell _ _ _ _  (fun _ => ?_) | refine keeps_next ?_ | rfl | split | refine (keep_foldl _ _ _ (fun _ _ => ?_)).trans ?_ | simp only [keep_mk, keep_eta, keep_sqTail, keep_takeMsg]

theorem keep_vdqCreate (s a1 a2 a3 a4)  : keep (vdqCreate s a1 a2 a3 a4) = keep s := by
  unfold vdqCreate
  repeat' first | rfl | split | refine (keep_foldl _ _ _ (fun _ _ => ?_)).trans ?_ | simp only [keep_mk, keep_eta, keep_reply, keep_vdqBind]

theorem keep_execVdqCreate (a0 a1 s)  : Keeps s (execVdqCreate a0 a1 s) := by
  unfold execVdqCreate
  repeat' first | exact keeps_fault _ _ | refine (keep_onAdmin _ _ _ _ _  (fun _ _ _ => ?_) (fun _ => ?_)).trans ?_ | refine keeps_next ?_ | rfl | split | refine (keep_foldl _ _ _ (fun _ _ => ?_)).trans ?_ | simp only [keep_mk, keep_eta, keep_onAdmin, keep_vdqCreate]

theorem keep_fetchArrived (s a1 a2 a3)  : keep (fetchArrived s a1 a2 a3) = keep s := by
  unfold fetchArrived
  repeat' first | rfl | split | refine (keep_foldl _ _ _ (fun _ _ => ?_)).trans ?_ | simp only [keep_mk, keep_eta, keep_tqStale, keep_rcAdd, keep_setTq, keep_joinFetch, keep_admitEntries]

theorem keep_notifyLate (s a1)  : keep (notifyLate s a1) = keep s := by
  unfold notifyLate
  repeat' first | rfl | split | refine (keep_foldl _ _ _ (fun _ _ => ?_)).trans ?_ | simp only [keep_mk, keep_eta, keep_setTq, keep_setQp, keep_sendMsg]

theorem keep_execNotifyTimerExpiry (a0 a1 s)  : Keeps s (execNotifyTimerExpiry a0 a1 s) := by
  unfold execNotifyTimerExpiry
  repeat' first | exact keeps_fault _ _ | refine keep_onQp _ _ _  (fun _ => ?_) | refine keeps_next ?_ | rfl | split | refine (keep_foldl _ _ _ (fun _ _ => ?_)).trans ?_ | simp only [keep_mk, keep_eta, keep_notifyLate]

theorem keep_vdqDelete (s a1 a2 a3)  : keep (vdqDelete s a1 a2 a3) = keep s := by unfold vdqDelete; (repeat' split) <;> simp only [keep_mk, keep_eta, keep_reply, keep_tqDelete]

theorem keep_execVdqFetchResponse (a0 a1 a2 a3 s)  : Keeps s (execVdqFetchResponse a0 a1 a2 a3 s) := by
  unfold execVdqFetchResponse
  repeat' first | exact keeps_fault _ _ | refine keep_onQp _ _ _  (fun _ => ?_) | refine keeps_next ?_ | rfl | split | refine (keep_foldl _ _ _ (fun _ _ => ?_)).trans ?_ | simp only [keep_mk, keep_eta, keep_fetchArrived]

theorem keep_reopen (s a1)  : keep (reopen s a1) = keep s := by unfold reopen; grind [keep_mk, keep_eta, keep_retryWaits, keep_setRt, keep_joinFetch]

theorem keep_execAdmissionReopen (a0 s)  : Keeps s (execAdmissionReopen a0 s) := by unfold execAdmissionReopen; (repeat' split) <;> first | exact keeps_fault _ _ | exact keeps_refused _ _  | exact keeps_next (by simp only [keep_mk, keep_eta, keep_reopen])

theorem keep_tqFree (s a1)  : keep (tqFree s a1) = keep s := by unfold tqFree; (repeat' split) <;> simp only [keep_mk, keep_eta, keep_setTq]

theorem keep_execCqStallExpiry (a0 a1 s)  : Keeps s (execCqStallExpiry a0 a1 s) := by
  unfold execCqStallExpiry
  repeat' first | exact keeps_fault _ _ | refine keep_onQp _ _ _  (fun _ => ?_) | refine keeps_next ?_ | rfl | split | refine (keep_foldl _ _ _ (fun _ _ => ?_)).trans ?_ | simp only [keep_mk, keep_eta, keep_cqStalled]

theorem keep_execVdqDelete (a0 a1 s)  : Keeps s (execVdqDelete a0 a1 s) := by
  unfold execVdqDelete
  repeat' first | exact keeps_fault _ _ | refine (keep_onAdmin _ _ _ _ _  (fun _ _ _ => ?_) (fun _ => ?_)).trans ?_ | refine keeps_next ?_ | rfl | split | refine (keep_foldl _ _ _ (fun _ _ => ?_)).trans ?_ | simp only [keep_mk, keep_eta, keep_onAdmin, keep_vdqDelete]

theorem keep_execTenantQueueFree (a0 a1 s)  : Keeps s (execTenantQueueFree a0 a1 s) := by
  unfold execTenantQueueFree
  repeat' first | exact keeps_fault _ _ | refine keep_onQp _ _ _  (fun _ => ?_) | refine keeps_next ?_ | rfl | split | refine (keep_foldl _ _ _ (fun _ _ => ?_)).trans ?_ | simp only [keep_mk, keep_eta, keep_tqFree]

theorem keep_rekeyEdits (s a1)  : keep (rekeyEdits s a1).2 = keep s := by
  refine keep_foldl_snd _ _ _ ?_
  intro p x
  exact keep_freshKey _

theorem keep_discNote (s)  : keep (discNote s) = keep s := rfl

theorem keep_vssQuiesce (s a1 a2)  : keep (vssQuiesce s a1 a2) = keep s := by
  unfold vssQuiesce
  repeat' first | rfl | split | refine (keep_foldl _ _ _ (fun _ _ => ?_)).trans ?_ | refine (keep_assocEndBy _ _ _ _  (fun _ _ => ?_)).trans ?_ | simp only [keep_mk, keep_eta, keep_setRt, keep_assocEndBy, keep_abortCtx, keep_letGo]

theorem keep_shareChange (s a1 a2 a3)  : keep (shareChange s a1 a2 a3) = keep s := by
  unfold shareChange
  repeat' first | rfl | split | refine (keep_foldl _ _ _ (fun _ _ => ?_)).trans ?_ | simp only [keep_mk, keep_eta, keep_setTokens, keep_writeEvent, keep_stopTenant, keep_reopen]

theorem keep_catFollow (r0 s a2)  : keep (catFollow r0 s a2) = keep s := by
  unfold catFollow
  have h1 : ∀ (l : List (Nat × Qp)) (u : State), keep (l.foldl (fun s x => qpDown s x.1 9) u) = keep u :=
    fun l u => keep_foldl _ _ _ (fun _ _ => keep_qpDown _ _ _)
  dsimp only
  repeat' first | rfl | split | simp only [keep_discNote, keep_setTokens, keep_shareChange, keep_vssQuiesce, keep_setRt, keep_endAssocs, keep_noteNsChange, h1] | refine (keep_journalled _ _ _ (fun _ => rfl)).trans ?_

theorem keep_catFollowAll (r0 s a2)  : keep (catFollowAll r0 s a2) = keep s := by
  unfold catFollowAll
  repeat' first | rfl | split | refine (keep_foldl _ _ _ (fun _ _ => ?_)).trans ?_ | simp only [keep_mk, keep_eta, keep_catFollow]

theorem keep_catOwn (s a1 a2 a3)  : keep (catOwn s a1 a2 a3) = keep s := by unfold catOwn; simp only [keep_mk, keep_eta, keep_catFollowAll, keep_catRecord]

theorem keep_sanitizeQuiesced (s a1)  : keep (sanitizeQuiesced s a1) = keep s := by unfold sanitizeQuiesced; grind [keep_mk, keep_eta, keep_rekeyEdits, keep_writeEvent, keep_catOwn]

theorem keep_freshNonce (s)  : keep (freshNonce s).2 = keep s := rfl

theorem keep_mgmtChallenge (s a1 a2)  : keep (mgmtChallenge s a1 a2) = keep s := by unfold mgmtChallenge; grind [keep_mk, keep_eta, keep_freshNonce, keep_setAssoc, keep_reply]

theorem keep_execManagementChallenge (a0 s)  : Keeps s (execManagementChallenge a0 s) := by
  unfold execManagementChallenge
  repeat' first | exact keeps_fault _ _ | refine (keep_onAdmin _ _ _ _ _  (fun _ _ _ => ?_) (fun _ => ?_)).trans ?_ | refine keeps_next ?_ | rfl | split | refine (keep_foldl _ _ _ (fun _ _ => ?_)).trans ?_ | simp only [keep_mk, keep_eta, keep_onAdmin, keep_mgmtChallenge]

theorem keep_copyGone (s a1)  : keep (copyGone s a1) = keep s := by unfold copyGone; (repeat' split) <;> simp only [keep_mk, keep_eta, keep_vssQuiesce]

theorem keep_catUnpend (s a1)  : keep (catUnpend s a1) = keep s := rfl

theorem keep_catLate (s a1)  : keep (catLate s a1) = keep s := by unfold catLate; (repeat' split) <;> simp only [keep_mk, keep_eta, keep_catUnpend, keep_reply]

theorem keep_execCatalogPartnerTimeout (a0 s)  : Keeps s (execCatalogPartnerTimeout a0 s) := keeps_next (by simp only [keep_mk, keep_eta, keep_catLate])

theorem keep_vcResetCommand (s a1 a2 a3)  : keep (vcResetCommand s a1 a2 a3) = keep s := by unfold vcResetCommand; (repeat' split) <;> simp only [keep_mk, keep_eta, keep_reply, keep_vcReset]

theorem keep_execVirtualControllerReset (a0 a1 s)  : Keeps s (execVirtualControllerReset a0 a1 s) := by
  unfold execVirtualControllerReset
  repeat' first | exact keeps_fault _ _ | refine (keep_asManager _ _ _ _  (fun _ => ?_)).trans ?_ | refine keeps_next ?_ | rfl | split | refine (keep_foldl _ _ _ (fun _ _ => ?_)).trans ?_ | simp only [keep_mk, keep_eta, keep_asManager, keep_vcResetCommand]

theorem keep_catCommand (s a1 a2 a3 a4 a5)  : keep (catCommand s a1 a2 a3 a4 a5) = keep s := by unfold catCommand; (repeat' split) <;> simp only [keep_mk, keep_eta, keep_catChange, keep_catFollowAll]

theorem keep_vssCreate (s a1 a2)  : keep (vssCreate s a1 a2) = keep s := by
  unfold vssCreate
  repeat' first | rfl | split | refine (keep_foldl _ _ _ (fun _ _ => ?_)).trans ?_ | simp only [keep_mk, keep_eta, keep_reply, keep_catCommand]

theorem keep_vssRemove (s a1 a2)  : keep (vssRemove s a1 a2) = keep s := by unfold vssRemove; (repeat' split) <;> simp only [keep_mk, keep_eta, keep_reply, keep_catCommand]

theorem keep_formatNvm (s a1 a2 a3 a4)  : keep (formatNvm s a1 a2 a3 a4) = keep s := by
  unfold formatNvm
  repeat' first | rfl | split | refine (keep_foldl _ _ _ (fun _ _ => ?_)).trans ?_ | simp only [keep_mk, keep_eta, keep_reply, keep_catCommand]

theorem keep_tqSave (s a1 a2 a3 a4)  : keep (tqSave s a1 a2 a3 a4) = keep s := by
  unfold tqSave
  repeat' first | rfl | split | refine (keep_foldl _ _ _ (fun _ _ => ?_)).trans ?_ | simp only [keep_mk, keep_eta, keep_reply, keep_tqDelete]

theorem keep_execTenantQueueSave (a0 a1 a2 a3 s)  : Keeps s (execTenantQueueSave a0 a1 a2 a3 s) := by
  unfold execTenantQueueSave
  repeat' first | exact keeps_fault _ _ | refine (keep_asManager _ _ _ _  (fun _ => ?_)).trans ?_ | refine keeps_next ?_ | rfl | split | refine (keep_foldl _ _ _ (fun _ _ => ?_)).trans ?_ | simp only [keep_mk, keep_eta, keep_asManager, keep_tqSave]

theorem keep_newChunk (s a1 a2)  : keep (newChunk s a1 a2) = keep s := rfl

theorem keep_allocChunks (s a1 a2 a3 a4 a5)  (t : State) : (allocChunks s a1 a2 a3 a4 a5) = some t → keep t = keep s := by
  intro e
  induction a5 generalizing s t with
  | nil => cases e; rfl
  | cons x l ih =>
    unfold allocChunks at e
    dsimp only at e
    split at e
    · split at e
      · exact (ih _ _ e).trans (keep_newChunk _ _ _)
      · cases e
    · split at e
      · exact (ih _ _ e).trans (keep_newChunk _ _ _)
      · cases e

theorem keep_tqFreezeLate (s a1)  : keep (tqFreezeLate s a1) = keep s := by
  unfold tqFreezeLate
  repeat' first | rfl | split | refine (keep_foldl _ _ _ (fun _ _ => ?_)).trans ?_ | simp only [keep_mk, keep_eta, keep_reply, keep_writeEvent, keep_setTq]

theorem keep_nsDelete (s a1 a2)  : keep (nsDelete s a1 a2) = keep s := by unfold nsDelete; (repeat' split) <;> simp only [keep_mk, keep_eta, keep_reply, keep_catCommand]

theorem keep_execNamespaceDelete (a0 a1 s)  : Keeps s (execNamespaceDelete a0 a1 s) := by
  unfold execNamespaceDelete
  repeat' first | exact keeps_fault _ _ | refine (keep_asManager _ _ _ _  (fun _ => ?_)).trans ?_ | refine keeps_next ?_ | rfl | split | refine (keep_foldl _ _ _ (fun _ _ => ?_)).trans ?_ | simp only [keep_mk, keep_eta, keep_asManager, keep_nsDelete]

theorem keep_hostSet (s a1 a2)  : keep (hostSet s a1 a2) = keep s := by
  unfold hostSet
  repeat' first | rfl | split | refine (keep_foldl _ _ _ (fun _ _ => ?_)).trans ?_ | simp only [keep_mk, keep_eta, keep_reply, keep_catCommand]

theorem keep_nsCreate (s a1 a2)  : keep (nsCreate s a1 a2) = keep s := by
  unfold nsCreate
  repeat' first | rfl | split | refine (keep_foldl _ _ _ (fun _ _ => ?_)).trans ?_ | refine (keep_allocChunks _ _ _ _ _ _ _ (by assumption)).trans ?_ | simp only [keep_mk, keep_eta, keep_reply, keep_tdmSend, keep_createBegin]

theorem keep_execNamespaceCreate (a0 a1 s)  : Keeps s (execNamespaceCreate a0 a1 s) := by
  unfold execNamespaceCreate
  repeat' first | exact keeps_fault _ _ | refine (keep_asManager _ _ _ _  (fun _ => ?_)).trans ?_ | refine keeps_next ?_ | rfl | split | refine (keep_foldl _ _ _ (fun _ _ => ?_)).trans ?_ | simp only [keep_mk, keep_eta, keep_asManager, keep_nsCreate]

theorem keep_catalogRead (s a1 a2 a3 a4)  : keep (catalogRead s a1 a2 a3 a4) = keep s := by unfold catalogRead; grind [keep_mk, keep_eta, keep_reply, keep_takeFree]

theorem keep_execCatalogRead (a0 a1 a2 a3 s)  : Keeps s (execCatalogRead a0 a1 a2 a3 s) := by
  unfold execCatalogRead
  repeat' first | exact keeps_fault _ _ | refine (keep_asManager _ _ _ _  (fun _ => ?_)).trans ?_ | refine keeps_next ?_ | rfl | split | refine (keep_foldl _ _ _ (fun _ _ => ?_)).trans ?_ | simp only [keep_mk, keep_eta, keep_asManager, keep_catalogRead]

theorem keep_sanitize (s a1 a2 a3)  : keep (sanitize s a1 a2 a3) = keep s := by
  unfold sanitize
  repeat' first | rfl | split | refine (keep_foldl _ _ _ (fun _ _ => ?_)).trans ?_ | simp only [keep_mk, keep_eta, keep_reply, keep_catCommand]

theorem keep_formatEnd (s a1 a2 a3)  : keep (formatEnd s a1 a2 a3) = keep s := by unfold formatEnd; simp only [keep_mk, keep_eta, keep_writeEvent, keep_catOwn]

theorem keep_formatChunk (s a1 a2 a3)  : keep (formatChunk s a1 a2 a3) = keep s := by unfold formatChunk; grind [keep_mk, keep_eta, keep_formatEnd, keep_catOwn]

theorem keep_sanitizeChunk (s a1 a2 a3 a4 a5)  : keep (sanitizeChunk s a1 a2 a3 a4 a5) = keep s := by unfold sanitizeChunk; grind [keep_mk, keep_eta, keep_writeEvent, keep_catOwn]

theorem keep_chunkErased (s a1 a2 a3)  : keep (chunkErased s a1 a2 a3) = keep s := by unfold chunkErased; (repeat' split) <;> simp only [keep_mk, keep_eta, keep_formatChunk, keep_sanitizeChunk]

theorem keep_execSanitizeChunkErased (a0 a1 a2 s)  : Keeps s (execSanitizeChunkErased a0 a1 a2 s) := keeps_next (by simp only [keep_mk, keep_eta, keep_chunkErased])

theorem keep_leaveDlog (s a1)  : keep (leaveDlog s a1) = keep s := rfl

theorem keep_dlogControl (s a1 a2 a3 a4)  : keep (dlogControl s a1 a2 a3 a4) = keep s := by
  unfold dlogControl
  repeat' first | rfl | split | refine (keep_foldl _ _ _ (fun _ _ => ?_)).trans ?_ | simp only [keep_mk, keep_eta, keep_reply, keep_leaveDlog, keep_dlogStop, keep_setDlog, keep_dlogStart, keep_setQp]

theorem keep_execTqFreezeTimeout (a0 a1 s)  : Keeps s (execTqFreezeTimeout a0 a1 s) := by
  unfold execTqFreezeTimeout
  repeat' first | exact keeps_fault _ _ | refine keep_onQp _ _ _  (fun _ => ?_) | refine keeps_next ?_ | rfl | split | refine (keep_foldl _ _ _ (fun _ _ => ?_)).trans ?_ | simp only [keep_mk, keep_eta, keep_tqFreezeLate]

theorem keep_tqFrozen (s a1)  : keep (tqFrozen s a1) = keep s := by
  unfold tqFrozen
  repeat' first | rfl | split | refine (keep_foldl _ _ _ (fun _ _ => ?_)).trans ?_ | simp only [keep_mk, keep_eta, keep_reply, keep_setTq]

theorem keep_vssResetDone (s a1)  : keep (vssResetDone s a1) = keep s := by unfold vssResetDone; (repeat' split) <;> simp only [keep_mk, keep_eta, keep_catOwn]

theorem keep_mgmtLate (s a1)  : keep (mgmtLate s a1) = keep s := by unfold mgmtLate; (repeat' split) <;> simp only [keep_mk, keep_eta, keep_assocEnd]

theorem keep_execMgmtAuthTimeout (a0 s)  : Keeps s (execMgmtAuthTimeout a0 s) := keeps_next (by simp only [keep_mk, keep_eta, keep_mgmtLate])

theorem keep_execSanitizeQuiesced (a0 s)  : Keeps s (execSanitizeQuiesced a0 s) := keeps_next (by simp only [keep_mk, keep_eta, keep_sanitizeQuiesced])

theorem keep_formatQuiesced (s a1)  : keep (formatQuiesced s a1) = keep s := by unfold formatQuiesced; grind [keep_mk, keep_eta, keep_rekeyEdits, keep_catOwn, keep_formatEnd]

theorem keep_mergeCounter (s a1)  : keep (mergeCounter s a1) = keep s := rfl

end Sys2Proof.Machine
end

