-- ==== Sys2Proof/Laws/Keep6.lean ====
section
/-! SUPPORT. One lemma per operation of the model: it leaves the queue, TRS_BUF, the NOR, the field lock and the SVN bank as they
were (part 7 of 9; the operations that do touch one of them are in Laws/Grow.lean). -/

namespace Sys2Proof.Machine

set_option linter.unusedSimpArgs false
set_option linter.unusedVariables false

theorem keep_takeCopy (s a1)  : keep (takeCopy s a1) = keep s := by
  unfold takeCopy
  dsimp only
  have h1 : ∀ (l : List CatEdit) (u : State), keep (l.foldl catEdit u) = keep u := fun l u => keep_foldl _ _ _ (fun _ _ => keep_catEdit _ _)
  have h2 : ∀ (l : List CatEdit) (u : State), keep (l.foldl copyGone u) = keep u := fun l u => keep_foldl _ _ _ (fun _ _ => keep_copyGone _ _)
  refine (keep_foldl _ _ _ (fun _ _ => keep_mergeCounter _ _)).trans ((keep_catFollowAll _ _ _).trans ?_)
  simp only [keep_mk, keep_eta, h1, h2]

theorem keep_pairAfter (s a1)  : keep (pairAfter s a1) = keep s := by unfold pairAfter; (repeat' split) <;> simp only [keep_mk, keep_eta, keep_degrade, keep_setPair]

theorem keep_compareDone (s a1)  : keep (compareDone s a1) = keep s := by
  unfold compareDone
  dsimp only
  refine (keep_pairAfter _ _).trans ((keep_pairAfter _ _).trans ?_)
  simp only [keep_mk, keep_eta]
  split
  · rfl
  · split
    · simp only [keep_writeEvent]
    · split <;> simp only [keep_writeEvent, keep_takeCopy]

theorem keep_catEcho (s a1)  : keep (catEcho s a1) = keep s := by unfold catEcho; (repeat' split) <;> simp only [keep_mk, keep_eta, keep_catDone, keep_catUnpend]

theorem keep_execHostEntrySet (a0 a1 s)  : Keeps s (execHostEntrySet a0 a1 s) := by
  unfold execHostEntrySet
  repeat' first | exact keeps_fault _ _ | refine (keep_asManager _ _ _ _  (fun _ => ?_)).trans ?_ | refine keeps_next ?_ | rfl | split | refine (keep_foldl _ _ _ (fun _ _ => ?_)).trans ?_ | simp only [keep_mk, keep_eta, keep_asManager, keep_hostSet]

theorem keep_vssReset (s a1 a2)  : keep (vssReset s a1 a2) = keep s := by unfold vssReset; (repeat' split) <;> simp only [keep_mk, keep_eta, keep_reply, keep_catCommand]

theorem keep_dlogHarvestCommand (s a1 a2 a3 a4)  : keep (dlogHarvestCommand s a1 a2 a3 a4) = keep s := by
  unfold dlogHarvestCommand
  split
  · exact keep_reply _ _ _ _ _
  · refine (keep_reply _ _ _ _ _).trans (keep_foldl_snd _ _ _ ?_)
    intro p x
    exact keep_dlogTake _ _ _ _

theorem keep_checkProof (s a1 a2 a3)  : keep (checkProof s a1 a2 a3) = keep s := rfl

theorem keep_mgmtProve (s a1 a2 a3 a4 a5 a6)  : keep (mgmtProve s a1 a2 a3 a4 a5 a6) = keep s := by
  unfold mgmtProve
  repeat' first | rfl | split | refine (keep_foldl _ _ _ (fun _ _ => ?_)).trans ?_ | simp only [keep_mk, keep_eta, keep_checkProof, keep_reply, keep_setAssoc, keep_writeEvent, keep_assocEnd]

theorem keep_execManagementProve (a0 a1 a2 a3 s)  : Keeps s (execManagementProve a0 a1 a2 a3 s) := by
  unfold execManagementProve
  repeat' first | exact keeps_fault _ _ | refine (keep_onAdmin _ _ _ _ _  (fun _ _ _ => ?_) (fun _ => ?_)).trans ?_ | refine keeps_next ?_ | rfl | split | refine (keep_foldl _ _ _ (fun _ _ => ?_)).trans ?_ | simp only [keep_mk, keep_eta, keep_onAdmin, keep_mgmtProve, keep_reply]

theorem keep_execSanitize (a0 a1 s)  : Keeps s (execSanitize a0 a1 s) := by
  unfold execSanitize
  repeat' first | exact keeps_fault _ _ | refine (keep_onAdmin _ _ _ _ _  (fun _ _ _ => ?_) (fun _ => ?_)).trans ?_ | refine keeps_next ?_ | rfl | split | refine (keep_foldl _ _ _ (fun _ _ => ?_)).trans ?_ | simp only [keep_mk, keep_eta, keep_onAdmin, keep_sanitize]

theorem keep_nsAttach (s a1 a2 a3 a4)  : keep (nsAttach s a1 a2 a3 a4) = keep s := by unfold nsAttach; (repeat' split) <;> simp only [keep_mk, keep_eta, keep_reply, keep_catCommand]

theorem keep_vssRemoveDone (s a1)  : keep (vssRemoveDone s a1) = keep s := by unfold vssRemoveDone; (repeat' split) <;> simp only [keep_mk, keep_eta, keep_catOwn]

theorem keep_execVssResetDone (a0 s)  : Keeps s (execVssResetDone a0 s) := keeps_next (by simp only [keep_mk, keep_eta, keep_vssResetDone])

theorem keep_execNamespaceAttach (a0 a1 a2 s)  : Keeps s (execNamespaceAttach a0 a1 a2 s) := by
  unfold execNamespaceAttach
  repeat' first | exact keeps_fault _ _ | refine (keep_asManager _ _ _ _  (fun _ => ?_)).trans ?_ | refine keeps_next ?_ | rfl | split | refine (keep_foldl _ _ _ (fun _ _ => ?_)).trans ?_ | simp only [keep_mk, keep_eta, keep_asManager, keep_nsAttach]

theorem keep_execVssCreate (a0 a1 s)  : Keeps s (execVssCreate a0 a1 s) := by
  unfold execVssCreate
  repeat' first | exact keeps_fault _ _ | refine (keep_asManager _ _ _ _  (fun _ => ?_)).trans ?_ | refine keeps_next ?_ | rfl | split | refine (keep_foldl _ _ _ (fun _ _ => ?_)).trans ?_ | simp only [keep_mk, keep_eta, keep_asManager, keep_vssCreate]

theorem keep_tqRestored (s a1 a2 a3)  : keep (tqRestored s a1 a2 a3) = keep s := by
  unfold tqRestored
  repeat' first | rfl | split | refine (keep_foldl _ _ _ (fun _ _ => ?_)).trans ?_ | simp only [keep_mk, keep_eta, keep_reply, keep_vdqBind, keep_setTq, keep_joinFetch, keep_cqDrain]

theorem keep_tqRestore (s a1 a2 a3 a4)  : keep (tqRestore s a1 a2 a3 a4) = keep s := by
  unfold tqRestore
  repeat' first | rfl | split | refine (keep_foldl _ _ _ (fun _ _ => ?_)).trans ?_ | simp only [keep_mk, keep_eta, keep_reply, keep_tqRestored]

theorem keep_execVssRemove (a0 a1 s)  : Keeps s (execVssRemove a0 a1 s) := by
  unfold execVssRemove
  repeat' first | exact keeps_fault _ _ | refine (keep_asManager _ _ _ _  (fun _ => ?_)).trans ?_ | refine keeps_next ?_ | rfl | split | refine (keep_foldl _ _ _ (fun _ _ => ?_)).trans ?_ | simp only [keep_mk, keep_eta, keep_asManager, keep_vssRemove]

theorem keep_turnedAway (s a1)  : keep (turnedAway s a1) = keep s := by
  unfold turnedAway
  have h1 : ∀ (l : List CatEdit) (u : State), keep (l.foldl (fun s e => match e with
    | .ns n (some r) => if (nsOf s n).isNone then dropChunks s r else s
    | _ => s) u) = keep u := fun l u => keep_foldl _ _ _ (fun _ _ => by
      split
      · split
        · exact keep_dropChunks _ _
        · rfl
      · rfl)
  dsimp only
  split
  · exact (keep_reply _ _ _ _ _).trans (h1 _ _)
  · exact h1 _ _

theorem keep_catArrive (s a1 a2 a3)  : keep (catArrive s a1 a2 a3) = keep s := by unfold catArrive; (repeat' split) <;> simp only [keep_mk, keep_eta, keep_catFollowAll, keep_catApply, keep_tdmSend, keep_turnedAway, keep_catUnpend, keep_catDone]

theorem keep_execCatalogChangeReceive (a0 a1 a2 s)  : Keeps s (execCatalogChangeReceive a0 a1 a2 s) := by unfold execCatalogChangeReceive; (repeat' split) <;> first | exact keeps_fault _ _ | exact keeps_refused _ _  | exact keeps_next (by simp only [keep_mk, keep_eta, keep_catArrive])

theorem keep_memberSet (s a1 a2)  : keep (memberSet s a1 a2) = keep s := by
  unfold memberSet
  repeat' first | rfl | split | refine (keep_foldl _ _ _ (fun _ _ => ?_)).trans ?_ | simp only [keep_mk, keep_eta, keep_reply, keep_catCommand]

theorem keep_execFederationMemberSet (a0 a1 s)  : Keeps s (execFederationMemberSet a0 a1 s) := by
  unfold execFederationMemberSet
  repeat' first | exact keeps_fault _ _ | refine (keep_asManager _ _ _ _  (fun _ => ?_)).trans ?_ | refine keeps_next ?_ | rfl | split | refine (keep_foldl _ _ _ (fun _ _ => ?_)).trans ?_ | simp only [keep_mk, keep_eta, keep_asManager, keep_memberSet]

theorem keep_execFormatNvm (a0 a1 a2 s)  : Keeps s (execFormatNvm a0 a1 a2 s) := by
  unfold execFormatNvm
  repeat' first | exact keeps_fault _ _ | refine (keep_onAdmin _ _ _ _ _  (fun _ _ _ => ?_) (fun _ => ?_)).trans ?_ | refine keeps_next ?_ | rfl | split | refine (keep_foldl _ _ _ (fun _ _ => ?_)).trans ?_ | simp only [keep_mk, keep_eta, keep_onAdmin, keep_formatNvm]

theorem keep_execFormatNvmQuiesced (a0 s)  : Keeps s (execFormatNvmQuiesced a0 s) := keeps_next (by simp only [keep_mk, keep_eta, keep_formatQuiesced])

theorem keep_vssShare (s a1 a2)  : keep (vssShare s a1 a2) = keep s := by
  unfold vssShare
  repeat' first | rfl | split | refine (keep_foldl _ _ _ (fun _ _ => ?_)).trans ?_ | simp only [keep_mk, keep_eta, keep_reply, keep_catCommand]

theorem keep_execNamespaceDetach (a0 a1 a2 s)  : Keeps s (execNamespaceDetach a0 a1 a2 s) := by
  unfold execNamespaceDetach
  repeat' first | exact keeps_fault _ _ | refine (keep_asManager _ _ _ _  (fun _ => ?_)).trans ?_ | refine keeps_next ?_ | rfl | split | refine (keep_foldl _ _ _ (fun _ _ => ?_)).trans ?_ | simp only [keep_mk, keep_eta, keep_asManager, keep_nsAttach]

theorem keep_tqThaw (s a1 a2)  : keep (tqThaw s a1 a2) = keep s := by unfold tqThaw; (repeat' split) <;> simp only [keep_mk, keep_eta, keep_reply, keep_endFreeze, keep_setTq, keep_joinFetch]

theorem keep_execTqFreezeComplete (a0 a1 s)  : Keeps s (execTqFreezeComplete a0 a1 s) := by
  unfold execTqFreezeComplete
  repeat' first | exact keeps_fault _ _ | refine keep_onQp _ _ _  (fun _ => ?_) | refine keeps_next ?_ | rfl | split | refine (keep_foldl _ _ _ (fun _ _ => ?_)).trans ?_ | simp only [keep_mk, keep_eta, keep_tqFrozen]

theorem keep_tqFreeze (s a1 a2 a3)  : keep (tqFreeze s a1 a2 a3) = keep s := by
  unfold tqFreeze
  repeat' first | rfl | split | refine (keep_foldl _ _ _ (fun _ _ => ?_)).trans ?_ | simp only [keep_mk, keep_eta, keep_reply, keep_setTq]

theorem keep_execDirtyLogHarvest (a0 a1 a2 a3 s)  : Keeps s (execDirtyLogHarvest a0 a1 a2 a3 s) := by
  unfold execDirtyLogHarvest
  repeat' first | exact keeps_fault _ _ | refine (keep_asManager _ _ _ _  (fun _ => ?_)).trans ?_ | refine keeps_next ?_ | rfl | split | refine (keep_foldl _ _ _ (fun _ _ => ?_)).trans ?_ | simp only [keep_mk, keep_eta, keep_asManager, keep_dlogHarvestCommand]

theorem keep_execTenantQueueFreeze (a0 a1 a2 s)  : Keeps s (execTenantQueueFreeze a0 a1 a2 s) := by
  unfold execTenantQueueFreeze
  repeat' first | exact keeps_fault _ _ | refine (keep_asManager _ _ _ _  (fun _ => ?_)).trans ?_ | refine keeps_next ?_ | rfl | split | refine (keep_foldl _ _ _ (fun _ _ => ?_)).trans ?_ | simp only [keep_mk, keep_eta, keep_asManager, keep_tqFreeze]

theorem keep_execVssChangeShare (a0 a1 s)  : Keeps s (execVssChangeShare a0 a1 s) := by
  unfold execVssChangeShare
  repeat' first | exact keeps_fault _ _ | refine (keep_asManager _ _ _ _  (fun _ => ?_)).trans ?_ | refine keeps_next ?_ | rfl | split | refine (keep_foldl _ _ _ (fun _ _ => ?_)).trans ?_ | simp only [keep_mk, keep_eta, keep_asManager, keep_vssShare]

theorem keep_execDirtyLogControl (a0 a1 a2 a3 a4 s)  : Keeps s (execDirtyLogControl a0 a1 a2 a3 a4 s) := by
  unfold execDirtyLogControl
  repeat' first | exact keeps_fault _ _ | refine (keep_asManager _ _ _ _  (fun _ => ?_)).trans ?_ | refine keeps_next ?_ | rfl | split | refine (keep_foldl _ _ _ (fun _ _ => ?_)).trans ?_ | simp only [keep_mk, keep_eta, keep_asManager, keep_dlogControl]

theorem keep_execTenantQueueRestore (a0 a1 a2 a3 s)  : Keeps s (execTenantQueueRestore a0 a1 a2 a3 s) := by
  unfold execTenantQueueRestore
  repeat' first | exact keeps_fault _ _ | refine (keep_asManager _ _ _ _  (fun _ => ?_)).trans ?_ | refine keeps_next ?_ | rfl | split | refine (keep_foldl _ _ _ (fun _ _ => ?_)).trans ?_ | simp only [keep_mk, keep_eta, keep_asManager, keep_tqRestore]

theorem keep_execCatalogEchoReceive (a0 s)  : Keeps s (execCatalogEchoReceive a0 s) := keeps_next (by simp only [keep_mk, keep_eta, keep_catEcho])

theorem keep_execTenantQueueThaw (a0 a1 s)  : Keeps s (execTenantQueueThaw a0 a1 s) := by
  unfold execTenantQueueThaw
  repeat' first | exact keeps_fault _ _ | refine (keep_asManager _ _ _ _  (fun _ => ?_)).trans ?_ | refine keeps_next ?_ | rfl | split | refine (keep_foldl _ _ _ (fun _ _ => ?_)).trans ?_ | simp only [keep_mk, keep_eta, keep_asManager, keep_tqThaw]

theorem keep_execVssReset (a0 a1 s)  : Keeps s (execVssReset a0 a1 s) := by
  unfold execVssReset
  repeat' first | exact keeps_fault _ _ | refine (keep_asManager _ _ _ _  (fun _ => ?_)).trans ?_ | refine keeps_next ?_ | rfl | split | refine (keep_foldl _ _ _ (fun _ _ => ?_)).trans ?_ | simp only [keep_mk, keep_eta, keep_asManager, keep_vssReset]

theorem keep_execCatalogCopyDone (a0 s)  : Keeps s (execCatalogCopyDone a0 s) := by unfold execCatalogCopyDone; (repeat' split) <;> first | exact keeps_fault _ _ | exact keeps_refused _ _  | exact keeps_next (by simp only [keep_mk, keep_eta, keep_compareDone])

theorem keep_execVssRemoveDone (a0 s)  : Keeps s (execVssRemoveDone a0 s) := keeps_next (by simp only [keep_mk, keep_eta, keep_vssRemoveDone])

theorem keep_ingPlace (s a1 a2 a3 a4)  (t : State) : (ingPlace s a1 a2 a3 a4) = some t → keep t = keep s := by
  intro e
  unfold ingPlace at e
  dsimp only at e
  split at e
  · cases e
  · split at e
    · cases e
      simp only [keep_rcAdd, keep_setIng, keep_ovfMove, keep_mk, keep_eta]
    · split at e
      · cases e
      · rw [Option.map_eq_some_iff] at e
        obtain ⟨u, hu, rfl⟩ := e
        exact (keep_setIng _ _ _ _).trans (keep_cellAlloc _ _ _ _ hu)

theorem keep_onPrio (a0 a1 s a3) (h3 : ∀ t, keep (a3 t) = keep t) : Keeps s (onPrio a0 a1 s a3) := by unfold onPrio; (repeat' split) <;> first | exact keeps_fault _ _ | exact keeps_refused _ _  | exact keeps_next (by simp only [keep_mk, keep_eta, h3])

theorem keep_mgmtFrame (s a1)  : keep (mgmtFrame s a1) = keep s := by unfold mgmtFrame; (repeat' split) <;> simp only [keep_mk, keep_eta, keep_emit]

theorem keep_onSub (a0 s a2) (h2 : ∀ t, keep (a2 t) = keep t) : Keeps s (onSub a0 s a2) := by unfold onSub; (repeat' split) <;> first | exact keeps_fault _ _ | exact keeps_refused _ _  | exact keeps_next (by simp only [keep_mk, keep_eta, h2])

theorem keep_dropFrame (s a1 a2)  : keep (dropFrame s a1 a2) = keep s := by unfold dropFrame; simp only [keep_mk, keep_eta, keep_count, keep_rcAdd]

theorem keep_pfcFrame (s a1)  : keep (pfcFrame s a1) = keep s := rfl

theorem keep_macControl (s a1)  : keep (macControl s a1) = keep s := by
  unfold macControl
  repeat' first | rfl | split | refine (keep_foldl _ _ _ (fun _ _ => ?_)).trans ?_ | simp only [keep_mk, keep_eta, keep_pfcFrame, keep_dropFrame, keep_writeEvent, keep_setSub]

theorem keep_polRefuse (s a1)  : keep (polRefuse s a1) = keep s := by
  unfold polRefuse
  repeat' first | rfl | split | refine (keep_foldl _ _ _ (fun _ _ => ?_)).trans ?_ | simp only [keep_mk, keep_eta, keep_rcAdd, keep_writeEvent]

theorem keep_police (s a1 a2 a3)  : keep (police s a1 a2 a3).2 = keep s := by
  unfold police
  repeat' first | rfl | split | refine (keep_foldl _ _ _ (fun _ _ => ?_)).trans ?_ | simp only [keep_mk, keep_eta, keep_polRefuse]

theorem keep_policed (s sub prio len) (t : State) (e : (police s sub prio len).1 = some t) : keep t = keep s := by
  unfold police at e
  dsimp only at e
  split at e
  · cases e
    exact keep_foldl _ _ _ (fun _ _ => rfl)
  · cases e

theorem keep_toCores (s a1 a2 a3)  : keep (toCores s a1 a2 a3) = keep s := by
  unfold toCores
  have h0 : ∀ (u : State) (r), police u a1.sub a2 a1.len = r → keep r.2 = keep u ∧ ∀ t, r.1 = some t → keep t = keep u :=
    fun u r e => e ▸ ⟨keep_police _ _ _ _, fun t h => keep_policed _ _ _ _ _ h⟩
  split
  · rename_i u hu
    exact (keep_snd hu).trans (keep_coresRate _ _)
  · rename_i u hu
    have hc := (keep_snd hu).trans (keep_coresRate _ _)
    split
    · rename_i v _ hv
      exact (keep_emit _ _).trans (((h0 _ _ hv).2 _ rfl).trans hc)
    · rename_i v hv
      exact ((h0 _ _ hv).1).trans hc

theorem keep_ingPush (s a1 a2 a3 a4)  : keep (ingPush s a1 a2 a3 a4) = keep s := by unfold ingPush; grind [keep_mk, keep_eta, keep_rcAdd, keep_sampleDepth, keep_sendPfc, keep_setIng, keep_ingPlace]

theorem keep_frameChecks (s a1 a2)  : keep (frameChecks s a1 a2) = keep s := by
  have h0 : ∀ (r : Option State × State) (a b), police s a1.sub a b = r → keep r.2 = keep s ∧ ∀ t, r.1 = some t → keep t = keep s :=
    fun r a b e => e ▸ ⟨keep_police _ _ _ _, fun t h => keep_policed _ _ _ _ _ h⟩
  unfold frameChecks
  dsimp only
  repeat' first | rfl | split | simp only [keep_dropFrame, keep_toCores, keep_ingPush]
  all_goals
    rename_i h
    first | exact (h0 _ _ _ h).2 _ rfl | exact (h0 _ _ _ h).1

theorem keep_setSc (s a1 a2 a3)  : keep (setSc s a1 a2 a3) = keep s := rfl

theorem keep_secPass (s a1 a2)  (t : State) : (secPass s a1 a2) = some t → keep t = keep s := by unfold secPass; grind [keep_mk, keep_eta, keep_setSc]

theorem keep_frameIn (s a1)  : keep (frameIn s a1) = keep s := by
  unfold frameIn
  dsimp only
  split
  · rfl
  · have h1 : keep (if a1.fecBad = 0 then count s 0x0101 (some a1.sub) none a1.len else
        rcAdd (count s 0x0101 (some a1.sub) none a1.len) 0x2000C (a1.sub / 4) a1.fecBad) = keep s := by
      split <;> simp only [keep_count, keep_rcAdd]
    generalize (if a1.fecBad = 0 then count s 0x0101 (some a1.sub) none a1.len else
        rcAdd (count s 0x0101 (some a1.sub) none a1.len) 0x2000C (a1.sub / 4) a1.fecBad) = u at h1 ⊢
    repeat' first | exact h1 | split | simp only [keep_dropFrame, keep_macControl, keep_frameChecks, keep_toCores]
    all_goals (rename_i h; rw [Option.bind_eq_some_iff] at h; obtain ⟨t, _, h⟩ := h; exact (keep_secPass _ _ _ _ h).trans h1)

theorem keep_execEthFrameReceive (a0 s)  : Keeps s (execEthFrameReceive a0 s) := by
  unfold execEthFrameReceive
  repeat' first | exact keeps_fault _ _ | refine keep_onSub _ _ _  (fun _ => ?_) | refine keeps_next ?_ | rfl | split | refine (keep_foldl _ _ _ (fun _ _ => ?_)).trans ?_ | simp only [keep_mk, keep_eta, keep_mgmtFrame, keep_frameIn]

theorem keep_trainTimeout (s a1)  : keep (trainTimeout s a1) = keep s := by
  unfold trainTimeout
  repeat' first | rfl | split | refine (keep_foldl _ _ _ (fun _ _ => ?_)).trans ?_ | simp only [keep_mk, keep_eta, keep_beginTraining, keep_setSub, keep_writeEvent]

theorem keep_execLinkTrainTimeout (a0 s)  : Keeps s (execLinkTrainTimeout a0 s) := by
  unfold execLinkTrainTimeout
  repeat' first | exact keeps_fault _ _ | refine keep_onSub _ _ _  (fun _ => ?_) | refine keeps_next ?_ | rfl | split | refine (keep_foldl _ _ _ (fun _ _ => ?_)).trans ?_ | simp only [keep_mk, keep_eta, keep_trainTimeout]

theorem keep_pauseEnd (s a1 a2)  : keep (pauseEnd s a1 a2) = keep s := rfl

theorem keep_execPfcPauseExpiry (a0 a1 s)  : Keeps s (execPfcPauseExpiry a0 a1 s) := by
  unfold execPfcPauseExpiry
  repeat' first | exact keeps_fault _ _ | refine keep_onPrio _ _ _ _  (fun _ => ?_) | refine keeps_next ?_ | rfl | split | refine (keep_foldl _ _ _ (fun _ _ => ?_)).trans ?_ | simp only [keep_mk, keep_eta, keep_pauseEnd]

theorem keep_addrCtl (s a1)  : keep (addrCtl s a1) = keep s := by unfold addrCtl; (repeat' split) <;> simp only [keep_mk, keep_eta, keep_rwPut, keep_discNote, keep_setSub]

theorem keep_onSc (a0 a1 s a3) (h3 : ∀ t, keep (a3 t) = keep t) : Keeps s (onSc a0 a1 s a3) := by unfold onSc; (repeat' split) <;> first | exact keeps_fault _ _ | exact keeps_refused _ _  | exact keeps_next (by simp only [keep_mk, keep_eta, h3])

theorem keep_installTx (s a1 a2 a3 a4 a5)  : keep (installTx s a1 a2 a3 a4 a5) = keep s := by unfold installTx; simp only [keep_mk, keep_eta, keep_writeEvent, keep_setSc]

theorem keep_execMacsecTxSaInstall (a0 a1 a2 a3 a4 s)  : Keeps s (execMacsecTxSaInstall a0 a1 a2 a3 a4 s) := by
  unfold execMacsecTxSaInstall
  repeat' first | exact keeps_fault _ _ | refine keep_onSc _ _ _ _  (fun _ => ?_) | refine keeps_next ?_ | rfl | split | refine (keep_foldl _ _ _ (fun _ _ => ?_)).trans ?_ | simp only [keep_mk, keep_eta, keep_installTx]

theorem keep_trainRetry (s a1)  : keep (trainRetry s a1) = keep s := by
  unfold trainRetry
  repeat' first | rfl | split | refine (keep_foldl _ _ _ (fun _ _ => ?_)).trans ?_ | simp only [keep_mk, keep_eta, keep_beginTraining]

theorem keep_dropPrio (s a1 a2)  : keep (dropPrio s a1 a2) = keep s := by
  unfold dropPrio
  repeat' first | rfl | split | refine (keep_foldl _ _ _ (fun _ _ => ?_)).trans ?_ | simp only [keep_mk, keep_eta, keep_setEg, keep_dropTx]

theorem keep_watchdogFires (s a1 a2 a3)  : keep (watchdogFires s a1 a2 a3) = keep s := by unfold watchdogFires; grind [keep_mk, keep_eta, keep_pauseEnd, keep_setSub, keep_w1cSet, keep_dropPrio, keep_writeEvent]

theorem keep_rehash (s a1)  : keep (rehash s a1) = keep s := by
  unfold rehash
  repeat' first | rfl | split | refine (keep_foldl _ _ _ (fun _ _ => ?_)).trans ?_ | simp only [keep_mk, keep_eta, keep_writeEvent, keep_tabUpdate, keep_rcAdd]

theorem keep_linkGoesDown (s a1)  : keep (linkGoesDown s a1) = keep s := by
  unfold linkGoesDown
  repeat' first | rfl | split | refine (keep_foldl _ _ _ (fun _ _ => ?_)).trans ?_ | simp only [keep_mk, keep_eta, keep_rehash, keep_beginTraining, keep_writeEvent, keep_setSub]

theorem keep_execSubportLinkDown (a0 s)  : Keeps s (execSubportLinkDown a0 s) := by
  unfold execSubportLinkDown
  repeat' first | exact keeps_fault _ _ | refine keep_onSub _ _ _  (fun _ => ?_) | refine keeps_next ?_ | rfl | split | refine (keep_foldl _ _ _ (fun _ _ => ?_)).trans ?_ | simp only [keep_mk, keep_eta, keep_linkGoesDown]

theorem keep_installRx (s a1 a2 a3 a4 a5)  : keep (installRx s a1 a2 a3 a4 a5) = keep s := rfl

theorem keep_linkComesUp (s a1 a2 a3)  : keep (linkComesUp s a1 a2 a3) = keep s := by
  unfold linkComesUp
  repeat' first | rfl | split | refine (keep_foldl _ _ _ (fun _ _ => ?_)).trans ?_ | simp only [keep_mk, keep_eta, keep_transient, keep_writeEvent, keep_setSub]

theorem keep_execSubportLinkUp (a0 a1 a2 s)  : Keeps s (execSubportLinkUp a0 a1 a2 s) := by
  unfold execSubportLinkUp
  repeat' first | exact keeps_fault _ _ | refine keep_onSub _ _ _  (fun _ => ?_) | refine keeps_next ?_ | rfl | split | refine (keep_foldl _ _ _ (fun _ _ => ?_)).trans ?_ | simp only [keep_mk, keep_eta, keep_linkComesUp]

theorem keep_watchdogResumes (s a1 a2)  : keep (watchdogResumes s a1 a2) = keep s := rfl

theorem keep_execPfcWatchdogResume (a0 a1 s)  : Keeps s (execPfcWatchdogResume a0 a1 s) := by
  unfold execPfcWatchdogResume
  repeat' first | exact keeps_fault _ _ | refine keep_onPrio _ _ _ _  (fun _ => ?_) | refine keeps_next ?_ | rfl | split | refine (keep_foldl _ _ _ (fun _ _ => ?_)).trans ?_ | simp only [keep_mk, keep_eta, keep_watchdogResumes]

theorem keep_execMacsecRxSaInstall (a0 a1 a2 a3 a4 s)  : Keeps s (execMacsecRxSaInstall a0 a1 a2 a3 a4 s) := by
  unfold execMacsecRxSaInstall
  repeat' first | exact keeps_fault _ _ | refine keep_onSc _ _ _ _  (fun _ => ?_) | refine keeps_next ?_ | rfl | split | refine (keep_foldl _ _ _ (fun _ _ => ?_)).trans ?_ | simp only [keep_mk, keep_eta, keep_installRx]

theorem keep_coreFrame (s a1 a2 a3)  : keep (coreFrame s a1 a2 a3) = keep s := by
  unfold coreFrame
  repeat' first | rfl | split | refine (keep_foldl _ _ _ (fun _ _ => ?_)).trans ?_ | refine (keep_cellAlloc _ _ _ _ (by assumption)).trans ?_ | simp only [keep_mk, keep_eta, keep_egPush]

theorem keep_execLinkTrainRetryTimer (a0 s)  : Keeps s (execLinkTrainRetryTimer a0 s) := by
  unfold execLinkTrainRetryTimer
  repeat' first | exact keeps_fault _ _ | refine keep_onSub _ _ _  (fun _ => ?_) | refine keeps_next ?_ | rfl | split | refine (keep_foldl _ _ _ (fun _ _ => ?_)).trans ?_ | simp only [keep_mk, keep_eta, keep_trainRetry]

theorem keep_execPfcWatchdogExpiry (a0 a1 a2 s)  : Keeps s (execPfcWatchdogExpiry a0 a1 a2 s) := by
  unfold execPfcWatchdogExpiry
  repeat' first | exact keeps_fault _ _ | refine keep_onPrio _ _ _ _  (fun _ => ?_) | refine keeps_next ?_ | rfl | split | refine (keep_foldl _ _ _ (fun _ _ => ?_)).trans ?_ | simp only [keep_mk, keep_eta, keep_watchdogFires]

theorem keep_execMacsecRxSaRetire (a0 a1 a2 s)  : Keeps s (execMacsecRxSaRetire a0 a1 a2 s) := by
  unfold execMacsecRxSaRetire
  repeat' first | exact keeps_fault _ _ | refine keep_onSc _ _ _ _  (fun _ => ?_) | refine keeps_next ?_ | rfl | split | refine (keep_foldl _ _ _ (fun _ _ => ?_)).trans ?_ | simp only [keep_mk, keep_eta, keep_setSc]

theorem keep_execAddressSlotApply (a0 s)  : Keeps s (execAddressSlotApply a0 s) := keeps_next (by simp only [keep_mk, keep_eta, keep_addrCtl])

theorem keep_chargeClass (s a1 a2 a3)  : keep (chargeClass s a1 a2 a3) = keep s := by unfold chargeClass; (repeat' split) <;> simp only [keep_mk, keep_eta]

theorem keep_refillOne (s a1 a2)  : keep (refillOne s a1 a2) = keep s := by
  unfold refillOne
  repeat' first | rfl | split | refine (keep_foldl _ _ _ (fun _ _ => ?_)).trans ?_ | simp only [keep_mk, keep_eta, keep_setTokens, keep_shareApplied, keep_reopen]

theorem keep_shaperRefill (s)  : keep (shaperRefill s) = keep s := by
  unfold shaperRefill
  repeat' first | rfl | split | refine (keep_foldl _ _ _ (fun _ _ => ?_)).trans ?_ | simp only [keep_mk, keep_eta, keep_refillOne]

theorem keep_execShaperRefill (s)  : Keeps s (execShaperRefill s) := keeps_next (by simp only [keep_mk, keep_eta, keep_shaperRefill])

theorem keep_sampleSelect (s a1)  : keep (sampleSelect s a1) = keep s := by unfold sampleSelect; (repeat' split) <;> simp only [keep_mk, keep_eta, keep_rwPut]

theorem keep_deadPort (s a1)  : keep (deadPort s a1) = keep s := by unfold deadPort; (repeat' split) <;> simp only [keep_mk, keep_eta, keep_rcAdd, keep_dropTx, keep_setEg]

theorem keep_pickClass1 (s a1)  : keep (pickClass1 s a1).1 = keep s := by unfold pickClass1; grind [keep_mk, keep_eta, keep_drrPick, keep_setActive, keep_setDeficit]

theorem keep_pickData (s a1)  : keep (pickData s a1).1 = keep s := by
  unfold pickData
  repeat' first | rfl | split | refine (keep_foldl _ _ _ (fun _ _ => ?_)).trans ?_ | simp only [keep_mk, keep_eta, keep_pickClass1]

theorem keep_pickFrame (s a1)  : keep (pickFrame s a1).1 = keep s := by unfold pickFrame; (repeat' split) <;> simp only [keep_mk, keep_eta, keep_pickData]

theorem keep_takeFrame (s a1 a2 a3)  : keep (takeFrame s a1 a2 a3) = keep s := rfl

theorem keep_lostFrame (s a1 a2 a3)  : keep (lostFrame s a1 a2 a3) = keep s := by unfold lostFrame; (repeat' split) <;> simp only [keep_mk, keep_eta, keep_dropTx, keep_takeFrame, keep_qpDown]

theorem keep_wire (s a1 a2 a3)  : keep (wire s a1 a2 a3) = keep s := by unfold wire; simp only [keep_mk, keep_eta, keep_count, keep_sampleLeave, keep_emit, keep_dropTx, keep_chargeClass]

theorem keep_usePn (s a1 a2 a3 a4)  : keep (usePn s a1 a2 a3 a4) = keep s := by
  unfold usePn
  repeat' first | rfl | split | refine (keep_foldl _ _ _ (fun _ _ => ?_)).trans ?_ | simp only [keep_mk, keep_eta, keep_setSc, keep_writeEvent, keep_w1cSet]

theorem keep_secureSend (s0 sub cls f) (s : State) (h : keep s = keep s0) : keep (secureSend s0 sub cls f s) = keep s0 := by
  unfold secureSend
  split
  · simp only [keep_wire, keep_takeFrame, h]
  · split
    · split
      · split
        · simp only [keep_wire, keep_takeFrame, h]
        · exact h
      · exact h
    · split <;> simp only [keep_dropTx, keep_wire, keep_takeFrame, keep_usePn, h]

theorem keep_transmit (s a1 a2)  : keep (transmit s a1 a2) = keep s := by unfold transmit; grind [keep_mk, keep_eta, keep_deadPort, keep_pickFrame, keep_lostFrame, keep_secureSend, keep_wire, keep_takeFrame]

theorem keep_execSubportTransmit (a0 a1 a2 a3 s)  : Keeps s (execSubportTransmit a0 a1 a2 a3 s) := by
  unfold execSubportTransmit
  repeat' first | exact keeps_fault _ _ | refine keep_onSub _ _ _  (fun _ => ?_) | refine keeps_next ?_ | grind [keep_mk, keep_eta, keep_installTx, keep_coreFrame, keep_stallAt, keep_transmit]

theorem keep_execSchSampleSelect (a0 s)  : Keeps s (execSchSampleSelect a0 s) := keeps_next (by simp only [keep_mk, keep_eta, keep_sampleSelect])

theorem keep_xoffAgain (s a1 a2)  : keep (xoffAgain s a1 a2) = keep s := by unfold xoffAgain; (repeat' split) <;> simp only [keep_mk, keep_eta, keep_sendPfc]

theorem keep_execPfcXoffRefresh (a0 a1 s)  : Keeps s (execPfcXoffRefresh a0 a1 s) := by
  unfold execPfcXoffRefresh
  repeat' first | exact keeps_fault _ _ | refine keep_onPrio _ _ _ _  (fun _ => ?_) | refine keeps_next ?_ | rfl | split | refine (keep_foldl _ _ _ (fun _ _ => ?_)).trans ?_ | simp only [keep_mk, keep_eta, keep_xoffAgain]

theorem keep_reclaimCell (s a1)  : keep (reclaimCell s a1) = keep s := by unfold reclaimCell; (repeat' split) <;> simp only [keep_mk, keep_eta, keep_freeCells]

theorem keep_auditPass (s a1)  : keep (auditPass s a1) = keep s := by
  unfold auditPass
  repeat' first | rfl | split | refine (keep_foldl _ _ _ (fun _ _ => ?_)).trans ?_ | simp only [keep_mk, keep_eta, keep_writeEvent, keep_rcAdd, keep_reclaimCell]

theorem keep_execLeakAuditPass (a0 s)  : Keeps s (execLeakAuditPass a0 s) := keeps_next (by simp only [keep_mk, keep_eta, keep_auditPass])

theorem keep_mcastTandemFail (s a1 a2)  : keep (mcastTandemFail s a1 a2) = keep s := by
  unfold mcastTandemFail
  repeat' first | rfl | split | refine (keep_foldl _ _ _ (fun _ _ => ?_)).trans ?_ | simp only [keep_mk, keep_eta, keep_writeEvent, keep_rcAdd, keep_pairLost, keep_echoEnd]

theorem keep_mcastTimeout (s a1 a2 a3)  : keep (mcastTimeout s a1 a2 a3) = keep s := by unfold mcastTimeout; grind [keep_mk, keep_eta, keep_mcastDone, keep_mcastTandemFail, keep_stackFail, keep_rcAdd]

theorem keep_execMcastDestTimeout (a0 a1 a2 s)  : Keeps s (execMcastDestTimeout a0 a1 a2 s) := keeps_next (by simp only [keep_mk, keep_eta, keep_mcastTimeout])

theorem keep_policerRefill (s)  : keep (policerRefill s) = keep s := by
  unfold policerRefill
  repeat' first | rfl | split | refine (keep_foldl _ _ _ (fun _ _ => ?_)).trans ?_ | simp only [keep_mk, keep_eta]

theorem keep_execPolicerRefill (s)  : Keeps s (execPolicerRefill s) := keeps_next (by simp only [keep_mk, keep_eta, keep_policerRefill])

theorem keep_bucketBack (s a1)  : keep (bucketBack s a1) = keep s := by unfold bucketBack; (repeat' split) <;> simp only [keep_mk, keep_eta, keep_tabUpdate]

theorem keep_execBucketReturn (a0 s)  : Keeps s (execBucketReturn a0 s) := by unfold execBucketReturn; (repeat' split) <;> first | exact keeps_fault _ _ | exact keeps_refused _ _  | exact keeps_next (by simp only [keep_mk, keep_eta, keep_bucketBack])

theorem keep_releaseEnd (s a1 a2)  : keep (releaseEnd s a1 a2) = keep s := by unfold releaseEnd; (repeat' split) <;> simp only [keep_mk, keep_eta, keep_reply, keep_releaseGroup]

theorem keep_onLine (a0 s a2) (h2 : ∀ t, keep (a2 t) = keep t) : Keeps s (onLine a0 s a2) := by
  unfold onLine
  repeat' first | exact keeps_fault _ _ | refine keep_onGroup _ _ _  (fun _ => ?_) | refine keeps_next ?_ | rfl | split | refine (keep_foldl _ _ _ (fun _ _ => ?_)).trans ?_ | simp only [keep_mk, keep_eta, h2]

theorem keep_heartbeatGap (s a1)  : keep (heartbeatGap s a1) = keep s := by unfold heartbeatGap; (repeat' split) <;> simp only [keep_mk, keep_eta, keep_emit]

theorem keep_execHeartbeatGap (a0 s)  : Keeps s (execHeartbeatGap a0 s) := by
  unfold execHeartbeatGap
  repeat' first | exact keeps_fault _ _ | refine keep_onLine _ _ _  (fun _ => ?_) | refine keeps_next ?_ | rfl | split | refine (keep_foldl _ _ _ (fun _ _ => ?_)).trans ?_ | simp only [keep_mk, keep_eta, keep_heartbeatGap]

theorem keep_gapSeen (s a1)  : keep (gapSeen s a1) = keep s := by unfold gapSeen; grind [keep_mk, keep_eta, keep_setGrp, keep_fencedReset, keep_setOrphans, keep_noteAna]

theorem keep_setLine (s a1 a2)  : keep (setLine s a1 a2) = keep s := by unfold setLine; simp only [keep_mk, keep_eta, keep_setGrp]

theorem keep_releasedSeen (s a1)  : keep (releasedSeen s a1) = keep s := by
  unfold releasedSeen
  repeat' first | rfl | split | refine (keep_foldl _ _ _ (fun _ _ => ?_)).trans ?_ | simp only [keep_mk, keep_eta, keep_setLine, keep_noteAna, keep_writeEvent, keep_setGrp]

theorem keep_execLineReleasedSeen (a0 s)  : Keeps s (execLineReleasedSeen a0 s) := by
  unfold execLineReleasedSeen
  repeat' first | exact keeps_fault _ _ | refine keep_onLine _ _ _  (fun _ => ?_) | refine keeps_next ?_ | rfl | split | refine (keep_foldl _ _ _ (fun _ _ => ?_)).trans ?_ | simp only [keep_mk, keep_eta, keep_releasedSeen]

theorem keep_handoverRelease (s a1)  : keep (handoverRelease s a1) = keep s := by
  unfold handoverRelease
  repeat' first | rfl | split | refine (keep_foldl _ _ _ (fun _ _ => ?_)).trans ?_ | simp only [keep_mk, keep_eta, keep_groupOutputsOff, keep_setGrp]

theorem keep_tryAcquire (s a1)  : keep (tryAcquire s a1) = keep s := by
  unfold tryAcquire
  repeat' first | rfl | split | refine (keep_foldl _ _ _ (fun _ _ => ?_)).trans ?_ | simp only [keep_mk, keep_eta, keep_emit, keep_setGrp]

theorem keep_awaitIn (s a1)  : keep (awaitIn s a1) = keep s := by
  unfold awaitIn
  repeat' first | rfl | split | refine (keep_foldl _ _ _ (fun _ _ => ?_)).trans ?_ | simp only [keep_mk, keep_eta, keep_tdmSend]

theorem keep_tandemDown (s a1)  : keep (tandemDown s a1) = keep s := by unfold tandemDown; (repeat' split) <;> simp only [keep_mk, keep_eta, keep_tdmSend, keep_linkDown]

theorem keep_peerFalls (s)  : keep (peerFalls s) = keep s := by unfold peerFalls; simp only [keep_mk, keep_eta, keep_tandemDown]

theorem keep_execPeerAliveFall (s)  : Keeps s (execPeerAliveFall s) := keeps_next (by simp only [keep_mk, keep_eta, keep_peerFalls])

theorem keep_stopAcquiring (s a1 a2)  : keep (stopAcquiring s a1 a2) = keep s := by unfold stopAcquiring; simp only [keep_mk, keep_eta, keep_setGrp, keep_noteAna, keep_writeEvent, keep_emit]

theorem keep_remirrorRetry (s a1)  : keep (remirrorRetry s a1) = keep s := by
  unfold remirrorRetry
  repeat' first | rfl | split | refine (keep_foldl _ _ _ (fun _ _ => ?_)).trans ?_ | simp only [keep_mk, keep_eta, keep_remirrorStart]

theorem keep_sendFrame (s)  : keep (sendFrame s) = keep s := by unfold sendFrame; simp only [keep_mk, keep_eta, keep_tdmSend]

theorem keep_cadence (s a1)  : keep (cadence s a1) = keep s := by unfold cadence; (repeat' split) <;> simp only [keep_mk, keep_eta, keep_tandemDown, keep_sendFrame, keep_releaseEnd]

theorem keep_execOutputHandoverRelease (a0 s)  : Keeps s (execOutputHandoverRelease a0 s) := by
  unfold execOutputHandoverRelease
  repeat' first | exact keeps_fault _ _ | refine keep_onLine _ _ _  (fun _ => ?_) | refine keeps_next ?_ | rfl | split | refine (keep_foldl _ _ _ (fun _ _ => ?_)).trans ?_ | simp only [keep_mk, keep_eta, keep_handoverRelease]

theorem keep_execTakeoverAdmissionOpen (a0 s)  : Keeps s (execTakeoverAdmissionOpen a0 s) := by
  unfold execTakeoverAdmissionOpen
  repeat' first | exact keeps_fault _ _ | refine keep_onGroup _ _ _  (fun _ => ?_) | refine keeps_next ?_ | rfl | split | refine (keep_foldl _ _ _ (fun _ _ => ?_)).trans ?_ | simp only [keep_mk, keep_eta, keep_openGroup]

theorem keep_releaseIn (s a1 a2)  : keep (releaseIn s a1 a2) = keep s := by
  unfold releaseIn
  repeat' first | rfl | split | refine (keep_foldl _ _ _ (fun _ _ => ?_)).trans ?_ | simp only [keep_mk, keep_eta, keep_setMir]

theorem keep_standingIn (s a1 a2 a3)  : keep (standingIn s a1 a2 a3) = keep s := by
  unfold standingIn
  repeat' first | rfl | split | refine (keep_foldl _ _ _ (fun _ _ => ?_)).trans ?_ | simp only [keep_mk, keep_eta, keep_setGrp]

theorem keep_sendStanding (s a1)  : keep (sendStanding s a1) = keep s := by unfold sendStanding; (repeat' split) <;> simp only [keep_mk, keep_eta, keep_tdmSend, keep_setGrp]

theorem keep_checkIdentity (s a1 a2)  : keep (checkIdentity s a1 a2) = keep s := by unfold checkIdentity; (repeat' split) <;> simp only [keep_mk, keep_eta, keep_writeEvent]

theorem keep_linkTrained (s a1 a2 a3 a4)  : keep (linkTrained s a1 a2 a3 a4) = keep s := by unfold linkTrained; grind [keep_mk, keep_eta, keep_tdmSend, keep_writeEvent, keep_notePair, keep_sendStanding, keep_checkIdentity]

theorem keep_execTandemLinkUp (a0 a1 a2 a3 s)  : Keeps s (execTandemLinkUp a0 a1 a2 a3 s) := by unfold execTandemLinkUp; (repeat' split) <;> first | exact keeps_fault _ _ | exact keeps_refused _ _  | exact keeps_next (by simp only [keep_mk, keep_eta, keep_linkTrained])

theorem keep_execCadenceTick (a0 s)  : Keeps s (execCadenceTick a0 s) := keeps_next (by simp only [keep_mk, keep_eta, keep_cadence])

theorem keep_abandon (s a1 a2)  : keep (abandon s a1 a2) = keep s := by unfold abandon; (repeat' split) <;> simp only [keep_mk, keep_eta, keep_reply, keep_awaitEnd, keep_writeEvent]

theorem keep_execAbandonHandback (a0 a1 a2 s)  : Keeps s (execAbandonHandback a0 a1 a2 s) := by
  unfold execAbandonHandback
  repeat' first | exact keeps_fault _ _ | refine (keep_asManager _ _ _ _  (fun _ => ?_)).trans ?_ | refine keeps_next ?_ | rfl | split | refine (keep_foldl _ _ _ (fun _ _ => ?_)).trans ?_ | simp only [keep_mk, keep_eta, keep_asManager, keep_abandon, keep_reply]

theorem keep_orphansIn (s a1 a2)  : keep (orphansIn s a1 a2) = keep s := by
  unfold orphansIn
  repeat' first | rfl | split | refine (keep_foldl _ _ _ (fun _ _ => ?_)).trans ?_ | simp only [keep_mk, keep_eta, keep_awaitEnd, keep_tdmSend]

theorem keep_checkGap (s a1 a2 a3 a4 a5 a6)  : keep (checkGap s a1 a2 a3 a4 a5 a6) = keep s := by
  unfold checkGap
  repeat' first | rfl | split | refine (keep_foldl _ _ _ (fun _ _ => ?_)).trans ?_ | simp only [keep_mk, keep_eta, keep_emit, keep_stopAcquiring, keep_setGrp, keep_acquireGroup]

theorem keep_repairIn (s a1)  : keep (repairIn s a1) = keep s := by unfold repairIn; (repeat' split) <;> simp only [keep_mk, keep_eta, keep_copyPage]

theorem keep_endingIn (s a1)  : keep (endingIn s a1) = keep s := by
  unfold endingIn
  repeat' first | rfl | split | refine (keep_foldl _ _ _ (fun _ _ => ?_)).trans ?_ | simp only [keep_mk, keep_eta, keep_setOwn]

theorem keep_frameReceive (s a1 a2)  : keep (frameReceive s a1 a2) = keep s := by
  unfold frameReceive
  repeat' first | rfl | split | refine (keep_foldl _ _ _ (fun _ _ => ?_)).trans ?_ | simp only [keep_mk, keep_eta, keep_rcAdd, keep_discNote, keep_releaseIn, keep_repairIn, keep_endingIn, keep_awaitIn, keep_orphansIn]

theorem keep_execCadenceFrameReceive (a0 a1 s)  : Keeps s (execCadenceFrameReceive a0 a1 s) := keeps_next (by simp only [keep_mk, keep_eta, keep_frameReceive])

theorem keep_lineStuckAt (s a1)  : keep (lineStuckAt s a1) = keep s := by unfold lineStuckAt; (repeat' split) <;> simp only [keep_mk, keep_eta, keep_writeEvent, keep_setLine]

theorem keep_bootClaim (s a1)  : keep (bootClaim s a1) = keep s := by unfold bootClaim; (repeat' split) <;> simp only [keep_mk, keep_eta, keep_tryAcquire, keep_setGrp]

theorem keep_execBootClaimExpiry (a0 s)  : Keeps s (execBootClaimExpiry a0 s) := by
  unfold execBootClaimExpiry
  repeat' first | exact keeps_fault _ _ | refine keep_onLine _ _ _  (fun _ => ?_) | refine keeps_next ?_ | rfl | split | refine (keep_foldl _ _ _ (fun _ _ => ?_)).trans ?_ | simp only [keep_mk, keep_eta, keep_bootClaim]

theorem keep_execTandemFlitSilence (s)  : Keeps s (execTandemFlitSilence s) := keeps_next (by simp only [keep_mk, keep_eta, keep_tandemDown])

end Sys2Proof.Machine
end

