-- ==== Sys2Proof/Laws/Keep7.lean ====
section
/-! SUPPORT. One lemma per operation of the model: it leaves the queue, TRS_BUF, the NOR, the field lock and the SVN bank as they
were (part 8 of 9; the operations that do touch one of them are in Laws/Grow.lean). -/

namespace Sys2Proof.Machine

set_option linter.unusedSimpArgs false
set_option linter.unusedVariables false

theorem keep_heartbeatLapse (s a1 a2 a3)  : keep (heartbeatLapse s a1 a2 a3) = keep s := by unfold heartbeatLapse; (repeat' split) <;> simp only [keep_mk, keep_eta, keep_reply, keep_releaseGroup]

theorem keep_execLineQuietExpiry (a0 s)  : Keeps s (execLineQuietExpiry a0 s) := by
  unfold execLineQuietExpiry
  repeat' first | exact keeps_fault _ _ | refine keep_onLine _ _ _  (fun _ => ?_) | refine keeps_next ?_ | rfl | split | refine (keep_foldl _ _ _ (fun _ _ => ?_)).trans ?_ | simp only [keep_mk, keep_eta, keep_tryAcquire]

theorem keep_flitReceive (s a1 a2 a3)  : keep (flitReceive s a1 a2 a3) = keep s := by unfold flitReceive; grind [keep_mk, keep_eta, keep_tdmSend, keep_mcastTandem, keep_rcAdd, keep_tandemDown]

theorem keep_execCheckGapSample (a0 a1 a2 a3 a4 a5 s)  : Keeps s (execCheckGapSample a0 a1 a2 a3 a4 a5 s) := by
  unfold execCheckGapSample
  repeat' first | exact keeps_fault _ _ | refine keep_onLine _ _ _  (fun _ => ?_) | refine keeps_next ?_ | rfl | split | refine (keep_foldl _ _ _ (fun _ _ => ?_)).trans ?_ | simp only [keep_mk, keep_eta, keep_checkGap]

theorem keep_feedLine (s a1)  : keep (feedLine s a1) = keep s := by unfold feedLine; simp only [keep_mk, keep_eta, keep_setGrp]

theorem keep_execOwnFeed (a0 a1 s)  : Keeps s (execOwnFeed a0 a1 s) := by unfold execOwnFeed; (repeat' split) <;> first | exact keeps_fault _ _ | exact keeps_refused _ _  | exact keeps_next (by simp only [keep_mk, keep_eta, keep_feedLine])

theorem keep_execTandemFlitReceive (a0 a1 a2 s)  : Keeps s (execTandemFlitReceive a0 a1 a2 s) := keeps_next (by simp only [keep_mk, keep_eta, keep_flitReceive])

theorem keep_execPeerAliveRise (s)  : Keeps s (execPeerAliveRise s) := keeps_next (by simp only [keep_mk, keep_eta])

theorem keep_execRemirrorRetryTimer (a0 s)  : Keeps s (execRemirrorRetryTimer a0 s) := by
  unfold execRemirrorRetryTimer
  repeat' first | exact keeps_fault _ _ | refine keep_onGroup _ _ _  (fun _ => ?_) | refine keeps_next ?_ | rfl | split | refine (keep_foldl _ _ _ (fun _ _ => ?_)).trans ?_ | simp only [keep_mk, keep_eta, keep_remirrorRetry]

theorem keep_execLineGapSeen (a0 s)  : Keeps s (execLineGapSeen a0 s) := by
  unfold execLineGapSeen
  repeat' first | exact keeps_fault _ _ | refine keep_onLine _ _ _  (fun _ => ?_) | refine keeps_next ?_ | rfl | split | refine (keep_foldl _ _ _ (fun _ _ => ?_)).trans ?_ | simp only [keep_mk, keep_eta, keep_gapSeen]

theorem keep_execTandemRetrainTimer (s)  : Keeps s (execTandemRetrainTimer s) := by unfold execTandemRetrainTimer; (repeat' split) <;> first | exact keeps_fault _ _ | exact keeps_refused _ _  | exact keeps_next (by simp only [keep_mk, keep_eta, keep_tdmSend])

theorem keep_execStandingMapReceive (a0 a1 a2 s)  : Keeps s (execStandingMapReceive a0 a1 a2 s) := by
  unfold execStandingMapReceive
  repeat' first | exact keeps_fault _ _ | refine keep_onGroup _ _ _  (fun _ => ?_) | refine keeps_next ?_ | rfl | split | refine (keep_foldl _ _ _ (fun _ _ => ?_)).trans ?_ | simp only [keep_mk, keep_eta, keep_standingIn]

theorem keep_execLineStuck (a0 s)  : Keeps s (execLineStuck a0 s) := by
  unfold execLineStuck
  repeat' first | exact keeps_fault _ _ | refine keep_onLine _ _ _  (fun _ => ?_) | refine keeps_next ?_ | rfl | split | refine (keep_foldl _ _ _ (fun _ _ => ?_)).trans ?_ | simp only [keep_mk, keep_eta, keep_lineStuckAt]

theorem keep_releaseStart (s a1 a2 a3)  : keep (releaseStart s a1 a2 a3) = keep s := by
  unfold releaseStart
  repeat' first | rfl | split | refine (keep_foldl _ _ _ (fun _ _ => ?_)).trans ?_ | simp only [keep_mk, keep_eta, keep_reply, keep_noteAna, keep_setGrp, keep_releaseEnd]

theorem keep_execTandemReleaseGroup (a0 a1 a2 s)  : Keeps s (execTandemReleaseGroup a0 a1 a2 s) := by
  unfold execTandemReleaseGroup
  repeat' first | exact keeps_fault _ _ | refine (keep_asManager _ _ _ _  (fun _ => ?_)).trans ?_ | refine keeps_next ?_ | rfl | split | refine (keep_foldl _ _ _ (fun _ _ => ?_)).trans ?_ | simp only [keep_mk, keep_eta, keep_asManager, keep_releaseStart, keep_reply]

theorem keep_execHeartbeatLapse (a0 a1 a2 s)  : Keeps s (execHeartbeatLapse a0 a1 a2 s) := by
  unfold execHeartbeatLapse
  repeat' first | exact keeps_fault _ _ | refine keep_onLine _ _ _  (fun _ => ?_) | refine keeps_next ?_ | rfl | split | refine (keep_foldl _ _ _ (fun _ _ => ?_)).trans ?_ | simp only [keep_mk, keep_eta, keep_heartbeatLapse]

theorem keep_loadGroup (s a1)  : keep (loadGroup s a1) = keep s := by
  unfold loadGroup
  repeat' first | rfl | split | refine (keep_foldl _ _ _ (fun _ _ => ?_)).trans ?_ | simp only [keep_mk, keep_eta]

theorem keep_loadPolicers (s)  : keep (loadPolicers s) = keep s := rfl

theorem keep_loadGroups (s old) : keep (loadGroups s old) = keep s := by
  refine keep_foldl _ _ _ (fun _ _ => ?_)
  split
  · rfl
  · exact keep_loadGroup _ _

theorem keep_changeFloors (s)  : keep (changeFloors s) = keep s := rfl

theorem keep_loadLists (s)  : keep (loadLists s) = keep s := rfl

theorem keep_loadLive (s old) : keep (loadLive s old) = keep s := by
  unfold loadLive
  simp only [keep_loadPolicers, keep_loadGroups, keep_changeFloors, keep_loadLists]

theorem keep_loadRegions (s)  : keep (loadRegions s) = keep s := by
  unfold loadRegions
  repeat' first | rfl | split | refine (keep_foldl _ _ _ (fun _ _ => ?_)).trans ?_ | simp only [keep_mk, keep_eta]

theorem keep_loadBuffer (s)  : keep (loadBuffer s) = keep s := rfl

theorem keep_loadConfig (s)  : keep (loadConfig s) = keep s := by
  unfold loadConfig
  dsimp only
  refine (keep_measureHw _).trans ?_
  have h1 : ∀ (t : State) (l : List Nat), keep (l.foldl (fun s b =>
    if (chanOf s b).state = .disabled && chanEnabled s b then setChan s b { chanOf s b with state := .off } else s) t) = keep t :=
    fun t l => keep_foldl _ _ _ (fun _ _ => by split; · exact keep_setChan _ _ _
                                               · rfl)
  split <;> simp only [keep_mk, keep_eta, keep_writeEvent, h1, keep_loadLists, keep_loadGroups, keep_loadBuffer, keep_loadRegions]

theorem keep_setReq (s a1)  : keep (setReq s a1) = keep s := rfl

theorem keep_drainShutdown (s)  : keep (drainShutdown s) = keep s := by unfold drainShutdown; simp only [keep_mk, keep_eta, keep_noteAna, keep_noteMode]

theorem keep_shutdownReq (s a1)  : keep (shutdownReq s a1) = keep s := by unfold shutdownReq; (repeat' split) <;> simp only [keep_mk, keep_eta, keep_setReq, keep_drainShutdown]

theorem keep_safeReq (s a1)  : keep (safeReq s a1) = keep s := by unfold safeReq; (repeat' split) <;> simp only [keep_mk, keep_eta, keep_setReq, keep_enterSafe]

theorem keep_modeReqWrite (s a1 a2)  : keep (modeReqWrite s a1 a2) = keep s := by unfold modeReqWrite; (repeat' split) <;> simp only [keep_mk, keep_eta, keep_shutdownReq, keep_safeReq, keep_setReq]

theorem keep_execSafeRequest (a0 s)  : Keeps s (execSafeRequest a0 s) := keeps_next (by simp only [keep_mk, keep_eta, keep_modeReqWrite])

theorem keep_checkImageSigs (s a1)  : keep (checkImageSigs s a1) = keep s := rfl

theorem keep_passStage (s a1)  : keep (passStage s a1) = keep s := by unfold passStage; (repeat' split) <;> simp only [keep_mk, keep_eta, keep_cured]

theorem keep_takeImage (s a1)  : keep (takeImage s a1) = keep s := rfl

theorem keep_imageFound (s a1)  : keep (imageFound s a1) = keep s := by unfold imageFound; simp only [keep_mk, keep_eta, keep_passStage, keep_measureImage, keep_takeImage]

theorem keep_freeWrites (s)  : keep (freeWrites s).2.2 = keep s := rfl

theorem keep_bootFail (s a1 a2)  : keep (bootFail s a1 a2) = keep s := by unfold bootFail; simp only [keep_mk, keep_eta, keep_cocoonUp, keep_freeWrites, keep_enterSafe, keep_writeBootRec]

theorem keep_rejectSlot (s a1 a2 a3)  : keep (rejectSlot s a1 a2 a3) = keep s := by unfold rejectSlot; grind [keep_mk, keep_eta, keep_bootFail]

theorem keep_rejectEvent (s a1 a2)  : keep (rejectEvent s a1 a2) = keep s := by unfold rejectEvent; simp only [keep_mk, keep_eta, keep_writeEvent]

theorem keep_imageVerified (s a1 a2 a3)  : keep (imageVerified s a1 a2 a3) = keep s := by unfold imageVerified; grind [keep_mk, keep_eta, keep_checkImageSigs, keep_imageFound, keep_rejectSlot, keep_rejectEvent, keep_cured]

theorem keep_execImageVerificationDone (a0 a1 a2 s)  : Keeps s (execImageVerificationDone a0 a1 a2 s) := by unfold execImageVerificationDone; (repeat' split) <;> first | exact keeps_fault _ _ | exact keeps_refused _ _  | exact keeps_next (by simp only [keep_mk, keep_eta, keep_imageVerified])

theorem keep_scanResults (s a1)  : keep (scanResults s a1) = keep s := by unfold scanResults; (repeat' split) <;> simp only [keep_mk, keep_eta, keep_recoveryScan]

theorem keep_noteNor (s a1)  : keep (noteNor s a1) = keep s := by
  unfold noteNor
  repeat' first | rfl | split | refine (keep_foldl _ _ _ (fun _ _ => ?_)).trans ?_ | simp only [keep_mk, keep_eta, keep_cured]

theorem keep_imageLoaded (s a1)  : keep (imageLoaded s a1) = keep s := by unfold imageLoaded; grind [keep_mk, keep_eta, keep_noteNor, keep_rejectSlot, keep_cured, keep_measureOwner, keep_passStage]

theorem keep_execImageLoadDone (a0 s)  : Keeps s (execImageLoadDone a0 s) := keeps_next (by simp only [keep_mk, keep_eta, keep_imageLoaded])

theorem keep_endStep7 (s)  : keep (endStep7 s) = keep s := by unfold endStep7; (repeat' split) <;> simp only [keep_mk, keep_eta, keep_passStage]

theorem keep_lateStage (s a1 a2 a3) (h3 : ∀ t, keep (a3 t) = keep t) : keep (lateStage s a1 a2 a3) = keep s := by unfold lateStage; (repeat' split) <;> simp only [keep_mk, keep_eta, h3, keep_bootFail, keep_endStep7, keep_cured]

theorem keep_scanEnded (s a1)  : keep (scanEnded s a1) = keep s := by unfold scanEnded; grind [keep_mk, keep_eta, keep_lateStage, keep_scanResults]

theorem keep_execShutdownRequest (a0 s)  : Keeps s (execShutdownRequest a0 s) := keeps_next (by simp only [keep_mk, keep_eta, keep_modeReqWrite])

theorem keep_drainEnd (s)  : keep (drainEnd s) = keep s := by unfold drainEnd; simp only [keep_mk, keep_eta, keep_releaseBoth, keep_noteAna, keep_noteMode]

theorem keep_drainOver (s a1)  : keep (drainOver s a1) = keep s := by unfold drainOver; (repeat' split) <;> simp only [keep_mk, keep_eta, keep_drainEnd, keep_releaseEnd]

theorem keep_execDrainLimitExpiry (a0 s)  : Keeps s (execDrainLimitExpiry a0 s) := by unfold execDrainLimitExpiry; (repeat' split) <;> first | exact keeps_fault _ _ | exact keeps_refused _ _  | exact keeps_next (by simp only [keep_mk, keep_eta, keep_drainOver])

theorem keep_memoryPrepared (s a1 a2)  : keep (memoryPrepared s a1 a2) = keep s := by unfold memoryPrepared; (repeat' split) <;> simp only [keep_mk, keep_eta, keep_passStage, keep_cured, keep_bootFail]

theorem keep_reachStandby (s)  : keep (reachStandby s) = keep s := by unfold reachStandby; simp only [keep_mk, keep_eta, keep_claimUnpaired, keep_notePair, keep_noteMode]

theorem keep_recordWritten (s a1 a2 a3)  : keep (recordWritten s a1 a2 a3) = keep s := by unfold recordWritten; grind [keep_mk, keep_eta, keep_cured, keep_writeBootRec, keep_enterSafe, keep_reachStandby]

theorem keep_execBootRecordWritten (a0 a1 a2 s)  : Keeps s (execBootRecordWritten a0 a1 a2 s) := by unfold execBootRecordWritten; (repeat' split) <;> first | exact keeps_fault _ _ | exact keeps_refused _ _  | exact keeps_next (by simp only [keep_mk, keep_eta, keep_recordWritten])

theorem keep_execDrainShutdownComplete (a0 s)  : Keeps s (execDrainShutdownComplete a0 s) := by unfold execDrainShutdownComplete; (repeat' split) <;> first | exact keeps_fault _ _ | exact keeps_refused _ _  | exact keeps_next (by simp only [keep_mk, keep_eta, keep_drainOver])

theorem keep_configured (s)  : keep (configured s) = keep s := by unfold configured; (repeat' split) <;> simp only [keep_mk, keep_eta, keep_bootFail, keep_rejectEvent, keep_passStage, keep_loadConfig]

theorem keep_execConfigurationDone (s)  : Keeps s (execConfigurationDone s) := keeps_next (by simp only [keep_mk, keep_eta, keep_configured])

theorem keep_beginStep7 (s)  : keep (beginStep7 s) = keep s := by
  unfold beginStep7
  dsimp only
  split
  · simp only [keep_bootFail, keep_cocoonUp]
  · have h1 : ∀ (t : State) (l : List Nat), keep (l.foldl (fun s n => if subExists s n then beginTraining s n else s) t) = keep t :=
      fun t l => keep_foldl _ _ _ (fun _ _ => by split; · exact keep_beginTraining _ _
                                                 · rfl)
    split <;> simp only [keep_tdmSend, h1, keep_cocoonUp]

theorem keep_stageExpired (s)  : keep (stageExpired s) = keep s := by
  unfold stageExpired
  repeat' first | rfl | split | refine (keep_foldl _ _ _ (fun _ _ => ?_)).trans ?_ | simp only [keep_mk, keep_eta, keep_rejectSlot, keep_bootFail]

theorem keep_step9Expired (s)  : keep (step9Expired s) = keep s := by unfold step9Expired; (repeat' split) <;> simp only [keep_mk, keep_eta, keep_fatal]

theorem keep_limitExpired (s)  : keep (limitExpired s) = keep s := by unfold limitExpired; (repeat' split) <;> simp only [keep_mk, keep_eta, keep_step9Expired, keep_stageExpired]

theorem keep_execBootStageLimitExpiry (s)  : Keeps s (execBootStageLimitExpiry s) := keeps_next (by simp only [keep_mk, keep_eta, keep_limitExpired])

theorem keep_markSwept (s a1)  : keep (markSwept s a1) = keep s := by
  unfold markSwept
  repeat' first | rfl | split | refine (keep_foldl _ _ _ (fun _ _ => ?_)).trans ?_ | simp only [keep_mk, keep_eta]

theorem keep_dramSwept (s a1 a2 a3)  : keep (dramSwept s a1 a2 a3) = keep s := by
  unfold dramSwept
  repeat' first | rfl | split | refine (keep_foldl _ _ _ (fun _ _ => ?_)).trans ?_ | refine (keep_lateStage _ _ _ _  (fun _ => ?_)).trans ?_ | simp only [keep_mk, keep_eta, keep_lateStage, keep_markSwept, keep_scanResults]

theorem keep_dramTrained (s a1 a2)  : keep (dramTrained s a1 a2) = keep s := by
  unfold dramTrained
  repeat' first | rfl | split | refine (keep_foldl _ _ _ (fun _ _ => ?_)).trans ?_ | simp only [keep_mk, keep_eta, keep_beginStep7, keep_passStage, keep_cured, keep_bootFail]

theorem keep_execDramTrainingDone (a0 a1 s)  : Keeps s (execDramTrainingDone a0 a1 s) := keeps_next (by simp only [keep_mk, keep_eta, keep_dramTrained])

theorem keep_stackTimeout (s a1 a2)  : keep (stackTimeout s a1 a2) = keep s := by unfold stackTimeout; (repeat' split) <;> simp only [keep_mk, keep_eta, keep_bootFail, keep_stackFail]

theorem keep_execStackAccessTimeout (a0 a1 s)  : Keeps s (execStackAccessTimeout a0 a1 s) := by unfold execStackAccessTimeout; (repeat' split) <;> first | exact keeps_fault _ _ | exact keeps_refused _ _  | exact keeps_next (by simp only [keep_mk, keep_eta, keep_stackTimeout])

theorem keep_execPwrfailLAsserted (a0 s)  : Keeps s (execPwrfailLAsserted a0 s) := by unfold execPwrfailLAsserted; (repeat' split) <;> first | exact keeps_fault _ _ | exact keeps_refused _ _  | exact keeps_next (by simp only [keep_mk, keep_eta, keep_powerFail])

theorem keep_execDramSweepDone (a0 a1 a2 s)  : Keeps s (execDramSweepDone a0 a1 a2 s) := keeps_next (by simp only [keep_mk, keep_eta, keep_dramSwept])

theorem keep_execRecoveryScanDone (a0 s)  : Keeps s (execRecoveryScanDone a0 s) := by unfold execRecoveryScanDone; (repeat' split) <;> first | exact keeps_fault _ _ | exact keeps_refused _ _  | exact keeps_next (by simp only [keep_mk, keep_eta, keep_scanEnded])

theorem keep_execMemoryPreparationDone (a0 a1 s)  : Keeps s (execMemoryPreparationDone a0 a1 s) := keeps_next (by simp only [keep_mk, keep_eta, keep_memoryPrepared])

theorem keep_activate (s a1 a2) (h2 : ∀ t, keep (a2 t) = keep t) : keep (activate s a1 a2) = keep s := by
  unfold activate
  repeat' first | rfl | split | refine (keep_foldl _ _ _ (fun _ _ => ?_)).trans ?_ | refine (keep_asManager _ _ _ _  (fun _ => ?_)).trans ?_ | simp only [keep_mk, keep_eta, h2, keep_asManager, keep_reply]

theorem keep_spdmExchange (s a1 a2 a3)  : keep (spdmExchange s a1 a2 a3) = keep s := by unfold spdmExchange; grind [keep_mk, keep_eta, keep_reply, keep_spdmServe, keep_takeFree, keep_emit]

theorem keep_execSpdmExchange (a0 a1 a2 s)  : Keeps s (execSpdmExchange a0 a1 a2 s) := keeps_next (by simp only [keep_mk, keep_eta, keep_spdmExchange])

theorem keep_leaveActivation (s a1 a2)  : keep (leaveActivation s a1 a2) = keep s := by unfold leaveActivation; (repeat' split) <;> simp only [keep_mk, keep_eta, keep_noteOwned, keep_noteMode, keep_reply, keep_releaseHolds]

theorem keep_slotInfo (s a1)  : keep (slotInfo s a1) = keep s := by unfold slotInfo; simp only [keep_mk, keep_eta, keep_reply]

theorem keep_execImageSlotInfo (a0 s)  : Keeps s (execImageSlotInfo a0 s) := by
  unfold execImageSlotInfo
  repeat' first | exact keeps_fault _ _ | refine (keep_asManagerIn _ _ _ _ _  (fun _ => ?_)).trans ?_ | refine keeps_next ?_ | rfl | split | refine (keep_foldl _ _ _ (fun _ _ => ?_)).trans ?_ | simp only [keep_mk, keep_eta, keep_asManagerIn, keep_slotInfo]

theorem keep_activateLive (s a1 a2)  : keep (activateLive s a1 a2) = keep s := by unfold activateLive; (repeat' split) <;> simp only [keep_mk, keep_eta, keep_reply, keep_noteMode]

theorem keep_underImage (s a1)  : keep (underImage s a1) = keep s := rfl

theorem keep_keepRules (s)  : keep (keepRules s) = keep s := by unfold keepRules; simp only [keep_mk, keep_eta, keep_latchRules]

theorem keep_imageSwap (s a1 a2 a3)  : keep (imageSwap s a1 a2 a3) = keep s := by unfold imageSwap; grind [keep_mk, keep_eta, keep_leaveActivation, keep_underImage, keep_keepRules, keep_measureImage, keep_setBr, keep_setMeas, keep_writeEvent, keep_loadLive]

theorem keep_execImageSwap (a0 a1 a2 s)  : Keeps s (execImageSwap a0 a1 a2 s) := by unfold execImageSwap; (repeat' split) <;> first | exact keeps_fault _ _ | exact keeps_refused _ _  | exact keeps_next (by simp only [keep_mk, keep_eta, keep_imageSwap])

theorem keep_execImageActivateLive (a0 a1 s)  : Keeps s (execImageActivateLive a0 a1 s) := by
  unfold execImageActivateLive
  repeat' first | exact keeps_fault _ _ | refine (keep_activate _ _ _  (fun _ => ?_)).trans ?_ | refine keeps_next ?_ | rfl | split | refine (keep_foldl _ _ _ (fun _ _ => ?_)).trans ?_ | simp only [keep_mk, keep_eta, keep_activate, keep_activateLive]

theorem keep_execMctpSpdm (a0 a1 a2 s)  : Keeps s (execMctpSpdm a0 a1 a2 s) := by unfold execMctpSpdm; (repeat' split) <;> first | exact keeps_fault _ _ | exact keeps_refused _ _  | exact keeps_next (by simp only [keep_mk, keep_eta, keep_spdmRequest])

theorem keep_closePortCtxs (s)  : keep (closePortCtxs s) = keep s := rfl

theorem keep_flushHolding (s a1)  : keep (flushHolding s a1) = keep s := by
  unfold flushHolding
  repeat' first | rfl | split | refine (keep_foldl _ _ _ (fun _ _ => ?_)).trans ?_ | simp only [keep_mk, keep_eta, keep_emit, keep_setFn]

theorem keep_svcRegsClear (s)  : keep (svcRegsClear s) = keep s := rfl

theorem keep_onFn (a0 s a2) (h2 : ∀ t, keep (a2 t) = keep t) : Keeps s (onFn a0 s a2) := by unfold onFn; (repeat' split) <;> first | exact keeps_fault _ _ | exact keeps_refused _ _  | exact keeps_next (by simp only [keep_mk, keep_eta, h2])

theorem keep_onLiveFn (a0 s a2) (h2 : ∀ t, keep (a2 t) = keep t) : Keeps s (onLiveFn a0 s a2) := by
  unfold onLiveFn
  repeat' first | exact keeps_fault _ _ | refine keep_onFn _ _ _  (fun _ => ?_) | refine keeps_next ?_ | rfl | split | refine (keep_foldl _ _ _ (fun _ _ => ?_)).trans ?_ | simp only [keep_mk, keep_eta, h2]

theorem keep_execD3hotEntry (a0 a1 s)  : Keeps s (execD3hotEntry a0 a1 s) := by
  unfold execD3hotEntry
  repeat' first | exact keeps_fault _ _ | refine keep_onLiveFn _ _ _  (fun _ => ?_) | refine keeps_next ?_ | rfl | split | refine (keep_foldl _ _ _ (fun _ _ => ?_)).trans ?_ | simp only [keep_mk, keep_eta, keep_setFn]

theorem keep_fnBind (s a1 a2)  : keep (fnBind s a1 a2) = keep s := by
  unfold fnBind
  repeat' first | rfl | split | refine (keep_foldl _ _ _ (fun _ _ => ?_)).trans ?_ | simp only [keep_mk, keep_eta, keep_reply, keep_catCommand]

theorem keep_execServiceFunctionBind (a0 a1 s)  : Keeps s (execServiceFunctionBind a0 a1 s) := by
  unfold execServiceFunctionBind
  repeat' first | exact keeps_fault _ _ | refine (keep_asManager _ _ _ _  (fun _ => ?_)).trans ?_ | refine keeps_next ?_ | rfl | split | refine (keep_foldl _ _ _ (fun _ _ => ?_)).trans ?_ | simp only [keep_mk, keep_eta, keep_asManager, keep_fnBind]

theorem keep_flrDone (s a1)  : keep (flrDone s a1) = keep s := by
  unfold flrDone
  repeat' first | rfl | split | refine (keep_foldl _ _ _ (fun _ _ => ?_)).trans ?_ | simp only [keep_mk, keep_eta, keep_setFn]

theorem keep_unmask (s a1 a2 a3)  : keep (unmask s a1 a2 a3) = keep s := by
  unfold unmask
  repeat' first | rfl | split | refine (keep_foldl _ _ _ (fun _ _ => ?_)).trans ?_ | simp only [keep_mk, keep_eta, keep_setFn, keep_raiseVec]

theorem keep_vectorControl (s a1 a2 a3)  : keep (vectorControl s a1 a2 a3) = keep s := by unfold vectorControl; (repeat' split) <;> simp only [keep_mk, keep_eta, keep_setFn, keep_unmask]

theorem keep_bellWrite (s a1 a2 a3)  : keep (bellWrite s a1 a2 a3) = keep s := by
  unfold bellWrite
  repeat' first | rfl | split | refine (keep_foldl _ _ _ (fun _ _ => ?_)).trans ?_ | simp only [keep_mk, keep_eta, keep_setFn]

theorem keep_fnEnable (s a1)  : keep (fnEnable s a1) = keep s := by unfold fnEnable; (repeat' split) <;> simp only [keep_mk, keep_eta, keep_setFn, keep_setAssoc]

theorem keep_fnDisable (s a1)  : keep (fnDisable s a1) = keep s := by
  unfold fnDisable
  repeat' first | rfl | split | refine (keep_foldl _ _ _ (fun _ _ => ?_)).trans ?_ | refine (keep_assocEndBy _ _ _ _  (fun _ _ => ?_)).trans ?_ | simp only [keep_mk, keep_eta, keep_assocEndBy, keep_abortCtx, keep_setFn]

theorem keep_ccWrite (s a1 a2)  : keep (ccWrite s a1 a2) = keep s := by
  unfold ccWrite
  repeat' first | rfl | split | refine (keep_foldl _ _ _ (fun _ _ => ?_)).trans ?_ | simp only [keep_mk, keep_eta, keep_setFn, keep_fnEnable, keep_fnDisable]

theorem keep_fnWrite (s a1 a2 a3)  : keep (fnWrite s a1 a2 a3) = keep s := by
  unfold fnWrite
  repeat' first | rfl | split | refine (keep_foldl _ _ _ (fun _ _ => ?_)).trans ?_ | simp only [keep_mk, keep_eta, keep_bellWrite, keep_vectorControl, keep_ccWrite, keep_setFn]

theorem keep_execSvcNvmeRegisterWrite (a0 a1 a2 s)  : Keeps s (execSvcNvmeRegisterWrite a0 a1 a2 s) := by
  unfold execSvcNvmeRegisterWrite
  repeat' first | exact keeps_fault _ _ | refine keep_onFn _ _ _  (fun _ => ?_) | refine keeps_next ?_ | rfl | split | refine (keep_foldl _ _ _ (fun _ _ => ?_)).trans ?_ | simp only [keep_mk, keep_eta, keep_fnWrite]

theorem keep_bmeHoldOver (s a1)  : keep (bmeHoldOver s a1) = keep s := by
  unfold bmeHoldOver
  repeat' first | rfl | split | refine (keep_foldl _ _ _ (fun _ _ => ?_)).trans ?_ | refine (keep_vcResetBy _ _ _ _  (fun _ _ => ?_)).trans ?_ | simp only [keep_mk, keep_eta, keep_vcResetBy, keep_abortCtx, keep_setFn, keep_writeEvent]

theorem keep_svcLinkLost (s)  : keep (svcLinkLost s) = keep s := by unfold svcLinkLost; (repeat' split) <;> simp only [keep_mk, keep_eta, keep_writeEvent, keep_closePortCtxs]

theorem keep_dmaCompletion (s a1 a2 a3 a4)  : keep (dmaCompletion s a1 a2 a3 a4) = keep s := by
  unfold dmaCompletion
  repeat' first | rfl | split | refine (keep_foldl _ _ _ (fun _ _ => ?_)).trans ?_ | simp only [keep_mk, keep_eta, keep_discardStale, keep_rcAdd, keep_setFn, keep_hostTransfer]

theorem keep_execSvcDmaReadCompletion (a0 a1 a2 a3 s)  : Keeps s (execSvcDmaReadCompletion a0 a1 a2 a3 s) := by
  unfold execSvcDmaReadCompletion
  repeat' first | exact keeps_fault _ _ | refine keep_onFn _ _ _  (fun _ => ?_) | refine (keep_atPoint _ _ _ _ _  (fun _ => ?_)).trans ?_ | refine keeps_next ?_ | rfl | split | refine (keep_foldl _ _ _ (fun _ _ => ?_)).trans ?_ | simp only [keep_mk, keep_eta, keep_atPoint, keep_dmaCompletion]

theorem keep_svcLinkTrained (s a1 a2)  : keep (svcLinkTrained s a1 a2) = keep s := by unfold svcLinkTrained; (repeat' split) <;> simp only [keep_mk, keep_eta, keep_writeEvent]

theorem keep_execSvcLinkDown (s)  : Keeps s (execSvcLinkDown s) := keeps_next (by simp only [keep_mk, keep_eta, keep_svcLinkLost])

theorem keep_execBmeHoldExpiry (a0 s)  : Keeps s (execBmeHoldExpiry a0 s) := by
  unfold execBmeHoldExpiry
  repeat' first | exact keeps_fault _ _ | refine keep_onFn _ _ _  (fun _ => ?_) | refine keeps_next ?_ | rfl | split | refine (keep_foldl _ _ _ (fun _ _ => ?_)).trans ?_ | simp only [keep_mk, keep_eta, keep_bmeHoldOver]

theorem keep_mctpControlMsg (s a1 a2)  : keep (mctpControlMsg s a1 a2) = keep s := by
  unfold mctpControlMsg
  repeat' first | rfl | split | refine (keep_foldl _ _ _ (fun _ _ => ?_)).trans ?_ | simp only [keep_mk, keep_eta, keep_emit, keep_takeFree]

theorem keep_execMctpControl (a0 a1 s)  : Keeps s (execMctpControl a0 a1 s) := keeps_next (by simp only [keep_mk, keep_eta, keep_mctpControlMsg])

theorem keep_execMsixUnmask (a0 a1 a2 s)  : Keeps s (execMsixUnmask a0 a1 a2 s) := by
  unfold execMsixUnmask
  repeat' first | exact keeps_fault _ _ | refine keep_onFn _ _ _  (fun _ => ?_) | refine keeps_next ?_ | rfl | split | refine (keep_foldl _ _ _ (fun _ _ => ?_)).trans ?_ | simp only [keep_mk, keep_eta, keep_unmask]

theorem keep_perstReleased (s)  : keep (perstReleased s) = keep s := by unfold perstReleased; (repeat' split) <;> simp only [keep_mk, keep_eta, keep_writeEvent]

theorem keep_execSvcPerstRelease (s)  : Keeps s (execSvcPerstRelease s) := keeps_next (by simp only [keep_mk, keep_eta, keep_perstReleased])

theorem keep_execFlrComplete (a0 s)  : Keeps s (execFlrComplete a0 s) := by
  unfold execFlrComplete
  repeat' first | exact keeps_fault _ _ | refine keep_onFn _ _ _  (fun _ => ?_) | refine keeps_next ?_ | rfl | split | refine (keep_foldl _ _ _ (fun _ _ => ?_)).trans ?_ | simp only [keep_mk, keep_eta, keep_flrDone]

theorem keep_execSvcLinkUp (a0 a1 s)  : Keeps s (execSvcLinkUp a0 a1 s) := keeps_next (by simp only [keep_mk, keep_eta, keep_svcLinkTrained])

theorem keep_execD0Return (a0 a1 s)  : Keeps s (execD0Return a0 a1 s) := by
  unfold execD0Return
  repeat' first | exact keeps_fault _ _ | refine keep_onLiveFn _ _ _  (fun _ => ?_) | refine keeps_next ?_ | rfl | split | refine (keep_foldl _ _ _ (fun _ _ => ?_)).trans ?_ | simp only [keep_mk, keep_eta, keep_flushHolding, keep_setFn]

theorem keep_jtagScan (s)  : keep (jtagScan s) = keep s := rfl

theorem keep_jtagDrive (s)  : keep (jtagDrive s) = keep s := by unfold jtagDrive; (repeat' split) <;> simp only [keep_mk, keep_eta, keep_jtagScan, keep_emit]

theorem keep_noteTemp (s a1 a2)  : keep (noteTemp s a1 a2) = keep s := by unfold noteTemp; (repeat' split) <;> simp only [keep_mk, keep_eta]

theorem keep_execMgmtPortLinkDown (s)  : Keeps s (execMgmtPortLinkDown s) := keeps_next (by simp only [keep_mk, keep_eta])

theorem keep_execJtagBypass (s)  : Keeps s (execJtagBypass s) := keeps_next (by simp only [keep_mk, keep_eta, keep_jtagScan])

theorem keep_refclkLoss (s a1 a2)  : keep (refclkLoss s a1 a2) = keep s := by unfold refclkLoss; (repeat' split) <;> simp only [keep_mk, keep_eta, keep_powerFail]

theorem keep_execRefclkLoss (a0 a1 s)  : Keeps s (execRefclkLoss a0 a1 s) := keeps_next (by simp only [keep_mk, keep_eta, keep_refclkLoss])

theorem keep_execJtagExtest (s)  : Keeps s (execJtagExtest s) := keeps_next (by simp only [keep_mk, keep_eta, keep_jtagDrive])

theorem keep_pllLinksDown (s a1)  : keep (pllLinksDown s a1) = keep s := by
  unfold pllLinksDown
  split
  · exact keep_foldl _ _ _ (fun _ _ => keep_linkGoesDown _ _)
  · exact keep_foldl _ _ _ (fun _ _ => keep_spkContain _ _ _)
  · exact keep_tandemDown _ _
  · exact keep_svcLinkLost _

theorem keep_pllLost (s a1)  : keep (pllLost s a1) = keep s := by unfold pllLost; (repeat' split) <;> simp only [keep_mk, keep_eta, keep_pllLinksDown]

theorem keep_execPllLockLost (a0 s)  : Keeps s (execPllLockLost a0 s) := by unfold execPllLockLost; (repeat' split) <;> first | exact keeps_fault _ _ | exact keeps_refused _ _  | exact keeps_next (by simp only [keep_mk, keep_eta, keep_pllLost])

theorem keep_execJtagClamp (s)  : Keeps s (execJtagClamp s) := keeps_next (by simp only [keep_mk, keep_eta, keep_jtagDrive])

theorem keep_setWarned (s a1)  : keep (setWarned s a1) = keep s := by unfold setWarned; (repeat' split) <;> simp only [keep_mk, keep_eta]

theorem keep_tempWarning (s a1 a2 a3)  : keep (tempWarning s a1 a2 a3) = keep s := by
  unfold tempWarning
  repeat' first | rfl | split | refine (keep_foldl _ _ _ (fun _ _ => ?_)).trans ?_ | simp only [keep_mk, keep_eta, keep_noteTemp, keep_writeEvent, keep_setWarned]

theorem keep_execTempWarning (a0 a1 a2 s)  : Keeps s (execTempWarning a0 a1 a2 s) := keeps_next (by simp only [keep_mk, keep_eta, keep_tempWarning])

theorem keep_mgmtUp (s)  : keep (mgmtUp s) = keep s := by unfold mgmtUp; (repeat' split) <;> simp only [keep_mk, keep_eta]

theorem keep_execMgmtPortLinkUp (s)  : Keeps s (execMgmtPortLinkUp s) := keeps_next (by simp only [keep_mk, keep_eta, keep_mgmtUp])

theorem keep_execJtagSamplePreload (s)  : Keeps s (execJtagSamplePreload s) := keeps_next (by simp only [keep_mk, keep_eta, keep_jtagScan])

theorem keep_execRailMonitorTrip (a0 a1 s)  : Keeps s (execRailMonitorTrip a0 a1 s) := by unfold execRailMonitorTrip; (repeat' split) <;> first | exact keeps_fault _ _ | exact keeps_refused _ _  | exact keeps_next (by simp only [keep_mk, keep_eta, keep_powerFail])

theorem keep_execJtagIdcode (s)  : Keeps s (execJtagIdcode s) := keeps_next (by simp only [keep_mk, keep_eta, keep_emit])

theorem keep_execTempShutdownLimit (a0 a1 s)  : Keeps s (execTempShutdownLimit a0 a1 s) := by unfold execTempShutdownLimit; (repeat' split) <;> first | exact keeps_fault _ _ | exact keeps_refused _ _  | exact keeps_next (by simp only [keep_mk, keep_eta, keep_fatal])

theorem keep_eventRead (s a1 a2 a3)  : keep (eventRead s a1 a2 a3) = keep s := by unfold eventRead; (repeat' split) <;> simp only [keep_mk, keep_eta, keep_reply]

theorem keep_dramCorrected (s a1 a2)  : keep (dramCorrected s a1 a2) = keep s := by
  unfold dramCorrected
  repeat' first | rfl | split | refine (keep_foldl _ _ _ (fun _ _ => ?_)).trans ?_ | simp only [keep_mk, keep_eta, keep_count, keep_rcAdd, keep_flipHit, keep_setRegion, keep_writeEvent]

theorem keep_cycClear (s)  : keep (cycClear s) = keep s := rfl

theorem keep_cycResume (s)  : keep (cycResume s) = keep s := rfl

theorem keep_cycCtlWrite (s a1)  : keep (cycCtlWrite s a1) = keep s := by unfold cycCtlWrite; (repeat' split) <;> simp only [keep_mk, keep_eta, keep_cycClear, keep_freezeNow, keep_cycResume]

theorem keep_execCycClearAll (a0 s)  : Keeps s (execCycClearAll a0 s) := keeps_next (by simp only [keep_mk, keep_eta, keep_cycCtlWrite])

theorem keep_freezePin (s a1)  : keep (freezePin s a1) = keep s := by unfold freezePin; (repeat' split) <;> simp only [keep_mk, keep_eta, keep_freezeNow]

theorem keep_execFreezePinEdge (a0 s)  : Keeps s (execFreezePinEdge a0 s) := keeps_next (by simp only [keep_mk, keep_eta, keep_freezePin])

theorem keep_drainOne (s)  : keep (drainOne s) = keep s := by unfold drainOne; (repeat' split) <;> simp only [keep_mk, keep_eta, keep_freezeOn, keep_ringPut]

theorem keep_drainQueue (s)  : keep (drainQueue s) = keep s := by
  unfold drainQueue
  repeat' first | rfl | split | refine (keep_foldl _ _ _ (fun _ _ => ?_)).trans ?_ | simp only [keep_mk, keep_eta, keep_drainOne, keep_writeEvent]

end Sys2Proof.Machine
end

