-- ==== Sys2Proof/Laws/Keep8.lean ====
section
/-! SUPPORT. One lemma per operation of the model: it leaves the queue, TRS_BUF, the NOR, the field lock and the SVN bank as they
were (part 9 of 9; the operations that do touch one of them are in Laws/Grow.lean). -/

namespace Sys2Proof.Machine

set_option linter.unusedSimpArgs false
set_option linter.unusedVariables false

theorem keep_execEventQueueDrain (s)  : Keeps s (execEventQueueDrain s) := keeps_next (by simp only [keep_mk, keep_eta, keep_drainQueue])

theorem keep_evrWindowRead (s a1 a2 a3)  : keep (evrWindowRead s a1 a2 a3).2 = keep s := by unfold evrWindowRead; simp only [keep_mk, keep_eta, keep_snapWords]

theorem keep_execCycResume (a0 s)  : Keeps s (execCycResume a0 s) := keeps_next (by simp only [keep_mk, keep_eta, keep_cycCtlWrite])

theorem keep_unpoison (s a1 a2)  : keep (unpoison s a1 a2) = keep s := rfl

theorem keep_dramScrub (s a1 a2 a3 a4)  : keep (dramScrub s a1 a2 a3 a4) = keep s := by
  unfold dramScrub
  repeat' first | rfl | split | refine (keep_foldl _ _ _ (fun _ _ => ?_)).trans ?_ | simp only [keep_mk, keep_eta, keep_setRegion, keep_flipRead, keep_writeEvent, keep_unpoison, keep_dramCorrected, keep_transient, keep_dramPoison]

theorem keep_captureRead (s a1 a2 a3)  : keep (captureRead s a1 a2 a3).2 = keep s := rfl

theorem keep_execDramScrubLine (a0 a1 a2 a3 s)  : Keeps s (execDramScrubLine a0 a1 a2 a3 s) := by unfold execDramScrubLine; (repeat' split) <;> first | exact keeps_fault _ _ | exact keeps_refused _ _  | exact keeps_next (by simp only [keep_mk, keep_eta, keep_dramScrub])

theorem keep_execEvrWindowRead (a0 s)  : Keeps s (execEvrWindowRead a0 s) := keeps_next (by simp only [keep_mk, keep_eta, keep_answerRead, keep_evrWindowRead])

theorem keep_execCycFreeze (a0 s)  : Keeps s (execCycFreeze a0 s) := keeps_next (by simp only [keep_mk, keep_eta, keep_cycCtlWrite])

theorem keep_flipWrite (s a1)  : keep (flipWrite s a1) = keep s := by unfold flipWrite; (repeat' split) <;> simp only [keep_mk, keep_eta]

theorem keep_execFlipArm (a0 s)  : Keeps s (execFlipArm a0 s) := keeps_next (by simp only [keep_mk, keep_eta, keep_flipWrite])

theorem keep_execPtbCaptureRead (a0 s)  : Keeps s (execPtbCaptureRead a0 s) := by
  unfold execPtbCaptureRead
  repeat' first | exact keeps_fault _ _ | refine keeps_next ?_ | grind [keep_mk, keep_eta, keep_answerRead, keep_captureRead]

theorem keep_suppSummary (s)  : keep (suppSummary s) = keep s := by unfold suppSummary; (repeat' split) <;> simp only [keep_mk, keep_eta, keep_writeEvent]

theorem keep_execEvrSuppressedSummary (s)  : Keeps s (execEvrSuppressedSummary s) := keeps_next (by simp only [keep_mk, keep_eta, keep_suppSummary])

theorem keep_windowEnd (s)  : keep (windowEnd s) = keep s := by unfold windowEnd; (repeat' split) <;> simp only [keep_mk, keep_eta]

theorem keep_execCycWindowEnd (s)  : Keeps s (execCycWindowEnd s) := keeps_next (by simp only [keep_mk, keep_eta, keep_windowEnd])

theorem keep_execEventRead (a0 a1 a2 a3 s)  : Keeps s (execEventRead a0 a1 a2 a3 s) := by
  unfold execEventRead
  repeat' first | exact keeps_fault _ _ | refine (keep_asManagerIn _ _ _ _ _  (fun _ => ?_)).trans ?_ | refine keeps_next ?_ | rfl | split | refine (keep_foldl _ _ _ (fun _ _ => ?_)).trans ?_ | simp only [keep_mk, keep_eta, keep_asManagerIn, keep_eventRead]

theorem keep_dlogSet (s a1)  : keep (dlogSet s a1) = keep s := by
  unfold dlogSet
  repeat' first | rfl | split | refine (keep_foldl _ _ _ (fun _ _ => ?_)).trans ?_ | simp only [keep_mk, keep_eta, keep_setDlog]

theorem keep_w1cWrite (s a1 a2 a3)  : keep (w1cWrite s a1 a2 a3) = keep s := rfl

theorem keep_onCtr (s a1)  : keep (onCtr s a1) = keep s := rfl

theorem keep_rcClear (s a1 a2)  : keep (rcClear s a1 a2) = keep s := by unfold rcClear; (repeat' split) <;> simp only [keep_mk, keep_eta, keep_setChan, keep_setFeed]

theorem keep_takeSnaps (s a1 a2 a3 a4)  : keep (takeSnaps s a1 a2 a3 a4) = keep s := by unfold takeSnaps; (repeat' split) <;> simp only [keep_mk, keep_eta, keep_snapWords]

theorem keep_regRead (s a1 a2 a3 a4)  : keep (regRead s a1 a2 a3 a4).2 = keep s := by unfold regRead; grind [keep_mk, keep_eta, keep_dlogHarvest, keep_evrWindowRead, keep_pageRecRead, keep_sampleRead, keep_captureRead, keep_rcClear, keep_takeSnaps]

theorem keep_putSels (s a1)  : keep (putSels s a1) = keep s := by
  unfold putSels
  repeat' first | rfl | split | refine (keep_foldl _ _ _ (fun _ _ => ?_)).trans ?_ | simp only [keep_mk, keep_eta, keep_rwPut]

theorem keep_atomicRead (s a1 a2)  : keep (atomicRead s a1 a2).2 = keep s := by unfold atomicRead; (repeat' split) <;> simp only [keep_mk, keep_eta, keep_regRead, keep_putSels]

theorem keep_registerRead (s a1 a2 a3 a4 a5)  : keep (registerRead s a1 a2 a3 a4 a5) = keep s := by
  unfold registerRead
  repeat' first | rfl | split | refine (keep_foldl _ _ _ (fun _ _ => ?_)).trans ?_ | refine (keep_asManagerIn _ _ _ _ _  (fun _ => ?_)).trans ?_ | simp only [keep_mk, keep_eta, keep_asManagerIn, keep_reply, keep_atomicRead, keep_regRead]

theorem keep_execRegisterRead (a0 a1 a2 a3 a4 s)  : Keeps s (execRegisterRead a0 a1 a2 a3 a4 s) := keeps_next (by simp only [keep_mk, keep_eta, keep_registerRead])

theorem keep_selWrite (s a1 a2)  : keep (selWrite s a1 a2) = keep s := by unfold selWrite; (repeat' split) <;> simp only [keep_mk, keep_eta, keep_rwPut]

theorem keep_holdHi (s a1 a2 a3)  : keep (holdHi s a1 a2 a3) = keep s := rfl

theorem keep_takeHi (s a1 a2 a3)  : keep (takeHi s a1 a2 a3).2 = keep s := by unfold takeHi; (repeat' split) <;> simp only [keep_mk, keep_eta]

theorem keep_loWrite (s a1 a2 a3)  : keep (loWrite s a1 a2 a3) = keep s := by unfold loWrite; grind [keep_mk, keep_eta, keep_takeHi, keep_rwPut, keep_dlogSet, keep_onCtr]

theorem keep_clkWrite (s a1 a2)  : keep (clkWrite s a1 a2) = keep s := rfl

theorem keep_badAccess (s a1)  : keep (badAccess s a1) = keep s := by unfold badAccess; (repeat' split) <;> simp only [keep_mk, keep_eta, keep_emit]

theorem keep_readAt (s a1 a2)  : keep (readAt s a1 a2) = keep s := by unfold readAt; (repeat' split) <;> simp only [keep_mk, keep_eta, keep_answerRead, keep_regRead, keep_badAccess]

theorem keep_execLoRegisterRead (a0 s)  : Keeps s (execLoRegisterRead a0 s) := keeps_next (by simp only [keep_mk, keep_eta, keep_readAt])

theorem keep_execReadClearCounter (a0 a1 s)  : Keeps s (execReadClearCounter a0 a1 s) := keeps_next (by simp only [keep_mk, keep_eta, keep_readAt])

theorem keep_mctpRebuild (a0 a1 s)  : Keeps s (mctpRebuild a0 a1 s) := by unfold mctpRebuild; (repeat' split) <;> first | exact keeps_fault _ _ | exact keeps_refused _ _ | apply keep_execRebuildCancel | apply keep_execRebuildStart | exact keeps_next (by simp only [keep_mk, keep_eta])

theorem keep_mctpTandem (a0 a1 a2 a3 s)  : Keeps s (mctpTandem a0 a1 a2 a3 s) := by unfold mctpTandem; (repeat' split) <;> first | exact keeps_fault _ _ | exact keeps_refused _ _ | apply keep_execAbandonHandback | apply keep_execTandemReleaseGroup | exact keeps_next (by simp only [keep_mk, keep_eta])

theorem keep_idleTick (s)  : keep (idleTick s) = keep s := by unfold idleTick; (repeat' split) <;> simp only [keep_mk, keep_eta, keep_count]

end Sys2Proof.Machine
end

