-- ==== Sys2Proof/Laws/Tables.lean ====
section
/-! SUPPORT. What the operations over sparse tables and byte memories do: a read after a write, and that every write keeps the
canonical form. -/

namespace Sys2Proof.Machine

variable {α : Type} [DecidableEq α]

/-- A canonical table whose indices all lie at or above a bound is canonical from any lower bound on. -/
theorem twf_mono {d : α} {t : Tbl α} {lo lo' : Nat} (h : twf d lo t = true) (hle : lo' ≤ lo) : twf d lo' t = true := by
  cases t with
  | nil => rfl
  | cons x r =>
    obtain ⟨i, v⟩ := x
    simp only [twf, Bool.and_eq_true, decide_eq_true_eq] at h ⊢
    exact ⟨⟨by omega, h.1.2⟩, h.2⟩

/-- Removing an entry keeps the canonical form. -/
theorem twf_tdel {d : α} {t : Tbl α} {lo : Nat} (k : Nat) (h : twf d lo t = true) : twf d lo (tdel t k) = true := by
  induction t generalizing lo with
  | nil => rfl
  | cons x r ih =>
    obtain ⟨i, v⟩ := x
    have h' := h
    simp only [twf, Bool.and_eq_true, decide_eq_true_eq] at h
    unfold tdel
    split
    · exact twf_mono h.2 (by omega)
    · split
      · exact h'
      · simp only [twf, Bool.and_eq_true, decide_eq_true_eq]
        exact ⟨h.1, ih h.2⟩

/-- Inserting a value that is not the default keeps the canonical form. -/
theorem twf_tins {d : α} {t : Tbl α} {lo k : Nat} {v : α} (hk : lo ≤ k) (hv : v ≠ d) (h : twf d lo t = true) :
    twf d lo (tins t k v) = true := by
  induction t generalizing lo with
  | nil => simp [tins, twf, hk, hv]
  | cons x r ih =>
    obtain ⟨i, w⟩ := x
    have h' := h
    simp only [twf, Bool.and_eq_true, decide_eq_true_eq] at h
    unfold tins
    split
    · rename_i e
      subst e
      simp [twf, hk, hv, h.2]
    · split
      · rename_i e
        simp only [twf, Bool.and_eq_true, decide_eq_true_eq]
        exact ⟨⟨hk, hv⟩, ⟨⟨by omega, h.1.2⟩, h.2⟩⟩
      · simp only [twf, Bool.and_eq_true, decide_eq_true_eq]
        exact ⟨h.1, ih (by omega) h.2⟩

/-- Writing a table keeps the canonical form. -/
theorem twf_tput {d : α} {t : Tbl α} {lo k : Nat} (v : α) (hk : lo ≤ k) (h : twf d lo t = true) :
    twf d lo (tput t d k v) = true := by
  unfold tput
  split
  · exact twf_tdel k h
  · exact twf_tins hk ‹_› h

/-- Keeping the entries of some indices keeps the canonical form. -/
theorem twf_filter {d : α} {t : Tbl α} {lo : Nat} (p : Nat × α → Bool) (h : twf d lo t = true) :
    twf d lo (t.filter p) = true := by
  induction t generalizing lo with
  | nil => rfl
  | cons x r ih =>
    obtain ⟨i, v⟩ := x
    simp only [twf, Bool.and_eq_true, decide_eq_true_eq] at h
    rw [List.filter_cons]
    split
    · simp only [twf, Bool.and_eq_true, decide_eq_true_eq]
      exact ⟨h.1, ih h.2⟩
    · exact twf_mono (ih h.2) (by omega)

/-- An index below every index of a canonical table reads as the default. -/
theorem tget_low {d : α} {t : Tbl α} {lo k : Nat} (h : twf d lo t = true) (hk : k < lo) : tget t d k = d := by
  induction t generalizing lo with
  | nil => rfl
  | cons x r ih =>
    obtain ⟨i, v⟩ := x
    simp only [twf, Bool.and_eq_true, decide_eq_true_eq] at h
    unfold tget
    split
    · omega
    · exact ih h.2 (by omega)

/-- The value written is the value read. -/
theorem tget_tput {d : α} {t : Tbl α} {lo : Nat} (k : Nat) (v : α) (h : twf d lo t = true) : tget (tput t d k v) d k = v := by
  unfold tput
  split
  · rename_i e
    subst e
    induction t generalizing lo with
    | nil => rfl
    | cons x r ih =>
      obtain ⟨i, w⟩ := x
      have h' := h
      simp only [twf, Bool.and_eq_true, decide_eq_true_eq] at h
      unfold tdel
      split
      · exact tget_low h.2 (by omega)
      · split
        · unfold tget
          rw [if_neg (by omega)]
          exact tget_low h.2 (by omega)
        · unfold tget
          rw [if_neg ‹_›]
          exact ih h.2
  · clear h
    induction t with
    | nil => simp [tins, tget]
    | cons x r ih =>
      obtain ⟨i, w⟩ := x
      unfold tins
      split
      · simp [tget]
      · split
        · simp [tget]
        · unfold tget
          rw [if_neg ‹_›]
          exact ih

/-- A write leaves every other index as it was. -/
theorem tget_tput_ne {d : α} {t : Tbl α} {lo k j : Nat} (v : α) (h : twf d lo t = true) (hj : j ≠ k) :
    tget (tput t d k v) d j = tget t d j := by
  unfold tput
  split
  · clear ‹v = d›
    induction t generalizing lo with
    | nil => rfl
    | cons x r ih =>
      obtain ⟨i, w⟩ := x
      simp only [twf, Bool.and_eq_true, decide_eq_true_eq] at h
      unfold tdel
      split
      · rename_i e
        subst e
        conv => rhs; unfold tget
        rw [if_neg (fun e => hj e.symm)]
      · split
        · rfl
        · unfold tget
          split
          · rfl
          · exact ih h.2
  · clear h
    induction t with
    | nil =>
      simp only [tins, tget]
      rw [if_neg (fun e => hj e.symm)]
    | cons x r ih =>
      obtain ⟨i, w⟩ := x
      unfold tins
      split
      · rename_i e
        subst e
        unfold tget
        rw [if_neg (fun e => hj e.symm), if_neg (fun e => hj e.symm)]
      · split
        · conv => lhs; unfold tget
          rw [if_neg (fun e => hj e.symm)]
        · unfold tget
          split
          · rfl
          · exact ih

/-- Writing one byte keeps a memory canonical. -/
theorem memWrite_wf {d : Byte} {m : List Host.Cell} (a : Nat) (b : Byte) (h : Memory.wf d m = true) :
    Memory.wf d (memWrite d m a b) = true := twf_tput b (Nat.zero_le a) h

/-- Writing a string of bytes keeps a memory canonical. -/
theorem memWriteBytes_wf {d : Byte} {m : List Host.Cell} (a : Nat) (bs : List Byte) (h : Memory.wf d m = true) :
    Memory.wf d (memWriteBytes d m a bs) = true := by
  induction bs generalizing m a with
  | nil => exact h
  | cons b r ih => exact ih (a + 1) (memWrite_wf a b h)

/-- A byte outside the string written reads as before. -/
theorem memRead_memWriteBytes_out {d : Byte} {m : List Host.Cell} {a x : Nat} {bs : List Byte} (h : Memory.wf d m = true)
    (hx : x < a ∨ a + bs.length ≤ x) : memRead d (memWriteBytes d m a bs) x = memRead d m x := by
  induction bs generalizing m a with
  | nil => rfl
  | cons b r ih =>
    simp only [List.length_cons] at hx
    refine (ih (memWrite_wf a b h) (by omega)).trans ?_
    exact tget_tput_ne b h (by omega)

/-- A byte of the string written reads as the string has it. -/
theorem memRead_memWriteBytes_in {d : Byte} {m : List Host.Cell} {a i : Nat} {bs : List Byte} (h : Memory.wf d m = true)
    (hi : i < bs.length) : memRead d (memWriteBytes d m a bs) (a + i) = bs[i] := by
  induction bs generalizing m a i with
  | nil => simp at hi
  | cons b r ih =>
    cases i with
    | zero =>
      refine (memRead_memWriteBytes_out (memWrite_wf a b h) (by omega)).trans ?_
      exact tget_tput a b h
    | succ i =>
      have := ih (m := memWrite d m a b) (a := a + 1) (i := i) (memWrite_wf a b h) (by simpa using hi)
      rw [show a + (i + 1) = a + 1 + i from by omega]
      exact this

end Sys2Proof.Machine
end

