-- ==== Sys2Proof/Laws/Grow.lean ====
section
/-! SUPPORT. The operations that touch the queue's neighbours that `Keep` names (resets, staging, key reads, burns, the field lock,
register writes): the queue stays, the memories stay canonical, and one-time storage only grows. -/

namespace Sys2Proof.Machine

/-- What every command does to the part `keep` names. -/
structure Grows (a b : Keep) : Prop where
  pending : b.pending = a.pending
  buf : Memory.wf 0 a.buf = true → Memory.wf 0 b.buf = true
  flash : Memory.wf 0xFF a.flash = true → Memory.wf 0xFF b.flash = true
  lock : a.lock = true → b.lock = true
  svn : a.svn <+: b.svn

theorem grows_of_eq {a b : Keep} (h : b = a) : Grows a b := by
  subst h
  exact ⟨rfl, id, id, id, List.prefix_refl _⟩

theorem Grows.trans {a b c : Keep} (h : Grows a b) (g : Grows b c) : Grows a c :=
  ⟨g.pending.trans h.pending, fun x => g.buf (h.buf x), fun x => g.flash (h.flash x), fun x => g.lock (h.lock x),
   h.svn.trans g.svn⟩

theorem grows_refl (a : Keep) : Grows a a := grows_of_eq rfl

/-- An operation that grows after one that keeps. -/
theorem grows_after {s t u : State} (h : keep t = keep s) (g : Grows (keep t) (keep u)) : Grows (keep s) (keep u) := h ▸ g

/-- An operation that keeps after one that grows. -/
theorem grows_then {s t u : State} (h : Grows (keep s) (keep t)) (e : keep u = keep t) : Grows (keep s) (keep u) := e ▸ h

theorem grows_keyRead (s v) : Grows (keep s) (keep (keyRead s v)) := by
  unfold keyRead
  split
  · exact grows_refl _
  · split
    · exact grows_refl _
    · exact ⟨rfl, fun h => memWriteBytes_wf _ _ h, id, id, List.prefix_refl _⟩

theorem grows_burnDone (s ok) : Grows (keep s) (keep (burnDone s ok)) := by
  unfold burnDone
  split
  · exact grows_refl _
  · split
    · exact grows_refl _
    · split
      · exact grows_of_eq (keep_authResult _ _ _)
      · split
        · exact grows_of_eq (by simp only [keep_writeEvent, keep_authResult, keep_setOwner])
        · exact grows_of_eq (by simp only [keep_writeEvent, keep_authResult, keep_setOwner])
        · split
          · exact grows_of_eq (keep_authResult _ _ _)
          · refine grows_then (t := { s with trs := { s.trs with svnBank := s.trs.svnBank ++ [_] } }) ?_
              ((keep_writeEvent _ _).trans (keep_authResult _ _ _))
            exact ⟨rfl, id, id, id, List.prefix_append _ _⟩

/-- A fold of an operation that grows. -/
theorem grows_foldl {α : Type} (f : State → α → State) (h : ∀ s x, Grows (keep s) (keep (f s x))) (l : List α) (s : State) :
    Grows (keep s) (keep (l.foldl f s)) := by
  induction l generalizing s with
  | nil => exact grows_refl _
  | cons x l ih => exact (h s x).trans (ih _)

theorem grows_resetLogic (s w m c) : Grows (keep s) (keep (resetLogic s w m c)) := ⟨rfl, fun _ => rfl, id, id, List.prefix_refl _⟩

theorem grows_abandonSession (s) : Grows (keep s) (keep (abandonSession s)) := by
  unfold abandonSession
  split
  · exact grows_refl _
  · refine grows_then (t := { s with nor := { s.nor with session := none, flash := eraseSlot s.nor.flash (otherSlot s) } }) ?_
      (keep_writeEvent _ _)
    exact ⟨rfl, id, fun h => twf_filter _ h, id, List.prefix_refl _⟩

theorem grows_toHeld (s) : Grows (keep s) (keep (toHeld s)) :=
  (grows_then (grows_abandonSession s) (keep_releaseBoth _ 3)).trans (grows_resetLogic _ _ _ _)

theorem grows_startUp (s w c m) : Grows (keep s) (keep (startUp s w c m)) := by
  unfold startUp
  split
  · dsimp only
    split
    · exact grows_then (grows_resetLogic _ _ _ _) (keep_bootBegin _)
    · exact grows_then (grows_resetLogic _ _ _ _) ((keep_cured _ _ _).trans (keep_bootBegin _))
  · exact grows_resetLogic _ _ _ _

theorem grows_internalReset (s w c m) : Grows (keep s) (keep (internalReset s w c m)) :=
  (grows_then (grows_abandonSession s) (keep_releaseBoth _ 3)).trans (grows_startUp _ _ _ _)

theorem grows_watchdog (s m) : Grows (keep s) (keep (watchdog s m)) := by
  unfold watchdog
  split
  · exact grows_refl _
  · split
    · dsimp only
      split
      · exact grows_refl _
      · split
        · split
          · exact grows_refl _
          · exact grows_of_eq (keep_bootFail _ _ _)
        · exact grows_of_eq (keep_fatal _ _ _)
    · split
      · exact grows_refl _
      · exact grows_internalReset _ _ _ _

theorem grows_pwronAssert (s) : Grows (keep s) (keep (pwronAssert s)) := grows_then (grows_toHeld s) rfl

theorem grows_logicTrip (s) : Grows (keep s) (keep (logicTrip s)) := by
  unfold logicTrip
  split
  · exact grows_refl _
  · exact grows_then (grows_toHeld s) rfl

theorem grows_resetWrite (s v m) : Grows (keep s) (keep (resetWrite s v m)) := by
  unfold resetWrite
  split
  · exact grows_refl _
  · exact grows_refl _
  · split
    · exact grows_of_eq (keep_count _ _ _ _ _)
    · split
      · exact grows_refl _
      · split
        · exact grows_of_eq (keep_setReq _ _)
        · split <;> exact grows_internalReset _ _ _ _

theorem grows_pwronRelease (s x m) : Grows (keep s) (keep (pwronRelease s x m)) := by
  unfold pwronRelease
  split
  · exact grows_refl _
  · dsimp only
    split
    · exact grows_of_eq rfl
    · exact grows_after (t := { s with glb := { s.glb with pwronL := false, straps := x } }) rfl (grows_startUp _ _ _ _)

theorem grows_pwrfailOver (s m) : Grows (keep s) (keep (pwrfailOver s m)) := by
  unfold pwrfailOver
  split
  · exact grows_then (grows_internalReset s false 2 m) rfl
  · exact grows_refl _

theorem grows_refclkBack (s m) : Grows (keep s) (keep (refclkBack s m)) := by
  unfold refclkBack
  split
  · exact grows_then (grows_internalReset s false 2 m) rfl
  · exact grows_refl _

theorem grows_firmwarePoison (s a m) : Grows (keep s) (keep (firmwarePoison s a m)) := by
  unfold firmwarePoison
  dsimp only
  split
  · exact grows_of_eq ((keep_fatal _ _ _).trans (keep_consumePoison _ _ _ _))
  · exact grows_after (keep_consumePoison _ _ _ _) (grows_then (grows_internalReset _ _ _ _) rfl)

theorem grows_coresPacket (s i p) : Grows (keep s) (keep (coresPacket s i p)) := by
  unfold coresPacket
  dsimp only
  split
  · exact grows_after (keep_emit _ _) (grows_firmwarePoison _ _ _)
  · exact grows_of_eq (keep_emit _ _)

theorem grows_packetIn (s i p) : Grows (keep s) (keep (packetIn s i p)) := by
  have hf := keep_freeCells s p.cells
  unfold packetIn
  dsimp only
  split
  · exact grows_of_eq (by simp only [keep_consumePoison, keep_writeEvent, keep_rcAdd, hf])
  · split
    · exact grows_of_eq (by simp only [keep_rcAdd, hf])
    · split
      · exact grows_of_eq (by simp only [keep_rcAdd, hf])
      · split
        · exact grows_coresPacket _ _ _
        · split
          · have hc := keep_coresRate (freeCells s p.cells) i
            split
            · next h => exact grows_after (by rw [h] at hc; exact hc.trans hf) (grows_coresPacket _ _ _)
            · next h => exact grows_of_eq (by rw [h] at hc; exact hc.trans hf)
          · split
            · exact grows_of_eq (by simp only [keep_rcAdd, hf])
            · exact grows_of_eq (by simp only [keep_packetTo, keep_count])

theorem grows_deliver (s c) : Grows (keep s) (keep (deliver s c)) := by
  unfold deliver
  split
  · exact grows_then (grows_packetIn _ _ _) (keep_afterRts _ _ _)
  · exact grows_of_eq (keep_hostCommand _ _ _)
  · exact grows_of_eq (keep_echoArrive _ _ _ _)
  · exact grows_of_eq (keep_driveDone _ _ _ _ _)
  · exact grows_of_eq (keep_dmaCompletion _ _ _ _ _)
  · exact grows_of_eq (keep_porporAccept _ _ _)
  · exact grows_of_eq (keep_porporRefuse _ _ _ _)

theorem grows_injDisarm (s i) : Grows (keep s) (keep (injDisarm s i)) :=
  grows_after (t := setInj s i { injOf s i with armed := false, items := [] }) (keep_setInj _ _ _)
    (grows_foldl (fun s (x : HeldItem) => deliver s x.cmd) (fun s x => grows_deliver s x.cmd) _ _)

theorem grows_injRelease (s i x) : Grows (keep s) (keep (injRelease s i x)) := by
  unfold injRelease
  dsimp only
  split
  · exact grows_refl _
  · split
    · exact grows_refl _
    · exact grows_after (keep_setInj _ _ _) (grows_deliver _ _)

theorem grows_ptbCfgWrite (s i v) : Grows (keep s) (keep (ptbCfgWrite s i v)) := by
  unfold ptbCfgWrite
  split
  · exact grows_refl _
  · dsimp only
    split
    · exact grows_after (t := setInj s i _) (keep_setInj _ _ _) (grows_injDisarm _ _)
    · split
      · exact grows_of_eq (by simp only [keep_writeEvent]; rfl)
      · exact grows_after (by rfl) (grows_injDisarm _ _)

theorem grows_flrOne (s n) : Grows (keep s) (keep (flrOne s n)) := by
  unfold flrOne
  dsimp only
  generalize hs : writeEvent _ _ = u
  have h : keep u = keep s := by
    subst hs
    simp only [keep_writeEvent, keep_rcAdd, keep_setFn, keep_assocEndBy _ _ _ _ fun t c => keep_withdrawCtx t c]
  clear hs
  split
  · split
    · split
      · exact grows_after (Eq.trans (by rfl) h) (grows_abandonSession _)
      · exact grows_of_eq ((keep_closePortCtxs _).trans h)
    · exact grows_of_eq ((keep_closePortCtxs _).trans h)
  · exact grows_of_eq h

theorem grows_setVfs (s k) : Grows (keep s) (keep (setVfs s k)) :=
  grows_then (grows_foldl (fun s i => flrOne s (k + i + 2)) (fun s _ => grows_flrOne s _) _ _) rfl

theorem grows_flr (s n) : Grows (keep s) (keep (flr s n)) := by
  unfold flr
  split
  · exact grows_refl _
  · split
    · exact (grows_flrOne _ _).trans (grows_setVfs _ _)
    · exact grows_flrOne _ _

theorem grows_svcReset (s p) : Grows (keep s) (keep (svcReset s p)) := by
  have h : Grows (keep s) (keep (svcLinkLost (flr (flr (svcRegsClear s) 0) 1))) :=
    grows_then (grows_after (keep_svcRegsClear s) ((grows_flr _ _).trans (grows_flr _ _))) (keep_svcLinkLost _)
  unfold svcReset
  dsimp only
  split
  · exact grows_then h rfl
  · exact h

theorem grows_setFnCfg (s n c) : Grows (keep s) (keep (setFnCfg s n c)) := by
  unfold setFnCfg
  dsimp only
  refine grows_then ?_ (keep_foldl _ _ _ fun s v => keep_raiseVec s n v)
  split
  · exact grows_after (keep_setFn _ _ _) (grows_setVfs _ _)
  · exact grows_of_eq (keep_setFn _ _ _)

theorem grows_bmeCleared (s n c) : Grows (keep s) (keep (bmeCleared s n c)) := by
  refine grows_after ?_ (grows_setFnCfg _ n c)
  split
  · rfl
  · dsimp only
    split
    · exact (keep_writeEvent _ _).trans (keep_setFn _ _ _)
    · exact keep_setFn _ _ _

theorem grows_bmeSetAgain (s n c) : Grows (keep s) (keep (bmeSetAgain s n c)) :=
  grows_after ((keep_flushHolding _ _).trans (keep_setFn _ _ _)) (grows_setFnCfg _ n c)

theorem grows_activateWarm (s c m) : Grows (keep s) (keep (activateWarm s c m)) := by
  unfold activateWarm
  split
  · exact grows_of_eq (keep_reply _ _ _ _ _)
  · exact grows_after (keep_reply _ _ _ _ _) (grows_internalReset _ _ _ _)

theorem grows_openSession (s c) : Grows (keep s) (keep (openSession s c)) :=
  ⟨rfl, id, fun h => twf_filter _ h, id, List.prefix_refl _⟩

theorem grows_stageBytes (s x o d) : Grows (keep s) (keep (stageBytes s x o d)) :=
  ⟨rfl, id, fun h => memWriteBytes_wf _ _ h, id, List.prefix_refl _⟩

theorem grows_stageWrite (s c o l b d) : Grows (keep s) (keep (stageWrite s c o l b d)) := by
  unfold stageWrite
  dsimp only
  split
  · exact grows_of_eq (keep_reply _ _ _ _ _)
  · split
    · exact grows_of_eq (keep_reply _ _ _ _ _)
    · have h : Grows (keep s) (keep (if b = true then openSession s c else s)) := by
        split
        · exact grows_openSession _ _
        · exact grows_refl _
      split
      · exact h
      · exact grows_then (h.trans (grows_stageBytes _ _ _ _)) (keep_reply _ _ _ _ _)

theorem grows_stageCommit (s c l v) : Grows (keep s) (keep (stageCommit s c l v)) := by
  unfold stageCommit
  split
  · exact grows_of_eq (keep_reply _ _ _ _ _)
  · exact grows_refl _
  · next x _ _ =>
    dsimp only
    generalize hb : x.header ++ _ = b
    split
    · exact grows_of_eq ((keep_reply _ _ _ _ _).trans ((keep_rejectEvent _ _ _).trans (keep_checkImageSigs s b)))
    · refine grows_after (keep_checkImageSigs s b) ?_
      refine grows_then ?_ ((keep_reply _ _ _ _ _).trans (keep_writeEvent _ _))
      exact ⟨rfl, id, fun h => memWriteBytes_wf _ _ h, id, List.prefix_refl _⟩

theorem grows_fieldLock (s c v) : Grows (keep s) (keep (fieldLock s c v)) := by
  unfold fieldLock
  split
  · exact grows_of_eq (keep_reply _ _ _ _ _)
  · split
    · exact grows_of_eq (keep_reply _ _ _ _ _)
    · have h : Grows (keep s) (keep ((List.range 8).foldl injDisarm s)) := grows_foldl injDisarm grows_injDisarm _ s
      dsimp only
      generalize (List.range 8).foldl injDisarm s = u at h ⊢
      rw [keep_reply, keep_writeEvent]
      exact h.trans ⟨rfl, id, id, fun _ => rfl, List.prefix_refl _⟩

theorem grows_regWriteLow (s o v h m) : Grows (keep s) (keep (regWriteLow s o v h m)) := by
  unfold regWriteLow
  split
  · exact ⟨rfl, fun h => memWriteBytes_wf _ _ h, id, id, List.prefix_refl _⟩
  · split
    · exact grows_of_eq (keep_modeReqWrite _ _ _)
    · exact grows_resetWrite _ _ _
    · exact grows_of_eq (keep_clkWrite _ _ _)
    · exact grows_of_eq (keep_authStart _ _)
    · exact grows_keyRead _ _
    · exact grows_of_eq (keep_w1cWrite _ _ _ _)
    · exact grows_of_eq (keep_w1cWrite _ _ _ _)
    · exact grows_of_eq (keep_w1cWrite _ _ _ _)
    · exact grows_of_eq (keep_addrCtl _ _)
    · exact grows_of_eq (keep_rwPut _ _ _ _)
    · exact grows_of_eq (keep_rwPut _ _ _ _)
    · exact grows_of_eq (keep_rwPut _ _ _ _)
    · exact grows_of_eq (keep_rwPut _ _ _ _)
    · exact grows_refl _

theorem grows_regWriteHigh (s o v h) : Grows (keep s) (keep (regWriteHigh s o v h)) := by
  unfold regWriteHigh
  split
  all_goals first
    | exact grows_ptbCfgWrite _ _ _
    | exact grows_refl _
    | (refine grows_of_eq ?_; simp only [keep_qpDlogWrite, keep_qpCtlWrite, keep_dlogCfgWrite, keep_dlogSet, keep_rwPut, keep_setWin, keep_pwinCtlWrite, keep_slotCtlWrite, keep_w1cWrite, keep_spkCtlWrite, keep_bayClearAt, keep_feedCtlWrite, keep_cycCtlWrite, keep_onCtr, keep_flipWrite]; done)
    | (refine grows_of_eq ?_; split <;> simp only [keep_setInj])

theorem grows_regWrite (s p o v h m) : Grows (keep s) (keep (regWrite s p o v h m)) := by
  unfold regWrite
  split
  · exact grows_refl _
  · split
    · exact grows_of_eq (keep_selWrite _ _ _)
    · split
      · exact grows_of_eq (keep_holdHi _ _ _ _)
      · split
        · exact grows_of_eq (keep_loWrite _ _ _ _)
        · split
          · exact grows_regWriteLow _ _ _ _ _
          · exact grows_regWriteHigh _ _ _ _

theorem grows_writeAt (s a v h m) : Grows (keep s) (keep (writeAt s a v h m)) := by
  unfold writeAt
  split
  · exact grows_regWrite _ _ _ _ _ _
  · exact grows_of_eq (keep_badAccess _ _)

theorem grows_atomicWrite (s o v l m) : Grows (keep s) (keep (atomicWrite s o v l m)) := by
  unfold atomicWrite
  exact grows_then (grows_after (keep_putSels _ _) (grows_regWrite _ _ _ _ _ _)) (keep_putSels _ _)

/-- A management command that is served grows what its effect grows. -/
theorem grows_asManagerIn (s c r ok f) (h : ∀ t, Grows (keep t) (keep (f t))) : Grows (keep s) (keep (asManagerIn s c r ok f)) := by
  unfold asManagerIn
  split
  · exact grows_refl _
  · split
    · exact grows_of_eq (keep_reply _ _ _ _ _)
    · exact h s

theorem grows_registerWrite (s c a b d e f m) : Grows (keep s) (keep (registerWrite s c a b d e f m)) := by
  refine grows_asManagerIn _ _ _ _ _ fun t => ?_
  split
  · exact grows_of_eq (keep_reply _ _ _ _ _)
  · split
    · split
      · exact grows_of_eq (keep_reply _ _ _ _ _)
      · exact grows_after (keep_reply _ _ _ _ _) (grows_atomicWrite _ _ _ _ _)
    · exact grows_after (keep_reply _ _ _ _ _) (grows_regWrite _ _ _ _ _ _)

/-- What every outcome's next state does to that part. -/
def GrowsO (s : State) (o : Host.Outcome State Fault Refusal) : Prop := ∀ t, o = .next t → Grows (keep s) (keep t)

theorem growsO_next {s t : State} (h : Grows (keep s) (keep t)) : GrowsO s (.next t) := by
  intro u e
  cases e
  exact h

theorem growsO_of_keeps {s : State} {o : Host.Outcome State Fault Refusal} (h : Keeps s o) : GrowsO s o :=
  fun t e => grows_of_eq (h t e)

theorem grows_execImageActivateWarm (c r s) : GrowsO s (execImageActivateWarm c r s) := by
  refine growsO_next (grows_asManagerIn _ _ _ _ _ fun t => ?_)
  split
  · exact grows_of_eq (keep_reply _ _ _ _ _)
  · split
    · exact grows_activateWarm _ _ _
    · exact grows_activateWarm _ _ _
    · exact grows_of_eq (keep_reply _ _ _ _ _)

theorem grows_execFieldLock (c v s) : GrowsO s (execFieldLock c v s) :=
  growsO_next (grows_asManagerIn _ _ _ _ _ fun t => grows_fieldLock t _ _)

theorem grows_execImageStageWrite (c o l b d s) : GrowsO s (execImageStageWrite c o l b d s) :=
  growsO_next (grows_asManagerIn _ _ _ _ _ fun t => grows_stageWrite t _ _ _ _ _)

theorem grows_execImageStageCommit (c l v s) : GrowsO s (execImageStageCommit c l v s) :=
  growsO_next (grows_asManagerIn _ _ _ _ _ fun t => grows_stageCommit t _ _ _)

theorem grows_execRegisterWrite (c a b d e f m s) : GrowsO s (execRegisterWrite c a b d e f m s) :=
  growsO_next (grows_registerWrite _ _ _ _ _ _ _ _)

theorem grows_onFn (n s f) (h : ∀ t, Grows (keep t) (keep (f t))) : GrowsO s (onFn n s f) := by
  unfold onFn
  split
  · exact growsO_next (h s)
  · exact fun t e => nomatch e

theorem grows_onLiveFn (n s f) (h : ∀ t, Grows (keep t) (keep (f t))) : GrowsO s (onLiveFn n s f) := by
  refine grows_onFn _ _ _ fun t => ?_
  split
  · exact h t
  · exact grows_refl _

theorem grows_execRocePacketReceive (i p r s) : GrowsO s (execRocePacketReceive i p r s) := by
  unfold execRocePacketReceive
  split
  · refine growsO_next ?_
    split
    · exact grows_packetIn _ _ _
    · exact grows_refl _
  · unfold onIng
    split
    · refine growsO_next ?_
      dsimp only
      split
      · next h =>
        have hk := keep_ingPop s i p _ h
        unfold atPoint
        split
        · exact grows_after hk (grows_then (grows_packetIn _ _ _) (keep_afterRts _ _ _))
        · dsimp only
          split
          · split
            · exact grows_of_eq ((keep_injNote _ _ _ _ _).trans ((keep_setInj _ _ _).trans hk))
            · exact grows_after ((keep_setInj _ _ _).trans hk) (grows_then (grows_packetIn _ _ _) (keep_afterRts _ _ _))
          · split
            · exact grows_after ((keep_injDelay _ _).trans hk) (grows_then (grows_packetIn _ _ _) (keep_afterRts _ _ _))
            · exact grows_of_eq ((keep_injNote _ _ _ _ _).trans ((keep_setInj _ _ _).trans ((keep_injDelay _ _).trans hk)))
      · exact grows_refl _
    · exact fun t e => nomatch e

theorem grows_onInjector (i : Nat) (s t : State) (h : Grows (keep s) (keep t)) :
    GrowsO s (if i < 8 then .next t else .fault (.noSuchInstance "injector")) := by
  split
  · exact growsO_next h
  · exact fun t e => nomatch e

theorem grows_mctpActivate (c v m s) : GrowsO s (mctpActivate c v m s) := by
  unfold mctpActivate
  split
  · exact grows_execImageActivateWarm _ _ _
  · exact growsO_of_keeps (keep_execImageActivateLive _ _ _)

theorem grows_mctpLow (c o v w x y z m s) : GrowsO s (mctpLow c o v w x y z m s) := by
  unfold mctpLow
  split
  · exact growsO_of_keeps (keep_execFormatCocoon _ _ _)
  · exact growsO_of_keeps (keep_execRegisterRead _ _ _ _ _ _)
  · exact grows_execRegisterWrite _ _ _ _ _ _ _ _
  · exact growsO_of_keeps (keep_execEventRead _ _ _ _ _)
  · exact grows_mctpActivate _ _ _ _
  · exact growsO_of_keeps (keep_execImageSlotInfo _ _)
  · exact growsO_of_keeps (keep_mctpTandem _ _ _ _ _)
  · exact growsO_of_keeps (keep_execServiceFunctionBind _ _ _)
  · exact grows_execFieldLock _ _ _
  · exact growsO_of_keeps (keep_execManagementChallenge _ _)
  · exact growsO_of_keeps (keep_execVssReset _ _ _)
  · exact growsO_of_keeps (keep_execVssRemove _ _ _)
  · exact growsO_of_keeps (keep_execCatalogRead _ _ _ _ _)
  · exact growsO_of_keeps (keep_execTenantQueueFreeze _ _ _ _)
  · exact growsO_of_keeps (keep_execTenantQueueThaw _ _ _)
  · exact growsO_of_keeps (keep_execDirtyLogControl _ _ _ _ _ _)
  · exact growsO_of_keeps (keep_execDirtyLogHarvest _ _ _ _ _)
  · exact growsO_of_keeps (keep_execVirtualControllerReset _ _ _)
  · refine growsO_next (grows_of_eq ?_)
    split
    · exact keep_reply _ _ _ _ _
    · rfl

theorem grows_execMctpVendorManagement (a b o d v w x y z m s) : GrowsO s (execMctpVendorManagement a b o d v w x y z m s) := by
  unfold execMctpVendorManagement
  dsimp only
  split
  · exact growsO_next (grows_refl _)
  · split
    · refine growsO_next (grows_of_eq ?_)
      split
      · exact keep_reply _ _ _ _ _
      · rfl
    · split
      · exact growsO_next (grows_refl _)
      · unfold mctpCommand
        split
        · exact growsO_of_keeps (keep_execKeyRotate _ _ _)
        · exact growsO_of_keeps (keep_mctpRebuild _ _ _)
        · exact growsO_of_keeps (keep_execChunkMapRead _ _ _)
        · exact growsO_of_keeps (keep_execLeaseRead _ _ _)
        · exact growsO_of_keeps (keep_execLeaseRelease _ _ _)
        · exact grows_mctpLow _ _ _ _ _ _ _ _ _

end Sys2Proof.Machine
end

