-- ==== Sys2Proof/Laws/Exec.lean ====
section
/-! SUPPORT. What every command does, said once: it leaves the queue, keeps the memories canonical and lets one-time storage grow
only. -/

namespace Sys2Proof.Machine

/-- Every command's next state has the queue it was given, canonical memories where they were canonical, a field lock that is still
set where it was, and the SVN bank of before as a beginning of its own. -/
theorem grows_exec (i : Instr) (s : State) : GrowsO s (exec i s) := by
  cases i with
  | plainRegisterWrite _ _ _ _ => exact growsO_next (grows_writeAt ..)
  | readClearCounter _ _ => exact growsO_of_keeps (keep_execReadClearCounter _ _ _)
  | loRegisterRead _ => exact growsO_of_keeps (keep_execLoRegisterRead _ _)
  | hiRegisterWrite _ _ => exact growsO_next (grows_writeAt ..)
  | loRegisterWrite _ _ => exact growsO_next (grows_writeAt ..)
  | selectRegisterWrite _ _ => exact growsO_next (grows_writeAt ..)
  | registerRead _ _ _ _ _ => exact growsO_of_keeps (keep_execRegisterRead _ _ _ _ _ _)
  | registerWrite _ _ _ _ _ _ _ => exact grows_execRegisterWrite _ _ _ _ _ _ _ _
  | pwronLAsserted => exact growsO_next (grows_pwronAssert ..)
  | pwronLReleased _ _ => exact growsO_next (grows_pwronRelease ..)
  | memoryPreparationDone _ _ => exact growsO_of_keeps (keep_execMemoryPreparationDone _ _ _)
  | imageLoadDone _ => exact growsO_of_keeps (keep_execImageLoadDone _ _)
  | imageVerificationDone _ _ _ => exact growsO_of_keeps (keep_execImageVerificationDone _ _ _ _)
  | configurationDone => exact growsO_of_keeps (keep_execConfigurationDone _)
  | dramTrainingDone _ _ => exact growsO_of_keeps (keep_execDramTrainingDone _ _ _)
  | dramSweepDone _ _ _ => exact growsO_of_keeps (keep_execDramSweepDone _ _ _ _)
  | recoveryScanDone _ => exact growsO_of_keeps (keep_execRecoveryScanDone _ _)
  | bootRecordWritten _ _ _ => exact growsO_of_keeps (keep_execBootRecordWritten _ _ _ _)
  | bootStageLimitExpiry => exact growsO_of_keeps (keep_execBootStageLimitExpiry _)
  | watchdogExpiry _ => exact growsO_next (grows_watchdog ..)
  | shutdownRequest _ => exact growsO_of_keeps (keep_execShutdownRequest _ _)
  | safeRequest _ => exact growsO_of_keeps (keep_execSafeRequest _ _)
  | warmResetRequest _ _ => exact growsO_next (grows_resetWrite ..)
  | coldResetRequest _ _ => exact growsO_next (grows_resetWrite ..)
  | drainShutdownComplete _ => exact growsO_of_keeps (keep_execDrainShutdownComplete _ _)
  | drainLimitExpiry _ => exact growsO_of_keeps (keep_execDrainLimitExpiry _ _)
  | pwrfailLAsserted _ => exact growsO_of_keeps (keep_execPwrfailLAsserted _ _)
  | pwrfailStableRelease _ => exact growsO_next (grows_pwrfailOver ..)
  | imageStageWrite _ _ _ _ _ => exact grows_execImageStageWrite _ _ _ _ _ _
  | imageStageCommit _ _ _ => exact grows_execImageStageCommit _ _ _ _
  | imageActivateLive _ _ => exact growsO_of_keeps (keep_execImageActivateLive _ _ _)
  | imageActivateWarm _ _ => exact grows_execImageActivateWarm _ _ _
  | imageSlotInfo _ => exact growsO_of_keeps (keep_execImageSlotInfo _ _)
  | stagingSessionTimeout => exact growsO_next (grows_abandonSession ..)
  | imageSwap _ _ _ => exact growsO_of_keeps (keep_execImageSwap _ _ _ _)
  | activationHoldExpiry _ => exact growsO_of_keeps (keep_execActivationHoldExpiry _ _)
  | trsEnroll _ => exact growsO_of_keeps (keep_execTrsEnroll _ _)
  | trsRevoke _ => exact growsO_of_keeps (keep_execTrsRevoke _ _)
  | trsAdvanceMinSvn _ => exact growsO_of_keeps (keep_execTrsAdvanceMinSvn _ _)
  | otpBurnComplete _ => exact growsO_next (grows_burnDone ..)
  | trsKeyRead _ => exact growsO_next (grows_keyRead ..)
  | spdmExchange _ _ _ => exact growsO_of_keeps (keep_execSpdmExchange _ _ _ _)
  | getVersion _ => exact growsO_of_keeps (keep_execGetVersion _ _)
  | getCapabilities _ => exact growsO_of_keeps (keep_execGetCapabilities _ _)
  | negotiateAlgorithms _ _ _ _ _ => exact growsO_of_keeps (keep_execNegotiateAlgorithms _ _ _ _ _ _)
  | getDigests _ => exact growsO_of_keeps (keep_execGetDigests _ _)
  | getCertificate _ _ _ _ => exact growsO_of_keeps (keep_execGetCertificate _ _ _ _ _)
  | challenge _ _ _ _ => exact growsO_of_keeps (keep_execChallenge _ _ _ _ _)
  | getMeasurements _ _ _ _ => exact growsO_of_keeps (keep_execGetMeasurements _ _ _ _ _)
  | spdmUnsupportedRequest _ _ => exact growsO_of_keeps (keep_execSpdmUnsupportedRequest _ _ _)
  | spdmContextIdleExpiry _ => exact growsO_of_keeps (keep_execSpdmContextIdleExpiry _ _)
  | ethFrameReceive _ => exact growsO_of_keeps (keep_execEthFrameReceive _ _)
  | linkTrainTimeout _ => exact growsO_of_keeps (keep_execLinkTrainTimeout _ _)
  | linkTrainRetryTimer _ => exact growsO_of_keeps (keep_execLinkTrainRetryTimer _ _)
  | subportLinkUp _ _ _ => exact growsO_of_keeps (keep_execSubportLinkUp _ _ _ _)
  | subportLinkDown _ => exact growsO_of_keeps (keep_execSubportLinkDown _ _)
  | pfcPauseExpiry _ _ => exact growsO_of_keeps (keep_execPfcPauseExpiry _ _ _)
  | pfcWatchdogExpiry _ _ _ => exact growsO_of_keeps (keep_execPfcWatchdogExpiry _ _ _ _)
  | pfcWatchdogResume _ _ => exact growsO_of_keeps (keep_execPfcWatchdogResume _ _ _)
  | addressSlotApply _ => exact growsO_of_keeps (keep_execAddressSlotApply _ _)
  | macsecRxSaInstall _ _ _ _ _ => exact growsO_of_keeps (keep_execMacsecRxSaInstall _ _ _ _ _ _)
  | macsecTxSaInstall _ _ _ _ _ => exact growsO_of_keeps (keep_execMacsecTxSaInstall _ _ _ _ _ _)
  | macsecRxSaRetire _ _ _ => exact growsO_of_keeps (keep_execMacsecRxSaRetire _ _ _ _)
  | subportTransmit _ _ _ _ => exact growsO_of_keeps (keep_execSubportTransmit _ _ _ _ _)
  | rocePacketReceive _ _ _ => exact grows_execRocePacketReceive _ _ _ _
  | cmReq _ => exact growsO_of_keeps (keep_execCmReq _ _)
  | cmRtu _ => exact growsO_of_keeps (keep_execCmRtu _ _)
  | cmDreq _ => exact growsO_of_keeps (keep_execCmDreq _ _)
  | qpTeardown _ => exact growsO_of_keeps (keep_execQpTeardown _ _)
  | qpContextFree _ => exact growsO_of_keeps (keep_execQpContextFree _ _)
  | qpContextFetchDone _ _ => exact growsO_of_keeps (keep_execQpContextFetchDone _ _ _)
  | ackCoalesceExpiry _ _ => exact growsO_of_keeps (keep_execAckCoalesceExpiry _ _ _)
  | ackTimeout _ _ => exact growsO_of_keeps (keep_execAckTimeout _ _ _)
  | rnrWaitExpiry _ => exact growsO_of_keeps (keep_execRnrWaitExpiry _ _)
  | messageLifetimeExpiry _ _ => exact growsO_of_keeps (keep_execMessageLifetimeExpiry _ _ _)
  | rateAlphaTimer _ _ => exact growsO_of_keeps (keep_execRateAlphaTimer _ _ _)
  | rateIncreaseTimer _ _ => exact growsO_of_keeps (keep_execRateIncreaseTimer _ _ _)
  | qpPacketSend _ _ => exact growsO_of_keeps (keep_execQpPacketSend _ _ _)
  | dlogEnable _ => exact growsO_of_keeps (keep_execDlogEnable _ _)
  | dlogDisable _ => exact growsO_of_keeps (keep_execDlogDisable _ _)
  | qpDlogJoin _ => exact growsO_of_keeps (keep_execQpDlogJoin _ _)
  | dlogHarvestRead _ _ => exact growsO_of_keeps (keep_execDlogHarvestRead _ _ _)
  | instarBumpDeferred _ => exact growsO_of_keeps (keep_execInstarBumpDeferred _ _)
  | fabricsConnect _ _ _ => exact growsO_of_keeps (keep_execFabricsConnect _ _ _ _)
  | authenticationSend _ _ _ => exact growsO_of_keeps (keep_execAuthenticationSend _ _ _ _)
  | authenticationReceive _ _ => exact growsO_of_keeps (keep_execAuthenticationReceive _ _ _)
  | authTimeout _ _ => exact growsO_of_keeps (keep_execAuthTimeout _ _ _)
  | propertyGet _ _ => exact growsO_of_keeps (keep_execPropertyGet _ _ _)
  | propertySet _ _ _ => exact growsO_of_keeps (keep_execPropertySet _ _ _ _)
  | keepAlive _ => exact growsO_of_keeps (keep_execKeepAlive _ _)
  | keepAliveExpiry _ => exact growsO_of_keeps (keep_execKeepAliveExpiry _ _)
  | identify _ _ _ => exact growsO_of_keeps (keep_execIdentify _ _ _ _)
  | getLogPage _ _ _ => exact growsO_of_keeps (keep_execGetLogPage _ _ _ _)
  | getFeatures _ _ => exact growsO_of_keeps (keep_execGetFeatures _ _ _)
  | setFeatures _ _ _ => exact growsO_of_keeps (keep_execSetFeatures _ _ _ _)
  | asyncEventRequest _ => exact growsO_of_keeps (keep_execAsyncEventRequest _ _)
  | abort _ _ _ => exact growsO_of_keeps (keep_execAbort _ _ _ _)
  | sanitize _ _ => exact growsO_of_keeps (keep_execSanitize _ _ _)
  | formatNvm _ _ _ => exact growsO_of_keeps (keep_execFormatNvm _ _ _ _)
  | vdqCreate _ _ => exact growsO_of_keeps (keep_execVdqCreate _ _ _)
  | vdqDelete _ _ => exact growsO_of_keeps (keep_execVdqDelete _ _ _)
  | nvmRead _ => exact growsO_of_keeps (keep_execNvmRead _ _)
  | nvmWrite _ => exact growsO_of_keeps (keep_execNvmWrite _ _)
  | nvmFlush _ => exact growsO_of_keeps (keep_execNvmFlush _ _)
  | writeZeroes _ => exact growsO_of_keeps (keep_execWriteZeroes _ _)
  | datasetManagement _ => exact growsO_of_keeps (keep_execDatasetManagement _ _)
  | nvmCompare _ => exact growsO_of_keeps (keep_execNvmCompare _ _)
  | admissionReopen _ => exact growsO_of_keeps (keep_execAdmissionReopen _ _)
  | sqTailDoorbell _ _ => exact growsO_of_keeps (keep_execSqTailDoorbell _ _ _)
  | cqHeadDoorbell _ _ => exact growsO_of_keeps (keep_execCqHeadDoorbell _ _ _)
  | pushDoorbell _ _ _ _ _ => exact growsO_of_keeps (keep_execPushDoorbell _ _ _ _ _ _)
  | vdqFetch => exact growsO_of_keeps (keep_execVdqFetch _)
  | vdqFetchResponse _ _ _ _ => exact growsO_of_keeps (keep_execVdqFetchResponse _ _ _ _ _)
  | cqStallExpiry _ _ => exact growsO_of_keeps (keep_execCqStallExpiry _ _ _)
  | notifyTimerExpiry _ _ => exact growsO_of_keeps (keep_execNotifyTimerExpiry _ _ _)
  | tenantQueueFree _ _ => exact growsO_of_keeps (keep_execTenantQueueFree _ _ _)
  | idleLevel1Entry => exact growsO_of_keeps (keep_execIdleLevel1Entry _)
  | idleLevel2Entry => exact growsO_of_keeps (keep_execIdleLevel2Entry _)
  | managementChallenge _ => exact growsO_of_keeps (keep_execManagementChallenge _ _)
  | managementProve _ _ _ _ => exact growsO_of_keeps (keep_execManagementProve _ _ _ _ _)
  | mgmtAuthTimeout _ => exact growsO_of_keeps (keep_execMgmtAuthTimeout _ _)
  | vssCreate _ _ => exact growsO_of_keeps (keep_execVssCreate _ _ _)
  | vssChangeShare _ _ => exact growsO_of_keeps (keep_execVssChangeShare _ _ _)
  | vssReset _ _ => exact growsO_of_keeps (keep_execVssReset _ _ _)
  | vssRemove _ _ => exact growsO_of_keeps (keep_execVssRemove _ _ _)
  | hostEntrySet _ _ => exact growsO_of_keeps (keep_execHostEntrySet _ _ _)
  | catalogRead _ _ _ _ => exact growsO_of_keeps (keep_execCatalogRead _ _ _ _ _)
  | tenantQueueFreeze _ _ _ => exact growsO_of_keeps (keep_execTenantQueueFreeze _ _ _ _)
  | tenantQueueSave _ _ _ _ => exact growsO_of_keeps (keep_execTenantQueueSave _ _ _ _ _)
  | tenantQueueRestore _ _ _ _ => exact growsO_of_keeps (keep_execTenantQueueRestore _ _ _ _ _)
  | tenantQueueThaw _ _ => exact growsO_of_keeps (keep_execTenantQueueThaw _ _ _)
  | dirtyLogControl _ _ _ _ _ => exact growsO_of_keeps (keep_execDirtyLogControl _ _ _ _ _ _)
  | dirtyLogHarvest _ _ _ _ => exact growsO_of_keeps (keep_execDirtyLogHarvest _ _ _ _ _)
  | virtualControllerReset _ _ => exact growsO_of_keeps (keep_execVirtualControllerReset _ _ _)
  | namespaceCreate _ _ => exact growsO_of_keeps (keep_execNamespaceCreate _ _ _)
  | namespaceDelete _ _ => exact growsO_of_keeps (keep_execNamespaceDelete _ _ _)
  | namespaceAttach _ _ _ => exact growsO_of_keeps (keep_execNamespaceAttach _ _ _ _)
  | namespaceDetach _ _ _ => exact growsO_of_keeps (keep_execNamespaceDetach _ _ _ _)
  | catalogChangeReceive _ _ _ => exact growsO_of_keeps (keep_execCatalogChangeReceive _ _ _ _)
  | catalogEchoReceive _ => exact growsO_of_keeps (keep_execCatalogEchoReceive _ _)
  | catalogPartnerTimeout _ => exact growsO_of_keeps (keep_execCatalogPartnerTimeout _ _)
  | catalogCopyDone _ => exact growsO_of_keeps (keep_execCatalogCopyDone _ _)
  | vssResetDone _ => exact growsO_of_keeps (keep_execVssResetDone _ _)
  | vssRemoveDone _ => exact growsO_of_keeps (keep_execVssRemoveDone _ _)
  | tqFreezeComplete _ _ => exact growsO_of_keeps (keep_execTqFreezeComplete _ _ _)
  | tqFreezeTimeout _ _ => exact growsO_of_keeps (keep_execTqFreezeTimeout _ _ _)
  | sanitizeQuiesced _ => exact growsO_of_keeps (keep_execSanitizeQuiesced _ _)
  | sanitizeChunkErased _ _ _ => exact growsO_of_keeps (keep_execSanitizeChunkErased _ _ _ _)
  | formatNvmQuiesced _ => exact growsO_of_keeps (keep_execFormatNvmQuiesced _ _)
  | nop _ _ => exact growsO_of_keeps (keep_execNop _ _ _)
  | end_ _ _ => exact growsO_of_keeps (keep_execEnd _ _ _)
  | jmp _ _ => exact growsO_of_keeps (keep_execJmp _ _ _)
  | br _ _ => exact growsO_of_keeps (keep_execBr _ _ _)
  | call _ _ => exact growsO_of_keeps (keep_execCall _ _ _)
  | ret _ _ => exact growsO_of_keeps (keep_execRet _ _ _)
  | fail _ _ => exact growsO_of_keeps (keep_execFail _ _ _)
  | wait _ _ => exact growsO_of_keeps (keep_execWait _ _ _)
  | ldi _ _ => exact growsO_of_keeps (keep_execLdi _ _ _)
  | mov _ _ => exact growsO_of_keeps (keep_execMov _ _ _)
  | add _ _ => exact growsO_of_keeps (keep_execAdd _ _ _)
  | addi _ _ => exact growsO_of_keeps (keep_execAddi _ _ _)
  | sub _ _ => exact growsO_of_keeps (keep_execSub _ _ _)
  | and_ _ _ => exact growsO_of_keeps (keep_execAnd _ _ _)
  | shr _ _ => exact growsO_of_keeps (keep_execShr _ _ _)
  | shl _ _ => exact growsO_of_keeps (keep_execShl _ _ _)
  | cmp _ _ => exact growsO_of_keeps (keep_execCmp _ _ _)
  | cmpi _ _ => exact growsO_of_keeps (keep_execCmpi _ _ _)
  | mark _ _ => exact growsO_of_keeps (keep_execMark _ _ _)
  | ilock _ _ _ => exact growsO_of_keeps (keep_execIlock _ _ _ _)
  | iwait _ _ => exact growsO_of_keeps (keep_execIwait _ _ _)
  | irel _ _ => exact growsO_of_keeps (keep_execIrel _ _ _)
  | nsfence _ _ => exact growsO_of_keeps (keep_execNsfence _ _ _)
  | tref _ _ => exact growsO_of_keeps (keep_execTref _ _ _)
  | tdrop _ _ => exact growsO_of_keeps (keep_execTdrop _ _ _)
  | clook _ _ _ => exact growsO_of_keeps (keep_execClook _ _ _ _)
  | cstage _ _ _ => exact growsO_of_keeps (keep_execCstage _ _ _ _)
  | ccommit _ _ => exact growsO_of_keeps (keep_execCcommit _ _ _)
  | cread _ _ _ _ => exact growsO_of_keeps (keep_execCread _ _ _ _ _)
  | cdealloc _ _ => exact growsO_of_keeps (keep_execCdealloc _ _ _)
  | echowait _ _ => exact growsO_of_keeps (keep_execEchowait _ _ _)
  | hread _ _ => exact growsO_of_keeps (keep_execHread _ _ _)
  | hwrite _ _ => exact growsO_of_keeps (keep_execHwrite _ _ _)
  | cpl _ _ => exact growsO_of_keeps (keep_execCpl _ _ _)
  | compare _ _ => exact growsO_of_keeps (keep_execCompare _ _ _)
  | pichk _ _ => exact growsO_of_keeps (keep_execPichk _ _ _)
  | map _ _ _ => exact growsO_of_keeps (keep_execMap _ _ _ _)
  | dread _ _ _ => exact growsO_of_keeps (keep_execDread _ _ _ _)
  | dverify _ _ _ => exact growsO_of_keeps (keep_execDverify _ _ _ _)
  | recon _ _ _ => exact growsO_of_keeps (keep_execRecon _ _ _ _)
  | dwrite _ _ => exact growsO_of_keeps (keep_execDwrite _ _ _)
  | parity _ _ _ => exact growsO_of_keeps (keep_execParity _ _ _ _)
  | dzero _ _ => exact growsO_of_keeps (keep_execDzero _ _ _)
  | frag _ _ => exact growsO_of_keeps (keep_execFrag _ _ _)
  | crelease _ _ => exact growsO_of_keeps (keep_execCrelease _ _ _)
  | count_ _ _ _ _ => exact growsO_of_keeps (keep_execCount _ _ _ _ _)
  | event _ _ => exact growsO_of_keeps (keep_execEvent _ _ _)
  | contextResume _ _ => exact growsO_of_keeps (keep_execContextResume _ _ _)
  | internalContextStart _ => exact growsO_of_keeps (keep_execInternalContextStart _ _)
  | waitTimeout _ _ _ => exact growsO_of_keeps (keep_execWaitTimeout _ _ _ _)
  | interlockGrant _ => exact growsO_of_keeps (keep_execInterlockGrant _ _)
  | nsfenceDone _ => exact growsO_of_keeps (keep_execNsfenceDone _ _)
  | hostTransferComplete _ _ _ _ _ => exact growsO_of_keeps (keep_execHostTransferComplete _ _ _ _ _ _)
  | tableSlotRetry _ => exact growsO_of_keeps (keep_execTableSlotRetry _ _)
  | seqSampleRead _ => exact growsO_of_keeps (keep_execSeqSampleRead _ _)
  | formatCocoon _ _ => exact growsO_of_keeps (keep_execFormatCocoon _ _ _)
  | odometerPersist => exact growsO_of_keeps (keep_execOdometerPersist _)
  | odometerTick => exact growsO_of_keeps (keep_execOdometerTick _)
  | mirrorLineReceive _ _ => exact growsO_of_keeps (keep_execMirrorLineReceive _ _ _)
  | mirrorRecordReceive _ _ _ => exact growsO_of_keeps (keep_execMirrorRecordReceive _ _ _ _)
  | mirrorResetReceive _ => exact growsO_of_keeps (keep_execMirrorResetReceive _ _)
  | indexRebuildDone => exact growsO_of_keeps (keep_execIndexRebuildDone _)
  | flushStripeStart => exact growsO_of_keeps (keep_execFlushStripeStart _)
  | mirrorAdoptionDone _ => exact growsO_of_keeps (keep_execMirrorAdoptionDone _ _)
  | handbackPageReceive _ _ _ => exact growsO_of_keeps (keep_execHandbackPageReceive _ _ _ _)
  | handbackConfirmReceive _ => exact growsO_of_keeps (keep_execHandbackConfirmReceive _ _)
  | lineFetchResponse _ _ _ => exact growsO_of_keeps (keep_execLineFetchResponse _ _ _ _)
  | counterReserveEcho _ _ => exact growsO_of_keeps (keep_execCounterReserveEcho _ _ _)
  | counterReserveTimeout _ => exact growsO_of_keeps (keep_execCounterReserveTimeout _ _)
  | cocoonScrubLine _ _ => exact growsO_of_keeps (keep_execCocoonScrubLine _ _ _)
  | stackAccessTimeout _ _ => exact growsO_of_keeps (keep_execStackAccessTimeout _ _ _)
  | cocPageRecordRead _ => exact growsO_of_keeps (keep_execCocPageRecordRead _ _)
  | mapReloadDone _ => exact growsO_of_keeps (keep_execMapReloadDone _ _)
  | rebuildDelayExpiry _ => exact growsO_of_keeps (keep_execRebuildDelayExpiry _ _)
  | rebuildStart _ _ => exact growsO_of_keeps (keep_execRebuildStart _ _ _)
  | rebuildCancel _ _ => exact growsO_of_keeps (keep_execRebuildCancel _ _ _)
  | chunkMapRead _ _ => exact growsO_of_keeps (keep_execChunkMapRead _ _ _)
  | keyRotate _ _ => exact growsO_of_keeps (keep_execKeyRotate _ _ _)
  | rekeyPassStart _ => exact growsO_of_keeps (keep_execRekeyPassStart _ _)
  | reconWriteback _ _ _ _ => exact growsO_of_keeps (keep_execReconWriteback _ _ _ _ _)
  | stripWrite _ _ _ => exact growsO_of_keeps (keep_execStripWrite _ _ _ _)
  | stripRead _ _ _ => exact growsO_of_keeps (keep_execStripRead _ _ _ _)
  | alloc _ _ _ => exact growsO_of_keeps (keep_execAlloc _ _ _ _)
  | leaseFree _ _ _ => exact growsO_of_keeps (keep_execLeaseFree _ _ _ _)
  | porporAccept _ _ => exact growsO_of_keeps (keep_execPorporAccept _ _ _)
  | porporRefuse _ _ _ => exact growsO_of_keeps (keep_execPorporRefuse _ _ _ _)
  | readData _ _ => exact growsO_of_keeps (keep_execReadData _ _ _)
  | allocReply _ _ => exact growsO_of_keeps (keep_execAllocReply _ _ _)
  | fragTimeout _ _ => exact growsO_of_keeps (keep_execFragTimeout _ _ _)
  | peerWindowApply _ => exact growsO_of_keeps (keep_execPeerWindowApply _ _)
  | federationMemberSet _ _ => exact growsO_of_keeps (keep_execFederationMemberSet _ _ _)
  | leaseCreate _ _ _ _ => exact growsO_of_keeps (keep_execLeaseCreate _ _ _ _ _)
  | leaseRead _ _ => exact growsO_of_keeps (keep_execLeaseRead _ _ _)
  | leaseRelease _ _ => exact growsO_of_keeps (keep_execLeaseRelease _ _ _)
  | pfcXoffRefresh _ _ => exact growsO_of_keeps (keep_execPfcXoffRefresh _ _ _)
  | mcastDestTimeout _ _ _ => exact growsO_of_keeps (keep_execMcastDestTimeout _ _ _ _)
  | bucketReturn _ => exact growsO_of_keeps (keep_execBucketReturn _ _)
  | leakAuditPass _ => exact growsO_of_keeps (keep_execLeakAuditPass _ _)
  | shaperRefill => exact growsO_of_keeps (keep_execShaperRefill _)
  | policerRefill => exact growsO_of_keeps (keep_execPolicerRefill _)
  | schSampleSelect _ => exact growsO_of_keeps (keep_execSchSampleSelect _ _)
  | bayScanFrame _ _ => exact growsO_of_keeps (keep_execBayScanFrame _ _ _)
  | linkUpTimeout _ => exact growsO_of_keeps (keep_execLinkUpTimeout _ _)
  | spokeLinkUp _ _ _ => exact growsO_of_keeps (keep_execSpokeLinkUp _ _ _ _)
  | spokeDpc _ _ => exact growsO_of_keeps (keep_execSpokeDpc _ _ _)
  | containmentRelease _ => exact growsO_of_keeps (keep_execContainmentRelease _ _)
  | buttonTimerExpiry _ => exact growsO_of_keeps (keep_execButtonTimerExpiry _ _)
  | orderlyRemovalProgress _ _ => exact growsO_of_keeps (keep_execOrderlyRemovalProgress _ _ _)
  | spokeCtlReset _ => exact growsO_of_keeps (keep_execSpokeCtlReset _ _)
  | spokeCtlPowerOff _ => exact growsO_of_keeps (keep_execSpokeCtlPowerOff _ _)
  | spokeCtlPowerOn _ => exact growsO_of_keeps (keep_execSpokeCtlPowerOn _ _)
  | spokeCtlDisable _ => exact growsO_of_keeps (keep_execSpokeCtlDisable _ _)
  | spokeCtlEnable _ => exact growsO_of_keeps (keep_execSpokeCtlEnable _ _)
  | slotAttentionWrite _ _ => exact growsO_of_keeps (keep_execSlotAttentionWrite _ _ _)
  | driveDmaRequest _ _ _ => exact growsO_of_keeps (keep_execDriveDmaRequest _ _ _ _)
  | driveCompletion _ _ _ _ => exact growsO_of_keeps (keep_execDriveCompletion _ _ _ _ _)
  | driveReadyTimeout _ => exact growsO_of_keeps (keep_execDriveReadyTimeout _ _)
  | abortTimeout _ => exact growsO_of_keeps (keep_execAbortTimeout _ _)
  | spokeResetRdyTimeout _ => exact growsO_of_keeps (keep_execSpokeResetRdyTimeout _ _)
  | spokeResetLimit _ => exact growsO_of_keeps (keep_execSpokeResetLimit _ _)
  | driveIdleTimer _ _ => exact growsO_of_keeps (keep_execDriveIdleTimer _ _ _)
  | driveFormat _ _ _ => exact growsO_of_keeps (keep_execDriveFormat _ _ _ _)
  | presenceStable _ => exact growsO_of_keeps (keep_execPresenceStable _ _)
  | rampEnd _ => exact growsO_of_keeps (keep_execRampEnd _ _)
  | bayPowerGood _ _ => exact growsO_of_keeps (keep_execBayPowerGood _ _ _)
  | fastTrip _ _ => exact growsO_of_keeps (keep_execFastTrip _ _ _)
  | breakerTrip _ _ => exact growsO_of_keeps (keep_execBreakerTrip _ _ _)
  | undervoltageTrip _ _ => exact growsO_of_keeps (keep_execUndervoltageTrip _ _ _)
  | coolDownEnd _ _ => exact growsO_of_keeps (keep_execCoolDownEnd _ _ _)
  | retryCountRefresh _ => exact growsO_of_keeps (keep_execRetryCountRefresh _ _)
  | bayClear _ _ => exact growsO_of_keeps (keep_execBayClear _ _ _)
  | feedGood _ _ => exact growsO_of_keeps (keep_execFeedGood _ _ _)
  | feedBad _ _ => exact growsO_of_keeps (keep_execFeedBad _ _ _)
  | feedBbmEnd _ => exact growsO_of_keeps (keep_execFeedBbmEnd _ _)
  | feedRevert _ => exact growsO_of_keeps (keep_execFeedRevert _ _)
  | feedSwitchToA _ _ => exact growsO_of_keeps (keep_execFeedSwitchToA _ _ _)
  | feedSwitchToB _ _ => exact growsO_of_keeps (keep_execFeedSwitchToB _ _ _)
  | feedSwitchSettle _ => exact growsO_of_keeps (keep_execFeedSwitchSettle _ _)
  | bayTelemetrySample _ _ _ _ _ _ => exact growsO_of_keeps (keep_execBayTelemetrySample _ _ _ _ _ _ _)
  | outputHoldExpiry => exact growsO_of_keeps (keep_execOutputHoldExpiry _)
  | bayRailLoss => exact growsO_of_keeps (keep_execBayRailLoss _)
  | bayRailReturn _ => exact growsO_of_keeps (keep_execBayRailReturn _ _)
  | ownFeed _ _ => exact growsO_of_keeps (keep_execOwnFeed _ _ _)
  | heartbeatGap _ => exact growsO_of_keeps (keep_execHeartbeatGap _ _)
  | heartbeatLapse _ _ _ => exact growsO_of_keeps (keep_execHeartbeatLapse _ _ _ _)
  | lineReleasedSeen _ => exact growsO_of_keeps (keep_execLineReleasedSeen _ _)
  | lineGapSeen _ => exact growsO_of_keeps (keep_execLineGapSeen _ _)
  | lineStuck _ => exact growsO_of_keeps (keep_execLineStuck _ _)
  | lineQuietExpiry _ => exact growsO_of_keeps (keep_execLineQuietExpiry _ _)
  | bootClaimExpiry _ => exact growsO_of_keeps (keep_execBootClaimExpiry _ _)
  | checkGapSample _ _ _ _ _ _ => exact growsO_of_keeps (keep_execCheckGapSample _ _ _ _ _ _ _)
  | outputHandoverRelease _ => exact growsO_of_keeps (keep_execOutputHandoverRelease _ _)
  | takeoverAdmissionOpen _ => exact growsO_of_keeps (keep_execTakeoverAdmissionOpen _ _)
  | tandemFlitReceive _ _ _ => exact growsO_of_keeps (keep_execTandemFlitReceive _ _ _ _)
  | tandemLinkUp _ _ _ _ => exact growsO_of_keeps (keep_execTandemLinkUp _ _ _ _ _)
  | tandemFlitSilence => exact growsO_of_keeps (keep_execTandemFlitSilence _)
  | peerAliveFall => exact growsO_of_keeps (keep_execPeerAliveFall _)
  | tandemRetrainTimer => exact growsO_of_keeps (keep_execTandemRetrainTimer _)
  | tandemEchoArrival _ _ _ => exact growsO_of_keeps (keep_execTandemEchoArrival _ _ _ _)
  | echoTimeout _ => exact growsO_of_keeps (keep_execEchoTimeout _ _)
  | cadenceTick _ => exact growsO_of_keeps (keep_execCadenceTick _ _)
  | cadenceFrameReceive _ _ => exact growsO_of_keeps (keep_execCadenceFrameReceive _ _ _)
  | standingMapReceive _ _ _ => exact growsO_of_keeps (keep_execStandingMapReceive _ _ _ _)
  | tandemReleaseGroup _ _ _ => exact growsO_of_keeps (keep_execTandemReleaseGroup _ _ _ _)
  | abandonHandback _ _ _ => exact growsO_of_keeps (keep_execAbandonHandback _ _ _ _)
  | svcPerstAssert _ => exact growsO_next (grows_svcReset ..)
  | svcLinkUp _ _ => exact growsO_of_keeps (keep_execSvcLinkUp _ _ _)
  | svcLinkDown => exact growsO_of_keeps (keep_execSvcLinkDown _)
  | bmeClear _ _ => exact grows_onLiveFn _ _ _ fun t => grows_bmeCleared t _ _
  | bmeSet _ _ => exact grows_onLiveFn _ _ _ fun t => grows_bmeSetAgain t _ _
  | bmeHoldExpiry _ => exact growsO_of_keeps (keep_execBmeHoldExpiry _ _)
  | flrInitiate _ => exact grows_onFn _ _ _ fun t => grows_flr t _
  | flrComplete _ => exact growsO_of_keeps (keep_execFlrComplete _ _)
  | msixUnmask _ _ _ => exact growsO_of_keeps (keep_execMsixUnmask _ _ _ _)
  | d3hotEntry _ _ => exact growsO_of_keeps (keep_execD3hotEntry _ _ _)
  | d0Return _ _ => exact growsO_of_keeps (keep_execD0Return _ _ _)
  | mctpControl _ _ => exact growsO_of_keeps (keep_execMctpControl _ _ _)
  | mctpSpdm _ _ _ => exact growsO_of_keeps (keep_execMctpSpdm _ _ _ _)
  | mctpVendorManagement _ _ _ _ _ _ _ _ _ _ => exact grows_execMctpVendorManagement _ _ _ _ _ _ _ _ _ _ _
  | serviceFunctionBind _ _ => exact growsO_of_keeps (keep_execServiceFunctionBind _ _ _)
  | eventQueueDrain => exact growsO_of_keeps (keep_execEventQueueDrain _)
  | evrSuppressedSummary => exact growsO_of_keeps (keep_execEvrSuppressedSummary _)
  | eventRead _ _ _ _ => exact growsO_of_keeps (keep_execEventRead _ _ _ _ _)
  | evrWindowRead _ => exact growsO_of_keeps (keep_execEvrWindowRead _ _)
  | cycFreeze _ => exact growsO_of_keeps (keep_execCycFreeze _ _)
  | cycResume _ => exact growsO_of_keeps (keep_execCycResume _ _)
  | cycClearAll _ => exact growsO_of_keeps (keep_execCycClearAll _ _)
  | freezePinEdge _ => exact growsO_of_keeps (keep_execFreezePinEdge _ _)
  | cycWindowEnd => exact growsO_of_keeps (keep_execCycWindowEnd _)
  | flipArm _ => exact growsO_of_keeps (keep_execFlipArm _ _)
  | dramScrubLine _ _ _ _ => exact growsO_of_keeps (keep_execDramScrubLine _ _ _ _ _)
  | fieldLock _ _ => exact grows_execFieldLock _ _ _
  | ptbArm _ _ => exact grows_onInjector _ _ _ (grows_ptbCfgWrite _ _ _)
  | ptbDisarm _ _ => exact grows_onInjector _ _ _ (grows_ptbCfgWrite _ _ _)
  | injectorRelease _ _ => exact grows_onInjector _ _ _ (grows_injRelease _ _ _)
  | ptbCaptureRead _ => exact growsO_of_keeps (keep_execPtbCaptureRead _ _)
  | tempWarning _ _ _ => exact growsO_of_keeps (keep_execTempWarning _ _ _ _)
  | tempShutdownLimit _ _ => exact growsO_of_keeps (keep_execTempShutdownLimit _ _ _)
  | logicHardwareTrip => exact growsO_next (grows_logicTrip ..)
  | bayHardwareTrip => exact growsO_of_keeps (keep_execBayHardwareTrip _)
  | railMonitorTrip _ _ => exact growsO_of_keeps (keep_execRailMonitorTrip _ _ _)
  | refclkLoss _ _ => exact growsO_of_keeps (keep_execRefclkLoss _ _ _)
  | refclkRestored _ => exact growsO_next (grows_refclkBack ..)
  | pllLockLost _ => exact growsO_of_keeps (keep_execPllLockLost _ _)
  | jtagBypass => exact growsO_of_keeps (keep_execJtagBypass _)
  | jtagIdcode => exact growsO_of_keeps (keep_execJtagIdcode _)
  | jtagSamplePreload => exact growsO_of_keeps (keep_execJtagSamplePreload _)
  | jtagExtest => exact growsO_of_keeps (keep_execJtagExtest _)
  | jtagClamp => exact growsO_of_keeps (keep_execJtagClamp _)
  | mgmtPortLinkUp => exact growsO_of_keeps (keep_execMgmtPortLinkUp _)
  | mgmtPortLinkDown => exact growsO_of_keeps (keep_execMgmtPortLinkDown _)
  | peerAliveRise => exact growsO_of_keeps (keep_execPeerAliveRise _)
  | remirrorRetryTimer _ => exact growsO_of_keeps (keep_execRemirrorRetryTimer _ _)
  | flushAgeExpiry _ _ => exact growsO_of_keeps (keep_execFlushAgeExpiry _ _ _)
  | ownerAuthVerificationDone _ => exact growsO_of_keeps (keep_execOwnerAuthVerificationDone _ _)
  | svcPerstRelease => exact growsO_of_keeps (keep_execSvcPerstRelease _)
  | svcNvmeRegisterWrite _ _ _ => exact growsO_of_keeps (keep_execSvcNvmeRegisterWrite _ _ _ _)
  | svcDmaReadCompletion _ _ _ _ => exact growsO_of_keeps (keep_execSvcDmaReadCompletion _ _ _ _ _)
  | cstsRdyReached _ => exact growsO_of_keeps (keep_execCstsRdyReached _ _)
  | cstsRdyCleared _ => exact growsO_of_keeps (keep_execCstsRdyCleared _ _)
  | cstsCfsSet _ => exact growsO_of_keeps (keep_execCstsCfsSet _ _)
  | driveAdminCommandTimeout _ => exact growsO_of_keeps (keep_execDriveAdminCommandTimeout _ _)

end Sys2Proof.Machine
end

