-- ==== Sys2Proof/Laws/Quiet.lean ====
section
/-! SUPPORT. Counting, reporting and notifying touch the RC counters, the event recorder, the cyclometer, the vectors of the service port and
what is sent, and nothing else; with one `@[simp]` lemma for each other field. -/

namespace Sys2Proof.Machine

/-- A state without the parts that counting, reporting and notifying may change. -/
def quiet (s : State) : State := { s with regs := { s.regs with rc := [] }, evr := {}, cyc := {}, svc := {}, out := [] }

theorem quiet_rcAdd (s off i n) : quiet (rcAdd s off i n) = quiet s := rfl

theorem quiet_emit (s o) : quiet (emit s o) = quiet s := rfl

theorem quiet_raiseVec (s fn v) : quiet (raiseVec s fn v) = quiet s := by
  unfold raiseVec
  dsimp only
  repeat' split
  all_goals rfl

theorem quiet_count (s num i v n) : quiet (count s num i v n) = quiet s := by
  unfold count
  split <;> rfl

theorem quiet_takeSeq (s) : quiet (takeSeq s) = quiet s := by unfold takeSeq; split <;> rfl

theorem quiet_loseSeq (s) : quiet (loseSeq s) = quiet s := by
  unfold loseSeq
  split
  · exact quiet_takeSeq _
  · rfl

theorem quiet_countRate (s n) : quiet (countRate s n) = quiet s := by unfold countRate; split <;> rfl

theorem quiet_rollSecond (s) : quiet (rollSecond s) = quiet s := by unfold rollSecond; split <;> rfl

theorem quiet_ringPut (s r) : quiet (ringPut s r) = quiet s := by
  unfold ringPut
  dsimp only
  split
  · exact quiet_raiseVec _ _ _
  · rfl

theorem quiet_placeEvent (s e) : quiet (placeEvent s e) = quiet s := by
  unfold placeEvent
  dsimp only
  split
  · rw [quiet_takeSeq, quiet_ringPut, quiet_countRate, quiet_rollSecond]
  · rw [quiet_takeSeq]
    exact (quiet_countRate (rollSecond s) e.num).trans (quiet_rollSecond s)
  · split
    · exact quiet_rollSecond s
    · rw [quiet_loseSeq]; exact quiet_rollSecond s
  · rw [quiet_loseSeq]; exact quiet_rollSecond s

theorem quiet_freezeOn (s n) : quiet (freezeOn s n) = quiet s := by
  unfold freezeOn freezeNow
  repeat' split
  · rfl
  · rw [quiet_placeEvent]; rfl
  · rfl

theorem quiet_writeEvent (s e) : quiet (writeEvent s e) = quiet s := by
  have h : quiet (if fateOf (rollSecond s) e.num = .ring then freezeOn (placeEvent s e) e.num else placeEvent s e) = quiet s := by
    split
    · rw [quiet_freezeOn, quiet_placeEvent]
    · exact quiet_placeEvent _ _
  unfold writeEvent
  dsimp only
  split
  · rw [quiet_raiseVec]; exact h
  · exact h

theorem quiet_transient (s r o a b) : quiet (transient s r o a b) = quiet s := by
  unfold transient
  rw [quiet_writeEvent, quiet_count]

theorem quiet_noteMode (s t) : quiet (noteMode s t) = quiet t := by
  unfold noteMode
  split
  · rfl
  · exact quiet_raiseVec _ _ _

/-- A cured stage also sets the mark of GBL_BOOT_STATUS. -/
theorem quiet_cured (s n o) : quiet (cured s n o) = quiet { s with glb := { s.glb with transientSeen := true } } :=
  quiet_transient _ _ _ _ _

@[simp] theorem raiseVec_pending (s fn v) : (raiseVec s fn v).pending = s.pending := (congrArg State.pending (quiet_raiseVec s fn v) : (quiet _).pending = (quiet _).pending)
@[simp] theorem raiseVec_now (s fn v) : (raiseVec s fn v).now = s.now := (congrArg State.now (quiet_raiseVec s fn v) : (quiet _).now = (quiet _).now)
@[simp] theorem raiseVec_glb (s fn v) : (raiseVec s fn v).glb = s.glb := (congrArg State.glb (quiet_raiseVec s fn v) : (quiet _).glb = (quiet _).glb)
@[simp] theorem raiseVec_nor (s fn v) : (raiseVec s fn v).nor = s.nor := (congrArg State.nor (quiet_raiseVec s fn v) : (quiet _).nor = (quiet _).nor)
@[simp] theorem raiseVec_cfg (s fn v) : (raiseVec s fn v).cfg = s.cfg := (congrArg State.cfg (quiet_raiseVec s fn v) : (quiet _).cfg = (quiet _).cfg)
@[simp] theorem raiseVec_trs (s fn v) : (raiseVec s fn v).trs = s.trs := (congrArg State.trs (quiet_raiseVec s fn v) : (quiet _).trs = (quiet _).trs)
@[simp] theorem raiseVec_prt (s fn v) : (raiseVec s fn v).prt = s.prt := (congrArg State.prt (quiet_raiseVec s fn v) : (quiet _).prt = (quiet _).prt)
@[simp] theorem raiseVec_rdt (s fn v) : (raiseVec s fn v).rdt = s.rdt := (congrArg State.rdt (quiet_raiseVec s fn v) : (quiet _).rdt = (quiet _).rdt)
@[simp] theorem raiseVec_cfe (s fn v) : (raiseVec s fn v).cfe = s.cfe := (congrArg State.cfe (quiet_raiseVec s fn v) : (quiet _).cfe = (quiet _).cfe)
@[simp] theorem raiseVec_cat (s fn v) : (raiseVec s fn v).cat = s.cat := (congrArg State.cat (quiet_raiseVec s fn v) : (quiet _).cat = (quiet _).cat)
@[simp] theorem raiseVec_seq (s fn v) : (raiseVec s fn v).seq = s.seq := (congrArg State.seq (quiet_raiseVec s fn v) : (quiet _).seq = (quiet _).seq)
@[simp] theorem raiseVec_coc (s fn v) : (raiseVec s fn v).coc = s.coc := (congrArg State.coc (quiet_raiseVec s fn v) : (quiet _).coc = (quiet _).coc)
@[simp] theorem raiseVec_xfm (s fn v) : (raiseVec s fn v).xfm = s.xfm := (congrArg State.xfm (quiet_raiseVec s fn v) : (quiet _).xfm = (quiet _).xfm)
@[simp] theorem raiseVec_fed (s fn v) : (raiseVec s fn v).fed = s.fed := (congrArg State.fed (quiet_raiseVec s fn v) : (quiet _).fed = (quiet _).fed)
@[simp] theorem raiseVec_swc (s fn v) : (raiseVec s fn v).swc = s.swc := (congrArg State.swc (quiet_raiseVec s fn v) : (quiet _).swc = (quiet _).swc)
@[simp] theorem raiseVec_sch (s fn v) : (raiseVec s fn v).sch = s.sch := (congrArg State.sch (quiet_raiseVec s fn v) : (quiet _).sch = (quiet _).sch)
@[simp] theorem raiseVec_spk (s fn v) : (raiseVec s fn v).spk = s.spk := (congrArg State.spk (quiet_raiseVec s fn v) : (quiet _).spk = (quiet _).spk)
@[simp] theorem raiseVec_bay (s fn v) : (raiseVec s fn v).bay = s.bay := (congrArg State.bay (quiet_raiseVec s fn v) : (quiet _).bay = (quiet _).bay)
@[simp] theorem raiseVec_tdm (s fn v) : (raiseVec s fn v).tdm = s.tdm := (congrArg State.tdm (quiet_raiseVec s fn v) : (quiet _).tdm = (quiet _).tdm)
@[simp] theorem raiseVec_ptb (s fn v) : (raiseVec s fn v).ptb = s.ptb := (congrArg State.ptb (quiet_raiseVec s fn v) : (quiet _).ptb = (quiet _).ptb)
@[simp] theorem raiseVec_mem (s fn v) : (raiseVec s fn v).mem = s.mem := (congrArg State.mem (quiet_raiseVec s fn v) : (quiet _).mem = (quiet _).mem)
@[simp] theorem raiseVec_rw (s fn v) : (raiseVec s fn v).regs.rw = s.regs.rw := (congrArg (fun t => t.regs.rw) (quiet_raiseVec s fn v) : (quiet _).regs.rw = (quiet _).regs.rw)

@[simp] theorem count_pending (s num i v n) : (count s num i v n).pending = s.pending := (congrArg State.pending (quiet_count s num i v n) : (quiet _).pending = (quiet _).pending)
@[simp] theorem count_now (s num i v n) : (count s num i v n).now = s.now := (congrArg State.now (quiet_count s num i v n) : (quiet _).now = (quiet _).now)
@[simp] theorem count_glb (s num i v n) : (count s num i v n).glb = s.glb := (congrArg State.glb (quiet_count s num i v n) : (quiet _).glb = (quiet _).glb)
@[simp] theorem count_nor (s num i v n) : (count s num i v n).nor = s.nor := (congrArg State.nor (quiet_count s num i v n) : (quiet _).nor = (quiet _).nor)
@[simp] theorem count_cfg (s num i v n) : (count s num i v n).cfg = s.cfg := (congrArg State.cfg (quiet_count s num i v n) : (quiet _).cfg = (quiet _).cfg)
@[simp] theorem count_trs (s num i v n) : (count s num i v n).trs = s.trs := (congrArg State.trs (quiet_count s num i v n) : (quiet _).trs = (quiet _).trs)
@[simp] theorem count_prt (s num i v n) : (count s num i v n).prt = s.prt := (congrArg State.prt (quiet_count s num i v n) : (quiet _).prt = (quiet _).prt)
@[simp] theorem count_rdt (s num i v n) : (count s num i v n).rdt = s.rdt := (congrArg State.rdt (quiet_count s num i v n) : (quiet _).rdt = (quiet _).rdt)
@[simp] theorem count_cfe (s num i v n) : (count s num i v n).cfe = s.cfe := (congrArg State.cfe (quiet_count s num i v n) : (quiet _).cfe = (quiet _).cfe)
@[simp] theorem count_cat (s num i v n) : (count s num i v n).cat = s.cat := (congrArg State.cat (quiet_count s num i v n) : (quiet _).cat = (quiet _).cat)
@[simp] theorem count_seq (s num i v n) : (count s num i v n).seq = s.seq := (congrArg State.seq (quiet_count s num i v n) : (quiet _).seq = (quiet _).seq)
@[simp] theorem count_coc (s num i v n) : (count s num i v n).coc = s.coc := (congrArg State.coc (quiet_count s num i v n) : (quiet _).coc = (quiet _).coc)
@[simp] theorem count_xfm (s num i v n) : (count s num i v n).xfm = s.xfm := (congrArg State.xfm (quiet_count s num i v n) : (quiet _).xfm = (quiet _).xfm)
@[simp] theorem count_fed (s num i v n) : (count s num i v n).fed = s.fed := (congrArg State.fed (quiet_count s num i v n) : (quiet _).fed = (quiet _).fed)
@[simp] theorem count_swc (s num i v n) : (count s num i v n).swc = s.swc := (congrArg State.swc (quiet_count s num i v n) : (quiet _).swc = (quiet _).swc)
@[simp] theorem count_sch (s num i v n) : (count s num i v n).sch = s.sch := (congrArg State.sch (quiet_count s num i v n) : (quiet _).sch = (quiet _).sch)
@[simp] theorem count_spk (s num i v n) : (count s num i v n).spk = s.spk := (congrArg State.spk (quiet_count s num i v n) : (quiet _).spk = (quiet _).spk)
@[simp] theorem count_bay (s num i v n) : (count s num i v n).bay = s.bay := (congrArg State.bay (quiet_count s num i v n) : (quiet _).bay = (quiet _).bay)
@[simp] theorem count_tdm (s num i v n) : (count s num i v n).tdm = s.tdm := (congrArg State.tdm (quiet_count s num i v n) : (quiet _).tdm = (quiet _).tdm)
@[simp] theorem count_ptb (s num i v n) : (count s num i v n).ptb = s.ptb := (congrArg State.ptb (quiet_count s num i v n) : (quiet _).ptb = (quiet _).ptb)
@[simp] theorem count_mem (s num i v n) : (count s num i v n).mem = s.mem := (congrArg State.mem (quiet_count s num i v n) : (quiet _).mem = (quiet _).mem)
@[simp] theorem count_rw (s num i v n) : (count s num i v n).regs.rw = s.regs.rw := (congrArg (fun t => t.regs.rw) (quiet_count s num i v n) : (quiet _).regs.rw = (quiet _).regs.rw)

@[simp] theorem writeEvent_pending (s e) : (writeEvent s e).pending = s.pending := (congrArg State.pending (quiet_writeEvent s e) : (quiet _).pending = (quiet _).pending)
@[simp] theorem writeEvent_now (s e) : (writeEvent s e).now = s.now := (congrArg State.now (quiet_writeEvent s e) : (quiet _).now = (quiet _).now)
@[simp] theorem writeEvent_glb (s e) : (writeEvent s e).glb = s.glb := (congrArg State.glb (quiet_writeEvent s e) : (quiet _).glb = (quiet _).glb)
@[simp] theorem writeEvent_nor (s e) : (writeEvent s e).nor = s.nor := (congrArg State.nor (quiet_writeEvent s e) : (quiet _).nor = (quiet _).nor)
@[simp] theorem writeEvent_cfg (s e) : (writeEvent s e).cfg = s.cfg := (congrArg State.cfg (quiet_writeEvent s e) : (quiet _).cfg = (quiet _).cfg)
@[simp] theorem writeEvent_trs (s e) : (writeEvent s e).trs = s.trs := (congrArg State.trs (quiet_writeEvent s e) : (quiet _).trs = (quiet _).trs)
@[simp] theorem writeEvent_prt (s e) : (writeEvent s e).prt = s.prt := (congrArg State.prt (quiet_writeEvent s e) : (quiet _).prt = (quiet _).prt)
@[simp] theorem writeEvent_rdt (s e) : (writeEvent s e).rdt = s.rdt := (congrArg State.rdt (quiet_writeEvent s e) : (quiet _).rdt = (quiet _).rdt)
@[simp] theorem writeEvent_cfe (s e) : (writeEvent s e).cfe = s.cfe := (congrArg State.cfe (quiet_writeEvent s e) : (quiet _).cfe = (quiet _).cfe)
@[simp] theorem writeEvent_cat (s e) : (writeEvent s e).cat = s.cat := (congrArg State.cat (quiet_writeEvent s e) : (quiet _).cat = (quiet _).cat)
@[simp] theorem writeEvent_seq (s e) : (writeEvent s e).seq = s.seq := (congrArg State.seq (quiet_writeEvent s e) : (quiet _).seq = (quiet _).seq)
@[simp] theorem writeEvent_coc (s e) : (writeEvent s e).coc = s.coc := (congrArg State.coc (quiet_writeEvent s e) : (quiet _).coc = (quiet _).coc)
@[simp] theorem writeEvent_xfm (s e) : (writeEvent s e).xfm = s.xfm := (congrArg State.xfm (quiet_writeEvent s e) : (quiet _).xfm = (quiet _).xfm)
@[simp] theorem writeEvent_fed (s e) : (writeEvent s e).fed = s.fed := (congrArg State.fed (quiet_writeEvent s e) : (quiet _).fed = (quiet _).fed)
@[simp] theorem writeEvent_swc (s e) : (writeEvent s e).swc = s.swc := (congrArg State.swc (quiet_writeEvent s e) : (quiet _).swc = (quiet _).swc)
@[simp] theorem writeEvent_sch (s e) : (writeEvent s e).sch = s.sch := (congrArg State.sch (quiet_writeEvent s e) : (quiet _).sch = (quiet _).sch)
@[simp] theorem writeEvent_spk (s e) : (writeEvent s e).spk = s.spk := (congrArg State.spk (quiet_writeEvent s e) : (quiet _).spk = (quiet _).spk)
@[simp] theorem writeEvent_bay (s e) : (writeEvent s e).bay = s.bay := (congrArg State.bay (quiet_writeEvent s e) : (quiet _).bay = (quiet _).bay)
@[simp] theorem writeEvent_tdm (s e) : (writeEvent s e).tdm = s.tdm := (congrArg State.tdm (quiet_writeEvent s e) : (quiet _).tdm = (quiet _).tdm)
@[simp] theorem writeEvent_ptb (s e) : (writeEvent s e).ptb = s.ptb := (congrArg State.ptb (quiet_writeEvent s e) : (quiet _).ptb = (quiet _).ptb)
@[simp] theorem writeEvent_mem (s e) : (writeEvent s e).mem = s.mem := (congrArg State.mem (quiet_writeEvent s e) : (quiet _).mem = (quiet _).mem)
@[simp] theorem writeEvent_rw (s e) : (writeEvent s e).regs.rw = s.regs.rw := (congrArg (fun t => t.regs.rw) (quiet_writeEvent s e) : (quiet _).regs.rw = (quiet _).regs.rw)

@[simp] theorem transient_pending (s r o a b) : (transient s r o a b).pending = s.pending := (congrArg State.pending (quiet_transient s r o a b) : (quiet _).pending = (quiet _).pending)
@[simp] theorem transient_now (s r o a b) : (transient s r o a b).now = s.now := (congrArg State.now (quiet_transient s r o a b) : (quiet _).now = (quiet _).now)
@[simp] theorem transient_glb (s r o a b) : (transient s r o a b).glb = s.glb := (congrArg State.glb (quiet_transient s r o a b) : (quiet _).glb = (quiet _).glb)
@[simp] theorem transient_nor (s r o a b) : (transient s r o a b).nor = s.nor := (congrArg State.nor (quiet_transient s r o a b) : (quiet _).nor = (quiet _).nor)
@[simp] theorem transient_cfg (s r o a b) : (transient s r o a b).cfg = s.cfg := (congrArg State.cfg (quiet_transient s r o a b) : (quiet _).cfg = (quiet _).cfg)
@[simp] theorem transient_trs (s r o a b) : (transient s r o a b).trs = s.trs := (congrArg State.trs (quiet_transient s r o a b) : (quiet _).trs = (quiet _).trs)
@[simp] theorem transient_prt (s r o a b) : (transient s r o a b).prt = s.prt := (congrArg State.prt (quiet_transient s r o a b) : (quiet _).prt = (quiet _).prt)
@[simp] theorem transient_rdt (s r o a b) : (transient s r o a b).rdt = s.rdt := (congrArg State.rdt (quiet_transient s r o a b) : (quiet _).rdt = (quiet _).rdt)
@[simp] theorem transient_cfe (s r o a b) : (transient s r o a b).cfe = s.cfe := (congrArg State.cfe (quiet_transient s r o a b) : (quiet _).cfe = (quiet _).cfe)
@[simp] theorem transient_cat (s r o a b) : (transient s r o a b).cat = s.cat := (congrArg State.cat (quiet_transient s r o a b) : (quiet _).cat = (quiet _).cat)
@[simp] theorem transient_seq (s r o a b) : (transient s r o a b).seq = s.seq := (congrArg State.seq (quiet_transient s r o a b) : (quiet _).seq = (quiet _).seq)
@[simp] theorem transient_coc (s r o a b) : (transient s r o a b).coc = s.coc := (congrArg State.coc (quiet_transient s r o a b) : (quiet _).coc = (quiet _).coc)
@[simp] theorem transient_xfm (s r o a b) : (transient s r o a b).xfm = s.xfm := (congrArg State.xfm (quiet_transient s r o a b) : (quiet _).xfm = (quiet _).xfm)
@[simp] theorem transient_fed (s r o a b) : (transient s r o a b).fed = s.fed := (congrArg State.fed (quiet_transient s r o a b) : (quiet _).fed = (quiet _).fed)
@[simp] theorem transient_swc (s r o a b) : (transient s r o a b).swc = s.swc := (congrArg State.swc (quiet_transient s r o a b) : (quiet _).swc = (quiet _).swc)
@[simp] theorem transient_sch (s r o a b) : (transient s r o a b).sch = s.sch := (congrArg State.sch (quiet_transient s r o a b) : (quiet _).sch = (quiet _).sch)
@[simp] theorem transient_spk (s r o a b) : (transient s r o a b).spk = s.spk := (congrArg State.spk (quiet_transient s r o a b) : (quiet _).spk = (quiet _).spk)
@[simp] theorem transient_bay (s r o a b) : (transient s r o a b).bay = s.bay := (congrArg State.bay (quiet_transient s r o a b) : (quiet _).bay = (quiet _).bay)
@[simp] theorem transient_tdm (s r o a b) : (transient s r o a b).tdm = s.tdm := (congrArg State.tdm (quiet_transient s r o a b) : (quiet _).tdm = (quiet _).tdm)
@[simp] theorem transient_ptb (s r o a b) : (transient s r o a b).ptb = s.ptb := (congrArg State.ptb (quiet_transient s r o a b) : (quiet _).ptb = (quiet _).ptb)
@[simp] theorem transient_mem (s r o a b) : (transient s r o a b).mem = s.mem := (congrArg State.mem (quiet_transient s r o a b) : (quiet _).mem = (quiet _).mem)
@[simp] theorem transient_rw (s r o a b) : (transient s r o a b).regs.rw = s.regs.rw := (congrArg (fun t => t.regs.rw) (quiet_transient s r o a b) : (quiet _).regs.rw = (quiet _).regs.rw)

@[simp] theorem placeEvent_pending (s e) : (placeEvent s e).pending = s.pending := (congrArg State.pending (quiet_placeEvent s e) : (quiet _).pending = (quiet _).pending)
@[simp] theorem placeEvent_now (s e) : (placeEvent s e).now = s.now := (congrArg State.now (quiet_placeEvent s e) : (quiet _).now = (quiet _).now)
@[simp] theorem placeEvent_glb (s e) : (placeEvent s e).glb = s.glb := (congrArg State.glb (quiet_placeEvent s e) : (quiet _).glb = (quiet _).glb)
@[simp] theorem placeEvent_nor (s e) : (placeEvent s e).nor = s.nor := (congrArg State.nor (quiet_placeEvent s e) : (quiet _).nor = (quiet _).nor)
@[simp] theorem placeEvent_cfg (s e) : (placeEvent s e).cfg = s.cfg := (congrArg State.cfg (quiet_placeEvent s e) : (quiet _).cfg = (quiet _).cfg)
@[simp] theorem placeEvent_trs (s e) : (placeEvent s e).trs = s.trs := (congrArg State.trs (quiet_placeEvent s e) : (quiet _).trs = (quiet _).trs)
@[simp] theorem placeEvent_prt (s e) : (placeEvent s e).prt = s.prt := (congrArg State.prt (quiet_placeEvent s e) : (quiet _).prt = (quiet _).prt)
@[simp] theorem placeEvent_rdt (s e) : (placeEvent s e).rdt = s.rdt := (congrArg State.rdt (quiet_placeEvent s e) : (quiet _).rdt = (quiet _).rdt)
@[simp] theorem placeEvent_cfe (s e) : (placeEvent s e).cfe = s.cfe := (congrArg State.cfe (quiet_placeEvent s e) : (quiet _).cfe = (quiet _).cfe)
@[simp] theorem placeEvent_cat (s e) : (placeEvent s e).cat = s.cat := (congrArg State.cat (quiet_placeEvent s e) : (quiet _).cat = (quiet _).cat)
@[simp] theorem placeEvent_seq (s e) : (placeEvent s e).seq = s.seq := (congrArg State.seq (quiet_placeEvent s e) : (quiet _).seq = (quiet _).seq)
@[simp] theorem placeEvent_coc (s e) : (placeEvent s e).coc = s.coc := (congrArg State.coc (quiet_placeEvent s e) : (quiet _).coc = (quiet _).coc)
@[simp] theorem placeEvent_xfm (s e) : (placeEvent s e).xfm = s.xfm := (congrArg State.xfm (quiet_placeEvent s e) : (quiet _).xfm = (quiet _).xfm)
@[simp] theorem placeEvent_fed (s e) : (placeEvent s e).fed = s.fed := (congrArg State.fed (quiet_placeEvent s e) : (quiet _).fed = (quiet _).fed)
@[simp] theorem placeEvent_swc (s e) : (placeEvent s e).swc = s.swc := (congrArg State.swc (quiet_placeEvent s e) : (quiet _).swc = (quiet _).swc)
@[simp] theorem placeEvent_sch (s e) : (placeEvent s e).sch = s.sch := (congrArg State.sch (quiet_placeEvent s e) : (quiet _).sch = (quiet _).sch)
@[simp] theorem placeEvent_spk (s e) : (placeEvent s e).spk = s.spk := (congrArg State.spk (quiet_placeEvent s e) : (quiet _).spk = (quiet _).spk)
@[simp] theorem placeEvent_bay (s e) : (placeEvent s e).bay = s.bay := (congrArg State.bay (quiet_placeEvent s e) : (quiet _).bay = (quiet _).bay)
@[simp] theorem placeEvent_tdm (s e) : (placeEvent s e).tdm = s.tdm := (congrArg State.tdm (quiet_placeEvent s e) : (quiet _).tdm = (quiet _).tdm)
@[simp] theorem placeEvent_ptb (s e) : (placeEvent s e).ptb = s.ptb := (congrArg State.ptb (quiet_placeEvent s e) : (quiet _).ptb = (quiet _).ptb)
@[simp] theorem placeEvent_mem (s e) : (placeEvent s e).mem = s.mem := (congrArg State.mem (quiet_placeEvent s e) : (quiet _).mem = (quiet _).mem)
@[simp] theorem placeEvent_rw (s e) : (placeEvent s e).regs.rw = s.regs.rw := (congrArg (fun t => t.regs.rw) (quiet_placeEvent s e) : (quiet _).regs.rw = (quiet _).regs.rw)

@[simp] theorem noteMode_pending (s t) : (noteMode s t).pending = t.pending := (congrArg State.pending (quiet_noteMode s t) : (quiet _).pending = (quiet _).pending)
@[simp] theorem noteMode_now (s t) : (noteMode s t).now = t.now := (congrArg State.now (quiet_noteMode s t) : (quiet _).now = (quiet _).now)
@[simp] theorem noteMode_glb (s t) : (noteMode s t).glb = t.glb := (congrArg State.glb (quiet_noteMode s t) : (quiet _).glb = (quiet _).glb)
@[simp] theorem noteMode_nor (s t) : (noteMode s t).nor = t.nor := (congrArg State.nor (quiet_noteMode s t) : (quiet _).nor = (quiet _).nor)
@[simp] theorem noteMode_cfg (s t) : (noteMode s t).cfg = t.cfg := (congrArg State.cfg (quiet_noteMode s t) : (quiet _).cfg = (quiet _).cfg)
@[simp] theorem noteMode_trs (s t) : (noteMode s t).trs = t.trs := (congrArg State.trs (quiet_noteMode s t) : (quiet _).trs = (quiet _).trs)
@[simp] theorem noteMode_prt (s t) : (noteMode s t).prt = t.prt := (congrArg State.prt (quiet_noteMode s t) : (quiet _).prt = (quiet _).prt)
@[simp] theorem noteMode_rdt (s t) : (noteMode s t).rdt = t.rdt := (congrArg State.rdt (quiet_noteMode s t) : (quiet _).rdt = (quiet _).rdt)
@[simp] theorem noteMode_cfe (s t) : (noteMode s t).cfe = t.cfe := (congrArg State.cfe (quiet_noteMode s t) : (quiet _).cfe = (quiet _).cfe)
@[simp] theorem noteMode_cat (s t) : (noteMode s t).cat = t.cat := (congrArg State.cat (quiet_noteMode s t) : (quiet _).cat = (quiet _).cat)
@[simp] theorem noteMode_seq (s t) : (noteMode s t).seq = t.seq := (congrArg State.seq (quiet_noteMode s t) : (quiet _).seq = (quiet _).seq)
@[simp] theorem noteMode_coc (s t) : (noteMode s t).coc = t.coc := (congrArg State.coc (quiet_noteMode s t) : (quiet _).coc = (quiet _).coc)
@[simp] theorem noteMode_xfm (s t) : (noteMode s t).xfm = t.xfm := (congrArg State.xfm (quiet_noteMode s t) : (quiet _).xfm = (quiet _).xfm)
@[simp] theorem noteMode_fed (s t) : (noteMode s t).fed = t.fed := (congrArg State.fed (quiet_noteMode s t) : (quiet _).fed = (quiet _).fed)
@[simp] theorem noteMode_swc (s t) : (noteMode s t).swc = t.swc := (congrArg State.swc (quiet_noteMode s t) : (quiet _).swc = (quiet _).swc)
@[simp] theorem noteMode_sch (s t) : (noteMode s t).sch = t.sch := (congrArg State.sch (quiet_noteMode s t) : (quiet _).sch = (quiet _).sch)
@[simp] theorem noteMode_spk (s t) : (noteMode s t).spk = t.spk := (congrArg State.spk (quiet_noteMode s t) : (quiet _).spk = (quiet _).spk)
@[simp] theorem noteMode_bay (s t) : (noteMode s t).bay = t.bay := (congrArg State.bay (quiet_noteMode s t) : (quiet _).bay = (quiet _).bay)
@[simp] theorem noteMode_tdm (s t) : (noteMode s t).tdm = t.tdm := (congrArg State.tdm (quiet_noteMode s t) : (quiet _).tdm = (quiet _).tdm)
@[simp] theorem noteMode_ptb (s t) : (noteMode s t).ptb = t.ptb := (congrArg State.ptb (quiet_noteMode s t) : (quiet _).ptb = (quiet _).ptb)
@[simp] theorem noteMode_mem (s t) : (noteMode s t).mem = t.mem := (congrArg State.mem (quiet_noteMode s t) : (quiet _).mem = (quiet _).mem)

@[simp] theorem cured_pending (s n o) : (cured s n o).pending = s.pending := (congrArg State.pending (quiet_cured s n o) : (quiet _).pending = (quiet _).pending)
@[simp] theorem cured_now (s n o) : (cured s n o).now = s.now := (congrArg State.now (quiet_cured s n o) : (quiet _).now = (quiet _).now)
@[simp] theorem cured_glb (s n o) : (cured s n o).glb = { s.glb with transientSeen := true } := (congrArg State.glb (quiet_cured s n o) : (quiet _).glb = (quiet _).glb)
@[simp] theorem cured_nor (s n o) : (cured s n o).nor = s.nor := (congrArg State.nor (quiet_cured s n o) : (quiet _).nor = (quiet _).nor)
@[simp] theorem cured_cfg (s n o) : (cured s n o).cfg = s.cfg := (congrArg State.cfg (quiet_cured s n o) : (quiet _).cfg = (quiet _).cfg)
@[simp] theorem cured_trs (s n o) : (cured s n o).trs = s.trs := (congrArg State.trs (quiet_cured s n o) : (quiet _).trs = (quiet _).trs)
@[simp] theorem cured_prt (s n o) : (cured s n o).prt = s.prt := (congrArg State.prt (quiet_cured s n o) : (quiet _).prt = (quiet _).prt)
@[simp] theorem cured_rdt (s n o) : (cured s n o).rdt = s.rdt := (congrArg State.rdt (quiet_cured s n o) : (quiet _).rdt = (quiet _).rdt)
@[simp] theorem cured_cfe (s n o) : (cured s n o).cfe = s.cfe := (congrArg State.cfe (quiet_cured s n o) : (quiet _).cfe = (quiet _).cfe)
@[simp] theorem cured_cat (s n o) : (cured s n o).cat = s.cat := (congrArg State.cat (quiet_cured s n o) : (quiet _).cat = (quiet _).cat)
@[simp] theorem cured_seq (s n o) : (cured s n o).seq = s.seq := (congrArg State.seq (quiet_cured s n o) : (quiet _).seq = (quiet _).seq)
@[simp] theorem cured_coc (s n o) : (cured s n o).coc = s.coc := (congrArg State.coc (quiet_cured s n o) : (quiet _).coc = (quiet _).coc)
@[simp] theorem cured_xfm (s n o) : (cured s n o).xfm = s.xfm := (congrArg State.xfm (quiet_cured s n o) : (quiet _).xfm = (quiet _).xfm)
@[simp] theorem cured_fed (s n o) : (cured s n o).fed = s.fed := (congrArg State.fed (quiet_cured s n o) : (quiet _).fed = (quiet _).fed)
@[simp] theorem cured_swc (s n o) : (cured s n o).swc = s.swc := (congrArg State.swc (quiet_cured s n o) : (quiet _).swc = (quiet _).swc)
@[simp] theorem cured_sch (s n o) : (cured s n o).sch = s.sch := (congrArg State.sch (quiet_cured s n o) : (quiet _).sch = (quiet _).sch)
@[simp] theorem cured_spk (s n o) : (cured s n o).spk = s.spk := (congrArg State.spk (quiet_cured s n o) : (quiet _).spk = (quiet _).spk)
@[simp] theorem cured_bay (s n o) : (cured s n o).bay = s.bay := (congrArg State.bay (quiet_cured s n o) : (quiet _).bay = (quiet _).bay)
@[simp] theorem cured_tdm (s n o) : (cured s n o).tdm = s.tdm := (congrArg State.tdm (quiet_cured s n o) : (quiet _).tdm = (quiet _).tdm)
@[simp] theorem cured_ptb (s n o) : (cured s n o).ptb = s.ptb := (congrArg State.ptb (quiet_cured s n o) : (quiet _).ptb = (quiet _).ptb)
@[simp] theorem cured_mem (s n o) : (cured s n o).mem = s.mem := (congrArg State.mem (quiet_cured s n o) : (quiet _).mem = (quiet _).mem)
@[simp] theorem cured_rw (s n o) : (cured s n o).regs.rw = s.regs.rw := (congrArg (fun t => t.regs.rw) (quiet_cured s n o) : (quiet _).regs.rw = (quiet _).regs.rw)

end Sys2Proof.Machine
end

