-- ==== Sys2Proof/Laws/State.lean ====
section
/-! SUPPORT. The named updates of the state, field by field: the one field an update writes, and every other field as it was. -/

namespace Sys2Proof.Machine

@[simp] theorem emit_pending (s o) : (emit s o).pending = s.pending := rfl
@[simp] theorem emit_now (s o) : (emit s o).now = s.now := rfl
@[simp] theorem emit_freeCtr (s o) : (emit s o).freeCtr = s.freeCtr := rfl
@[simp] theorem emit_glb (s o) : (emit s o).glb = s.glb := rfl
@[simp] theorem emit_regs (s o) : (emit s o).regs = s.regs := rfl
@[simp] theorem emit_nor (s o) : (emit s o).nor = s.nor := rfl
@[simp] theorem emit_cfg (s o) : (emit s o).cfg = s.cfg := rfl
@[simp] theorem emit_trs (s o) : (emit s o).trs = s.trs := rfl
@[simp] theorem emit_prt (s o) : (emit s o).prt = s.prt := rfl
@[simp] theorem emit_rdt (s o) : (emit s o).rdt = s.rdt := rfl
@[simp] theorem emit_cfe (s o) : (emit s o).cfe = s.cfe := rfl
@[simp] theorem emit_cat (s o) : (emit s o).cat = s.cat := rfl
@[simp] theorem emit_seq (s o) : (emit s o).seq = s.seq := rfl
@[simp] theorem emit_coc (s o) : (emit s o).coc = s.coc := rfl
@[simp] theorem emit_xfm (s o) : (emit s o).xfm = s.xfm := rfl
@[simp] theorem emit_fed (s o) : (emit s o).fed = s.fed := rfl
@[simp] theorem emit_swc (s o) : (emit s o).swc = s.swc := rfl
@[simp] theorem emit_sch (s o) : (emit s o).sch = s.sch := rfl
@[simp] theorem emit_spk (s o) : (emit s o).spk = s.spk := rfl
@[simp] theorem emit_bay (s o) : (emit s o).bay = s.bay := rfl
@[simp] theorem emit_tdm (s o) : (emit s o).tdm = s.tdm := rfl
@[simp] theorem emit_svc (s o) : (emit s o).svc = s.svc := rfl
@[simp] theorem emit_evr (s o) : (emit s o).evr = s.evr := rfl
@[simp] theorem emit_cyc (s o) : (emit s o).cyc = s.cyc := rfl
@[simp] theorem emit_ptb (s o) : (emit s o).ptb = s.ptb := rfl
@[simp] theorem emit_mem (s o) : (emit s o).mem = s.mem := rfl
@[simp] theorem emit_out (s o) : (emit s o).out = o :: s.out := rfl

@[simp] theorem rcAdd_pending (s a i n) : (rcAdd s a i n).pending = s.pending := rfl
@[simp] theorem rcAdd_out (s a i n) : (rcAdd s a i n).out = s.out := rfl
@[simp] theorem rcAdd_now (s a i n) : (rcAdd s a i n).now = s.now := rfl
@[simp] theorem rcAdd_freeCtr (s a i n) : (rcAdd s a i n).freeCtr = s.freeCtr := rfl
@[simp] theorem rcAdd_glb (s a i n) : (rcAdd s a i n).glb = s.glb := rfl
@[simp] theorem rcAdd_nor (s a i n) : (rcAdd s a i n).nor = s.nor := rfl
@[simp] theorem rcAdd_cfg (s a i n) : (rcAdd s a i n).cfg = s.cfg := rfl
@[simp] theorem rcAdd_trs (s a i n) : (rcAdd s a i n).trs = s.trs := rfl
@[simp] theorem rcAdd_prt (s a i n) : (rcAdd s a i n).prt = s.prt := rfl
@[simp] theorem rcAdd_rdt (s a i n) : (rcAdd s a i n).rdt = s.rdt := rfl
@[simp] theorem rcAdd_cfe (s a i n) : (rcAdd s a i n).cfe = s.cfe := rfl
@[simp] theorem rcAdd_cat (s a i n) : (rcAdd s a i n).cat = s.cat := rfl
@[simp] theorem rcAdd_seq (s a i n) : (rcAdd s a i n).seq = s.seq := rfl
@[simp] theorem rcAdd_coc (s a i n) : (rcAdd s a i n).coc = s.coc := rfl
@[simp] theorem rcAdd_xfm (s a i n) : (rcAdd s a i n).xfm = s.xfm := rfl
@[simp] theorem rcAdd_fed (s a i n) : (rcAdd s a i n).fed = s.fed := rfl
@[simp] theorem rcAdd_swc (s a i n) : (rcAdd s a i n).swc = s.swc := rfl
@[simp] theorem rcAdd_sch (s a i n) : (rcAdd s a i n).sch = s.sch := rfl
@[simp] theorem rcAdd_spk (s a i n) : (rcAdd s a i n).spk = s.spk := rfl
@[simp] theorem rcAdd_bay (s a i n) : (rcAdd s a i n).bay = s.bay := rfl
@[simp] theorem rcAdd_tdm (s a i n) : (rcAdd s a i n).tdm = s.tdm := rfl
@[simp] theorem rcAdd_svc (s a i n) : (rcAdd s a i n).svc = s.svc := rfl
@[simp] theorem rcAdd_evr (s a i n) : (rcAdd s a i n).evr = s.evr := rfl
@[simp] theorem rcAdd_cyc (s a i n) : (rcAdd s a i n).cyc = s.cyc := rfl
@[simp] theorem rcAdd_ptb (s a i n) : (rcAdd s a i n).ptb = s.ptb := rfl
@[simp] theorem rcAdd_mem (s a i n) : (rcAdd s a i n).mem = s.mem := rfl

@[simp] theorem setCtx_pending (s n c) : (setCtx s n c).pending = s.pending := rfl
@[simp] theorem setCtx_out (s n c) : (setCtx s n c).out = s.out := rfl
@[simp] theorem setCtx_now (s n c) : (setCtx s n c).now = s.now := rfl
@[simp] theorem setCtx_freeCtr (s n c) : (setCtx s n c).freeCtr = s.freeCtr := rfl
@[simp] theorem setCtx_glb (s n c) : (setCtx s n c).glb = s.glb := rfl
@[simp] theorem setCtx_regs (s n c) : (setCtx s n c).regs = s.regs := rfl
@[simp] theorem setCtx_nor (s n c) : (setCtx s n c).nor = s.nor := rfl
@[simp] theorem setCtx_cfg (s n c) : (setCtx s n c).cfg = s.cfg := rfl
@[simp] theorem setCtx_trs (s n c) : (setCtx s n c).trs = s.trs := rfl
@[simp] theorem setCtx_prt (s n c) : (setCtx s n c).prt = s.prt := rfl
@[simp] theorem setCtx_rdt (s n c) : (setCtx s n c).rdt = s.rdt := rfl
@[simp] theorem setCtx_cfe (s n c) : (setCtx s n c).cfe = s.cfe := rfl
@[simp] theorem setCtx_cat (s n c) : (setCtx s n c).cat = s.cat := rfl
@[simp] theorem setCtx_coc (s n c) : (setCtx s n c).coc = s.coc := rfl
@[simp] theorem setCtx_xfm (s n c) : (setCtx s n c).xfm = s.xfm := rfl
@[simp] theorem setCtx_fed (s n c) : (setCtx s n c).fed = s.fed := rfl
@[simp] theorem setCtx_swc (s n c) : (setCtx s n c).swc = s.swc := rfl
@[simp] theorem setCtx_sch (s n c) : (setCtx s n c).sch = s.sch := rfl
@[simp] theorem setCtx_spk (s n c) : (setCtx s n c).spk = s.spk := rfl
@[simp] theorem setCtx_bay (s n c) : (setCtx s n c).bay = s.bay := rfl
@[simp] theorem setCtx_tdm (s n c) : (setCtx s n c).tdm = s.tdm := rfl
@[simp] theorem setCtx_svc (s n c) : (setCtx s n c).svc = s.svc := rfl
@[simp] theorem setCtx_evr (s n c) : (setCtx s n c).evr = s.evr := rfl
@[simp] theorem setCtx_cyc (s n c) : (setCtx s n c).cyc = s.cyc := rfl
@[simp] theorem setCtx_ptb (s n c) : (setCtx s n c).ptb = s.ptb := rfl
@[simp] theorem setCtx_mem (s n c) : (setCtx s n c).mem = s.mem := rfl

@[simp] theorem setQp_pending (s q x) : (setQp s q x).pending = s.pending := rfl
@[simp] theorem setQp_out (s q x) : (setQp s q x).out = s.out := rfl
@[simp] theorem setQp_now (s q x) : (setQp s q x).now = s.now := rfl
@[simp] theorem setQp_freeCtr (s q x) : (setQp s q x).freeCtr = s.freeCtr := rfl
@[simp] theorem setQp_glb (s q x) : (setQp s q x).glb = s.glb := rfl
@[simp] theorem setQp_regs (s q x) : (setQp s q x).regs = s.regs := rfl
@[simp] theorem setQp_nor (s q x) : (setQp s q x).nor = s.nor := rfl
@[simp] theorem setQp_cfg (s q x) : (setQp s q x).cfg = s.cfg := rfl
@[simp] theorem setQp_trs (s q x) : (setQp s q x).trs = s.trs := rfl
@[simp] theorem setQp_prt (s q x) : (setQp s q x).prt = s.prt := rfl
@[simp] theorem setQp_cfe (s q x) : (setQp s q x).cfe = s.cfe := rfl
@[simp] theorem setQp_cat (s q x) : (setQp s q x).cat = s.cat := rfl
@[simp] theorem setQp_seq (s q x) : (setQp s q x).seq = s.seq := rfl
@[simp] theorem setQp_coc (s q x) : (setQp s q x).coc = s.coc := rfl
@[simp] theorem setQp_xfm (s q x) : (setQp s q x).xfm = s.xfm := rfl
@[simp] theorem setQp_fed (s q x) : (setQp s q x).fed = s.fed := rfl
@[simp] theorem setQp_swc (s q x) : (setQp s q x).swc = s.swc := rfl
@[simp] theorem setQp_sch (s q x) : (setQp s q x).sch = s.sch := rfl
@[simp] theorem setQp_spk (s q x) : (setQp s q x).spk = s.spk := rfl
@[simp] theorem setQp_bay (s q x) : (setQp s q x).bay = s.bay := rfl
@[simp] theorem setQp_tdm (s q x) : (setQp s q x).tdm = s.tdm := rfl
@[simp] theorem setQp_svc (s q x) : (setQp s q x).svc = s.svc := rfl
@[simp] theorem setQp_evr (s q x) : (setQp s q x).evr = s.evr := rfl
@[simp] theorem setQp_cyc (s q x) : (setQp s q x).cyc = s.cyc := rfl
@[simp] theorem setQp_ptb (s q x) : (setQp s q x).ptb = s.ptb := rfl
@[simp] theorem setQp_mem (s q x) : (setQp s q x).mem = s.mem := rfl

@[simp] theorem setAssoc_pending (s a x) : (setAssoc s a x).pending = s.pending := rfl
@[simp] theorem setAssoc_out (s a x) : (setAssoc s a x).out = s.out := rfl
@[simp] theorem setAssoc_now (s a x) : (setAssoc s a x).now = s.now := rfl
@[simp] theorem setAssoc_freeCtr (s a x) : (setAssoc s a x).freeCtr = s.freeCtr := rfl
@[simp] theorem setAssoc_glb (s a x) : (setAssoc s a x).glb = s.glb := rfl
@[simp] theorem setAssoc_regs (s a x) : (setAssoc s a x).regs = s.regs := rfl
@[simp] theorem setAssoc_nor (s a x) : (setAssoc s a x).nor = s.nor := rfl
@[simp] theorem setAssoc_cfg (s a x) : (setAssoc s a x).cfg = s.cfg := rfl
@[simp] theorem setAssoc_trs (s a x) : (setAssoc s a x).trs = s.trs := rfl
@[simp] theorem setAssoc_prt (s a x) : (setAssoc s a x).prt = s.prt := rfl
@[simp] theorem setAssoc_rdt (s a x) : (setAssoc s a x).rdt = s.rdt := rfl
@[simp] theorem setAssoc_cat (s a x) : (setAssoc s a x).cat = s.cat := rfl
@[simp] theorem setAssoc_seq (s a x) : (setAssoc s a x).seq = s.seq := rfl
@[simp] theorem setAssoc_coc (s a x) : (setAssoc s a x).coc = s.coc := rfl
@[simp] theorem setAssoc_xfm (s a x) : (setAssoc s a x).xfm = s.xfm := rfl
@[simp] theorem setAssoc_fed (s a x) : (setAssoc s a x).fed = s.fed := rfl
@[simp] theorem setAssoc_swc (s a x) : (setAssoc s a x).swc = s.swc := rfl
@[simp] theorem setAssoc_sch (s a x) : (setAssoc s a x).sch = s.sch := rfl
@[simp] theorem setAssoc_spk (s a x) : (setAssoc s a x).spk = s.spk := rfl
@[simp] theorem setAssoc_bay (s a x) : (setAssoc s a x).bay = s.bay := rfl
@[simp] theorem setAssoc_tdm (s a x) : (setAssoc s a x).tdm = s.tdm := rfl
@[simp] theorem setAssoc_svc (s a x) : (setAssoc s a x).svc = s.svc := rfl
@[simp] theorem setAssoc_evr (s a x) : (setAssoc s a x).evr = s.evr := rfl
@[simp] theorem setAssoc_cyc (s a x) : (setAssoc s a x).cyc = s.cyc := rfl
@[simp] theorem setAssoc_ptb (s a x) : (setAssoc s a x).ptb = s.ptb := rfl
@[simp] theorem setAssoc_mem (s a x) : (setAssoc s a x).mem = s.mem := rfl

@[simp] theorem setTq_pending (s k x) : (setTq s k x).pending = s.pending := rfl
@[simp] theorem setTq_out (s k x) : (setTq s k x).out = s.out := rfl
@[simp] theorem setTq_now (s k x) : (setTq s k x).now = s.now := rfl
@[simp] theorem setTq_freeCtr (s k x) : (setTq s k x).freeCtr = s.freeCtr := rfl
@[simp] theorem setTq_glb (s k x) : (setTq s k x).glb = s.glb := rfl
@[simp] theorem setTq_regs (s k x) : (setTq s k x).regs = s.regs := rfl
@[simp] theorem setTq_nor (s k x) : (setTq s k x).nor = s.nor := rfl
@[simp] theorem setTq_cfg (s k x) : (setTq s k x).cfg = s.cfg := rfl
@[simp] theorem setTq_trs (s k x) : (setTq s k x).trs = s.trs := rfl
@[simp] theorem setTq_prt (s k x) : (setTq s k x).prt = s.prt := rfl
@[simp] theorem setTq_rdt (s k x) : (setTq s k x).rdt = s.rdt := rfl
@[simp] theorem setTq_cat (s k x) : (setTq s k x).cat = s.cat := rfl
@[simp] theorem setTq_seq (s k x) : (setTq s k x).seq = s.seq := rfl
@[simp] theorem setTq_coc (s k x) : (setTq s k x).coc = s.coc := rfl
@[simp] theorem setTq_xfm (s k x) : (setTq s k x).xfm = s.xfm := rfl
@[simp] theorem setTq_fed (s k x) : (setTq s k x).fed = s.fed := rfl
@[simp] theorem setTq_swc (s k x) : (setTq s k x).swc = s.swc := rfl
@[simp] theorem setTq_sch (s k x) : (setTq s k x).sch = s.sch := rfl
@[simp] theorem setTq_spk (s k x) : (setTq s k x).spk = s.spk := rfl
@[simp] theorem setTq_bay (s k x) : (setTq s k x).bay = s.bay := rfl
@[simp] theorem setTq_tdm (s k x) : (setTq s k x).tdm = s.tdm := rfl
@[simp] theorem setTq_svc (s k x) : (setTq s k x).svc = s.svc := rfl
@[simp] theorem setTq_evr (s k x) : (setTq s k x).evr = s.evr := rfl
@[simp] theorem setTq_cyc (s k x) : (setTq s k x).cyc = s.cyc := rfl
@[simp] theorem setTq_ptb (s k x) : (setTq s k x).ptb = s.ptb := rfl
@[simp] theorem setTq_mem (s k x) : (setTq s k x).mem = s.mem := rfl

@[simp] theorem setSpk_pending (s b x) : (setSpk s b x).pending = s.pending := rfl
@[simp] theorem setSpk_out (s b x) : (setSpk s b x).out = s.out := rfl
@[simp] theorem setSpk_now (s b x) : (setSpk s b x).now = s.now := rfl
@[simp] theorem setSpk_freeCtr (s b x) : (setSpk s b x).freeCtr = s.freeCtr := rfl
@[simp] theorem setSpk_glb (s b x) : (setSpk s b x).glb = s.glb := rfl
@[simp] theorem setSpk_regs (s b x) : (setSpk s b x).regs = s.regs := rfl
@[simp] theorem setSpk_nor (s b x) : (setSpk s b x).nor = s.nor := rfl
@[simp] theorem setSpk_cfg (s b x) : (setSpk s b x).cfg = s.cfg := rfl
@[simp] theorem setSpk_trs (s b x) : (setSpk s b x).trs = s.trs := rfl
@[simp] theorem setSpk_prt (s b x) : (setSpk s b x).prt = s.prt := rfl
@[simp] theorem setSpk_rdt (s b x) : (setSpk s b x).rdt = s.rdt := rfl
@[simp] theorem setSpk_cfe (s b x) : (setSpk s b x).cfe = s.cfe := rfl
@[simp] theorem setSpk_cat (s b x) : (setSpk s b x).cat = s.cat := rfl
@[simp] theorem setSpk_seq (s b x) : (setSpk s b x).seq = s.seq := rfl
@[simp] theorem setSpk_coc (s b x) : (setSpk s b x).coc = s.coc := rfl
@[simp] theorem setSpk_xfm (s b x) : (setSpk s b x).xfm = s.xfm := rfl
@[simp] theorem setSpk_fed (s b x) : (setSpk s b x).fed = s.fed := rfl
@[simp] theorem setSpk_swc (s b x) : (setSpk s b x).swc = s.swc := rfl
@[simp] theorem setSpk_sch (s b x) : (setSpk s b x).sch = s.sch := rfl
@[simp] theorem setSpk_bay (s b x) : (setSpk s b x).bay = s.bay := rfl
@[simp] theorem setSpk_tdm (s b x) : (setSpk s b x).tdm = s.tdm := rfl
@[simp] theorem setSpk_svc (s b x) : (setSpk s b x).svc = s.svc := rfl
@[simp] theorem setSpk_evr (s b x) : (setSpk s b x).evr = s.evr := rfl
@[simp] theorem setSpk_cyc (s b x) : (setSpk s b x).cyc = s.cyc := rfl
@[simp] theorem setSpk_ptb (s b x) : (setSpk s b x).ptb = s.ptb := rfl
@[simp] theorem setSpk_mem (s b x) : (setSpk s b x).mem = s.mem := rfl

@[simp] theorem setChan_pending (s b x) : (setChan s b x).pending = s.pending := rfl
@[simp] theorem setChan_out (s b x) : (setChan s b x).out = s.out := rfl
@[simp] theorem setChan_now (s b x) : (setChan s b x).now = s.now := rfl
@[simp] theorem setChan_freeCtr (s b x) : (setChan s b x).freeCtr = s.freeCtr := rfl
@[simp] theorem setChan_glb (s b x) : (setChan s b x).glb = s.glb := rfl
@[simp] theorem setChan_regs (s b x) : (setChan s b x).regs = s.regs := rfl
@[simp] theorem setChan_nor (s b x) : (setChan s b x).nor = s.nor := rfl
@[simp] theorem setChan_cfg (s b x) : (setChan s b x).cfg = s.cfg := rfl
@[simp] theorem setChan_trs (s b x) : (setChan s b x).trs = s.trs := rfl
@[simp] theorem setChan_prt (s b x) : (setChan s b x).prt = s.prt := rfl
@[simp] theorem setChan_rdt (s b x) : (setChan s b x).rdt = s.rdt := rfl
@[simp] theorem setChan_cfe (s b x) : (setChan s b x).cfe = s.cfe := rfl
@[simp] theorem setChan_cat (s b x) : (setChan s b x).cat = s.cat := rfl
@[simp] theorem setChan_seq (s b x) : (setChan s b x).seq = s.seq := rfl
@[simp] theorem setChan_coc (s b x) : (setChan s b x).coc = s.coc := rfl
@[simp] theorem setChan_xfm (s b x) : (setChan s b x).xfm = s.xfm := rfl
@[simp] theorem setChan_fed (s b x) : (setChan s b x).fed = s.fed := rfl
@[simp] theorem setChan_swc (s b x) : (setChan s b x).swc = s.swc := rfl
@[simp] theorem setChan_sch (s b x) : (setChan s b x).sch = s.sch := rfl
@[simp] theorem setChan_spk (s b x) : (setChan s b x).spk = s.spk := rfl
@[simp] theorem setChan_tdm (s b x) : (setChan s b x).tdm = s.tdm := rfl
@[simp] theorem setChan_svc (s b x) : (setChan s b x).svc = s.svc := rfl
@[simp] theorem setChan_evr (s b x) : (setChan s b x).evr = s.evr := rfl
@[simp] theorem setChan_cyc (s b x) : (setChan s b x).cyc = s.cyc := rfl
@[simp] theorem setChan_ptb (s b x) : (setChan s b x).ptb = s.ptb := rfl
@[simp] theorem setChan_mem (s b x) : (setChan s b x).mem = s.mem := rfl

@[simp] theorem setOwn_pending (s p x) : (setOwn s p x).pending = s.pending := rfl
@[simp] theorem setOwn_out (s p x) : (setOwn s p x).out = s.out := rfl
@[simp] theorem setOwn_now (s p x) : (setOwn s p x).now = s.now := rfl
@[simp] theorem setOwn_freeCtr (s p x) : (setOwn s p x).freeCtr = s.freeCtr := rfl
@[simp] theorem setOwn_glb (s p x) : (setOwn s p x).glb = s.glb := rfl
@[simp] theorem setOwn_regs (s p x) : (setOwn s p x).regs = s.regs := rfl
@[simp] theorem setOwn_nor (s p x) : (setOwn s p x).nor = s.nor := rfl
@[simp] theorem setOwn_cfg (s p x) : (setOwn s p x).cfg = s.cfg := rfl
@[simp] theorem setOwn_trs (s p x) : (setOwn s p x).trs = s.trs := rfl
@[simp] theorem setOwn_prt (s p x) : (setOwn s p x).prt = s.prt := rfl
@[simp] theorem setOwn_rdt (s p x) : (setOwn s p x).rdt = s.rdt := rfl
@[simp] theorem setOwn_cfe (s p x) : (setOwn s p x).cfe = s.cfe := rfl
@[simp] theorem setOwn_cat (s p x) : (setOwn s p x).cat = s.cat := rfl
@[simp] theorem setOwn_seq (s p x) : (setOwn s p x).seq = s.seq := rfl
@[simp] theorem setOwn_xfm (s p x) : (setOwn s p x).xfm = s.xfm := rfl
@[simp] theorem setOwn_fed (s p x) : (setOwn s p x).fed = s.fed := rfl
@[simp] theorem setOwn_swc (s p x) : (setOwn s p x).swc = s.swc := rfl
@[simp] theorem setOwn_sch (s p x) : (setOwn s p x).sch = s.sch := rfl
@[simp] theorem setOwn_spk (s p x) : (setOwn s p x).spk = s.spk := rfl
@[simp] theorem setOwn_bay (s p x) : (setOwn s p x).bay = s.bay := rfl
@[simp] theorem setOwn_tdm (s p x) : (setOwn s p x).tdm = s.tdm := rfl
@[simp] theorem setOwn_svc (s p x) : (setOwn s p x).svc = s.svc := rfl
@[simp] theorem setOwn_evr (s p x) : (setOwn s p x).evr = s.evr := rfl
@[simp] theorem setOwn_cyc (s p x) : (setOwn s p x).cyc = s.cyc := rfl
@[simp] theorem setOwn_ptb (s p x) : (setOwn s p x).ptb = s.ptb := rfl
@[simp] theorem setOwn_mem (s p x) : (setOwn s p x).mem = s.mem := rfl

@[simp] theorem setSub_pending (s n x) : (setSub s n x).pending = s.pending := rfl
@[simp] theorem setSub_out (s n x) : (setSub s n x).out = s.out := rfl
@[simp] theorem setSub_now (s n x) : (setSub s n x).now = s.now := rfl
@[simp] theorem setSub_freeCtr (s n x) : (setSub s n x).freeCtr = s.freeCtr := rfl
@[simp] theorem setSub_glb (s n x) : (setSub s n x).glb = s.glb := rfl
@[simp] theorem setSub_regs (s n x) : (setSub s n x).regs = s.regs := rfl
@[simp] theorem setSub_nor (s n x) : (setSub s n x).nor = s.nor := rfl
@[simp] theorem setSub_cfg (s n x) : (setSub s n x).cfg = s.cfg := rfl
@[simp] theorem setSub_trs (s n x) : (setSub s n x).trs = s.trs := rfl
@[simp] theorem setSub_rdt (s n x) : (setSub s n x).rdt = s.rdt := rfl
@[simp] theorem setSub_cfe (s n x) : (setSub s n x).cfe = s.cfe := rfl
@[simp] theorem setSub_cat (s n x) : (setSub s n x).cat = s.cat := rfl
@[simp] theorem setSub_seq (s n x) : (setSub s n x).seq = s.seq := rfl
@[simp] theorem setSub_coc (s n x) : (setSub s n x).coc = s.coc := rfl
@[simp] theorem setSub_xfm (s n x) : (setSub s n x).xfm = s.xfm := rfl
@[simp] theorem setSub_fed (s n x) : (setSub s n x).fed = s.fed := rfl
@[simp] theorem setSub_swc (s n x) : (setSub s n x).swc = s.swc := rfl
@[simp] theorem setSub_sch (s n x) : (setSub s n x).sch = s.sch := rfl
@[simp] theorem setSub_spk (s n x) : (setSub s n x).spk = s.spk := rfl
@[simp] theorem setSub_bay (s n x) : (setSub s n x).bay = s.bay := rfl
@[simp] theorem setSub_tdm (s n x) : (setSub s n x).tdm = s.tdm := rfl
@[simp] theorem setSub_svc (s n x) : (setSub s n x).svc = s.svc := rfl
@[simp] theorem setSub_evr (s n x) : (setSub s n x).evr = s.evr := rfl
@[simp] theorem setSub_cyc (s n x) : (setSub s n x).cyc = s.cyc := rfl
@[simp] theorem setSub_ptb (s n x) : (setSub s n x).ptb = s.ptb := rfl
@[simp] theorem setSub_mem (s n x) : (setSub s n x).mem = s.mem := rfl

@[simp] theorem setFn_pending (s n x) : (setFn s n x).pending = s.pending := rfl
@[simp] theorem setFn_out (s n x) : (setFn s n x).out = s.out := rfl
@[simp] theorem setFn_now (s n x) : (setFn s n x).now = s.now := rfl
@[simp] theorem setFn_freeCtr (s n x) : (setFn s n x).freeCtr = s.freeCtr := rfl
@[simp] theorem setFn_glb (s n x) : (setFn s n x).glb = s.glb := rfl
@[simp] theorem setFn_regs (s n x) : (setFn s n x).regs = s.regs := rfl
@[simp] theorem setFn_nor (s n x) : (setFn s n x).nor = s.nor := rfl
@[simp] theorem setFn_cfg (s n x) : (setFn s n x).cfg = s.cfg := rfl
@[simp] theorem setFn_trs (s n x) : (setFn s n x).trs = s.trs := rfl
@[simp] theorem setFn_prt (s n x) : (setFn s n x).prt = s.prt := rfl
@[simp] theorem setFn_rdt (s n x) : (setFn s n x).rdt = s.rdt := rfl
@[simp] theorem setFn_cfe (s n x) : (setFn s n x).cfe = s.cfe := rfl
@[simp] theorem setFn_cat (s n x) : (setFn s n x).cat = s.cat := rfl
@[simp] theorem setFn_seq (s n x) : (setFn s n x).seq = s.seq := rfl
@[simp] theorem setFn_coc (s n x) : (setFn s n x).coc = s.coc := rfl
@[simp] theorem setFn_xfm (s n x) : (setFn s n x).xfm = s.xfm := rfl
@[simp] theorem setFn_fed (s n x) : (setFn s n x).fed = s.fed := rfl
@[simp] theorem setFn_swc (s n x) : (setFn s n x).swc = s.swc := rfl
@[simp] theorem setFn_sch (s n x) : (setFn s n x).sch = s.sch := rfl
@[simp] theorem setFn_spk (s n x) : (setFn s n x).spk = s.spk := rfl
@[simp] theorem setFn_bay (s n x) : (setFn s n x).bay = s.bay := rfl
@[simp] theorem setFn_tdm (s n x) : (setFn s n x).tdm = s.tdm := rfl
@[simp] theorem setFn_evr (s n x) : (setFn s n x).evr = s.evr := rfl
@[simp] theorem setFn_cyc (s n x) : (setFn s n x).cyc = s.cyc := rfl
@[simp] theorem setFn_ptb (s n x) : (setFn s n x).ptb = s.ptb := rfl
@[simp] theorem setFn_mem (s n x) : (setFn s n x).mem = s.mem := rfl

@[simp] theorem setRt_pending (s v x) : (setRt s v x).pending = s.pending := rfl
@[simp] theorem setRt_out (s v x) : (setRt s v x).out = s.out := rfl
@[simp] theorem setRt_now (s v x) : (setRt s v x).now = s.now := rfl
@[simp] theorem setRt_freeCtr (s v x) : (setRt s v x).freeCtr = s.freeCtr := rfl
@[simp] theorem setRt_glb (s v x) : (setRt s v x).glb = s.glb := rfl
@[simp] theorem setRt_regs (s v x) : (setRt s v x).regs = s.regs := rfl
@[simp] theorem setRt_nor (s v x) : (setRt s v x).nor = s.nor := rfl
@[simp] theorem setRt_cfg (s v x) : (setRt s v x).cfg = s.cfg := rfl
@[simp] theorem setRt_trs (s v x) : (setRt s v x).trs = s.trs := rfl
@[simp] theorem setRt_prt (s v x) : (setRt s v x).prt = s.prt := rfl
@[simp] theorem setRt_rdt (s v x) : (setRt s v x).rdt = s.rdt := rfl
@[simp] theorem setRt_cat (s v x) : (setRt s v x).cat = s.cat := rfl
@[simp] theorem setRt_seq (s v x) : (setRt s v x).seq = s.seq := rfl
@[simp] theorem setRt_coc (s v x) : (setRt s v x).coc = s.coc := rfl
@[simp] theorem setRt_xfm (s v x) : (setRt s v x).xfm = s.xfm := rfl
@[simp] theorem setRt_fed (s v x) : (setRt s v x).fed = s.fed := rfl
@[simp] theorem setRt_swc (s v x) : (setRt s v x).swc = s.swc := rfl
@[simp] theorem setRt_sch (s v x) : (setRt s v x).sch = s.sch := rfl
@[simp] theorem setRt_spk (s v x) : (setRt s v x).spk = s.spk := rfl
@[simp] theorem setRt_bay (s v x) : (setRt s v x).bay = s.bay := rfl
@[simp] theorem setRt_tdm (s v x) : (setRt s v x).tdm = s.tdm := rfl
@[simp] theorem setRt_svc (s v x) : (setRt s v x).svc = s.svc := rfl
@[simp] theorem setRt_evr (s v x) : (setRt s v x).evr = s.evr := rfl
@[simp] theorem setRt_cyc (s v x) : (setRt s v x).cyc = s.cyc := rfl
@[simp] theorem setRt_ptb (s v x) : (setRt s v x).ptb = s.ptb := rfl
@[simp] theorem setRt_mem (s v x) : (setRt s v x).mem = s.mem := rfl

@[simp] theorem setInj_pending (s i x) : (setInj s i x).pending = s.pending := rfl
@[simp] theorem setInj_out (s i x) : (setInj s i x).out = s.out := rfl
@[simp] theorem setInj_now (s i x) : (setInj s i x).now = s.now := rfl
@[simp] theorem setInj_freeCtr (s i x) : (setInj s i x).freeCtr = s.freeCtr := rfl
@[simp] theorem setInj_glb (s i x) : (setInj s i x).glb = s.glb := rfl
@[simp] theorem setInj_regs (s i x) : (setInj s i x).regs = s.regs := rfl
@[simp] theorem setInj_nor (s i x) : (setInj s i x).nor = s.nor := rfl
@[simp] theorem setInj_cfg (s i x) : (setInj s i x).cfg = s.cfg := rfl
@[simp] theorem setInj_trs (s i x) : (setInj s i x).trs = s.trs := rfl
@[simp] theorem setInj_prt (s i x) : (setInj s i x).prt = s.prt := rfl
@[simp] theorem setInj_rdt (s i x) : (setInj s i x).rdt = s.rdt := rfl
@[simp] theorem setInj_cfe (s i x) : (setInj s i x).cfe = s.cfe := rfl
@[simp] theorem setInj_cat (s i x) : (setInj s i x).cat = s.cat := rfl
@[simp] theorem setInj_seq (s i x) : (setInj s i x).seq = s.seq := rfl
@[simp] theorem setInj_coc (s i x) : (setInj s i x).coc = s.coc := rfl
@[simp] theorem setInj_xfm (s i x) : (setInj s i x).xfm = s.xfm := rfl
@[simp] theorem setInj_fed (s i x) : (setInj s i x).fed = s.fed := rfl
@[simp] theorem setInj_swc (s i x) : (setInj s i x).swc = s.swc := rfl
@[simp] theorem setInj_sch (s i x) : (setInj s i x).sch = s.sch := rfl
@[simp] theorem setInj_spk (s i x) : (setInj s i x).spk = s.spk := rfl
@[simp] theorem setInj_bay (s i x) : (setInj s i x).bay = s.bay := rfl
@[simp] theorem setInj_tdm (s i x) : (setInj s i x).tdm = s.tdm := rfl
@[simp] theorem setInj_svc (s i x) : (setInj s i x).svc = s.svc := rfl
@[simp] theorem setInj_evr (s i x) : (setInj s i x).evr = s.evr := rfl
@[simp] theorem setInj_cyc (s i x) : (setInj s i x).cyc = s.cyc := rfl
@[simp] theorem setInj_mem (s i x) : (setInj s i x).mem = s.mem := rfl

@[simp] theorem setReq_pending (s n) : (setReq s n).pending = s.pending := rfl
@[simp] theorem setReq_out (s n) : (setReq s n).out = s.out := rfl
@[simp] theorem setReq_now (s n) : (setReq s n).now = s.now := rfl
@[simp] theorem setReq_freeCtr (s n) : (setReq s n).freeCtr = s.freeCtr := rfl
@[simp] theorem setReq_regs (s n) : (setReq s n).regs = s.regs := rfl
@[simp] theorem setReq_nor (s n) : (setReq s n).nor = s.nor := rfl
@[simp] theorem setReq_cfg (s n) : (setReq s n).cfg = s.cfg := rfl
@[simp] theorem setReq_trs (s n) : (setReq s n).trs = s.trs := rfl
@[simp] theorem setReq_prt (s n) : (setReq s n).prt = s.prt := rfl
@[simp] theorem setReq_rdt (s n) : (setReq s n).rdt = s.rdt := rfl
@[simp] theorem setReq_cfe (s n) : (setReq s n).cfe = s.cfe := rfl
@[simp] theorem setReq_cat (s n) : (setReq s n).cat = s.cat := rfl
@[simp] theorem setReq_seq (s n) : (setReq s n).seq = s.seq := rfl
@[simp] theorem setReq_coc (s n) : (setReq s n).coc = s.coc := rfl
@[simp] theorem setReq_xfm (s n) : (setReq s n).xfm = s.xfm := rfl
@[simp] theorem setReq_fed (s n) : (setReq s n).fed = s.fed := rfl
@[simp] theorem setReq_swc (s n) : (setReq s n).swc = s.swc := rfl
@[simp] theorem setReq_sch (s n) : (setReq s n).sch = s.sch := rfl
@[simp] theorem setReq_spk (s n) : (setReq s n).spk = s.spk := rfl
@[simp] theorem setReq_bay (s n) : (setReq s n).bay = s.bay := rfl
@[simp] theorem setReq_tdm (s n) : (setReq s n).tdm = s.tdm := rfl
@[simp] theorem setReq_svc (s n) : (setReq s n).svc = s.svc := rfl
@[simp] theorem setReq_evr (s n) : (setReq s n).evr = s.evr := rfl
@[simp] theorem setReq_cyc (s n) : (setReq s n).cyc = s.cyc := rfl
@[simp] theorem setReq_ptb (s n) : (setReq s n).ptb = s.ptb := rfl
@[simp] theorem setReq_mem (s n) : (setReq s n).mem = s.mem := rfl

/-- A value that is not the default is read back where it was written. -/
theorem tget_tput_new {α : Type} [DecidableEq α] {d v : α} (t : Tbl α) (k : Nat) (h : v ≠ d) : tget (tput t d k v) d k = v := by
  unfold tput
  rw [if_neg h]
  induction t with
  | nil => simp [tins, tget]
  | cons x r ih =>
    obtain ⟨i, w⟩ := x
    unfold tins
    split
    · simp [tget]
    · split
      · simp [tget]
      · unfold tget
        rw [if_neg ‹_›]
        exact ih

/-- A context that is written is the context that is read. -/
@[simp] theorem ctxOf_setCtx (s : State) (n : Nat) (c : Ctx) : ctxOf (setCtx s n (some c)) n = some c :=
  tget_tput_new (d := none) (v := some c) s.seq.ctxs n (by simp)

end Sys2Proof.Machine
end

