-- ==== Sys2Proof/Laws/Registers.lean ====
section
/-! SUPPORT. Which part of the register file a register access reaches, for an offset that is a variable: a proof about one register
instantiates these and never evaluates the index on a literal offset. -/

namespace Sys2Proof.Machine

/-- A write of four aligned bytes inside the register space reaches the register. -/
theorem writeAt_ok {a : Access} (s : State) (v hw : Nat) (m : Moment) (h : accessOk a = true) :
    writeAt s a v hw m = regWrite s a.path a.off v hw m := by
  unfold writeAt
  rw [if_pos h]

/-- Four aligned bytes inside the register space. -/
theorem accessOk_word (p : Path) (off : Nat) (h : off % 4 = 0) (h2 : off < 1048576) : accessOk ⟨p, off, 4⟩ = true := by
  unfold accessOk
  simp [h, h2]

/-- A write of four aligned bytes. -/
theorem writeAt_word {off : Nat} (s : State) (p : Path) (v hw : Nat) (m : Moment) (h : off % 4 = 0)
    (h2 : off < 1048576) : writeAt s ⟨p, off, 4⟩ v hw m = regWrite s p off v hw m := writeAt_ok s v hw m (accessOk_word p off h h2)

/-- Any other write is a bad access. -/
theorem writeAt_bad {a : Access} (s : State) (v hw : Nat) (m : Moment) (h : accessOk a = false) :
    writeAt s a v hw m = badAccess s a := by
  unfold writeAt
  rw [h]
  rfl

/-- A read of four aligned bytes inside the register space is answered, but in Held. -/
theorem readAt_ok {a : Access} (s : State) (inc : Nat) (h : accessOk a = true) (hm : s.glb.mode ≠ .held) :
    readAt s a inc = answerRead s (regRead s a.path a.off false inc) := by
  unfold readAt
  rw [if_pos h, if_neg hm]

/-- Where registers are not written, a write does nothing. -/
theorem regWrite_ignored {s : State} (p : Path) (off v hw : Nat) (m : Moment) (h : regsWritable s = false) :
    regWrite s p off v hw m = s := by
  unfold regWrite
  rw [h]
  rfl

/-- A write of a select register. -/
theorem regWrite_select {s : State} {off : Nat} (p : Path) (v hw : Nat) (m : Moment) (h : regsWritable s = true) (h1 : isSelect off = true) :
    regWrite s p off v hw m = selWrite s off v := by
  unfold regWrite
  rw [h, h1]
  rfl

/-- A write of a `_HI` register. -/
theorem regWrite_hi {s : State} {off : Nat} (p : Path) (v hw : Nat) (m : Moment) (h : regsWritable s = true) (h1 : isSelect off = false)
    (h2 : hiRegs.contains off = true) : regWrite s p off v hw m = holdHi s p off v := by
  unfold regWrite
  rw [h, h1, h2]
  rfl

/-- A write of a `_LO` register. -/
theorem regWrite_lo {s : State} {off : Nat} (p : Path) (v hw : Nat) (m : Moment) (h : regsWritable s = true) (h1 : isSelect off = false)
    (h2 : hiRegs.contains off = false) (h3 : loWrites.contains off = true) : regWrite s p off v hw m = loWrite s p off v := by
  unfold regWrite
  rw [h, h1, h2, h3]
  rfl

/-- A write of another register of the GBL, TRS and PRT blocks. -/
theorem regWrite_low {s : State} {off : Nat} (p : Path) (v hw : Nat) (m : Moment) (h : regsWritable s = true) (h1 : isSelect off = false)
    (h2 : hiRegs.contains off = false) (h3 : loWrites.contains off = false) (h4 : off < 0x30000) :
    regWrite s p off v hw m = regWriteLow s off v hw m := by
  unfold regWrite
  rw [h, h1, h2, h3, if_pos h4]
  rfl

/-- A write of another register of the other blocks. -/
theorem regWrite_high {s : State} {off : Nat} (p : Path) (v hw : Nat) (m : Moment) (h : regsWritable s = true) (h1 : isSelect off = false)
    (h2 : hiRegs.contains off = false) (h3 : loWrites.contains off = false) (h4 : ¬off < 0x30000) :
    regWrite s p off v hw m = regWriteHigh s off v hw := by
  unfold regWrite
  rw [h, h1, h2, h3, if_neg h4]
  rfl

/-- A write of a select register other than SCH_SAMPLE_ADDR takes a value in range and ignores any other. -/
theorem selWrite_plain {off v : Nat} (s : State) (h : off ≠ 0x50040) :
    selWrite s off v = if selAccepts s off v = true then rwPut s off 0 v else s := by
  unfold selWrite
  rw [if_neg h]
  by_cases e : selAccepts s off v = true
  · rw [if_pos e, e]
    rfl
  · rw [if_neg e, Bool.eq_false_iff.mpr e]
    rfl

/-- A `_HI` value that is held is taken once. -/
theorem takeHi_held {s : State} {p : Path} {hi v : Nat} (now : Nat) (h : tget s.regs.held none (pathKey hi p) = some v) :
    takeHi s p hi now = (v, { s with regs := { s.regs with held := tput s.regs.held none (pathKey hi p) none } }) := by
  unfold takeHi
  rw [h]

/-- Without a held `_HI` value, the half in effect stands. -/
theorem takeHi_none {s : State} {p : Path} {hi : Nat} (now : Nat) (h : tget s.regs.held none (pathKey hi p) = none) :
    takeHi s p hi now = (now, s) := by
  unfold takeHi
  rw [h]

/-- A plain read of a register that is neither an RC counter nor one whose read acts, on a path that holds no snapshot of it. -/
theorem regRead_plain {s : State} {p : Path} {off : Nat} (inc : Nat) (h : off ∉ [0x30214, 0x18100, 0x80108, 0x70060, 0xF0024])
    (h1 : isRc off = false) (h2 : tget s.regs.snap none (pathKey off p) = none) (h3 : freeReg off = false) :
    regRead s p off false inc = (viewReg s off % 2 ^ 32, takeSnaps s p off (instOf s off) false) := by
  simp only [List.mem_cons, List.not_mem_nil, or_false, not_or] at h
  unfold regRead
  dsimp only
  split
  · omega
  · omega
  · omega
  · omega
  · omega
  · simp only [h1, shownSnap, h2, h3]
    rfl

/-- A read of an RC counter answers it and clears it. -/
theorem regRead_rc {s : State} {p : Path} {off : Nat} (atomic : Bool) (inc : Nat) (h : off ∉ [0x30214, 0x18100, 0x80108, 0x70060, 0xF0024])
    (h1 : isRc off = true) : regRead s p off atomic inc = (rcValue s off, rcClear s off inc) := by
  simp only [List.mem_cons, List.not_mem_nil, or_false, not_or] at h
  unfold regRead
  dsimp only
  split
  · omega
  · omega
  · omega
  · omega
  · omega
  · simp only [h1]
    rfl

end Sys2Proof.Machine
end

