-- ==== Sys2Proof/Laws/Resets.lean ====
section
/-! SUPPORT. What a reset does, said once for each of its operations. -/

namespace Sys2Proof.Machine

/-- The end of a staging session, and what it leaves of the parts that `keep` names. -/
theorem keep_abandonSession (s) : keep (abandonSession s) = { keep s with
    flash := if s.nor.session.isNone then s.nor.flash else eraseSlot s.nor.flash (otherSlot s) } := by
  unfold abandonSession
  split
  · rfl
  · rw [keep_writeEvent]; rfl

/-- The lines are released after an open session has ended. -/
theorem keep_quitted (s n) : keep (releaseBoth (abandonSession s) n) = { keep s with
    flash := if s.nor.session.isNone then s.nor.flash else eraseSlot s.nor.flash (otherSlot s) } :=
  (keep_releaseBoth _ n).trans (keep_abandonSession s)

theorem resetScope_resetLogic (s w m c) : ResetScope s (resetLogic (releaseBoth (abandonSession s) 3) w m c) := by
  have h := keep_quitted s 3
  have e1 := congrArg Keep.pending h
  have e2 := congrArg Keep.svn h
  have e3 := congrArg Keep.lock h
  have e4 := congrArg Keep.flash h
  refine ⟨e1, rfl, rfl, rfl, rfl, e2, e3, e4, rfl, rfl, rfl, rfl, rfl, rfl, rfl, rfl, rfl, ?_, ?_, rfl⟩ <;> cases w <;> rfl

theorem resetScope_toHeld (s) : ResetScope s (toHeld s) := resetScope_resetLogic s _ _ _

/-- The scope of a reset depends on the parts named in it alone. -/
theorem resetScope_trs {s t u : State} (h : ResetScope s t) (e : u = { t with freeCtr := u.freeCtr, trs := { t.trs with nonce := u.trs.nonce } }) :
    ResetScope s u := by
  rw [e]; exact h

theorem startsUp_internalReset (s w c m) : StartsUp s (internalReset s w c m) c m := by
  have h := fun k => resetScope_resetLogic s w k c
  unfold internalReset startUp
  generalize releaseBoth (abandonSession s) 3 = x at h ⊢
  split
  · rename_i hl
    dsimp only
    split
    · rename_i h1
      refine ⟨resetScope_trs (h .boot) rfl, rfl, fun _ => ⟨rfl, rfl, ?_⟩, fun g => absurd hl g⟩
      rw [h1]; rfl
    · rename_i h1
      refine ⟨?_, by rw [cured_glb]; rfl, fun _ => ⟨by rw [cured_glb]; rfl, by rw [cured_glb]; rfl, ?_⟩, fun g => absurd hl g⟩
      · have g := resetScope_trs (h .boot) (u := bootBegin (resetLogic x w .boot c)) rfl
        unfold ResetScope grpOf at g ⊢
        simpa using g
      · rw [cured_glb]; exact (by simpa using h1)
  · rename_i hl
    exact ⟨h .held, rfl, fun g => absurd g hl, fun _ => rfl⟩

/-- The pins' latches are no part of what a reset is said to do. -/
theorem startsUp_pins {s t : State} {c : Nat} {m : Moment} (h : StartsUp s t c m) (a b : Bool) :
    StartsUp s { t with glb := { t.glb with pwrfail := a, refclkLost := b } } c m := h

end Sys2Proof.Machine
end

