-- ==== Sys2Proof/Laws/Steps.lean ====
section
/-! SUPPORT. What every sequencer step does before its own effect. -/

namespace Sys2Proof.Machine

/-- What a step of a context that holds a thread does, in the words of `stepHere`. -/
theorem runStep_thread {s : State} {n : Nat} {c : Ctx} (opc : Nat) (w : StepW) (h1 : ctxOf s n = some c) (h2 : onThread c = true)
    (f : Ctx → State → State) : runStep s n opc w f =
      if !stepHere s c opc w || !dataRuns s then s
      else if stepLimit s ≤ c.steps && c.cmd.isSome then listFault (rcAdd s 0x70010 0 1) n c
      else f (advanced c) (ticked s c n) := by
  unfold runStep stepHere
  simp only [h1]
  split
  · cases hs : stepAt s c.list c.step <;> rfl
  · rename_i hr
    unfold onThread at h2
    split at h2
    · rename_i t ht; exact absurd ht (hr t)
    · cases h2

/-- A step that may run now acts on its context, moved on by one step, in the state that has counted it. -/
theorem runStep_at {s : State} {n : Nat} {c : Ctx} {opc : Nat} {w : StepW} (h : AtStep s n c opc w) (f : Ctx → State → State) :
    runStep s n opc w f = f (advanced c) (ticked s c n) := by
  obtain ⟨h1, h2, h3, h4, h5⟩ := h
  rw [runStep_thread opc w h1 h2, h3, h4, if_neg (by simp), if_neg]
  simp only [Bool.and_eq_true, decide_eq_true_eq, not_and]
  intro h6
  rcases h5 with h5 | h5
  · omega
  · simp [h5]

/-- A step whose context does not hold a thread, or that is not at its place, does nothing. -/
theorem runStep_away {s : State} {n : Nat} {c : Ctx} {opc : Nat} {w : StepW} (h1 : ctxOf s n = some c)
    (h2 : onThread c = false ∨ stepHere s c opc w = false ∨ dataRuns s = false) (f : Ctx → State → State) :
    runStep s n opc w f = s := by
  by_cases h3 : onThread c = true
  · rw [runStep_thread opc w h1 h3, if_pos]
    rcases h2 with h2 | h2 | h2
    · simp [h3] at h2
    · simp [h2]
    · simp [h2]
  · unfold runStep
    simp only [h1]
    split
    · rename_i t hr; exact absurd (by unfold onThread; rw [hr]) h3
    · rfl

/-- A step of a context that does not exist does nothing. -/
theorem runStep_none {s : State} {n : Nat} {opc : Nat} {w : StepW} (h : ctxOf s n = none) (f : Ctx → State → State) :
    runStep s n opc w f = s := by
  unfold runStep; rw [h]

/-- A context at its step limit ends with a list fault, counted. -/
theorem runStep_limit {s : State} {n : Nat} {c : Ctx} {opc : Nat} {w : StepW} (h1 : ctxOf s n = some c) (h2 : onThread c = true)
    (h3 : stepHere s c opc w = true) (h4 : dataRuns s = true) (h5 : stepLimit s ≤ c.steps) (h6 : c.cmd.isSome = true)
    (f : Ctx → State → State) : runStep s n opc w f = listFault (rcAdd s 0x70010 0 1) n c := by
  rw [runStep_thread opc w h1 h2, h3, h4, if_neg (by simp), if_pos (by simp [h5, h6])]

end Sys2Proof.Machine
end

