-- ==== Sys2Proof/Tests/Slice0.lean ====
section
/-! SUPPORT. Small states, tests from the spec's worked examples, ill-formed commands for the checks of WellFormed, and for each
statement with premises a named state and operands that meet them, part by part. -/

set_option linter.unusedVariables false

namespace Sys2Proof.Tests
open Sys2Proof.Machine

/-- A state in a mode, everything else as at reset. -/
def st (m : Mode) : State := { glb := { mode := m } }

/-- Boot at a step. -/
def bt (n : Nat) : State := { glb := { mode := .boot, bootStep := n } }

/-! The bring-up image of chapter 03, as the table there writes it out. -/

def image0 : List Byte :=
  [0x4C, 0x59, 0x49, 0x4D, 0x01, 0x00, 0x40, 0x00, 0x40, 0x0E, 0x00, 0x00, 0x07, 0x00, 0x00, 0x00,
   0x03, 0x00, 0x04, 0x00, 0x40, 0x00, 0x00, 0x00, 0x00, 0x01, 0x00, 0x00, 0xC0, 0xA1, 0x00, 0x64,
   0x02, 0x00, 0x00, 0x00, 0x01, 0x00, 0x04, 0x00, 0x00, 0x00, 0x23, 0x01, 0x00, 0x00, 0x00, 0x00,
   0x00, 0x00, 0x00, 0x00, 0x00, 0x00, 0x00, 0x00, 0x00, 0x00, 0x00, 0x00, 0x00, 0x00, 0x00, 0x00]
def image1 : List Byte :=
  [0x01, 0x00, 0x00, 0x00, 0x80, 0x00, 0x00, 0x00, 0x20, 0x00, 0x00, 0x00, 0x00, 0x00, 0x00, 0x00,
   0x02, 0x00, 0x00, 0x00, 0xA0, 0x00, 0x00, 0x00, 0x20, 0x00, 0x00, 0x00, 0x00, 0x00, 0x00, 0x00,
   0x03, 0x00, 0x00, 0x00, 0xC0, 0x00, 0x00, 0x00, 0x20, 0x00, 0x00, 0x00, 0x00, 0x00, 0x00, 0x00,
   0x04, 0x00, 0x00, 0x00, 0xE0, 0x00, 0x00, 0x00, 0x20, 0x00, 0x00, 0x00, 0x00, 0x00, 0x00, 0x00]
def image2 : List Byte :=
  [0xE8, 0x03, 0x00, 0x00, 0x78, 0x00, 0x00, 0x00, 0x05, 0x00, 0x00, 0x00, 0x64, 0x00, 0x00, 0x00,
   0x00, 0x19, 0x0F, 0x00, 0x08, 0x08, 0x08, 0x08, 0x00, 0x00, 0x00, 0x00, 0x00, 0x00, 0x00, 0x00,
   0x01, 0x00, 0x03, 0x00, 0x71, 0x00, 0x00, 0x00, 0x00, 0x00, 0x00, 0x00, 0x00, 0x00, 0x00, 0x00,
   0x01, 0x00, 0x04, 0x00, 0x70, 0x00, 0x00, 0x00, 0x0A, 0x00, 0x00, 0x00, 0x00, 0x00, 0x00, 0x00]
def image3 : List Byte :=
  [0x00, 0x01, 0x0F, 0x00, 0x00, 0x00, 0x00, 0x00, 0x00, 0x40, 0x00, 0x00, 0x00, 0x00, 0x00, 0x00,
   0x01, 0x02, 0x30, 0x00, 0x00, 0x40, 0x00, 0x00, 0x00, 0x40, 0x00, 0x00, 0x00, 0x00, 0x00, 0x00,
   0x00, 0x00, 0x00, 0x00, 0x00, 0x00, 0x00, 0x00, 0x00, 0x40, 0x00, 0x00, 0x00, 0x00, 0x00, 0x00,
   0x01, 0x00, 0x00, 0x00, 0x00, 0x00, 0x00, 0x00, 0x00, 0x40, 0x00, 0x00, 0x00, 0x00, 0x00, 0x00]
def image4 : List Byte :=
  [0x40, 0x0D, 0x00, 0x00, 0x40, 0x00, 0xED, 0x0C, 0x00, 0x00, 0x00, 0x00, 0x00, 0x00, 0x00, 0x00]
/-- The bring-up image of chapter 03, its signature bytes and pad as zeros (the verdicts are operands). -/
def bringUp : List Byte := image0 ++ image1 ++ image2 ++ image3 ++ image4 ++ List.replicate 3376 0

/-- Standby in which step 9 is due: bay 0 in group 0, the cocoon scanned, the line released. -/
def step9St : State := { glb := { mode := .standby, step9 := true }, cfg := { valid := true, romFw := false, sections := [(0x0E, 0, [1] ++ List.replicate 23 0)] }, coc := { up := true, formatted := true, scanned := true }, tdm := { grp0 := { claimed := true } } }

/-- Bytes as the cells of a memory. -/
def cells : List Byte → Nat → List Host.Cell
  | [], _ => []
  | b :: r, n => (n, b) :: cells r (n + 1)

/-- Boot at step 4 with the bring-up image in slot A (signatures and pad left erased) and the owner key of slot 0 enrolled. -/
def withImage : State := { glb := { mode := .boot, bootStep := 4 }, trs := { owner := [(0, { enrolled := true, keysOk := true })] }, nor := {
  flash := cells (image0 ++ image1 ++ image2 ++ image3 ++ image4) 0, sizeA := some 67108864, sizeB := some 67108864, hdrA := true } }

/-- Boot at step 5 with the sections of the bring-up image. -/
def withConfig : State := { glb := { mode := .boot, bootStep := 5 }, cfg := { valid := true, header := image0, sections := [
  (1, 128, image2.take 32), (2, 160, image2.drop 32), (3, 192, image3.take 32), (4, 224, image3.drop 32)] } }

/-- Active, with the whole bring-up image staged into slot B by PF0. -/
def staged_ : State := { st .active with trs := { owner := [(0, { enrolled := true, keysOk := true })] }, nor := {
  flash := cells (image1 ++ image2 ++ image3 ++ image4) (2 ^ 26 + 64), sizeB := some 67108864,
  session := some { owner := .pf0, header := image0, last := 0 } } }

/-- Drain (activation) on a formatted cocoon, a committed image in slot B. -/
def swapSt : State := { glb := { mode := .drain, drainReason := .activation }, coc := { formatted := true }, nor := { committed := true } }

/-- Section 6 with port 0 in mode 3, priority 3 under PFC and the rest zeros. -/
def pbody : List Byte := [3, 0, 8, 0] ++ List.replicate 12 0

/-- Active with port 0 in its four-way mode and priority 3 under PFC. -/
def withPorts : State := { st .active with cfg := { valid := true, sections := [(6, 0, pbody)] } }

/-- A good RoCE frame for sub-port 3. -/
def rfr : EthFrame := { sub := 3, len := 64, fecBad := 0, fcsOk := true, dst := 0xFFFFFFFFFFFF, ety := 0x0800, macOp := 0, pfc := [], sec := none, tags := [], ety2 := 0x0800, ipOk := true, dstIp := 1, dscp := 0, l4 := .roce false }

/-- Active, with one frame of one cell in the ingress queue of sub-port 3, priority 5. -/
def withFrame : State := { st .active with swc := { shared := 524287, ing := [(29, { frames := [⟨1, false, 0⟩] })] } }

/-- `withFrame` once that frame is taken. -/
def popped : State := ((ingPop withFrame 3 5).getD (0, {})).2

/-- A queue pair in RTS with one short message to send. -/
def sendSt : State := { rdt := { qps := [(65535, { state := .rts, window := 8, sendq := [{ len := 16, cpl := true }] })] } }

/-- `withFrame` with the context of queue pair 4 in the cache. -/
def withFrameQ : State := { withFrame with rdt := { cache := [4] } }

/-- Active, with association 1 of a host. -/
def hostSt : State := { st .active with cfe := { assocs := [(1, some {})] } }

theorem findSome_range {α : Type} (f : Nat → Option α) (n : Nat) (x : α) (h : f 0 = some x) : (List.range (n + 1)).findSome? f = some x := by
  rw [List.range_succ_eq_map]; simp [h]

/-- The record of an association with one I/O queue. -/
def ioAssoc : Assoc := { vss := 1, ioqs := [{ qid := 1, qp := 9, size := 16, auth := false }] }

/-- Virtual subsystem 1 with quotas, and its namespace 1. -/
def oneVss : Catalog := { vss := [(1, some { state := .active, slots := 8, cocMib := 8, tqQuota := 4, quantum := 4 })], ns := [(5, some { vss := 1, nsid := 1, attached := true, nsze := 64 })] }

/-- Active, with a tenant, its namespace 1, group 0 open, and an association with one I/O queue. -/
def ioSt : State := { st .active with cfe := { assocs := [(1, some ioAssoc)] }, cat := oneVss, tdm := { grp0 := { owned := true, open_ := true } } }

/-- `ioSt`, with a capsule's first packet executed on the I/O queue. -/
def ioMsgSt : State := { ioSt with rdt := { qps := [(9, { state := .rts, assoc := some 1, inMsgs := [{ psn := 0, send := true, whole := true }] })] } }

/-- The bytes 24 and on of a VDQ descriptor: rings of 16 entries, no push slots. -/
def vdqRings : List Byte := List.replicate 24 0 ++ [4, 4, 0, 0]

/-- A VDQ descriptor on queue pair 9, queue index 2. -/
def vdqDesc (s : State) : List Byte := [0, 0, 0, 0, 0, 0, 0, 0, 0, 0, 0, 0, 0, 0, 0, 0, 0, 0, 0, 0, 0, 0, 0, 0, 4, 4, 0, 0, 0, 0, 0, 0, 9, 0, BitVec.ofNat 8 (qpnGen s 9), 2, 0, 0, 0, 0, 0, 0, 0, 0, 0, 0, 0, 0, 0, 0, 0, 0, 0, 0, 0, 0, 0, 0, 0, 0, 0, 0, 0, 0]

/-- Active, with association 1 of tenant 1 and its VDQ queue pair 9. -/
def vdqSt0 : State := { ioSt with cfe := { assocs := [(1, some { vss := 1 })] }, rdt := { qps := [(9, { state := .rts, kind := 1, assoc := some 1 })] } }

/-- `vdqSt0` with an active queue of index 2. -/
def vdqSt : State := { vdqSt0 with cfe := { assocs := [(1, some { vss := 1 })], tqs := [(146, { state := .active, vss := 1, assoc := 1, desc := vdqRings })] } }

/-- `vdqSt` with a whole doorbell message of 64 + 4,096 bytes, with its immediate, on the queue pair. -/
def bellSt : State := { vdqSt with rdt := { qps := [(9, { state := .rts, kind := 1, assoc := some 1, inMsgs := [{ psn := 0, send := false, len := 4160, imm := some (2 ^ 27), whole := true }] })] } }

/-- A submission queue entry of 64 bytes: a read of 4 KiB of namespace 1. -/
def readEntry : List Byte := [2, 0, 0, 0, 1] ++ List.replicate 28 0 ++ [16] ++ List.replicate 30 0

/-- `vdqSt` with two entries in the ring and its tenant in the round-robin. -/
def fetchSt : State := { vdqSt with sch := { active := [(0, [1])] }, cfe := { tqs := [(146, { state := .active, vss := 1, assoc := 1, tail := 2, desc := vdqRings })] } }

theorem gen_lt (s : State) (n : Nat) : 0 < qpnGen s n ∧ qpnGen s n < 256 := by unfold qpnGen; omega

theorem vdqDesc_word (s : State) : leAt (vdqDesc s) 32 4 = 9 + 2 ^ 16 * qpnGen s 9 + 2 ^ 24 * 2 := by
  have h := gen_lt s 9
  show (9 : Nat) + 256 * (0 + 256 * ((BitVec.ofNat 8 (qpnGen s 9)).toNat + 256 * (2 + 256 * 0))) = _
  rw [BitVec.toNat_ofNat, Nat.mod_eq_of_lt (by omega)]; omega

theorem vdqDesc_good (s : State) : vdqDescBad (vdqDesc s) = false := by
  have g := gen_lt s 9
  unfold vdqDescBad
  simp only [vdqDesc_word, show (9 + 2 ^ 16 * qpnGen s 9 + 2 ^ 24 * 2) / 2 ^ 28 = 0 by omega]
  simp [vdqDesc, leAt, leNat]

theorem vdqQp_nine (s : State) (h : qpOf s 9 = { state := .rts, kind := 1, assoc := some 1 }) :
    vdqQp s (9 + 2 ^ 16 * qpnGen s 9 + 2 ^ 24 * 2) = some 9 := by
  have g := gen_lt s 9
  unfold vdqQp
  simp only [show (9 + 2 ^ 16 * qpnGen s 9 + 2 ^ 24 * 2) % 65536 = 9 by omega, h, localQpn]
  rw [show (9 + 2 ^ 16 * qpnGen s 9 + 2 ^ 24 * 2) % 2 ^ 24 = 65536 * qpnGen s 9 + 9 by omega]; simp

theorem vdqNamed_nine (s : State) (h : (tqOf s 146).state = .active) :
    vdqNamed s (9 + 2 ^ 16 * qpnGen s 9 + 2 ^ 24 * 2) = some 146 := by
  have g := gen_lt s 9
  unfold vdqNamed
  rw [show field (9 + 2 ^ 16 * qpnGen s 9 + 2 ^ 24 * 2) 24 4 = 2 by unfold field; simp [Nat.shiftRight_eq_div_pow]; omega]
  simp only [show (9 + 2 ^ 16 * qpnGen s 9 + 2 ^ 24 * 2) % 65536 = 9 by omega, localQpn]
  rw [show (9 + 2 ^ 16 * qpnGen s 9 + 2 ^ 24 * 2) % 2 ^ 24 = 65536 * qpnGen s 9 + 9 by omega]; simp [h]

/-- Active, with one anchor, number 0 with all three roles, in section 0x12. -/
def anchorSt : State := { st .active with cfg := { valid := true, sections := [(0x12, 0, [0, 7] ++ List.replicate 1998 0)] } }

/-- The 32 bytes of a share: subsystem 1, 16 slots, 16 MiB, quantum 256, no shaping, one association. -/
def shareDesc : List Byte := [1, 0, 0, 0, 16, 0, 0, 0, 16, 0, 0, 0, 0, 1, 0, 0, 0, 0, 0, 0, 0, 0, 0, 0, 1, 0, 0, 0, 0, 0, 0, 0]

/-- One profile of one data strip and no parity, and bay 0 in group 0. -/
def nsCfg : Cfg := { valid := true, sections := [(0x0B, 0, [1] ++ List.replicate 15 0 ++ [1, 0, 0, 0]), (0x0E, 0, [1] ++ List.replicate 23 0)] }

/-- Active as `ioSt`, with no namespace, one profile of one data strip and room on bay 0. -/
def nsSt : State := { ioSt with cat := { vss := oneVss.vss }, cfg := nsCfg, spk := { spokes := [(0, { state := .ready, present := true, ioq := 1, blocks := 344064 })] } }

/-- The descriptor of a namespace of one block, NSID 7, in subsystem 1 and group 0. -/
def nsDescB : List Byte := [1, 0, 7, 0, 0, 0, 0, 0, 1] ++ List.replicate 119 0

/-- The record that descriptor makes. -/
def nsNew : NsRec := { vss := 1, nsid := 7, nsze := 1, chunks := 1 }

theorem tqNamed_nine (s : State) (h : (tqOf s 146).state = .active) :
    tqNamed s (9 + 2 ^ 16 * qpnGen s 9 + 2 ^ 24 * 2) = some 146 := by
  have g := gen_lt s 9
  unfold tqNamed
  rw [show field (9 + 2 ^ 16 * qpnGen s 9 + 2 ^ 24 * 2) 24 4 = 2 by unfold field; simp [Nat.shiftRight_eq_div_pow]; omega]
  simp only [show (9 + 2 ^ 16 * qpnGen s 9 + 2 ^ 24 * 2) % 65536 = 9 by omega, localQpn]
  rw [show (9 + 2 ^ 16 * qpnGen s 9 + 2 ^ 24 * 2) % 2 ^ 24 = 65536 * qpnGen s 9 + 9 by omega]; simp [h]

/-- A context on a thread, at step 0 of list 0. -/
def thr : Ctx := { run := .thread 0 }

/-- The same, running a command of tenant 1 on namespace 5. -/
def cmdThr : Ctx := { run := .thread 0, vss := 1, ns := 5, cmd := some { c := ⟨.ioq 1 1, 0⟩ } }

/-- As `ioSt`, with context 0 as given and one step in list 0. -/
def seqSt (c : Ctx) (opc : Nat) (w : StepW) : State := { ioSt with seq := { ctxs := [(0, some c)], lists := [(0, 1)], steps := [⟨opc, w⟩] } }

/-- `cmdThr` at a CSTAGE, with counters reserved for its namespace. -/
def stageSt : State := { seqSt cmdThr 0x31 {} with coc := { runs := [(5, { next := 5, limit := 1000 })] } }

/-- `stageSt` once it has taken one counter. -/
def stageU : State := (takeCtrs (ticked stageSt cmdThr 0) 5 1).2

/-- `stageU` once it has staged that block, and its page. -/
def stageV : State × List Nat := (stagePages stageU 1 [(writeRec (ticked stageSt cmdThr 0) { vss := 1, nsid := 1, attached := true, nsze := 64 } 5 0 1 0 5 false {}, {})]).getD ({}, [])

/-- `cmdThr` at a CREAD of one block, which page 3 holds. -/
def readSt : State := { seqSt { cmdThr with regs := [(1, 1)] } 0x33 {} with coc := { own := [(3, { st := .committed, rc := some { ns := 5, len := 1 } })] } }

/-- Active, with the tandem link up. -/
def mirSt : State := { st .active with tdm := { linkUp := true } }

/-- Active: bays 0 and 1 in group 0, which is owned; bay 1 is a spare with a ready drive, and chunk 7 stands on the absent bay 0. -/
def rbSt : State := { ioSt with cfg := { valid := true, sections := [(0x0E, 0, [3] ++ List.replicate 15 0 ++ [2] ++ List.replicate 7 0)] }, xfm := { map := [(7, some ⟨4, 0, { valid := true, k := 1, stripes := 4096, ns := 5, mem := [{}] }, []⟩)] }, spk := { spokes := [(1, { state := .ready, present := true, ioq := 1, blocks := 344064 })] } }

/-- `rbSt` with a write-back of chunk 7, stripe 0, row 0 running in context 3. -/
def wbSt : State := { rbSt with seq := { ctxs := [(3, some { op := some (.writeback 7 0 0) })] } }

/-- `ioSt` with a rotated key of namespace 5, its first pass running at the one chunk. -/
def keySt : State := { ioSt with cat := { oneVss with keys := [(5, { epoch := 2, cur := some 9, prev := some (1, 8) })] } }

/-- Section 0x0C of federation 7, shelf 1, and bays 0 and 1 in group 0. -/
def fedCfg : Cfg := { valid := true, sections := [(0x0C, 0, [7, 0, 0, 0, 1] ++ List.replicate 59 0), (0x0E, 0, [3] ++ List.replicate 23 0)] }

/-- Active as `ioSt` in that federation: Porpor queue pair 20 to the controller 6 (shelf 3, side 0) in RTS with four slots, and a lease
hosted in entry 11 for that shelf's entry 4, on the ready bay 1. -/
def fedSt : State := { ioSt with cfg := fedCfg, rdt := { qps := [(20, { state := .rts, kind := 2, member := 6, peerSlots := 4 })] }, fed := { areaOk := 3, place := [(11, some ⟨1, 0, { valid := true, hosted := true, k := 2, m := 1, chunks := 1, stripes := 2048, origin := 6, oent := 4, slots := [{ shelf := 1, bay := 1 }] }, []⟩)] }, spk := { spokes := [(1, { state := .ready, present := true, ioq := 1, blocks := 344064 })] } }

/-- A request of that controller for that lease's first strip. -/
def fedMsg : PorporMsg := { fedId := 7, origin := 6, entry := 4, rows := 1, lba := 262144, params := [2, 1, 1, 2048], repSlot := 2, tag := 5 }

/-- `s` with a whole Porpor message delivered on queue pair 20, its immediate of operation `op`. -/
def fedGot (s : State) (op : Nat) : State := { s with rdt := { s.rdt with qps := [(20, { state := .rts, kind := 2, member := 6, peerSlots := 4, inMsgs := [{ psn := 0, send := false, imm := some (2 ^ 28 * op + 2), whole := true }] })] } }

/-- The state in which that message is taken. -/
def fedTook (s : State) (op : Nat) : State := (porporTake (fedGot s op) 20 op).getD {}

/-- The bytes of `fedMsg` as a message of type `typ` that carries no row. -/
def fedIn (typ : Nat) : PorporIn := { head := (headBytes typ { fedMsg with rows := 0 }).map (BitVec.ofNat 8 ·) }

/-- The bytes of the answer of type `typ` to the request with TAG 8 in slot 2, with no row. -/
def fedRep (typ : Nat) : PorporIn := { head := (headBytes typ { fedMsg with rows := 0, reqSlot := 2, tag := 8, params := [0, 0] }).map (BitVec.ofNat 8 ·) }

/-- A read request of this controller, sent in slot 2 of queue pair 20, with TAG 8. -/
def fedFrag : Frag := { tag := 8, typ := 2, ctx := none, entry := 4, member := 0, shelf := 3, side := 0, tried := [], refused := 0, qp := 20, slot := 2, chunk := 7, stripe := 0, lba := 262144, rows := 1, sent := true }

/-- `fedSt` with that request unanswered. -/
def fragSt : State := { fedSt with fed := { fedSt.fed with frags := [fedFrag] } }

/-- An origin lease under entry 4, over shelves 1, 3 and 5. -/
def fedPlace : PlaceEnt := { valid := true, k := 2, m := 1, chunks := 1, stripes := 2048, origin := 2, oent := 4, slots := [{ shelf := 1, bay := 1 }, { shelf := 3 }, { shelf := 5 }] }

/-- `fedSt` with that lease. -/
def leaseSt : State := { fedSt with fed := { fedSt.fed with place := [(4, some ⟨9, 0, fedPlace, []⟩)] } }

/-- The member entry of shelf 3, state 1, IPv4, addresses zero, with its CRC. -/
def memberB : List Byte := [3, 0, 1] ++ List.replicate 57 0 ++ [40, 55, 178, 113]

/-- A bucket of the de-rail table that stands on sub-port 1, away from its initial member 0. -/
def bktEnt : VEnt Bucket := ⟨1, 0, ⟨1, 0⟩, []⟩

/-- Active, with that entry in force for the last bucket. -/
def bktSt : State := { st .active with swc := { derail := [(4095, some bktEnt)] } }

/-- Active: bays 0 and 1 in group 0, which is owned, the frame scanned, and spoke 1 as given. -/
def spkSt (p : Spoke) : State := { ioSt with cfg := fedCfg, spk := { scanning := true, spokes := [(1, p)] } }

/-- A ready spoke with a drive. -/
def rdySpk : Spoke := { state := .ready, present := true, ioq := 1, blocks := 344064 }

/-- `spkSt` with the bay's channel and group 0's feed as given. -/
def baySt (p : Spoke) (c : Channel) (f : Feed) : State := { spkSt p with bay := { chans := [(1, c)], feed0 := f } }

/-- `spkSt` of a pair of controllers (section 0x10 present), the tandem link up, the cocoon scanned, and group 0 as given. -/
def lineSt (x : Grp) : State := { spkSt rdySpk with cfg := { valid := true, sections := fedCfg.sections ++ [(0x10, 0, List.replicate 64 0)] }, tdm := { grp0 := x, linkUp := true }, coc := { up := true, formatted := true, scanned := true } }

/-- A commit record of page 3, group 0. -/
def pageRec : CommitRec := { ns := 5, len := 1, seq := 9 }

/-- `lineSt` with a committed page 3 that waits for its echo. -/
def echoSt : State := { lineSt { owned := true, pair := .paired } with coc := { up := true, formatted := true, scanned := true, own := [(3, { st := .committed, unmir := true, rc := some pageRec })] } }

/-- A cadence frame with tick 7. -/
def tickF : FrameItems := { tick := 7, mode := 3, owned := 0, seq0 := 0, seq1 := 0, catGen := 0, releases := [], unmirrored := [], latched := [], retries := [], repairs := [], addrs := [], awaiting := [], orphans := 0, endings := [] }

/-- Active, with function 0 of the service port as given. -/
def svcSt (f : SvcFn) : State := { st .active with svc := { fns := [(0, f)] } }

/-- Active, with the test bench available and injector 2 as given. -/
def ptbSt (j : Injector) : State := { st .active with ptb := { available := true, injs := [(2, j)] } }

/-- `st .active` with region 1 of the DRAM as given. -/
def memSt (x : Region) : State := { st .active with mem := { regions := [(1, x)] } }

--HELPERS--

/-- What a drive tells about itself, with that many bytes of names. -/
def anIdent (n : Nat) : Ident := ⟨true, 0x10400, 0, true, 0, 12, 64, 0, 0, 0, 0, 0, 344064, 1, List.replicate n 0⟩

/-! ### Well-formed commands: one ill-formed term for each check -/

theorem test_wf_instances :
    (Instr.linkTrainTimeout 32).wf = false ∧ (Instr.linkTrainTimeout 31).wf = true
    ∧ (Instr.pfcPauseExpiry 0 8).wf = false ∧ (Instr.pfcPauseExpiry 31 7).wf = true
    ∧ (Instr.macsecRxSaInstall 8 0 0 0 1).wf = false ∧ (Instr.macsecRxSaInstall 0 0 4 0 1).wf = false
    ∧ (Instr.macsecRxSaInstall 0 0 0 4 1).wf = false ∧ (Instr.macsecRxSaInstall 7 31 3 3 1).wf = true
    ∧ (Instr.linkUpTimeout 64).wf = false ∧ (Instr.linkUpTimeout 63).wf = true
    ∧ (Instr.mirrorResetReceive 2).wf = false ∧ (Instr.mirrorResetReceive 1).wf = true
    ∧ (Instr.bmeClear 66 {}).wf = false ∧ (Instr.bmeClear 65 {}).wf = true
    ∧ (Instr.tableSlotRetry 5).wf = false ∧ (Instr.tableSlotRetry 4).wf = true
    ∧ (Instr.bucketReturn 4096).wf = false ∧ (Instr.bucketReturn 4095).wf = true
    ∧ (Instr.vdqFetchResponse 0 16 0 []).wf = false ∧ (Instr.vdqFetchResponse 0 15 0 []).wf = true := by decide

theorem test_wf_tables :
    (Instr.admissionReopen 4096).wf = false ∧ (Instr.admissionReopen 4095).wf = true
    ∧ (Instr.sanitizeChunkErased 1 4194304 none).wf = false ∧ (Instr.sanitizeChunkErased 1 4194303 none).wf = true
    ∧ (Instr.rebuildDelayExpiry 576).wf = false ∧ (Instr.rebuildDelayExpiry 575).wf = true
    ∧ (Instr.tandemLinkUp false 1 512 15).wf = false ∧ (Instr.tandemLinkUp false 1 511 15).wf = true
    ∧ (Instr.mirrorLineReceive 1048576 {}).wf = false ∧ (Instr.mirrorLineReceive 1048575 {}).wf = true
    ∧ (Instr.echoTimeout (.ctx 131072)).wf = false ∧ (Instr.echoTimeout (.ctx 131071)).wf = true
    ∧ (Instr.echoTimeout (.remirror 2)).wf = false ∧ (Instr.echoTimeout (.remirror 1)).wf = true
    ∧ (Instr.authTimeout 65602 0).wf = false ∧ (Instr.authTimeout 65601 0).wf = true
    ∧ (Instr.nop 131072 {}).wf = false ∧ (Instr.nop 131071 {}).wf = true
    ∧ (Instr.instarBumpDeferred (.spoke 64)).wf = false ∧ (Instr.instarBumpDeferred (.tq 1048575)).wf = true := by decide

theorem test_wf_widths :
    (Instr.challenge .pf0 0 256 0).wf = false ∧ (Instr.challenge .pf0 0 255 0).wf = true
    ∧ (Instr.cmRtu 65536).wf = false ∧ (Instr.cmRtu 65535).wf = true
    ∧ (Instr.readClearCounter ⟨.bar0, 12, 4⟩ 4294967296).wf = false ∧ (Instr.readClearCounter ⟨.bar0, 12, 4⟩ 4294967295).wf = true
    ∧ (Instr.counterReserveEcho 0 281474976710656).wf = false ∧ (Instr.counterReserveEcho 0 281474976710655).wf = true
    ∧ (Instr.propertySet ⟨.assoc 1, 0⟩ 20 18446744073709551616).wf = false
    ∧ (Instr.propertySet ⟨.assoc 1, 0⟩ 20 18446744073709551615).wf = true
    ∧ (Instr.dramScrubLine 0 0 .clean 101).wf = false ∧ (Instr.dramScrubLine 15 0 .clean 100).wf = true
    ∧ (Instr.cocoonScrubLine 8589934592 .clean).wf = false ∧ (Instr.cocoonScrubLine 8589934591 .clean).wf = true := by decide

theorem test_wf_parts :
    (Instr.getVersion (.mctp 256)).wf = false ∧ (Instr.getVersion (.fn 66)).wf = false ∧ (Instr.getVersion (.tq 1048576)).wf = false
    ∧ (Instr.getVersion (.mctp 255)).wf = true
    ∧ (Instr.imageSlotInfo ⟨.pf0, 65536⟩).wf = false ∧ (Instr.imageSlotInfo ⟨.pf0, 65535⟩).wf = true
    ∧ (Instr.loRegisterRead ⟨.bar0, 1048576, 4⟩).wf = false ∧ (Instr.loRegisterRead ⟨.bar0, 0, 0⟩).wf = false
    ∧ (Instr.loRegisterRead ⟨.bar0, 1048575, 4⟩).wf = true
    ∧ (Instr.nvmRead { c := ⟨.ioq 1 1, 0⟩, nsid := 4294967296 }).wf = false ∧ (Instr.nvmRead { c := ⟨.ioq 1 1, 0⟩ }).wf = true
    ∧ (Instr.nop 0 ⟨256, 0, 0, 0, 0, 0⟩).wf = false
    ∧ (Instr.rocePacketReceive 0 0 { psn := 16777216 }).wf = false ∧ (Instr.rocePacketReceive 0 0 { psn := 16777215 }).wf = true
    ∧ (Instr.cmReq ⟨32, 0, 0, 0, 0, 0, 0, 0, 0, 0, 0⟩).wf = false ∧ (Instr.cmReq ⟨31, 0, 0, 0, 0, 0, 0, 0, 0, 0, 0⟩).wf = true
    ∧ (Instr.fabricsConnect 0 0 ⟨[], [], 0, 31, 4294967296, 0⟩).wf = false ∧ (Instr.fabricsConnect 0 0 ⟨[], [], 0, 31, 0, 0⟩).wf = true
    ∧ (Instr.spdmExchange ⟨.pf0, 0⟩ 0 (.other 256)).wf = false ∧ (Instr.spdmExchange ⟨.pf0, 0⟩ 0 (.other 255)).wf = true
    ∧ (Instr.ackTimeout 0 16777216).wf = false ∧ (Instr.ackTimeout 0 16777215).wf = true
    ∧ (Instr.driveDmaRequest 0 0 (.buffer 65536)).wf = false ∧ (Instr.driveDmaRequest 0 0 (.buffer 65535)).wf = true := by decide

set_option maxRecDepth 4000 in
theorem test_wf_wires :
    (Instr.stripWrite 0 0 { head := List.replicate 127 0 }).wf = false ∧ (Instr.stripWrite 0 0 { head := List.replicate 128 0 }).wf = true
    ∧ (Instr.vdqFetchResponse 0 0 0 [List.replicate 63 0]).wf = false ∧ (Instr.vdqFetchResponse 0 0 0 [List.replicate 64 0]).wf = true
    ∧ (Instr.pushDoorbell 0 0 (List.replicate 65 0) [] []).wf = false ∧ (Instr.pushDoorbell 0 0 (List.replicate 64 0) [] []).wf = true
    ∧ (Instr.driveCompletion 0 0 0 (.ident (anIdent 75))).wf = false ∧ (Instr.driveCompletion 0 0 0 (.ident (anIdent 76))).wf = true := by decide

/-! ### The spec's worked examples -/

/-- Chapter 11: namespace block 1,000,083 of a 20 + 4 profile lies in chunk 15, stripe 53, position 5, row 3, on member 10; the parity
of that stripe lies on members 1 to 4; a chunk has 205 stripes. -/
theorem test_stripe_example :
    stripesOf 20 = 205 ∧ placeOf 0 20 1000083 = { chunk := 15, stripe := 53, pos := 5, row := 3 } ∧ memberAt 20 4 53 5 = 10
    ∧ (List.range 4).map (fun i => memberAt 20 4 53 (20 + i)) = [1, 2, 3, 4] ∧ posOfMember 20 4 53 10 = 5 := by decide

/-- Chapter 12: a 12 + 3 lease has 342 stripes to a chunk. -/
theorem test_lease_example : stripesOf 12 = 342 := by decide

/-- Chapter 11: key slot 7 in epoch 2 with counter 0x1234_5678 uses the nonce 07 00 02 00 00 00 78 56 34 12 00 00. -/
theorem test_nonce_example : leBytes 12 (nonceOf 7 2 0x12345678) = [7, 0, 2, 0, 0, 0, 0x78, 0x56, 0x34, 0x12, 0, 0] := by decide

/-- Chapter 13: a 4,096-byte payload travels in a frame of 4,158 bytes. -/
theorem test_frame_example : frameLen (st .active) 1 4096 = 4158 := by decide

/-- The queue pair of the example of chapter 06, at 100,000 Mb/s. -/
def ratePair (cr tr alpha t : Nat) : State := setQp withPorts 1 { state := .rts, cr := cr, tr := tr, alpha := alpha, tStage := t, paced := true }

/-- Chapter 06: two CNPs take the rate from 100,000 to 50,000 and 25,000 Mb/s; the alpha timer then takes 4 and 3 off alpha. -/
theorem test_cnp_example :
    (qpOf (cnpReceive (ratePair 100000 100000 1024 0) 1) 1).cr = 50000 ∧ (qpOf (cnpReceive (ratePair 100000 100000 1024 0) 1) 1).alpha = 1024
    ∧ (qpOf (cnpReceive (ratePair 50000 100000 1024 0) 1) 1).cr = 25000 ∧ (qpOf (cnpReceive (ratePair 50000 100000 1024 0) 1) 1).tr = 50000
    ∧ (qpOf (alphaTick (ratePair 25000 50000 1024 0) 1 false) 1).alpha = 1020 ∧ (qpOf (alphaTick (ratePair 25000 50000 1020 0) 1 false) 1).alpha = 1017 := by
  decide

/-- Chapter 06: stage 1 is fast recovery, 37,500 Mb/s; stage 6 is additive, 49,629 Mb/s towards 50,040. -/
theorem test_increase_example :
    (qpOf (increaseTick (ratePair 25000 50000 1024 0) 1 false) 1).cr = 37500
    ∧ (qpOf (increaseTick (ratePair 49218 50000 927 5) 1 false) 1).cr = 49629
    ∧ (qpOf (increaseTick (ratePair 49218 50000 927 5) 1 false) 1).tr = 50040 := by decide

/-- Chapter 19: an atomic Register Read of the peak current of bay 9 clears it and keeps BAY_SEL. -/
theorem test_atomic_peak_example :
    (chanOf (registerRead (setChan (rwPut (st .active) 0xB0000 0 3) 9 { iPeak := 1070 }) ⟨.mctp 8, 1⟩ 0x000B0010 1 9 0) 9).iPeak = 0
    ∧ rwGet (registerRead (setChan (rwPut (st .active) 0xB0000 0 3) 9 { iPeak := 1070 }) ⟨.mctp 8, 1⟩ 0x000B0010 1 9 0) 0xB0000 0 = 3
    ∧ (atomicRead (setChan (rwPut (st .active) 0xB0000 0 3) 9 { iPeak := 1070 }) 0xB0010 [(0xB0000, 9)]).1 = 0x042E := by
  decide

/-- Chapter 03: the header of the bring-up image gives its length 0xE40, SEQ 7 and four sections. -/
theorem test_bring_up_image :
    leAt image0 0 4 = 0x4D49594C ∧ leAt image0 8 4 = 0xE40 ∧ leAt image0 12 4 = 7 ∧ checkConfig withConfig.cfg.sections (leAt image0 32 1) = none := by
  decide

/-- R1: the identity is read on each path. -/
theorem test_identity :
    exec (.loRegisterRead ⟨.bar0, 0, 4⟩) (st .active) = .next (emit (st .active) (.readData 0x6400A1C0)) := by rfl

/-- R54: the key of GBL_RESET_CTL. -/
theorem test_reset_key :
    (match exec (.coldResetRequest 0x5A170003 {}) (st .active) with | .next t => t.glb.resetCause == 1 && t.glb.mode == .boot | _ => false) = true
    ∧ exec (.coldResetRequest 0x5A160003 {}) (st .active) = .next (st .active) := by
  refine ⟨rfl, rfl⟩

/-- A command about an object that does not exist stops by name. -/
theorem test_no_such_spoke : exec (.linkUpTimeout 64) (st .active) = .fault (.noSuchInstance "spoke") := by rfl

/-- A stage write longer than 1 MiB of data is not well formed. -/
theorem test_wf_bytes : (Instr.imageStageWrite ⟨.pf0, 0⟩ 64 16 false (List.replicate (2 ^ 20 + 1) 0)).wf = false := by
  show (okCid ⟨.pf0, 0⟩ && ok32 64 && ok32 16 && okBytes (List.replicate (2 ^ 20 + 1) 0)) = false
  rw [show okBytes (List.replicate (2 ^ 20 + 1) 0) = false from decide_eq_false (by rw [List.length_replicate]; decide)]
  rfl

set_option maxRecDepth 20000 in
/-- A frame of a sub-port that does not exist, and a name longer than 256 bytes, are not well formed. -/
theorem test_wf_frame_and_name :
    (Instr.ethFrameReceive ⟨32, 64, 0, true, 0, 0, 0, [], none, [], 0, true, 0, 0, .other⟩).wf = false
    ∧ (Instr.fabricsConnect 0 0 ⟨List.replicate 257 0, [], 0, 31, 0, 0⟩).wf = false := ⟨rfl, rfl⟩

/-! ### Premises of the statements -/

set_option maxRecDepth 20000 in
theorem premises_StepRunsFront :
    (∃ s : State, (s.pending = [])) :=
  ⟨st .boot, by first | decide | decide +kernel⟩

set_option maxRecDepth 20000 in
theorem premises_MemoriesStayCanonical :
    (∃ s : State, ∃ t : State, (MemInv s) ∧ (step s = .next t)) :=
  ⟨State.reset, State.reset, ⟨rfl, rfl⟩, rfl⟩

set_option maxRecDepth 20000 in
theorem premises_QueueFirstInFirstOut :
    (∃ c : Instr, ∃ l : List Instr, ∃ s : State, ∃ t : State, (s.pending = c :: l) ∧ (step s = .next t)) :=
  ⟨.jtagIdcode, [], { st .active with pending := [.jtagIdcode] }, emit { st .active with pending := [] } (.jtag (some 0x6400A1C0)), rfl, rfl⟩

set_option maxRecDepth 20000 in
theorem premises_OneTimeStorageOnlyGrows :
    (∃ s : State, ∃ t : State, (step s = .next t)) :=
  ⟨State.reset, State.reset, rfl⟩

set_option maxRecDepth 20000 in
theorem premises_MemoryFrame :
    (∃ i : Instr, ∃ s : State, ∃ t : State, (writesMemory i = false) ∧ (exec i s = .next t)) :=
  ⟨.jtagIdcode, st .active, emit (st .active) (.jtag (some 0x6400A1C0)), rfl, rfl⟩

set_option maxRecDepth 20000 in
theorem premises_IdentityRegister :
    (∃ s : State, ∃ p : Path, ∃ c : Cid, ∃ w : Word, ∃ x : Word, (s.glb.mode ≠ .held ∧ ∀ q, tget s.regs.snap none (pathKey 0 q) = none)) :=
  ⟨st .boot, .bar0, ⟨.pf0, 1⟩, 0, 0, by decide, fun _ => rfl⟩

set_option maxRecDepth 20000 in
theorem premises_ResetControlKey :
    (∃ s : State, ∃ v : Word, ∃ m : Moment, (authMode s = true)) :=
  ⟨st .active, 0x5A170003, {}, by first | decide | decide +kernel⟩

set_option maxRecDepth 20000 in
theorem premises_PauseEndBeatsWatchdog :
    (∃ s : State, ∃ b : Nat, ∃ p : Nat, (b < 32 ∧ p < 8) ∧ (tget (subOf s b).paused 0 p ≠ 0 ∧ bitAt (pfcMask s (b / 4)) p = true)) :=
  ⟨{ withPorts with prt := { subs := [(0, { paused := [(3, 9)] })] } }, 0, 3, by first | decide | decide +kernel⟩

set_option maxRecDepth 20000 in
theorem premises_PowerFailOutsideOperation :
    (∃ s : State, ∃ t : State, ∃ m : Moment, (t = { s with glb := { s.glb with pwrfail := true } } ∧ s.glb.pwrfail = false ∧ outranked m.rivals .pwrfail = false)) :=
  ⟨bt 5, { glb := { mode := .boot, bootStep := 5, pwrfail := true } }, {}, by first | decide | decide +kernel⟩

set_option maxRecDepth 20000 in
theorem premises_RegisterAccess :
    (∃ s : State, ∃ p : Path, ∃ off : Nat, ∃ v : Word, ∃ hw : Word, ∃ m : Moment, (regsWritable s = true) ∧ (0x12000 ≤ off ∧ off < 0x14000 ∧ off % 4 = 0))
    ∧ (∃ s : State, ∃ p : Path, ∃ off : Nat, ∃ inc : Nat, (s.glb.mode ≠ .held) ∧ (isRc off = true ∧ off % 4 = 0 ∧ off < 0xB0000))
    ∧ (∃ s : State, ∃ p : Path, (s.glb.mode ≠ .held) ∧ (tget s.regs.snap none (pathKey 0x24 p) = none))
    ∧ (∃ s : State, ∃ p : Path, ∃ off : Nat, ∃ v : Word, (regsWritable s = true) ∧ (off ∈ hiRegs))
    ∧ (∃ s : State, ∃ p : Path, ∃ v : Word, ∃ h : Nat, (regsWritable s = true) ∧ (tget s.regs.held none (pathKey 0xF8108 p) = some h))
    ∧ (∃ s : State, ∃ p : Path, ∃ v : Word, (regsWritable s = true))
    ∧ (∃ s : State, ∃ c : Cid, ∃ w2 : Word, ∃ w3 : Word, (readServed s c = true) ∧ (hasRole s c 1 = none) ∧ (tget s.regs.snap none (pathKey 0 .mgmt) = none))
    ∧ (∃ s : State, ∃ c : Cid, ∃ w2 : Word, ∃ w3 : Word, ∃ v : Word, ∃ m : Moment, (authMode s = true) ∧ (hasRole s c 2 = none) ∧ (v.toNat < 64))
    ∧ (∃ s : State, ∃ a : Access, ∃ v : Word, ∃ hw : Word, ∃ inc : Nat, ∃ m : Moment, (accessOk a = false))
    ∧ (∃ s : State, ∃ a : Access, ∃ v : Word, ∃ hw : Word, ∃ inc : Nat, ∃ m : Moment, (accessOk a = true)) :=
  ⟨⟨st .active, .mgmt, 0x13FFC, 7, 0, {}, by first | decide | decide +kernel⟩,
   ⟨st .boot, .bar0, 0x2000C, 3, by first | decide | decide +kernel⟩,
   ⟨st .active, .bar0, by first | decide | decide +kernel⟩,
   ⟨st .active, .mgmt, 0xF8108, 1, by first | decide | decide +kernel⟩,
   ⟨{ st .active with regs := { held := [(pathKey 0xF8108 .mgmt, some 5)] } }, .mgmt, 1, 5, by first | decide | decide +kernel⟩,
   ⟨st .active, .mgmt, 64, by first | decide | decide +kernel⟩,
   ⟨st .boot, ⟨.pf0, 1⟩, 0, 0, by first | decide | decide +kernel⟩,
   ⟨st .active, ⟨.pf0, 1⟩, 0, 0, 3, {}, by first | decide | decide +kernel⟩,
   ⟨st .active, ⟨.bar0, 2, 4⟩, 0, 0, 0, {}, by first | decide | decide +kernel⟩,
   ⟨st .active, ⟨.mgmt, 0x2000C, 4⟩, 0, 0, 0, {}, by first | decide | decide +kernel⟩⟩

set_option maxRecDepth 20000 in
theorem premises_ResetsAndHolding :
    (∃ s : State, ∃ x : Straps, ∃ m : Moment, (s.glb.mode = .held ∧ s.glb.pwronL = true ∧ s.glb.tripHeld = false) ∧ (x.testEn = false ∧ m.lock1 ||| m.lock2 = 31))
    ∧ (∃ s : State, ∃ x : Straps, ∃ m : Moment, (s.glb.mode = .held ∧ s.glb.pwronL = true ∧ s.glb.tripHeld = false) ∧ (x.testEn = true ∨ m.lock1 ||| m.lock2 ≠ 31))
    ∧ (∃ s : State, ∃ x : Straps, ∃ m : Moment, (s.glb.mode ≠ .held ∨ s.glb.pwronL = false ∨ s.glb.tripHeld = true))
    ∧ (∃ s : State, ∃ m : Moment, (s.glb.mode ≠ .held ∧ outranked m.rivals .reset = false) ∧ (s.glb.wdOnce = false ∨ ticksS 60 ≤ s.glb.runTicks))
    ∧ (∃ s : State, ∃ m : Moment, ∃ n : Nat, (s.glb.wdOnce = true ∧ s.glb.runTicks < ticksS 60) ∧ (outranked m.rivals .fatal = false ∧ n = min 0xFFFF (s.now / ticksS 1)))
    ∧ (∃ s : State, ∃ m : Moment, (s.glb.mode = .held ∨ outranked m.rivals .fatal = true))
    ∧ (∃ s : State, ∃ v : Word, ∃ m : Moment, ∃ i : Instr, (i = .warmResetRequest v m ∨ i = .coldResetRequest v m) ∧ (authMode s = true ∧ field v.toNat 16 16 = 0x5A17 ∧ outranked m.rivals .reset = false) ∧ (bitAt v.toNat 0 = true ∨ bitAt v.toNat 1 = true))
    ∧ (∃ s : State, ∃ v : Word, ∃ m : Moment, ∃ i : Instr, (i = .warmResetRequest v m ∨ i = .coldResetRequest v m))
    ∧ (∃ s : State, ∃ m : Moment, (s.glb.pwrfail = true ∧ s.glb.refclkLost = false ∧ s.glb.mode ≠ .held) ∧ (outranked m.rivals .reset = false))
    ∧ (∃ s : State, ∃ m : Moment, (s.glb.pwrfail = false ∨ s.glb.refclkLost = true ∨ s.glb.mode = .held ∨ outranked m.rivals .reset = true)) :=
  ⟨⟨State.reset, ⟨true, false, false⟩, { lock1 := 30, lock2 := 1 }, by first | decide | decide +kernel⟩,
   ⟨State.reset, ⟨true, false, false⟩, { lock1 := 30, lock2 := 14 }, by first | decide | decide +kernel⟩,
   ⟨st .active, ⟨true, false, false⟩, {}, by first | decide | decide +kernel⟩,
   ⟨st .active, { rivals := [.drain] }, by first | decide | decide +kernel⟩,
   ⟨{ glb := { mode := .active, wdOnce := true } }, {}, 0, by first | decide | decide +kernel⟩,
   ⟨st .safe, { rivals := [.pwrfail] }, by first | decide | decide +kernel⟩,
   ⟨st .safe, 0x5A170003, {}, .warmResetRequest 0x5A170003 {}, by first | decide | decide +kernel⟩,
   ⟨st .safe, 3, {}, .coldResetRequest 3 {}, by first | decide | decide +kernel⟩,
   ⟨{ glb := { mode := .drain, pwrfail := true } }, {}, by first | decide | decide +kernel⟩,
   ⟨st .active, {}, by first | decide | decide +kernel⟩⟩

set_option maxRecDepth 20000 in
theorem premises_BootSteps :
    (∃ s : State, ∃ b : Option Nat, ∃ k : Nat, ∃ j : Nat, (atStep s 2 = true))
    ∧ (∃ s : State, ∃ d0 : Nat, ∃ d1 : Nat, ∃ x : Bool, ∃ y : Bool, ∃ z : Bool, (atStep s 3 = true ∧ s.glb.norRead = false) ∧ (s.glb.failA = 0 ∧ s.glb.failB = 0))
    ∧ (∃ s : State, ∃ r : NorReport, ∃ k : Nat, (atStep s 3 = true ∧ s.glb.norRead = true) ∧ (nextSlot s = some k))
    ∧ (∃ s : State, ∃ u : State, ∃ v1 : ImageVerdict, ∃ v2 : ImageVerdict, ∃ k : Nat, ∃ r0 : Reject, (atStep s 4 = true ∧ s.glb.reread = false) ∧ (nextSlot s = some k ∧ u = checkImageSigs s (slotBytesOf s k)) ∧ (verifyImage u ((slotSize s k).getD 0) (slotBytesOf s k) v1 = some r0))
    ∧ (∃ s : State, ∃ v1 : ImageVerdict, ∃ v2 : ImageVerdict, ∃ x : Bool, ∃ k : Nat, (atStep s 4 = true) ∧ (nextSlot s = some k) ∧ (verifyImage (checkImageSigs s (slotBytesOf s k)) ((slotSize s k).getD 0) (slotBytesOf s k) v1 = none))
    ∧ (∃ s : State, ∃ r : Reject, (atStep s 5 = true) ∧ (checkConfig s.cfg.sections (leAt s.cfg.header 32 1) = some r))
    ∧ (∃ s : State, (atStep s 5 = true) ∧ (checkConfig s.cfg.sections (leAt s.cfg.header 32 1) = none))
    ∧ (∃ s : State, ∃ f1 : List Nat, ∃ f2 : List Nat, (atStep s 6 = true))
    ∧ (∃ s : State, ∃ l : List Nat, ∃ b : Bool, (atStep s 7 = true ∧ s.glb.sweepDone = false))
    ∧ (∃ s : State, ∃ r : ScanReport, (atStep s 7 = true ∧ s.glb.scanDone = false ∧ s.glb.scanWait = none))
    ∧ (∃ s : State, ∃ k : Nat, (s.glb.mode = .boot ∧ s.glb.bootHalted = false) ∧ (nextSlot s = some k))
    ∧ (∃ s : State, (step9Due s = true ∧ s.glb.drainReason ≠ .powerFail))
    ∧ (∃ s : State, ∃ u : State, ∃ t : State, ∃ ok1 : Bool, ∃ ok2 : Bool, ∃ d : Bool, ∃ ms : Nat, (atStep s 8 = true ∧ s.glb.stageLate = false) ∧ (u = { s with glb := { s.glb with bootMs := min ms 65535, stageLate := false } } ∧ (t, d) = writeBootRec u (bootRecOf u 1 0) ok1 ok2)) :=
  ⟨⟨bt 2, none, 3, 4, by first | decide | decide +kernel⟩,
   ⟨bt 3, 7, 9, false, false, true, by first | decide | decide +kernel⟩,
   ⟨{ glb := { mode := .boot, bootStep := 3, norRead := true } }, ⟨none, none, false, false, false, false, false, true⟩, 0, by first | decide | decide +kernel⟩,
   ⟨bt 4, checkImageSigs (bt 4) (slotBytesOf (bt 4) 0), ⟨true, true⟩, ⟨true, true⟩, 0, ⟨0x0D01, 0, 0, []⟩, by decide, ⟨by decide, rfl⟩, rfl⟩,
   ⟨withImage, ⟨true, true⟩, ⟨true, true⟩, true, 0, by first | decide | decide +kernel⟩,
   ⟨bt 5, ⟨0x0D23, 1, 0, []⟩, by first | decide | decide +kernel⟩,
   ⟨withConfig, by first | decide | decide +kernel⟩,
   ⟨bt 6, [0], [0], by first | decide | decide +kernel⟩,
   ⟨bt 7, [0, 3], true, by first | decide | decide +kernel⟩,
   ⟨{ glb := { mode := .boot, bootStep := 7, sweepDone := true } }, ⟨false, true, 0, [], []⟩, by first | decide | decide +kernel⟩,
   ⟨bt 3, 0, by first | decide | decide +kernel⟩,
   ⟨step9St, by first | decide | decide +kernel⟩,
   ⟨bt 8, { bt 8 with glb := { (bt 8).glb with bootMs := 900 } }, (writeBootRec { bt 8 with glb := { (bt 8).glb with bootMs := 900 } } (bootRecOf { bt 8 with glb := { (bt 8).glb with bootMs := 900 } } 1 0) true true).1, true, true, (writeBootRec { bt 8 with glb := { (bt 8).glb with bootMs := 900 } } (bootRecOf { bt 8 with glb := { (bt 8).glb with bootMs := 900 } } 1 0) true true).2, 900, ⟨rfl, rfl⟩, rfl, rfl⟩⟩

set_option maxRecDepth 20000 in
theorem premises_ModeRequests :
    (∃ s : State, ∃ m : Moment, (s.glb.mode = .active))
    ∧ (∃ s : State, ∃ m : Moment, (s.glb.mode = .standby ∨ s.glb.mode = .active ∨ s.glb.mode = .drain) ∧ (s.glb.drainReason ≠ .powerFail))
    ∧ (∃ s : State, ∃ m : Moment, (s.glb.mode = .drain ∧ s.glb.drainReason = .shutdown))
    ∧ (∃ s : State, ∃ m : Moment, (s.glb.mode = .drain ∧ s.glb.drainReason = .shutdown))
    ∧ (∃ s : State, ∃ m : Moment, (¬(s.glb.mode = .drain ∧ s.glb.drainReason = .shutdown)) ∧ (outranked m.rivals .group = false))
    ∧ (∃ s : State, ∃ u : State, ∃ m : Moment, (s.glb.mode = .standby ∨ s.glb.mode = .active ∨ s.glb.mode = .drain) ∧ (s.glb.pwrfail = false ∧ outranked m.rivals .pwrfail = false) ∧ (u = closeCocoon (releaseBoth (dropIngress { s with glb := { s.glb with pwrfail := true } }) 2) []))
    ∧ (∃ s : State, ∃ u : State, ∃ m : Moment, (u = { s with glb := { s.glb with pwrfail := true } })) :=
  ⟨⟨st .active, { rivals := [.group] }, by first | decide | decide +kernel⟩,
   ⟨st .active, { rivals := [.group] }, by first | decide | decide +kernel⟩,
   ⟨{ glb := { mode := .drain, drainReason := .shutdown } }, {}, by first | decide | decide +kernel⟩,
   ⟨{ glb := { mode := .drain, drainReason := .shutdown } }, {}, by first | decide | decide +kernel⟩,
   ⟨st .active, {}, by first | decide | decide +kernel⟩,
   ⟨st .active, closeCocoon (releaseBoth (dropIngress { st .active with glb := { (st .active).glb with pwrfail := true } }) 2) [], {}, by decide, by decide, rfl⟩,
   ⟨st .boot, { st .boot with glb := { (st .boot).glb with pwrfail := true } }, {}, rfl⟩⟩

set_option maxRecDepth 20000 in
theorem premises_ImageStaging :
    (∃ s : State, ∃ c : Cid, ∃ x : Session, ∃ off : Nat, ∃ len : Nat, ∃ data : List Byte, (stagingServed s = true ∧ hasRole s c 2 = none) ∧ (s.nor.session = some x ∧ x.owner = c.org) ∧ (off % 16 = 0 ∧ len % 16 = 0 ∧ 0 < len ∧ len ≤ 2 ^ 20 ∧ off + len ≤ 50331648))
    ∧ (∃ s : State, ∃ u : State, ∃ c : Cid, ∃ x : Session, ∃ off : Nat, ∃ len : Nat, ∃ data : List Byte, (stagingServed s = true ∧ hasRole s c 2 = none) ∧ (s.nor.session = none ∨ s.nor.session = some { x with owner := c.org }) ∧ (off % 16 = 0 ∧ len % 16 = 0 ∧ 0 < len ∧ len ≤ 2 ^ 20 ∧ off + len ≤ 50331648) ∧ (u = { s with nor := { s.nor with flash := eraseSlot s.nor.flash (otherSlot s), committed := false, session := some { owner := c.org, header := List.replicate 64 0xFF, last := s.now } } }))
    ∧ (∃ s : State, ∃ c : Cid, ∃ x : Session, ∃ off : Nat, ∃ len : Nat, ∃ b : Bool, ∃ data : List Byte, (stagingServed s = true ∧ hasRole s c 2 = none))
    ∧ (∃ s : State, ∃ u : State, ∃ c : Cid, ∃ len : Nat, ∃ v : ImageVerdict, ∃ x : Session, ∃ b : List Byte, (stagingServed s = true ∧ hasRole s c 2 = none) ∧ (s.nor.session = some x ∧ x.owner = c.org) ∧ (b = x.header ++ memReadBytes 0xFF s.nor.flash (2 ^ 26 * otherSlot s + 64) (min len 50331648 - 64) ∧ u = checkImageSigs s b) ∧ (stagedReject u b len v = none))
    ∧ (∃ s : State, ∃ u : State, ∃ c : Cid, ∃ len : Nat, ∃ v : ImageVerdict, ∃ x : Session, ∃ b : List Byte, ∃ r : Reject, (stagingServed s = true ∧ hasRole s c 2 = none) ∧ (s.nor.session = some x) ∧ (b = x.header ++ memReadBytes 0xFF s.nor.flash (2 ^ 26 * otherSlot s + 64) (min len 50331648 - 64) ∧ u = checkImageSigs s b) ∧ (stagedReject u b len v = some r))
    ∧ (∃ s : State, ∃ c : Cid, ∃ m : Moment, (s.glb.mode = .standby ∨ s.glb.mode = .active) ∧ (hasRole s c 2 = none ∧ s.nor.session = none))
    ∧ (∃ s : State, ∃ c : Cid, ∃ m : Moment, (s.glb.mode = .standby ∨ s.glb.mode = .active) ∧ (hasRole s c 2 = none ∧ s.nor.session = none))
    ∧ (∃ s : State, ∃ c : Cid, ∃ m : Moment, (s.glb.mode = .standby ∨ s.glb.mode = .active ∨ s.glb.mode = .drain) ∧ (hasRole s c 2 = none))
    ∧ (∃ s : State, ∃ c : Cid, (stagingServed s = true) ∧ (hasRole s c 1 = none))
    ∧ (∃ s : State, ∃ ok : Bool, ∃ ms : Nat, ∃ m : Moment, (s.glb.mode = .drain ∧ s.glb.drainReason = .activation) ∧ (swapReady s = true ∧ outranked m.rivals .drain = false) ∧ (s.nor.committed = false ∨ s.nor.session.isSome = true ∨ s.coc.formatted = false ∨ 4095 ≤ brNext s ∨ ok = false))
    ∧ (∃ s : State, ∃ n : State, ∃ ms : Nat, ∃ k : Nat, ∃ m : Moment, ∃ r : BootRec, (s.glb.mode = .drain ∧ s.glb.drainReason = .activation ∧ swapReady s = true ∧ outranked m.rivals .drain = false) ∧ (s.nor.committed = true ∧ s.nor.session = none ∧ s.coc.formatted = true ∧ brNext s < 4095 ∧ k = otherSlot s) ∧ (n = measureImage { underImage (keepRules s) k with glb := { (underImage (keepRules s) k).glb with bootSlot := k }, nor := { (underImage (keepRules s) k).nor with committed := false } } ∧ r = chainRec s (swapRecord n s ms) (brNext s)))
    ∧ (∃ s : State, ∃ ok : Bool, ∃ ms : Nat, ∃ m : Moment, (¬(s.glb.mode = .drain ∧ s.glb.drainReason = .activation) ∨ swapReady s = false ∨ outranked m.rivals .drain = true))
    ∧ (∃ s : State, ∃ u : State, ∃ c : Cid, ∃ n : Nat, ∃ x : Ctx, ∃ l : List (Nat × Ctx), (ctxFilter s (fun x => x.run == .held && (match x.cmd with | some h => h.c == c | none => false)) = (n, x) :: l) ∧ (u = endHold (rcAdd s 0x6101C 0 1) n x .commandInterrupted)) :=
  ⟨⟨{ st .active with nor := { session := some { owner := .pf0, header := [], last := 0 } } }, ⟨.pf0, 3⟩, { owner := .pf0, header := [], last := 0 }, 64, 16, [1], by first | decide | decide +kernel⟩,
   ⟨st .safe, { st .safe with nor := { committed := false, session := some { owner := .pf0, header := List.replicate 64 0xFF, last := 0 } } }, ⟨.pf0, 3⟩, { owner := .pf0, header := [], last := 0 }, 0, 16, [1], by decide, by decide, by decide, rfl⟩,
   ⟨{ st .active with nor := { session := some { owner := .pf0, header := [], last := 0 } } }, ⟨.pf0, 3⟩, { owner := .pf0, header := [], last := 0 }, 8, 16, true, [1], by first | decide | decide +kernel⟩,
   ⟨staged_, checkImageSigs staged_ (image0 ++ memReadBytes 0xFF staged_.nor.flash (2 ^ 26 * otherSlot staged_ + 64) (min 3648 50331648 - 64)), ⟨.pf0, 3⟩, 3648, ⟨true, true⟩, { owner := .pf0, header := image0, last := 0 }, image0 ++ memReadBytes 0xFF staged_.nor.flash (2 ^ 26 * otherSlot staged_ + 64) (min 3648 50331648 - 64), by decide, by decide, ⟨rfl, rfl⟩, by decide +kernel⟩,
   ⟨{ st .active with nor := { session := some { owner := .pf0, header := [], last := 0 } } }, checkImageSigs { st .active with nor := { session := some { owner := .pf0, header := [], last := 0 } } } [], ⟨.pf0, 3⟩, 64, ⟨true, true⟩, { owner := .pf0, header := [], last := 0 }, [], ⟨0x0D03, 0, 8, []⟩, by decide, rfl, ⟨rfl, rfl⟩, rfl⟩,
   ⟨st .active, ⟨.pf0, 3⟩, {}, by first | decide | decide +kernel⟩,
   ⟨st .active, ⟨.pf0, 3⟩, {}, by first | decide | decide +kernel⟩,
   ⟨st .drain, ⟨.pf0, 3⟩, {}, by first | decide | decide +kernel⟩,
   ⟨st .active, ⟨.pf0, 3⟩, by first | decide | decide +kernel⟩,
   ⟨{ glb := { mode := .drain, drainReason := .activation } }, true, 5, {}, by first | decide | decide +kernel⟩,
   ⟨swapSt, measureImage { underImage (keepRules swapSt) 1 with glb := { (underImage (keepRules swapSt) 1).glb with bootSlot := 1 }, nor := { (underImage (keepRules swapSt) 1).nor with committed := false } }, 5, 1, {}, chainRec swapSt (swapRecord (measureImage { underImage (keepRules swapSt) 1 with glb := { (underImage (keepRules swapSt) 1).glb with bootSlot := 1 }, nor := { (underImage (keepRules swapSt) 1).nor with committed := false } }) swapSt 5) (brNext swapSt), by decide, by decide, ⟨rfl, rfl⟩⟩,
   ⟨st .active, true, 5, {}, by first | decide | decide +kernel⟩,
   ⟨{ seq := { ctxs := [(0, some { run := .held, cmd := some { c := ⟨.mctp 1, 2⟩ } })] } }, endHold (rcAdd { seq := { ctxs := [(0, some { run := .held, cmd := some { c := ⟨.mctp 1, 2⟩ } })] } } 0x6101C 0 1) 0 { run := .held, cmd := some { c := ⟨.mctp 1, 2⟩ } } .commandInterrupted, ⟨.mctp 1, 2⟩, 0, { run := .held, cmd := some { c := ⟨.mctp 1, 2⟩ } }, [], rfl, rfl⟩⟩

set_option maxRecDepth 20000 in
theorem premises_OwnerKeys :
    (∃ s : State, ∃ val : Word, (authMode s = true ∧ s.trs.busy = none ∧ owned s = false) ∧ (field val.toNat 0 3 = 1) ∧ (authTarget s 1 (field val.toNat 4 2) (field val.toNat 16 16) = 0))
    ∧ (∃ s : State, ∃ val : Word, ∃ i : Instr, (i = .trsEnroll val ∨ i = .trsRevoke val ∨ i = .trsAdvanceMinSvn val) ∧ (authMode s = true ∧ s.trs.busy = none ∧ owned s = true) ∧ (1 ≤ field val.toNat 0 3 ∧ field val.toNat 0 3 ≤ 3))
    ∧ (∃ s : State, ∃ val : Word, ∃ i : Instr, (i = .trsEnroll val ∨ i = .trsRevoke val ∨ i = .trsAdvanceMinSvn val))
    ∧ (∃ s : State, ∃ val : Word, ∃ i : Instr, (i = .trsEnroll val ∨ i = .trsRevoke val ∨ i = .trsAdvanceMinSvn val) ∧ (authMode s = true ∧ s.trs.busy = none ∧ owned s = false) ∧ (1 ≤ field val.toNat 0 3 ∧ field val.toNat 0 3 ≤ 3) ∧ (authTarget s (field val.toNat 0 3) (field val.toNat 4 2) (field val.toNat 16 16) ≠ 0))
    ∧ (∃ s : State, ∃ o : AuthOp, (s.trs.busy = some o ∧ o.burning = true ∧ o.op = 3))
    ∧ (∃ s : State, ∃ o : AuthOp, (s.trs.busy = some o ∧ o.burning = true))
    ∧ (∃ s : State, ∃ o : AuthOp, ∃ v : AuthVerdict, (s.trs.busy = some o ∧ o.burning = false)) :=
  ⟨⟨st .standby, 1, by first | decide | decide +kernel⟩,
   ⟨{ st .standby with trs := { owner := [(0, { enrolled := true })] } }, 2, .trsRevoke 2, by first | decide | decide +kernel⟩,
   ⟨st .standby, 1, .trsEnroll 1, by first | decide | decide +kernel⟩,
   ⟨st .standby, 2, .trsRevoke 2, by first | decide | decide +kernel⟩,
   ⟨{ trs := { busy := some { op := 3, target := 0, signer := 0, value := 9, burning := true, ed := [], ml := [] } } }, { op := 3, target := 0, signer := 0, value := 9, burning := true, ed := [], ml := [] }, by first | decide | decide +kernel⟩,
   ⟨{ trs := { busy := some { op := 3, target := 0, signer := 0, value := 9, burning := true, ed := [], ml := [] } } }, { op := 3, target := 0, signer := 0, value := 9, burning := true, ed := [], ml := [] }, by first | decide | decide +kernel⟩,
   ⟨{ trs := { owner := [(0, { enrolled := true })], busy := some { op := 3, target := 0, signer := 0, value := 9, burning := false, ed := [], ml := [] } } }, { op := 3, target := 0, signer := 0, value := 9, burning := false, ed := [], ml := [] }, ⟨true, true⟩, by first | decide | decide +kernel⟩⟩

set_option maxRecDepth 20000 in
theorem premises_SpdmRequests :
    (∃ s : State, ∃ u : State, ∃ c : Cid, ∃ len : Nat, ∃ req : SpdmReq, ∃ r : SpdmRsp, ∃ fs : List Nat, (authMode s = true ∧ (u, r, fs) = spdmServe s c.org req))
    ∧ (∃ s : State, ∃ ep : Origin, (authMode s = true ∧ ctxRoom s ep = true))
    ∧ (∃ s : State, ∃ ep : Origin, (authMode s = true ∧ ctxRoom s ep = true))
    ∧ (∃ s : State, ∃ ep : Origin, ∃ a : Bool, ∃ h : Bool, ∃ m : Bool, ∃ d : Bool, (authMode s = true ∧ ctxRoom s ep = true))
    ∧ (∃ s : State, ∃ ep : Origin, (authMode s = true ∧ ctxRoom s ep = true))
    ∧ (∃ s : State, ∃ ep : Origin, ∃ slot : Nat, ∃ off : Nat, ∃ len : Nat, ∃ fs : List Nat, (authMode s = true ∧ ctxRoom s ep = true) ∧ (fs = [((Config.certChain.drop off).take len).length, (Config.certChain.drop (off + len)).length] ++ (Config.certChain.drop off).take len))
    ∧ (∃ s : State, ∃ ep : Origin, ∃ slot : Nat, ∃ sum : Nat, ∃ nonce : Nat, ∃ old : List Nat, ∃ fs : List Nat, (authMode s = true ∧ ctxRoom s ep = true) ∧ (old = (match spdmCtxOf s ep with | some c => c.script | none => []) ∧ fs = [Config.sha384 Config.certChain, Config.freeValue s.freeCtr] ++ (if sum = 0 then [] else if sum = 1 then [Config.sha384 (s.trs.meas.take 7)] else [Config.sha384 s.trs.meas])))
    ∧ (∃ s : State, ∃ ep : Origin, ∃ index : Nat, ∃ nonce : Nat, ∃ old : List Nat, ∃ vs : List Nat, (authMode s = true ∧ ctxRoom s ep = true) ∧ (old = (match spdmCtxOf s ep with | some c => c.script | none => [])))
    ∧ (∃ s : State, ∃ ep : Origin, ∃ code : Nat, (authMode s = true ∧ ctxRoom s ep = true))
    ∧ (∃ s : State, ∃ ep : Origin, ∃ i : Instr, ∃ a : Bool, ∃ b : Bool, ∃ c : Bool, ∃ d : Bool, ∃ k : Nat, ∃ l : Nat, ∃ m : Nat, (i = .getVersion ep ∨ i = .getCapabilities ep ∨ i = .negotiateAlgorithms ep a b c d ∨ i = .getDigests ep ∨ i = .getCertificate ep k l m ∨ i = .challenge ep k l m ∨ i = .getMeasurements ep k a l ∨ i = .spdmUnsupportedRequest ep k)) :=
  ⟨⟨st .safe, (spdmServe (st .safe) (.mctp 8) .getVersion).1, ⟨.mctp 8, 1⟩, 4, .getVersion, (spdmServe (st .safe) (.mctp 8) .getVersion).2.1, (spdmServe (st .safe) (.mctp 8) .getVersion).2.2, by decide, rfl⟩,
   ⟨st .safe, .pf0, by first | decide | decide +kernel⟩,
   ⟨st .active, .pf0, by first | decide | decide +kernel⟩,
   ⟨st .active, .pf0, true, false, false, false, by first | decide | decide +kernel⟩,
   ⟨st .active, .pf0, by first | decide | decide +kernel⟩,
   ⟨st .active, .pf0, 1, 0, 4, [((Config.certChain.drop 0).take 4).length, (Config.certChain.drop (0 + 4)).length] ++ (Config.certChain.drop 0).take 4, by decide, rfl⟩,
   ⟨st .active, .pf0, 0, 0, 7, [], [Config.sha384 Config.certChain, Config.freeValue 0], by decide, ⟨rfl, rfl⟩⟩,
   ⟨st .active, .pf0, 0, 0, [], [8], by decide, rfl⟩,
   ⟨st .active, .pf0, 5, by first | decide | decide +kernel⟩,
   ⟨st .boot, .pf0, .getDigests .pf0, true, true, true, true, 0, 0, 0, by first | decide | decide +kernel⟩⟩

set_option maxRecDepth 20000 in
theorem premises_PortLinks :
    (∃ s : State, ∃ sub : Nat, (sub < 32 ∧ (subOf s sub).training = true))
    ∧ (∃ s : State, ∃ sub : Nat, (sub < 32 ∧ subExists s sub = true ∧ (subOf s sub).up = false ∧ (subOf s sub).fails = 2))
    ∧ (∃ s : State, ∃ sub : Nat, (sub < 32))
    ∧ (∃ s : State, ∃ sub : Nat, (sub < 32 ∧ subExists s sub = true) ∧ ((subOf s sub).up = false ∧ (subOf s sub).training = true))
    ∧ (∃ s : State, ∃ sub : Nat, ∃ pmd : Nat, ∃ rs : Bool, (sub < 32) ∧ (subExists s sub = false ∨ (subOf s sub).up = true ∨ (subOf s sub).training = false ∨ pmd ≠ prtMode s (sub / 4) ∨ rs = false))
    ∧ (∃ s : State, ∃ sub : Nat, (sub < 32))
    ∧ (∃ s : State, ∃ sub : Nat, ∃ prio : Nat, (sub < 32 ∧ prio < 8))
    ∧ (∃ s : State, ∃ sub : Nat, ∃ prio : Nat, (sub < 32 ∧ prio < 8) ∧ (tget (subOf s sub).paused 0 prio ≠ 0 ∧ bitAt (pfcMask s (sub / 4)) prio = true))
    ∧ (∃ s : State, ∃ sub : Nat, ∃ prio : Nat, (sub < 32 ∧ prio < 8))
    ∧ (∃ s : State, ∃ sub : Nat, ∃ prio : Nat, (sub < 32 ∧ prio < 8))
    ∧ (∃ s : State, ∃ v : Word, (authMode s = true) ∧ (bitAt v.toNat 31 = true))
    ∧ (∃ s : State, ∃ sub : Nat, ∃ prio : Nat, ∃ pmd : Nat, ∃ b : Bool, (32 ≤ sub)) :=
  ⟨⟨{ prt := { subs := [(31, { training := true, fails := 1 })] } }, 31, by first | decide | decide +kernel⟩,
   ⟨{ withPorts with prt := { subs := [(3, { fails := 2 })] } }, 3, by first | decide | decide +kernel⟩,
   ⟨st .active, 3, by first | decide | decide +kernel⟩,
   ⟨{ withPorts with prt := { subs := [(3, { training := true })] } }, 3, by first | decide | decide +kernel⟩,
   ⟨st .active, 31, 0, true, by first | decide | decide +kernel⟩,
   ⟨{ prt := { subs := [(31, { up := true })] } }, 31, by first | decide | decide +kernel⟩,
   ⟨{ prt := { subs := [(31, { paused := [(7, 9)] })] } }, 31, 7, by first | decide | decide +kernel⟩,
   ⟨{ withPorts with prt := { subs := [(3, { paused := [(3, 9)] })] } }, 3, 3, by first | decide | decide +kernel⟩,
   ⟨{ withPorts with prt := { subs := [(3, { paused := [(3, 9)] })] } }, 3, 3, by first | decide | decide +kernel⟩,
   ⟨{ prt := { subs := [(31, { paused := [(7, 9)], storm := [7] })] } }, 31, 7, by first | decide | decide +kernel⟩,
   ⟨st .active, 0x80000021, by first | decide | decide +kernel⟩,
   ⟨st .active, 32, 0, 1, true, by first | decide | decide +kernel⟩⟩

set_option maxRecDepth 20000 in
theorem premises_FramesAndMacsec :
    (∃ s : State, ∃ f : EthFrame, (f.sub < 32) ∧ (subExists s f.sub = false ∨ (subOf s f.sub).up = false))
    ∧ (∃ s : State, ∃ f : EthFrame, (f.sub < 32 ∧ subExists s f.sub = true ∧ (subOf s f.sub).up = true) ∧ (f.fecBad ≠ 0 ∨ f.fcsOk = false ∨ f.len < 64 ∨ 9216 < f.len))
    ∧ (∃ s : State, ∃ f : EthFrame, (f.sub < 32 ∧ subExists s f.sub = true ∧ (subOf s f.sub).up = true) ∧ (f.fecBad = 0 ∧ f.fcsOk = true ∧ 64 ≤ f.len ∧ f.len ≤ 9216 ∧ macPasses f.sub f.dst = false))
    ∧ (∃ s : State, ∃ f : EthFrame, (f.sub < 32 ∧ subExists s f.sub = true ∧ (subOf s f.sub).up = true) ∧ (f.fecBad = 0 ∧ f.fcsOk = true ∧ 64 ≤ f.len ∧ f.len ≤ 9216 ∧ macPasses f.sub f.dst = true ∧ f.ety = 0x8808))
    ∧ (∃ s : State, ∃ f : EthFrame, (f.sub < 32 ∧ subExists s f.sub = true ∧ (subOf s f.sub).up = true) ∧ (f.fecBad = 0 ∧ f.fcsOk = true ∧ 64 ≤ f.len ∧ f.len ≤ 9216 ∧ macPasses f.sub f.dst = true ∧ f.ety ≠ 0x8808))
    ∧ (∃ s : State, ∃ f : EthFrame, (f.sub = 32))
    ∧ (∃ s : State, ∃ port : Nat, ∃ sc : Nat, ∃ sub : Nat, ∃ an : Nat, ∃ pn : Nat, (port < 8 ∧ sc < 32))
    ∧ (∃ s : State, ∃ port : Nat, ∃ sc : Nat, ∃ sub : Nat, ∃ an : Nat, ∃ pn : Nat, (port < 8 ∧ sc < 32))
    ∧ (∃ s : State, ∃ port : Nat, ∃ sc : Nat, ∃ an : Nat, (port < 8 ∧ sc < 32))
    ∧ (∃ s : State, ∃ port : Nat, ∃ sc : Nat, ∃ sub : Nat, ∃ an : Nat, ∃ pn : Nat, (8 ≤ port ∨ 32 ≤ sc))
    ∧ (∃ s : State, ∃ sub : Nat, ∃ lost : Bool, (sub < 32) ∧ (∀ c, c < 4 → egOf s sub c = []))
    ∧ (∃ s : State, ∃ sub : Nat, ∃ c : Nat, ∃ lost : Bool, (sub < 32 ∧ c < 4 ∧ egOf s sub c ≠ []) ∧ (s.ptb.available = false ∧ (subOf s sub).up = true))
    ∧ (∃ s : State, ∃ sub : Nat, ∃ sc : Nat, ∃ an : Nat, ∃ pn : Nat, ∃ len : Nat, ∃ eapol : Bool, ∃ lost : Bool, (sub < 32)) :=
  ⟨⟨st .active, rfr, by first | decide | decide +kernel⟩,
   ⟨{ withPorts with prt := { subs := [(3, { up := true })] } }, { rfr with len := 63 }, by first | decide | decide +kernel⟩,
   ⟨{ withPorts with prt := { subs := [(3, { up := true })] } }, { rfr with dst := if (Config.macBase + 3) % 2 ^ 48 = 0 then 1 else 0 }, ⟨by decide, by decide, by decide, by decide, by decide, (by show macPasses 3 (if (Config.macBase + 3) % 2 ^ 48 = 0 then 1 else 0) = false; split <;> (unfold macPasses; simp [*]; try omega))⟩⟩,
   ⟨{ withPorts with prt := { subs := [(3, { up := true })] } }, { rfr with ety := 0x8808 }, ⟨by decide, by decide, by decide, by decide, by decide, by rfl, rfl⟩⟩,
   ⟨{ withPorts with prt := { subs := [(3, { up := true })] } }, rfr, ⟨by decide, by decide, by decide, by decide, by decide, by rfl, by decide⟩⟩,
   ⟨st .active, { rfr with sub := 32 }, by first | decide | decide +kernel⟩,
   ⟨st .active, 7, 31, 3, 3, 1, by first | decide | decide +kernel⟩,
   ⟨st .active, 7, 31, 3, 3, 1, by first | decide | decide +kernel⟩,
   ⟨st .active, 7, 31, 3, by first | decide | decide +kernel⟩,
   ⟨st .active, 8, 0, 0, 0, 0, by first | decide | decide +kernel⟩,
   ⟨st .active, 31, true, by first | decide | decide +kernel⟩,
   ⟨{ prt := { subs := [(3, { up := true })] }, swc := { eg := [(12, [{ kind := .ack }])] } }, 3, 0, false, by first | decide | decide +kernel⟩,
   ⟨st .active, 3, 0, 0, 1, 64, true, false, by first | decide | decide +kernel⟩⟩

set_option maxRecDepth 20000 in
theorem premises_QueuePairLife :
    (∃ s : State, ∃ sub : Nat, ∃ prio : Nat, ∃ cells : Nat, ∃ p : RocePkt, ∃ t : State, (sub < 32 ∧ prio < 8) ∧ (t.ptb.available = false ∧ p.poison = none ∧ p.icrc = false))
    ∧ (∃ s : State, ∃ sub : Nat, ∃ prio : Nat, ∃ cells : Nat, ∃ p : RocePkt, ∃ t : State, (sub < 32 ∧ prio < 8 ∧ ingPop s sub prio = some (cells, t)) ∧ (t.ptb.available = false ∧ p.poison = none ∧ p.icrc = true ∧ p.ver = 0 ∧ p.pkey % 2 ^ 15 = 0x7FFF ∧ p.op < 32 ∧ 2 ^ 16 ≤ p.qpn ∧ (qpOf t (p.qpn % 2 ^ 16)).sub ≠ 32))
    ∧ (∃ s : State, ∃ sub : Nat, ∃ prio : Nat, ∃ cells : Nat, ∃ p : RocePkt, ∃ t : State, (sub < 32 ∧ prio < 8 ∧ ingPop s sub prio = some (cells, t)) ∧ (t.ptb.available = false ∧ p.poison = none ∧ p.icrc = true ∧ p.ver = 0 ∧ p.pkey % 2 ^ 15 = 0x7FFF ∧ p.op < 32 ∧ p.qpn = 1 ∧ (qpOf t 1).kind ≠ 2))
    ∧ (∃ s : State, ∃ r : CmReq, ∃ q : Nat, (r.sub < 32 ∧ transportUp s = true ∧ freeQp s = some q ∧ r.recfmt = 0 ∧ 3 ≤ r.pmtu))
    ∧ (∃ s : State, ∃ r : CmReq, ∃ q : Nat, (r.sub < 32 ∧ transportUp s = true ∧ freeQp s = some q ∧ 3 ≤ r.pmtu))
    ∧ (∃ s : State, ∃ r : CmReq, (r.sub < 32))
    ∧ (∃ s : State, ∃ r : CmReq, (r.sub = 32 ∧ s.prt.mgmtUp = true ∧ s.glb.mode ≠ .held))
    ∧ (∃ s : State, ∃ q : Nat, (q < 65536 ∧ (qpOf s q).kind ≠ 2))
    ∧ (∃ s : State, ∃ q : Nat, (q < 65536 ∧ (qpOf s q).kind = 2 ∧ (qpOf s q).state = .rtr))
    ∧ (∃ s : State, ∃ q : Nat, ∃ v : Word, (q < 65536 ∧ authMode s = true) ∧ ((qpOf s q).state ≠ .reset ∧ (qpOf s q).state ≠ .error ∧ (qpOf (qpErrorAlone s q 25) q).assoc = none))
    ∧ (∃ s : State, ∃ q : Nat, ∃ v : Word, (q < 65536 ∧ ((qpOf s q).state = .reset ∨ (qpOf s q).state = .error)))
    ∧ (∃ s : State, ∃ q : Nat, ∃ a : Nat, ∃ x : Assoc, (q < 65536 ∧ (qpOf s q).state ≠ .reset ∧ (qpOf s q).state ≠ .error) ∧ ((qpOf (qpErrorAlone s q 25) q).assoc = some a ∧ assocOf (qpErrorAlone s q 25) a = some x))
    ∧ (∃ s : State, ∃ q : Nat, (q < 65536))
    ∧ (∃ s : State, ∃ q : Nat, ∃ a : Nat, ∃ n : Nat, ∃ ps : List RocePkt, ∃ t : State, (q < 65536 ∧ (s.rdt.fetching.find? fun x => x.1 == q) = some (q, ps)) ∧ (t = { s with rdt := { s.rdt with fetching := s.rdt.fetching.filter fun x => x.1 != q } }))
    ∧ (∃ s : State, ∃ q : Nat, ∃ r : CtxFetch, (q < 65536 ∧ (s.rdt.fetching.find? fun x => x.1 == q) = none))
    ∧ (∃ s : State, ∃ n : Nat, ∃ r : CmReq, ∃ p : RocePkt, ∃ f : CtxFetch, (65536 ≤ n ∧ 33 ≤ r.sub)) :=
  ⟨⟨withFrame, 3, 5, 0, { icrc := false }, popped, by first | decide | decide +kernel⟩,
   ⟨withFrameQ, 3, 5, ((ingPop withFrameQ 3 5).getD (0, {})).1, { qpn := 65540, op := 4 }, ((ingPop withFrameQ 3 5).getD (0, {})).2, by first | decide | decide +kernel⟩,
   ⟨withFrameQ, 3, 5, ((ingPop withFrameQ 3 5).getD (0, {})).1, { qpn := 1, op := 4 }, ((ingPop withFrameQ 3 5).getD (0, {})).2, by first | decide | decide +kernel⟩,
   ⟨st .active, ⟨31, 9, 5, 4, 4, 0, 0, 0, 0, 0, 0⟩, 0, by first | decide | decide +kernel⟩,
   ⟨st .active, ⟨31, 9, 5, 4, 4, 0xAC01, 0, 0, 0, 0, 0⟩, 0, by first | decide | decide +kernel⟩,
   ⟨st .active, ⟨31, 9, 5, 4, 4, 1, 0, 0, 0, 0, 0⟩, by first | decide | decide +kernel⟩,
   ⟨{ st .safe with prt := { mgmtUp := true } }, ⟨32, 9, 5, 4, 4, 0, 0, 0, 0, 0, 0⟩, by first | decide | decide +kernel⟩,
   ⟨{ rdt := { qps := [(65535, { state := .rtr })] } }, 65535, by first | decide | decide +kernel⟩,
   ⟨{ rdt := { qps := [(65535, { state := .rtr, kind := 2 })] } }, 65535, by first | decide | decide +kernel⟩,
   ⟨{ st .active with rdt := { qps := [(65535, { state := .rts })] } }, 65535, 1, by first | decide | decide +kernel⟩,
   ⟨st .active, 65535, 1, by first | decide | decide +kernel⟩,
   ⟨{ hostSt with rdt := { qps := [(9, { state := .rts, assoc := some 1 })] } }, 9, 1, {}, by first | decide | decide +kernel⟩,
   ⟨{ rdt := { qps := [(65535, { state := .error })] } }, 65535, by first | decide | decide +kernel⟩,
   ⟨{ st .active with rdt := { fetching := [(65535, [])] } }, 65535, 0, 0, [], st .active, by first | decide | decide +kernel⟩,
   ⟨st .active, 65535, .good, by first | decide | decide +kernel⟩,
   ⟨st .active, 65536, ⟨33, 9, 5, 4, 4, 1, 0, 0, 0, 0, 0⟩, {}, .good, by first | decide | decide +kernel⟩⟩

set_option maxRecDepth 20000 in
theorem premises_QueuePairTimers :
    (∃ s : State, ∃ q : Nat, ∃ psn : Nat, (q < 65536))
    ∧ (∃ s : State, ∃ q : Nat, ∃ p : Pkt, ∃ r : List Pkt, (q < 65536 ∧ (qpOf s q).state = .rts ∧ (qpOf s q).unacked = p :: r))
    ∧ (∃ s : State, ∃ q : Nat, ∃ psn : Nat, (q < 65536 ∧ ((qpOf s q).state ≠ .rts ∨ (∀ p r, (qpOf s q).unacked = p :: r → p.psn ≠ psn))))
    ∧ (∃ s : State, ∃ q : Nat, (q < 65536))
    ∧ (∃ s : State, ∃ q : Nat, ∃ t : Nat, (q < 65536))
    ∧ (∃ s : State, ∃ q : Nat, (q < 65536))
    ∧ (∃ s : State, ∃ q : Nat, (q < 65536))
    ∧ (∃ s : State, ∃ q : Nat, ∃ draw : Nat, (q < 65536))
    ∧ (∃ s : State, ∃ q : Nat, ∃ draw : Nat, (q < 65536 ∧ (qpOf s q).state = .rts ∧ s.rdt.cache.contains q = true))
    ∧ (∃ s : State, ∃ q : Nat, ∃ draw : Nat, ∃ p : Pkt, ((qpOf s q).unacked[(qpOf s q).unacked.length - (qpOf s q).resend]? = some p) ∧ (p.cpl = true ∨ mayPace s q = true))
    ∧ (∃ s : State, ∃ q : Nat, ∃ draw : Nat, ∃ m : Msg, ∃ t : State, ((qpOf s q).sendq = [m] ∧ m.kind = .send ∧ m.len ≤ pmtuBytes (qpOf s q).pmtu ∧ m.sent = 0 ∧ (m.cpl = true ∨ mayPace s q = true)) ∧ ((qpOf s q).unacked.length < (qpOf s q).window) ∧ (cellAlloc s (msgClass (qpOf s q) m) (cellsOf (frameLen s q m.len)) = some t))
    ∧ (∃ s : State, ∃ v : Word, ∃ n : Nat, ∃ u : State, (authMode s = true ∧ n = field (rwGet s 0x30200 0) 0 7 ∧ 1 ≤ n ∧ n ≤ 64) ∧ ((dlogOf s n).enable = false ∧ bitAt v.toNat 0 = true ∧ bitAt v.toNat 2 = false) ∧ (u = setDlog s n { dlogOf s n with page2m := bitAt v.toNat 1 }))
    ∧ (∃ s : State, ∃ v : Word, ∃ n : Nat, (authMode s = true ∧ n = field (rwGet s 0x30200 0) 0 7 ∧ 1 ≤ n ∧ n ≤ 64) ∧ ((dlogOf s n).enable = true ∧ bitAt v.toNat 0 = false ∧ bitAt v.toNat 2 = false))
    ∧ (∃ s : State, ∃ v : Word, (authMode s = true))
    ∧ (∃ s : State, ∃ p : Path, ∃ add : Nat, ∃ n : Nat, ∃ w : Nat, (s.glb.mode ≠ .held ∧ n = field (rwGet s 0x30200 0) 0 7 ∧ w = field (rwGet s 0x3021C 0) 0 26) ∧ (1 ≤ n ∧ n ≤ 64 ∧ (dlogOf s n).enable = true ∧ 64 * w < (dlogOf s n).pages))
    ∧ (∃ s : State, ∃ v : Word, ∃ n : Nat, (n = field (rwGet s 0x30200 0) 0 7))
    ∧ (∃ s : State, ∃ v : Word, ∃ p : Path, ∃ add : Nat, ∃ n : Nat, ∃ w : Nat, (n = field (rwGet s 0x30200 0) 0 7 ∧ w = field (rwGet s 0x3021C 0) 0 26)) :=
  ⟨⟨{ rdt := { qps := [(65535, { ackPend := 2 })] } }, 65535, 0, by first | decide | decide +kernel⟩,
   ⟨{ rdt := { qps := [(65535, { state := .rts, retry := 7, unacked := [⟨0, 1, 4, .send, 0, false, none, none, true, true, 0, 1, 0, 4, 0, 0⟩] })] } }, 65535, ⟨0, 1, 4, .send, 0, false, none, none, true, true, 0, 1, 0, 4, 0, 0⟩, [], by first | decide | decide +kernel⟩,
   ⟨st .active, 65535, 0, ⟨by decide, .inl (by decide)⟩⟩,
   ⟨{ rdt := { qps := [(65535, { rnrWait := true })] } }, 65535, by first | decide | decide +kernel⟩,
   ⟨st .active, 65535, 0, by first | decide | decide +kernel⟩,
   ⟨{ rdt := { qps := [(65535, { paced := true, alpha := 1024 })] } }, 65535, by first | decide | decide +kernel⟩,
   ⟨{ rdt := { qps := [(65535, { paced := true, tStage := 15 })] } }, 65535, by first | decide | decide +kernel⟩,
   ⟨st .active, 65535, 0, by first | decide | decide +kernel⟩,
   ⟨{ rdt := { cache := [65535], qps := [(65535, { state := .rts })] } }, 65535, 0, by first | decide | decide +kernel⟩,
   ⟨{ rdt := { qps := [(65535, { state := .rts, resend := 1, unacked := [⟨0, 1, 4, .send, 0, true, none, none, true, true, 0, 1, 0, 4, 0, 0⟩] })] } }, 65535, 0, ⟨0, 1, 4, .send, 0, true, none, none, true, true, 0, 1, 0, 4, 0, 0⟩, by first | decide | decide +kernel⟩,
   ⟨sendSt, 65535, 0, { len := 16, cpl := true }, { sendSt with swc := { shared := 524287 } }, by first | decide | decide +kernel⟩,
   ⟨{ st .active with regs := { rw := [(rk 0x30200 0, 64)] } }, 3, 64, setDlog { st .active with regs := { rw := [(rk 0x30200 0, 64)] } } 64 { page2m := true }, by first | decide | decide +kernel⟩,
   ⟨{ st .active with regs := { rw := [(rk 0x30200 0, 64)] }, rdt := { dlogs := [(64, { enable := true })] } }, 0, 64, by first | decide | decide +kernel⟩,
   ⟨st .active, 65, by first | decide | decide +kernel⟩,
   ⟨{ st .active with regs := { rw := [(rk 0x30200 0, 64)] }, rdt := { dlogs := [(64, { enable := true, pages := 1 })] } }, .mgmt, 1, 64, 0, by first | decide | decide +kernel⟩,
   ⟨st .active, 0, 0, by first | decide | decide +kernel⟩,
   ⟨st .active, 0, .mgmt, 0, 0, 0, by first | decide | decide +kernel⟩⟩

set_option maxRecDepth 20000 in
theorem premises_DeferredBumps :
    (∃ i : Instar, ∃ now : Nat, ∃ gap : Nat, ∃ t : Nat, (0 < i.pending ∧ i.lastBump = some t))
    ∧ (∃ i : Instar, ∃ now : Nat, ∃ gap : Nat, (i.pending = 0)) :=
  ⟨⟨{ pending := 1, lastBump := some 0 }, 5, 4, 0, by first | decide | decide +kernel⟩,
   ⟨{}, 5, 4, by first | decide | decide +kernel⟩⟩

set_option maxRecDepth 20000 in
theorem premises_FabricsAuthentication :
    (∃ s : State, ∃ q : Nat, ∃ cid : Nat, ∃ r : ConnectReq, (q < 65536 ∧ dataRuns s = true ∧ (qpOf s q).kind = 0 ∧ (qpOf s q).state = .rts ∧ (qpOf s q).assoc = none ∧ (qpOf s q).sub ≠ 32) ∧ (connectTarget s r.subnqn = none))
    ∧ (∃ s : State, ∃ q : Nat, ∃ cid : Nat, ∃ v : Nat, ∃ r : ConnectReq, (q < 65536 ∧ dataRuns s = true ∧ (qpOf s q).kind = 0 ∧ (qpOf s q).state = .rts ∧ (qpOf s q).assoc = none ∧ (qpOf s q).sub ≠ 32) ∧ (connectTarget s r.subnqn = some (.tenant v) ∧ hostListed s v r.hostnqn = false))
    ∧ (∃ s : State, ∃ q : Nat, ∃ cid : Nat, ∃ v : Nat, ∃ k : Nat, ∃ r : ConnectReq, ∃ x : VssRec, (q < 65536 ∧ dataRuns s = true ∧ (qpOf s q).kind = 0 ∧ (qpOf s q).state = .rts ∧ (qpOf s q).assoc = none ∧ (qpOf s q).sub ≠ 32) ∧ (connectTarget s r.subnqn = some (.tenant v) ∧ hostListed s v r.hostnqn = true ∧ r.qid = 0 ∧ vssOf s v = some x) ∧ (liveAssocs s < maxAssoc s ∧ tenantAssocs s v < x.maxAssoc ∧ freeCntlid s = some k ∧ r.sqsize = 31 ∧ katoMin s ≤ r.kato))
    ∧ (∃ s : State, ∃ q : Nat, ∃ cid : Nat, ∃ v : Nat, ∃ r : ConnectReq, (q < 65536 ∧ dataRuns s = true ∧ (qpOf s q).kind = 0 ∧ (qpOf s q).state = .rts ∧ (qpOf s q).assoc = none ∧ (qpOf s q).sub ≠ 32) ∧ (connectTarget s r.subnqn = some (.tenant v) ∧ hostListed s v r.hostnqn = true ∧ r.qid ≠ 0))
    ∧ (∃ s : State, ∃ c : Cid, ∃ a : Nat, ∃ x : Assoc, ∃ sha : Bool, ∃ g3 : Bool, ∃ g4 : Bool, ∃ sec : Bool, (dataRuns s = true ∧ c.org = .assoc a ∧ a < 65536 ∧ assocOf s a = some x) ∧ (x.mgmt = false ∧ x.disc = false ∧ chapOf x 0 = 0))
    ∧ (∃ s : State, ∃ c : Cid, ∃ a : Nat, ∃ x : Assoc, (dataRuns s = true ∧ c.org = .assoc a ∧ a < 65536 ∧ assocOf s a = some x) ∧ (x.mgmt = false ∧ x.disc = false ∧ chapOf x 0 = 1))
    ∧ (∃ s : State, ∃ c : Cid, ∃ a : Nat, ∃ x : Assoc, ∃ bi : Bool, (dataRuns s = true ∧ c.org = .assoc a ∧ a < 65536 ∧ assocOf s a = some x) ∧ (x.mgmt = false ∧ x.disc = false))
    ∧ (∃ s : State, ∃ c : Cid, ∃ a : Nat, ∃ qid : Nat, ∃ x : Assoc, ∃ m : AuthMsg, (c.org = .assoc a ∧ a < 65536)) :=
  ⟨⟨{ st .active with rdt := { qps := [(65535, { state := .rts })] } }, 65535, 1, ⟨[1], [2], 0, 31, 5000, 0⟩, by first | decide | decide +kernel⟩,
   ⟨{ st .active with rdt := { qps := [(65535, { state := .rts })] }, cat := { vss := [(1, some { nqn := [1], state := .active })] } }, 65535, 1, 1, ⟨[1], [2], 0, 31, 5000, 0⟩, by first | decide | decide +kernel⟩,
   ⟨{ st .active with rdt := { qps := [(65535, { state := .rts })] }, cat := { vss := [(1, some { nqn := [1], state := .active, maxAssoc := 1 })], hosts := [(256, some { vss := 1, nqn := [2] })] } }, 65535, 1, 1, 1, ⟨[1], [2], 0, 31, 5000, 0⟩, { nqn := [1], state := .active, maxAssoc := 1 }, by refine ⟨by decide, by decide, by decide, by decide, ?_, by decide, by decide⟩; unfold freeCntlid; exact findSome_range _ 0xFFEE _ (by decide)⟩,
   ⟨{ st .active with rdt := { qps := [(65535, { state := .rts })] }, cat := { vss := [(1, some { nqn := [1], state := .active })], hosts := [(256, some { vss := 1, nqn := [2] })] } }, 65535, 1, 1, ⟨[1], [2], 1, 31, 5000, 0⟩, by first | decide | decide +kernel⟩,
   ⟨{ st .active with cfe := { assocs := [(1, some { auth := true })] } }, ⟨.assoc 1, 0⟩, 1, { auth := true }, true, false, true, false, by first | decide | decide +kernel⟩,
   ⟨{ st .active with cfe := { assocs := [(1, some { auth := true, chap := [(0, 1)] })] } }, ⟨.assoc 1, 0⟩, 1, { auth := true, chap := [(0, 1)] }, by first | decide | decide +kernel⟩,
   ⟨{ st .active with cfe := { assocs := [(1, some { auth := true, chap := [(0, 5)] })] } }, ⟨.assoc 1, 0⟩, 1, { auth := true, chap := [(0, 5)] }, false, by first | decide | decide +kernel⟩,
   ⟨hostSt, ⟨.assoc 1, 0⟩, 1, 0, {}, .failure2, by first | decide | decide +kernel⟩⟩

set_option maxRecDepth 20000 in
theorem premises_HostAdminCommands :
    (∃ s : State, ∃ c : Cid, ∃ a : Nat, ∃ x : Assoc, ∃ v : Nat, (HostAdmin s c a x) ∧ (bitAt x.cc 0 = false))
    ∧ (∃ s : State, ∃ c : Cid, ∃ a : Nat, ∃ x : Assoc, (HostAdmin s c a x) ∧ (bitAt x.cc 0 = true))
    ∧ (∃ s : State, ∃ c : Cid, ∃ a : Nat, ∃ x : Assoc, (HostAdmin s c a x))
    ∧ (∃ s : State, ∃ c : Cid, ∃ a : Nat, ∃ x : Assoc, ∃ n : Nat, (HostAdmin s c a x))
    ∧ (∃ s : State, ∃ c : Cid, ∃ a : Nat, ∃ x : Assoc, (HostAdmin s c a x))
    ∧ (∃ s : State, ∃ c : Cid, ∃ a : Nat, ∃ x : Assoc, ∃ v : Nat, (HostAdmin s c a x))
    ∧ (∃ s : State, ∃ c : Cid, ∃ a : Nat, ∃ x : Assoc, ∃ v : Nat, ∃ n : Nat, (HostAdmin s c a x) ∧ (x.granted = none ∧ x.ioqs = [] ∧ n = min (min (field v 0 16) (field v 16 16) + 1) (queueCap x) ∧ n ≠ 0))
    ∧ (∃ s : State, ∃ c : Cid, ∃ a : Nat, ∃ x : Assoc, (HostAdmin s c a x) ∧ (x.notices = []))
    ∧ (∃ s : State, ∃ c : Cid, ∃ a : Nat, ∃ k : Nat, ∃ x : Assoc, (HostAdmin s c a x) ∧ (abortsOut s x < 4 ∧ ctxFilter s (fun y => y.run == .held && (match y.cmd with | some h => h.c == ⟨.ioq a 0, k⟩ | none => false)) = []))
    ∧ (∃ s : State, ∃ c : Cid, ∃ a : Nat, ∃ qid : Nat, ∃ k : Nat, ∃ n : Nat, ∃ x : Assoc, ∃ y : Ctx, (HostAdmin s c a x))
    ∧ (∃ s : State, ∃ c : Cid, ∃ a : Nat, ∃ n : Nat, ∃ k : Nat, ∃ x : Assoc, ∃ r : NsRec, (HostAdmin s c a x))
    ∧ (∃ s : State, ∃ c : Cid, ∃ a : Nat, ∃ v : Nat, ∃ w : Nat, ∃ b : Bool, ∃ i : Instr, (c.org = .assoc a ∧ a < 65536) ∧ (i ∈ [Instr.propertyGet c v, .propertySet c v w, .keepAlive c, .identify c v w, .getLogPage c v b, .getFeatures c v, .setFeatures c v w, .asyncEventRequest c, .abort c v w])) :=
  ⟨⟨hostSt, ⟨.assoc 1, 0⟩, 1, {}, 1, by first | decide | decide +kernel⟩,
   ⟨{ st .active with cfe := { assocs := [(1, some { cc := 1, rdy := true })] } }, ⟨.assoc 1, 0⟩, 1, { cc := 1, rdy := true }, by first | decide | decide +kernel⟩,
   ⟨hostSt, ⟨.assoc 1, 0⟩, 1, {}, by first | decide | decide +kernel⟩,
   ⟨hostSt, ⟨.assoc 1, 0⟩, 1, {}, 0, by first | decide | decide +kernel⟩,
   ⟨hostSt, ⟨.assoc 1, 0⟩, 1, {}, by first | decide | decide +kernel⟩,
   ⟨hostSt, ⟨.assoc 1, 0⟩, 1, {}, 7, by first | decide | decide +kernel⟩,
   ⟨{ st .active with cfe := { assocs := [(1, some { maxIo := 4 })] } }, ⟨.assoc 1, 0⟩, 1, { maxIo := 4 }, 0, 1, by first | decide | decide +kernel⟩,
   ⟨hostSt, ⟨.assoc 1, 0⟩, 1, {}, by first | decide | decide +kernel⟩,
   ⟨hostSt, ⟨.assoc 1, 0⟩, 1, 9, {}, by first | decide | decide +kernel⟩,
   ⟨hostSt, ⟨.assoc 1, 0⟩, 1, 0, 9, 0, {}, {}, by first | decide | decide +kernel⟩,
   ⟨hostSt, ⟨.assoc 1, 0⟩, 1, 0, 0, {}, {}, by first | decide | decide +kernel⟩,
   ⟨hostSt, ⟨.assoc 1, 0⟩, 1, 0, 0, true, .keepAlive ⟨.assoc 1, 0⟩, by first | decide | decide +kernel⟩⟩

set_option maxRecDepth 20000 in
theorem premises_SanitizeAndFormat :
    (∃ s : State, ∃ c : Cid, ∃ a : Nat, ∃ w : Nat, ∃ x : Assoc, ∃ r : VssRec, (HostAdmin s c a x) ∧ (vssOf s x.vss = some r ∧ r.state ≠ .sanitizing ∧ bitAt w 9 = false ∧ (field w 0 3 = 2 ∨ field w 0 3 = 4)))
    ∧ (∃ s : State, ∃ c : Cid, ∃ a : Nat, ∃ w : Nat, ∃ x : Assoc, ∃ r : VssRec, (HostAdmin s c a x) ∧ (vssOf s x.vss = some r ∧ r.state = .sanitizing ∧ bitAt w 9 = false))
    ∧ (∃ s : State, ∃ c : Cid, ∃ a : Nat, ∃ n : Nat, ∃ w : Nat, ∃ k : Nat, ∃ x : Assoc, ∃ r : NsRec, ∃ v : VssRec, (HostAdmin s c a x) ∧ (n ≠ 0xFFFFFFFF ∧ nsByNsid s x.vss n = some (k, r) ∧ r.attached = true ∧ r.fmt = false ∧ vssOf s x.vss = some v ∧ v.state = .active) ∧ (field w 0 4 = 0 ∧ field w 5 3 = 0 ∧ field w 9 3 ≤ 2))
    ∧ (∃ s : State, ∃ v : Nat, ∃ r : VssRec, (vssOf s v = some r ∧ r.state = .sanitizing ∧ r.sanAct = 2))
    ∧ (∃ s : State, ∃ n : Nat, ∃ k : Nat, ∃ r : NsRec, ∃ v : VssRec, (nsOf s n = some r ∧ (grpOf s r.group).owned = true ∧ k < r.chunks ∧ r.fmt = false ∧ k = r.erased) ∧ (vssOf s r.vss = some v ∧ v.state = .sanitizing ∧ v.sanKeys = true ∧ v.sanAct = 2))
    ∧ (∃ s : State, ∃ n : Nat, ∃ r : NsRec, (nsOf s n = some r ∧ r.fmt = true ∧ r.fmtKeys = false ∧ nsInflight s n = 0 ∧ r.ses ≠ 1))
    ∧ (∃ s : State, ∃ c : Cid, ∃ a : Nat, ∃ w : Nat, ∃ x : Assoc, (HostAdmin s c a x))
    ∧ (∃ s : State, ∃ c : Cid, ∃ a : Nat, ∃ n : Nat, ∃ w : Nat, ∃ k : Nat, ∃ x : Assoc, ∃ r : NsRec, (HostAdmin s c a x))
    ∧ (∃ s : State, ∃ v : Nat, ∃ r : VssRec, (vssOf s v = some r ∧ r.state = .sanitizing ∧ r.sanKeys = false ∧ slotsOf s v = 0 ∧ (r.sanAct = 4 ∧ r.sanTotal ≤ 1 ∨ r.sanTotal = 0)))
    ∧ (∃ s : State, ∃ n : Nat, ∃ k : Nat, ∃ r : NsRec, (nsOf s n = some r ∧ (grpOf s r.group).owned = true ∧ k < r.chunks ∧ r.fmt = true ∧ r.fmtKeys = true ∧ r.ses = 1)) :=
  ⟨⟨{ st .active with cfe := { assocs := [(1, some { vss := 1 })] }, cat := { vss := [(1, some { state := .active })] } }, ⟨.assoc 1, 0⟩, 1, 4, { vss := 1 }, { state := .active }, by first | decide | decide +kernel⟩,
   ⟨{ st .active with cfe := { assocs := [(1, some { vss := 1 })] }, cat := { vss := [(1, some { state := .sanitizing })] } }, ⟨.assoc 1, 0⟩, 1, 2, { vss := 1 }, { state := .sanitizing }, by first | decide | decide +kernel⟩,
   ⟨{ st .active with cfe := { assocs := [(1, some { vss := 1 })] }, cat := { vss := [(1, some { state := .active })], ns := [(5, some { vss := 1, nsid := 3, attached := true })] } }, ⟨.assoc 1, 0⟩, 1, 3, 0, 5, { vss := 1 }, { vss := 1, nsid := 3, attached := true }, { state := .active }, by first | decide | decide +kernel⟩,
   ⟨{ cat := { vss := [(1, some { state := .sanitizing, sanAct := 2, sanTotal := 1 })] } }, 1, { state := .sanitizing, sanAct := 2, sanTotal := 1 }, by first | decide | decide +kernel⟩,
   ⟨{ tdm := { grp0 := { owned := true } }, cat := { vss := [(1, some { state := .sanitizing, sanKeys := true, sanAct := 2 })], ns := [(5, some { vss := 1, chunks := 1 })] } }, 5, 0, { vss := 1, chunks := 1 }, { state := .sanitizing, sanKeys := true, sanAct := 2 }, by first | decide | decide +kernel⟩,
   ⟨{ cat := { ns := [(5, some { vss := 1, fmt := true })] } }, 5, { vss := 1, fmt := true }, by first | decide | decide +kernel⟩,
   ⟨hostSt, ⟨.assoc 1, 0⟩, 1, 1, {}, by first | decide | decide +kernel⟩,
   ⟨hostSt, ⟨.assoc 1, 0⟩, 1, 0, 0, 0, {}, {}, by first | decide | decide +kernel⟩,
   ⟨{ cat := { vss := [(1, some { state := .sanitizing, sanAct := 4, sanTotal := 1 })] } }, 1, { state := .sanitizing, sanAct := 4, sanTotal := 1 }, by first | decide | decide +kernel⟩,
   ⟨{ tdm := { grp0 := { owned := true } }, cat := { ns := [(5, some { vss := 1, chunks := 1, fmt := true, fmtKeys := true, ses := 1 })] } }, 5, 0, { vss := 1, chunks := 1, fmt := true, fmtKeys := true, ses := 1 }, by first | decide | decide +kernel⟩⟩

set_option maxRecDepth 20000 in
theorem premises_NvmCommands :
    (∃ s : State, ∃ cls : Nat, ∃ a : Nat, ∃ qid : Nat, ∃ h : HostCmd, ∃ x : Assoc, ∃ i : IoQ, ∃ st : Status, (cls < 6 ∧ HostIo s h a qid x i) ∧ (admitCheck s x.vss cls (1024 * i.icd) h false = .bad st))
    ∧ (∃ s : State, ∃ cls : Nat, ∃ a : Nat, ∃ qid : Nat, ∃ h : HostCmd, ∃ x : Assoc, ∃ i : IoQ, (cls < 6 ∧ HostIo s h a qid x i) ∧ (admitCheck s x.vss cls (1024 * i.icd) h false = .accept))
    ∧ (∃ s : State, ∃ cls : Nat, ∃ a : Nat, ∃ qid : Nat, ∃ h : HostCmd, ∃ x : Assoc, ∃ i : IoQ, (cls < 6 ∧ HostIo s h a qid x i) ∧ (admitCheck s x.vss cls (1024 * i.icd) h false = .refuse))
    ∧ (∃ s : State, ∃ cls : Nat, ∃ a : Nat, ∃ qid : Nat, ∃ h : HostCmd, (cls < 6 ∧ s.ptb.available = false ∧ h.c.org = .ioq a qid))
    ∧ (∃ s : State, ∃ cls : Nat, ∃ n : Nat, ∃ h : HostCmd, ∃ x : Assoc, (cls < 6 ∧ s.ptb.available = false ∧ h.c.org = .fn n ∧ frontRuns s = true ∧ assocOf s (65536 + n) = some x))
    ∧ (∃ s : State, ∃ v : Nat, (frontRuns s = true))
    ∧ (∃ s : State, (dataRuns s = true)) :=
  ⟨⟨ioMsgSt, 0, 1, 1, { c := ⟨.ioq 1 1, 0⟩, sglOk := false }, ioAssoc, { qid := 1, qp := 9, size := 16, auth := false }, .sglTypeInvalid, by first | decide | decide +kernel⟩,
   ⟨ioMsgSt, 0, 1, 1, { c := ⟨.ioq 1 1, 0⟩, len := 4096 }, ioAssoc, { qid := 1, qp := 9, size := 16, auth := false }, by first | decide | decide +kernel⟩,
   ⟨{ ioMsgSt with cfe := { ioSt.cfe with rt := [(1, { stopped := true })] } }, 0, 1, 1, { c := ⟨.ioq 1 1, 0⟩, len := 4096 }, ioAssoc, { qid := 1, qp := 9, size := 16, auth := false }, by first | decide | decide +kernel⟩,
   ⟨ioSt, 5, 1, 1, { c := ⟨.ioq 1 1, 0⟩ }, by first | decide | decide +kernel⟩,
   ⟨{ st .active with cfe := { assocs := [(65537, some {})] } }, 5, 1, { c := ⟨.fn 1, 0⟩ }, {}, by first | decide | decide +kernel⟩,
   ⟨st .active, 1, by first | decide | decide +kernel⟩,
   ⟨st .active, by first | decide | decide +kernel⟩⟩

set_option maxRecDepth 20000 in
theorem premises_VirtualDeviceQueues :
    (∃ s : State, ∃ c : Cid, ∃ d : List Byte, ∃ a : Nat, ∃ n : Nat, ∃ x : Assoc, (HostAdmin s c a x) ∧ (vdqDescBad d = false ∧ vdqQp s (leAt d 32 4) = some n ∧ (qpOf s n).assoc = some a) ∧ ((tqOf s (16 * n + leAt d 35 1)).state = .free) ∧ (tqCount s (fun _ => true) < tqMax s ∧ tqCount s (fun t => t.vss == x.vss) < tqQuota s x.vss))
    ∧ (∃ s : State, ∃ c : Cid, ∃ d : List Byte, ∃ a : Nat, ∃ x : Assoc, (HostAdmin s c a x))
    ∧ (∃ s : State, ∃ c : Cid, ∃ w : Nat, ∃ a : Nat, ∃ k : Nat, ∃ x : Assoc, (HostAdmin s c a x) ∧ (vdqNamed s w = some k))
    ∧ (∃ s : State, ∃ c : Cid, ∃ d : List Byte, ∃ a : Nat, ∃ n : Nat, ∃ w : Nat, ∃ x : Assoc, (HostAdmin s c a x) ∧ (vdqDescBad d = false ∧ vdqQp s (leAt d 32 4) = some n))
    ∧ (∃ s : State, ∃ t : State, ∃ q : Nat, ∃ imm : Nat, ∃ k : Nat, (q < 65536 ∧ frontRuns s = true ∧ delivered s q (· == imm) = true) ∧ (t = takeMsg s q none ∧ bellQueue t q imm = some k))
    ∧ (∃ s : State, ∃ t : State, ∃ q : Nat, ∃ imm : Nat, ∃ e : List Byte, ∃ bs : List Blk, ∃ rs : List DsmRange, (q < 65536 ∧ t = takeMsg s q none))
    ∧ (∃ s : State, ∃ q : Nat, ∃ imm : Nat, ∃ k : Nat, ∃ cls : Nat, ∃ m : InMsg, ∃ e : List Byte, ∃ bs : List Blk, ∃ rs : List DsmRange, ∃ g : HostCmd, (q < 65536 ∧ frontRuns s = true ∧ delivered s q (· == imm) = true ∧ headMsg (qpOf s q) = some m ∧ bellQueue s q imm = some k) ∧ (vssStopped s (tqOf s k).vss = false ∧ (tqOf s k).frozen = false) ∧ (g = { (sqEntry k e).2 with inl := true, push := some (field imm 16 6), payload := bs, ranges := rs }))
    ∧ (∃ s : State, ∃ q : Nat, ∃ imm : Nat, ∃ k : Nat, ∃ m : InMsg, ∃ e : List Byte, ∃ bs : List Blk, ∃ rs : List DsmRange, ∃ g : HostCmd, ∃ b : State, (q < 65536 ∧ frontRuns s = true ∧ delivered s q (· == imm) = true ∧ headMsg (qpOf s q) = some m ∧ bellQueue s q imm = some k) ∧ (g = { (sqEntry k e).2 with inl := true, push := some (field imm 16 6), payload := bs, ranges := rs }) ∧ (b = setTq s k { tqOf s k with busy := (tqOf s k).busy ++ [field imm 16 6] }))
    ∧ (∃ s : State, ∃ t : State, ∃ u : State, ∃ v : Nat, ∃ k : Nat, ∃ n : Nat, (frontRuns s = true) ∧ (drrPick s 0 (fun v => if (readyTqs s v).isEmpty then none else some 1) (drrFuel s 0) = (t, some v)) ∧ (nextTq t v = some k ∧ u = { t with cfe := { t.cfe with rr := tput t.cfe.rr 0 v (k + 1) } } ∧ n = fetchCount u (tqOf t k)))
    ∧ (∃ s : State, ∃ q : Nat, ∃ i : Nat, ∃ tag : Nat, ∃ es : List (List Byte), ∃ l : List (Nat × HostCmd), ∃ hd : Nat, (q < 65536 ∧ i < 16) ∧ (l = (es.take (tqOf s (16 * q + i)).fetch).map (sqEntry (16 * q + i)) ∧ hd = ((tqOf s (16 * q + i)).head + l.length) % sqSize (tqOf s (16 * q + i)).desc))
    ∧ (∃ s : State, ∃ q : Nat, ∃ i : Nat, (q < 65536 ∧ i < 16))
    ∧ (∃ s : State, ∃ q : Nat, ∃ i : Nat, ∃ l : List Msg, (q < 65536 ∧ i < 16) ∧ (l = (qpOf (setTq s (16 * q + i) { tqOf s (16 * q + i) with since := 0 }) (tqQp (16 * q + i))).sendq))
    ∧ (∃ s : State, ∃ q : Nat, ∃ i : Nat, (q < 65536 ∧ i < 16)) :=
  ⟨⟨vdqSt0, ⟨.assoc 1, 0⟩, vdqDesc vdqSt0, 1, 9, { vss := 1 }, by refine ⟨by decide, ⟨vdqDesc_good _, ?_, by decide⟩, rfl, by decide⟩; rw [vdqDesc_word]; exact vdqQp_nine _ rfl⟩,
   ⟨hostSt, ⟨.assoc 1, 0⟩, [], 1, {}, by first | decide | decide +kernel⟩,
   ⟨vdqSt, ⟨.assoc 1, 0⟩, 9 + 2 ^ 16 * qpnGen vdqSt 9 + 2 ^ 24 * 2, 1, 146, { vss := 1 }, by refine ⟨by decide, ?_⟩; exact vdqNamed_nine _ rfl⟩,
   ⟨vdqSt0, ⟨.assoc 1, 0⟩, vdqDesc vdqSt0, 1, 9, 0, { vss := 1 }, by refine ⟨by decide, vdqDesc_good _, ?_⟩; rw [vdqDesc_word]; exact vdqQp_nine _ rfl⟩,
   ⟨bellSt, takeMsg bellSt 9 none, 9, 2 ^ 27, 146, by first | decide | decide +kernel⟩,
   ⟨st .active, takeMsg (st .active) 9 none, 9, 0, [], [], [], by first | decide | decide +kernel⟩,
   ⟨bellSt, 9, 2 ^ 27, 146, 0, { psn := 0, send := false, len := 4160, imm := some (2 ^ 27), whole := true }, readEntry, [], [], { (sqEntry 146 readEntry).2 with inl := true, push := some 0, payload := [], ranges := [] }, by first | decide | decide +kernel⟩,
   ⟨bellSt, 9, 2 ^ 27, 146, { psn := 0, send := false, len := 4160, imm := some (2 ^ 27), whole := true }, readEntry, [], [], { (sqEntry 146 readEntry).2 with inl := true, push := some 0, payload := [], ranges := [] }, setTq bellSt 146 { tqOf bellSt 146 with busy := [0] }, by first | decide | decide +kernel⟩,
   ⟨fetchSt, (drrPick fetchSt 0 (fun v => if (readyTqs fetchSt v).isEmpty then none else some 1) (drrFuel fetchSt 0)).1, { (drrPick fetchSt 0 (fun v => if (readyTqs fetchSt v).isEmpty then none else some 1) (drrFuel fetchSt 0)).1 with cfe := { (drrPick fetchSt 0 (fun v => if (readyTqs fetchSt v).isEmpty then none else some 1) (drrFuel fetchSt 0)).1.cfe with rr := tput (drrPick fetchSt 0 (fun v => if (readyTqs fetchSt v).isEmpty then none else some 1) (drrFuel fetchSt 0)).1.cfe.rr 0 1 147 } }, 1, 146, 2, by first | decide | decide +kernel⟩,
   ⟨{ st .active with cfe := { tqs := [(146, { state := .active, fetch := 1 })] } }, 9, 2, 0, [], [], 0, by first | decide | decide +kernel⟩,
   ⟨st .active, 9, 2, by first | decide | decide +kernel⟩,
   ⟨{ st .active with cfe := { tqs := [(146, { state := .active, since := 1 })] } }, 9, 2, [], by first | decide | decide +kernel⟩,
   ⟨{ st .active with cfe := { tqs := [(146, { state := .deleting })] } }, 9, 2, by first | decide | decide +kernel⟩⟩

set_option maxRecDepth 20000 in
theorem premises_ManagementProof :
    (∃ s : State, ∃ c : Cid, ∃ a : Nat, ∃ x : Assoc, (dataRuns s = true ∧ c.org = .assoc a ∧ a < 65536 ∧ assocOf s a = some x ∧ cidBusy s c = false ∧ x.auth = false ∧ x.mgmt = true ∧ capBad x c.cid = none))
    ∧ (∃ s : State, ∃ c : Cid, ∃ a : Nat, ∃ n : Nat, ∃ k : Nat, ∃ x : Assoc, ∃ e : List Byte, ∃ d : List Byte, (dataRuns s = true ∧ c.org = .assoc a ∧ a < 65536 ∧ assocOf s a = some x ∧ cidBusy s c = false ∧ x.auth = false ∧ x.mgmt = true ∧ capBad x c.cid = none) ∧ (x.nonce = some n ∧ anchorEntry s k = some e ∧ d.length = 3376))
    ∧ (∃ s : State, ∃ u : State, ∃ c : Cid, ∃ a : Nat, ∃ k : Nat, ∃ x : Assoc, ∃ d : List Byte, ∃ v : AuthVerdict, (dataRuns s = true ∧ c.org = .assoc a ∧ a < 65536 ∧ assocOf s a = some x ∧ cidBusy s c = false ∧ x.auth = false ∧ x.mgmt = true ∧ capBad x c.cid = none) ∧ (x.nonce = none ∨ anchorRoles s k = none ∨ d.length ≠ 3376 ∨ v.ed = false ∨ v.ml = false) ∧ (u = (match x.nonce, anchorEntry s k with | some n, some e => checkProof s e (manageMessage n a x.host) d | _, _ => s)))
    ∧ (∃ s : State, ∃ c : Cid, ∃ k : Nat, ∃ d : List Byte, ∃ v : AuthVerdict, (dataRuns s = true)) :=
  ⟨⟨{ st .active with cfe := { assocs := [(1, some { mgmt := true })] } }, ⟨.assoc 1, 0⟩, 1, { mgmt := true }, by first | decide | decide +kernel⟩,
   ⟨{ anchorSt with cfe := { assocs := [(1, some { mgmt := true, nonce := some 7 })] } }, ⟨.assoc 1, 0⟩, 1, 7, 0, { mgmt := true, nonce := some 7 }, [0, 7] ++ List.replicate 1998 0, List.replicate 3376 0, by refine ⟨by decide, rfl, rfl, List.length_replicate⟩⟩,
   ⟨{ st .active with cfe := { assocs := [(1, some { mgmt := true, proofs := 2 })] } }, { st .active with cfe := { assocs := [(1, some { mgmt := true, proofs := 2 })] } }, ⟨.assoc 1, 0⟩, 1, 0, { mgmt := true, proofs := 2 }, [], ⟨true, false⟩, by first | decide | decide +kernel⟩,
   ⟨st .active, ⟨.pf0, 0⟩, 0, [], ⟨false, false⟩, by first | decide | decide +kernel⟩⟩

set_option maxRecDepth 20000 in
theorem premises_VssCommands :
    (∃ s : State, ∃ c : Cid, ∃ d : List Byte, (Manager s c 0) ∧ (d.length = 256 ∧ shareBad d = false ∧ nqnBad ((d.drop 32).take 224) = false))
    ∧ (∃ s : State, ∃ c : Cid, ∃ d : List Byte, (Manager s c 0) ∧ (d.length = 32 ∧ shareBad d = false))
    ∧ (∃ s : State, ∃ c : Cid, ∃ w : Nat, ∃ r : VssRec, (Manager s c 0))
    ∧ (∃ s : State, ∃ c : Cid, ∃ d : List Byte, ∃ i : Nat, (Manager s c 0) ∧ (hostBad d = false ∧ (vssOf s (leAt d 0 2)).isSome = true ∧ hostIndex s (leAt d 0 2) (cString ((d.drop 64).take 256)) = some i))
    ∧ (∃ s : State, ∃ c : Cid, ∃ nsid : Nat, ∃ n : Nat, ∃ r : NsRec, (Manager s c 0) ∧ (nsNamed s nsid = some (n, r)))
    ∧ (∃ s : State, ∃ c : Cid, ∃ nsid : Nat, ∃ n : Nat, ∃ r : NsRec, (Manager s c 0) ∧ (nsNamed s nsid = some (n, r)))
    ∧ (∃ s : State, ∃ u : State, ∃ c : Cid, ∃ d : List Byte, ∃ y : VssRec, ∃ n : Nat, ∃ first : Nat, ∃ r : NsRec, (Manager s c 0) ∧ (nsBad s d = false ∧ bitAt (leAt d 7 1) 1 = false ∧ vssOf s (leAt d 0 2) = some y ∧ y.state = .active) ∧ (freeNsNumber s = some n ∧ freeRun s ((leAt d 8 8 + 65535) / 65536) = some first ∧ catWay s = .alone ∧ s.tdm.linkUp = false) ∧ (r = { vss := leAt d 0 2, nsid := leAt d 2 2, group := leAt d 4 1, lbaf := leAt d 5 1, pi := leAt d 6 1, mirror := bitAt (leAt d 7 1) 0, fed := bitAt (leAt d 7 1) 1, nsze := leAt d 8 8, profile := leAt d 16 2, first := first, chunks := (leAt d 8 8 + 65535) / 65536 }) ∧ (allocChunks s n r (profileK s (leAt d 16 2)) (profileM s (leAt d 16 2)) (List.range ((leAt d 8 8 + 65535) / 65536)) = some u ∧ u.tdm.linkUp = false))
    ∧ (∃ s : State, ∃ c : Cid, ∃ n : Nat, (Manager s c 1))
    ∧ (∃ s : State, ∃ c : Cid, ∃ w : Nat, ∃ y : VssRec, ∃ x : Assoc, (Manager s c 0) ∧ (vssOf s (field w 0 12) = some y ∧ assocOf s (field w 16 16) = some x ∧ x.disc = false ∧ field w 16 16 < 65536))
    ∧ (∃ s : State, ∃ c : Cid, ∃ d : List Byte, (Manager s c 0))
    ∧ (∃ s : State, ∃ c : Cid, ∃ d : List Byte, ∃ l : List Nat, (Manager s c 0) ∧ (hostBad d = false ∧ l = (pendEdits s).filterMap fun e => match e with | .host i (some _) => some i | _ => none))
    ∧ (∃ s : State, ∃ c : Cid, ∃ d : List Byte, (Manager s c 0) ∧ (nsBad s d = false))
    ∧ (∃ s : State, ∃ c : Cid, ∃ nsid : Nat, ∃ w : Nat, ∃ n : Nat, ∃ k : Nat, ∃ cs : List Nat, (mgmtFull s = true))
    ∧ (∃ s : State, ∃ c : Cid, ∃ d : List Byte, ∃ w : Nat, ∃ n : Nat, ∃ k : Nat, ∃ cs : List Nat, ∃ i : Instr, (i ∈ [Instr.vssCreate c d, .vssChangeShare c d, .vssReset c w, .vssRemove c w, .hostEntrySet c d, .namespaceCreate c d, .namespaceDelete c w, .namespaceAttach c w cs, .namespaceDetach c w cs, .virtualControllerReset c w, .catalogRead c w n k])) :=
  ⟨⟨st .active, ⟨.pf0, 0⟩, shareDesc ++ [65] ++ List.replicate 223 0, by first | decide | decide +kernel⟩,
   ⟨st .active, ⟨.pf0, 0⟩, shareDesc, by first | decide | decide +kernel⟩,
   ⟨ioSt, ⟨.pf0, 0⟩, 1, {}, by first | decide | decide +kernel⟩,
   ⟨{ ioSt with cat := { vss := oneVss.vss, hosts := [(256, some { vss := 1, nqn := [65] })] } }, ⟨.pf0, 0⟩, [1, 0, 2] ++ List.replicate 61 0 ++ [65] ++ List.replicate 319 0, 256, by first | decide | decide +kernel⟩,
   ⟨ioSt, ⟨.pf0, 0⟩, 6, 5, { vss := 1, nsid := 1, attached := true, nsze := 64 }, by first | decide | decide +kernel⟩,
   ⟨ioSt, ⟨.pf0, 0⟩, 6, 5, { vss := 1, nsid := 1, attached := true, nsze := 64 }, by first | decide | decide +kernel⟩,
   ⟨nsSt, (allocChunks nsSt 0 nsNew 1 0 [0]).getD {}, ⟨.pf0, 0⟩, nsDescB, { state := .active, slots := 8, cocMib := 8, tqQuota := 4, quantum := 4 }, 0, 0, nsNew, by first | decide | decide +kernel⟩,
   ⟨st .active, ⟨.pf0, 0⟩, 1, by first | decide | decide +kernel⟩,
   ⟨ioSt, ⟨.pf0, 0⟩, 0x10001, { state := .active, slots := 8, cocMib := 8, tqQuota := 4, quantum := 4 }, ioAssoc, by first | decide | decide +kernel⟩,
   ⟨st .active, ⟨.pf0, 0⟩, [], by first | decide | decide +kernel⟩,
   ⟨ioSt, ⟨.pf0, 0⟩, [1, 0, 1] ++ List.replicate 61 0 ++ [65] ++ List.replicate 319 0, [], by first | decide | decide +kernel⟩,
   ⟨nsSt, ⟨.pf0, 0⟩, nsDescB, by first | decide | decide +kernel⟩,
   ⟨ioSt, ⟨.pf0, 0⟩, 6, 1, 1, 0, [], by first | decide | decide +kernel⟩,
   ⟨st .safe, ⟨.pf0, 0⟩, [], 1, 0, 0, [], .vssReset ⟨.pf0, 0⟩ 1, by first | decide | decide +kernel⟩⟩

set_option maxRecDepth 20000 in
theorem premises_TenantQueueMoves :
    (∃ s : State, ∃ c : Cid, ∃ w : Nat, ∃ l : Nat, ∃ k : Nat, (Manager s c 0) ∧ (1 ≤ l ∧ l ≤ 10000 ∧ tqNamed s w = some k))
    ∧ (∃ s : State, ∃ q : Nat, ∃ i : Nat, ∃ c : Cid, (q < 65536 ∧ i < 16 ∧ (tqOf s (16 * q + i)).freezer = some c))
    ∧ (∃ s : State, ∃ c : Cid, ∃ w : Nat, ∃ off : Nat, ∃ len : Nat, ∃ k : Nat, (Manager s c 0) ∧ (tqNamed s w = some k))
    ∧ (∃ s : State, ∃ c : Cid, ∃ data : List Byte, ∃ off : Nat, (Manager s c 0) ∧ (data.length ≤ 2 ^ 20 ∧ off ≠ 0 ∧ s.cfe.restore = []))
    ∧ (∃ s : State, ∃ c : Cid, ∃ data : List Byte, (Manager s c 0) ∧ (data.length ≤ 2 ^ 20 ∧ s.cfe.restore = []))
    ∧ (∃ s : State, ∃ c : Cid, ∃ w : Nat, ∃ k : Nat, (Manager s c 0) ∧ (tqNamed s w = some k))
    ∧ (∃ s : State, ∃ c : Cid, ∃ w : Nat, ∃ a : Nat, ∃ b : Nat, ∃ p : Nat, (Manager s c 0))
    ∧ (∃ s : State, ∃ c : Cid, ∃ n : Nat, ∃ w : Nat, (Manager s c 0) ∧ (1 ≤ n ∧ n ≤ 64))
    ∧ (∃ s : State, ∃ c : Cid, ∃ w : Nat, ∃ l : Nat, ∃ off : Nat, ∃ len : Nat, (Manager s c 0))
    ∧ (∃ s : State, ∃ c : Cid, ∃ data : List Byte, ∃ off : Nat, ∃ last : Bool, (Manager s c 0) ∧ (2 ^ 20 < data.length))
    ∧ (∃ s : State, ∃ u : State, ∃ c : Cid, ∃ w : Nat, ∃ a : Nat, ∃ p : Nat, (Manager s c 0) ∧ (1 ≤ field w 0 7 ∧ field w 0 7 ≤ 64 ∧ bitAt w 8 = true ∧ a < 2 ^ 64 ∧ p < 2 ^ 32) ∧ (u = setDlog s (field w 0 7) { dlogOf s (field w 0 7) with page2m := bitAt w 9, base := a, pages := p, overflow := false }))
    ∧ (∃ s : State, ∃ c : Cid, ∃ n : Nat, ∃ f : Nat, ∃ k : Nat, (Manager s c 0))
    ∧ (∃ s : State, ∃ c : Cid, ∃ w : Nat, ∃ l : Nat, ∃ m : Nat, ∃ n : Nat, ∃ b : Bool, ∃ d : List Byte, ∃ i : Instr, (i ∈ [Instr.tenantQueueFreeze c w l, .tenantQueueSave c w l m, .tenantQueueRestore c w b d, .tenantQueueThaw c w, .dirtyLogControl c w l m n, .dirtyLogHarvest c w l m])) :=
  ⟨⟨vdqSt, ⟨.pf0, 0⟩, 9 + 2 ^ 16 * qpnGen vdqSt 9 + 2 ^ 24 * 2, 10000, 146, by refine ⟨by decide, by decide, by decide, ?_⟩; exact tqNamed_nine _ rfl⟩,
   ⟨{ vdqSt with cfe := { tqs := [(146, { state := .paused, frozen := true, freezer := some ⟨.pf0, 0⟩ })] } }, 9, 2, ⟨.pf0, 0⟩, by first | decide | decide +kernel⟩,
   ⟨vdqSt, ⟨.pf0, 0⟩, 9 + 2 ^ 16 * qpnGen vdqSt 9 + 2 ^ 24 * 2, 0, 64, 146, by refine ⟨by decide, ?_⟩; exact tqNamed_nine _ rfl⟩,
   ⟨st .active, ⟨.pf0, 0⟩, [1], 64, by first | decide | decide +kernel⟩,
   ⟨st .active, ⟨.pf0, 0⟩, [1], by first | decide | decide +kernel⟩,
   ⟨vdqSt, ⟨.pf0, 0⟩, 9 + 2 ^ 16 * qpnGen vdqSt 9 + 2 ^ 24 * 2, 146, by refine ⟨by decide, ?_⟩; exact tqNamed_nine _ rfl⟩,
   ⟨st .active, ⟨.pf0, 0⟩, 64, 0, 0, 0, by first | decide | decide +kernel⟩,
   ⟨st .active, ⟨.pf0, 0⟩, 64, 3, by first | decide | decide +kernel⟩,
   ⟨vdqSt, ⟨.pf0, 0⟩, 0, 0, 0, 0, by first | decide | decide +kernel⟩,
   ⟨st .active, ⟨.pf0, 0⟩, List.replicate 1048577 0, 0, true, by refine ⟨by decide, ?_⟩; rw [List.length_replicate]; decide⟩,
   ⟨ioSt, setDlog ioSt 1 { dlogOf ioSt 1 with pages := 1 }, ⟨.pf0, 0⟩, 0x10101, 0, 1, by first | decide | decide +kernel⟩,
   ⟨st .active, ⟨.pf0, 0⟩, 1, 0, 2, by first | decide | decide +kernel⟩,
   ⟨st .safe, ⟨.pf0, 0⟩, 0, 0, 0, 0, true, [], .tenantQueueThaw ⟨.pf0, 0⟩ 0, by first | decide | decide +kernel⟩⟩

set_option maxRecDepth 20000 in
theorem premises_CatalogBetweenControllers :
    (∃ s : State, ∃ id : Nat, ∃ p : CatPend, (catPending s id = some p ∧ p.fwd = false))
    ∧ (∃ s : State, ∃ id : Nat, ∃ p : CatPend, ∃ c : Cid, (catPending s id = some p ∧ p.who = some c))
    ∧ (∃ s : State, ∃ id : Nat, (catPending s id = none))
    ∧ (∃ s : State, ∃ t : State, ∃ k : CatCopy, (s.tdm.linkUp = true) ∧ (t = if min s.cat.sync k.cat.sync < s.cat.gen ∧ (¬ min s.cat.sync k.cat.sync < k.cat.gen ∨ isSideA s = true) then writeEvent s { num := 0x0512, detail := [Config.code 0x0512 0, s.cat.gen, k.cat.gen] } else if ¬ min s.cat.sync k.cat.sync < k.cat.gen then s else if min s.cat.sync k.cat.sync < s.cat.gen then writeEvent (writeEvent (takeCopy s k) { num := 0x0512, detail := [Config.code 0x0512 1, s.cat.gen, k.cat.gen] }) { num := 0x0513, detail := [s.cat.gen, k.cat.gen] } else writeEvent (takeCopy s k) { num := 0x0512, detail := [Config.code 0x0512 1, s.cat.gen, k.cat.gen] }))
    ∧ (∃ s : State, ∃ id : Nat, ∃ es : List CatEdit, ∃ t : State, (s.tdm.linkUp = true ∧ t = catFollowAll s (catApply s es) es))
    ∧ (∃ s : State, ∃ v : Nat, ∃ r : VssRec, (vssOf s v = some r)) :=
  ⟨⟨{ st .active with cfe := { pend := [⟨4, [], none, 0, 0, 0, false⟩] } }, 4, ⟨4, [], none, 0, 0, 0, false⟩, by first | decide | decide +kernel⟩,
   ⟨{ st .active with cfe := { pend := [⟨4, [], some ⟨.pf0, 0⟩, 0, 0, 0, false⟩] } }, 4, ⟨4, [], some ⟨.pf0, 0⟩, 0, 0, 0, false⟩, ⟨.pf0, 0⟩, by first | decide | decide +kernel⟩,
   ⟨st .active, 4, by first | decide | decide +kernel⟩,
   ⟨{ st .active with tdm := { linkUp := true } }, { st .active with tdm := { linkUp := true } }, ⟨{}, []⟩, by first | decide | decide +kernel⟩,
   ⟨{ st .active with tdm := { linkUp := true } }, 4, [], catApply { st .active with tdm := { linkUp := true } } [], by first | decide | decide +kernel⟩,
   ⟨{ st .active with cat := { vss := [(1, some { state := .removing })] } }, 1, { state := .removing }, by first | decide | decide +kernel⟩⟩

set_option maxRecDepth 20000 in
theorem premises_StepControlFlow :
    (∃ s : State, ∃ n : Nat, ∃ w : StepW, ∃ c : Ctx, (AtStep s n c 0x00 w))
    ∧ (∃ s : State, ∃ n : Nat, ∃ w : StepW, ∃ c : Ctx, (AtStep s n c 0x02 w))
    ∧ (∃ s : State, ∃ n : Nat, ∃ w : StepW, ∃ c : Ctx, (AtStep s n c 0x03 w))
    ∧ (∃ s : State, ∃ n : Nat, ∃ w : StepW, ∃ c : Ctx, (AtStep s n c 0x04 w))
    ∧ (∃ s : State, ∃ n : Nat, ∃ w : StepW, ∃ c : Ctx, ∃ l : Nat, ∃ k : Nat, ∃ r : List (Nat × Nat), (AtStep s n c 0x05 w))
    ∧ (∃ s : State, ∃ n : Nat, ∃ w : StepW, ∃ c : Ctx, (AtStep s n c 0x01 w) ∧ (c.op = none ∧ c.done = true ∧ c.lock = .none_))
    ∧ (∃ s : State, ∃ n : Nat, ∃ w : StepW, ∃ c : Ctx, (AtStep s n c 0x06 w))
    ∧ (∃ s : State, ∃ n : Nat, ∃ w : StepW, ∃ c : Ctx, (AtStep s n c 0x07 w))
    ∧ (∃ s : State, ∃ n : Nat, ∃ w : StepW, ∃ c : Ctx, (AtStep s n c 0x01 w)) :=
  ⟨⟨seqSt (thr) 0x00 {}, 0, {}, thr, by first | decide | decide +kernel⟩,
   ⟨seqSt (thr) 0x02 {}, 0, {}, thr, by first | decide | decide +kernel⟩,
   ⟨seqSt (thr) 0x03 {}, 0, {}, thr, by first | decide | decide +kernel⟩,
   ⟨seqSt (thr) 0x04 {}, 0, {}, thr, by first | decide | decide +kernel⟩,
   ⟨seqSt (thr) 0x05 {}, 0, {}, thr, 0, 0, [], by first | decide | decide +kernel⟩,
   ⟨seqSt ({ thr with done := true }) 0x01 {}, 0, {}, { thr with done := true }, by first | decide | decide +kernel⟩,
   ⟨seqSt (thr) 0x06 {}, 0, {}, thr, by first | decide | decide +kernel⟩,
   ⟨seqSt (thr) 0x07 {}, 0, {}, thr, by first | decide | decide +kernel⟩,
   ⟨seqSt thr 0x01 {}, 0, {}, thr, by first | decide | decide +kernel⟩⟩

set_option maxRecDepth 20000 in
theorem premises_StepArithmetic :
    (∃ s : State, ∃ n : Nat, ∃ w : StepW, ∃ c : Ctx, (AtStep s n c 0x10 w))
    ∧ (∃ s : State, ∃ n : Nat, ∃ w : StepW, ∃ c : Ctx, (AtStep s n c 0x11 w))
    ∧ (∃ s : State, ∃ n : Nat, ∃ w : StepW, ∃ c : Ctx, (AtStep s n c 0x12 w))
    ∧ (∃ s : State, ∃ n : Nat, ∃ w : StepW, ∃ c : Ctx, (AtStep s n c 0x13 w))
    ∧ (∃ s : State, ∃ n : Nat, ∃ w : StepW, ∃ c : Ctx, (AtStep s n c 0x14 w))
    ∧ (∃ s : State, ∃ n : Nat, ∃ w : StepW, ∃ c : Ctx, (AtStep s n c 0x15 w))
    ∧ (∃ s : State, ∃ n : Nat, ∃ w : StepW, ∃ c : Ctx, (AtStep s n c 0x16 w))
    ∧ (∃ s : State, ∃ n : Nat, ∃ w : StepW, ∃ c : Ctx, (AtStep s n c 0x17 w))
    ∧ (∃ s : State, ∃ n : Nat, ∃ w : StepW, ∃ c : Ctx, (AtStep s n c 0x18 w))
    ∧ (∃ s : State, ∃ n : Nat, ∃ w : StepW, ∃ c : Ctx, (AtStep s n c 0x19 w))
    ∧ (∃ s : State, ∃ n : Nat, ∃ w : StepW, ∃ c : Ctx, (AtStep s n c 0x1A w)) :=
  ⟨⟨seqSt ({ thr with regs := [(14, 3), (15, 2 ^ 64 - 1)] }) 0x10 { a := 15, b := 14 }, 0, { a := 15, b := 14 }, { thr with regs := [(14, 3), (15, 2 ^ 64 - 1)] }, by first | decide | decide +kernel⟩,
   ⟨seqSt ({ thr with regs := [(14, 3), (15, 2 ^ 64 - 1)] }) 0x11 { a := 15, b := 14 }, 0, { a := 15, b := 14 }, { thr with regs := [(14, 3), (15, 2 ^ 64 - 1)] }, by first | decide | decide +kernel⟩,
   ⟨seqSt ({ thr with regs := [(14, 3), (15, 2 ^ 64 - 1)] }) 0x12 { a := 15, b := 14 }, 0, { a := 15, b := 14 }, { thr with regs := [(14, 3), (15, 2 ^ 64 - 1)] }, by first | decide | decide +kernel⟩,
   ⟨seqSt ({ thr with regs := [(14, 3), (15, 2 ^ 64 - 1)] }) 0x13 { a := 15, b := 14 }, 0, { a := 15, b := 14 }, { thr with regs := [(14, 3), (15, 2 ^ 64 - 1)] }, by first | decide | decide +kernel⟩,
   ⟨seqSt ({ thr with regs := [(14, 3), (15, 2 ^ 64 - 1)] }) 0x14 { a := 15, b := 14 }, 0, { a := 15, b := 14 }, { thr with regs := [(14, 3), (15, 2 ^ 64 - 1)] }, by first | decide | decide +kernel⟩,
   ⟨seqSt ({ thr with regs := [(14, 3), (15, 2 ^ 64 - 1)] }) 0x15 { a := 15, b := 14 }, 0, { a := 15, b := 14 }, { thr with regs := [(14, 3), (15, 2 ^ 64 - 1)] }, by first | decide | decide +kernel⟩,
   ⟨seqSt ({ thr with regs := [(14, 3), (15, 2 ^ 64 - 1)] }) 0x16 { a := 15, b := 14 }, 0, { a := 15, b := 14 }, { thr with regs := [(14, 3), (15, 2 ^ 64 - 1)] }, by first | decide | decide +kernel⟩,
   ⟨seqSt ({ thr with regs := [(14, 3), (15, 2 ^ 64 - 1)] }) 0x17 { a := 15, b := 14 }, 0, { a := 15, b := 14 }, { thr with regs := [(14, 3), (15, 2 ^ 64 - 1)] }, by first | decide | decide +kernel⟩,
   ⟨seqSt ({ thr with regs := [(14, 3), (15, 2 ^ 64 - 1)] }) 0x18 { a := 15, b := 14 }, 0, { a := 15, b := 14 }, { thr with regs := [(14, 3), (15, 2 ^ 64 - 1)] }, by first | decide | decide +kernel⟩,
   ⟨seqSt ({ thr with regs := [(14, 3), (15, 2 ^ 64 - 1)] }) 0x19 { a := 15, b := 14 }, 0, { a := 15, b := 14 }, { thr with regs := [(14, 3), (15, 2 ^ 64 - 1)] }, by first | decide | decide +kernel⟩,
   ⟨seqSt (thr) 0x1A {}, 0, {}, thr, by first | decide | decide +kernel⟩⟩

set_option maxRecDepth 20000 in
theorem premises_StepOrder :
    (∃ s : State, ∃ n : Nat, ∃ w : StepW, ∃ c : Ctx, (AtStep s n c 0x20 w))
    ∧ (∃ s : State, ∃ n : Nat, ∃ w : StepW, ∃ c : Ctx, (AtStep s n c 0x21 w))
    ∧ (∃ s : State, ∃ n : Nat, ∃ w : StepW, ∃ c : Ctx, (AtStep s n c 0x22 w))
    ∧ (∃ s : State, ∃ n : Nat, ∃ w : StepW, ∃ c : Ctx, (AtStep s n c 0x23 w))
    ∧ (∃ s : State, ∃ n : Nat, ∃ w : StepW, ∃ c : Ctx, ∃ v : Nat, ∃ u : State, (AtStep s n c 0x24 w))
    ∧ (∃ s : State, ∃ n : Nat, ∃ w : StepW, ∃ c : Ctx, ∃ r : Nat × Nat × Nat, (AtStep s n c 0x25 w) ∧ (r = (creg c w.a % 8, creg c w.a / 8 % 2 ^ 29, creg c w.a / 2 ^ 32)))
    ∧ (∃ s : State, ∃ n : Nat, ∃ w : StepW, ∃ c : Ctx, ∃ k : Nat, ∃ pk : Bool, (AtStep s n c 0x70 w))
    ∧ (∃ s : State, ∃ n : Nat, ∃ w : StepW, ∃ c : Ctx, (AtStep s n c 0x71 w)) :=
  ⟨⟨seqSt (thr) 0x20 {}, 0, {}, thr, by first | decide | decide +kernel⟩,
   ⟨seqSt (thr) 0x21 {}, 0, {}, thr, by first | decide | decide +kernel⟩,
   ⟨seqSt (thr) 0x22 {}, 0, {}, thr, by first | decide | decide +kernel⟩,
   ⟨seqSt (thr) 0x23 {}, 0, {}, thr, by first | decide | decide +kernel⟩,
   ⟨seqSt (thr) 0x24 {}, 0, {}, thr, 0, {}, by first | decide | decide +kernel⟩,
   ⟨seqSt (thr) 0x25 {}, 0, {}, thr, (0, 0, 0), by first | decide | decide +kernel⟩,
   ⟨seqSt (thr) 0x70 {}, 0, {}, thr, 0, false, by first | decide | decide +kernel⟩,
   ⟨seqSt (thr) 0x71 {}, 0, {}, thr, by first | decide | decide +kernel⟩⟩

set_option maxRecDepth 20000 in
theorem premises_StepCocoon :
    (∃ s : State, ∃ n : Nat, ∃ w : StepW, ∃ c : Ctx, ∃ bad : Bool, (AtStep s n c 0x30 w))
    ∧ (∃ s : State, ∃ n : Nat, ∃ w : StepW, ∃ c : Ctx, ∃ tk : Bool, ∃ u : State, (AtStep s n c 0x31 w) ∧ ((stallAt (ticked s c n) 5 (((freePage (ticked s c n)).getD 0) % 2)) = (false, u)))
    ∧ (∃ s : State, ∃ n : Nat, ∃ w : StepW, ∃ c : Ctx, ∃ tk : Bool, ∃ u : State, ∃ v : State, ∃ h : HostCmd, ∃ r : NsRec, ∃ ps : List Nat, (AtStep s n c 0x31 w) ∧ ((stallAt (ticked s c n) 5 (((freePage (ticked s c n)).getD 0) % 2)) = (false, u) ∧ c.cmd = some h ∧ nsOf u c.ns = some r ∧ bitAt w.flags 1 = true) ∧ (stagePages u c.vss [(rangeRec r c.ns h.slba (h.nlb + 1) 2 0 0, {})] = some (v, ps)))
    ∧ (∃ s : State, ∃ n : Nat, ∃ c : Ctx, ∃ r : NsRec, ∃ tk : Bool, (tk = false))
    ∧ (∃ s : State, ∃ n : Nat, ∃ w : StepW, ∃ c : Ctx, ∃ tk : Bool, ∃ h : HostCmd, ∃ r : NsRec, ∃ k : Nat, ∃ t : State, ∃ u : State, ∃ v : State, ∃ ps : List Nat, (AtStep s n c 0x31 w) ∧ ((stallAt (ticked s c n) 5 (((freePage (ticked s c n)).getD 0) % 2)) = (false, t) ∧ c.cmd = some h ∧ nsOf t c.ns = some r ∧ bitAt w.flags 1 = false ∧ c.staging = false) ∧ (takeCtrs t c.ns (h.nlb + 1) = (.from_ k, u)) ∧ (stagePages u c.vss ((List.range (h.nlb + 1)).map fun i => (writeRec t r c.ns h.slba (h.nlb + 1) i k (bitAt w.flags 0) ((h.payload[i]?).getD {}), (h.payload[i]?).getD {})) = some (v, ps)))
    ∧ (∃ s : State, ∃ n : Nat, ∃ w : StepW, ∃ c : Ctx, ∃ r : NsRec, ∃ ps : List Nat, ∃ b : Nat, (AtStep s n c 0x32 w) ∧ ((ticked s c n).coc.protect = false ∧ nsOf (ticked s c n) c.ns = some r) ∧ (ps = c.pages.filter (fun p => (ownPg (ticked s c n) p).st == .staged) ∧ b = nextSeq (ticked s c n) r.group) ∧ (mirrorSend (ps.foldl (fun s p => commitPage s p b (mirrorOn (ticked s c n) r)) (setSeq (ticked s c n) r.group (b + ps.length))) r = false))
    ∧ (∃ s : State, ∃ n : Nat, ∃ w : StepW, ∃ c : Ctx, (AtStep s n c 0x32 w) ∧ ((ticked s c n).coc.protect = true))
    ∧ (∃ s : State, ∃ n : Nat, ∃ w : StepW, ∃ c : Ctx, (AtStep s n c 0x33 w) ∧ (cocoonPages (ticked s c n) c.ns (ctxBlocks c) = []) ∧ (((ctxBlocks c).map fun b => (cocoonBlk (ticked s c n) c.ns b).getD {}).any (fun b => b.st == 5) = false))
    ∧ (∃ s : State, ∃ n : Nat, ∃ w : StepW, ∃ c : Ctx, ∃ h : HostCmd, ∃ r : NsRec, ∃ v : State, ∃ ps : List Nat, (AtStep s n c 0x34 w) ∧ (c.cmd = some h ∧ nsOf (ticked s c n) c.ns = some r) ∧ (stagePages (ticked s c n) c.vss (h.ranges.zipIdx.map fun x => (rangeRec r c.ns x.1.lba x.1.len 3 (h.ranges.length - 1) x.2, {})) = some (v, ps)))
    ∧ (∃ s : State, ∃ n : Nat, ∃ w : StepW, ∃ c : Ctx, (AtStep s n c 0x38 w))
    ∧ (∃ s : State, ∃ n : Nat, ∃ w : StepW, ∃ c : Ctx, (AtStep s n c 0x32 w) ∧ ((ticked s c n).coc.protect = false ∧ nsOf (ticked s c n) c.ns = none))
    ∧ (∃ s : State, ∃ n : Nat, ∃ w : StepW, ∃ c : Ctx, ∃ m : Bool, ∃ p : Nat, ∃ l : List (Bool × Nat), (AtStep s n c 0x33 w) ∧ (cocoonPages (ticked s c n) c.ns (ctxBlocks c) = (m, p) :: l) ∧ (m = false ∧ (pageFault (ticked s c n) m p false).coc.fetches.contains (p, false) = true))
    ∧ (∃ s : State, ∃ n : Nat, ∃ w : StepW, ∃ c : Ctx, (AtStep s n c 0x34 w) ∧ ((ticked s c n).coc.rebuildIx = false ∧ (c.cmd = none ∨ nsOf (ticked s c n) c.ns = none))) :=
  ⟨⟨seqSt (thr) 0x30 {}, 0, {}, thr, false, by first | decide | decide +kernel⟩,
   ⟨stageSt, 0, {}, cmdThr, false, ticked stageSt cmdThr 0, by first | decide | decide +kernel⟩,
   ⟨seqSt cmdThr 0x31 { flags := 2 }, 0, { flags := 2 }, cmdThr, false, ticked (seqSt cmdThr 0x31 { flags := 2 }) cmdThr 0, ((stagePages (ticked (seqSt cmdThr 0x31 { flags := 2 }) cmdThr 0) 1 [(rangeRec { vss := 1, nsid := 1, attached := true, nsze := 64 } 5 0 1 2 0 0, {})]).getD ({}, [])).1, { c := ⟨.ioq 1 1, 0⟩ }, { vss := 1, nsid := 1, attached := true, nsze := 64 }, ((stagePages (ticked (seqSt cmdThr 0x31 { flags := 2 }) cmdThr 0) 1 [(rangeRec { vss := 1, nsid := 1, attached := true, nsze := 64 } 5 0 1 2 0 0, {})]).getD ({}, [])).2, by first | decide | decide +kernel⟩,
   ⟨{}, 0, {}, { vss := 1, nsid := 1, attached := true, nsze := 64 }, false, by first | decide | decide +kernel⟩,
   ⟨stageSt, 0, {}, cmdThr, true, { c := ⟨.ioq 1 1, 0⟩ }, { vss := 1, nsid := 1, attached := true, nsze := 64 }, 5, ticked stageSt cmdThr 0, stageU, stageV.1, stageV.2, by refine ⟨by decide, by decide, rfl, rfl⟩⟩,
   ⟨seqSt cmdThr 0x32 {}, 0, {}, cmdThr, { vss := 1, nsid := 1, attached := true, nsze := 64 }, [], 0, by first | decide | decide +kernel⟩,
   ⟨{ seqSt thr 0x32 {} with coc := { protect := true } }, 0, {}, thr, by first | decide | decide +kernel⟩,
   ⟨seqSt (thr) 0x33 {}, 0, {}, thr, by first | decide | decide +kernel⟩,
   ⟨seqSt cmdThr 0x34 {}, 0, {}, cmdThr, { c := ⟨.ioq 1 1, 0⟩ }, { vss := 1, nsid := 1, attached := true, nsze := 64 }, ticked (seqSt cmdThr 0x34 {}) cmdThr 0, [], by first | decide | decide +kernel⟩,
   ⟨seqSt (thr) 0x38 {}, 0, {}, thr, by first | decide | decide +kernel⟩,
   ⟨seqSt thr 0x32 {}, 0, {}, thr, by first | decide | decide +kernel⟩,
   ⟨{ readSt with coc := { readSt.coc with fetches := [(3, false)] } }, 0, {}, { cmdThr with regs := [(1, 1)] }, false, 3, [], by first | decide | decide +kernel⟩,
   ⟨seqSt thr 0x34 {}, 0, {}, thr, by first | decide | decide +kernel⟩⟩

set_option maxRecDepth 20000 in
theorem premises_StepHost :
    (∃ s : State, ∃ n : Nat, ∃ w : StepW, ∃ c : Ctx, (AtStep s n c 0x40 w) ∧ (ctxFn c = none))
    ∧ (∃ s : State, ∃ n : Nat, ∃ w : StepW, ∃ c : Ctx, (AtStep s n c 0x41 w) ∧ (ctxFn c = none))
    ∧ (∃ s : State, ∃ n : Nat, ∃ w : StepW, ∃ c : Ctx, ∃ k : Nat, (AtStep s n c 0x41 w) ∧ (ctxFn c = some k))
    ∧ (∃ s : State, ∃ n : Nat, ∃ w : StepW, ∃ c : Ctx, (AtStep s n c 0x42 w))
    ∧ (∃ s : State, ∃ n : Nat, ∃ w : StepW, ∃ c : Ctx, (AtStep s n c 0x43 w))
    ∧ (∃ s : State, ∃ n : Nat, ∃ w : StepW, ∃ c : Ctx, (AtStep s n c 0x44 w))
    ∧ (∃ s : State, ∃ n : Nat, ∃ w : StepW, ∃ c : Ctx, ∃ h : HostCmd, ∃ r : NsRec, ∃ bs : List BufBlk, (AtStep s n c 0x44 w) ∧ (c.cmd = some h ∧ nsOf (ticked s c n) c.ns = some r ∧ (c.opc = 1 → c.whole = true)) ∧ (bs = (if c.opc = 1 then h.payload.map (fun b => ({ st := 3, blk := b } : BufBlk)) else c.buf)))
    ∧ (∃ s : State, ∃ n : Nat, ∃ w : StepW, ∃ c : Ctx, ∃ k : Nat, (AtStep s n c 0x40 w) ∧ (ctxFn c = some k)) :=
  ⟨⟨seqSt (thr) 0x40 {}, 0, {}, thr, by first | decide | decide +kernel⟩,
   ⟨seqSt (thr) 0x41 {}, 0, {}, thr, by first | decide | decide +kernel⟩,
   ⟨seqSt { thr with cmd := some { c := ⟨.fn 3, 0⟩ } } 0x41 {}, 0, {}, { thr with cmd := some { c := ⟨.fn 3, 0⟩ } }, 3, by first | decide | decide +kernel⟩,
   ⟨seqSt (thr) 0x42 {}, 0, {}, thr, by first | decide | decide +kernel⟩,
   ⟨seqSt cmdThr 0x43 {}, 0, {}, cmdThr, by first | decide | decide +kernel⟩,
   ⟨seqSt cmdThr 0x44 {}, 0, {}, cmdThr, by first | decide | decide +kernel⟩,
   ⟨seqSt { cmdThr with buf := [{}] } 0x44 {}, 0, {}, { cmdThr with buf := [{}] }, { c := ⟨.ioq 1 1, 0⟩ }, { vss := 1, nsid := 1, attached := true, nsze := 64 }, [{}], by first | decide | decide +kernel⟩,
   ⟨seqSt { thr with cmd := some { c := ⟨.fn 3, 0⟩ } } 0x40 {}, 0, {}, { thr with cmd := some { c := ⟨.fn 3, 0⟩ } }, 3, by first | decide | decide +kernel⟩⟩

set_option maxRecDepth 20000 in
theorem premises_StepDrives :
    (∃ s : State, ∃ n : Nat, ∃ w : StepW, ∃ c : Ctx, ∃ a : Nat, (AtStep s n c 0x50 w))
    ∧ (∃ s : State, ∃ n : Nat, ∃ w : StepW, ∃ c : Ctx, ∃ rows : List RowRead, (AtStep s n c 0x51 w) ∧ (c.op = none))
    ∧ (∃ s : State, ∃ n : Nat, ∃ w : StepW, ∃ c : Ctx, ∃ rows : List RowRead, ∃ op : IntOp, (AtStep s n c 0x51 w) ∧ (c.op = some op))
    ∧ (∃ s : State, ∃ n : Nat, ∃ w : StepW, ∃ c : Ctx, ∃ found : List DriveBlk, ∃ buf : List BufBlk, ∃ u : State, (AtStep s n c 0x52 w) ∧ (buf = verifyBufs (ticked s c n) c.ns c.buf found) ∧ (u = count (ticked s c n) 0x0802 none none ((c.buf.zip buf).filter fun x => x.1.st == 2 && x.2.st == 3 && !x.2.unw).length))
    ∧ (∃ s : State, ∃ n : Nat, ∃ w : StepW, ∃ c : Ctx, ∃ rows : List RowRead, ∃ pl : List RdReq × List BufBlk, (AtStep s n c 0x53 w) ∧ (pl = reconPlan (ticked s c n) c.refs c.ns c.buf rows (ctxBlocks c)))
    ∧ (∃ s : State, ∃ n : Nat, ∃ w : StepW, ∃ c : Ctx, ∃ q : Nat, ∃ k : Nat, ∃ g : Hosted, ∃ u : State, (AtStep s n c 0x54 w))
    ∧ (∃ s : State, ∃ n : Nat, ∃ w : StepW, ∃ c : Ctx, ∃ e : Nat, ∃ k : Nat, ∃ ps : List (Bool × Nat), ∃ olds : List DriveBlk, (AtStep s n c 0x55 w) ∧ (c.op = some (.flush e k ps)))
    ∧ (∃ s : State, ∃ n : Nat, ∃ w : StepW, ∃ c : Ctx, ∃ m : Bool, ∃ p : Nat, ∃ sts : List (Nat × Nat), ∃ olds : List DriveBlk, (AtStep s n c 0x55 w))
    ∧ (∃ s : State, ∃ n : Nat, ∃ w : StepW, ∃ c : Ctx, ∃ m : Bool, ∃ p : Nat, ∃ sts : List (Nat × Nat), ∃ r : CommitRec, (AtStep s n c 0x56 w))
    ∧ (∃ s : State, ∃ n : Nat, ∃ w : StepW, ∃ c : Ctx, (AtStep s n c 0x57 w))
    ∧ (∃ s : State, ∃ n : Nat, ∃ w : StepW, ∃ c : Ctx, ∃ e : Nat, ∃ k : Nat, ∃ ps : List (Bool × Nat), ∃ m : Bool, ∃ p : Nat, ∃ sts : List (Nat × Nat), ∃ r : CommitRec, (AtStep s n c 0x58 w)) :=
  ⟨⟨seqSt (thr) 0x50 {}, 0, {}, thr, 0, by first | decide | decide +kernel⟩,
   ⟨seqSt (thr) 0x51 {}, 0, {}, thr, [], by first | decide | decide +kernel⟩,
   ⟨seqSt { thr with op := some .nothing } 0x51 {}, 0, {}, { thr with op := some .nothing }, [], .nothing, by first | decide | decide +kernel⟩,
   ⟨seqSt (thr) 0x52 {}, 0, {}, thr, [], [], count (ticked (seqSt (thr) 0x52 {}) thr 0) 0x0802 none none 0, by first | decide | decide +kernel⟩,
   ⟨seqSt (thr) 0x53 {}, 0, {}, thr, [], ([], []), by first | decide | decide +kernel⟩,
   ⟨seqSt { thr with op := some (.flush 0 0 []) } 0x54 {}, 0, {}, { thr with op := some (.flush 0 0 []) }, 0, 0, ⟨0, 0, 0, 0, 0, false, false, {}⟩, {}, by first | decide | decide +kernel⟩,
   ⟨seqSt { thr with op := some (.flush 0 0 []) } 0x55 {}, 0, {}, { thr with op := some (.flush 0 0 []) }, 0, 0, [], [], by first | decide | decide +kernel⟩,
   ⟨seqSt thr 0x55 {}, 0, {}, thr, false, 3, [], [], by first | decide | decide +kernel⟩,
   ⟨seqSt thr 0x56 {}, 0, {}, thr, false, 3, [], {}, by first | decide | decide +kernel⟩,
   ⟨seqSt (thr) 0x57 {}, 0, {}, thr, by first | decide | decide +kernel⟩,
   ⟨seqSt { thr with op := some (.flush 0 0 []), durable := true } 0x58 {}, 0, {}, { thr with op := some (.flush 0 0 []), durable := true }, 0, 0, [], false, 3, [], {}, by first | decide | decide +kernel⟩⟩

set_option maxRecDepth 20000 in
theorem premises_SequencerEvents :
    (∃ s : State, ∃ k : Nat, ∃ n : Nat, ∃ c : Ctx, ∃ l : Option ResumeLoss, (k < 32))
    ∧ (∃ s : State, ∃ k : Nat, ∃ l : Option ResumeLoss, (32 ≤ k))
    ∧ (∃ s : State, ∃ n : Nat, ∃ c : Ctx, (ctxOf s n = some c ∧ c.run = .parked .timer))
    ∧ (∃ s : State, ∃ n : Nat, ∃ a : Nat, ∃ tag : Nat, ∃ c : Ctx, ∃ h : HostCmd, ∃ d : List Blk, ∃ rs : List DsmRange, (stale (vcInstar s a) tag = false) ∧ (ctxOf s n = some c ∧ waitOf c = some .host ∧ c.cmd = some h))
    ∧ (∃ s : State, ∃ k : Nat, (k < 5)) :=
  ⟨⟨seqSt { thr with run := .ready } 0 {}, 31, 0, { thr with run := .ready }, none, by first | decide | decide +kernel⟩,
   ⟨st .active, 32, none, by first | decide | decide +kernel⟩,
   ⟨seqSt { thr with run := .parked .timer } 7 {}, 0, { thr with run := .parked .timer }, by first | decide | decide +kernel⟩,
   ⟨seqSt { cmdThr with run := .parked .host } 7 {}, 0, 0, 0, { cmdThr with run := .parked .host }, { c := ⟨.ioq 1 1, 0⟩ }, [], [], by first | decide | decide +kernel⟩,
   ⟨st .active, 4, by first | decide | decide +kernel⟩⟩

set_option maxRecDepth 20000 in
theorem premises_CocoonUpkeep :
    (∃ s : State, ∃ c : Cid, ∃ w : Nat, (Manager s c 2))
    ∧ (∃ s : State, ∃ a : Nat, ∃ r : LineRead, (a < 2 ^ 33))
    ∧ (∃ s : State, ∃ k : Nat, ∃ m : Moment, (k < 2))
    ∧ (∃ s : State, ∃ a : Nat, ∃ k : Nat, ∃ r : LineRead, ∃ m : Moment, (2 ^ 33 ≤ a ∧ 2 ≤ k)) :=
  ⟨⟨st .standby, ⟨.pf0, 0⟩, 3, by first | decide | decide +kernel⟩,
   ⟨{ st .active with coc := { up := true } }, 2 ^ 33 - 1, .clean, by first | decide | decide +kernel⟩,
   ⟨st .active, 1, {}, by first | decide | decide +kernel⟩,
   ⟨st .active, 2 ^ 33, 2, .clean, {}, by first | decide | decide +kernel⟩⟩

set_option maxRecDepth 20000 in
theorem premises_MirrorAndHandback :
    (∃ s : State, ∃ p : Nat, ∃ b : Blk, (p < pageCount))
    ∧ (∃ s : State, ∃ g : Nat, (g < 2))
    ∧ (∃ s : State, ∃ g : Nat, ∃ ns : Nat, ∃ ps : List PageMsg, (g < 2 ∧ mirrorOpen s = true))
    ∧ (∃ s : State, ∃ g : Nat, ∃ ps : List Nat, (g < 2 ∧ mirrorOpen s = true) ∧ (ps = s.coc.own.filterMap (fun x => match x.2.rc with | some r => if r.group == g && x.2.orphan then some x.1 else none | none => none)))
    ∧ (∃ s : State, ∃ e : Nat, (e < 4194304)) :=
  ⟨⟨mirSt, pageCount - 1, {}, by first | decide | decide +kernel⟩,
   ⟨mirSt, 1, by first | decide | decide +kernel⟩,
   ⟨mirSt, 1, 0, [], by first | decide | decide +kernel⟩,
   ⟨mirSt, 1, [], by first | decide | decide +kernel⟩,
   ⟨{ st .active with xfm := { reload := [7] } }, 7, by first | decide | decide +kernel⟩⟩

set_option maxRecDepth 20000 in
theorem premises_RebuildsAndKeys :
    (∃ s : State, ∃ b : Nat, ∃ g : Nat, ∃ t : Nat, (b < 64 ∧ groupOfBay s b = some g ∧ (grpOf s g).owned = true ∧ drivePresent s b = false ∧ bayIsMember s b = true) ∧ (((rbOf s g).active && (rbOf s g).bay == b) = false ∧ s.xfm.rbWait.any (fun x => x.1 == b) = false ∧ spareFor s g = some t))
    ∧ (∃ s : State, ∃ b : Nat, ∃ g : Nat, (b < 64))
    ∧ (∃ s : State, ∃ k : Nat, (k < 512))
    ∧ (∃ s : State, ∃ c : Cid, ∃ d : Nat, ∃ g : Nat, ∃ b : Nat, ∃ t : Nat, (Manager s c 0 ∧ g = field d 0 1 ∧ b = field d 8 6 ∧ t = field d 16 6))
    ∧ (∃ s : State, ∃ c : Cid, ∃ d : Nat, (Manager s c 0))
    ∧ (∃ s : State, ∃ c : Cid, ∃ d : Nat, ∃ v : VEnt MapEnt, (Manager s c 1))
    ∧ (∃ s : State, ∃ c : Cid, ∃ d : Nat, ∃ n : NsRec, ∃ k : KeyRec, (Manager s c 0 ∧ nsOf s (field d 0 16) = some n ∧ k = tget s.cat.keys {} (field d 0 16)))
    ∧ (∃ s : State, ∃ c : Cid, ∃ d : Nat, (Manager s c 0 ∧ nsOf s (field d 0 16) = none))
    ∧ (∃ s : State, ∃ k : Nat, ∃ r : KeyRec, ∃ p : Nat × Nat, ∃ n : NsRec, (k < 65536 ∧ r = tget s.cat.keys {} k ∧ r.prev = some p ∧ nsOf s k = some n ∧ (grpOf s n.group).owned = true ∧ epochStaged s k p.1 = false) ∧ ((∀ y z, IntOp.rekey k y z ∉ s.seq.queue) ∧ (∀ x ∈ s.seq.ctxs, ∀ y z, x.2.bind Ctx.op ≠ some (.rekey k y z))))
    ∧ (∃ s : State, ∃ k : Nat, ∃ p : Nat × Nat, ∃ n : NsRec, (k < 65536))
    ∧ (∃ s : State, ∃ e : Nat, ∃ k : Nat, ∃ r : Nat, ∃ n : Nat, ∃ q : Nat, ∃ c : Ctx, ∃ x : MapEnt, ((s.seq.ctxs.find? fun y => (y.2.bind Ctx.op) == some (.writeback e k r)) = some (n, some c) ∧ chunkEnt s e = some x) ∧ (q < x.k + x.m ∧ memWritable s e k x (memberAt x.k x.m k q) = true ∧ isRemote (memOf x (memberAt x.k x.m k q)) = false) ∧ ((issueDrive s (memOf x (memberAt x.k x.m k q)).bay .flush { opcode := 0x01, bytes := 4160 } [driveLba (memOf x (memberAt x.k x.m k q)).start k r, 2 ^ r]).2 = true))
    ∧ (∃ s : State, ∃ e : Nat, ∃ k : Nat, ∃ r : Nat, ∃ n : Nat, ∃ q : Nat, ∃ c : Ctx, ∃ x : MapEnt, ((s.seq.ctxs.find? fun y => (y.2.bind Ctx.op) == some (.writeback e k r)) = some (n, some c) ∧ chunkEnt s e = some x) ∧ (q < x.k + x.m ∧ memWritable s e k x (memberAt x.k x.m k q) = true)) :=
  ⟨⟨rbSt, 0, 0, 1, by first | decide | decide +kernel⟩,
   ⟨rbSt, 0, 0, by first | decide | decide +kernel⟩,
   ⟨rbSt, 511, by first | decide | decide +kernel⟩,
   ⟨rbSt, ⟨.pf0, 0⟩, 65536, 0, 0, 1, by first | decide | decide +kernel⟩,
   ⟨rbSt, ⟨.pf0, 0⟩, 0, by first | decide | decide +kernel⟩,
   ⟨rbSt, ⟨.pf0, 0⟩, 7, ⟨4, 0, {}, []⟩, by first | decide | decide +kernel⟩,
   ⟨ioSt, ⟨.pf0, 0⟩, 5, { vss := 1, nsid := 1, attached := true, nsze := 64 }, {}, by first | decide | decide +kernel⟩,
   ⟨st .active, ⟨.pf0, 0⟩, 5, by first | decide | decide +kernel⟩,
   ⟨keySt, 5, { epoch := 2, cur := some 9, prev := some (1, 8) }, (1, 8), { vss := 1, nsid := 1, attached := true, nsze := 64 }, ⟨by decide, fun _ _ => List.not_mem_nil, fun _ h => absurd h List.not_mem_nil⟩⟩,
   ⟨keySt, 5, (1, 8), { vss := 1, nsid := 1, attached := true, nsze := 64 }, by first | decide | decide +kernel⟩,
   ⟨{ wbSt with xfm := { map := [(7, some ⟨4, 0, { valid := true, k := 1, stripes := 4096, ns := 5, mem := [{ bay := 1 }] }, []⟩)] } }, 7, 0, 0, 3, 0, { op := some (.writeback 7 0 0) }, { valid := true, k := 1, stripes := 4096, ns := 5, mem := [{ bay := 1 }] }, by first | decide | decide +kernel⟩,
   ⟨{ wbSt with xfm := { map := [(7, some ⟨4, 0, { valid := true, k := 1, stripes := 4096, ns := 5, mem := [{ bay := 1 }] }, []⟩)] } }, 7, 0, 0, 3, 0, { op := some (.writeback 7 0 0) }, { valid := true, k := 1, stripes := 4096, ns := 5, mem := [{ bay := 1 }] }, by first | decide | decide +kernel⟩⟩

set_option maxRecDepth 20000 in
theorem premises_HostedRequests :
    (∃ s : State, ∃ u : State, ∃ q : Nat, ∃ n : Nat, ∃ d : PorporIn, ∃ m : PorporMsg, (q < 65536 ∧ porporTake s q 1 = some u ∧ m = readMsg d) ∧ (hostedOf u q n = none ∧ hostCheck u q m true true = 0 ∧ drivePresent u (hostBay u m) = true ∧ hosts u m.group = true))
    ∧ (∃ s : State, ∃ u : State, ∃ q : Nat, ∃ n : Nat, ∃ k : Nat, ∃ d : PorporIn, ∃ m : PorporMsg, ∃ rd : Bool, ∃ i : Instr, (q < 65536 ∧ porporTake s q 1 = some u ∧ m = readMsg d ∧ i = (if rd then .stripRead q n d else .stripWrite q n d)))
    ∧ (∃ s : State, ∃ u : State, ∃ q : Nat, ∃ n : Nat, ∃ b : Nat, ∃ a : Nat, ∃ e : Nat, ∃ k : Nat, ∃ d : PorporIn, ∃ m : PorporMsg, ∃ sz : Nat, (q < 65536 ∧ porporTake s q 1 = some u ∧ m = readMsg d ∧ sz = (m.params[2]?).getD 0 * (m.params[3]?).getD 0))
    ∧ (∃ s : State, ∃ u : State, ∃ q : Nat, ∃ n : Nat, ∃ k : Nat, ∃ d : PorporIn, ∃ m : PorporMsg, ∃ x : Nat × PlaceEnt, (q < 65536 ∧ porporTake s q 1 = some u ∧ m = readMsg d)) :=
  ⟨⟨fedGot fedSt 1, fedTook fedSt 1, 20, 2, fedIn 1, readMsg (fedIn 1), by first | decide | decide +kernel⟩,
   ⟨fedGot fedSt 1, fedTook fedSt 1, 20, 2, 1, fedIn 1, readMsg (fedIn 1), false, .stripWrite 20 2 (fedIn 1), by first | decide | decide +kernel⟩,
   ⟨fedGot fedSt 1, fedTook fedSt 1, 20, 2, 1, 2048, 0, 1, fedIn 4, readMsg (fedIn 4), 2048, by first | decide | decide +kernel⟩,
   ⟨fedGot fedSt 1, fedTook fedSt 1, 20, 2, 1, fedIn 6, readMsg (fedIn 6), (11, {}), by first | decide | decide +kernel⟩⟩

set_option maxRecDepth 20000 in
theorem premises_FederationAnswers :
    (∃ s : State, ∃ u : State, ∃ q : Nat, ∃ n : Nat, (q < 65536 ∧ porporTake s q 2 = some u))
    ∧ (∃ s : State, ∃ u : State, ∃ q : Nat, ∃ n : Nat, ∃ k : Nat, (q < 65536 ∧ porporTake s q 3 = some u))
    ∧ (∃ s : State, ∃ u : State, ∃ q : Nat, ∃ d : PorporIn, ∃ m : PorporMsg, ∃ f : Frag, (q < 65536 ∧ porporTake s q 4 = some u ∧ m = readMsg d))
    ∧ (∃ s : State, ∃ u : State, ∃ q : Nat, ∃ d : PorporIn, ∃ m : PorporMsg, ∃ f : Frag, ∃ l : LeaseOp, (q < 65536 ∧ porporTake s q 4 = some u ∧ m = readMsg d)) :=
  ⟨⟨fedGot fragSt 2, fedTook fragSt 2, 20, 2, by first | decide | decide +kernel⟩,
   ⟨fedGot fragSt 3, fedTook fragSt 3, 20, 2, 3, by first | decide | decide +kernel⟩,
   ⟨fedGot fragSt 4, fedTook fragSt 4, 20, fedRep 3, readMsg (fedRep 3), fedFrag, by first | decide | decide +kernel⟩,
   ⟨fedGot fragSt 4, fedTook fragSt 4, 20, fedRep 5, readMsg (fedRep 5), fedFrag, ⟨⟨.pf0, 0⟩, 4, [], [], none⟩, by first | decide | decide +kernel⟩⟩

set_option maxRecDepth 20000 in
theorem premises_FederationManagement :
    (∃ s : State, ∃ v : Word, ∃ w : Nat, ∃ x : PWin, (w = field (rwGet s 0x80200 0) 0 10 ∧ x = { winOf s w with sCtl := field v.toNat 0 13 }))
    ∧ (∃ s : State, ∃ c : Cid, ∃ d : List Byte, ∃ k : Nat, ∃ m : FedMember, (Manager s c 0))
    ∧ (∃ s : State, ∃ c : Cid, ∃ a : Nat, ∃ b : Nat, ∃ k : Nat, ∃ m : Nat, ∃ d : List Byte, ∃ l : List Nat, (Manager s c 0 ∧ k = field a 8 8 ∧ m = field a 16 8 ∧ l = shelfIds d 0 (k + m)) ∧ (fedOn s = false ∨ k < 2 ∨ 28 < k ∨ m < 1 ∨ 4 < m ∨ field b 0 16 = 0 ∨ l.contains 0xFFFF = true ∨ (l ++ (shelfIds d 64 4).filter (· != 0xFFFF)).any (fun h => (memberOf s h).state != 1) = true ∨ l.eraseDups.length ≠ l.length ∨ freePlace s = none ∨ (grpOf s (field a 0 1)).owned = false))
    ∧ (∃ s : State, ∃ c : Cid, ∃ a : Nat, ∃ b : Nat, ∃ k : Nat, ∃ m : Nat, ∃ e : Nat, ∃ d : List Byte, ∃ l : List Nat, ∃ sp : List Nat, (Manager s c 0 ∧ k = field a 8 8 ∧ m = field a 16 8 ∧ l = shelfIds d 0 (k + m) ∧ sp = (shelfIds d 64 4).filter (· != 0xFFFF)) ∧ (fedOn s = true ∧ 2 ≤ k ∧ k ≤ 28 ∧ 1 ≤ m ∧ m ≤ 4 ∧ field b 0 16 ≠ 0 ∧ l.contains 0xFFFF = false ∧ (l ++ sp).any (fun h => (memberOf s h).state != 1) = false ∧ l.eraseDups.length = l.length ∧ freePlace s = some e ∧ (grpOf s (field a 0 1)).owned = true ∧ l.contains (ownShelf s) = false))
    ∧ (∃ s : State, ∃ c : Cid, ∃ a : Nat, ∃ b : Nat, ∃ k : Nat, ∃ m : Nat, ∃ e : Nat, ∃ d : List Byte, ∃ l : List Nat, ∃ sp : List Nat, (Manager s c 0 ∧ k = field a 8 8 ∧ m = field a 16 8 ∧ l = shelfIds d 0 (k + m) ∧ sp = (shelfIds d 64 4).filter (· != 0xFFFF)) ∧ (fedOn s = true ∧ 2 ≤ k ∧ k ≤ 28 ∧ 1 ≤ m ∧ m ≤ 4 ∧ field b 0 16 ≠ 0 ∧ l.contains 0xFFFF = false ∧ (l ++ sp).any (fun h => (memberOf s h).state != 1) = false ∧ l.eraseDups.length = l.length ∧ freePlace s = some e ∧ (grpOf s (field a 0 1)).owned = true ∧ l.contains (ownShelf s) = true))
    ∧ (∃ s : State, ∃ c : Cid, ∃ d : Nat, (Manager s c 1))
    ∧ (∃ s : State, ∃ c : Cid, ∃ d : Nat, ∃ e : Nat, (Manager s c 0 ∧ e = field d 0 16)) :=
  ⟨⟨st .active, 0x80001000, 0, { sCtl := 0x1000 }, by first | decide | decide +kernel⟩,
   ⟨fedSt, ⟨.pf0, 0⟩, memberB, 3, { state := 1 }, by first | decide | decide +kernel⟩,
   ⟨st .active, ⟨.pf0, 0⟩, 0, 0, 0, 0, [], [], by first | decide | decide +kernel⟩,
   ⟨{ fedSt with cat := { fedSt.cat with members := [(3, { state := 1 }), (4, { state := 1 }), (5, { state := 1 })] } }, ⟨.pf0, 0⟩, 66048, 1, 2, 1, 0, [3, 0, 4, 0, 5, 0] ++ List.replicate 58 0 ++ List.replicate 8 0xFF, [3, 4, 5], [], by first | decide | decide +kernel⟩,
   ⟨{ fedSt with cat := { fedSt.cat with members := [(1, { state := 1 }), (4, { state := 1 }), (5, { state := 1 })] } }, ⟨.pf0, 0⟩, 66048, 1, 2, 1, 0, [1, 0, 4, 0, 5, 0] ++ List.replicate 58 0 ++ List.replicate 8 0xFF, [1, 4, 5], [], by first | decide | decide +kernel⟩,
   ⟨leaseSt, ⟨.pf0, 0⟩, 4, by first | decide | decide +kernel⟩,
   ⟨leaseSt, ⟨.pf0, 0⟩, 4, 4, by first | decide | decide +kernel⟩⟩

set_option maxRecDepth 20000 in
theorem premises_SwitchTimers :
    (∃ s : State, ∃ n : Nat, ∃ c : Ctx, ∃ b : Bool, (ctxOf s n = some c))
    ∧ (∃ s : State, ∃ n : Nat, ∃ d : Nat, ∃ need : Nat, ∃ got : Nat, ∃ c : Ctx, (c.mcast = some (need, got)))
    ∧ (∃ s : State, ∃ n : Nat, ∃ a : Bool, ∃ b : Bool, (ctxOf s n = none))
    ∧ (∃ s : State, ∃ l : List (Nat × Nat), ∃ m : List (Nat × Nat), ∃ t : State, (m = l.filter (fun x => s.swc.marked.contains x.1) ∧ t = { s with swc := { s.swc with passes := min 65535 (s.swc.passes + 1), marked := (l.filter fun x => !s.swc.marked.contains x.1).map Prod.fst } })) :=
  ⟨⟨seqSt { cmdThr with mcast := some (3, 0) } 7 {}, 0, { cmdThr with mcast := some (3, 0) }, true, by first | decide | decide +kernel⟩,
   ⟨st .active, 0, 1, 3, 0, { mcast := some (3, 0) }, by first | decide | decide +kernel⟩,
   ⟨st .active, 9, true, false, by first | decide | decide +kernel⟩,
   ⟨st .active, [], [], { st .active with swc := { (st .active).swc with passes := 1, marked := [] } }, by first | decide | decide +kernel⟩⟩

set_option maxRecDepth 20000 in
theorem premises_SpokeLink :
    (∃ s : State, ∃ l : List Nat, ∃ m : List Nat, ∃ b : Nat, ∃ p : Spoke, ∃ q : Spoke, (p = spkOf s b ∧ q = { p with presCnt := if l.contains b = p.present then 0 else p.presCnt + 1, btnCnt := if m.contains b = p.button then 0 else p.btnCnt + 1 }))
    ∧ (∃ s : State, ∃ b : Nat, ∃ p : Spoke, (b < 64 ∧ p = spkOf s b))
    ∧ (∃ s : State, ∃ b : Nat, ∃ g : Nat, ∃ w : Nat, ∃ p : Spoke, (b < 64 ∧ p = spkOf s b))
    ∧ (∃ s : State, ∃ b : Nat, ∃ k : Nat, ∃ p : Spoke, (b < 64 ∧ p = spkOf s b ∧ k ≠ 4))
    ∧ (∃ s : State, ∃ b : Nat, ∃ p : Spoke, ∃ l : List Nat, (b < 64 ∧ p = spkOf s b ∧ l = p.resets.filter (fun t => decide (s.now < t + ticksS 3600))))
    ∧ (∃ s : State, ∃ b : Nat, ∃ p : Spoke, (b < 64 ∧ p = spkOf s b))
    ∧ (∃ s : State, ∃ b : Nat, ∃ d : Bool, ∃ p : Spoke, (b < 64 ∧ p = spkOf s b))
    ∧ (∃ s : State, ∃ b : Nat, ∃ g : Nat, ∃ w : Nat, ∃ x : Bool, (64 ≤ b)) :=
  ⟨⟨spkSt rdySpk, [1], [], 1, rdySpk, rdySpk, by first | decide | decide +kernel⟩,
   ⟨spkSt { state := .training }, 1, { state := .training }, by first | decide | decide +kernel⟩,
   ⟨spkSt { state := .training }, 1, 4, 1, { state := .training }, by first | decide | decide +kernel⟩,
   ⟨spkSt rdySpk, 1, 2, rdySpk, by first | decide | decide +kernel⟩,
   ⟨spkSt { rdySpk with state := .contained }, 1, { rdySpk with state := .contained }, [], by first | decide | decide +kernel⟩,
   ⟨spkSt { rdySpk with pendBtn := true }, 1, { rdySpk with pendBtn := true }, by first | decide | decide +kernel⟩,
   ⟨spkSt { rdySpk with removal := 2 }, 1, true, { rdySpk with removal := 2 }, by first | decide | decide +kernel⟩,
   ⟨st .active, 64, 0, 0, true, by first | decide | decide +kernel⟩⟩

set_option maxRecDepth 20000 in
theorem premises_SpokeControl :
    (∃ s : State, ∃ b : Nat, ∃ p : Spoke, ∃ t : State, (b < 64 ∧ authMode s = true ∧ p = spkOf s b ∧ t = (if (chanOf s b).state = .latched then chanUnlatch s b 2 else s)))
    ∧ (∃ s : State, ∃ b : Nat, ∃ p : Spoke, (b < 64 ∧ authMode s = true ∧ p = spkOf s b))
    ∧ (∃ s : State, ∃ b : Nat, ∃ p : Spoke, (b < 64 ∧ authMode s = true ∧ p = spkOf s b))
    ∧ (∃ s : State, ∃ b : Nat, ∃ v : Word, (b < 64 ∧ authMode s = true))
    ∧ (∃ s : State, ∃ b : Nat, ∃ n : Nat, ∃ p : Spoke, (b < 64 ∧ p = spkOf s b))
    ∧ (∃ s : State, ∃ c : Cid, ∃ d : Nat, ∃ b : Nat, ∃ o : Bool, ∃ p : Spoke, (Manager s c 0 ∧ b = field d 0 6 ∧ p = spkOf s b)) :=
  ⟨⟨spkSt rdySpk, 1, rdySpk, spkSt rdySpk, by first | decide | decide +kernel⟩,
   ⟨spkSt rdySpk, 1, rdySpk, by first | decide | decide +kernel⟩,
   ⟨spkSt rdySpk, 1, rdySpk, by first | decide | decide +kernel⟩,
   ⟨st .active, 63, 64, by first | decide | decide +kernel⟩,
   ⟨spkSt rdySpk, 1, 3, rdySpk, by first | decide | decide +kernel⟩,
   ⟨spkSt rdySpk, ⟨.pf0, 0⟩, 1, 1, true, rdySpk, by first | decide | decide +kernel⟩⟩

set_option maxRecDepth 20000 in
theorem premises_DriveProtocol :
    (∃ s : State, ∃ b : Nat, ∃ a : Nat, ∃ p : Spoke, ∃ g : DmaTarget, (b < 64 ∧ p = spkOf s b))
    ∧ (∃ s : State, ∃ b : Nat, ∃ a : Nat, ∃ g : DmaTarget, ∃ p : Spoke, ∃ t : State, ∃ u : State, (b < 64 ∧ p = spkOf s b ∧ p.state ≠ .contained ∧ p.fenced = false ∧ (∀ n, g = .buffer n → tget p.slots none n = none) ∧ g ≠ .queueMem) ∧ (t = writeEvent (emit (rcAdd s 0xA0038 b 1) (.drive b 0x102 [0, a])) { num := 0x090A, inst := b, detail := [b, a] } ∧ u = setSpk t b { spkOf t b with violAt := some t.now }))
    ∧ (∃ s : State, ∃ b : Nat, ∃ n : Nat, ∃ x : Nat, ∃ ok : Bool, ∃ p : Spoke, ∃ d : DriveSlot, (b < 64 ∧ injectorAt s 4 b = none ∧ p = spkOf s b ∧ tget p.slots none n = some d ∧ x = slotTag d.spoke d.drive ∧ stale p.instar d.spoke = false ∧ stale p.drive d.drive = false))
    ∧ (∃ s : State, ∃ b : Nat, ∃ n : Nat, ∃ x : Nat, ∃ ok : Bool, ∃ p : Spoke, ∃ r : DriveResult, (b < 64 ∧ p = spkOf s b))
    ∧ (∃ s : State, ∃ b : Nat, ∃ p : Spoke, (b < 64 ∧ p = spkOf s b))
    ∧ (∃ s : State, ∃ b : Nat, ∃ p : Spoke, (b < 64 ∧ p = spkOf s b))
    ∧ (∃ s : State, ∃ b : Nat, ∃ k : Nat, ∃ p : Spoke, ∃ l : List Nat, (p = spkOf s b ∧ l = p.resets.filter (fun t => decide (s.now < t + ticksS 3600))))
    ∧ (∃ s : State, ∃ b : Nat, ∃ p : Spoke, (b < 64 ∧ p = spkOf s b))
    ∧ (∃ s : State, ∃ b : Nat, ∃ n : Nat, ∃ x : Nat, ∃ ok : Bool, ∃ p : Spoke, ∃ i : Ident, (b < 64 ∧ injectorAt s 4 b = none ∧ p = spkOf s b))
    ∧ (∃ s : State, ∃ b : Nat, ∃ n : Nat, ∃ x : Nat, ∃ g : DmaTarget, ∃ r : DriveResult, (64 ≤ b)) :=
  ⟨⟨spkSt rdySpk, 1, 0, rdySpk, .other, by first | decide | decide +kernel⟩,
   ⟨spkSt rdySpk, 1, 0, .other, rdySpk, writeEvent (emit (rcAdd (spkSt rdySpk) 0xA0038 1 1) (.drive 1 0x102 [0, 0])) { num := 0x090A, inst := 1, detail := [1, 0] }, setSpk (writeEvent (emit (rcAdd (spkSt rdySpk) 0xA0038 1 1) (.drive 1 0x102 [0, 0])) { num := 0x090A, inst := 1, detail := [1, 0] }) 1 { spkOf (writeEvent (emit (rcAdd (spkSt rdySpk) 0xA0038 1 1) (.drive 1 0x102 [0, 0])) { num := 0x090A, inst := 1, detail := [1, 0] }) 1 with violAt := some (writeEvent (emit (rcAdd (spkSt rdySpk) 0xA0038 1 1) (.drive 1 0x102 [0, 0])) { num := 0x090A, inst := 1, detail := [1, 0] }).now }, by exact ⟨⟨by decide, by decide, by decide, by decide, fun _ h => (by cases h), by decide⟩, rfl, rfl⟩⟩,
   ⟨spkSt { rdySpk with slots := [(0, some {})] }, 1, 0, 0, true, { rdySpk with slots := [(0, some {})] }, {}, by first | decide | decide +kernel⟩,
   ⟨spkSt { rdySpk with slots := [(0, some {})] }, 1, 0, 5, true, { rdySpk with slots := [(0, some {})] }, .aborted, by first | decide | decide +kernel⟩,
   ⟨spkSt { state := .initializing, bring := 1 }, 1, { state := .initializing, bring := 1 }, by first | decide | decide +kernel⟩,
   ⟨spkSt rdySpk, 1, rdySpk, by first | decide | decide +kernel⟩,
   ⟨spkSt rdySpk, 1, 1, rdySpk, [], by first | decide | decide +kernel⟩,
   ⟨spkSt { rdySpk with state := .resetting }, 1, { rdySpk with state := .resetting }, by first | decide | decide +kernel⟩,
   ⟨spkSt rdySpk, 1, 0, 0, true, rdySpk, ⟨true, 0x10400, 0, true, 4096, 12, 64, 0, 0, 0, 0, 0, 344064, 1, []⟩, by first | decide | decide +kernel⟩,
   ⟨st .active, 64, 0, 0, .other, .aborted, by first | decide | decide +kernel⟩⟩

set_option maxRecDepth 20000 in
theorem premises_BayChannels :
    (∃ s : State, ∃ b : Nat, ∃ c : Channel, (b < 64 ∧ c = chanOf s b ∧ s.bay.outHold = false))
    ∧ (∃ s : State, ∃ b : Nat, ∃ c : Channel, (b < 64 ∧ c = chanOf s b ∧ s.bay.outHold = false))
    ∧ (∃ s : State, ∃ b : Nat, ∃ k : Nat, ∃ c : Channel, ∃ t : State, (b < 64 ∧ c = chanOf s b ∧ s.bay.outHold = false ∧ c.state = .ramping) ∧ (t = writeEvent (setChan s b { c with state := .on, gate := driveGate s b .full }) { num := 0x0A01, inst := b, detail := [b, c.iPeak] }))
    ∧ (∃ s : State, ∃ b : Nat, ∃ c : Channel, ∃ t : State, ∃ o : Option Nat, (b < 64 ∧ c = chanOf s b))
    ∧ (∃ s : State, ∃ b : Nat, ∃ i : Nat, ∃ c : Channel, (b < 64 ∧ c = chanOf s b ∧ s.bay.outHold = false))
    ∧ (∃ s : State, ∃ b : Nat, ∃ k : Nat, ∃ i : Nat, ∃ c : Channel, (c = chanOf s b))
    ∧ (∃ s : State, ∃ b : Nat, ∃ k : Bool, ∃ c : Channel, (b < 64 ∧ c = chanOf s b ∧ s.bay.outHold = false))
    ∧ (∃ s : State, ∃ b : Nat, ∃ i : Nat, ∃ v : Nat, ∃ p : Nat, ∃ x : Nat, ∃ y : Nat, ∃ c : Channel, ∃ t : State, ∃ g : Nat, (b < 64 ∧ c = chanOf s b) ∧ (t = setChan s b { c with iMa := i % 65536, vMv := v % 65536, iPeak := max c.iPeak (max (p % 65536) (i % 65536)), vMin := min c.vMin (v % 65536) }))
    ∧ (∃ s : State, ∃ b : Nat, ∃ v : Word, ∃ c : Channel, (b < 64 ∧ c = chanOf s b))
    ∧ (∃ s : State, ∃ l : List Nat, ∃ t : State, ∃ u : State, (t = { s with bay := { s.bay with rails := true } } ∧ u = t.bay.chans.foldl (fun a x => if (chanOf a x.1).state = .on then (if l.contains x.1 then setChan a x.1 { chanOf a x.1 with gate := driveGate a x.1 .full } else setChan a x.1 { chanOf a x.1 with state := .off, gate := driveGate a x.1 .sink }) else a) t))
    ∧ (∃ s : State, ∃ b : Nat, ∃ i : Nat, ∃ k : Bool, ∃ c : Channel, (b < 64 ∧ c = chanOf s b ∧ s.bay.outHold = true))
    ∧ (∃ s : State, ∃ b : Nat, ∃ i : Nat, ∃ x : Nat, ∃ y : Nat, ∃ z : Nat, ∃ m : Nat, ∃ k : Bool, ∃ o : Option Nat, ∃ v : Word, (64 ≤ b)) :=
  ⟨⟨baySt rdySpk { state := .waiting } {}, 1, { state := .waiting }, by first | decide | decide +kernel⟩,
   ⟨baySt rdySpk { state := .ramping } {}, 1, { state := .ramping }, by first | decide | decide +kernel⟩,
   ⟨baySt { state := .powering } { state := .ramping } {}, 1, 2, { state := .ramping }, writeEvent (setChan (baySt { state := .powering } { state := .ramping } {}) 1 { state := .on, gate := driveGate (baySt { state := .powering } { state := .ramping } {}) 1 .full }) { num := 0x0A01, inst := 1, detail := [1, 0] }, by first | decide | decide +kernel⟩,
   ⟨baySt { state := .powering } { state := .ramping, taken := 1 } {}, 1, { state := .ramping, taken := 1 }, {}, none, by first | decide | decide +kernel⟩,
   ⟨baySt rdySpk { state := .on } { state := .onA, aGood := true }, 1, 9000, { state := .on }, by first | decide | decide +kernel⟩,
   ⟨baySt rdySpk { state := .on } {}, 1, 2, 9000, { state := .on }, by first | decide | decide +kernel⟩,
   ⟨baySt rdySpk { state := .cooling, retries := 2 } {}, 1, true, { state := .cooling, retries := 2 }, by first | decide | decide +kernel⟩,
   ⟨baySt rdySpk {} {}, 1, 5, 5, 5, 5, 5, {}, setChan (baySt rdySpk {} {}) 1 { iMa := 5, vMv := 5, iPeak := 5, vMin := 5 }, 0, by first | decide | decide +kernel⟩,
   ⟨baySt rdySpk { state := .latched } {}, 1, 1, { state := .latched }, by first | decide | decide +kernel⟩,
   ⟨st .active, [], { st .active with bay := { (st .active).bay with rails := true } }, { st .active with bay := { (st .active).bay with rails := true } }, by first | decide | decide +kernel⟩,
   ⟨{ st .active with bay := { outHold := true } }, 63, 1, true, {}, by first | decide | decide +kernel⟩,
   ⟨st .active, 64, 0, 0, 0, 0, 0, true, none, 0, by first | decide | decide +kernel⟩⟩

set_option maxRecDepth 20000 in
theorem premises_PowerFeeds :
    (∃ s : State, ∃ g : Nat, ∃ f : Feed, ∃ h : Feed, ∃ t : State, ∃ u : State, (g < 2 ∧ f = { feedOf s g with aGood := true, bothBad := false } ∧ t = setFeed s g f) ∧ (h = { feedOf s g with bGood := true, bothBad := false } ∧ u = setFeed s g h))
    ∧ (∃ s : State, ∃ g : Nat, ∃ f : Feed, ∃ p : Bool, (f = feedOf s g ∧ p = feedPrefersB s g))
    ∧ (∃ s : State, ∃ g : Nat, ∃ f : Feed, ∃ t : State, (g < 2 ∧ f = { feedOf s g with aGood := false } ∧ t = setFeed s g f))
    ∧ (∃ s : State, ∃ g : Nat, ∃ f : Feed, ∃ t : State, (g < 2 ∧ f = { feedOf s g with bGood := false } ∧ t = setFeed s g f))
    ∧ (∃ s : State, ∃ g : Nat, ∃ f : Feed, (g < 2 ∧ f = feedOf s g))
    ∧ (∃ s : State, ∃ g : Nat, ∃ f : Feed, ∃ p : Bool, (g < 2 ∧ f = feedOf s g ∧ p = feedPrefersB s g))
    ∧ (∃ s : State, ∃ g : Nat, ∃ v : Word, ∃ f : Feed, (g < 2 ∧ f = feedOf s g))
    ∧ (∃ s : State, ∃ g : Nat, ∃ f : Feed, (g < 2 ∧ f = feedOf s g))
    ∧ (∃ s : State, ∃ g : Nat, ∃ b : Bool, ∃ v : Word, (2 ≤ g))
    ∧ (∃ s : State, ∃ g : Nat, ∃ b : Bool, ∃ f : Feed, ∃ t : State, (g < 2 ∧ f = (if b then { feedOf s g with bGood := false } else { feedOf s g with aGood := false }) ∧ t = setFeed s g f ∧ f.state = .off)) :=
  ⟨⟨baySt rdySpk {} {}, 1, { aGood := true }, { bGood := true }, setFeed (baySt rdySpk {} {}) 1 { aGood := true }, setFeed (baySt rdySpk {} {}) 1 { bGood := true }, by first | decide | decide +kernel⟩,
   ⟨baySt rdySpk {} {}, 0, {}, false, by first | decide | decide +kernel⟩,
   ⟨baySt rdySpk {} { state := .onA, aGood := true, bGood := true }, 0, { state := .onA, bGood := true }, baySt rdySpk {} { state := .onA, bGood := true }, by first | decide | decide +kernel⟩,
   ⟨baySt rdySpk {} { state := .onA, aGood := true, bGood := true }, 0, { state := .onA, aGood := true }, baySt rdySpk {} { state := .onA, aGood := true }, by first | decide | decide +kernel⟩,
   ⟨baySt rdySpk {} { state := .toB }, 0, { state := .toB }, by first | decide | decide +kernel⟩,
   ⟨baySt rdySpk {} { state := .onB }, 0, { state := .onB }, false, by first | decide | decide +kernel⟩,
   ⟨baySt rdySpk {} { state := .onB, aGood := true }, 0, 1, { state := .onB, aGood := true }, by first | decide | decide +kernel⟩,
   ⟨st .active, 1, {}, by first | decide | decide +kernel⟩,
   ⟨st .active, 2, true, 1, by first | decide | decide +kernel⟩,
   ⟨baySt rdySpk {} {}, 1, true, {}, setFeed (baySt rdySpk {} {}) 1 {}, by first | decide | decide +kernel⟩⟩

set_option maxRecDepth 20000 in
theorem premises_OwnershipLines :
    (∃ s : State, ∃ g : Nat, ∃ x : Grp, ∃ p : Path, ∃ v : Word, ∃ t : State, (g < 2 ∧ unpaired s = false ∧ x = grpOf s g ∧ t = (if bitAt v.toNat 0 = true then setGrp s 0 { grpOf s 0 with fedAt := s.now } else s)))
    ∧ (∃ s : State, ∃ g : Nat, ∃ x : Grp, ∃ b : Bool, ∃ m : Moment, (g < 2 ∧ unpaired s = false ∧ x = grpOf s g))
    ∧ (∃ s : State, ∃ g : Nat, ∃ x : Grp, (g < 2 ∧ unpaired s = false ∧ x = grpOf s g))
    ∧ (∃ s : State, ∃ g : Nat, ∃ x : Grp, (g < 2 ∧ unpaired s = false ∧ x = grpOf s g))
    ∧ (∃ s : State, ∃ g : Nat, ∃ x : Grp, (g < 2 ∧ unpaired s = false ∧ x = grpOf s g))
    ∧ (∃ s : State, ∃ g : Nat, ∃ x : Grp, ∃ m : Moment, ∃ w : List Nat, ∃ f : Option Bool, ∃ a : AreaRead, ∃ t : State, (g < 2 ∧ unpaired s = false ∧ x = grpOf s g ∧ t = emit s (.line g 3)))
    ∧ (∃ s : State, ∃ g : Nat, ∃ x : Grp, (g < 2 ∧ unpaired s = false ∧ x = grpOf s g))
    ∧ (∃ s : State, ∃ g : Nat, ∃ d : Nat, ∃ x : Grp, ∃ t : State, ∃ u : State, (g < 2 ∧ x = grpOf s g ∧ x.owned = true ∧ x.bayDone = true ∧ x.mapDone = true ∧ x.pagesDone = true ∧ x.open_ = false ∧ x.taking = true ∧ d = min (2 ^ 24 - 1) ((s.now - x.takeAt) / 100)) ∧ (t = setGrp s g { x with open_ := true, taking := false } ∧ u = writeEvent { t with tdm := { t.tdm with lastGroup := g, lastFromDrives := x.fromDrives, gapUs := d } } { num := 0x0B06, inst := g, detail := [g, d, if x.fromDrives then 1 else 0] }))
    ∧ (∃ s : State, ∃ g : Nat, ∃ b : Bool, ∃ m : Moment, ∃ w : List Nat, ∃ f : Option Bool, ∃ a : AreaRead, (g < 2 ∧ unpaired s = true)) :=
  ⟨⟨lineSt { line := .mine, owned := true }, 0, { line := .mine, owned := true }, .cores, 0, lineSt { line := .mine, owned := true }, by first | decide | decide +kernel⟩,
   ⟨lineSt { line := .mine, owned := true }, 0, { line := .mine, owned := true }, false, {}, by first | decide | decide +kernel⟩,
   ⟨lineSt { line := .partner }, 0, { line := .partner }, by first | decide | decide +kernel⟩,
   ⟨lineSt { line := .partner }, 0, { line := .partner }, by first | decide | decide +kernel⟩,
   ⟨lineSt { seen := true }, 0, { seen := true }, by first | decide | decide +kernel⟩,
   ⟨lineSt { line := .acquiring, clean := 3 }, 0, { line := .acquiring, clean := 3 }, {}, [], none, {}, emit (lineSt { line := .acquiring, clean := 3 }) (.line 0 3), by first | decide | decide +kernel⟩,
   ⟨lineSt { line := .partner, hold := true }, 0, { line := .partner, hold := true }, by first | decide | decide +kernel⟩,
   ⟨lineSt { line := .mine, owned := true, bayDone := true, mapDone := true, pagesDone := true, taking := true }, 0, 0, { line := .mine, owned := true, bayDone := true, mapDone := true, pagesDone := true, taking := true }, setGrp (lineSt {}) 0 { line := .mine, owned := true, bayDone := true, mapDone := true, pagesDone := true, open_ := true }, writeEvent { setGrp (lineSt {}) 0 { line := .mine, owned := true, bayDone := true, mapDone := true, pagesDone := true, open_ := true } with tdm := { (setGrp (lineSt {}) 0 { line := .mine, owned := true, bayDone := true, mapDone := true, pagesDone := true, open_ := true }).tdm with lastGroup := 0, lastFromDrives := false, gapUs := 0 } } { num := 0x0B06, inst := 0, detail := [0, 0, 0] }, by first | decide | decide +kernel⟩,
   ⟨st .active, 1, true, {}, [], none, {}, by first | decide | decide +kernel⟩⟩

set_option maxRecDepth 20000 in
theorem premises_TandemLink :
    (∃ s : State, ∃ k : Bool, ∃ n : Nat, ∃ a : Nat, ∃ t : State, ∃ u : State, (t = (if k then s else rcAdd s 0xC0024 0 1) ∧ u = { s with tdm := { s.tdm with rxFlit := (s.tdm.rxFlit + 1) % 4096, replays := 0, txOut := s.tdm.txOut - a } }))
    ∧ (∃ s : State, ∃ f : Nat, ∃ h : Nat, ∃ n : Nat, ∃ t : State, (linkRuns s = true ∧ s.tdm.linkUp = false ∧ t = tdmSend s (.tandem 19 [if s.glb.straps.tdmSide then 1 else 0, fedId s, ownShelf s])))
    ∧ (∃ s : State, ∃ f : Nat, ∃ h : Nat, ∃ n : Nat, ∃ t : State, ∃ u : State, (linkRuns s = true ∧ s.tdm.linkUp = false ∧ t = tdmSend s (.tandem 19 [if s.glb.straps.tdmSide then 1 else 0, fedId s, ownShelf s])) ∧ (u = writeEvent { t with tdm := { t.tdm with linkUp := true, half := n != 32, sideConflict := false, rxFlit := 0, replays := 0, missed := 0, compared := false } } { num := 0x0B01, detail := [n] }))
    ∧ (∃ s : State, ∃ t : State, (t = { s with tdm := { s.tdm with peerAlive := false } }))
    ∧ (∃ s : State, ∃ k : Nat, ∃ t : State, (s.tdm.linkUp = true ∧ t = { s with tdm := { s.tdm with linkUp := false, compared := false, missed := 0, replays := 0, txOut := 0, releases := [], grp0 := { s.tdm.grp0 with standing := false }, grp1 := { s.tdm.grp1 with standing := false } } }))
    ∧ (∃ s : State, ∃ f : FrameItems, ∃ t : State, ∃ u : State, (s.tdm.linkUp = true ∧ t = { s with tdm := { s.tdm with frame := { tick := f.tick, mode := f.mode, owned := f.owned, seq0 := f.seq0, seq1 := f.seq1, catGen := f.catGen, unmirrored := f.unmirrored, latched := f.latched, retries := f.retries.foldl (fun t x => tput t 0 x.1 (x.2 + 1)) [], awaiting := f.awaiting, orphans := f.orphans, addrs := f.addrs } } }) ∧ (u = (if f.addrs = s.tdm.frame.addrs then t else discNote t)))
    ∧ (∃ s : State, ∃ g : Nat, ∃ x : Grp, ∃ a : AreaRead, ∃ b : Bool, ∃ t : State, (g < 2 ∧ x = grpOf s g ∧ t = setGrp s g { x with standing := x.standing || b, standingMap := a.map.foldl (fun t y => tput t {} y.1 y.2) x.standingMap }))
    ∧ (∃ s : State, ∃ b : Bool, ∃ f : FrameItems, (s.tdm.linkUp = false)) :=
  ⟨⟨mirSt, true, 5, 0, mirSt, { mirSt with tdm := { mirSt.tdm with rxFlit := 1 } }, by first | decide | decide +kernel⟩,
   ⟨{ lineSt {} with tdm := {} }, 7, 1, 32, tdmSend { lineSt {} with tdm := {} } (.tandem 19 [if ({ lineSt {} with tdm := {} } : State).glb.straps.tdmSide then 1 else 0, fedId { lineSt {} with tdm := {} }, ownShelf { lineSt {} with tdm := {} }]), by decide, by decide, rfl⟩,
   ⟨{ lineSt {} with tdm := {} }, 7, 1, 32, _, _, ⟨by decide, by decide, rfl⟩, rfl⟩,
   ⟨mirSt, mirSt, by first | decide | decide +kernel⟩,
   ⟨mirSt, 2, { mirSt with tdm := {} }, by first | decide | decide +kernel⟩,
   ⟨mirSt, tickF, { mirSt with tdm := { linkUp := true, frame := { tick := 7, mode := 3 } } }, { mirSt with tdm := { linkUp := true, frame := { tick := 7, mode := 3 } } }, by first | decide | decide +kernel⟩,
   ⟨mirSt, 0, {}, {}, true, { mirSt with tdm := { linkUp := true, grp0 := { standing := true } } }, by first | decide | decide +kernel⟩,
   ⟨st .active, true, tickF, by first | decide | decide +kernel⟩⟩

set_option maxRecDepth 20000 in
theorem premises_EchoesAndReleases :
    (∃ s : State, ∃ p : Nat, ∃ q : Nat, ∃ n : Nat, ∃ t : State, ∃ g : Page, (g = ownPg s p ∧ t = count s 0x0B02))
    ∧ (∃ s : State, ∃ p : Nat, ∃ n : Nat, ∃ r : CommitRec, ∃ g : Page, ∃ t : State, ∃ u : State, (g = ownPg s p ∧ g.rc = some r ∧ g.st ≠ .free ∧ g.st ≠ .staged ∧ t = rcMax (count s 0x0B02) 0xC0034 0 (min n 0xFFFF) ∧ (g.late = false ∨ (remirLeft s r.group).contains p = true)) ∧ (u = (ctxFilter (setOwn t p { g with unmir := false, late := false, st := if g.st = .committed then .mirrored else g.st, prior := if g.st = .flushing then .mirrored else g.prior }) fun c => c.echo.contains p).foldl (echoCtx p) (setOwn t p { g with unmir := false, late := false, st := if g.st = .committed then .mirrored else g.st, prior := if g.st = .flushing then .mirrored else g.prior })))
    ∧ (∃ s : State, ∃ p : Nat, ∃ n : Nat, ∃ c : Ctx, ∃ d : Ctx, (c.run = .parked .echo ∧ d = { c with echo := c.echo.filter (· != p) }))
    ∧ (∃ s : State, ∃ g : Nat, ∃ x : Grp, (g < 2 ∧ x = grpOf s g))
    ∧ (∃ s : State, ∃ c : Cid, ∃ d : Nat, ∃ g : Nat, ∃ x : Grp, ∃ m : Moment, ∃ t : State, (Manager s c 0 ∧ g = field d 8 1 ∧ x = grpOf s g ∧ t = noteAna (setGrp s g { x with releasing := some c })))
    ∧ (∃ s : State, ∃ c : Cid, ∃ d : Nat, ∃ e : Nat, ∃ n : Nat, (Manager s c 0 ∧ n = field e 0 16)) :=
  ⟨⟨echoSt, 3, 8, 100, count echoSt 0x0B02, { st := .committed, unmir := true, rc := some pageRec }, by first | decide | decide +kernel⟩,
   ⟨echoSt, 3, 100, pageRec, { st := .committed, unmir := true, rc := some pageRec }, _, _, ⟨by decide, by decide, by decide, by decide, rfl, by decide⟩, rfl⟩,
   ⟨echoSt, 3, 0, { cmdThr with run := .parked .echo, echo := [3] }, { cmdThr with run := .parked .echo, echo := [] }, by first | decide | decide +kernel⟩,
   ⟨lineSt { owned := true, pair := .degraded }, 0, { owned := true, pair := .degraded }, by first | decide | decide +kernel⟩,
   ⟨lineSt { line := .mine, owned := true }, ⟨.pf0, 0⟩, 1, 0, { line := .mine, owned := true }, {}, _, by decide, by decide, by decide, rfl⟩,
   ⟨lineSt { owned := true, await := [5] }, ⟨.pf0, 0⟩, 2, 5, 5, by first | decide | decide +kernel⟩⟩

set_option maxRecDepth 20000 in
theorem premises_ServiceLink :
    (∃ s : State, ∃ t : State, (t = svcLinkLost (flr (flr (svcRegsClear s) 0) 1)))
    ∧ (∃ s : State, ∃ n : Nat, ∃ f : SvcFn, ∃ c : FnCfg, (n < 66 ∧ f = fnOf s n ∧ fnLive s n = true ∧ f.flr = false ∧ s.svc.perst = false))
    ∧ (∃ s : State, ∃ n : Nat, ∃ f : SvcFn, ∃ c : FnCfg, ∃ l : List Nat, ∃ t : State, (f = fnOf s n ∧ l = (if f.fnMask = true ∧ c.fnMask = false then f.pending.filter fun v => !f.masked.contains v else []) ∧ t = setFn s n { f with msixEn := c.msixEn, fnMask := c.fnMask, pending := f.pending.filter fun v => !l.contains v }))
    ∧ (∃ s : State, ∃ n : Nat, ∃ c : FnCfg, ∃ b : Bool, (n < 66 ∧ (fnLive s n = false ∨ (fnOf s n).flr = true ∨ s.svc.perst = true)))
    ∧ (∃ s : State, ∃ n : Nat, ∃ f : SvcFn, ∃ t : State, (n < 66 ∧ f = fnOf s n ∧ t = vcResetBy s (65536 + n) false abortCtx))
    ∧ (∃ s : State, ∃ n : Nat, ∃ f : SvcFn, (n < 66 ∧ f = fnOf s n))
    ∧ (∃ s : State, ∃ n : Nat, ∃ t : State, ∃ u : State, ∃ v : State, ∃ w : State, (t = assocEndBy (setFn s n { fnOf s n with flr := true, bme := false, rdy := false, instar := bumpInstar (fnOf s n).instar s.now (ticksMs 1) }) (65536 + n) false withdrawCtx ∧ u = setFn t n { fnOf t n with holding := [], hold := false, dma := [], fetching := [] } ∧ v = writeEvent (rcAdd u 0xD0010 0 1) { num := 0x0E03, inst := n, instar := (fnOf u n).instar.val.toNat, detail := [n, (vcCommands s (65536 + n)).length] } ∧ w = closePortCtxs { v with svc := { v.svc with mctpAsm := false } }))
    ∧ (∃ s : State, ∃ k : Nat, ∃ t : State, (t = (List.range (s.svc.vfs - k)).foldl (fun u i => flrOne u (k + i + 2)) s))
    ∧ (∃ s : State, ∃ n : Nat, ∃ v : Nat, ∃ f : SvcFn, ∃ b : Bool, ∃ t : State, (n < 66 ∧ f = fnOf s n ∧ t = setFn s n { f with masked := f.masked.filter (· != v), pending := if f.fnMask then f.pending else f.pending.filter (· != v) }))
    ∧ (∃ s : State, ∃ n : Nat, ∃ v : Nat, ∃ f : SvcFn, (f = fnOf s n))
    ∧ (∃ s : State, ∃ n : Nat, ∃ b : Bool, (n < 66 ∧ fnLive s n = true ∧ (fnOf s n).flr = false ∧ s.svc.perst = false))
    ∧ (∃ s : State, ∃ n : Nat, ∃ f : SvcFn, (f = fnOf s n))
    ∧ (∃ s : State, ∃ n : Nat, ∃ k : Nat, ∃ g : Nat, ∃ c : FnCfg, ∃ b : Bool, ∃ v : Word, ∃ d : DmaRead, (66 ≤ n)) :=
  ⟨⟨st .active, svcLinkLost (flr (flr (svcRegsClear (st .active)) 0) 1), rfl⟩,
   ⟨{ svcSt { bme := true } with svc := { perst := false, fns := [(0, { bme := true })] } }, 0, { bme := true }, {}, by first | decide | decide +kernel⟩,
   ⟨svcSt { fnMask := true, msixEn := true, bme := true, pending := [2] }, 0, { fnMask := true, msixEn := true, bme := true, pending := [2] }, { msixEn := true }, [2], svcSt { msixEn := true, bme := true }, by first | decide | decide +kernel⟩,
   ⟨svcSt {}, 5, {}, true, by first | decide | decide +kernel⟩,
   ⟨svcSt { holding := [.msix 0 1], hold := true }, 0, { holding := [.msix 0 1], hold := true }, svcSt { holding := [.msix 0 1], hold := true }, by first | decide | decide +kernel⟩,
   ⟨svcSt { flr := true }, 0, { flr := true }, by first | decide | decide +kernel⟩,
   ⟨svcSt {}, 1, _, _, _, _, rfl, rfl, rfl, rfl⟩,
   ⟨svcSt {}, 0, svcSt {}, by first | decide | decide +kernel⟩,
   ⟨svcSt { masked := [3], pending := [3], msixEn := true, bme := true }, 0, 3, { masked := [3], pending := [3], msixEn := true, bme := true }, false, svcSt { msixEn := true, bme := true }, by first | decide | decide +kernel⟩,
   ⟨{ svcSt { msixEn := true, bme := true } with svc := { perst := false, fns := [(0, { msixEn := true, bme := true })] } }, 0, 3, { msixEn := true, bme := true }, by first | decide | decide +kernel⟩,
   ⟨{ svcSt {} with svc := { perst := false, fns := [(0, {})] } }, 0, true, by first | decide | decide +kernel⟩,
   ⟨svcSt { bme := true, holding := [.msix 0 1] }, 0, { bme := true, holding := [.msix 0 1] }, by first | decide | decide +kernel⟩,
   ⟨st .active, 66, 0, 0, {}, true, 0, .entries 0, by first | decide | decide +kernel⟩⟩

set_option maxRecDepth 20000 in
theorem premises_ServiceRegistersAndMctp :
    (∃ s : State, ∃ n : Nat, ∃ v : Word, ∃ f : SvcFn, ∃ t : State, (n < 66 ∧ f = fnOf s n ∧ fnLive s n = true ∧ f.flr = false ∧ f.d3hot = false ∧ s.svc.perst = false ∧ s.glb.mode ≠ .held) ∧ (t = setFn s n { f with cc := v.toNat, shst := if field v.toNat 14 2 = 0 then 0 else 2 }))
    ∧ (∃ s : State, ∃ n : Nat, ∃ r : VssRec, ∃ t : State, (vssOf s (fnVss s n) = some r ∧ t = assocEndBy s (65536 + n) true abortCtx))
    ∧ (∃ s : State, ∃ n : Nat, ∃ i : Nat, ∃ v : Word, ∃ f : SvcFn, (n < 66 ∧ f = fnOf s n))
    ∧ (∃ s : State, ∃ n : Nat, ∃ g : Nat, ∃ k : Nat, ∃ f : SvcFn, ∃ b : Bool, ∃ d : DmaRead, (n < 66 ∧ f = fnOf s n))
    ∧ (∃ s : State, ∃ a : Nat, ∃ n : Nat, (mctpServed s = true))
    ∧ (∃ s : State, ∃ e : Nat, ∃ n : Nat, ∃ q : SpdmReq, (mctpServed s = true))
    ∧ (∃ s : State, ∃ e : Nat, ∃ n : Nat, ∃ i : Nat, ∃ a : Nat, ∃ b : Nat, ∃ c : Nat, ∃ d : Nat, ∃ f : Nat, ∃ m : Moment, (mctpServed s = true ∧ n ≤ 8128))
    ∧ (∃ s : State, ∃ e : Nat, ∃ n : Nat, ∃ i : Nat, ∃ a : Nat, ∃ b : Nat, ∃ c : Nat, ∃ d : Nat, ∃ f : Nat, ∃ m : Moment, (mctpServed s = true ∧ n ≤ 8128))
    ∧ (∃ s : State, ∃ e : Nat, ∃ n : Nat, ∃ o : Nat, ∃ i : Nat, ∃ a : Nat, ∃ b : Nat, ∃ c : Nat, ∃ d : Nat, ∃ f : Nat, ∃ m : Moment, (mctpServed s = true))
    ∧ (∃ s : State, ∃ e : Nat, ∃ n : Nat, ∃ o : Nat, ∃ i : Nat, ∃ a : Nat, ∃ b : Nat, ∃ c : Nat, ∃ d : Nat, ∃ f : Nat, ∃ m : Moment, ∃ q : SpdmReq, (mctpServed s = false))
    ∧ (∃ s : State, ∃ c : Cid, ∃ d : Nat, ∃ n : Nat, (Manager s c 0 ∧ n = field d 0 7 ∧ field d 16 12 = 0))
    ∧ (∃ s : State, ∃ c : Cid, ∃ d : Nat, ∃ n : Nat, ∃ v : Nat, ∃ r : VssRec, (Manager s c 0 ∧ n = field d 0 7 ∧ v = field d 16 12 ∧ v ≠ 0 ∧ vssOf s v = some r)) :=
  ⟨⟨{ svcSt {} with svc := { perst := false, fns := [(0, {})] } }, 0, 1, {}, { svcSt {} with svc := { perst := false, fns := [(0, { cc := 1 })] } }, by first | decide | decide +kernel⟩,
   ⟨{ ioSt with cat := { ioSt.cat with binds := [(3, 1)] } }, 3, { state := .active, slots := 8, cocMib := 8, tqQuota := 4, quantum := 4 }, _, by decide, rfl⟩,
   ⟨svcSt { rdy := true, bme := true }, 0, 4096, 1, { rdy := true, bme := true }, by first | decide | decide +kernel⟩,
   ⟨svcSt { bme := true, fetching := [1] }, 0, 0, 1, { bme := true, fetching := [1] }, false, .entries 1, by first | decide | decide +kernel⟩,
   ⟨svcSt {}, 9, 6, by first | decide | decide +kernel⟩,
   ⟨svcSt {}, 9, 64, .getVersion, by first | decide | decide +kernel⟩,
   ⟨svcSt {}, 9, 64, 1, 0, 0, 0, 0, 0, {}, by first | decide | decide +kernel⟩,
   ⟨svcSt {}, 9, 64, 1, 0, 0, 0, 0, 0, {}, by first | decide | decide +kernel⟩,
   ⟨svcSt {}, 9, 64, 0xC8, 1, 0, 0, 0, 0, 0, {}, by first | decide | decide +kernel⟩,
   ⟨{ svcSt {} with svc := { perst := true } }, 9, 64, 0xC4, 1, 0, 0, 0, 0, 0, {}, .getVersion, by first | decide | decide +kernel⟩,
   ⟨st .active, ⟨.pf0, 0⟩, 1, 1, by first | decide | decide +kernel⟩,
   ⟨ioSt, ⟨.pf0, 0⟩, 65537, 1, 1, { state := .active, slots := 8, cocMib := 8, tqQuota := 4, quantum := 4 }, by first | decide | decide +kernel⟩⟩

set_option maxRecDepth 20000 in
theorem premises_RecordsAndCounters :
    (∃ s : State, ∃ t : State, (t = (List.range (s.evr.queue.length + 1)).foldl (fun u _ => drainOne u) s))
    ∧ (∃ s : State, ∃ c : Cid, ∃ a : Nat, ∃ b : Nat, ∃ n : Nat, ∃ f : Nat, ∃ k : Nat, ∃ l : List Nat, (f = a % 2 ^ 32 + 2 ^ 32 * (b % 2 ^ 32) ∧ k = n % 2 ^ 32 ∧ l = liveSeqs s f))
    ∧ (∃ s : State, ∃ p : Path, ∃ l : List Nat, (l = evrWords s (evrCursor s)))
    ∧ (∃ s : State, ∃ v : Word, ∃ t : State, ∃ u : State, (t = { s with cyc := { s.cyc with onPin := bitAt v.toNat 2, onEvent := bitAt v.toNat 3, freezeEvent := field v.toNat 16 16 } } ∧ u = (if bitAt v.toNat 1 = true then cycClear t else t))) :=
  ⟨⟨st .active, st .active, by first | decide | decide +kernel⟩,
   ⟨st .active, ⟨.pf0, 0⟩, 0, 0, 4, 0, 4, [], by first | decide | decide +kernel⟩,
   ⟨st .active, .mgmt, List.replicate 64 0, by first | decide | decide +kernel⟩,
   ⟨st .active, 3, st .active, st .active, by first | decide | decide +kernel⟩⟩

set_option maxRecDepth 20000 in
theorem premises_MemoryAndTestBench :
    (∃ s : State, ∃ r : Nat, ∃ a : Nat, ∃ k : Nat, ∃ x : LineRead, ∃ y : LineRead, ∃ t : State, ∃ u : State, (r < 16 ∧ t = setRegion s r { regionOf s r with scrubPct := min 100 k } ∧ (y, u) = flipRead t r a x))
    ∧ (∃ s : State, ∃ c : Cid, ∃ d : Nat, ∃ t : State, (Manager s c 2 ∧ t = (List.range 8).foldl injDisarm s))
    ∧ (∃ s : State, ∃ i : Nat, ∃ v : Word, ∃ j : Injector, ∃ t : State, (i < 8 ∧ authMode s = true ∧ s.ptb.available = true ∧ j = { injOf s i with point := field v.toNat 0 4, kind := field v.toNat 4 3, instFilter := bitAt v.toNat 8, inst := field v.toNat 16 16 } ∧ t = setInj s i j))
    ∧ (∃ s : State, ∃ i : Nat, ∃ n : Nat, ∃ j : Injector, ∃ x : HeldItem, (i < 8 ∧ j = injOf s i))
    ∧ (∃ s : State, ∃ p : Path, ∃ r : CapRec, ∃ l : List Nat, ∃ t : State, (r = tget s.ptb.caps {} (rwGet s 0xF0020 0) ∧ l = capWords r ∧ t = { s with ptb := { s.ptb with caps := tput s.ptb.caps {} (rwGet s 0xF0020 0) { r with timebase := r.timebase / 2 ^ 32 * 2 ^ 32 } } })) :=
  ⟨⟨memSt { code := 1, len := 1, init := true }, 1, 64, 5, .clean, .clean, memSt { code := 1, len := 1, init := true, scrubPct := 5 }, memSt { code := 1, len := 1, init := true, scrubPct := 5 }, by first | decide | decide +kernel⟩,
   ⟨st .active, ⟨.pf0, 0⟩, 0x4C4B0001, st .active, by first | decide | decide +kernel⟩,
   ⟨ptbSt {}, 2, 0x91, { point := 1, kind := 1 }, ptbSt { point := 1, kind := 1 }, by first | decide | decide +kernel⟩,
   ⟨ptbSt { kind := 2, items := [⟨0, 5, .accept 1 2⟩] }, 2, 0, { kind := 2, items := [⟨0, 5, .accept 1 2⟩] }, ⟨0, 5, .accept 1 2⟩, by first | decide | decide +kernel⟩,
   ⟨ptbSt {}, .mgmt, {}, [0, 0, 0, 0, 0, 0, 0, 0], ptbSt {}, by first | decide | decide +kernel⟩⟩

set_option maxRecDepth 20000 in
theorem premises_ElectricalEvents :
    (∃ s : State, ∃ d : Die, ∃ k : Nat, ∃ b : Bool, ∃ t : State, (s.glb.mode ≠ .held ∧ t = noteTemp s d k))
    ∧ (∃ s : State, ∃ k : Nat, ∃ m : Moment, (k < 4))
    ∧ (∃ s : State, ∃ l : List Nat, ∃ t : State, ∃ u : State, (t = { s with glb := { s.glb with pwrfail := true } } ∧ u = closeCocoon (releaseBoth (dropIngress t) 2) l))
    ∧ (∃ s : State, ∃ k : Nat, ∃ t : State, (k < 4 ∧ t = { s with glb := { s.glb with clkLost := s.glb.clkLost ||| BitVec.ofNat 4 (2 ^ k) } }))
    ∧ (∃ s : State, ∃ t : State, (t = emit { s with freeCtr := s.freeCtr + 1 } (.jtag (some (Config.freeValue s.freeCtr))))) :=
  ⟨⟨st .active, .logic, 110, true, { glb := { mode := .active, tempLogic := 110, tempMax := 110 } }, by first | decide | decide +kernel⟩,
   ⟨st .active, 3, {}, by first | decide | decide +kernel⟩,
   ⟨st .active, [0], { glb := { mode := .active, pwrfail := true } }, closeCocoon (releaseBoth (dropIngress { glb := { mode := .active, pwrfail := true } }) 2) [0], ⟨rfl, rfl⟩⟩,
   ⟨st .active, 2, { glb := { mode := .active, clkLost := 4 } }, by first | decide | decide +kernel⟩,
   ⟨st .active, emit { st .active with freeCtr := 1 } (.jtag (some (Config.freeValue 0))), rfl⟩⟩

end Sys2Proof.Tests
end

section
/-! The identity register: what `GBL_ID` reads, and the two requests that read it. -/

namespace Sys2Proof.Machine

/-- A management command that is served, of a sender who holds its role, runs. -/
theorem asManagerIn_granted {s : State} {c : Cid} {r : Nat} {served : Bool} (f : State → State) (hserved : served = true)
    (hrole : hasRole s c r = none) : asManagerIn s c r served f = f s := by
  unfold asManagerIn
  rw [hserved, hrole]
  rfl

/-- Register Read with ATOMIC 0 completes with what a plain read on the management path answers. -/
theorem registerRead_plain {s : State} {c : Cid} {w0 w1 : Word} (w2 w3 : Word) (hserved : readServed s c = true)
    (hrole : hasRole s c 1 = none) (hoff : offOk w0 = true) (hatomic : bitAt w1.toNat 0 = false) :
    registerRead s c w0 w1 w2 w3 =
      reply (regRead s .mgmt w0.toNat false 0).2 c .success (regRead s .mgmt w0.toNat false 0).1 := by
  unfold registerRead
  rw [asManagerIn_granted _ hserved hrole, hoff, hatomic]
  rfl

/-- Outside Held, a row that reads four aligned bytes outputs the value read. -/
theorem execLoRegisterRead_word {s : State} {off : Nat} (p : Path) (halign : off % 4 = 0) (hspace : off < 1048576)
    (hmode : s.glb.mode ≠ .held) :
    execLoRegisterRead ⟨p, off, 4⟩ s = .next (answerRead s (regRead s p off false 0)) :=
  congrArg Host.Outcome.next (readAt_ok s 0 (accessOk_word p off halign hspace) hmode)

/-- Outside Held, an answered read is output. -/
theorem answerRead_running {s : State} (r : Nat × State) (hmode : s.glb.mode ≠ .held) :
    answerRead s r = emit r.2 (.readData (word r.1)) := if_neg hmode

/-- `GBL_ID` holds the part's identity (R1). -/
theorem viewReg_gblId (s : State) : viewReg s 0 = gblId := rfl

/-- `GBL_ID` is no `_LO` register: a read of it takes no snapshot. -/
theorem takeSnaps_gblId (s : State) (p : Path) (inst : Nat) (atomic : Bool) : takeSnaps s p 0 inst atomic = s := rfl

/-- A plain read of `GBL_ID` answers the identity and leaves the state as it was. -/
theorem regRead_gblId {s : State} {p : Path} (inc : Nat) (hsnap : tget s.regs.snap none (pathKey 0 p) = none) :
    regRead s p 0 false inc = (gblId, s) := by
  rw [regRead_plain inc (by decide) (by decide) hsnap (by decide), viewReg_gblId, takeSnaps_gblId]
  rfl

/-- IDCODE outputs the identity in every state, so in every mode (R539). -/
theorem exec_jtagIdcode_gblId (s : State) : exec .jtagIdcode s = .next (emit s (.jtag (some gblId))) := exec_jtagIdcode s

/-- Settles O9: a plain read of `GBL_ID` is the identity and the unchanged state on each path, and both requests carry it. -/
theorem identityRegister : Obligations.IdentityRegister := by
  unfold Obligations.IdentityRegister
  rintro s p c w x ⟨hmode, hsnap⟩
  refine ⟨?row, fun hserved hrole => ?command, exec_jtagIdcode_gblId s⟩
  case row =>
    rw [exec_loRegisterRead, execLoRegisterRead_word p (by decide) (by decide) hmode, answerRead_running _ hmode,
      regRead_gblId 0 (hsnap p)]
    rfl
  case command =>
    have hread : regRead s .mgmt (0 : Word).toNat false 0 = (gblId, s) := regRead_gblId 0 (hsnap .mgmt)
    rw [exec_registerRead]
    unfold execRegisterRead
    rw [registerRead_plain w x hserved hrole (by decide) (by decide), hread]
    rfl

end Sys2Proof.Machine
end

section
/-! A write of the reset register: the key decides, and COLD wins over WARM (R54). -/

namespace Sys2Proof.Machine

/-- A write in a mode in which registers can be written: the key is checked first, then the bits, the rivals of R48, and COLD before
WARM (R54, R74). -/
theorem resetWrite_writable {s : State} (v : Nat) (m : Moment) (hmode : authMode s = true) :
    resetWrite s v m =
      if field v 16 16 ≠ 0x5A17 then count s 0x0002
      else if !bitAt v 0 && !bitAt v 1 then s
      else if outranked m.rivals .reset then setReq s 2
      else if bitAt v 1 then internalReset s false 1 m
      else internalReset s true 3 m := by
  unfold authMode at hmode
  unfold resetWrite
  cases hm : s.glb.mode with
  | standby | active | drain | safe => rfl
  | held | boot => simp [hm] at hmode

/-- A write without the key is counted, and nothing else. -/
theorem resetWrite_wrongKey {s : State} {v : Nat} (m : Moment) (hmode : authMode s = true) (hkey : field v 16 16 ≠ 0x5A17) :
    resetWrite s v m = count s 0x0002 := by
  rw [resetWrite_writable v m hmode, if_pos hkey]

/-- A write with the key and COLD is the internal cold reset, whether WARM is written with it or not. -/
theorem resetWrite_cold {s : State} {v : Nat} {m : Moment} (hmode : authMode s = true) (hkey : field v 16 16 = 0x5A17)
    (hcold : bitAt v 1 = true) (hfirst : outranked m.rivals .reset = false) : resetWrite s v m = internalReset s false 1 m := by
  rw [resetWrite_writable v m hmode, hcold, hfirst, if_neg (not_not_intro hkey), Bool.not_true, Bool.and_false]
  rfl

/-- A reset records its cause, and a start-up that stays in Held keeps it (R75). -/
theorem internalReset_resetCause (s : State) (warm : Bool) (cause : Nat) (m : Moment) :
    (internalReset s warm cause m).glb.resetCause = cause := by
  obtain ⟨-, hcause, -, -⟩ := startsUp_internalReset s warm cause m
  exact hcause

/-- Settles O10: both requests are one write of the register, which goes by the key and by COLD. -/
theorem resetControlKey : Obligations.ResetControlKey := by
  unfold Obligations.ResetControlKey
  intro s v m hmode
  rw [exec_warmResetRequest, exec_coldResetRequest]
  unfold execWarmResetRequest execColdResetRequest
  refine ⟨rfl, fun hkey => ?wrongKey, fun hkey _ hcold hfirst => ⟨?cold, internalReset_resetCause s false 1 m⟩⟩
  case wrongKey => rw [resetWrite_wrongKey m hmode hkey]
  case cold => rw [resetWrite_cold hmode hkey hcold hfirst]

end Sys2Proof.Machine
end

section
/-! A power failure outside operation (R70): what its assertion does in Boot, Safe and Held, and that a halted Boot ignores the end of
every stage. -/

namespace Sys2Proof.Machine

/-- Nothing of the same tick outranks the assertion: it is the power failure, which names no rail. -/
theorem exec_pwrfailLAsserted_first {s : State} {m : Moment} (hfirst : outranked m.rivals .pwrfail = false) :
    exec (.pwrfailLAsserted m) s = .next (powerFail s []) := by
  rw [exec_pwrfailLAsserted]
  unfold execPwrfailLAsserted
  rw [hfirst]
  rfl

/-- In Held a power failure does nothing. -/
theorem powerFail_held {s : State} (rail : List Nat) (hmode : s.glb.mode = .held) : powerFail s rail = s := by
  unfold powerFail
  rw [hmode, show (Mode.held == Mode.held) = true from rfl, Bool.or_true]
  rfl

/-- In Safe the first assertion is latched and takes steps 3 to 5 of R67. -/
theorem powerFail_safe {s : State} (rail : List Nat) (hlatch : s.glb.pwrfail = false) (hmode : s.glb.mode = .safe) :
    powerFail s rail = closeCocoon { s with glb := { s.glb with pwrfail := true } } rail := by
  simp [powerFail, hlatch, hmode]

/-- In Boot the first assertion is latched and halts the present stage, after steps 3 to 5 of R67 if the cocoon is up. -/
theorem powerFail_boot {s t u : State} (rail : List Nat) (hlatch : s.glb.pwrfail = false) (hmode : s.glb.mode = .boot)
    (ht : t = { s with glb := { s.glb with pwrfail := true } }) (hu : u = if s.coc.up then closeCocoon t rail else t) :
    powerFail s rail = { u with glb := { u.glb with bootHalted := true } } := by
  subst ht hu
  simp [powerFail, hlatch, hmode]

/-! ### The end of a stage that Boot does not stand at -/

/-- A halted Boot stands at no stage. -/
theorem atStep_halted {s : State} (n : Nat) (hhalt : s.glb.bootHalted = true) : atStep s n = false := by
  simp [atStep, hhalt]

theorem memoryPrepared_elsewhere {s : State} (bad1 bad2 : Option Nat) (h : atStep s 2 = false) : memoryPrepared s bad1 bad2 = s :=
  if_pos (by simp [h])

theorem imageLoaded_elsewhere {s : State} (r : NorReport) (h : atStep s 3 = false) : imageLoaded s r = s :=
  if_pos (by simp [h])

theorem imageVerified_elsewhere {s : State} (v1 : ImageVerdict) (reread : Bool) (v2 : ImageVerdict) (h : atStep s 4 = false) :
    imageVerified s v1 reread v2 = s :=
  if_pos (by simp [h])

theorem configured_elsewhere {s : State} (h : atStep s 5 = false) : configured s = s :=
  if_pos (by simp [h])

theorem dramTrained_elsewhere {s : State} (fit1 fit2 : List Nat) (h : atStep s 6 = false) : dramTrained s fit1 fit2 = s :=
  if_pos (by simp [h])

theorem dramSwept_elsewhere {s : State} (swept : List Nat) (late1 late2 : Bool) (h : atStep s 7 = false) :
    dramSwept s swept late1 late2 = s :=
  if_pos (by simp [h])

theorem scanEnded_elsewhere {s : State} (r : ScanReport) (h : atStep s 7 = false) : scanEnded s r = s :=
  if_pos (by simp [h])

theorem recordWritten_elsewhere {s : State} (ok1 ok2 : Bool) (ms : Nat) (h : atStep s 8 = false) : recordWritten s ok1 ok2 ms = s :=
  if_pos (by simp [h])

/-- The limit of a stage does not run in a halted Boot. -/
theorem limitExpired_halted {s : State} (hmode : s.glb.mode = .boot) (hhalt : s.glb.bootHalted = true) : limitExpired s = s := by
  simp [limitExpired, stageExpired, hmode, hhalt]

/-- Settles O12: the assertion is the power failure of each mode, and a halted Boot stands at no stage that could end. -/
theorem powerFailOutsideOperation : Obligations.PowerFailOutsideOperation := by
  unfold Obligations.PowerFailOutsideOperation
  rintro s t m ⟨ht, hlatch, hfirst⟩
  rw [exec_pwrfailLAsserted_first hfirst]
  refine ⟨fun hmode hup => ?bootDown, fun hmode hup => ?bootUp, fun hmode => ?safe, fun hmode => ?held, fun u hmode hhalt => ?halted⟩
  case bootDown => rw [powerFail_boot [] hlatch hmode ht rfl, hup]; rfl
  case bootUp => rw [powerFail_boot [] hlatch hmode ht rfl, hup]; rfl
  case safe => rw [powerFail_safe [] hlatch hmode, ht]
  case held => rw [powerFail_held [] hmode]
  case halted =>
    have stop (n : Nat) : atStep u n = false := atStep_halted n hhalt
    exact ⟨congrArg Host.Outcome.next (limitExpired_halted hmode hhalt),
      fun a b => congrArg Host.Outcome.next (memoryPrepared_elsewhere a b (stop 2)),
      fun r => congrArg Host.Outcome.next (imageLoaded_elsewhere r (stop 3)),
      fun v r w => congrArg Host.Outcome.next (imageVerified_elsewhere v r w (stop 4)),
      congrArg Host.Outcome.next (configured_elsewhere (stop 5)),
      fun a b => congrArg Host.Outcome.next (dramTrained_elsewhere a b (stop 6)),
      fun l a b => congrArg Host.Outcome.next (dramSwept_elsewhere l a b (stop 7)),
      fun r => congrArg Host.Outcome.next (scanEnded_elsewhere r (stop 7)),
      fun a b n => congrArg Host.Outcome.next (recordWritten_elsewhere a b n (stop 8))⟩

end Sys2Proof.Machine
end

section
/-! The pause watchdog against the end of its pause in the same tick (R145). -/

namespace Sys2Proof.Machine

/-- A row on a sub-port and a priority that exist runs. -/
theorem onPrio_exists {sub prio : Nat} {s : State} (f : State → State) (hexists : sub < 32 ∧ prio < 8) :
    onPrio sub prio s f = .next (f s) := if_pos hexists

/-- On a priority paused and under PFC, the end of the pause in the same tick is all that happens. -/
theorem watchdogFires_pauseEnds {s : State} {sub prio : Nat} (hpaused : tget (subOf s sub).paused 0 prio ≠ 0)
    (hpfc : bitAt (pfcMask s (sub / 4)) prio = true) : watchdogFires s sub prio true = pauseEnd s sub prio := by
  have hrunning : ¬ (tget (subOf s sub).paused 0 prio = 0 || !bitAt (pfcMask s (sub / 4)) prio) = true := by
    simp [hpaused, hpfc]
  exact (if_neg hrunning).trans (if_pos rfl)

/-- Settles O11: the watchdog's row runs on the priority, and there the pause's end stands before the storm. -/
theorem pauseEndBeatsWatchdog : Obligations.PauseEndBeatsWatchdog := by
  unfold Obligations.PauseEndBeatsWatchdog
  rintro s b p hexists ⟨hpaused, hpfc⟩
  calc exec (.pfcWatchdogExpiry b p true) s
    _ = onPrio b p s fun s => watchdogFires s b p true := exec_pfcWatchdogExpiry b p true s
    _ = .next (watchdogFires s b p true) := onPrio_exists _ hexists
    _ = .next (pauseEnd s b p) := by rw [watchdogFires_pauseEnds hpaused hpfc]

end Sys2Proof.Machine
end

section
/-! What every step keeps: the front command alone leaves the queue (R4), the byte memories stay canonical (R79, R134), one-time storage
only grows (R117, R510), and only the commands named by `writesMemory` can change a byte of either memory. -/

namespace Sys2Proof.Machine

/-! ### A step is its command on the queue's rest, or one tick -/

/-- A step with a command waiting runs it on the queue's rest. -/
theorem step_cons {s : State} {c : Instr} {l : List Instr} (h : s.pending = c :: l) : step s = exec c { s with pending := l } := by
  unfold step
  rw [h]

/-- A step with no command waiting is one tick of the timebase. -/
theorem step_nil {s : State} (h : s.pending = []) : step s = .next (idleTick s) := by
  unfold step
  rw [h]

/-- In Held the timebase stands. -/
theorem idleTick_held {s : State} (h : s.glb.mode = .held) : idleTick s = s := by
  unfold idleTick
  rw [h]

/-- A tick counts, and moves what `quiet` keeps of the state by the timebase and the time in Standby or Active alone. -/
theorem quiet_idleTick {s : State} (h : s.glb.mode ≠ .held) :
    ∃ n, quiet (idleTick s) = quiet { s with now := (s.now + 1) % 2 ^ 64, glb := { s.glb with runTicks := n } } := by
  unfold idleTick
  cases hm : s.glb.mode with
  | held => exact absurd hm h
  | standby | active => exact ⟨s.glb.runTicks + 1, quiet_count ..⟩
  | boot | drain | safe => exact ⟨s.glb.runTicks, quiet_count ..⟩

/-- Settles O1: the front command runs on the queue's rest; without one a tick moves the timebase outside Held. -/
theorem stepRunsFront : Obligations.StepRunsFront := by
  unfold Obligations.StepRunsFront
  refine ⟨fun c l s => rfl, fun s hq => ⟨fun hm => ?held, fun hm => ?running⟩⟩
  case held => rw [step_nil hq, idleTick_held hm]
  case running =>
    obtain ⟨n, h⟩ := quiet_idleTick hm
    have hnow : (quiet (idleTick s)).now = (s.now + 1) % 2 ^ 64 := congrArg State.now h
    have hmode : (quiet (idleTick s)).glb.mode = s.glb.mode := congrArg (fun t => t.glb.mode) h
    have hpending : (idleTick s).pending = s.pending := congrArg Keep.pending (keep_idleTick s)
    exact ⟨idleTick s, step_nil hq, hnow, hmode, hpending.trans hq⟩

/-! ### The state after reset -/

/-- Settles O2: the fields have their reset values, and in Held the three requests change nothing. -/
theorem resetState : Obligations.ResetState := by
  unfold Obligations.ResetState
  refine ⟨rfl, rfl, rfl, rfl, rfl, rfl, rfl, rfl, rfl, rfl, fun b => rfl, fun g => ?owned, rfl, fun m => rfl, fun m => rfl, fun v m => rfl⟩
  case owned =>
    have reset_grp (g : Nat) : grpOf State.reset g = {} := by unfold grpOf; split <;> rfl
    rw [reset_grp]

/-- Settles O3: at reset TRS_BUF and the NOR list no byte. -/
theorem memoriesCanonicalAtReset : Obligations.MemoriesCanonicalAtReset := ⟨rfl, rfl⟩

/-! ### What every step keeps -/

/-- What `grows_exec` says of a command, said of a step: the memories stay canonical and one-time storage only grows. -/
theorem step_grows {s t : State} (h : step s = .next t) :
    (MemInv s → MemInv t) ∧ OtpGrows s t ∧ (∀ c l, s.pending = c :: l → t.pending = l) := by
  cases hq : s.pending with
  | nil =>
    rw [step_nil hq] at h
    cases h
    have e := keep_idleTick s
    have hbuf : (idleTick s).trs.buf = s.trs.buf := congrArg Keep.buf e
    have hflash : (idleTick s).nor.flash = s.nor.flash := congrArg Keep.flash e
    have hlock : (idleTick s).trs.fieldLock = s.trs.fieldLock := congrArg Keep.lock e
    have hsvn : (idleTick s).trs.svnBank = s.trs.svnBank := congrArg Keep.svn e
    refine ⟨?_, ?_, fun c l hc => by cases hc⟩
    · unfold MemInv; rw [hbuf, hflash]; exact id
    · unfold OtpGrows; rw [hlock, hsvn]; exact ⟨id, List.prefix_refl _⟩
  | cons c l =>
    rw [step_cons hq] at h
    obtain ⟨hpending, hbuf, hflash, hlock, hsvn⟩ := grows_exec c { s with pending := l } t h
    refine ⟨fun ⟨b, f⟩ => ⟨hbuf b, hflash f⟩, ⟨hlock, hsvn⟩, fun d k hd => ?_⟩
    cases hd
    exact hpending

/-- Settles O4: every command keeps both memories canonical, and a tick does not touch them. -/
theorem memoriesStayCanonical : Obligations.MemoriesStayCanonical := fun _ _ hinv h => (step_grows h).1 hinv

/-- Settles O5: a command leaves the queue it is given, which is the rest. -/
theorem queueFirstInFirstOut : Obligations.QueueFirstInFirstOut := fun c l _ _ hq h => (step_grows h).2.2 c l hq

/-- Settles O6: every command lets the field lock and the SVN bank only grow, and a tick does not touch them. -/
theorem oneTimeStorageOnlyGrows : Obligations.OneTimeStorageOnlyGrows := fun _ _ h => (step_grows h).2.1

/-! ### Which commands change a byte -/

/-- An outcome keeps the queue and every byte of both memories. -/
def KeepsMemory (s : State) (o : Host.Outcome State Fault Refusal) : Prop :=
  ∀ t, o = .next t → t.pending = s.pending ∧ t.trs.buf = s.trs.buf ∧ t.nor.flash = s.nor.flash

theorem keepsMemory_of_keeps {s : State} {o : Host.Outcome State Fault Refusal} (h : Keeps s o) : KeepsMemory s o := fun t e =>
  ⟨congrArg Keep.pending (h t e), congrArg Keep.buf (h t e), congrArg Keep.flash (h t e)⟩

theorem keepsMemory_next {s t : State} (h : t.pending = s.pending ∧ t.trs.buf = s.trs.buf ∧ t.nor.flash = s.nor.flash) :
    KeepsMemory s (.next t) := by
  intro u e
  cases e
  exact h

/-- What an operation leaves of the queue and the memories depends on what `keep` names alone. -/
theorem keepMemory_of_keep {s t u : State} (h : keep t = keep u)
    (hu : u.pending = s.pending ∧ u.trs.buf = s.trs.buf ∧ u.nor.flash = s.nor.flash) :
    t.pending = s.pending ∧ t.trs.buf = s.trs.buf ∧ t.nor.flash = s.nor.flash :=
  ⟨(congrArg Keep.pending h).trans hu.1, (congrArg Keep.buf h).trans hu.2.1, (congrArg Keep.flash h).trans hu.2.2⟩

/-- The end of a burn changes one-time storage, and no byte of either memory. -/
theorem keepMemory_burnDone (s ok) :
    (burnDone s ok).pending = s.pending ∧ (burnDone s ok).trs.buf = s.trs.buf ∧ (burnDone s ok).nor.flash = s.nor.flash := by
  unfold burnDone
  split
  · exact ⟨rfl, rfl, rfl⟩
  · split
    · exact ⟨rfl, rfl, rfl⟩
    · split
      · exact keepMemory_of_keep (keep_authResult ..) ⟨rfl, rfl, rfl⟩
      · split
        · exact keepMemory_of_keep (u := s) (by simp only [keep_writeEvent, keep_authResult, keep_setOwner]) ⟨rfl, rfl, rfl⟩
        · exact keepMemory_of_keep (u := s) (by simp only [keep_writeEvent, keep_authResult, keep_setOwner]) ⟨rfl, rfl, rfl⟩
        · split
          · exact keepMemory_of_keep (keep_authResult ..) ⟨rfl, rfl, rfl⟩
          · exact keepMemory_of_keep ((keep_writeEvent ..).trans (keep_authResult ..)) ⟨rfl, rfl, rfl⟩

/-- A command that `writesMemory` does not name keeps the queue and every byte of both memories. -/
theorem keepsMemory_exec (i : Instr) (s : State) (hi : writesMemory i = false) : KeepsMemory s (exec i s) := by
  cases i with
  | plainRegisterWrite | hiRegisterWrite | loRegisterWrite | selectRegisterWrite | registerWrite | pwronLAsserted
  | pwronLReleased | watchdogExpiry | warmResetRequest | coldResetRequest | pwrfailStableRelease | imageStageWrite
  | imageStageCommit | imageActivateWarm | stagingSessionTimeout | trsKeyRead | rocePacketReceive | svcPerstAssert | bmeClear
  | bmeSet | flrInitiate | mctpVendorManagement | fieldLock | ptbArm | ptbDisarm | injectorRelease | logicHardwareTrip
  | refclkRestored => cases hi
  | readClearCounter => exact keepsMemory_of_keeps (keep_execReadClearCounter _ _ _)
  | loRegisterRead => exact keepsMemory_of_keeps (keep_execLoRegisterRead _ _)
  | registerRead => exact keepsMemory_of_keeps (keep_execRegisterRead _ _ _ _ _ _)
  | memoryPreparationDone => exact keepsMemory_of_keeps (keep_execMemoryPreparationDone _ _ _)
  | imageLoadDone => exact keepsMemory_of_keeps (keep_execImageLoadDone _ _)
  | imageVerificationDone => exact keepsMemory_of_keeps (keep_execImageVerificationDone _ _ _ _)
  | configurationDone => exact keepsMemory_of_keeps (keep_execConfigurationDone _)
  | dramTrainingDone => exact keepsMemory_of_keeps (keep_execDramTrainingDone _ _ _)
  | dramSweepDone => exact keepsMemory_of_keeps (keep_execDramSweepDone _ _ _ _)
  | recoveryScanDone => exact keepsMemory_of_keeps (keep_execRecoveryScanDone _ _)
  | bootRecordWritten => exact keepsMemory_of_keeps (keep_execBootRecordWritten _ _ _ _)
  | bootStageLimitExpiry => exact keepsMemory_of_keeps (keep_execBootStageLimitExpiry _)
  | shutdownRequest => exact keepsMemory_of_keeps (keep_execShutdownRequest _ _)
  | safeRequest => exact keepsMemory_of_keeps (keep_execSafeRequest _ _)
  | drainShutdownComplete => exact keepsMemory_of_keeps (keep_execDrainShutdownComplete _ _)
  | drainLimitExpiry => exact keepsMemory_of_keeps (keep_execDrainLimitExpiry _ _)
  | pwrfailLAsserted => exact keepsMemory_of_keeps (keep_execPwrfailLAsserted _ _)
  | imageActivateLive => exact keepsMemory_of_keeps (keep_execImageActivateLive _ _ _)
  | imageSlotInfo => exact keepsMemory_of_keeps (keep_execImageSlotInfo _ _)
  | imageSwap => exact keepsMemory_of_keeps (keep_execImageSwap _ _ _ _)
  | activationHoldExpiry => exact keepsMemory_of_keeps (keep_execActivationHoldExpiry _ _)
  | trsEnroll => exact keepsMemory_of_keeps (keep_execTrsEnroll _ _)
  | trsRevoke => exact keepsMemory_of_keeps (keep_execTrsRevoke _ _)
  | trsAdvanceMinSvn => exact keepsMemory_of_keeps (keep_execTrsAdvanceMinSvn _ _)
  | otpBurnComplete ok => exact keepsMemory_next (keepMemory_burnDone s ok)
  | spdmExchange => exact keepsMemory_of_keeps (keep_execSpdmExchange _ _ _ _)
  | getVersion => exact keepsMemory_of_keeps (keep_execGetVersion _ _)
  | getCapabilities => exact keepsMemory_of_keeps (keep_execGetCapabilities _ _)
  | negotiateAlgorithms => exact keepsMemory_of_keeps (keep_execNegotiateAlgorithms _ _ _ _ _ _)
  | getDigests => exact keepsMemory_of_keeps (keep_execGetDigests _ _)
  | getCertificate => exact keepsMemory_of_keeps (keep_execGetCertificate _ _ _ _ _)
  | challenge => exact keepsMemory_of_keeps (keep_execChallenge _ _ _ _ _)
  | getMeasurements => exact keepsMemory_of_keeps (keep_execGetMeasurements _ _ _ _ _)
  | spdmUnsupportedRequest => exact keepsMemory_of_keeps (keep_execSpdmUnsupportedRequest _ _ _)
  | spdmContextIdleExpiry => exact keepsMemory_of_keeps (keep_execSpdmContextIdleExpiry _ _)
  | ethFrameReceive => exact keepsMemory_of_keeps (keep_execEthFrameReceive _ _)
  | linkTrainTimeout => exact keepsMemory_of_keeps (keep_execLinkTrainTimeout _ _)
  | linkTrainRetryTimer => exact keepsMemory_of_keeps (keep_execLinkTrainRetryTimer _ _)
  | subportLinkUp => exact keepsMemory_of_keeps (keep_execSubportLinkUp _ _ _ _)
  | subportLinkDown => exact keepsMemory_of_keeps (keep_execSubportLinkDown _ _)
  | pfcPauseExpiry => exact keepsMemory_of_keeps (keep_execPfcPauseExpiry _ _ _)
  | pfcWatchdogExpiry => exact keepsMemory_of_keeps (keep_execPfcWatchdogExpiry _ _ _ _)
  | pfcWatchdogResume => exact keepsMemory_of_keeps (keep_execPfcWatchdogResume _ _ _)
  | addressSlotApply => exact keepsMemory_of_keeps (keep_execAddressSlotApply _ _)
  | macsecRxSaInstall => exact keepsMemory_of_keeps (keep_execMacsecRxSaInstall _ _ _ _ _ _)
  | macsecTxSaInstall => exact keepsMemory_of_keeps (keep_execMacsecTxSaInstall _ _ _ _ _ _)
  | macsecRxSaRetire => exact keepsMemory_of_keeps (keep_execMacsecRxSaRetire _ _ _ _)
  | subportTransmit => exact keepsMemory_of_keeps (keep_execSubportTransmit _ _ _ _ _)
  | cmReq => exact keepsMemory_of_keeps (keep_execCmReq _ _)
  | cmRtu => exact keepsMemory_of_keeps (keep_execCmRtu _ _)
  | cmDreq => exact keepsMemory_of_keeps (keep_execCmDreq _ _)
  | qpTeardown => exact keepsMemory_of_keeps (keep_execQpTeardown _ _)
  | qpContextFree => exact keepsMemory_of_keeps (keep_execQpContextFree _ _)
  | qpContextFetchDone => exact keepsMemory_of_keeps (keep_execQpContextFetchDone _ _ _)
  | ackCoalesceExpiry => exact keepsMemory_of_keeps (keep_execAckCoalesceExpiry _ _ _)
  | ackTimeout => exact keepsMemory_of_keeps (keep_execAckTimeout _ _ _)
  | rnrWaitExpiry => exact keepsMemory_of_keeps (keep_execRnrWaitExpiry _ _)
  | messageLifetimeExpiry => exact keepsMemory_of_keeps (keep_execMessageLifetimeExpiry _ _ _)
  | rateAlphaTimer => exact keepsMemory_of_keeps (keep_execRateAlphaTimer _ _ _)
  | rateIncreaseTimer => exact keepsMemory_of_keeps (keep_execRateIncreaseTimer _ _ _)
  | qpPacketSend => exact keepsMemory_of_keeps (keep_execQpPacketSend _ _ _)
  | dlogEnable => exact keepsMemory_of_keeps (keep_execDlogEnable _ _)
  | dlogDisable => exact keepsMemory_of_keeps (keep_execDlogDisable _ _)
  | qpDlogJoin => exact keepsMemory_of_keeps (keep_execQpDlogJoin _ _)
  | dlogHarvestRead => exact keepsMemory_of_keeps (keep_execDlogHarvestRead _ _ _)
  | instarBumpDeferred => exact keepsMemory_of_keeps (keep_execInstarBumpDeferred _ _)
  | fabricsConnect => exact keepsMemory_of_keeps (keep_execFabricsConnect _ _ _ _)
  | authenticationSend => exact keepsMemory_of_keeps (keep_execAuthenticationSend _ _ _ _)
  | authenticationReceive => exact keepsMemory_of_keeps (keep_execAuthenticationReceive _ _ _)
  | authTimeout => exact keepsMemory_of_keeps (keep_execAuthTimeout _ _ _)
  | propertyGet => exact keepsMemory_of_keeps (keep_execPropertyGet _ _ _)
  | propertySet => exact keepsMemory_of_keeps (keep_execPropertySet _ _ _ _)
  | keepAlive => exact keepsMemory_of_keeps (keep_execKeepAlive _ _)
  | keepAliveExpiry => exact keepsMemory_of_keeps (keep_execKeepAliveExpiry _ _)
  | identify => exact keepsMemory_of_keeps (keep_execIdentify _ _ _ _)
  | getLogPage => exact keepsMemory_of_keeps (keep_execGetLogPage _ _ _ _)
  | getFeatures => exact keepsMemory_of_keeps (keep_execGetFeatures _ _ _)
  | setFeatures => exact keepsMemory_of_keeps (keep_execSetFeatures _ _ _ _)
  | asyncEventRequest => exact keepsMemory_of_keeps (keep_execAsyncEventRequest _ _)
  | abort => exact keepsMemory_of_keeps (keep_execAbort _ _ _ _)
  | sanitize => exact keepsMemory_of_keeps (keep_execSanitize _ _ _)
  | formatNvm => exact keepsMemory_of_keeps (keep_execFormatNvm _ _ _ _)
  | vdqCreate => exact keepsMemory_of_keeps (keep_execVdqCreate _ _ _)
  | vdqDelete => exact keepsMemory_of_keeps (keep_execVdqDelete _ _ _)
  | nvmRead => exact keepsMemory_of_keeps (keep_execNvmRead _ _)
  | nvmWrite => exact keepsMemory_of_keeps (keep_execNvmWrite _ _)
  | nvmFlush => exact keepsMemory_of_keeps (keep_execNvmFlush _ _)
  | writeZeroes => exact keepsMemory_of_keeps (keep_execWriteZeroes _ _)
  | datasetManagement => exact keepsMemory_of_keeps (keep_execDatasetManagement _ _)
  | nvmCompare => exact keepsMemory_of_keeps (keep_execNvmCompare _ _)
  | admissionReopen => exact keepsMemory_of_keeps (keep_execAdmissionReopen _ _)
  | sqTailDoorbell => exact keepsMemory_of_keeps (keep_execSqTailDoorbell _ _ _)
  | cqHeadDoorbell => exact keepsMemory_of_keeps (keep_execCqHeadDoorbell _ _ _)
  | pushDoorbell => exact keepsMemory_of_keeps (keep_execPushDoorbell _ _ _ _ _ _)
  | vdqFetch => exact keepsMemory_of_keeps (keep_execVdqFetch _)
  | vdqFetchResponse => exact keepsMemory_of_keeps (keep_execVdqFetchResponse _ _ _ _ _)
  | cqStallExpiry => exact keepsMemory_of_keeps (keep_execCqStallExpiry _ _ _)
  | notifyTimerExpiry => exact keepsMemory_of_keeps (keep_execNotifyTimerExpiry _ _ _)
  | tenantQueueFree => exact keepsMemory_of_keeps (keep_execTenantQueueFree _ _ _)
  | idleLevel1Entry => exact keepsMemory_of_keeps (keep_execIdleLevel1Entry _)
  | idleLevel2Entry => exact keepsMemory_of_keeps (keep_execIdleLevel2Entry _)
  | managementChallenge => exact keepsMemory_of_keeps (keep_execManagementChallenge _ _)
  | managementProve => exact keepsMemory_of_keeps (keep_execManagementProve _ _ _ _ _)
  | mgmtAuthTimeout => exact keepsMemory_of_keeps (keep_execMgmtAuthTimeout _ _)
  | vssCreate => exact keepsMemory_of_keeps (keep_execVssCreate _ _ _)
  | vssChangeShare => exact keepsMemory_of_keeps (keep_execVssChangeShare _ _ _)
  | vssReset => exact keepsMemory_of_keeps (keep_execVssReset _ _ _)
  | vssRemove => exact keepsMemory_of_keeps (keep_execVssRemove _ _ _)
  | hostEntrySet => exact keepsMemory_of_keeps (keep_execHostEntrySet _ _ _)
  | catalogRead => exact keepsMemory_of_keeps (keep_execCatalogRead _ _ _ _ _)
  | tenantQueueFreeze => exact keepsMemory_of_keeps (keep_execTenantQueueFreeze _ _ _ _)
  | tenantQueueSave => exact keepsMemory_of_keeps (keep_execTenantQueueSave _ _ _ _ _)
  | tenantQueueRestore => exact keepsMemory_of_keeps (keep_execTenantQueueRestore _ _ _ _ _)
  | tenantQueueThaw => exact keepsMemory_of_keeps (keep_execTenantQueueThaw _ _ _)
  | dirtyLogControl => exact keepsMemory_of_keeps (keep_execDirtyLogControl _ _ _ _ _ _)
  | dirtyLogHarvest => exact keepsMemory_of_keeps (keep_execDirtyLogHarvest _ _ _ _ _)
  | virtualControllerReset => exact keepsMemory_of_keeps (keep_execVirtualControllerReset _ _ _)
  | namespaceCreate => exact keepsMemory_of_keeps (keep_execNamespaceCreate _ _ _)
  | namespaceDelete => exact keepsMemory_of_keeps (keep_execNamespaceDelete _ _ _)
  | namespaceAttach => exact keepsMemory_of_keeps (keep_execNamespaceAttach _ _ _ _)
  | namespaceDetach => exact keepsMemory_of_keeps (keep_execNamespaceDetach _ _ _ _)
  | catalogChangeReceive => exact keepsMemory_of_keeps (keep_execCatalogChangeReceive _ _ _ _)
  | catalogEchoReceive => exact keepsMemory_of_keeps (keep_execCatalogEchoReceive _ _)
  | catalogPartnerTimeout => exact keepsMemory_of_keeps (keep_execCatalogPartnerTimeout _ _)
  | catalogCopyDone => exact keepsMemory_of_keeps (keep_execCatalogCopyDone _ _)
  | vssResetDone => exact keepsMemory_of_keeps (keep_execVssResetDone _ _)
  | vssRemoveDone => exact keepsMemory_of_keeps (keep_execVssRemoveDone _ _)
  | tqFreezeComplete => exact keepsMemory_of_keeps (keep_execTqFreezeComplete _ _ _)
  | tqFreezeTimeout => exact keepsMemory_of_keeps (keep_execTqFreezeTimeout _ _ _)
  | sanitizeQuiesced => exact keepsMemory_of_keeps (keep_execSanitizeQuiesced _ _)
  | sanitizeChunkErased => exact keepsMemory_of_keeps (keep_execSanitizeChunkErased _ _ _ _)
  | formatNvmQuiesced => exact keepsMemory_of_keeps (keep_execFormatNvmQuiesced _ _)
  | nop => exact keepsMemory_of_keeps (keep_execNop _ _ _)
  | end_ => exact keepsMemory_of_keeps (keep_execEnd _ _ _)
  | jmp => exact keepsMemory_of_keeps (keep_execJmp _ _ _)
  | br => exact keepsMemory_of_keeps (keep_execBr _ _ _)
  | call => exact keepsMemory_of_keeps (keep_execCall _ _ _)
  | ret => exact keepsMemory_of_keeps (keep_execRet _ _ _)
  | fail => exact keepsMemory_of_keeps (keep_execFail _ _ _)
  | wait => exact keepsMemory_of_keeps (keep_execWait _ _ _)
  | ldi => exact keepsMemory_of_keeps (keep_execLdi _ _ _)
  | mov => exact keepsMemory_of_keeps (keep_execMov _ _ _)
  | add => exact keepsMemory_of_keeps (keep_execAdd _ _ _)
  | addi => exact keepsMemory_of_keeps (keep_execAddi _ _ _)
  | sub => exact keepsMemory_of_keeps (keep_execSub _ _ _)
  | and_ => exact keepsMemory_of_keeps (keep_execAnd _ _ _)
  | shr => exact keepsMemory_of_keeps (keep_execShr _ _ _)
  | shl => exact keepsMemory_of_keeps (keep_execShl _ _ _)
  | cmp => exact keepsMemory_of_keeps (keep_execCmp _ _ _)
  | cmpi => exact keepsMemory_of_keeps (keep_execCmpi _ _ _)
  | mark => exact keepsMemory_of_keeps (keep_execMark _ _ _)
  | ilock => exact keepsMemory_of_keeps (keep_execIlock _ _ _ _)
  | iwait => exact keepsMemory_of_keeps (keep_execIwait _ _ _)
  | irel => exact keepsMemory_of_keeps (keep_execIrel _ _ _)
  | nsfence => exact keepsMemory_of_keeps (keep_execNsfence _ _ _)
  | tref => exact keepsMemory_of_keeps (keep_execTref _ _ _)
  | tdrop => exact keepsMemory_of_keeps (keep_execTdrop _ _ _)
  | clook => exact keepsMemory_of_keeps (keep_execClook _ _ _ _)
  | cstage => exact keepsMemory_of_keeps (keep_execCstage _ _ _ _)
  | ccommit => exact keepsMemory_of_keeps (keep_execCcommit _ _ _)
  | cread => exact keepsMemory_of_keeps (keep_execCread _ _ _ _ _)
  | cdealloc => exact keepsMemory_of_keeps (keep_execCdealloc _ _ _)
  | echowait => exact keepsMemory_of_keeps (keep_execEchowait _ _ _)
  | hread => exact keepsMemory_of_keeps (keep_execHread _ _ _)
  | hwrite => exact keepsMemory_of_keeps (keep_execHwrite _ _ _)
  | cpl => exact keepsMemory_of_keeps (keep_execCpl _ _ _)
  | compare => exact keepsMemory_of_keeps (keep_execCompare _ _ _)
  | pichk => exact keepsMemory_of_keeps (keep_execPichk _ _ _)
  | map => exact keepsMemory_of_keeps (keep_execMap _ _ _ _)
  | dread => exact keepsMemory_of_keeps (keep_execDread _ _ _ _)
  | dverify => exact keepsMemory_of_keeps (keep_execDverify _ _ _ _)
  | recon => exact keepsMemory_of_keeps (keep_execRecon _ _ _ _)
  | dwrite => exact keepsMemory_of_keeps (keep_execDwrite _ _ _)
  | parity => exact keepsMemory_of_keeps (keep_execParity _ _ _ _)
  | dzero => exact keepsMemory_of_keeps (keep_execDzero _ _ _)
  | frag => exact keepsMemory_of_keeps (keep_execFrag _ _ _)
  | crelease => exact keepsMemory_of_keeps (keep_execCrelease _ _ _)
  | count_ => exact keepsMemory_of_keeps (keep_execCount _ _ _ _ _)
  | event => exact keepsMemory_of_keeps (keep_execEvent _ _ _)
  | contextResume => exact keepsMemory_of_keeps (keep_execContextResume _ _ _)
  | internalContextStart => exact keepsMemory_of_keeps (keep_execInternalContextStart _ _)
  | waitTimeout => exact keepsMemory_of_keeps (keep_execWaitTimeout _ _ _ _)
  | interlockGrant => exact keepsMemory_of_keeps (keep_execInterlockGrant _ _)
  | nsfenceDone => exact keepsMemory_of_keeps (keep_execNsfenceDone _ _)
  | hostTransferComplete => exact keepsMemory_of_keeps (keep_execHostTransferComplete _ _ _ _ _ _)
  | tableSlotRetry => exact keepsMemory_of_keeps (keep_execTableSlotRetry _ _)
  | seqSampleRead => exact keepsMemory_of_keeps (keep_execSeqSampleRead _ _)
  | formatCocoon => exact keepsMemory_of_keeps (keep_execFormatCocoon _ _ _)
  | odometerPersist => exact keepsMemory_of_keeps (keep_execOdometerPersist _)
  | odometerTick => exact keepsMemory_of_keeps (keep_execOdometerTick _)
  | mirrorLineReceive => exact keepsMemory_of_keeps (keep_execMirrorLineReceive _ _ _)
  | mirrorRecordReceive => exact keepsMemory_of_keeps (keep_execMirrorRecordReceive _ _ _ _)
  | mirrorResetReceive => exact keepsMemory_of_keeps (keep_execMirrorResetReceive _ _)
  | indexRebuildDone => exact keepsMemory_of_keeps (keep_execIndexRebuildDone _)
  | flushStripeStart => exact keepsMemory_of_keeps (keep_execFlushStripeStart _)
  | mirrorAdoptionDone => exact keepsMemory_of_keeps (keep_execMirrorAdoptionDone _ _)
  | handbackPageReceive => exact keepsMemory_of_keeps (keep_execHandbackPageReceive _ _ _ _)
  | handbackConfirmReceive => exact keepsMemory_of_keeps (keep_execHandbackConfirmReceive _ _)
  | lineFetchResponse => exact keepsMemory_of_keeps (keep_execLineFetchResponse _ _ _ _)
  | counterReserveEcho => exact keepsMemory_of_keeps (keep_execCounterReserveEcho _ _ _)
  | counterReserveTimeout => exact keepsMemory_of_keeps (keep_execCounterReserveTimeout _ _)
  | cocoonScrubLine => exact keepsMemory_of_keeps (keep_execCocoonScrubLine _ _ _)
  | stackAccessTimeout => exact keepsMemory_of_keeps (keep_execStackAccessTimeout _ _ _)
  | cocPageRecordRead => exact keepsMemory_of_keeps (keep_execCocPageRecordRead _ _)
  | mapReloadDone => exact keepsMemory_of_keeps (keep_execMapReloadDone _ _)
  | rebuildDelayExpiry => exact keepsMemory_of_keeps (keep_execRebuildDelayExpiry _ _)
  | rebuildStart => exact keepsMemory_of_keeps (keep_execRebuildStart _ _ _)
  | rebuildCancel => exact keepsMemory_of_keeps (keep_execRebuildCancel _ _ _)
  | chunkMapRead => exact keepsMemory_of_keeps (keep_execChunkMapRead _ _ _)
  | keyRotate => exact keepsMemory_of_keeps (keep_execKeyRotate _ _ _)
  | rekeyPassStart => exact keepsMemory_of_keeps (keep_execRekeyPassStart _ _)
  | reconWriteback => exact keepsMemory_of_keeps (keep_execReconWriteback _ _ _ _ _)
  | stripWrite => exact keepsMemory_of_keeps (keep_execStripWrite _ _ _ _)
  | stripRead => exact keepsMemory_of_keeps (keep_execStripRead _ _ _ _)
  | alloc => exact keepsMemory_of_keeps (keep_execAlloc _ _ _ _)
  | leaseFree => exact keepsMemory_of_keeps (keep_execLeaseFree _ _ _ _)
  | porporAccept => exact keepsMemory_of_keeps (keep_execPorporAccept _ _ _)
  | porporRefuse => exact keepsMemory_of_keeps (keep_execPorporRefuse _ _ _ _)
  | readData => exact keepsMemory_of_keeps (keep_execReadData _ _ _)
  | allocReply => exact keepsMemory_of_keeps (keep_execAllocReply _ _ _)
  | fragTimeout => exact keepsMemory_of_keeps (keep_execFragTimeout _ _ _)
  | peerWindowApply => exact keepsMemory_of_keeps (keep_execPeerWindowApply _ _)
  | federationMemberSet => exact keepsMemory_of_keeps (keep_execFederationMemberSet _ _ _)
  | leaseCreate => exact keepsMemory_of_keeps (keep_execLeaseCreate _ _ _ _ _)
  | leaseRead => exact keepsMemory_of_keeps (keep_execLeaseRead _ _ _)
  | leaseRelease => exact keepsMemory_of_keeps (keep_execLeaseRelease _ _ _)
  | pfcXoffRefresh => exact keepsMemory_of_keeps (keep_execPfcXoffRefresh _ _ _)
  | mcastDestTimeout => exact keepsMemory_of_keeps (keep_execMcastDestTimeout _ _ _ _)
  | bucketReturn => exact keepsMemory_of_keeps (keep_execBucketReturn _ _)
  | leakAuditPass => exact keepsMemory_of_keeps (keep_execLeakAuditPass _ _)
  | shaperRefill => exact keepsMemory_of_keeps (keep_execShaperRefill _)
  | policerRefill => exact keepsMemory_of_keeps (keep_execPolicerRefill _)
  | schSampleSelect => exact keepsMemory_of_keeps (keep_execSchSampleSelect _ _)
  | bayScanFrame => exact keepsMemory_of_keeps (keep_execBayScanFrame _ _ _)
  | linkUpTimeout => exact keepsMemory_of_keeps (keep_execLinkUpTimeout _ _)
  | spokeLinkUp => exact keepsMemory_of_keeps (keep_execSpokeLinkUp _ _ _ _)
  | spokeDpc => exact keepsMemory_of_keeps (keep_execSpokeDpc _ _ _)
  | containmentRelease => exact keepsMemory_of_keeps (keep_execContainmentRelease _ _)
  | buttonTimerExpiry => exact keepsMemory_of_keeps (keep_execButtonTimerExpiry _ _)
  | orderlyRemovalProgress => exact keepsMemory_of_keeps (keep_execOrderlyRemovalProgress _ _ _)
  | spokeCtlReset => exact keepsMemory_of_keeps (keep_execSpokeCtlReset _ _)
  | spokeCtlPowerOff => exact keepsMemory_of_keeps (keep_execSpokeCtlPowerOff _ _)
  | spokeCtlPowerOn => exact keepsMemory_of_keeps (keep_execSpokeCtlPowerOn _ _)
  | spokeCtlDisable => exact keepsMemory_of_keeps (keep_execSpokeCtlDisable _ _)
  | spokeCtlEnable => exact keepsMemory_of_keeps (keep_execSpokeCtlEnable _ _)
  | slotAttentionWrite => exact keepsMemory_of_keeps (keep_execSlotAttentionWrite _ _ _)
  | driveDmaRequest => exact keepsMemory_of_keeps (keep_execDriveDmaRequest _ _ _ _)
  | driveCompletion => exact keepsMemory_of_keeps (keep_execDriveCompletion _ _ _ _ _)
  | driveReadyTimeout => exact keepsMemory_of_keeps (keep_execDriveReadyTimeout _ _)
  | abortTimeout => exact keepsMemory_of_keeps (keep_execAbortTimeout _ _)
  | spokeResetRdyTimeout => exact keepsMemory_of_keeps (keep_execSpokeResetRdyTimeout _ _)
  | spokeResetLimit => exact keepsMemory_of_keeps (keep_execSpokeResetLimit _ _)
  | driveIdleTimer => exact keepsMemory_of_keeps (keep_execDriveIdleTimer _ _ _)
  | driveFormat => exact keepsMemory_of_keeps (keep_execDriveFormat _ _ _ _)
  | presenceStable => exact keepsMemory_of_keeps (keep_execPresenceStable _ _)
  | rampEnd => exact keepsMemory_of_keeps (keep_execRampEnd _ _)
  | bayPowerGood => exact keepsMemory_of_keeps (keep_execBayPowerGood _ _ _)
  | fastTrip => exact keepsMemory_of_keeps (keep_execFastTrip _ _ _)
  | breakerTrip => exact keepsMemory_of_keeps (keep_execBreakerTrip _ _ _)
  | undervoltageTrip => exact keepsMemory_of_keeps (keep_execUndervoltageTrip _ _ _)
  | coolDownEnd => exact keepsMemory_of_keeps (keep_execCoolDownEnd _ _ _)
  | retryCountRefresh => exact keepsMemory_of_keeps (keep_execRetryCountRefresh _ _)
  | bayClear => exact keepsMemory_of_keeps (keep_execBayClear _ _ _)
  | feedGood => exact keepsMemory_of_keeps (keep_execFeedGood _ _ _)
  | feedBad => exact keepsMemory_of_keeps (keep_execFeedBad _ _ _)
  | feedBbmEnd => exact keepsMemory_of_keeps (keep_execFeedBbmEnd _ _)
  | feedRevert => exact keepsMemory_of_keeps (keep_execFeedRevert _ _)
  | feedSwitchToA => exact keepsMemory_of_keeps (keep_execFeedSwitchToA _ _ _)
  | feedSwitchToB => exact keepsMemory_of_keeps (keep_execFeedSwitchToB _ _ _)
  | feedSwitchSettle => exact keepsMemory_of_keeps (keep_execFeedSwitchSettle _ _)
  | bayTelemetrySample => exact keepsMemory_of_keeps (keep_execBayTelemetrySample _ _ _ _ _ _ _)
  | outputHoldExpiry => exact keepsMemory_of_keeps (keep_execOutputHoldExpiry _)
  | bayRailLoss => exact keepsMemory_of_keeps (keep_execBayRailLoss _)
  | bayRailReturn => exact keepsMemory_of_keeps (keep_execBayRailReturn _ _)
  | ownFeed => exact keepsMemory_of_keeps (keep_execOwnFeed _ _ _)
  | heartbeatGap => exact keepsMemory_of_keeps (keep_execHeartbeatGap _ _)
  | heartbeatLapse => exact keepsMemory_of_keeps (keep_execHeartbeatLapse _ _ _ _)
  | lineReleasedSeen => exact keepsMemory_of_keeps (keep_execLineReleasedSeen _ _)
  | lineGapSeen => exact keepsMemory_of_keeps (keep_execLineGapSeen _ _)
  | lineStuck => exact keepsMemory_of_keeps (keep_execLineStuck _ _)
  | lineQuietExpiry => exact keepsMemory_of_keeps (keep_execLineQuietExpiry _ _)
  | bootClaimExpiry => exact keepsMemory_of_keeps (keep_execBootClaimExpiry _ _)
  | checkGapSample => exact keepsMemory_of_keeps (keep_execCheckGapSample _ _ _ _ _ _ _)
  | outputHandoverRelease => exact keepsMemory_of_keeps (keep_execOutputHandoverRelease _ _)
  | takeoverAdmissionOpen => exact keepsMemory_of_keeps (keep_execTakeoverAdmissionOpen _ _)
  | tandemFlitReceive => exact keepsMemory_of_keeps (keep_execTandemFlitReceive _ _ _ _)
  | tandemLinkUp => exact keepsMemory_of_keeps (keep_execTandemLinkUp _ _ _ _ _)
  | tandemFlitSilence => exact keepsMemory_of_keeps (keep_execTandemFlitSilence _)
  | peerAliveFall => exact keepsMemory_of_keeps (keep_execPeerAliveFall _)
  | tandemRetrainTimer => exact keepsMemory_of_keeps (keep_execTandemRetrainTimer _)
  | tandemEchoArrival => exact keepsMemory_of_keeps (keep_execTandemEchoArrival _ _ _ _)
  | echoTimeout => exact keepsMemory_of_keeps (keep_execEchoTimeout _ _)
  | cadenceTick => exact keepsMemory_of_keeps (keep_execCadenceTick _ _)
  | cadenceFrameReceive => exact keepsMemory_of_keeps (keep_execCadenceFrameReceive _ _ _)
  | standingMapReceive => exact keepsMemory_of_keeps (keep_execStandingMapReceive _ _ _ _)
  | tandemReleaseGroup => exact keepsMemory_of_keeps (keep_execTandemReleaseGroup _ _ _ _)
  | abandonHandback => exact keepsMemory_of_keeps (keep_execAbandonHandback _ _ _ _)
  | svcLinkUp => exact keepsMemory_of_keeps (keep_execSvcLinkUp _ _ _)
  | svcLinkDown => exact keepsMemory_of_keeps (keep_execSvcLinkDown _)
  | bmeHoldExpiry => exact keepsMemory_of_keeps (keep_execBmeHoldExpiry _ _)
  | flrComplete => exact keepsMemory_of_keeps (keep_execFlrComplete _ _)
  | msixUnmask => exact keepsMemory_of_keeps (keep_execMsixUnmask _ _ _ _)
  | d3hotEntry => exact keepsMemory_of_keeps (keep_execD3hotEntry _ _ _)
  | d0Return => exact keepsMemory_of_keeps (keep_execD0Return _ _ _)
  | mctpControl => exact keepsMemory_of_keeps (keep_execMctpControl _ _ _)
  | mctpSpdm => exact keepsMemory_of_keeps (keep_execMctpSpdm _ _ _ _)
  | serviceFunctionBind => exact keepsMemory_of_keeps (keep_execServiceFunctionBind _ _ _)
  | eventQueueDrain => exact keepsMemory_of_keeps (keep_execEventQueueDrain _)
  | evrSuppressedSummary => exact keepsMemory_of_keeps (keep_execEvrSuppressedSummary _)
  | eventRead => exact keepsMemory_of_keeps (keep_execEventRead _ _ _ _ _)
  | evrWindowRead => exact keepsMemory_of_keeps (keep_execEvrWindowRead _ _)
  | cycFreeze => exact keepsMemory_of_keeps (keep_execCycFreeze _ _)
  | cycResume => exact keepsMemory_of_keeps (keep_execCycResume _ _)
  | cycClearAll => exact keepsMemory_of_keeps (keep_execCycClearAll _ _)
  | freezePinEdge => exact keepsMemory_of_keeps (keep_execFreezePinEdge _ _)
  | cycWindowEnd => exact keepsMemory_of_keeps (keep_execCycWindowEnd _)
  | flipArm => exact keepsMemory_of_keeps (keep_execFlipArm _ _)
  | dramScrubLine => exact keepsMemory_of_keeps (keep_execDramScrubLine _ _ _ _ _)
  | ptbCaptureRead => exact keepsMemory_of_keeps (keep_execPtbCaptureRead _ _)
  | tempWarning => exact keepsMemory_of_keeps (keep_execTempWarning _ _ _ _)
  | tempShutdownLimit => exact keepsMemory_of_keeps (keep_execTempShutdownLimit _ _ _)
  | bayHardwareTrip => exact keepsMemory_of_keeps (keep_execBayHardwareTrip _)
  | railMonitorTrip => exact keepsMemory_of_keeps (keep_execRailMonitorTrip _ _ _)
  | refclkLoss => exact keepsMemory_of_keeps (keep_execRefclkLoss _ _ _)
  | pllLockLost => exact keepsMemory_of_keeps (keep_execPllLockLost _ _)
  | jtagBypass => exact keepsMemory_of_keeps (keep_execJtagBypass _)
  | jtagIdcode => exact keepsMemory_of_keeps (keep_execJtagIdcode _)
  | jtagSamplePreload => exact keepsMemory_of_keeps (keep_execJtagSamplePreload _)
  | jtagExtest => exact keepsMemory_of_keeps (keep_execJtagExtest _)
  | jtagClamp => exact keepsMemory_of_keeps (keep_execJtagClamp _)
  | mgmtPortLinkUp => exact keepsMemory_of_keeps (keep_execMgmtPortLinkUp _)
  | mgmtPortLinkDown => exact keepsMemory_of_keeps (keep_execMgmtPortLinkDown _)
  | peerAliveRise => exact keepsMemory_of_keeps (keep_execPeerAliveRise _)
  | remirrorRetryTimer => exact keepsMemory_of_keeps (keep_execRemirrorRetryTimer _ _)
  | flushAgeExpiry => exact keepsMemory_of_keeps (keep_execFlushAgeExpiry _ _ _)
  | ownerAuthVerificationDone => exact keepsMemory_of_keeps (keep_execOwnerAuthVerificationDone _ _)
  | svcPerstRelease => exact keepsMemory_of_keeps (keep_execSvcPerstRelease _)
  | svcNvmeRegisterWrite => exact keepsMemory_of_keeps (keep_execSvcNvmeRegisterWrite _ _ _ _)
  | svcDmaReadCompletion => exact keepsMemory_of_keeps (keep_execSvcDmaReadCompletion _ _ _ _ _)
  | cstsRdyReached => exact keepsMemory_of_keeps (keep_execCstsRdyReached _ _)
  | cstsRdyCleared => exact keepsMemory_of_keeps (keep_execCstsRdyCleared _ _)
  | cstsCfsSet => exact keepsMemory_of_keeps (keep_execCstsCfsSet _ _)
  | driveAdminCommandTimeout => exact keepsMemory_of_keeps (keep_execDriveAdminCommandTimeout _ _)

/-- Settles O7: such a command leaves both memories as they are. -/
theorem memoryFrame : Obligations.MemoryFrame := by
  intro i s t hi h
  obtain ⟨hpending, hbuf, hflash⟩ := keepsMemory_exec i s hi t h
  exact ⟨fun a => by rw [hbuf], fun a => by rw [hflash], hpending⟩

end Sys2Proof.Machine
end

section
/-! A well-formed command answers a next state: the one stop is a number that no object has, and nothing is refused. -/

namespace Sys2Proof.Machine

/-- An outcome goes on wherever the operands are in range, and is never a refusal. -/
def Total (ok : Bool) (o : Host.Outcome State Fault Refusal) : Prop := (ok = true → ∃ t, o = .next t) ∧ ∀ r, o ≠ .refused r

theorem total_next (ok : Bool) (t : State) : Total ok (.next t) := ⟨fun _ => ⟨t, rfl⟩, fun _ h => nomatch h⟩

/-- A command about a numbered object goes on where that object exists. -/
theorem total_if {ok : Bool} {P : Prop} {_ : Decidable P} {t : State} {e : Fault} (h : ok = true → P) :
    Total ok (if P then .next t else .fault e) := by
  by_cases hp : P
  · rw [if_pos hp]; exact total_next ok t
  · rw [if_neg hp]; exact ⟨fun hok => absurd (h hok) hp, fun _ h => nomatch h⟩

/-- A command about one of two instances, or about an operand that selects between outcomes. -/
theorem total_ite {ok : Bool} {P : Prop} {_ : Decidable P} {o p : Host.Outcome State Fault Refusal} (h : P → Total ok o) (g : ¬P → Total ok p) :
    Total ok (if P then o else p) := by
  by_cases hp : P
  · rw [if_pos hp]; exact h hp
  · rw [if_neg hp]; exact g hp

/-- The first part of a conjunction of operand checks. -/
theorem ok_left {a b : Bool} (h : (a && b) = true) : a = true := (Bool.and_eq_true_iff.mp h).1

/-- The last part of a conjunction of operand checks. -/
theorem ok_right {a b : Bool} (h : (a && b) = true) : b = true := (Bool.and_eq_true_iff.mp h).2

/-- Each management command in an MCTP message is served by its opcode, in every state. -/
theorem total_mctpLow (ok : Bool) (c o v w x y z m s) : Total ok (mctpLow c o v w x y z m s) := by
  unfold mctpLow
  split
  case h_5 => exact total_ite (fun _ => total_next ..) (fun _ => total_next ..)
  case h_7 => exact total_ite (fun _ => total_next ..) (fun _ => total_next ..)
  all_goals exact total_next ..

theorem total_mctpCommand (ok : Bool) (c o v w x y z m s) : Total ok (mctpCommand c o v w x y z m s) := by
  unfold mctpCommand
  split
  case h_2 => exact total_ite (fun _ => total_next ..) (fun _ => total_next ..)
  case h_6 => exact total_mctpLow ..
  all_goals exact total_next ..

theorem total_mctpVendorManagement (ok : Bool) (a b o d v w x y z m s) :
    Total ok (execMctpVendorManagement a b o d v w x y z m s) := by
  unfold execMctpVendorManagement
  exact total_ite (fun _ => total_next ..) fun _ => total_ite (fun _ => total_next ..) fun _ =>
    total_ite (fun _ => total_next ..) fun _ => total_mctpCommand ..

/-- A well-formed command goes on, and no command is refused: the cases by how many operands stand after the number of its object. -/
theorem total_exec (i : Instr) (s : State) : Total i.wf (exec i s) := by
  cases i with
  | linkTrainTimeout | linkTrainRetryTimer | subportLinkDown | subportTransmit | cmRtu | cmDreq | qpContextFree
  | qpContextFetchDone | rnrWaitExpiry | rateAlphaTimer | rateIncreaseTimer | contextResume | tableSlotRetry
  | mirrorResetReceive | mirrorAdoptionDone | handbackConfirmReceive | feedGood | feedBad | feedBbmEnd | feedRevert
  | feedSwitchToA | feedSwitchToB | feedSwitchSettle | takeoverAdmissionOpen | standingMapReceive | remirrorRetryTimer
  | cocoonScrubLine | stackAccessTimeout | mapReloadDone | rebuildDelayExpiry | rekeyPassStart | bucketReturn | linkUpTimeout
  | containmentRelease | buttonTimerExpiry | orderlyRemovalProgress | spokeCtlReset | spokeCtlPowerOff | spokeCtlPowerOn
  | spokeCtlDisable | spokeCtlEnable | slotAttentionWrite | driveReadyTimeout | abortTimeout | spokeResetRdyTimeout
  | spokeResetLimit | driveIdleTimer | cstsRdyReached | cstsRdyCleared | cstsCfsSet | driveAdminCommandTimeout | presenceStable
  | rampEnd | bayPowerGood | coolDownEnd | retryCountRefresh | bayClear | heartbeatGap | heartbeatLapse | lineReleasedSeen
  | lineGapSeen | lineStuck | lineQuietExpiry | bootClaimExpiry | checkGapSample | outputHandoverRelease | bmeClear | bmeSet
  | d3hotEntry | d0Return | bmeHoldExpiry | flrInitiate | flrComplete | ptbArm | ptbDisarm | pllLockLost =>
    exact total_if fun h => of_decide_eq_true h
  | subportLinkUp | ackCoalesceExpiry | ackTimeout | messageLifetimeExpiry | qpPacketSend | cqStallExpiry | notifyTimerExpiry
  | tenantQueueFree | tqFreezeComplete | tqFreezeTimeout | sqTailDoorbell | cqHeadDoorbell | handbackPageReceive | porporAccept
  | readData | allocReply | spokeDpc | fastTrip | breakerTrip | undervoltageTrip | msixUnmask | svcNvmeRegisterWrite
  | svcDmaReadCompletion | dramScrubLine | injectorRelease =>
    exact total_if fun h => of_decide_eq_true (ok_left h)
  | fabricsConnect | pushDoorbell | stripWrite | stripRead | alloc | leaseFree | porporRefuse | spokeLinkUp | driveDmaRequest =>
    exact total_if fun h => of_decide_eq_true (ok_left (ok_left h))
  | vdqFetchResponse | driveCompletion => exact total_if fun h => of_decide_eq_true (ok_left (ok_left (ok_left h)))
  | bayTelemetrySample => exact total_if fun h => of_decide_eq_true (ok_left (ok_left (ok_left (ok_left (ok_left h)))))
  | pfcPauseExpiry | pfcWatchdogExpiry | pfcWatchdogResume | pfcXoffRefresh =>
    exact total_if fun h => ⟨of_decide_eq_true (ok_left h), of_decide_eq_true (ok_right h)⟩
  | macsecRxSaInstall | macsecTxSaInstall =>
    exact total_if fun h => ⟨of_decide_eq_true (ok_left (ok_left (ok_left (ok_left h)))),
      of_decide_eq_true (ok_right (ok_left (ok_left (ok_left h))))⟩
  | macsecRxSaRetire => exact total_if fun h => ⟨of_decide_eq_true (ok_left (ok_left h)), of_decide_eq_true (ok_right (ok_left h))⟩
  | ethFrameReceive f =>
    exact total_ite (fun _ => total_next ..) fun _ => total_if fun h =>
      of_decide_eq_true (ok_left (ok_left (ok_left (ok_left (ok_left h)))))
  | rocePacketReceive =>
    exact total_ite (fun _ => total_next ..) fun _ => total_if fun h =>
      ⟨of_decide_eq_true (ok_left (ok_left h)), of_decide_eq_true (ok_right (ok_left h))⟩
  | cmReq r => exact total_if fun h => Nat.le_of_lt (of_decide_eq_true (ok_left (ok_left (ok_left h))))
  | echoTimeout who =>
    cases who with
    | ctx n => exact total_next ..
    | remirror g => exact total_if fun h => of_decide_eq_true h
  | railMonitorTrip rail m =>
    refine ⟨fun h => ?_, fun r => ?_⟩
    · exact ⟨_, if_neg (Nat.not_le.mpr (of_decide_eq_true h))⟩
    · show ite (4 ≤ rail) _ _ ≠ _
      split <;> exact fun h => nomatch h
  | mctpVendorManagement => exact total_mctpVendorManagement ..
  | _ => exact total_next ..

/-- Settles O8. -/
theorem wellFormedCommandsComplete : Obligations.WellFormedCommandsComplete := total_exec

end Sys2Proof.Machine
end

section
/-! How the rows reach their operation: a management command by its mode and role, a command about an object by its number. -/

namespace Sys2Proof.Machine

/-- A management command outside the modes that serve it has no answer. -/
theorem asManagerIn_unserved {s : State} {c : Cid} {r : Nat} {served : Bool} (f : State → State) (hserved : served = false) :
    asManagerIn s c r served f = s := by
  unfold asManagerIn
  rw [hserved]
  rfl

/-- A management command that is served, of a sender without its role, gets that status alone. -/
theorem asManagerIn_refused {s : State} {c : Cid} {r : Nat} {served : Bool} {st : Status} (f : State → State) (hserved : served = true)
    (hrole : hasRole s c r = some st) : asManagerIn s c r served f = reply s c st := by
  unfold asManagerIn
  rw [hserved, hrole]
  rfl

/-- A command of a manager runs. -/
theorem asManager_granted {s : State} {c : Cid} {r : Nat} (f : State → State) (h : Manager s c r) : asManager s c r f = f s :=
  asManagerIn_granted f h.1 h.2

/-- Outside the modes with full management access a management command has no answer. -/
theorem asManager_unserved {s : State} {c : Cid} {r : Nat} (f : State → State) (h : mgmtFull s = false) : asManager s c r f = s :=
  asManagerIn_unserved f h

/-- A sender without the role gets that status alone. -/
theorem asManager_refused {s : State} {c : Cid} {r : Nat} {st : Status} (f : State → State) (h : mgmtFull s = true)
    (hrole : hasRole s c r = some st) : asManager s c r f = reply s c st := asManagerIn_refused f h hrole

theorem onSpoke_exists {b : Nat} {s : State} (f : State → State) (h : b < 64) : onSpoke b s f = .next (f s) := if_pos h
theorem onBay_exists {b : Nat} {s : State} (f : State → State) (h : b < 64) : onBay b s f = .next (f s) := if_pos h
theorem onGroup_exists {g : Nat} {s : State} (f : State → State) (h : g < 2) : onGroup g s f = .next (f s) := if_pos h
theorem onQp_exists {q : Nat} {s : State} (f : State → State) (h : q < 65536) : onQp q s f = .next (f s) := if_pos h
theorem onIng_exists {b p : Nat} {s : State} (f : State → State) (h : b < 32 ∧ p < 8) : onIng b p s f = .next (f s) := if_pos h
theorem onSub_exists {b : Nat} {s : State} (f : State → State) (h : b < 32) : onSub b s f = .next (f s) := if_pos h
theorem onSc_exists {p c : Nat} {s : State} (f : State → State) (h : p < 8 ∧ c < 32) : onSc p c s f = .next (f s) := if_pos h
theorem onFn_exists {n : Nat} {s : State} (f : State → State) (h : n < 66) : onFn n s f = .next (f s) := if_pos h

/-- A row about a line acts on a controller that has a partner. -/
theorem onLine_exists {g : Nat} {s : State} (f : State → State) (h : g < 2) (hpaired : unpaired s = false) :
    onLine g s f = .next (f s) := by
  unfold onLine
  rw [onGroup_exists _ h, hpaired]
  rfl

/-! ### What a completion leaves unchanged -/

/-- A state without the parts that a completion may change: what `quiet` leaves out, the free values, the queue pairs and the queues. -/
def aside (s : State) : State := { quiet s with freeCtr := 0, rdt := {}, cfe := {} }

theorem aside_of_quiet {s t : State} (h : quiet s = quiet t) : aside s = aside t := by unfold aside; rw [h]

theorem aside_postFn (s fn o) : aside (postFn s fn o) = aside s := by
  unfold postFn
  dsimp only
  split <;> rfl

theorem aside_sendMsg (s q m) : aside (sendMsg s q m) = aside s := by
  unfold sendMsg
  dsimp only
  split <;> rfl

theorem aside_recvReturn (s q) : aside (recvReturn s q) = aside s := by
  unfold recvReturn
  dsimp only
  split <;> rfl

theorem aside_postCapsule (s a q o) : aside (postCapsule s a q o) = aside s := by
  unfold postCapsule
  split
  · rfl
  · split
    · rfl
    · split
      · rw [aside_sendMsg]
        split
        · exact aside_recvReturn ..
        · rfl
      · rfl

theorem aside_tqComplete (s k c) : aside (tqComplete s k c) = aside s := by
  unfold tqComplete
  dsimp only
  split
  · split
    · exact aside_sendMsg ..
    · rfl
  · split
    · exact aside_sendMsg ..
    · rfl
  · rfl

/-- A completion changes no more than `aside` leaves out. -/
theorem aside_reply (s c st d l) : aside (reply s c st d l) = aside s := by
  unfold reply replyD
  split
  · exact (aside_of_quiet (quiet_raiseVec ..)).trans (aside_postFn ..)
  · exact (aside_of_quiet (quiet_raiseVec ..)).trans (aside_postFn ..)
  · rfl
  · exact aside_postCapsule ..
  · exact aside_postCapsule ..
  · exact aside_tqComplete ..

@[simp] theorem reply_glb (s c st d l) : (reply s c st d l).glb = s.glb :=
  (congrArg State.glb (aside_reply s c st d l) : (aside _).glb = (aside _).glb)
@[simp] theorem reply_nor (s c st d l) : (reply s c st d l).nor = s.nor :=
  (congrArg State.nor (aside_reply s c st d l) : (aside _).nor = (aside _).nor)
@[simp] theorem reply_trs (s c st d l) : (reply s c st d l).trs = s.trs :=
  (congrArg State.trs (aside_reply s c st d l) : (aside _).trs = (aside _).trs)
@[simp] theorem reply_cfg (s c st d l) : (reply s c st d l).cfg = s.cfg :=
  (congrArg State.cfg (aside_reply s c st d l) : (aside _).cfg = (aside _).cfg)

end Sys2Proof.Machine
end

section
/-! Register accesses (R6, R10 to R13, R520): what the six rows and the two register commands do to the register they name. -/

namespace Sys2Proof.Machine

/-- A read of four aligned bytes inside the register space, in any mode. -/
theorem readAt_access {a : Access} (s : State) (inc : Nat) (h : accessOk a = true) :
    readAt s a inc = if s.glb.mode = .held then s else emit (regRead s a.path a.off false inc).2 (.readData (word (regRead s a.path a.off false inc).1)) := by
  unfold readAt answerRead
  rw [if_pos h]
  split <;> rfl

/-- Any other read is a bad access. -/
theorem readAt_bad {a : Access} (s : State) (inc : Nat) (h : accessOk a = false) : readAt s a inc = badAccess s a := by
  unfold readAt
  rw [h]
  rfl

/-- A bad access is an Unsupported Request on BAR0 outside Held, and nothing elsewhere (R6). -/
theorem badAccess_eq (s : State) (a : Access) :
    badAccess s a = if a.path = .bar0 ∧ s.glb.mode ≠ .held then emit s .unsupportedRequest else s := by
  simp [badAccess]

/-- A write into TRS_BUF stores its four bytes (R134). -/
theorem regWriteLow_trsBuf {off : Nat} (s : State) (v hw : Nat) (m : Moment) (h : 0x12000 ≤ off ∧ off < 0x14000) :
    regWriteLow s off v hw m =
      { s with trs := { s.trs with buf := memWriteBytes 0 s.trs.buf (off - 0x12000) ((leBytes 4 v).map (BitVec.ofNat 8)) } } :=
  if_pos (by simp [h])

/-- The offsets of TRS_BUF are no select register and no half of a 64-bit one. -/
theorem trsBuf_plain {off : Nat} (h : 0x12000 ≤ off ∧ off < 0x14000) :
    isSelect off = false ∧ hiRegs.contains off = false ∧ loWrites.contains off = false := by
  simp [isSelect, selectRanges, hiRegs, loWrites]
  omega

/-- A write of four aligned bytes into TRS_BUF. -/
theorem regWrite_trsBuf {s : State} {off : Nat} (p : Path) (v hw : Nat) (m : Moment) (hw1 : regsWritable s = true)
    (h : 0x12000 ≤ off ∧ off < 0x14000) : regWrite s p off v hw m =
      { s with trs := { s.trs with buf := memWriteBytes 0 s.trs.buf (off - 0x12000) ((leBytes 4 v).map (BitVec.ofNat 8)) } } := by
  obtain ⟨hsel, hhi, hlo⟩ := trsBuf_plain h
  rw [regWrite_low p v hw m hw1 hsel hhi hlo (by omega), regWriteLow_trsBuf s v hw m h]

/-- Below the bay die the value of an RC counter is the one stored. -/
theorem rcValue_stored {off : Nat} (s : State) (h : off < 0xB0000) : rcValue s off = tget s.regs.rc 0 (rk off (rcInst s off)) :=
  if_neg (by simp; omega)

/-- Below the bay die a read leaves in an RC counter what the hardware adds in the same cycle (R10, R519). -/
theorem rcClear_stored {off : Nat} (s : State) (inc : Nat) (h : off < 0xB0000) : rcClear s off inc =
    { s with regs := { s.regs with rc := tput s.regs.rc 0 (rk off (rcInst s off)) (min (2 ^ 32 - 1) inc) } } := by
  unfold rcClear
  dsimp only
  split
  · omega
  · omega
  · omega
  · omega
  · rfl

/-- No RC counter is a register whose read acts. -/
theorem isRc_plain {off : Nat} (h : isRc off = true) : off ∉ [0x30214, 0x18100, 0x80108, 0x70060, 0xF0024] := by
  simp only [List.mem_cons, List.not_mem_nil, or_false, not_or]
  refine ⟨?_, ?_, ?_, ?_, ?_⟩ <;> (rintro rfl; revert h; decide)

/-- A read of GBL_TIMEBASE_LO holds the high half for its path (R11). -/
theorem takeSnaps_timebase (s : State) (p : Path) : takeSnaps s p 0x24 0 false =
    { s with regs := { s.regs with snap := tput s.regs.snap none (pathKey 0x28 p) (some { val := s.now / 2 ^ 32 % 2 ^ 32, inst := 0, atomic := false }) } } := rfl

/-- A read of GBL_TIMEBASE_LO on a path that holds no snapshot of it. -/
theorem regRead_timebase {s : State} {p : Path} (inc : Nat) (h : tget s.regs.snap none (pathKey 0x24 p) = none) :
    regRead s p 0x24 false inc = (s.now % 2 ^ 32, takeSnaps s p 0x24 0 false) := by
  rw [regRead_plain inc (by decide) (by decide) h (by decide)]
  have hview : viewReg s 0x24 % 2 ^ 32 = s.now % 2 ^ 32 := by
    show s.now % 2 ^ 32 % 2 ^ 32 = _
    exact Nat.mod_mod ..
  rw [hview]
  rfl

/-- A `_LO` write of the flip address applies the held half with its own. -/
theorem loWrite_flipAddr {s : State} {p : Path} {hi : Nat} (v : Nat) (h : tget s.regs.held none (pathKey 0xF8108 p) = some hi) :
    loWrite s p 0xF8104 v =
      rwPut (rwPut { s with regs := { s.regs with held := tput s.regs.held none (pathKey 0xF8108 p) none } } 0xF8108 0 hi) 0xF8104 0 v := by
  show (let r := takeHi s p 0xF8108 (rwGet s 0xF8108 0); rwPut (rwPut r.2 0xF8108 0 r.1) 0xF8104 0 v) = _
  rw [takeHi_held _ h]

/-- SPK_SEL takes the number of a spoke (R13). -/
theorem selWrite_spkSel (s : State) (v : Nat) : selWrite s 0xA0000 v = if v < 64 then rwPut s 0xA0000 0 v else s := by
  rw [selWrite_plain s (by decide)]
  have hrange : selAccepts s 0xA0000 v = decide (v < 64) := rfl
  rw [hrange]
  simp

/-- A management command's completion leaves the mode. -/
theorem regsWritable_reply (s : State) (c : Cid) (st : Status) (d : Nat) (l : List Nat) : regsWritable (reply s c st d l) = regsWritable s := by
  unfold regsWritable authMode
  rw [reply_glb]

/-- Register Write with ATOMIC 0 completes and writes the register. -/
theorem registerWrite_plain {s : State} {c : Cid} {w0 w1 : Word} (w2 w3 v : Word) (m : Moment) (hmode : authMode s = true)
    (hrole : hasRole s c 2 = none) (hoff : offOk w0 = true) (hatomic : bitAt w1.toNat 0 = false) :
    registerWrite s c w0 w1 w2 w3 v m = regWrite (reply s c .success) .mgmt w0.toNat v.toNat 0 m := by
  unfold registerWrite
  rw [asManagerIn_granted _ hmode hrole, hoff, hatomic]
  rfl

/-- Settles O13: each row is an access of its register, and a register command an access on the management path. -/
theorem registerAccess : Obligations.RegisterAccess := by
  unfold Obligations.RegisterAccess
  refine ⟨?trsBuf, ?rc, ?timebase, ?hi, ?lo, ?select, ?commandRead, ?commandWrite, ?bad, ?ok, ?command⟩
  case trsBuf =>
    rintro s p off v hw m hwritable ⟨hlow, hhigh, halign⟩
    exact congrArg Host.Outcome.next ((writeAt_word s p _ _ m halign (by omega)).trans (regWrite_trsBuf p _ _ m hwritable ⟨hlow, hhigh⟩))
  case rc =>
    rintro s p off inc hmode ⟨hrc, halign, hbay⟩
    refine congrArg Host.Outcome.next ((readAt_ok s inc (accessOk_word p off halign (by omega)) hmode).trans ?_)
    rw [answerRead_running _ hmode, regRead_rc false inc (isRc_plain hrc) hrc, rcValue_stored s hbay, rcClear_stored s inc hbay]
  case timebase =>
    intro s p hmode hsnap
    rw [exec_loRegisterRead, execLoRegisterRead_word p (by decide) (by decide) hmode, answerRead_running _ hmode,
      regRead_timebase 0 hsnap, takeSnaps_timebase]
  case hi =>
    intro s p off v hwritable hoff
    have hplace : off % 4 = 0 ∧ off < 1048576 ∧ isSelect off = false := by
      revert off
      decide
    obtain ⟨halign, hspace, hsel⟩ := hplace
    exact congrArg Host.Outcome.next ((writeAt_word s p _ _ _ halign hspace).trans
      (regWrite_hi p _ _ _ hwritable hsel (List.contains_iff_mem.mpr hoff)))
  case lo =>
    intro s p v h hwritable hheld
    refine congrArg Host.Outcome.next ((writeAt_word s p _ _ _ (by decide) (by decide)).trans ?_)
    rw [regWrite_lo p _ _ _ hwritable (by decide) (by decide) (by decide), loWrite_flipAddr _ hheld]
  case select =>
    intro s p v hwritable
    refine congrArg Host.Outcome.next ((writeAt_word s p _ _ _ (by decide) (by decide)).trans ?_)
    rw [regWrite_select p _ _ _ hwritable (by decide), selWrite_spkSel]
  case commandRead =>
    intro s c w2 w3 hserved hrole hsnap
    have hread : regRead s .mgmt (0 : Word).toNat false 0 = (gblId, s) := regRead_gblId 0 hsnap
    refine congrArg Host.Outcome.next ((registerRead_plain w2 w3 hserved hrole (by decide) (by decide)).trans ?_)
    rw [hread]
    rfl
  case commandWrite =>
    intro s c w2 w3 v m hmode hrole hspoke
    refine congrArg Host.Outcome.next ((registerWrite_plain w2 w3 v m hmode hrole (by decide) (by decide)).trans ?_)
    have hwritable : regsWritable (reply s c .success) = true := (regsWritable_reply ..).trans hmode
    refine (regWrite_select .mgmt _ 0 m hwritable (by decide)).trans ((selWrite_spkSel ..).trans ?_)
    rw [if_pos hspoke]
  case bad =>
    intro s a v hw inc m hbad
    exact ⟨congrArg _ (writeAt_bad s _ _ m hbad), congrArg _ (readAt_bad s inc hbad), congrArg _ (readAt_bad s 0 hbad),
      congrArg _ (writeAt_bad s _ _ _ hbad), congrArg _ (writeAt_bad s _ _ _ hbad), congrArg _ (writeAt_bad s _ _ _ hbad), badAccess_eq s a⟩
  case ok =>
    intro s a v hw inc m hok
    exact ⟨congrArg _ (writeAt_ok s _ _ m hok), congrArg _ (writeAt_ok s _ _ _ hok), congrArg _ (writeAt_ok s _ _ _ hok),
      congrArg _ (writeAt_ok s _ _ _ hok), regWrite_ignored a.path a.off _ _ m, congrArg _ (readAt_access s inc hok),
      congrArg _ (readAt_access s 0 hok)⟩
  case command =>
    intro s c w0 w1 w2 w3 v m
    refine ⟨fun h => ?_, fun h => ?_, fun r h hrole => ?_, fun r h hrole => ?_, fun hoff h hrole => ?_, fun hoff h hrole => ?_⟩
    · exact congrArg Host.Outcome.next (asManagerIn_unserved _ h)
    · exact congrArg Host.Outcome.next (asManagerIn_unserved _ h)
    · exact congrArg Host.Outcome.next (asManagerIn_refused _ h hrole)
    · exact congrArg Host.Outcome.next (asManagerIn_refused _ h hrole)
    · exact congrArg Host.Outcome.next ((asManagerIn_granted _ h hrole).trans (if_pos (by rw [hoff]; rfl)))
    · exact congrArg Host.Outcome.next ((asManagerIn_granted _ h hrole).trans (if_pos (by rw [hoff]; rfl)))

end Sys2Proof.Machine
end

section
/-! PWRON_L, the watchdog, the reset requests and the end of a power failure (R47, R52 to R54, R57, R58, R71). -/

namespace Sys2Proof.Machine

/-- States that agree but for counts and reports agree in every other part. -/
theorem parts_of_quiet {s t : State} (h : quiet s = quiet t) :
    s.pending = t.pending ∧ s.now = t.now ∧ s.glb = t.glb ∧ s.nor = t.nor ∧ s.trs = t.trs ∧ s.bay = t.bay :=
  ⟨(congrArg State.pending h : (quiet s).pending = (quiet t).pending), (congrArg State.now h : (quiet s).now = (quiet t).now),
   (congrArg State.glb h : (quiet s).glb = (quiet t).glb), (congrArg State.nor h : (quiet s).nor = (quiet t).nor),
   (congrArg State.trs h : (quiet s).trs = (quiet t).trs), (congrArg State.bay h : (quiet s).bay = (quiet t).bay)⟩

/-- What outranks a fatal fault outranks a reset (R48). -/
theorem outranked_reset_of_fatal {l : List ModeEvent} (h : outranked l .fatal = true) : outranked l .reset = true := by
  simp only [outranked, List.any_eq_true, decide_eq_true_eq] at h ⊢
  obtain ⟨r, hr, hlt⟩ := h
  exact ⟨r, hr, Nat.lt_trans hlt (by decide)⟩

/-- A start-up whose PLLs lock is Boot after the reset, marked where a PLL needed its reset; the report of that is all else. -/
theorem quiet_startUp_locked {m : Moment} (s : State) (warm : Bool) (cause : Nat) (h : m.lock1 ||| m.lock2 = 31) :
    quiet (startUp s warm cause m) = quiet { bootBegin (resetLogic s warm .boot cause) with
      glb := { (resetLogic s warm .boot cause).glb with transientSeen := m.lock1 != 31 } } := by
  unfold startUp
  rw [if_pos h]
  dsimp only
  split
  · next h1 => rw [h1]; rfl
  · next h1 =>
    have hseen : (m.lock1 != 31) = true := by simpa using h1
    rw [quiet_cured, hseen]
    rfl

/-- A PLL that does not lock keeps the controller in Held. -/
theorem startUp_unlocked {m : Moment} (s : State) (warm : Bool) (cause : Nat) (h : m.lock1 ||| m.lock2 ≠ 31) :
    startUp s warm cause m = resetLogic s warm .held cause := if_neg h

/-- The release of PWRON_L in Held samples the straps; TEST_EN decides whether start-up follows (R47, R538). -/
theorem pwronRelease_held {s : State} (x : Straps) (m : Moment) (hmode : s.glb.mode = .held) (hpin : s.glb.pwronL = true)
    (htrip : s.glb.tripHeld = false) : pwronRelease s x m =
      if x.testEn then { s with glb := { s.glb with pwronL := false, straps := x } }
      else startUp { s with glb := { s.glb with pwronL := false, straps := x } } false 0 m := by
  simp [pwronRelease, hmode, hpin, htrip]

/-- Outside Held, without an assertion, or after a trip of the logic die, the release does nothing. -/
theorem pwronRelease_elsewhere {s : State} (x : Straps) (m : Moment)
    (h : s.glb.mode ≠ .held ∨ s.glb.pwronL = false ∨ s.glb.tripHeld = true) : pwronRelease s x m = s :=
  if_pos (by simpa [or_assoc] using h)

/-- The first expiry of the watchdog is a warm reset (R58). -/
theorem watchdog_first {s : State} {m : Moment} (hmode : s.glb.mode ≠ .held) (hfirst : outranked m.rivals .reset = false)
    (hhistory : s.glb.wdOnce = false ∨ ticksS 60 ≤ s.glb.runTicks) : watchdog s m = internalReset s true 4 m := by
  have hlate : ¬(s.glb.wdOnce && decide (s.glb.runTicks < ticksS 60)) = true := by
    simp only [Bool.and_eq_true, decide_eq_true_eq, not_and, Nat.not_lt]
    rcases hhistory with h | h
    · rw [h]; exact fun h => nomatch h
    · exact fun _ => h
  unfold watchdog
  rw [if_neg hmode, if_neg hlate, hfirst]
  rfl

/-- A second expiry too soon is Boot's failure or a fatal fault, by the mode (R58). -/
theorem watchdog_second {s : State} {m : Moment} (honce : s.glb.wdOnce = true) (hsoon : s.glb.runTicks < ticksS 60)
    (hfirst : outranked m.rivals .fatal = false) : watchdog s m =
      match s.glb.mode with
      | .held => s
      | .safe => s
      | .boot => if s.glb.bootHalted then s else bootFail s 9 (min 0xFFFF (s.now / ticksS 1))
      | _ => if s.glb.drainReason = .powerFail then s else enterSafe s 9 (min 0xFFFF (s.now / ticksS 1)) := by
  cases hm : s.glb.mode <;> simp [watchdog, fatal, hm, honce, hsoon, hfirst]

/-- In Held, and behind what outranks a fatal fault, the watchdog does nothing (R48). -/
theorem watchdog_discarded {s : State} {m : Moment} (h : s.glb.mode = .held ∨ outranked m.rivals .fatal = true) : watchdog s m = s := by
  rcases h with h | h
  · exact if_pos h
  · simp [watchdog, h, outranked_reset_of_fatal h]

/-- A write with the key and either bit, with nothing before it in its tick, is the reset that COLD chooses (R54). -/
theorem resetWrite_keyed {s : State} {v : Nat} {m : Moment} (hmode : authMode s = true) (hkey : field v 16 16 = 0x5A17)
    (hfirst : outranked m.rivals .reset = false) (hbits : bitAt v 0 = true ∨ bitAt v 1 = true) :
    resetWrite s v m = internalReset s (!bitAt v 1) (if bitAt v 1 then 1 else 3) m := by
  have hsome : ¬(!bitAt v 0 && !bitAt v 1) = true := by
    rcases hbits with h | h <;> simp [h]
  rw [resetWrite_writable v m hmode, if_neg (not_not_intro hkey), if_neg hsome, hfirst]
  cases bitAt v 1 <;> rfl

/-- In Boot and in Held the reset register is not written. -/
theorem resetWrite_unwritable {s : State} (v : Nat) (m : Moment) (h : s.glb.mode = .boot ∨ s.glb.mode = .held) : resetWrite s v m = s := by
  unfold resetWrite
  rcases h with h | h <;> rw [h]

/-- After a cold reset the bay outputs are held (R441). -/
theorem internalReset_outHold (s : State) (cause : Nat) (m : Moment) : (internalReset s false cause m).bay.outHold = true := by
  unfold internalReset
  by_cases h : m.lock1 ||| m.lock2 = 31
  · obtain ⟨-, -, -, -, -, hbay⟩ := parts_of_quiet (quiet_startUp_locked (releaseBoth (abandonSession s) 3) false cause h)
    rw [hbay]
    rfl
  · rw [startUp_unlocked _ _ _ h]; rfl

/-- PWRFAIL_L released and stable is an internal cold reset that ends the power failure (R71). -/
theorem pwrfailOver_resets {s : State} {m : Moment} (hfail : s.glb.pwrfail = true) (hclk : s.glb.refclkLost = false)
    (hmode : s.glb.mode ≠ .held) (hfirst : outranked m.rivals .reset = false) : pwrfailOver s m =
      { internalReset s false 2 m with glb := { (internalReset s false 2 m).glb with pwrfail := false } } :=
  if_pos (by simp [hfail, hclk, hmode, hfirst])

/-- Settles O14: each row by its premises, and what a reset is said to do from `startsUp_internalReset`. -/
theorem resetsAndHolding : Obligations.ResetsAndHolding := by
  unfold Obligations.ResetsAndHolding
  refine ⟨?asserted, ?released, ?stays, ?releasedElsewhere, ?first, ?second, ?discarded, ?keyed, ?unkeyed, ?ended, ?endedElsewhere⟩
  case asserted => exact fun s => ⟨pwronAssert s, rfl, resetScope_toHeld s, rfl, rfl, rfl, rfl⟩
  case released =>
    rintro s x m ⟨hmode, hpin, htrip⟩ ⟨htest, hlock⟩
    have hrun : pwronRelease s x m = startUp { s with glb := { s.glb with pwronL := false, straps := x } } false 0 m := by
      rw [pwronRelease_held x m hmode hpin htrip, htest]; rfl
    refine ⟨_, congrArg Host.Outcome.next hrun, ?_⟩
    obtain ⟨hpending, hnow, hglb, hnor, htrs, -⟩ :=
      parts_of_quiet (quiet_startUp_locked { s with glb := { s.glb with pwronL := false, straps := x } } false 0 hlock)
    rw [hglb, hnow, hnor, htrs, hpending]
    exact ⟨rfl, rfl, rfl, rfl, rfl, rfl, rfl, rfl, rfl, rfl⟩
  case stays =>
    rintro s x m ⟨hmode, hpin, htrip⟩ hstay
    refine ⟨_, congrArg Host.Outcome.next (pwronRelease_held x m hmode hpin htrip), ?_⟩
    by_cases htest : x.testEn = true
    · rw [if_pos htest]
      exact ⟨hmode, rfl, rfl, rfl, rfl, rfl⟩
    · rw [if_neg htest, startUp_unlocked _ _ _ (hstay.resolve_left htest)]
      exact ⟨rfl, rfl, rfl, rfl, rfl, rfl⟩
  case releasedElsewhere => exact fun s x m h => congrArg Host.Outcome.next (pwronRelease_elsewhere x m h)
  case first =>
    rintro s m ⟨hmode, hfirst⟩ hhistory
    exact ⟨_, congrArg Host.Outcome.next (watchdog_first hmode hfirst hhistory), startsUp_internalReset ..⟩
  case second =>
    rintro s m n ⟨honce, hsoon⟩ ⟨hfirst, rfl⟩
    exact congrArg Host.Outcome.next (watchdog_second honce hsoon hfirst)
  case discarded => exact fun s m h => congrArg Host.Outcome.next (watchdog_discarded h)
  case keyed =>
    rintro s v m i hi ⟨hmode, hkey, hfirst⟩ hbits
    have hrun : exec i s = .next (resetWrite s v.toNat m) := by rcases hi with rfl | rfl <;> rfl
    refine ⟨_, hrun.trans (congrArg Host.Outcome.next (resetWrite_keyed hmode hkey hfirst hbits)), startsUp_internalReset .., fun hcold => ?_⟩
    rw [hcold]
    exact internalReset_outHold ..
  case unkeyed =>
    intro s v m i hi
    have hrun : exec i s = .next (resetWrite s v.toNat m) := by rcases hi with rfl | rfl <;> rfl
    rw [hrun]
    refine ⟨fun hmode hkey => ?_, fun hmode hkey h0 h1 => ?_, fun hmode hkey hbits hlate => ?_, fun h => ?_⟩
    · rw [resetWrite_wrongKey m hmode hkey]
    · rw [resetWrite_writable _ m hmode, if_neg (not_not_intro hkey), if_pos (by simp [h0, h1])]
    · rw [resetWrite_writable _ m hmode, if_neg (not_not_intro hkey), if_neg (by rcases hbits with h | h <;> simp [h]), if_pos hlate]
      rfl
    · rw [resetWrite_unwritable _ m h]
  case ended =>
    rintro s m ⟨hfail, hclk, hmode⟩ hfirst
    exact ⟨_, congrArg Host.Outcome.next (pwrfailOver_resets hfail hclk hmode hfirst),
      startsUp_pins (startsUp_internalReset ..) false _, rfl⟩
  case endedElsewhere =>
    intro s m h
    refine congrArg Host.Outcome.next (if_neg ?_)
    rcases h with h | h | h | h <;> simp [h]

end Sys2Proof.Machine
end

section
/-! Start-up (R56, R57, R59, R61 to R63, R79, R88, R90): what ends each step of Boot, and where Boot stands then. -/

namespace Sys2Proof.Machine

/-- A Boot that stands at a step is in Boot and has not halted. -/
theorem atStep_iff (s : State) (n : Nat) : atStep s n = true ↔ s.glb.mode = .boot ∧ s.glb.bootHalted = false ∧ s.glb.bootStep = n := by
  simp [atStep, and_assoc]

/-- A stage that passes begins the next one, and marks the Boot where it ran again after its limit (R57). -/
theorem passStage_glb (s : State) (n : Nat) : (passStage s n).glb =
    { s.glb with bootStep := n + 1, stageLate := false, transientSeen := s.glb.transientSeen || s.glb.stageLate } := by
  unfold passStage
  cases h : s.glb.stageLate <;> simp

/-- A stage that passes changes nothing of the NOR and the running image. -/
theorem passStage_image (s : State) (n : Nat) : (passStage s n).nor = s.nor ∧ (passStage s n).cfg = s.cfg := by
  unfold passStage
  cases h : s.glb.stageLate <;> simp

/-! ### Step 2 -/

theorem memoryPrepared_at {s : State} (bad1 bad2 : Option Nat) (h : atStep s 2 = true) : memoryPrepared s bad1 bad2 =
    match bad1, bad2 with
    | none, _ => passStage s 2
    | some m, none => passStage (cured s 2 m) 2
    | some _, some m => bootFail s 4 m := by
  unfold memoryPrepared
  rw [h]
  rfl

/-! ### Steps 3 and 4 -/

/-- At step 3 the NOR is noted once, and the slot that goes next is rejected or passes. -/
theorem imageLoaded_at {s u : State} {r : NorReport} {k : Nat} (h : atStep s 3 = true)
    (hu : u = if s.glb.norRead then s else noteNor s r) (hnext : nextSlot u = some k) : imageLoaded s r =
      if (slotSize u k).isNone || !(r.ok1 || r.ok2) then rejectSlot u k 3 false
      else measureOwner (passStage { (if r.ok1 then u else cured u 3 k) with
        glb := { (if r.ok1 then u else cured u 3 k).glb with reread := !r.ok1 } } 3) := by
  unfold imageLoaded
  rw [h]
  simp only [← hu, hnext, Bool.not_true, Bool.false_eq_true, if_false]

/-- At step 4 the slot that goes next is verified, once more after a reread (R86, R88). -/
theorem imageVerified_at {s u : State} {k : Nat} (v1 : ImageVerdict) (reread : Bool) (v2 : ImageVerdict) (h : atStep s 4 = true)
    (hnext : nextSlot s = some k) (hu : u = checkImageSigs s (slotBytesOf s k)) : imageVerified s v1 reread v2 =
      match verifyImage u ((slotSize s k).getD 0) (slotBytesOf s k) v1 with
      | none => imageFound u k
      | some r =>
        if u.glb.reread then rejectSlot (rejectEvent u k r) k 4 (r.code == 0x0D13)
        else if !reread then rejectSlot u k 3 false
        else match verifyImage (checkImageSigs u (slotBytesOf s k)) ((slotSize s k).getD 0) (slotBytesOf s k) v2 with
          | some r => rejectSlot (rejectEvent (checkImageSigs u (slotBytesOf s k)) k r) k 4 (r.code == 0x0D13)
          | none => imageFound (cured (checkImageSigs u (slotBytesOf s k)) 4 k) k := by
  unfold imageVerified
  rw [h]
  simp only [hnext, hu, Bool.not_true, Bool.false_eq_true, if_false] <;> rfl

/-- A slot that has verified is the boot slot, its image the running one, and Boot goes to step 5 (R88). -/
theorem imageFound_parts (s : State) (k : Nat) :
    (imageFound s k).glb.bootSlot = k ∧ (imageFound s k).glb.fallback = (k != firstSlot s) ∧ (imageFound s k).glb.bootStep = 5
      ∧ (imageFound s k).cfg.header = (slotBytesOf s k).take 64 ∧ (imageFound s k).cfg.sections = sectionsOf (slotBytesOf s k)
      ∧ (imageFound s k).nor = s.nor := by
  unfold imageFound
  obtain ⟨hnor, hcfg⟩ := passStage_image (measureImage (takeImage { s with
    glb := { s.glb with bootSlot := k, fallback := k != firstSlot s } } (slotBytesOf s k))) 4
  exact ⟨by rw [passStage_glb]; rfl, by rw [passStage_glb]; rfl, by rw [passStage_glb], (congrArg Cfg.header hcfg).trans rfl,
    (congrArg Cfg.sections hcfg).trans rfl, hnor⟩

/-! ### Steps 5 to 8 -/

theorem configured_at {s : State} (h : atStep s 5 = true) : configured s =
    match checkConfig s.cfg.sections (leAt s.cfg.header 32 1) with
    | some r => bootFail (rejectEvent s s.glb.bootSlot r) (if r.code = 0x0D40 then 2 else 3) r.code
    | none => passStage (loadConfig s) 5 := by
  unfold configured
  rw [h]
  rfl

theorem dramTrained_at {s : State} (fit1 fit2 : List Nat) (h : atStep s 6 = true) : dramTrained s fit1 fit2 =
    match trainFails s fit1, (trainFails s fit1).filter fun c => (trainFails s fit2).contains c with
    | [], _ => beginStep7 (passStage s 6)
    | c :: r, [] => beginStep7 (passStage ((c :: r).foldl (fun s c => cured s 6 c) s) 6)
    | _, c :: _ => bootFail s 6 c := by
  unfold dramTrained
  rw [h]
  rfl

/-- A part of step 7 that stays within its limit. -/
theorem lateStage_inTime (s : State) (late2 : Bool) (f : State → State) : lateStage s false late2 f = endStep7 (f s) := rfl

/-- A part of step 7 that exceeds its limit twice ends Boot in Safe. -/
theorem lateStage_twice (s : State) (f : State → State) : lateStage s true true f = bootFail s 5 7 := rfl

theorem scanEnded_at {s : State} {r : ScanReport} (h : atStep s 7 = true) (hdone : s.glb.scanDone = false) (hwait : s.glb.scanWait = none) :
    scanEnded s r = lateStage s r.late1 r.late2 fun s =>
      if s.glb.sweepDone then scanResults s r else { s with glb := { s.glb with scanWait := some r } } :=
  if_neg (by simp [h, hdone, hwait])

theorem dramSwept_at {s : State} (swept : List Nat) (late1 late2 : Bool) (h : atStep s 7 = true) (hdone : s.glb.sweepDone = false) :
    dramSwept s swept late1 late2 = lateStage s late1 late2 fun s =>
      if (swept.foldl markSwept s).mem.regions.all fun x => x.2.init then
        match (swept.foldl markSwept s).glb.scanWait with
        | some r => scanResults { swept.foldl markSwept s with glb := { (swept.foldl markSwept s).glb with sweepDone := true } } r
        | none => { swept.foldl markSwept s with glb := { (swept.foldl markSwept s).glb with sweepDone := true } }
      else swept.foldl markSwept s :=
  if_neg (by simp [h, hdone])

/-- The limit of a stage passes in Boot: once more, then by the step (R57). -/
theorem stageExpired_boot {s : State} (hmode : s.glb.mode = .boot) (hhalt : s.glb.bootHalted = false) : stageExpired s =
    if !s.glb.stageLate then { s with glb := { s.glb with stageLate := true } }
    else match s.glb.bootStep with
      | 3 | 4 => match nextSlot s with
        | some k => rejectSlot s k s.glb.bootStep false
        | none => s
      | n => bootFail s 5 n :=
  if_neg (by simp [hmode, hhalt])

/-- The second time steps 3 and 4 reject the slot that goes next; every other step ends Boot. -/
theorem stageExpired_twice {s : State} {k : Nat} (hmode : s.glb.mode = .boot) (hhalt : s.glb.bootHalted = false)
    (hlate : s.glb.stageLate = true) (hnext : nextSlot s = some k) : stageExpired s =
      if s.glb.bootStep = 3 ∨ s.glb.bootStep = 4 then rejectSlot s k s.glb.bootStep false else bootFail s 5 s.glb.bootStep := by
  refine (stageExpired_boot hmode hhalt).trans ((if_neg (by simp [hlate])).trans ?_)
  rw [hnext]
  split
  · next h => rw [if_pos (.inl h)]
  · next h => rw [if_pos (.inr h)]
  · next h3 h4 => rw [if_neg (not_or.mpr ⟨h3, h4⟩)]

/-- Outside Standby the limit is that of a stage of Boot. -/
theorem limitExpired_boot {s : State} (hmode : s.glb.mode = .boot) : limitExpired s = stageExpired s :=
  if_neg (by rw [hmode]; decide)

/-- Step 9 is due in Standby alone. -/
theorem step9Due_standby {s : State} (h : step9Due s = true) : s.glb.mode = .standby := by
  simp only [step9Due, Bool.and_eq_true, beq_iff_eq] at h
  exact h.1.2

/-- The limit of step 9 passes: once more, then Safe (R57). -/
theorem limitExpired_step9 {s : State} (h : step9Due s = true) (hreason : s.glb.drainReason ≠ .powerFail) : limitExpired s =
    if s.glb.stageLate then enterSafe s 5 9 else { s with glb := { s.glb with stageLate := true } } := by
  have hmode := step9Due_standby h
  cases hlate : s.glb.stageLate <;> simp [limitExpired, step9Expired, fatal, h, hmode, hlate, hreason]

/-- A fold of an operation that leaves the mode and start-up leaves them. -/
theorem glb_foldl {α : Type} (f : State → α → State) (l : List α) (s : State) (h : ∀ s x, (f s x).glb = s.glb) : (l.foldl f s).glb = s.glb := by
  induction l generalizing s with
  | nil => rfl
  | cons x l ih => exact (ih (f s x)).trans (h s x)

theorem discardEvents_glb (s : State) (l : List (Nat × CommitRec)) : (discardEvents s l).glb = s.glb :=
  glb_foldl _ _ _ fun _ _ => writeEvent_glb ..

theorem noteOccupancy_glb (s : State) : (noteOccupancy s).glb = s.glb := by
  unfold noteOccupancy
  dsimp only
  split
  · exact writeEvent_glb ..
  · split <;> rfl

/-- The recovery scan leaves the mode and start-up. -/
theorem recoveryScan_glb (s : State) (rep : ScanReport) : (recoveryScan s rep).glb = s.glb := by
  have hbad (l : List (Bool × Nat)) (s : State) : (l.foldl scanBad s).glb = s.glb :=
    glb_foldl _ _ _ fun s x => by unfold scanBad; split <;> rfl
  have hctr (l : List Nat) (s : State) : (l.foldl loseCounter s).glb = s.glb := glb_foldl _ _ _ fun s x => writeEvent_glb ..
  have hown (l : List Nat) (s : State) : (l.foldl (fun s p => setOwn s p {}) s).glb = s.glb := glb_foldl _ _ _ fun _ _ => rfl
  have hmir (l : List Nat) (s : State) : (l.foldl (fun s p => setMir s p {}) s).glb = s.glb := glb_foldl _ _ _ fun _ _ => rfl
  have hkeep (l : List (Nat × CommitRec)) (s : State) : (l.foldl keepPage s).glb = s.glb := glb_foldl _ _ _ fun _ _ => rfl
  unfold recoveryScan
  simp only [writeEvent_glb, noteOccupancy_glb, hkeep, hmir, hown, discardEvents_glb, hctr, hbad]

/-- The results of the scan with the sweep done end step 7. -/
theorem endStep7_scanResults {s : State} (r : ScanReport) (h : s.glb.sweepDone = true) :
    endStep7 (scanResults s r) = passStage (scanResults s r) 7 := by
  have hsweep : (scanResults s r).glb.sweepDone = true := by
    unfold scanResults
    by_cases hf : s.coc.formatted = true
    · rw [if_pos hf]
      exact (congrArg Glb.sweepDone (recoveryScan_glb s r)).trans h
    · rw [if_neg hf]
      exact h
  unfold endStep7
  rw [hsweep]
  rfl

/-- With both headers read at the first attempt the NOR is noted as it was found (R79, R88). -/
theorem noteNor_whole (s : State) (d0 d1 : Nat) (x y ok1 ok2 : Bool) : noteNor s ⟨some d0, some d1, true, x, true, y, ok1, ok2⟩ =
    { s with glb := { s.glb with norRead := true }, nor := { s.nor with
      sizeA := some (if s.glb.straps.norLayout then d0 / 2 else d0), sizeB := some (if s.glb.straps.norLayout then d0 / 2 else d1),
      hdrA := true, hdrB := true } } := by
  cases h : s.glb.straps.norLayout <;> simp [noteNor, h]

/-- With both densities read, every slot has its size. -/
theorem slotSize_known {s : State} (hA : s.nor.sizeA.isNone = false) (hB : s.nor.sizeB.isNone = false) (k : Nat) :
    (slotSize s k).isNone = false := by
  unfold slotSize
  split
  · exact hA
  · exact hB

/-- With no slot rejected in this Boot, the first slot goes next (R88). -/
theorem nextSlot_first {s : State} (hA : s.glb.failA = 0) (hB : s.glb.failB = 0) : nextSlot s = some (firstSlot s) := by
  have hfine : slotFailed s (firstSlot s) = false := by simp [slotFailed, hA, hB]
  simp [nextSlot, hfine]

/-- Step 8 in time: the record is written, and what becomes of it decides (R57, R63). -/
theorem recordWritten_at {s u t : State} {d : Bool} (ok1 ok2 : Bool) (ms : Nat) (h : atStep s 8 = true) (hlate : s.glb.stageLate = false)
    (hu : u = { s with glb := { s.glb with bootMs := min ms 65535, stageLate := false } })
    (hwrite : (t, d) = writeBootRec u (bootRecOf u 1 0) ok1 ok2) : recordWritten s ok1 ok2 ms =
      if d = false then enterSafe t 7 ((brNext u + 1) % 2)
      else reachStandby (if t.coc.formatted && decide (brNext u < 4096) && !ok1 then cured t 8 8 else t) := by
  unfold recordWritten
  rw [h, hlate]
  simp only [← hu, ← hwrite, Bool.not_true, Bool.false_eq_true, if_false]
  cases d <;> rfl

/-- Settles O15: each step's equation at its step, and `…_elsewhere` where Boot does not stand there. -/
theorem bootSteps : Obligations.BootSteps := by
  unfold Obligations.BootSteps
  refine ⟨?step2, ?step3, ?step3Rejects, ?step4Fails, ?step4, ?step5Fails, ?step5, ?step6, ?sweep, ?scan, ?limit, ?step9, ?step8, ?elsewhere⟩
  case step2 =>
    intro s b k j h
    have hglb := passStage_glb s 2
    exact ⟨congrArg _ (memoryPrepared_at none b h), congrArg _ (memoryPrepared_at (some k) none h),
      congrArg _ (memoryPrepared_at (some j) (some k) h), congrArg Glb.bootStep hglb, congrArg Glb.stageLate hglb,
      congrArg Glb.transientSeen hglb⟩
  case step3 =>
    rintro s d0 d1 x y z ⟨h, hread⟩ ⟨hA, hB⟩
    have hnote := noteNor_whole s d0 d1 x y true z
    generalize hu : noteNor s ⟨some d0, some d1, true, x, true, y, true, z⟩ = u at hnote
    have hnext : nextSlot u = some (firstSlot u) := nextSlot_first (by rw [hnote]; exact hA) (by rw [hnote]; exact hB)
    have hsize : (slotSize u (firstSlot u)).isNone = false := slotSize_known (by rw [hnote]; rfl) (by rw [hnote]; rfl) _
    have hrun := imageLoaded_at (r := ⟨some d0, some d1, true, x, true, y, true, z⟩) h (by rw [hread, hu]; rfl) hnext
    refine ⟨_, congrArg Host.Outcome.next (hrun.trans (if_neg (by rw [hsize]; exact Bool.false_ne_true))), ?_⟩
    have hglb := passStage_glb { u with glb := { u.glb with reread := false } } 3
    obtain ⟨hnor, -⟩ := passStage_image { u with glb := { u.glb with reread := false } } 3
    have hmode : s.glb.mode = .boot := ((atStep_iff s 3).mp h).1
    refine ⟨congrArg Nor.sizeA hnor |>.trans ?_, congrArg Nor.sizeB hnor |>.trans ?_, congrArg Glb.bootStep hglb, congrArg Glb.reread hglb,
      congrArg Nor.flash hnor |>.trans ?_, congrArg Glb.mode hglb |>.trans ?_⟩ <;> rw [hnote]
    exact hmode
  case step3Rejects =>
    rintro s r k ⟨h, hread⟩ hnext
    have hrun := imageLoaded_at (u := s) (r := r) h (by rw [hread]; rfl) hnext
    refine ⟨fun hbad => congrArg Host.Outcome.next (hrun.trans (if_pos ?_)), fun hsize h1 h2 => congrArg Host.Outcome.next (hrun.trans ?_)⟩
    · rcases hbad with hsize | ⟨h1, h2⟩
      · simp [hsize]
      · simp [h1, h2]
    · rw [if_neg (by simp [h2, Option.isSome_iff_ne_none.mp hsize]), h1]
      rfl
  case step4Fails =>
    rintro s u v1 v2 k r0 ⟨h, hreread⟩ ⟨hnext, hu⟩ hbad
    have hread : u.glb.reread = false := by rw [hu]; exact hreread
    have hrun (again : Bool) := imageVerified_at v1 again v2 h hnext hu
    rw [hbad] at hrun
    refine ⟨congrArg Host.Outcome.next ((hrun false).trans ?_), congrArg Host.Outcome.next ((hrun true).trans ?_)⟩
    · exact (if_neg (by simp [hread])).trans (if_pos rfl)
    · exact (if_neg (by simp [hread])).trans ((if_neg (by decide)).trans rfl)
  case step4 =>
    intro s v1 v2 x k h hnext hgood
    have hrun := imageVerified_at v1 x v2 h hnext rfl
    rw [hgood] at hrun
    refine ⟨imageFound (checkImageSigs s (slotBytesOf s k)) k, congrArg Host.Outcome.next hrun, ?_⟩
    obtain ⟨hslot, hfallback, hstep, hheader, hsections, hnor⟩ := imageFound_parts (checkImageSigs s (slotBytesOf s k)) k
    exact ⟨hslot, hfallback, hstep, hheader, hsections, hnor⟩
  case step5Fails =>
    intro s r h hbad
    exact congrArg Host.Outcome.next ((configured_at h).trans (by rw [hbad]))
  case step5 =>
    intro s h hgood
    exact congrArg Host.Outcome.next ((configured_at h).trans (by rw [hgood]))
  case step6 =>
    intro s f1 f2 h
    have hrun := dramTrained_at f1 f2 h
    refine ⟨fun hgood => congrArg Host.Outcome.next (hrun.trans (by rw [hgood])),
      fun c r hbad hcured => congrArg Host.Outcome.next (hrun.trans ?_), fun c r hbad => congrArg Host.Outcome.next (hrun.trans ?_)⟩
    · have hnone : (c :: r).filter (fun c => (trainFails s f2).contains c) = [] :=
        List.filter_eq_nil_iff.mpr fun x hx => by simpa using hcured x hx
      rw [hbad, hnone]
    · cases hfirst : trainFails s f1 with
      | nil => rw [hfirst] at hbad; cases hbad
      | cons d l => rw [hfirst] at hbad; rw [hbad]
  case sweep =>
    rintro s l b ⟨h, hdone⟩
    exact ⟨congrArg Host.Outcome.next (dramSwept_at l false b h hdone), congrArg Host.Outcome.next (dramSwept_at l true true h hdone)⟩
  case scan =>
    rintro s r ⟨h, hdone, hwait⟩
    have hrun := scanEnded_at (r := r) h hdone hwait
    refine ⟨fun h1 hsweep => congrArg Host.Outcome.next (hrun.trans ?_), fun h1 hsweep => congrArg Host.Outcome.next (hrun.trans ?_),
      fun h1 h2 => congrArg Host.Outcome.next (hrun.trans ?_)⟩
    · rw [h1, lateStage_inTime, hsweep]
      exact if_neg (by simp [hsweep])
    · rw [h1, lateStage_inTime, if_pos hsweep]
      exact endStep7_scanResults r hsweep
    · rw [h1, h2, lateStage_twice]
  case limit =>
    rintro s k ⟨hmode, hhalt⟩ hnext
    refine ⟨fun hlate => ?_, fun hlate => ?_⟩
    · exact congrArg Host.Outcome.next ((limitExpired_boot hmode).trans ((stageExpired_boot hmode hhalt).trans (if_pos (by rw [hlate]; rfl))))
    · exact congrArg Host.Outcome.next ((limitExpired_boot hmode).trans (stageExpired_twice hmode hhalt hlate hnext))
  case step9 =>
    rintro s ⟨hdue, hreason⟩
    exact congrArg Host.Outcome.next (limitExpired_step9 hdue hreason)
  case step8 =>
    rintro s u t ok1 ok2 d ms ⟨h, hlate⟩ ⟨hu, hwrite⟩
    exact congrArg Host.Outcome.next (recordWritten_at ok1 ok2 ms h hlate hu hwrite)
  case elsewhere =>
    intro s a b n v1 v2 x y l l' r ms
    exact ⟨fun h => congrArg _ (memoryPrepared_elsewhere a b h), fun h => congrArg _ (imageLoaded_elsewhere n h),
      fun h => congrArg _ (imageVerified_elsewhere v1 x v2 h), fun h => congrArg _ (configured_elsewhere h),
      fun h => congrArg _ (dramTrained_elsewhere l l' h),
      fun h => ⟨congrArg _ (dramSwept_elsewhere l x y h), congrArg _ (scanEnded_elsewhere r h)⟩,
      fun h => congrArg _ (recordWritten_elsewhere x y ms h)⟩

end Sys2Proof.Machine
end

section
/-! Requests for a mode, the end of a drain and PWRFAIL_L (R48, R50, R67, R70, R73). -/

namespace Sys2Proof.Machine

/-- A request to shut down, by the mode. -/
theorem shutdownReq_active {s : State} (l : List ModeEvent) (h : s.glb.mode = .active) :
    shutdownReq s l = if outranked l .drain then setReq s 2 else setReq (drainShutdown s) 0 := by
  unfold shutdownReq
  rw [h]

theorem shutdownReq_refused {s : State} (l : List ModeEvent) (h : s.glb.mode = .standby ∨ s.glb.mode = .drain ∨ s.glb.mode = .safe) :
    shutdownReq s l = setReq s 1 := by
  unfold shutdownReq
  rcases h with h | h | h <;> rw [h]

theorem shutdownReq_unwritable {s : State} (l : List ModeEvent) (h : s.glb.mode = .boot ∨ s.glb.mode = .held) : shutdownReq s l = s := by
  unfold shutdownReq
  rcases h with h | h <;> rw [h]

/-- A request for Safe, by the mode. -/
theorem safeReq_operational {s : State} (l : List ModeEvent) (h : s.glb.mode = .standby ∨ s.glb.mode = .active ∨ s.glb.mode = .drain)
    (hreason : s.glb.drainReason ≠ .powerFail) :
    safeReq s l = if outranked l .fatal then setReq s 2 else setReq (enterSafe s 0x0B 0) 0 := by
  unfold safeReq
  rcases h with h | h | h <;> rw [h] <;> exact if_neg hreason

theorem safeReq_refused {s : State} (l : List ModeEvent)
    (h : s.glb.mode = .safe ∨ (s.glb.mode = .drain ∧ s.glb.drainReason = .powerFail)) : safeReq s l = setReq s 1 := by
  unfold safeReq
  rcases h with h | ⟨h, hreason⟩
  · rw [h]
  · rw [h]; exact if_pos hreason

theorem safeReq_unwritable {s : State} (l : List ModeEvent) (h : s.glb.mode = .boot ∨ s.glb.mode = .held) : safeReq s l = s := by
  unfold safeReq
  rcases h with h | h <;> rw [h]

/-- In Drain (shutdown) the end of a drain is that of the shutdown, once staging is empty or the limit is reached. -/
theorem drainOver_shutdown {s : State} (limit : Bool) (h : s.glb.mode = .drain ∧ s.glb.drainReason = .shutdown) :
    drainOver s limit =
      if limit || ([0, 1].all fun g => !(grpOf s g).owned || groupDrained s g) then drainEnd s else s :=
  if_pos (by simp [h])

/-- Elsewhere it is that of the groups being released. -/
theorem drainOver_release {s : State} (limit : Bool) (h : ¬(s.glb.mode = .drain ∧ s.glb.drainReason = .shutdown)) :
    drainOver s limit = releaseEnd (releaseEnd s 0 limit) 1 limit :=
  if_neg (by simpa using h)

/-- A group that is not being released is left as it is. -/
theorem releaseEnd_none {s : State} {g : Nat} (limit : Bool) (h : (grpOf s g).releasing = none) : releaseEnd s g limit = s := by
  unfold releaseEnd
  rw [h]

/-- In Standby, Active or a drain the first assertion takes steps 1 to 6 of R67. -/
theorem powerFail_operational {s : State} (rail : List Nat) (hmode : s.glb.mode = .standby ∨ s.glb.mode = .active ∨ s.glb.mode = .drain)
    (hlatch : s.glb.pwrfail = false) : powerFail s rail =
      noteMode { s with glb := { s.glb with pwrfail := true } }
        { closeCocoon (releaseBoth (dropIngress { s with glb := { s.glb with pwrfail := true } }) 2) rail with
          glb := { (closeCocoon (releaseBoth (dropIngress { s with glb := { s.glb with pwrfail := true } }) 2) rail).glb with
            mode := .drain, drainReason := .powerFail } } := by
  rcases hmode with h | h | h <;> simp [powerFail, hlatch, h]

/-- While a power failure lasts another assertion does nothing. -/
theorem powerFail_again {s : State} (rail : List Nat) (hlatch : s.glb.pwrfail = true) : powerFail s rail = s :=
  if_pos (by simp [hlatch])

/-- Settles O16: each request by its mode, the drain's end by its reason, and PWRFAIL_L by the equations of `powerFail`. -/
theorem modeRequests : Obligations.ModeRequests := by
  unfold Obligations.ModeRequests
  refine ⟨?shutdown, ?shutdownElsewhere, ?safe, ?safeElsewhere, ?complete, ?limit, ?release, ?pwrfail, ?pwrfailElsewhere⟩
  case shutdown => exact fun s m h => congrArg Host.Outcome.next (shutdownReq_active m.rivals h)
  case shutdownElsewhere =>
    exact fun s m => ⟨fun h => congrArg Host.Outcome.next (shutdownReq_refused m.rivals h),
      fun h => congrArg Host.Outcome.next (shutdownReq_unwritable m.rivals h)⟩
  case safe => exact fun s m h hreason => congrArg Host.Outcome.next (safeReq_operational m.rivals h hreason)
  case safeElsewhere =>
    exact fun s m => ⟨fun h => congrArg Host.Outcome.next (safeReq_refused m.rivals h),
      fun h => congrArg Host.Outcome.next (safeReq_unwritable m.rivals h)⟩
  case complete =>
    intro s m h
    refine congrArg Host.Outcome.next ?_
    rw [drainOver_shutdown false h]
    cases hrank : outranked m.rivals .group with
    | true => simp
    | false => simp only [Bool.false_or, List.all_cons, List.all_nil, Bool.and_true, Bool.and_eq_true, Bool.or_eq_true, Bool.not_eq_true',
        true_and, Bool.false_eq_true, if_false]; rfl
  case limit =>
    intro s m h
    refine congrArg Host.Outcome.next ?_
    rw [drainOver_shutdown true h]
    rfl
  case release =>
    intro s m h hfirst
    have hrun (limit : Bool) : (if outranked m.rivals .group then s else drainOver s limit) = releaseEnd (releaseEnd s 0 limit) 1 limit := by
      rw [hfirst, drainOver_release limit h]
      rfl
    refine ⟨congrArg Host.Outcome.next (hrun false), congrArg Host.Outcome.next (hrun true), fun h0 h1 => ?_⟩
    have hnone (limit : Bool) : releaseEnd (releaseEnd s 0 limit) 1 limit = s := by
      rw [releaseEnd_none limit h0, releaseEnd_none limit h1]
    exact ⟨congrArg Host.Outcome.next ((hrun false).trans (hnone false)), congrArg Host.Outcome.next ((hrun true).trans (hnone true))⟩
  case pwrfail =>
    rintro s u m hmode ⟨hlatch, hfirst⟩ rfl
    rw [exec_pwrfailLAsserted_first hfirst, powerFail_operational [] hmode hlatch]
  case pwrfailElsewhere =>
    intro s u m hu
    refine ⟨fun hmode hlatch hfirst => ?_, fun hmode hlatch hfirst => ?_, fun h => ?_⟩
    · rw [exec_pwrfailLAsserted_first hfirst, powerFail_boot [] hlatch hmode hu rfl]
      split <;> rfl
    · rw [exec_pwrfailLAsserted_first hfirst, powerFail_safe [] hlatch hmode, hu]
    · by_cases hrank : outranked m.rivals .pwrfail = true
      · exact congrArg Host.Outcome.next (if_pos hrank)
      · rw [exec_pwrfailLAsserted_first (by simpa using hrank)]
        rcases h with h | h | h
        · rw [powerFail_held [] h]
        · rw [powerFail_again [] h]
        · exact absurd h hrank

end Sys2Proof.Machine
end

section
/-! Staging, committing and activating an image (R88, R101 to R105, R126). -/

namespace Sys2Proof.Machine

/-! ### The staging session -/

theorem sessionStop_own {s : State} {c : Cid} {x : Session} (h : s.nor.session = some x) (hown : x.owner = c.org) : sessionStop s c = none := by
  unfold sessionStop
  rw [h]
  exact if_pos hown

theorem sessionStop_other {s : State} {c : Cid} {x : Session} (h : s.nor.session = some x) (hown : x.owner ≠ c.org) :
    sessionStop s c = some (.vendor 0xC1) := by
  unfold sessionStop
  rw [h]
  exact if_neg hown

theorem sessionStop_none {s : State} {c : Cid} (h : s.nor.session = none) : sessionStop s c = some (.vendor 0xC2) := by
  unfold sessionStop
  rw [h]

/-- Bytes from 64 on are all programmed. -/
theorem stageBytes_body {off : Nat} (s : State) (x : Session) (data : List Byte) (h : 64 ≤ off) : stageBytes s x off data =
    { s with nor := { s.nor with flash := memWriteBytes 0xFF s.nor.flash (2 ^ 26 * otherSlot s + off) data, session := some { x with last := s.now } } } := by
  simp [stageBytes, Nat.sub_eq_zero_of_le h, Nat.not_lt.mpr h, Nat.max_eq_left h]

/-- Bytes below 64 are held for the header, and the rest programmed. -/
theorem stageBytes_header {off : Nat} (s : State) (x : Session) (data : List Byte) (h : off < 64) : stageBytes s x off data =
    { s with nor := { s.nor with
      flash := memWriteBytes 0xFF s.nor.flash (2 ^ 26 * otherSlot s + 64) (data.drop (64 - off)),
      session := some { x with
        header := (x.header.take off ++ data.take (64 - off) ++ x.header.drop (off + (data.take (64 - off)).length)).take 64,
        last := s.now } } } := by
  simp [stageBytes, h, Nat.max_eq_right (Nat.le_of_lt h)]

/-- A stage write that its session admits, and whose bytes are whole units within the slot. -/
theorem stageWrite_open {s : State} {c : Cid} {x : Session} {off len : Nat} (data : List Byte) (h : s.nor.session = some x)
    (hown : x.owner = c.org) (hunits : off % 16 = 0 ∧ len % 16 = 0 ∧ 0 < len ∧ len ≤ 2 ^ 20 ∧ off + len ≤ 50331648) :
    stageWrite s c off len false data = reply (stageBytes s x off (data.take len)) c .success := by
  obtain ⟨hoff, hlen, hpos, hmax, hend⟩ := hunits
  have hgood : ¬(off % 16 ≠ 0 || len % 16 ≠ 0 || len = 0 || decide (2 ^ 20 < len) || decide (50331648 < off + len)) = true := by
    simp [hoff, hlen]
    omega
  unfold stageWrite
  simp only [Bool.false_eq_true, if_false, sessionStop_own h hown, hgood, h]

/-- BEGIN opens the session first. -/
theorem stageWrite_begin {s : State} {c : Cid} {off len : Nat} (data : List Byte)
    (h : s.nor.session = none ∨ ∃ x, s.nor.session = some x ∧ x.owner = c.org)
    (hunits : off % 16 = 0 ∧ len % 16 = 0 ∧ 0 < len ∧ len ≤ 2 ^ 20 ∧ off + len ≤ 50331648) :
    stageWrite s c off len true data =
      reply (stageBytes (openSession s c) { owner := c.org, header := List.replicate 64 0xFF, last := s.now } off (data.take len)) c .success := by
  obtain ⟨hoff, hlen, hpos, hmax, hend⟩ := hunits
  have hgood : ¬(off % 16 ≠ 0 || len % 16 ≠ 0 || len = 0 || decide (2 ^ 20 < len) || decide (50331648 < off + len)) = true := by
    simp [hoff, hlen]
    omega
  unfold stageWrite
  rcases h with h | ⟨x, h, hown⟩
  · simp only [if_true, h, Option.isSome_none, Bool.false_eq_true, if_false, hgood, openSession]
  · simp only [if_true, h, Option.isSome_some, sessionStop_own h hown, Bool.false_eq_true, if_false, hgood, openSession]

/-- Bytes that are no whole units within the slot are Invalid Field. -/
theorem stageWrite_badUnits {s : State} {c : Cid} {x : Session} {off len : Nat} (b : Bool) (data : List Byte) (h : s.nor.session = some x)
    (hown : x.owner = c.org) (hbad : off % 16 ≠ 0 ∨ len % 16 ≠ 0 ∨ len = 0 ∨ 2 ^ 20 < len ∨ 50331648 < off + len) :
    stageWrite s c off len b data = reply s c .invalidField := by
  have hbad' : (off % 16 ≠ 0 || len % 16 ≠ 0 || len = 0 || decide (2 ^ 20 < len) || decide (50331648 < off + len)) = true := by
    simpa [or_assoc] using hbad
  unfold stageWrite
  cases b <;> simp only [Bool.false_eq_true, if_false, if_true, h, Option.isSome_some, sessionStop_own h hown, hbad']

/-- An agent without the session is turned away. -/
theorem stageWrite_noSession {s : State} {c : Cid} (off len : Nat) (data : List Byte) (h : s.nor.session = none) :
    stageWrite s c off len false data = reply s c (.vendor 0xC2) := by
  unfold stageWrite
  simp only [Bool.false_eq_true, if_false, sessionStop_none h]

theorem stageWrite_otherSession {s : State} {c : Cid} {x : Session} (off len : Nat) (b : Bool) (data : List Byte)
    (h : s.nor.session = some x) (hown : x.owner ≠ c.org) : stageWrite s c off len b data = reply s c (.vendor 0xC1) := by
  unfold stageWrite
  cases b <;> simp only [Bool.false_eq_true, if_false, if_true, h, Option.isSome_some, sessionStop_other h hown]

/-- A commit of the session's owner: the staged bytes are checked, and what that finds decides (R86, R101, R103). -/
theorem stageCommit_own {s u : State} {c : Cid} {x : Session} {b : List Byte} (len : Nat) (v : ImageVerdict) (h : s.nor.session = some x)
    (hown : x.owner = c.org)
    (hb : b = x.header ++ memReadBytes 0xFF s.nor.flash (2 ^ 26 * otherSlot s + 64) (min len 50331648 - 64) ∧ u = checkImageSigs s b) :
    stageCommit s c len v =
      match stagedReject u b len v with
      | some r => reply (rejectEvent { u with nor := { s.nor with session := some { x with last := s.now } } } (otherSlot s) r) c (.vendor 0xC0) r.code
      | none => reply (writeEvent { u with nor := { s.nor with
          flash := memWriteBytes 0xFF s.nor.flash (2 ^ 26 * otherSlot s) x.header, session := none,
          hdrA := s.nor.hdrA || otherSlot s == 0, hdrB := s.nor.hdrB || otherSlot s == 1, committed := true } }
          { num := 0x0D60, inst := otherSlot s, detail := [otherSlot s] }) c .success := by
  obtain ⟨rfl, rfl⟩ := hb
  unfold stageCommit
  simp only [sessionStop_own h hown, h]
  rfl

/-! ### Activation and the swap -/

/-- An activation with no session open, in Standby or Active. -/
theorem activate_runs {s : State} {c : Cid} (f : State → State) (hmode : s.glb.mode = .standby ∨ s.glb.mode = .active)
    (hrole : hasRole s c 2 = none) (h : s.nor.session = none) : activate s c f = f s := by
  have hfull : mgmtFull s = true := by unfold mgmtFull; rcases hmode with h | h <;> rw [h]
  refine (asManager_granted _ ⟨hfull, hrole⟩).trans ?_
  rw [h]
  rcases hmode with h | h <;> rw [h] <;> rfl

/-- An open session, and a drain, turn an activation away. -/
theorem activate_session {s : State} {c : Cid} (f : State → State) (hfull : mgmtFull s = true) (hrole : hasRole s c 2 = none)
    (h : s.nor.session.isSome = true) : activate s c f = reply s c (.vendor 0xC1) :=
  (asManager_granted _ ⟨hfull, hrole⟩).trans (if_pos h)

theorem activate_drain {s : State} {c : Cid} (f : State → State) (hmode : s.glb.mode = .drain) (hrole : hasRole s c 2 = none)
    (h : s.nor.session = none) : activate s c f = reply s c (.vendor 0xC4) := by
  have hfull : mgmtFull s = true := by unfold mgmtFull; rw [hmode]
  refine (asManager_granted _ ⟨hfull, hrole⟩).trans ?_
  rw [h, hmode]
  rfl

/-- In Drain (activation), with no host command past dispatch and nothing before it in its tick, the swap goes by the slot. -/
theorem imageSwap_ready {s : State} (ok : Bool) (ms : Nat) {m : Moment} (h : s.glb.mode = .drain ∧ s.glb.drainReason = .activation)
    (hready : swapReady s = true) (hfirst : outranked m.rivals .drain = false) : imageSwap s ok ms m =
      if !s.nor.committed || s.nor.session.isSome then leaveActivation s s.nor.activating (.vendor 0xC3)
      else if !s.coc.formatted || decide (4095 ≤ brNext s) then leaveActivation s s.nor.activating (.vendor 0xC3)
      else if !ok then leaveActivation (setBr s (brNext s) .torn) s.nor.activating (.vendor 0xC3)
      else
        let n := underImage (keepRules s) (otherSlot s)
        let n := measureImage { n with glb := { n.glb with bootSlot := otherSlot s }, nor := { n.nor with committed := false } }
        let r := chainRec s (swapRecord n s ms) (brNext s)
        leaveActivation (writeEvent (loadLive (setMeas (setBr n (brNext s) (.record r)) 8 (Config.sha384 (bootBody r))) s)
          { num := 0x0D61, inst := otherSlot s, detail := [otherSlot s] }) s.nor.activating .success :=
  if_neg (by simp [h, hready, hfirst])

/-- Elsewhere the swap does nothing. -/
theorem imageSwap_elsewhere {s : State} (ok : Bool) (ms : Nat) {m : Moment}
    (h : ¬(s.glb.mode = .drain ∧ s.glb.drainReason = .activation) ∨ swapReady s = false ∨ outranked m.rivals .drain = true) :
    imageSwap s ok ms m = s := by
  refine if_pos ?_
  rcases h with h | h | h
  · rcases Classical.not_and_iff_not_or_not.mp h with h | h <;> simp [h]
  · simp [h]
  · simp [h]

/-- A held command reaches its limit: it is counted and interrupted, and the first of an activation is reported (R271). -/
theorem holdExpired_found {s u : State} {c : Cid} {n : Nat} {x : Ctx} {l : List (Nat × Ctx)}
    (h : ctxFilter s (fun x => x.run == .held && (match x.cmd with | some h => h.c == c | none => false)) = (n, x) :: l)
    (hu : u = endHold (rcAdd s 0x6101C 0 1) n x .commandInterrupted) : holdExpired s c =
      if u.cfe.holdRep then u else writeEvent { u with cfe := { u.cfe with holdRep := true } } { num := 0x0504, vss := x.vss } := by
  unfold holdExpired
  generalize hl : ctxFilter s _ = k
  obtain rfl : k = (n, x) :: l := hl.symm.trans h
  rw [hu]
  rfl

theorem holdExpired_none {s : State} {c : Cid}
    (h : ctxFilter s (fun x => x.run == .held && (match x.cmd with | some h => h.c == c | none => false)) = []) : holdExpired s c = s := by
  unfold holdExpired
  generalize hl : ctxFilter s _ = k
  obtain rfl : k = [] := hl.symm.trans h
  rfl

/-- Settles O17: the staging commands by their session, the activations by the mode, the swap by its slot and its record. -/
theorem imageStaging : Obligations.ImageStaging := by
  unfold Obligations.ImageStaging
  refine ⟨?write, ?begin, ?bad, ?commit, ?commitRejects, ?live, ?warm, ?activateElsewhere, ?info, ?timeout, ?swapFails, ?swap,
    ?swapElsewhere, ?hold⟩
  case write =>
    rintro s c x off len data ⟨hserved, hrole⟩ ⟨hsession, hown⟩ hunits
    have hrun := (asManagerIn_granted (fun s => stageWrite s c off len false data) hserved hrole).trans (stageWrite_open data hsession hown hunits)
    refine ⟨fun hoff => congrArg Host.Outcome.next (hrun.trans ?_), fun hoff => congrArg Host.Outcome.next (hrun.trans ?_)⟩
    · rw [stageBytes_body _ _ _ hoff]
    · rw [stageBytes_header _ _ _ hoff]
  case begin =>
    rintro s u c x off len data ⟨hserved, hrole⟩ hsession hunits rfl
    have hfree : s.nor.session = none ∨ ∃ x, s.nor.session = some x ∧ x.owner = c.org := hsession.imp_right fun h => ⟨_, h, rfl⟩
    exact congrArg Host.Outcome.next ((asManagerIn_granted _ hserved hrole).trans (stageWrite_begin data hfree hunits))
  case bad =>
    rintro s c x off len b data ⟨hserved, hrole⟩
    exact ⟨fun hsession hown hbad => congrArg Host.Outcome.next ((asManagerIn_granted _ hserved hrole).trans (stageWrite_badUnits b data hsession hown hbad)),
      fun hsession => congrArg Host.Outcome.next ((asManagerIn_granted _ hserved hrole).trans (stageWrite_noSession off len data hsession)),
      fun hsession hown => congrArg Host.Outcome.next ((asManagerIn_granted _ hserved hrole).trans (stageWrite_otherSession off len b data hsession hown))⟩
  case commit =>
    rintro s u c len v x b ⟨hserved, hrole⟩ ⟨hsession, hown⟩ hb hgood
    refine congrArg Host.Outcome.next ((asManagerIn_granted _ hserved hrole).trans ((stageCommit_own len v hsession hown hb).trans ?_))
    rw [hgood]
  case commitRejects =>
    rintro s u c len v x b r ⟨hserved, hrole⟩ hsession hb hbad
    refine ⟨fun hown => ?_, fun hown => ?_⟩
    · refine congrArg Host.Outcome.next ((asManagerIn_granted _ hserved hrole).trans ((stageCommit_own len v hsession hown hb).trans ?_))
      rw [hbad]
    · refine congrArg Host.Outcome.next ((asManagerIn_granted _ hserved hrole).trans ?_)
      unfold stageCommit
      rw [sessionStop_other hsession hown]
  case live =>
    rintro s c m hmode ⟨hrole, hsession⟩
    refine congrArg Host.Outcome.next ((activate_runs _ hmode hrole hsession).trans ?_)
    unfold activateLive
    cases livePossible s <;> rfl
  case warm =>
    rintro s c m hmode ⟨hrole, hsession⟩
    have hrun := activate_runs (fun s => activateWarm s c m) hmode hrole hsession
    exact ⟨fun hlate => congrArg Host.Outcome.next (hrun.trans (if_pos hlate)),
      fun hfirst => ⟨_, congrArg Host.Outcome.next (hrun.trans (if_neg (by simp [hfirst]))), startsUp_internalReset ..⟩⟩
  case activateElsewhere =>
    intro s c m hmode hrole
    have hfull : mgmtFull s = true := by unfold mgmtFull; rcases hmode with h | h | h <;> rw [h]
    exact ⟨fun h => ⟨congrArg Host.Outcome.next (activate_session _ hfull hrole h), congrArg Host.Outcome.next (activate_session _ hfull hrole h)⟩,
      fun h hdrain => ⟨congrArg Host.Outcome.next (activate_drain _ hdrain hrole h), congrArg Host.Outcome.next (activate_drain _ hdrain hrole h)⟩⟩
  case info => exact fun s c hserved hrole => congrArg Host.Outcome.next (asManagerIn_granted _ hserved hrole)
  case timeout => exact fun s => rfl
  case swapFails =>
    intro s ok ms m hmode ⟨hready, hfirst⟩ hbad
    refine congrArg Host.Outcome.next ((imageSwap_ready ok ms hmode hready hfirst).trans ?_)
    by_cases hslot : s.nor.committed = false ∨ s.nor.session.isSome = true
    · rw [if_pos (by simpa using hslot), if_pos (by rcases hslot with h | h <;> simp [h])]
    · rw [if_neg (by simpa using hslot)]
      by_cases hregion : s.coc.formatted = false ∨ 4095 ≤ brNext s
      · rw [if_pos (by simpa using hregion), if_pos (.inr (.inr hregion))]
      · have hok : ok = false := (or_assoc.mpr ((or_assoc.mpr hbad).resolve_left hslot)).resolve_left hregion
        rw [if_neg (by simpa using hregion), if_pos (by simp [hok]), if_neg fun h => (or_assoc.mpr h).elim hslot hregion]
  case swap =>
    rintro s n ms k m r ⟨hmode, hreason, hready, hfirst⟩ ⟨hcommitted, hsession, hformatted, hregion, rfl⟩ ⟨rfl, rfl⟩
    refine congrArg Host.Outcome.next ((imageSwap_ready true ms ⟨hmode, hreason⟩ hready hfirst).trans ?_)
    rw [if_neg (by simp [hcommitted, hsession]), if_neg (by simp [hformatted, hregion]), if_neg (by decide)]
  case swapElsewhere => exact fun s ok ms m h => congrArg Host.Outcome.next (imageSwap_elsewhere ok ms h)
  case hold =>
    intro s u c n x l h hu
    exact ⟨congrArg Host.Outcome.next (holdExpired_found h hu), fun w hnone => congrArg Host.Outcome.next (holdExpired_none hnone)⟩

end Sys2Proof.Machine
end

section
/-! The owner operations (R110 to R117) and the read of a key (R133). -/

namespace Sys2Proof.Machine

/-- Each of the three rows is the write of TRS_AUTH_CTL that its word says. -/
theorem exec_authStart {s : State} {val : Word} {i : Instr} (hi : i = .trsEnroll val ∨ i = .trsRevoke val ∨ i = .trsAdvanceMinSvn val) :
    exec i s = .next (authStart s val) := by
  rcases hi with rfl | rfl | rfl <;> rfl

/-- A write while an operation runs is counted (R116). -/
theorem authStart_busy {s : State} {val : Word} (h : s.trs.busy.isSome = true) : authStart s val = count s 0x0002 := if_pos h

/-- An OP of 0 or above 3 fails with result 1. -/
theorem authStart_badOp {s : State} {val : Word} (hbusy : s.trs.busy = none) (hop : field val.toNat 0 3 = 0 ∨ 3 < field val.toNat 0 3) :
    authStart s val = authResult s (field val.toNat 0 3) 1 := by
  refine (if_neg (by simp [hbusy])).trans (if_pos ?_)
  rcases hop with h | h <;> simp [authOpOf, h]

/-- A write that starts an operation goes by whether the controller is owned (R111, R114). -/
theorem authStart_op {s : State} {val : Word} (hmode : authMode s = true) (hbusy : s.trs.busy = none)
    (hop : 1 ≤ field val.toNat 0 3 ∧ field val.toNat 0 3 ≤ 3) : authStart s val =
      let o := authOpOf s val.toNat
      if owned s then
        if ownerState (ownerOf s o.signer) ≠ 1 then authResult s o.op 4
        else checkAuthSigs { s with trs := { s.trs with busy := some o } } o
      else if authTarget s o.op o.target o.value ≠ 0 then authResult s o.op (authTarget s o.op o.target o.value)
      else if o.op = 1 then startBurn s o
      else authResult s o.op 4 :=
  (if_neg (by simp [hbusy])).trans (if_neg (by simp [hmode, authOpOf, show field val.toNat 0 3 ≠ 0 by omega, Nat.not_lt.mpr hop.2]))

/-- The burn of the operation that runs ends (R115). -/
theorem burnDone_burning {s : State} {o : AuthOp} (ok : Bool) (hbusy : s.trs.busy = some o) (hburn : o.burning = true) : burnDone s ok =
    if !ok then authResult s o.op 8
    else match o.op with
      | 1 => writeEvent (authResult (setOwner s o.target { enrolled := true, void := false, ed := o.ed, ml := o.ml, keysOk := true }) 1 0)
          { num := 0x0C10, inst := o.target, detail := [o.target, digest64 (keyDigest o.ed o.ml)] }
      | 2 => writeEvent (authResult (setOwner s o.target { ownerOf s o.target with void := true }) 2 0)
          { num := 0x0C11, inst := o.target, detail := [o.target] }
      | _ => if 256 ≤ s.trs.svnBank.length then authResult s o.op 8
          else writeEvent (authResult { s with trs := { s.trs with svnBank := s.trs.svnBank ++ [o.value] } } 3 0)
            { num := 0x0C13, detail := [minSvn s, o.value] } := by
  unfold burnDone
  simp only [hbusy, hburn]
  rfl

/-- With no operation, or one that does not burn, the end of a burn does nothing. -/
theorem burnDone_idle {s : State} {o : AuthOp} (ok : Bool) (h : s.trs.busy = none ∨ s.trs.busy = some { o with burning := false }) :
    burnDone s ok = s := by
  unfold burnDone
  rcases h with h | h <;> rw [h]
  rfl

/-- The verification of the operation that waits for it ends (R114). -/
theorem authVerified_waiting {s : State} {o : AuthOp} (v : AuthVerdict) (hbusy : s.trs.busy = some o) (hwait : o.burning = false) :
    authVerified s v =
      if !v.ed then authResult s o.op 2
      else if !v.ml then authResult s o.op 3
      else if authTarget s o.op o.target o.value ≠ 0 then authResult s o.op (authTarget s o.op o.target o.value)
      else startBurn s o := by
  unfold authVerified
  simp only [hbusy, hwait]
  rfl

/-- With no operation that waits, the end of a verification does nothing. -/
theorem authVerified_idle {s : State} {o : AuthOp} (v : AuthVerdict) (h : s.trs.busy = none ∨ s.trs.busy = some { o with burning := true }) :
    authVerified s v = s := by
  unfold authVerified
  rcases h with h | h <;> rw [h]
  rfl

/-- Settles O18: the write by `authStart_op`, the verification and the burn by the operation that runs. -/
theorem ownerKeys : Obligations.OwnerKeys := by
  unfold Obligations.OwnerKeys
  refine ⟨?enroll, ?owned, ?busy, ?unowned, ?advance, ?burn, ?keyRead, ?verify⟩
  case enroll =>
    rintro s val ⟨hmode, hbusy, hunowned⟩ hop htarget
    refine ⟨congrArg Host.Outcome.next ((authStart_op hmode hbusy (by omega)).trans ?_), hop, rfl, by simp only [authOpOf], by simp only [authOpOf]⟩
    have hpass : authTarget s (authOpOf s val.toNat).op (authOpOf s val.toNat).target (authOpOf s val.toNat).value = 0 := by
      rw [show (authOpOf s val.toNat).op = 1 from hop]; exact htarget
    exact (if_neg (by simp [hunowned])).trans ((if_neg (not_not_intro hpass)).trans (if_pos hop))
  case owned =>
    rintro s val i hi ⟨hmode, hbusy, howned⟩ hop
    rw [exec_authStart hi, authStart_op hmode hbusy hop]
    simp only [howned, if_true, ne_eq, ite_not]
    rfl
  case busy =>
    intro s val i hi
    rw [exec_authStart hi]
    exact ⟨fun h => congrArg _ (authStart_busy h), fun hbusy hop => congrArg _ (authStart_badOp hbusy hop)⟩
  case unowned =>
    rintro s val i hi ⟨hmode, hbusy, hunowned⟩ hop htarget
    rw [exec_authStart hi, authStart_op hmode hbusy hop]
    exact congrArg Host.Outcome.next ((if_neg (by simp [hunowned])).trans (if_pos htarget))
  case advance =>
    rintro s o ⟨hbusy, hburn, hop⟩
    refine congrArg Host.Outcome.next ((burnDone_burning true hbusy hburn).trans ?_)
    simp only [hop, Bool.not_true, Bool.false_eq_true, if_false]
    by_cases hroom : s.trs.svnBank.length < 256
    · rw [if_pos hroom, if_neg (Nat.not_le.mpr hroom)]
    · rw [if_neg hroom, if_pos (Nat.not_lt.mp hroom)]
  case burn =>
    rintro s o ⟨hbusy, hburn⟩
    have hrun := burnDone_burning true hbusy hburn
    refine ⟨fun hop => congrArg Host.Outcome.next (hrun.trans ?_), fun hop => congrArg Host.Outcome.next (hrun.trans ?_),
      congrArg Host.Outcome.next (burnDone_burning false hbusy hburn), fun u b h => congrArg Host.Outcome.next (burnDone_idle b h)⟩
    · rw [hop]; rfl
    · rw [hop]; rfl
  case keyRead =>
    intro s val
    refine congrArg Host.Outcome.next ?_
    by_cases hmode : authMode s = true
    · by_cases h : 4 < field val.toNat 0 3
      · exact (if_neg (by simp [hmode])).trans ((if_pos h).trans (if_pos (.inr h)).symm)
      · exact (if_neg (by simp [hmode])).trans ((if_neg h).trans (if_neg (by simp [hmode]; omega)).symm)
    · exact (if_pos (by simpa using hmode)).trans (if_pos (.inl (by simpa using hmode))).symm
  case verify =>
    rintro s o v ⟨hbusy, hwait⟩
    refine ⟨congrArg Host.Outcome.next ((authVerified_waiting v hbusy hwait).trans ?_), fun u h => congrArg Host.Outcome.next (authVerified_idle v h)⟩
    cases v.ed <;> cases v.ml <;> rfl

end Sys2Proof.Machine
end

section
/-! SPDM (R106, R118, R128 to R131): each request is answered to its endpoint, and joins its transcript with its response. -/

namespace Sys2Proof.Machine

/-- The transcript of an endpoint so far. -/
def scriptOf (s : State) (ep : Origin) : List Nat :=
  match spdmCtxOf s ep with
  | some c => c.script
  | none => []

/-- A noted message ends the endpoint's transcript, which is found again. -/
theorem spdmCtxOf_ctxNote (s : State) (ep : Origin) (msg : List Nat) :
    spdmCtxOf (ctxNote s ep msg) ep = some { ep := ep, script := scriptOf s ep ++ msg, last := s.now } := by
  have hclosed : (s.trs.spdm.filter fun c => !(c.ep == ep)).find? (fun c => c.ep == ep) = none :=
    List.find?_eq_none.mpr fun c hc => by simpa using (List.mem_filter.mp hc).2
  show List.find? (fun c => c.ep == ep)
    ((s.trs.spdm.filter fun c => !(c.ep == ep)) ++ [{ ep := ep, script := scriptOf s ep ++ msg, last := s.now }]) = _
  rw [List.find?_append, hclosed]
  simp

/-- A request of an endpoint with a context, or for which one is free, is answered and noted. -/
theorem spdmRequest_answered {s u : State} {ep : Origin} {req : SpdmReq} {r : SpdmRsp} {fs : List Nat} (hmode : authMode s = true)
    (hroom : ctxRoom s ep = true) (hreq : req ≠ .getVersion) (hanswer : spdmAnswer s ep req = (u, r, fs)) :
    spdmRequest s ep req = emit (ctxNote u ep (reqCode req ++ rspCode r ++ fs)) (.spdm ep r fs) := by
  unfold spdmRequest spdmServed spdmServe
  simp only [hmode, hroom, hanswer, hreq, if_true, if_false, Bool.not_true, Bool.false_eq_true]

/-- GET_VERSION restarts the transcript first. -/
theorem spdmRequest_version {s : State} {ep : Origin} (hmode : authMode s = true) (hroom : ctxRoom s ep = true) :
    spdmRequest s ep .getVersion = emit (ctxNote (closeCtx s ep) ep [0x84, 0x04, 0x12]) (.spdm ep .version [0x12]) := by
  unfold spdmRequest spdmServed spdmServe
  simp only [hmode, hroom, if_true, Bool.not_true, Bool.false_eq_true, if_false]
  rfl

/-- With eight contexts of other endpoints a request is answered Busy (R131). -/
theorem spdmRequest_full {s : State} {ep : Origin} (req : SpdmReq) (hmode : authMode s = true) (hroom : ctxRoom s ep = false) :
    spdmRequest s ep req = emit (writeEvent s { num := 0x0C20 }) (.spdm ep .errorBusy []) := by
  unfold spdmRequest spdmServed spdmServe
  simp only [hmode, hroom, if_true, Bool.not_false]

/-- Where SPDM is not served nothing is answered. -/
theorem spdmRequest_unserved {s : State} (ep : Origin) (req : SpdmReq) (hmode : authMode s = false) : spdmRequest s ep req = s :=
  if_neg (by unfold spdmServed; simp [hmode])

/-- The answer to CHALLENGE of slot 0 takes a nonce, and is signed over the transcript up to there (R129). -/
theorem spdmAnswer_challenge (s : State) (ep : Origin) {sum : Nat} (nonce : Nat) (hsum : sum = 0 ∨ sum = 1 ∨ sum = 0xFF) {fs : List Nat}
    (hfs : fs = [Config.sha384 Config.certChain, Config.freeValue s.freeCtr] ++
      (if sum = 0 then [] else if sum = 1 then [Config.sha384 (s.trs.meas.take 7)] else [Config.sha384 s.trs.meas])) :
    spdmAnswer s ep (.challenge 0 sum nonce) = ({ s with freeCtr := s.freeCtr + 1 }, .challengeAuth,
      fs ++ spdmSigned ctxChallenge (scriptOf s ep ++ [0x83, 0, sum, nonce] ++ [0x03] ++ fs)) := by
  subst hfs
  rcases hsum with rfl | rfl | rfl <;> rfl

/-- Another slot, or another summary, is an Invalid Request. -/
theorem spdmAnswer_badChallenge (s : State) (ep : Origin) {slot sum : Nat} (nonce : Nat)
    (h : ¬(slot = 0 ∧ (sum = 0 ∨ sum = 1 ∨ sum = 0xFF))) : spdmAnswer s ep (.challenge slot sum nonce) = (s, .errorInvalid, []) :=
  if_neg (by simpa using h)

/-- The answer to GET_MEASUREMENTS of an index that exists (R128, R130). -/
theorem spdmAnswer_measurements (s : State) (ep : Origin) {index : Nat} (nonce : Nat) {vs : List Nat} (h : measValues s index = some vs) :
    spdmAnswer s ep (.getMeasurements index false nonce) = (s, .measurements, vs)
      ∧ spdmAnswer s ep (.getMeasurements index true nonce) = ({ s with freeCtr := s.freeCtr + 1 }, .measurements,
          vs ++ [Config.freeValue s.freeCtr] ++ spdmSigned ctxMeasurements
            (scriptOf s ep ++ [0xE0, index, 1, nonce] ++ [0x60] ++ vs ++ [Config.freeValue s.freeCtr])) := by
  constructor <;> (unfold spdmAnswer; simp only [h]; rfl)

theorem spdmAnswer_noMeasurement (s : State) (ep : Origin) {index : Nat} (signed : Bool) (nonce : Nat) (h : measValues s index = none) :
    spdmAnswer s ep (.getMeasurements index signed nonce) = (s, .errorInvalid, []) := by
  unfold spdmAnswer
  simp only [h]

/-- Settles O19: each request by its answer; with no free context, and where SPDM is not served, whichever it is. -/
theorem spdmRequests : Obligations.SpdmRequests := by
  unfold Obligations.SpdmRequests
  refine ⟨?exchange, ?version, ?capabilities, ?algorithms, ?digests, ?certificate, ?challenge, ?measurements, ?other, ?idle, ?elsewhere⟩
  case exchange =>
    rintro s u c len req r fs ⟨hmode, hserve⟩
    have hrun : spdmExchange s c len req = if !spdmSender s c then reply s c .invalidOpcode else if 8192 < len then reply s c .invalidField
        else reply (emit { u with freeCtr := u.freeCtr + 1 } (.spdm c.org r fs)) c .success (Config.freeValue u.freeCtr) fs := by
      unfold spdmExchange spdmServed
      simp only [hmode, ← hserve, Bool.not_true, Bool.false_eq_true, if_false]
      rfl
    refine ⟨fun hsender hlen => ?_, fun hsender => ?_, fun hsender hlen => ?_⟩
    · exact congrArg Host.Outcome.next (hrun.trans ((if_neg (by simp [hsender])).trans (if_neg (Nat.not_lt.mpr hlen))))
    · exact congrArg Host.Outcome.next (hrun.trans (if_pos (by simp [hsender])))
    · exact congrArg Host.Outcome.next (hrun.trans ((if_neg (by simp [hsender])).trans (if_pos hlen)))
  case version => exact fun s ep ⟨hmode, hroom⟩ => congrArg Host.Outcome.next (spdmRequest_version hmode hroom)
  case capabilities => exact fun s ep ⟨hmode, hroom⟩ => congrArg Host.Outcome.next (spdmRequest_answered hmode hroom (by decide) rfl)
  case algorithms =>
    rintro s ep a h m d ⟨hmode, hroom⟩
    by_cases hcommon : (a || h || m || d) = true
    · rw [if_pos hcommon]
      exact congrArg Host.Outcome.next (spdmRequest_answered hmode hroom (by simp) (if_pos hcommon))
    · rw [if_neg hcommon]
      have hanswer : spdmAnswer s ep (.negotiateAlgorithms a h m d) = (s, .errorInvalid, []) := if_neg hcommon
      refine congrArg Host.Outcome.next ((spdmRequest_answered hmode hroom (by simp) hanswer).trans ?_)
      have hnone : a = false ∧ h = false ∧ m = false ∧ d = false := by simpa [and_assoc] using hcommon
      obtain ⟨rfl, rfl, rfl, rfl⟩ := hnone
      rfl
  case digests => exact fun s ep ⟨hmode, hroom⟩ => congrArg Host.Outcome.next (spdmRequest_answered hmode hroom (by decide) rfl)
  case certificate =>
    rintro s ep slot off len fs ⟨hmode, hroom⟩ rfl
    by_cases hslot : slot = 0
    · subst hslot
      exact congrArg Host.Outcome.next (spdmRequest_answered hmode hroom (by simp) rfl)
    · rw [if_neg hslot]
      exact congrArg Host.Outcome.next (spdmRequest_answered hmode hroom (by simp) (if_neg hslot))
  case challenge =>
    rintro s ep slot sum nonce old fs ⟨hmode, hroom⟩ ⟨hold, hfs⟩
    refine ⟨fun hslot hsum => ?_, fun hbad => ?_⟩
    · subst hslot
      have hscript : old = scriptOf s ep := hold
      rw [hscript]
      refine ⟨_, congrArg Host.Outcome.next (spdmRequest_answered hmode hroom (by simp) (spdmAnswer_challenge s ep nonce hsum hfs)), rfl, rfl, ?_⟩
      exact spdmCtxOf_ctxNote { s with freeCtr := s.freeCtr + 1 } ep _
    · exact congrArg Host.Outcome.next (spdmRequest_answered hmode hroom (by simp) (spdmAnswer_badChallenge s ep nonce hbad))
  case measurements =>
    rintro s ep index nonce old vs ⟨hmode, hroom⟩ hold
    have hscript : old = scriptOf s ep := hold
    refine ⟨fun h => ?_, fun h => ?_, fun b h => ?_⟩
    · exact congrArg Host.Outcome.next (spdmRequest_answered hmode hroom (by simp) (spdmAnswer_measurements s ep nonce h).1)
    · rw [hscript]
      exact ⟨_, congrArg Host.Outcome.next (spdmRequest_answered hmode hroom (by simp) (spdmAnswer_measurements s ep nonce h).2), rfl, rfl⟩
    · exact congrArg Host.Outcome.next (spdmRequest_answered hmode hroom (by simp) (spdmAnswer_noMeasurement s ep b nonce h))
  case other => exact fun s ep code ⟨hmode, hroom⟩ => congrArg Host.Outcome.next (spdmRequest_answered hmode hroom (by simp) rfl)
  case idle => exact fun s ep => rfl
  case elsewhere =>
    intro s ep i a b c d k l m hi
    have hrun : ∃ req, exec i s = .next (spdmRequest s ep req) := by
      rcases hi with rfl | rfl | rfl | rfl | rfl | rfl | rfl | rfl <;> exact ⟨_, rfl⟩
    obtain ⟨req, hrun⟩ := hrun
    rw [hrun]
    exact ⟨fun hmode hroom => congrArg _ (spdmRequest_full req hmode hroom), fun hmode => congrArg _ (spdmRequest_unserved ep req hmode)⟩

end Sys2Proof.Machine
end

section
/-! The sub-port links, their pauses and the address slots (R138, R141, R143 to R145). -/

namespace Sys2Proof.Machine

theorem onSub_absent {b : Nat} {s : State} (f : State → State) (h : 32 ≤ b) : onSub b s f = .fault (.noSuchInstance "sub-port") :=
  if_neg (Nat.not_lt.mpr h)
theorem onPrio_absent {sub prio : Nat} {s : State} (f : State → State) (h : 32 ≤ sub) : onPrio sub prio s f = .fault (.noSuchInstance "priority") :=
  if_neg (by omega)

/-- The first timeout of a training is counted, and a second attempt begins. -/
theorem trainTimeout_first {s : State} {sub : Nat} (htrain : (subOf s sub).training = true) (hfails : (subOf s sub).fails = 0) :
    trainTimeout s sub = beginTraining (setSub s sub { subOf s sub with fails := 1 }) sub := by
  simp [trainTimeout, htrain, hfails]

/-- The second timeout stops training. -/
theorem trainTimeout_second {s : State} {sub : Nat} (htrain : (subOf s sub).training = true) (hfails : (subOf s sub).fails = 1) :
    trainTimeout s sub = writeEvent (setSub s sub { subOf s sub with fails := 2, training := false })
      { num := 0x0103, inst := sub, detail := [sub / 4, sub % 4] } := by
  simp [trainTimeout, htrain, hfails]

/-- A timeout of a later attempt only stops it. -/
theorem trainTimeout_later {s : State} {sub : Nat} (htrain : (subOf s sub).training = true) (hfails : 1 < (subOf s sub).fails) :
    trainTimeout s sub = setSub s sub { subOf s sub with training := false } := by
  obtain ⟨n, hn⟩ := Nat.exists_eq_add_of_lt hfails
  simp [trainTimeout, htrain, show (subOf s sub).fails = n + 2 by omega]

/-- Without training there is nothing to time out. -/
theorem trainTimeout_idle {s : State} {sub : Nat} (htrain : (subOf s sub).training = false) : trainTimeout s sub = s :=
  if_pos (by simp [htrain])

/-- The retry timer trains a sub-port that is down after two failures, and no other. -/
theorem trainRetry_eq (s : State) (sub : Nat) : trainRetry s sub =
    if subExists s sub = true ∧ (subOf s sub).up = false ∧ (subOf s sub).fails = 2 then beginTraining s sub else s := by
  unfold trainRetry
  simp only [Bool.and_eq_true, Bool.not_eq_true', decide_eq_true_eq, and_assoc]

/-- A training link with the partner of its mode comes up. -/
theorem linkComesUp_training {s : State} {sub : Nat} (hexists : subExists s sub = true)
    (hup : (subOf s sub).up = false) (htrain : (subOf s sub).training = true) : linkComesUp s sub (prtMode s (sub / 4)) true =
      writeEvent (setSub (if (subOf s sub).fails = 1 then transient s 1 sub 1 0x0103 else s) sub
        { subOf s sub with up := true, training := false, fails := 0, pauseRep := false })
        { num := 0x0101, inst := sub, detail := [sub / 4, sub % 4] } :=
  if_neg (by simp [hexists, hup, htrain])

/-- A link that is up, that does not train, that its mode does not give, or whose partner differs stays as it is. -/
theorem linkComesUp_other {s : State} {sub pmd : Nat} {rs : Bool} (h : subExists s sub = false ∨ (subOf s sub).up = true ∨
    (subOf s sub).training = false ∨ pmd ≠ prtMode s (sub / 4) ∨ rs = false) : linkComesUp s sub pmd rs = s := by
  refine if_pos ?_
  rcases h with h | h | h | h | h <;> simp [h]

/-- A link that is up goes down and trains again. -/
theorem linkGoesDown_up {s : State} {sub : Nat} (hup : (subOf s sub).up = true) : linkGoesDown s sub =
    rehash (beginTraining (writeEvent (setSub s sub { subOf s sub with up := false, fails := 0, paused := [], storm := [] })
      { num := 0x0102, inst := sub, detail := [sub / 4, sub % 4] }) sub) sub := if_neg (by simp [hup])
theorem linkGoesDown_down {s : State} {sub : Nat} (hup : (subOf s sub).up = false) : linkGoesDown s sub = s := if_pos (by simp [hup])

/-- A priority paused and under PFC is in a storm when its watchdog fires and no pause ends. -/
theorem watchdogFires_storm {s : State} {sub prio : Nat} (hpaused : tget (subOf s sub).paused 0 prio ≠ 0)
    (hpfc : bitAt (pfcMask s (sub / 4)) prio = true) : watchdogFires s sub prio false =
      dropPrio (writeEvent (w1cSet (setSub s sub { subOf s sub with storm := (subOf s sub).storm.filter (· != prio) ++ [prio] })
        0x20014 (sub / 4) (2 ^ prio)) { num := 0x0110, inst := sub, detail := [sub / 4, sub % 4, prio] }) sub prio :=
  (if_neg (by simp [hpaused, hpfc])).trans (if_neg Bool.false_ne_true)

/-- The watchdog of a priority that is not paused, or not under PFC, does nothing. -/
theorem watchdogFires_idle {s : State} {sub prio : Nat} (endsNow : Bool)
    (h : tget (subOf s sub).paused 0 prio = 0 ∨ bitAt (pfcMask s (sub / 4)) prio = false) : watchdogFires s sub prio endsNow = s := by
  refine if_pos ?_
  rcases h with h | h <;> simp [h]

/-- A write of PRT_ADDR_CTL where the port registers are served. -/
theorem addrCtl_served {s : State} (v : Nat) (hmode : authMode s = true) : addrCtl s v =
    if !bitAt v 31 then rwPut s 0x20024 (prtSel s) (v % 64)
    else discNote (setSub (rwPut s 0x20024 (prtSel s) (v % 64)) (4 * prtSel s + field v 0 2)
      { subOf s (4 * prtSel s + field v 0 2) with
        addrs := tput (subOf s (4 * prtSel s + field v 0 2)).addrs none (field v 2 2)
          (if bitAt v 5 then some (bitAt v 4, addrData (rwPut s 0x20024 (prtSel s) (v % 64)) (prtSel s) (bitAt v 4)) else none) }) :=
  if_neg (by simp [hmode])

/-- The management port's link comes up outside Held where it has a mode (R152). -/
theorem mgmtUp_eq (s : State) : mgmtUp s =
    if s.glb.mode ≠ .held ∧ par s 0x06 128 1 2 ≠ 0 then { s with prt := { s.prt with mgmtUp := true } } else s := by
  unfold mgmtUp
  by_cases hheld : s.glb.mode = .held <;> by_cases hmode : par s 0x06 128 1 2 = 0 <;> simp [hheld, hmode]

/-- Settles O20: each row is an operation on its sub-port's record. -/
theorem portLinks : Obligations.PortLinks := by
  unfold Obligations.PortLinks
  refine ⟨?timeout, ?begins, ?retry, ?idle, ?linkUp, ?linkNotUp, ?linkDown, ?pause, ?storm, ?wins, ?resume, ?apply, ?noApply, ?mgmt, ?absent⟩
  case timeout =>
    rintro s sub ⟨hsub, htrain⟩
    rw [exec_linkTrainTimeout, execLinkTrainTimeout, onSub_exists _ hsub]
    exact ⟨fun h => congrArg _ (trainTimeout_first htrain h), fun h => congrArg _ (trainTimeout_second htrain h),
      fun h => congrArg _ (trainTimeout_later htrain h)⟩
  case begins => exact fun s sub => rfl
  case retry =>
    rintro s sub ⟨hsub, hready⟩
    rw [exec_linkTrainRetryTimer, execLinkTrainRetryTimer, onSub_exists _ hsub, trainRetry_eq, if_pos hready]
  case idle =>
    intro s sub hsub
    rw [exec_linkTrainTimeout, execLinkTrainTimeout, exec_linkTrainRetryTimer, execLinkTrainRetryTimer, onSub_exists _ hsub,
      onSub_exists _ hsub, trainRetry_eq]
    refine ⟨fun h => congrArg _ (trainTimeout_idle h), fun h => congrArg _ (if_neg ?_)⟩
    rintro ⟨hexists, hup, hfails⟩
    simp [hexists, hup, hfails] at h
  case linkUp =>
    rintro s sub ⟨hsub, hexists⟩ ⟨hup, htrain⟩
    rw [exec_subportLinkUp, execSubportLinkUp, onSub_exists _ hsub, linkComesUp_training hexists hup htrain]
  case linkNotUp =>
    intro s sub pmd rs hsub h
    rw [exec_subportLinkUp, execSubportLinkUp, onSub_exists _ hsub, linkComesUp_other h]
  case linkDown =>
    intro s sub hsub
    rw [exec_subportLinkDown, execSubportLinkDown, onSub_exists _ hsub]
    exact ⟨fun h => congrArg _ (linkGoesDown_up h), fun h => congrArg _ (linkGoesDown_down h)⟩
  case pause => exact fun s sub prio hexists => onPrio_exists (pauseEnd · sub prio) hexists
  case storm =>
    rintro s sub prio hexists ⟨hpaused, hpfc⟩
    rw [exec_pfcWatchdogExpiry, execPfcWatchdogExpiry, onPrio_exists _ hexists, watchdogFires_storm hpaused hpfc]
  case wins =>
    intro s sub prio hexists
    refine ⟨fun h => ?_, fun h e => ?_⟩
    · rw [exec_pfcWatchdogExpiry, execPfcWatchdogExpiry, onPrio_exists _ hexists, watchdogFires_pauseEnds h.1 h.2, pauseEnd]
    · rw [exec_pfcWatchdogExpiry, execPfcWatchdogExpiry, onPrio_exists _ hexists, watchdogFires_idle e h]
  case resume => exact fun s sub prio hexists => onPrio_exists (watchdogResumes · sub prio) hexists
  case apply =>
    intro s v hmode happly
    exact congrArg Host.Outcome.next ((addrCtl_served v.toNat hmode).trans (if_neg (by simp [happly])))
  case noApply =>
    refine fun s v => ⟨fun hmode happly => ?_, fun hmode => ?_⟩
    · exact congrArg Host.Outcome.next ((addrCtl_served v.toNat hmode).trans (if_pos (by simp [happly])))
    · exact congrArg Host.Outcome.next (if_pos (by simp [hmode]))
  case mgmt =>
    refine fun s => ⟨fun h => ?_, fun h => ?_, rfl⟩
    · exact congrArg Host.Outcome.next ((mgmtUp_eq s).trans (if_pos h))
    · exact congrArg Host.Outcome.next ((mgmtUp_eq s).trans (if_neg (Classical.not_and_iff_not_or_not.mpr (by simpa using h))))
  case absent =>
    intro s sub prio pmd b h
    rw [exec_linkTrainTimeout, execLinkTrainTimeout, exec_linkTrainRetryTimer, execLinkTrainRetryTimer, exec_subportLinkUp,
      execSubportLinkUp, exec_subportLinkDown, execSubportLinkDown]
    refine ⟨onSub_absent _ h, onSub_absent _ h, onSub_absent _ h, onSub_absent _ h, ⟨"priority", ?_⟩, ⟨"priority", ?_⟩, ⟨"priority", ?_⟩⟩
    · exact onPrio_absent (pauseEnd · sub prio) h
    · exact onPrio_absent (watchdogFires · sub prio b) h
    · exact onPrio_absent (watchdogResumes · sub prio) h

end Sys2Proof.Machine
end

section
/-! A received frame's checks, the MACsec associations and a sub-port's next frame (R139, R140, R147 to R152, R379, R390). -/

namespace Sys2Proof.Machine

/-- A frame on a sub-port goes through its checks. -/
theorem exec_frame_of_subport {s : State} {f : EthFrame} (hsub : f.sub < 32) : exec (.ethFrameReceive f) s = .next (frameIn s f) := by
  rw [exec_ethFrameReceive, execEthFrameReceive, if_neg (by omega), onSub_exists _ hsub]

/-- On a link that is up a frame is counted and goes through the checks in their order. -/
theorem frameIn_up {s : State} {f : EthFrame} (hexists : subExists s f.sub = true) (hup : (subOf s f.sub).up = true) : frameIn s f =
    let s := count s 0x0101 (some f.sub) none f.len
    let s := if f.fecBad = 0 then s else rcAdd s 0x2000C (f.sub / 4) f.fecBad
    if f.fecBad ≠ 0 || !f.fcsOk || f.len < 64 || 9216 < f.len then dropFrame s f.sub 1
    else if !macPasses f.sub f.dst then dropFrame s f.sub 2
    else if f.ety = 0x8808 then macControl s f
    else if !macsecOn s (f.sub / 4) then frameChecks s f f.ety
    else if f.ety = 0x888E then toCores s f (framePrio f) f.ety
    else match f.sec.bind (secPass s f.sub) with
      | some s => frameChecks s f f.ety2
      | none => dropFrame s f.sub 4 := if_neg (by simp [hexists, hup])

/-- A whole frame of a legal length passes the first check. -/
theorem frameIn_good {s : State} {f : EthFrame} (hexists : subExists s f.sub = true) (hup : (subOf s f.sub).up = true)
    (hfec : f.fecBad = 0) (hfcs : f.fcsOk = true) (hmin : 64 ≤ f.len) (hmax : f.len ≤ 9216) : frameIn s f =
    let s := count s 0x0101 (some f.sub) none f.len
    if !macPasses f.sub f.dst then dropFrame s f.sub 2
    else if f.ety = 0x8808 then macControl s f
    else if !macsecOn s (f.sub / 4) then frameChecks s f f.ety
    else if f.ety = 0x888E then toCores s f (framePrio f) f.ety
    else match f.sec.bind (secPass s f.sub) with
      | some s => frameChecks s f f.ety2
      | none => dropFrame s f.sub 4 := by
  rw [frameIn_up hexists hup]
  dsimp only
  rw [if_neg (by simp [hfec, hfcs, hmin, hmax]), if_pos hfec]

/-- A sub-port without a waiting frame sends nothing. -/
theorem egress_empty {s : State} {sub : Nat} (h : ∀ c, c < 4 → egOf s sub c = []) :
    ((List.range 4).all fun c => (egOf s sub c).isEmpty) = true := by
  simpa using h

/-- A sub-port with a waiting frame has one. -/
theorem egress_waiting {s : State} {sub c : Nat} (hc : c < 4) (h : egOf s sub c ≠ []) :
    ((List.range 4).all fun c => (egOf s sub c).isEmpty) = false := by
  simp only [List.all_eq_false, List.mem_range, List.isEmpty_iff]
  exact ⟨c, hc, h⟩

/-- SUBPORT_TRANSMIT without a frame or an association of the same cycle. -/
theorem exec_subportTransmit_alone {s : State} {sub : Nat} (lost : Bool) (hsub : sub < 32) : exec (.subportTransmit sub none none lost) s =
    .next (if (List.range 4).all fun c => (egOf s sub c).isEmpty then s
      else match stallAt s 6 sub with
        | (true, s) => s
        | (false, s) => transmit s sub lost) := by
  rw [exec_subportTransmit, execSubportTransmit, onSub_exists _ hsub] <;> rfl

/-- An association installed in the same cycle comes first (R151). -/
theorem exec_subportTransmit_install {s : State} {sub sc an pn : Nat} (lost : Bool) (hsub : sub < 32) (hsc : sc < 32) :
    exec (.subportTransmit sub none (some (sc, an, pn)) lost) s =
      exec (.subportTransmit sub none none lost) (installTx s (sub / 4) sc sub an pn) := by
  rw [exec_subportTransmit_alone lost hsub, exec_subportTransmit, execSubportTransmit, onSub_exists _ hsub]
  simp only [if_pos hsc] <;> rfl

/-- A frame of the management cores' own comes before the choice. -/
theorem exec_subportTransmit_core {s : State} {sub len : Nat} (eapol lost : Bool) (hsub : sub < 32) :
    exec (.subportTransmit sub (some (eapol, len)) none lost) s = exec (.subportTransmit sub none none lost) (coreFrame s sub eapol len) := by
  rw [exec_subportTransmit_alone lost hsub, exec_subportTransmit, execSubportTransmit, onSub_exists _ hsub] <;> rfl

/-- With the test bench away no injector is at work. -/
theorem injectorAt_unavailable {s : State} (point inst : Nat) (h : s.ptb.available = false) : injectorAt s point inst = none :=
  if_pos (by simp [h])

/-- With the test bench away nothing is held at a point of it. -/
theorem stallAt_unavailable {s : State} (point inst : Nat) (h : s.ptb.available = false) : stallAt s point inst = (false, s) := by
  unfold stallAt
  rw [injectorAt_unavailable point inst h]

/-- A sub-port whose link is up sends what its class order picks. -/
theorem transmit_up {s : State} {sub : Nat} (lost : Bool) (hup : (subOf s sub).up = true) : transmit s sub lost =
    match pickFrame s sub with
    | (t, none) => t
    | (t, some (cls, f)) => if lost then lostFrame t sub cls f
        else if macsecOn s (sub / 4) then secureSend t sub cls f s else wire (takeFrame t sub cls f) sub cls f :=
  if_neg (by simp [hup])

/-- Settles O21: the first check that fails, the secure channel of the row, or the frame picked decides. -/
theorem framesAndMacsec : Obligations.FramesAndMacsec := by
  unfold Obligations.FramesAndMacsec
  refine ⟨?down, ?bad, ?other, ?control, ?good, ?mgmt, ?rx, ?tx, ?retire, ?absent, ?empty, ?waiting, ?first⟩
  case down =>
    intro s f hsub h
    rw [exec_frame_of_subport hsub]
    refine congrArg _ (if_pos ?_)
    rcases h with h | h <;> simp [h]
  case bad =>
    rintro s f ⟨hsub, hexists, hup⟩ h
    rw [exec_frame_of_subport hsub, frameIn_up hexists hup]
    refine congrArg _ (if_pos ?_)
    rcases h with h | h | h | h <;> simp [h]
  case other =>
    rintro s f ⟨hsub, hexists, hup⟩ ⟨hfec, hfcs, hmin, hmax, hmac⟩
    rw [exec_frame_of_subport hsub, frameIn_good hexists hup hfec hfcs hmin hmax]
    exact congrArg _ (if_pos (by simp [hmac]))
  case control =>
    rintro s f ⟨hsub, hexists, hup⟩ ⟨hfec, hfcs, hmin, hmax, hmac, hety⟩
    rw [exec_frame_of_subport hsub, frameIn_good hexists hup hfec hfcs hmin hmax]
    exact congrArg _ ((if_neg (by simp [hmac])).trans (if_pos hety))
  case good =>
    rintro s f ⟨hsub, hexists, hup⟩ ⟨hfec, hfcs, hmin, hmax, hmac, hety⟩
    rw [exec_frame_of_subport hsub, frameIn_good hexists hup hfec hfcs hmin hmax]
    refine congrArg _ ((if_neg (by simp [hmac])).trans ((if_neg hety).trans ?_))
    simp only [Bool.not_eq_true'] <;> rfl
  case mgmt =>
    intro s f hsub
    exact if_pos hsub
  case rx => exact fun s port sc sub an pn h => onSc_exists (installRx · port sc sub an pn) h
  case tx => exact fun s port sc sub an pn h => onSc_exists (installTx · port sc sub an pn) h
  case retire =>
    intro s port sc an h
    rw [exec_macsecRxSaRetire, execMacsecRxSaRetire, onSc_exists _ h]
  case absent =>
    intro s port sc sub an pn h
    have habsent : ¬ (port < 8 ∧ sc < 32) := by omega
    exact ⟨if_neg habsent, if_neg habsent, if_neg habsent⟩
  case empty =>
    intro s sub lost hsub h
    rw [exec_subportTransmit_alone lost hsub, if_pos (egress_empty h)]
  case waiting =>
    rintro s sub c lost ⟨hsub, hc, hwaits⟩ ⟨hbench, hup⟩
    rw [exec_subportTransmit_alone lost hsub, if_neg (by simp only [egress_waiting hc hwaits]; exact Bool.false_ne_true),
      stallAt_unavailable 6 sub hbench]
    dsimp only
    rw [transmit_up lost hup] <;> rfl
  case first =>
    exact fun s sub sc an pn len eapol lost hsub => ⟨fun hsc => exec_subportTransmit_install lost hsub hsc,
      exec_subportTransmit_core eapol lost hsub⟩

end Sys2Proof.Machine
end

section
/-! Packets in, connection management and the end of a queue pair (R157 to R164, R222). -/

namespace Sys2Proof.Machine

theorem onQp_absent {q : Nat} {s : State} (f : State → State) (h : 65536 ≤ q) : onQp q s f = .fault (.noSuchInstance "queue pair") :=
  if_neg (Nat.not_lt.mpr h)

/-- Nothing is handed to a queue pair whose state has not changed. -/
theorem afterRts_unchanged {s t : State} {q : Nat} (h : (qpOf t q).state = (qpOf s q).state) : afterRts s t q = t := by
  refine if_neg ?_
  rw [h]
  cases (qpOf s q).state <;> simp

/-- A queue pair that is not Porpor's takes no requests. -/
theorem afterRts_notPorpor {s t : State} {q : Nat} (h : (qpOf t q).kind ≠ 2) : afterRts s t q = t := if_neg (by simp [h])

/-- A packet of an ingress queue, with the test bench away. -/
theorem exec_packet_popped {s t : State} {sub prio cells : Nat} {p : RocePkt} (hexists : sub < 32 ∧ prio < 8)
    (hpop : ingPop s sub prio = some (cells, t)) (hbench : t.ptb.available = false) : exec (.rocePacketReceive sub prio p) s =
      .next (afterRts t (packetIn t sub { p with cells := cells }) (p.qpn % 2 ^ 16)) := by
  rw [exec_rocePacketReceive, execRocePacketReceive, if_neg (by omega), onIng_exists _ hexists, hpop]
  dsimp only
  unfold atPoint
  rw [injectorAt_unavailable 1 _ hbench]

/-- An empty ingress queue gives no packet. -/
theorem exec_packet_empty {s : State} {sub prio : Nat} (p : RocePkt) (hexists : sub < 32 ∧ prio < 8) (hpop : ingPop s sub prio = none) :
    exec (.rocePacketReceive sub prio p) s = .next s := by
  rw [exec_rocePacketReceive, execRocePacketReceive, if_neg (by omega), onIng_exists _ hexists, hpop]

/-- A packet with a bad ICRC frees its cells and is counted. -/
theorem packetIn_badIcrc {s : State} {p : RocePkt} (sub : Nat) (hpoison : p.poison = none) (hicrc : p.icrc = false) :
    packetIn s sub p = rcAdd (freeCells s p.cells) 0x30108 0 1 := by
  unfold packetIn
  rw [hpoison]
  exact if_pos (by simp [hicrc])

/-- A packet of this transport passes the first checks. -/
theorem packetIn_plain {s : State} {p : RocePkt} {sub : Nat} (hsub : sub < 32) (hpoison : p.poison = none) (hicrc : p.icrc = true)
    (hver : p.ver = 0) (hkey : p.pkey % 2 ^ 15 = 0x7FFF) (hop : p.op < 32) : packetIn s sub p =
      if p.qpn = 1 then match coresRate (freeCells s p.cells) sub with
        | (true, s) => coresPacket s sub p
        | (false, s) => s
      else if p.qpn < 2 ^ 16 || (sub == 32) != ((qpOf s (p.qpn % 2 ^ 16)).sub == 32) then rcAdd (freeCells s p.cells) 0x3010C 0 1
      else packetTo (count s 0x0201 (some (p.qpn % 2 ^ 16)) (some (qpVss s (p.qpn % 2 ^ 16)))) (p.qpn % 2 ^ 16) p := by
  unfold packetIn
  rw [hpoison]
  refine (if_neg (by simp [hicrc])).trans ((if_neg ?_).trans (if_neg ?_))
  · rw [hkey]
    simp [hver, Nat.not_le.mpr hop]
  · simp [show sub ≠ 32 by omega]

/-- What is written about the pools leaves the queue pairs as they are. -/
theorem noteCongested_rdt (s : State) : (noteCongested s).rdt = s.rdt := by
  unfold noteCongested
  repeat' split
  all_goals simp
theorem noteOverflow_rdt (s : State) : (noteOverflow s).rdt = s.rdt := by
  unfold noteOverflow
  dsimp only
  repeat' split
  all_goals rfl
@[simp] theorem freeCells_rdt (s : State) (n : Nat) : (freeCells s n).rdt = s.rdt := by
  unfold freeCells
  rw [noteOverflow_rdt, noteCongested_rdt]

/-- A queue pair that has left Reset is read back as written. -/
theorem qpOf_setQp (s : State) (q : Nat) {x : Qp} (h : x.state ≠ .reset) : qpOf (setQp s q x) q = x :=
  tget_tput_new _ _ fun hx => h (by rw [hx])

/-- A context for a new connection is the most recently used one. -/
theorem loadQp_cached (s : State) (q kind : Nat) (r : CmReq) (x : Qp) (rep : List Nat) : (loadQp s q kind r x rep).rdt.cache.head? = some q := rfl

/-- A REQ on a sub-port while the transport is up, with the path MTU (R163, R164). -/
theorem cmRequest_subport {s : State} {r : CmReq} (hsub : r.sub < 32) (hup : transportUp s = true) (hmtu : 3 ≤ r.pmtu) : cmRequest s r =
    match freeQp s with
    | none => emit s (.packet 65536 0x102 0 [r.rqpn])
    | some q =>
      if r.recfmt = 0 then loadQp s q 0 r {} []
      else if r.recfmt = 0xAC01 then
        if vdqAssoc s r then
          loadQp s q 1 r { assoc := some r.cntlid, dlog := vssDlog s (match assocOf s r.cntlid with | some a => a.vss | none => 0) } []
        else emit s (.packet 65536 0x102 0 [r.rqpn])
      else if r.recfmt = 0xAC02 && porporReqOk s r then match grantWindow s r.member with
        | some (w, s) => loadQp s q 2 r { member := r.member, grant := w, peerKey := r.peerKey, peerSlots := r.peerSlots }
            [rkeyPrefix s + w, windowSlots s]
        | none => emit s (.packet 65536 0x102 0 [r.rqpn])
      else emit s (.packet 65536 0x102 0 [r.rqpn]) := by
  unfold cmRequest
  dsimp only
  rw [if_neg (by simp [show r.sub ≠ 32 by omega, hup]), if_neg (by simp [show r.sub ≠ 32 by omega, Nat.not_lt.mpr hmtu])] <;> rfl

/-- A queue pair in Init, RTR or RTS goes to Error, and what its association loses with it. -/
theorem qpDown_standing {s : State} {q : Nat} (cause : Nat) (hreset : (qpOf s q).state ≠ .reset) (herror : (qpOf s q).state ≠ .error) :
    qpDown s q cause =
      let s := qpErrorAlone s q cause
      match (qpOf s q).assoc with
      | none => s
      | some a => match assocOf s a with
        | none => s
        | some x =>
          if (qpOf s q).kind = 0 && x.qp = q then assocEnd s a
          else setAssoc s a (some { x with ioqs := x.ioqs.filter fun i => i.qp != q }) := by
  unfold qpDown
  split
  case h_1 h => exact absurd h hreset
  case h_2 h => exact absurd h herror
  all_goals rfl

/-- A queue pair in Reset or Error is not torn down again. -/
theorem qpDown_gone {s : State} {q : Nat} (cause : Nat) (h : (qpOf s q).state = .reset ∨ (qpOf s q).state = .error) : qpDown s q cause = s := by
  unfold qpDown
  rcases h with h | h <;> rw [h]

/-- A context that packets wait for arrives (R162). -/
theorem contextFetched_waiting {s : State} {q : Nat} {ps : List RocePkt} (r : CtxFetch)
    (h : (s.rdt.fetching.find? fun x => x.1 == q) = some (q, ps)) : contextFetched s q r =
      let t := { s with rdt := { s.rdt with fetching := s.rdt.fetching.filter fun x => x.1 != q } }
      ps.foldl (fun s p => packetTo s q p) (cacheUse (match r with
        | .good => t
        | .lost addr => qpDown (consumePoison t addr 0 q) q 10
        | .tqLost addr qidx => tqError (consumePoison t addr 0 (16 * q + qidx)) (16 * q + qidx) 4) q) := by
  unfold contextFetched
  rw [h] <;> rfl

/-- Settles O22: each row is one operation on its queue pair; a Porpor queue pair that reaches RTS then takes what waits for it. -/
theorem queuePairLife : Obligations.QueuePairLife := by
  unfold Obligations.QueuePairLife
  refine ⟨?empty, ?data, ?cores, ?mgmt, ?host, ?kinds, ?reject, ?mgmtReq, ?rtu, ?rtuPorpor, ?dreq, ?gone, ?assoc, ?free, ?fetched, ?unfetched, ?absent⟩
  case empty =>
    rintro s sub prio cells p t hexists ⟨hbench, hpoison, hicrc⟩
    refine ⟨fun hpop => exec_packet_empty p hexists hpop, fun hpop => ?_⟩
    rw [exec_packet_popped hexists hpop hbench, packetIn_badIcrc (p := { p with cells := cells }) sub hpoison hicrc]
    exact congrArg _ (afterRts_unchanged (by simp [qpOf]))
  case data =>
    rintro s sub prio cells p t ⟨hsub, hprio, hpop⟩ ⟨hbench, hpoison, hicrc, hver, hkey, hop, hqpn, hnet⟩
    rw [exec_packet_popped ⟨hsub, hprio⟩ hpop hbench, packetIn_plain (p := { p with cells := cells }) hsub hpoison hicrc hver hkey hop]
    dsimp only
    have hnotCores : p.qpn ≠ 1 := by omega
    have hnotMgmt : sub ≠ 32 := by omega
    have hside : (sub == 32) = ((qpOf t (p.qpn % 2 ^ 16)).sub == 32) := by rw [beq_false_of_ne hnotMgmt, beq_false_of_ne hnet]
    rw [if_neg hnotCores, if_neg (by rw [hside, bne_self_eq_false, Bool.or_false, decide_eq_true_eq]; exact Nat.not_lt.mpr hqpn)]
  case cores =>
    rintro s sub prio cells p t ⟨hsub, hprio, hpop⟩ ⟨hbench, hpoison, hicrc, hver, hkey, hop, hqpn, hkind⟩
    refine ⟨_, exec_packet_popped ⟨hsub, hprio⟩ hpop hbench, ?_⟩
    rw [packetIn_plain (p := { p with cells := cells }) hsub hpoison hicrc hver hkey hop]
    dsimp only
    rw [if_pos hqpn, hqpn] <;> rfl
  case mgmt =>
    intro s prio p
    rw [exec_rocePacketReceive, execRocePacketReceive, if_pos rfl]
  case host =>
    rintro s r q ⟨hsub, hup, hfree, hfmt, hmtu⟩
    refine ⟨(if_pos (Nat.le_of_lt hsub)).trans (congrArg _ ?_), loadQp_cached ..⟩
    rw [cmRequest_subport hsub hup hmtu, hfree]
    exact if_pos hfmt
  case kinds =>
    rintro s r q ⟨hsub, hup, hfree, hmtu⟩
    have hrow : exec (.cmReq r) s = .next (cmRequest s r) := if_pos (Nat.le_of_lt hsub)
    rw [hrow, cmRequest_subport hsub hup hmtu, hfree]
    refine ⟨fun hfmt => congrArg _ ((if_neg (by omega)).trans (if_pos hfmt)), fun hfmt => congrArg _ ?_⟩
    refine (if_neg (by omega)).trans ((if_neg (by omega)).trans ?_)
    simp only [hfmt, decide_true, Bool.true_and] <;> rfl
  case reject =>
    intro s r hsub
    have hrow : exec (.cmReq r) s = .next (cmRequest s r) := if_pos (Nat.le_of_lt hsub)
    rw [hrow]
    refine ⟨fun hup h => congrArg _ ?_, fun hup => congrArg _ (if_pos ?_)⟩
    · unfold cmRequest
      dsimp only
      rw [if_neg (by simp [show r.sub ≠ 32 by omega, hup])]
      by_cases hmtu : r.pmtu < 3
      · exact if_pos (by simp [hmtu])
      · rw [if_neg (by simp [hmtu, show r.sub ≠ 32 by omega])]
        rcases h with hfree | hsmall | ⟨hplain, hvdq, hporpor⟩
        · rw [hfree]
        · exact absurd hsmall hmtu
        · cases freeQp s with
          | none => rfl
          | some q => exact (if_neg hplain).trans ((if_neg hvdq).trans (if_neg (by simp [hporpor])))
    · simp [show r.sub ≠ 32 by omega, hup]
  case mgmtReq =>
    rintro s r ⟨hsub, hup, hmode⟩
    have hrow : exec (.cmReq r) s = .next (cmRequest s r) := if_pos (Nat.le_of_eq hsub)
    rw [hrow]
    refine congrArg _ ?_
    unfold cmRequest
    dsimp only
    rw [if_neg (by simp [hsub, hup, hmode])]
    simp only [hsub, beq_self_eq_true, Bool.true_and, Bool.or_eq_true, decide_eq_true_eq, bne_iff_ne]
    by_cases hbad : r.pmtu < 3 ∨ r.recfmt ≠ 0
    · rw [if_pos hbad, if_pos hbad]
    · rw [if_neg hbad, if_neg hbad]
      have hfmt : r.recfmt = 0 := Decidable.not_not.mp fun h => hbad (.inr h)
      simp only [hfmt, if_true]
      cases freeQp s <;> rfl
  case rtu =>
    rintro s q ⟨hq, hkind⟩
    rw [exec_cmRtu, execCmRtu, onQp_exists _ hq]
    refine congrArg _ (afterRts_notPorpor ?_)
    unfold rtuReceive
    split
    · rwa [qpOf_setQp _ _ (by simp)]
    · exact hkind
  case rtuPorpor =>
    rintro s q ⟨hq, hkind, hstate⟩
    rw [exec_cmRtu, execCmRtu, onQp_exists _ hq]
    have hrts : rtuReceive s q = setQp s q { qpOf s q with state := .rts } := if_pos hstate
    rw [hrts]
    exact congrArg _ (if_pos (by rw [qpOf_setQp _ _ (by simp)]; simp [hkind, hstate]))
  case dreq =>
    rintro s q v ⟨hq, hmode⟩ ⟨hreset, herror, hassoc⟩
    refine ⟨?_, ?_⟩
    · rw [exec_cmDreq, execCmDreq, onQp_exists _ hq, qpDown_standing 25 hreset herror]
      dsimp only
      rw [hassoc]
    · rw [exec_qpTeardown, execQpTeardown, qpCtlWrite, hmode]
      simp only [Bool.true_and]
  case gone =>
    rintro s q v ⟨hq, hgone⟩
    refine ⟨?_, fun hmode => congrArg Host.Outcome.next (if_neg (by simp [hmode]))⟩
    rw [exec_cmDreq, execCmDreq, onQp_exists _ hq, qpDown_gone 25 hgone]
  case assoc =>
    rintro s q a x ⟨hq, hreset, herror⟩ ⟨hassoc, hof⟩
    rw [exec_cmDreq, execCmDreq, onQp_exists _ hq, qpDown_standing 25 hreset herror]
    dsimp only
    rw [hassoc]
    dsimp only
    rw [hof]
    simp only [Bool.and_eq_true, decide_eq_true_eq]
  case free =>
    intro s q hq
    rw [exec_qpContextFree, execQpContextFree, onQp_exists _ hq]
    refine congrArg _ ?_
    unfold contextFree
    simp only [Bool.or_eq_true, decide_eq_true_eq, setQp]
  case fetched =>
    rintro s q a n ps t ⟨hq, hfind⟩ rfl
    simp only [exec_qpContextFetchDone, execQpContextFetchDone, onQp_exists _ hq, contextFetched_waiting _ hfind, and_self]
  case unfetched =>
    rintro s q r ⟨hq, hfind⟩
    rw [exec_qpContextFetchDone, execQpContextFetchDone, onQp_exists _ hq]
    have hnone : contextFetched s q r = s := by
      unfold contextFetched
      rw [hfind]
    rw [hnone]
    exact congrArg _ (afterRts_unchanged rfl)
  case absent =>
    rintro s n r p f ⟨hn, hsub⟩
    refine ⟨onQp_absent (fun s => afterRts s (rtuReceive s n) n) hn, onQp_absent (qpDown · n 25) hn, onQp_absent (contextFree · n) hn,
      onQp_absent (fun s => afterRts s (contextFetched s n f) n) hn, if_neg (by omega), ?_⟩
    exact (if_neg (by omega)).trans (if_neg (by omega))

end Sys2Proof.Machine
end

section
/-! The timers of a queue pair, its next packet and the dirty logs (R156, R168 to R183). -/

namespace Sys2Proof.Machine

/-- The oldest unacknowledged packet times out (R172). -/
theorem ackExpired_oldest {s : State} {q : Nat} {p : Pkt} {r : List Pkt} (hstate : (qpOf s q).state = .rts) (hun : (qpOf s q).unacked = p :: r) :
    ackExpired s q p.psn = if (qpOf s q).retry = 0 then qpDown s q 1
      else setQp s q { qpOf s q with retry := (qpOf s q).retry - 1, resend := (qpOf s q).unacked.length } :=
  if_neg (by simp [hstate, hun])

/-- The timer of any other packet, or outside RTS, does nothing. -/
theorem ackExpired_other {s : State} {q psn : Nat}
    (h : (qpOf s q).state ≠ .rts ∨ ∀ p r, (qpOf s q).unacked = p :: r → p.psn ≠ psn) : ackExpired s q psn = s := by
  refine if_pos ?_
  rcases h with h | h
  · simp [h]
  · cases hun : (qpOf s q).unacked with
    | nil => simp
    | cons p r => simp [h p r hun]

/-- A rate timer gives way to a CNP of the same cycle. -/
theorem rateEvent_cnp (s : State) (q : Nat) (f : Qp → State) : rateEvent s q true f = cnpReceive s q := rfl

/-- A rate timer by itself acts on a paced queue pair under rate control (R181). -/
theorem rateEvent_alone (s : State) (q : Nat) (f : Qp → State) : rateEvent s q false f =
    if (qpOf s q).paced = false then s else if rcEnable s = false then rateOff s q else f (qpOf s q) := by
  unfold rateEvent
  simp only [Bool.not_eq_true', Bool.false_eq_true, if_false]

/-- A queue pair in RTS with its context on chip sends what is due first (R168, R171, R173). -/
theorem packetSend_onChip {s : State} {q : Nat} (draw : Nat) (hstate : (qpOf s q).state = .rts) (hchip : s.rdt.cache.contains q = true) :
    packetSend s q draw = if (qpOf s q).respq ≠ [] then sendResponse (cacheUse s q) q
      else if (qpOf s q).rnrWait then cacheUse s q
      else if 0 < (qpOf s q).resend then sendAgain (cacheUse s q) q draw else sendNew (cacheUse s q) q draw := by
  refine (if_neg (by simp [hstate])).trans ((if_neg (by simp only [hchip]; exact Bool.false_ne_true)).trans ?_)
  cases (qpOf s q).respq <;> simp

/-- A context that is not on chip is fetched once (R162). -/
theorem packetSend_offChip {s : State} {q : Nat} (draw : Nat) (hstate : (qpOf s q).state = .rts) (hchip : s.rdt.cache.contains q = false) :
    packetSend s q draw = if s.rdt.fetching.any (fun f => f.1 == q) then s else fetchCtx s q [] :=
  (if_neg (by simp [hstate])).trans (if_pos (by simp only [hchip]; rfl))

/-- A packet that is due again goes out as it was (R172). -/
theorem sendAgain_due {s : State} {q : Nat} {p : Pkt} (draw : Nat)
    (hp : (qpOf s q).unacked[(qpOf s q).unacked.length - (qpOf s q).resend]? = some p) (hgo : p.cpl = true ∨ mayPace s q = true) :
    sendAgain s q draw = count (rcAdd (emitPacket (setQp s q { qpOf s q with
        resend := (qpOf s q).resend - 1,
        unacked := (qpOf s q).unacked.set ((qpOf s q).unacked.length - (qpOf s q).resend) { p with slot := (qpOf s q).dlog } }) q
        { p with slot := (qpOf s q).dlog } draw) 0x30118 0 1) 0x0202 (some q) (some (qpVss s q)) := by
  unfold sendAgain
  dsimp only
  rw [hp]
  exact if_pos (by simpa using hgo)

/-- A message of one packet is sent whole under the next PSN (R156, R171). -/
theorem sendNew_onePacket {s t : State} {q : Nat} {m : Msg} (draw : Nat) (hq : (qpOf s q).sendq = [m]) (hkind : m.kind = .send)
    (hlen : m.len ≤ pmtuBytes (qpOf s q).pmtu) (hsent : m.sent = 0) (hgo : m.cpl = true ∨ mayPace s q = true)
    (hwindow : (qpOf s q).unacked.length < (qpOf s q).window)
    (halloc : cellAlloc s (msgClass (qpOf s q) m) (cellsOf (frameLen s q m.len)) = some t) : sendNew s q draw =
      emitPacket (setQp t q { qpOf s q with next := psnAdd (qpOf s q).next 1, unacked := (qpOf s q).unacked ++ [⟨(qpOf s q).next, 1, m.len, .send, m.va, m.cpl, m.ctx, m.fetch, true, true, m.at_, cellsOf (frameLen s q m.len), m.rkey, m.len, m.imm, (qpOf s q).dlog⟩], sendq := [] }) q ⟨(qpOf s q).next, 1, m.len, .send, m.va, m.cpl, m.ctx, m.fetch, true, true, m.at_, cellsOf (frameLen s q m.len), m.rkey, m.len, m.imm, (qpOf s q).dlog⟩ draw := by
  have hpace : ¬ (m.cpl = false ∧ mayPace s q = false) := by
    rintro ⟨hcpl, hpace⟩
    simp [hcpl, hpace] at hgo
  unfold sendNew
  simp [hq, hkind, hsent, Nat.not_le.mpr hwindow, hpace, Nat.min_eq_right hlen, halloc]

/-- A write of RDT_DLOG_CFG of a slot where the registers are served (R182). -/
theorem dlogCfgWrite_slot {s : State} {n : Nat} (v : Nat) (hmode : authMode s = true) (hn : n = field (rwGet s 0x30200 0) 0 7)
    (hmin : 1 ≤ n) (hmax : n ≤ 64) : dlogCfgWrite s v =
      let d := if bitAt v 2 then { dlogOf s n with overflow := false } else dlogOf s n
      if d.enable then if bitAt v 0 then setDlog s n d else dlogStop (setDlog s n d) n
      else if bitAt v 0 then (dlogStart (setDlog s n { d with page2m := bitAt v 1 }) n).1 else setDlog s n { d with page2m := bitAt v 1 } := by
  unfold dlogCfgWrite
  rw [if_neg (by simp [hmode]), ← hn]
  exact if_neg (by simp [show n ≠ 0 by omega, Nat.not_lt.mpr hmax])

/-- Outside those modes, and with no slot selected, it does nothing. -/
theorem dlogCfgWrite_none {s : State} {n : Nat} (v : Nat) (hn : n = field (rwGet s 0x30200 0) 0 7)
    (h : authMode s = false ∨ n = 0 ∨ 64 < n) : dlogCfgWrite s v = s := by
  unfold dlogCfgWrite
  rw [← hn]
  rcases h with h | h
  · exact if_pos (by simp [h])
  · split
    · rfl
    · exact if_pos (by simpa using h)

/-- A slot starts with a cleared bitmap where DRAM has room for it. -/
theorem dlogStart_eq (s : State) (n : Nat) : (dlogStart s n).1 =
    if dlogUsed s + dlogBytes (dlogOf s n).pages ≤ 2 ^ 20 * par s 0x07 38 2 0 then
      setDlog s n { dlogOf s n with enable := true, nospace := false, bits := [] }
    else writeEvent (setDlog s n { dlogOf s n with nospace := true }) { num := 0x0204, inst := n, detail := [n] } := by
  unfold dlogStart
  dsimp only
  split <;> rfl

/-- A harvest of a word inside a slot's bitmap answers it and leaves what is logged in the same cycle (R183). -/
theorem dlogHarvest_word {s : State} {n w : Nat} (p : Path) (add : Nat) (hn : n = field (rwGet s 0x30200 0) 0 7)
    (hw : w = field (rwGet s 0x3021C 0) 0 26) (hmin : 1 ≤ n) (hmax : n ≤ 64) (hpage : 64 * w < (dlogOf s n).pages) :
    dlogHarvest s p add false = (tget (dlogOf s n).bits 0 w % 2 ^ 32,
      snapWords (setDlog s n { dlogOf s n with bits := tput (dlogOf s n).bits 0 w (if (dlogOf s n).enable then add % 2 ^ 64 else 0) })
        p 0x30218 (n + 128 * w) false [tget (dlogOf s n).bits 0 w / 2 ^ 32]) := by
  unfold dlogHarvest dlogTake
  rw [← hn, ← hw]
  dsimp only
  rw [if_neg (by simp [show n ≠ 0 by omega, Nat.not_lt.mpr hmax]), if_pos hpage]

/-- Anywhere else it answers 0. -/
theorem dlogHarvest_none {s : State} {n w : Nat} (p : Path) (add : Nat) (hn : n = field (rwGet s 0x30200 0) 0 7)
    (hw : w = field (rwGet s 0x3021C 0) 0 26) (h : n = 0 ∨ 64 < n ∨ (dlogOf s n).pages ≤ 64 * w) :
    dlogHarvest s p add false = (0, snapWords s p 0x30218 (n + 128 * w) false [0]) := by
  unfold dlogHarvest dlogTake
  rw [← hn, ← hw]
  dsimp only
  by_cases hslot : n = 0 ∨ 64 < n
  · rw [if_pos (by simpa using hslot), Nat.zero_mod, Nat.zero_div]
  · rw [if_neg (by simp only [Bool.or_eq_true, decide_eq_true_eq]; exact hslot), if_neg (by omega), Nat.zero_mod, Nat.zero_div]

/-- Settles O23: each timer and register is one operation on its queue pair or slot. -/
theorem queuePairTimers : Obligations.QueuePairTimers := by
  unfold Obligations.QueuePairTimers
  refine ⟨?coalesce, ?ack, ?ackOther, ?rnr, ?lifetime, ?alpha, ?increase, ?offChip, ?onChip, ?again, ?new, ?enable, ?disable, ?join, ?harvest,
    ?cfgOther, ?harvestOther⟩
  case coalesce =>
    intro s q psn hq
    rw [exec_ackCoalesceExpiry, execAckCoalesceExpiry, onQp_exists _ hq]
    refine congrArg _ ?_
    unfold coalesceExpired
    simp only [Bool.or_eq_true, decide_eq_true_eq]
  case ack =>
    rintro s q p r ⟨hq, hstate, hun⟩
    rw [exec_ackTimeout, execAckTimeout, onQp_exists _ hq, ackExpired_oldest hstate hun]
  case ackOther =>
    rintro s q psn ⟨hq, h⟩
    rw [exec_ackTimeout, execAckTimeout, onQp_exists _ hq, ackExpired_other h]
  case rnr =>
    intro s q hq
    rw [exec_rnrWaitExpiry, execRnrWaitExpiry, onQp_exists _ hq, rnrEnds]
  case lifetime =>
    intro s q t hq
    rw [exec_messageLifetimeExpiry, execMessageLifetimeExpiry, onQp_exists _ hq]
    exact ⟨fun h => congrArg _ (if_pos (by simpa using h)), fun h => congrArg _ (if_neg (by simpa using h))⟩
  case alpha =>
    intro s q hq
    rw [exec_rateAlphaTimer, execRateAlphaTimer, exec_rateAlphaTimer, execRateAlphaTimer, onQp_exists _ hq, onQp_exists _ hq]
    exact ⟨congrArg _ (rateEvent_cnp ..), congrArg _ (rateEvent_alone ..)⟩
  case increase =>
    intro s q hq
    rw [exec_rateIncreaseTimer, execRateIncreaseTimer, exec_rateIncreaseTimer, execRateIncreaseTimer, onQp_exists _ hq, onQp_exists _ hq]
    exact ⟨congrArg _ (rateEvent_cnp ..), congrArg _ (rateEvent_alone ..)⟩
  case offChip =>
    intro s q draw hq
    rw [exec_qpPacketSend, execQpPacketSend, onQp_exists _ hq]
    exact ⟨fun h => congrArg _ (if_pos h), fun hstate hchip => congrArg _ (packetSend_offChip draw hstate hchip)⟩
  case onChip =>
    rintro s q draw ⟨hq, hstate, hchip⟩
    rw [exec_qpPacketSend, execQpPacketSend, onQp_exists _ hq, packetSend_onChip draw hstate hchip]
  case again => exact fun s q draw p hp hgo => sendAgain_due draw hp hgo
  case new =>
    rintro s q draw m t ⟨hq, hkind, hlen, hsent, hgo⟩ hwindow halloc
    exact sendNew_onePacket draw hq hkind hlen hsent hgo hwindow halloc
  case enable =>
    rintro s v n u ⟨hmode, hn, hmin, hmax⟩ ⟨hoff, henable, hclear⟩ rfl
    refine congrArg Host.Outcome.next ((dlogCfgWrite_slot v.toNat hmode hn hmin hmax).trans ?_)
    simp only [hclear, hoff, henable, Bool.false_eq_true, if_false, if_true, dlogStart_eq]
  case disable =>
    rintro s v n ⟨hmode, hn, hmin, hmax⟩ ⟨hon, hdisable, hclear⟩
    refine congrArg Host.Outcome.next ((dlogCfgWrite_slot v.toNat hmode hn hmin hmax).trans ?_)
    simp only [hclear, hon, hdisable, Bool.false_eq_true, if_false, if_true]
  case join => exact fun s v hmode => congrArg Host.Outcome.next (if_neg (by simp [hmode]))
  case harvest =>
    rintro s p add n w ⟨hmode, hn, hw⟩ ⟨hmin, hmax, hon, hpage⟩
    refine congrArg Host.Outcome.next ((answerRead_running _ hmode).trans ?_)
    rw [dlogHarvest_word p add hn hw hmin hmax hpage, if_pos hon]
  case cfgOther =>
    intro s v n hn
    refine ⟨fun h => ⟨congrArg Host.Outcome.next (dlogCfgWrite_none _ hn h), congrArg Host.Outcome.next (dlogCfgWrite_none _ hn h)⟩,
      fun hmode hmin hmax hon henable => ?_, fun hmode hmin hmax hoff hdisable hclear => ?_⟩
    · refine congrArg Host.Outcome.next ((dlogCfgWrite_slot v.toNat hmode hn hmin hmax).trans (if_pos ?_) |>.trans (if_pos henable))
      split <;> exact hon
    · refine congrArg Host.Outcome.next ((dlogCfgWrite_slot v.toNat hmode hn hmin hmax).trans ?_)
      simp only [hclear, hoff, hdisable, Bool.false_eq_true, if_false]
  case harvestOther =>
    rintro s v p add n w ⟨hn, hw⟩
    refine ⟨fun hmode => congrArg Host.Outcome.next (if_pos (by simp [hmode])), fun hheld => congrArg Host.Outcome.next (if_pos hheld),
      fun hmode h => ?_, fun hmode hmin hmax hoff hpage => ?_⟩
    · refine congrArg Host.Outcome.next ((answerRead_running _ hmode).trans ?_)
      rw [dlogHarvest_none p add hn hw h]
    · refine congrArg Host.Outcome.next ((answerRead_running _ hmode).trans ?_)
      rw [dlogHarvest_word p add hn hw hmin hmax hpage, if_neg (by simp [hoff])]

end Sys2Proof.Machine
end

section
/-! The instar numbers held back by the spacing rule (R38, R39, R41). -/

namespace Sys2Proof.Machine

/-- Once its spacing has passed, one of the bumps an object owes follows; before that the number stays. -/
theorem lateBump_owed {i : Instar} {now gap t : Nat} (howed : 0 < i.pending) (hlast : i.lastBump = some t) : lateBump i now gap =
    if t + gap ≤ now then { val := i.val + 1, lastBump := some now, pending := i.pending - 1, reported := false } else i := by
  unfold lateBump bumpRoom
  simp [howed, hlast]

/-- With none owed it stays. -/
theorem lateBump_none {i : Instar} (now gap : Nat) (h : i.pending = 0) : lateBump i now gap = i := if_neg (by simp [h])

/-- Settles O24: the deferred bump of each kind of object is `lateBump` of its number, at that object's spacing. -/
theorem deferredBumps : Obligations.DeferredBumps := by
  unfold Obligations.DeferredBumps
  exact ⟨fun i now gap t h => lateBump_owed h.1 h.2, fun i now gap h => lateBump_none now gap h, fun s n => rfl,
    fun s b => ⟨rfl, rfl, rfl, rfl, rfl, rfl⟩, fun s w => rfl⟩

end Sys2Proof.Machine
end

section
/-! Fabrics Connect, the DH-HMAC-CHAP messages and their timeouts (R192, R194, R195). -/

namespace Sys2Proof.Machine

/-- A Connect on a queue pair of a host that stands without an association (R192). -/
theorem connect_standing {s : State} {q : Nat} (cid : Nat) (r : ConnectReq) (hruns : dataRuns s = true) (hkind : (qpOf s q).kind = 0)
    (hstate : (qpOf s q).state = .rts) (hassoc : (qpOf s q).assoc = none) (hsub : (qpOf s q).sub ≠ 32) : connect s q cid r =
      match connectTarget s r.subnqn with
      | none => connectFail s q cid .connectInvalidParams (some (65536 + 256))
      | some t =>
        if !(match t with | .tenant v => hostListed s v r.hostnqn | _ => true) then connectFail s q cid .connectInvalidHost (some 0)
        else if r.qid = 0 then connectAdmin s q cid r t
        else match t with
          | .tenant v => connectIo s q cid r v
          | _ => connectFail s q cid .connectInvalidParams none := by
  unfold connect
  dsimp only
  rw [if_neg (by simp [hruns, hkind, hstate, hassoc])]
  cases connectTarget s r.subnqn with
  | none => rfl
  | some t => exact if_neg (by simp [hsub])

/-- A Connect on any other queue pair does nothing. -/
theorem connect_elsewhere {s : State} {q : Nat} (cid : Nat) (r : ConnectReq) (h : (qpOf s q).kind ≠ 0 ∨
    ((qpOf s q).state ≠ .rtr ∧ (qpOf s q).state ≠ .rts) ∨ (qpOf s q).assoc.isSome = true) : connect s q cid r = s := by
  refine if_pos ?_
  rcases h with h | ⟨h, h'⟩ | h
  · simp [h]
  · simp [h, h']
  · rw [h, Bool.or_true]

/-- A Connect to the admin queue while associations are free makes an association. -/
theorem connectAdmin_tenant {s : State} {q cid v k : Nat} {r : ConnectReq} {x : VssRec} (hvss : vssOf s v = some x)
    (hlive : liveAssocs s < maxAssoc s) (htenant : tenantAssocs s v < x.maxAssoc) (hfree : freeCntlid s = some k) (hsize : r.sqsize = 31)
    (hkato : katoMin s ≤ r.kato) : connectAdmin s q cid r (.tenant v) =
      let s := setQp s q { qpOf s q with recv := 31, srq := none, assoc := some k, dlog := if v = 0 then 0 else vssDlog s v }
      connectReply (setAssoc { s with cfe := { s.cfe with nextId := 1 + k % 0xFFEF } } k
        (some { vss := v, host := r.hostnqn, qp := q, kato := r.kato, auth := bitAt x.flags 0, maxQd := maxQd s, maxIo := maxIoQueues s,
                icd := icdKib s })) q cid k .success (k + 65536 * bit (bitAt x.flags 0)) := by
  have hroom : (decide (maxAssoc s ≤ liveAssocs s) || decide (x.maxAssoc ≤ tenantAssocs s v)) = false := by
    simp [Nat.not_le.mpr hlive, Nat.not_le.mpr htenant]
  unfold connectAdmin
  dsimp only
  rw [hvss]
  dsimp only
  rw [hroom, hfree]
  exact if_neg (by simp [hsize, Nat.not_lt.mpr hkato])

/-- An authentication message of a tenant's association on its admin queue acts on that association. -/
theorem authQueue_admin {s : State} {c : Cid} {a : Nat} {x : Assoc} (horg : c.org = .assoc a) (ha : a < 65536)
    (hof : assocOf s a = some x) : authQueue s c 0 = some (a, x) := by
  unfold authQueue
  rw [horg]
  simp [ha, hof]

/-- Without an association there is none to act on. -/
theorem authQueue_none {s : State} {c : Cid} {a : Nat} (qid : Nat) (horg : c.org = .assoc a) (hof : assocOf s a = none) :
    authQueue s c qid = none := by
  unfold authQueue
  rw [horg]
  simp [hof]

theorem takeIo_assoc {s : State} {c : Cid} {a : Nat} (horg : c.org = .assoc a) : takeIo s c = s := by
  unfold takeIo
  rw [horg]

/-- Authentication Send acts by the message and by where the exchange stands (R194). -/
theorem authSend_admin {s : State} {c : Cid} {a : Nat} {x : Assoc} (m : AuthMsg) (horg : c.org = .assoc a) (ha : a < 65536)
    (hof : assocOf s a = some x) (hmgmt : x.mgmt = false) (hdisc : x.disc = false) : authSend s c 0 m =
      match m, chapOf x 0 with
      | .failure2, _ => dropQueue (reply (authFailed s x 5) c .success) a 0
      | .negotiate sha g3 g4 secure, 0 => match negotiateBad sha g3 g4 secure with
        | some b => reply (setChap (authFailed s x b.1) a 0 (16 + b.2)) c .success
        | none => reply (setChap s a 0 1) c .success
      | .reply ok bidir, 5 => if ok then reply (setChap s a 0 (if bidir then 7 else 2)) c .success
          else reply (setChap (authFailed s x 1) a 0 (16 + 1)) c .success
      | .success2, 6 => reply (authDone s a 0) c .success
      | _, _ => reply (setChap (authFailed s x 3) a 0 (16 + 7)) c .success := by
  unfold authSend
  rw [authQueue_admin horg ha hof]
  dsimp only
  rw [takeIo_assoc horg, hmgmt, hdisc] <;> rfl

/-- Authentication Receive answers what is due. -/
theorem authReceive_admin {s : State} {c : Cid} {a : Nat} {x : Assoc} (horg : c.org = .assoc a) (ha : a < 65536)
    (hof : assocOf s a = some x) (hmgmt : x.mgmt = false) (hdisc : x.disc = false) : authReceive s c 0 =
      match chapOf x 0 with
      | 1 => reply (setChap (takeFree s).2 a 0 5) c .success 0 [1, (takeFree s).1]
      | 2 => authDone (reply s c .success 0 [2]) a 0
      | 7 => reply (setChap s a 0 6) c .success 0 [2]
      | n => if 16 ≤ n then dropQueue (reply s c .success 0 [3, n - 16]) a 0 else reply s c .success 0 [0] := by
  unfold authReceive
  rw [authQueue_admin horg ha hof]
  dsimp only
  rw [takeIo_assoc horg, hmgmt, hdisc] <;> rfl

/-- The rows of the exchange act while the transport's data runs. -/
theorem exec_authSend {s : State} {c : Cid} {qid : Nat} (m : AuthMsg) (hruns : dataRuns s = true) :
    exec (.authenticationSend c qid m) s = .next (authSend s c qid m) := congrArg Host.Outcome.next (if_pos hruns)
theorem exec_authReceive {s : State} {c : Cid} {qid : Nat} (hruns : dataRuns s = true) :
    exec (.authenticationReceive c qid) s = .next (authReceive s c qid) := congrArg Host.Outcome.next (if_pos hruns)

/-- Settles O25: a Connect by what it names, a message of the exchange by its place in it. -/
theorem fabricsAuthentication : Obligations.FabricsAuthentication := by
  unfold Obligations.FabricsAuthentication
  refine ⟨?noSubsystem, ?noHost, ?admin, ?other, ?io, ?negotiate, ?challenge, ?exchange, ?order, ?late, ?kato⟩
  case noSubsystem =>
    rintro s q cid r ⟨hq, hruns, hkind, hstate, hassoc, hsub⟩ htarget
    rw [exec_fabricsConnect, execFabricsConnect, onQp_exists _ hq, connect_standing cid r hruns hkind hstate hassoc hsub, htarget] <;> rfl
  case noHost =>
    rintro s q cid v r ⟨hq, hruns, hkind, hstate, hassoc, hsub⟩ ⟨htarget, hlisted⟩
    rw [exec_fabricsConnect, execFabricsConnect, onQp_exists _ hq, connect_standing cid r hruns hkind hstate hassoc hsub, htarget]
    exact congrArg _ (if_pos (by simp [hlisted]))
  case admin =>
    rintro s q cid v k r x ⟨hq, hruns, hkind, hstate, hassoc, hsub⟩ ⟨htarget, hlisted, hqid, hvss⟩ ⟨hlive, htenant, hfree, hsize, hkato⟩
    refine ⟨_, ?_, rfl⟩
    rw [exec_fabricsConnect, execFabricsConnect, onQp_exists _ hq, connect_standing cid r hruns hkind hstate hassoc hsub, htarget]
    dsimp only
    exact congrArg _ ((if_neg (by simp [hlisted])).trans ((if_pos hqid).trans (connectAdmin_tenant hvss hlive htenant hfree hsize hkato)))
  case other =>
    refine fun s q cid r => ⟨fun hq h => ?_, fun hq => ?_⟩
    · rw [exec_fabricsConnect, execFabricsConnect, onQp_exists _ hq, connect_elsewhere cid r h]
    · rw [exec_fabricsConnect, execFabricsConnect, onQp_absent _ hq]
  case io =>
    rintro s q cid v r ⟨hq, hruns, hkind, hstate, hassoc, hsub⟩ ⟨htarget, hlisted, hqid⟩
    rw [exec_fabricsConnect, execFabricsConnect, onQp_exists _ hq, connect_standing cid r hruns hkind hstate hassoc hsub, htarget]
    dsimp only
    exact congrArg _ ((if_neg (by simp [hlisted])).trans (if_neg hqid))
  case negotiate =>
    rintro s c a x sha g3 g4 sec ⟨hruns, horg, ha, hof⟩ ⟨hmgmt, hdisc, hchap⟩
    rw [exec_authSend _ hruns, authSend_admin _ horg ha hof hmgmt hdisc, hchap] <;> rfl
  case challenge =>
    rintro s c a x ⟨hruns, horg, ha, hof⟩ ⟨hmgmt, hdisc, hchap⟩
    rw [exec_authReceive hruns, authReceive_admin horg ha hof hmgmt hdisc, hchap] <;> rfl
  case exchange =>
    rintro s c a x bi ⟨hruns, horg, ha, hof⟩ ⟨hmgmt, hdisc⟩
    simp only [exec_authSend _ hruns, exec_authReceive hruns, authSend_admin _ horg ha hof hmgmt hdisc,
      authReceive_admin horg ha hof hmgmt hdisc]
    refine ⟨fun h => ?_, fun h => ?_, fun h => ?_, by trivial, fun h => ?_, fun h => ?_, fun h => ?_, fun h => ?_⟩
    iterate 5 rw [h] <;> rfl
    · split
      case h_1 h' | h_2 h' | h_3 h' => omega
      case h_4 => exact congrArg _ (if_pos h)
    · rw [h] <;> rfl
  case order =>
    rintro s c a qid x m ⟨horg, ha⟩
    refine ⟨fun hruns hof hmgmt hdisc hchap hm => ?_, fun h => ?_⟩
    · rw [exec_authSend _ hruns, authSend_admin _ horg ha hof hmgmt hdisc, hchap]
      cases m with
      | failure2 => exact absurd rfl hm
      | negotiate | reply | success2 => rfl
    · rcases h with hof | hruns
      · have hnone := authQueue_none qid horg hof
        have hsend : authSend s c qid m = s := by
          unfold authSend
          rw [hnone]
        have hreceive : authReceive s c qid = s := by
          unfold authReceive
          rw [hnone]
        constructor
        · exact congrArg Host.Outcome.next (by rw [hsend, ite_self])
        · exact congrArg Host.Outcome.next (by rw [hreceive, ite_self])
      · exact ⟨congrArg Host.Outcome.next (if_neg (by simp [hruns])), congrArg Host.Outcome.next (if_neg (by simp [hruns]))⟩
  case late =>
    intro s a qid
    rw [exec_authTimeout, execAuthTimeout]
    unfold authLate
    refine ⟨fun x hof => ?_, fun hof => ?_⟩ <;> rw [hof] <;> rfl
  case kato =>
    intro s a
    rw [exec_keepAliveExpiry, execKeepAliveExpiry]
    unfold katoExpired
    refine ⟨fun x ha hof => ?_, fun h => ?_⟩
    · rw [if_pos ha, hof] <;> rfl
    · rcases h with ha | hof
      · rw [if_neg (Nat.not_lt.mpr ha)] <;> rfl
      · rw [hof, ite_self] <;> rfl

end Sys2Proof.Machine
end

section
/-! The admin commands of a tenant's host (R195 to R200, R214, R232). -/

namespace Sys2Proof.Machine

/-- An admin command that hosts may send acts for the host's association. -/
theorem onAdmin_host {s : State} {c : Cid} {a : Nat} {x : Assoc} {t : AdminSet} (f : Nat → Assoc → State → State) (g : State → State)
    (h : HostAdmin s c a x) (ht : t.host = true) : onAdmin s c t f g = f a x s := by
  obtain ⟨hruns, horg, ha, hof, hbusy, hauth, hmgmt, hdisc, hcap⟩ := h
  unfold onAdmin
  rw [if_neg (by simp [hruns]), horg]
  simp [ha, hof, hbusy, hauth, hmgmt, hdisc, hcap, ht]

/-- While no data runs an admin command has no answer. -/
theorem onAdmin_idle {s : State} {c : Cid} {t : AdminSet} (f : Nat → Assoc → State → State) (g : State → State)
    (hruns : dataRuns s = false) (hport : viaMgmtPort s c = false) : onAdmin s c t f g = s := if_pos (by simp [hruns, hport])

/-- Nor from an association that stands no more. -/
theorem onAdmin_gone {s : State} {c : Cid} {a : Nat} {t : AdminSet} (f : Nat → Assoc → State → State) (g : State → State)
    (horg : c.org = .assoc a) (hof : assocOf s a = none) : onAdmin s c t f g = s := by
  unfold onAdmin
  rw [horg]
  simp [hof]

/-- A command whose identifier is outstanding is a conflict. -/
theorem onAdmin_conflict {s : State} {c : Cid} {a : Nat} {x : Assoc} {t : AdminSet} (f : Nat → Assoc → State → State) (g : State → State)
    (hruns : dataRuns s = true) (horg : c.org = .assoc a) (ha : a < 65536) (hof : assocOf s a = some x) (hbusy : cidBusy s c = true) :
    onAdmin s c t f g = reply s c .cidConflict := by
  unfold onAdmin
  rw [if_neg (by simp [hruns]), horg]
  simp [ha, hof, hbusy]

/-! ### Each row on a host's association -/

section Rows
variable {s : State} {c : Cid} {a : Nat} {x : Assoc} (h : HostAdmin s c a x)
include h

theorem exec_propertyGet_host (off : Nat) : exec (.propertyGet c off) s = .next (propGet s c off a x) := by
  rw [exec_propertyGet, execPropertyGet, h.2.1]
  exact congrArg _ (onAdmin_host _ id h rfl)

theorem exec_propertySet_host (off v : Nat) : exec (.propertySet c off v) s = .next (propSet s c off v a x) := by
  rw [exec_propertySet, execPropertySet, h.2.1]
  exact congrArg _ (onAdmin_host _ id h rfl)

theorem exec_keepAlive_host : exec (.keepAlive c) s = .next (reply s c .success) := congrArg Host.Outcome.next (onAdmin_host _ _ h rfl)

theorem exec_identify_host (cns n : Nat) : exec (.identify c cns n) s = .next (identifyData s c cns n a x) :=
  congrArg Host.Outcome.next (onAdmin_host _ _ h rfl)

theorem exec_getLogPage_host (lid : Nat) (rae : Bool) : exec (.getLogPage c lid rae) s = .next (hostLog s c lid rae a x) :=
  congrArg Host.Outcome.next (onAdmin_host _ _ h rfl)

theorem exec_getFeatures_host (fid : Nat) : exec (.getFeatures c fid) s = .next (featureGet s c fid x) :=
  congrArg Host.Outcome.next (onAdmin_host _ _ h rfl)

theorem exec_setFeatures_host (fid v : Nat) : exec (.setFeatures c fid v) s = .next (featureSet s c fid v a x) :=
  congrArg Host.Outcome.next (onAdmin_host _ _ h rfl)

theorem exec_asyncEventRequest_host : exec (.asyncEventRequest c) s = .next (eventRequest s c a x) :=
  congrArg Host.Outcome.next (onAdmin_host _ _ h rfl)

theorem exec_abort_host (qid k : Nat) : exec (.abort c qid k) s = .next (abortCommand s c qid k a x) :=
  congrArg Host.Outcome.next (onAdmin_host _ _ h rfl)

/-- A host's log pages and identification are those of its virtual subsystem. -/
theorem hostLog_host (lid : Nat) (rae : Bool) : hostLog s c lid rae a x = match lid with
    | 0x01 => reply (takeFrees s 16).2 c .success 0 (takeFrees s 16).1
    | 0x02 | 0x03 => reply (takeFree s).2 c .success 0 [(takeFree s).1]
    | 0x0C => reply (if rae then s
        else setAssoc s a (some { x with masked := x.masked.filter (· != 0), notices := x.notices.filter (· != 0) })) c .success 0 (anaLog s x.vss)
    | 0x81 => match vssOf s x.vss with
      | some r => reply s c .success 0 [sprog r, r.sstat, r.scdw10, 1, (vssChunks s x.vss + 19) / 20]
      | none => reply s c .invalidField
    | _ => reply s c .invalidField := by
  obtain ⟨_, _, _, _, _, _, _, hdisc, _⟩ := h
  exact if_neg (by simp [hdisc])

/-- An Abort on an association looks for its command among the held ones of the queue named (R214). -/
theorem abortCommand_host {qid k : Nat} {o : Option (Nat × Ctx)}
    (hl : (ctxFilter s (fun y => y.run == .held && (match y.cmd with | some h => h.c == ⟨.ioq a qid, k⟩ | none => false))).head? = o) :
    abortCommand s c qid k a x = if 4 ≤ abortsOut s x then reply s c .abortLimit else match (generalizing := false) o with
      | some (n, y) => abortReply (endHold s n y .abortRequested) c x 0
      | none => if qid = 0 && x.aers.contains k then
          abortReply (reply (setAssoc s a (some { x with aers := x.aers.filter (· != k) })) ⟨vcOrg a, k⟩ .abortRequested) c x 0
        else abortReply s c x 1 := by
  subst hl
  unfold abortCommand
  rw [h.2.1] <;> rfl

end Rows

/-- Number of Queues is granted once, before an I/O queue stands. -/
theorem featureSet_queues (s : State) (c : Cid) (a : Nat) {x : Assoc} {v n : Nat} (hgranted : x.granted = none) (hioqs : x.ioqs = [])
    (hn : n = min (min (field v 0 16) (field v 16 16) + 1) (queueCap x)) (hpos : n ≠ 0) :
    featureSet s c 7 v a x = reply (setAssoc s a (some { x with granted := some n })) c .success ((n - 1) + 65536 * (n - 1)) := by
  have hdw : queuesDw0 s n = ((n - 1) + 65536 * (n - 1), s) := if_neg hpos
  have hset : featureSet s c 7 v a x = if x.granted.isSome || !x.ioqs.isEmpty then reply s c .featureNotChangeable
      else (fun m => reply (setAssoc (queuesDw0 s m).2 a (some { x with granted := some m })) c .success (queuesDw0 s m).1)
        (min (min (field v 0 16) (field v 16 16) + 1) (queueCap x)) := rfl
  rw [hset, if_neg (by simp [hgranted, hioqs]), ← hn]
  dsimp only
  rw [hdw]

/-- Each of these rows is an admin command. -/
theorem exec_isAdmin {s : State} {c : Cid} {a v w : Nat} {b : Bool} {i : Instr} (horg : c.org = .assoc a)
    (hi : i ∈ [Instr.propertyGet c v, .propertySet c v w, .keepAlive c, .identify c v w, .getLogPage c v b, .getFeatures c v,
      .setFeatures c v w, .asyncEventRequest c, .abort c v w]) : ∃ t f g, exec i s = .next (onAdmin s c t f g) := by
  simp only [List.mem_cons, List.not_mem_nil, or_false] at hi
  rcases hi with rfl | rfl | rfl | rfl | rfl | rfl | rfl | rfl | rfl
  · rw [exec_propertyGet, execPropertyGet, horg]
    exact ⟨_, _, _, rfl⟩
  · rw [exec_propertySet, execPropertySet, horg]
    exact ⟨_, _, _, rfl⟩
  all_goals exact ⟨_, _, _, rfl⟩

/-- Settles O26: an admin command of a host's association reaches its operation, which answers by what it names. -/
theorem hostAdminCommands : Obligations.HostAdminCommands := by
  unfold Obligations.HostAdminCommands
  refine ⟨?prop, ?reset, ?alive, ?identify, ?ana, ?features, ?queues, ?events, ?abort, ?aborts, ?free, ?other⟩
  case prop =>
    intro s c a x v h hen
    refine ⟨exec_propertyGet_host h 0x14, ?_⟩
    rw [exec_propertySet_host h]
    unfold propSet
    simp [hen]
  case reset =>
    intro s c a x h hen
    rw [exec_propertySet_host h]
    unfold propSet
    simp [hen, show bitAt 0 0 = false from rfl]
  case alive => exact fun s c a x h => exec_keepAlive_host h
  case identify =>
    intro s c a x n h
    rw [exec_identify_host h, exec_identify_host h, exec_identify_host h]
    obtain ⟨_, _, _, _, _, _, _, hdisc, _⟩ := h
    unfold identifyData
    refine ⟨rfl, ?_, ?_⟩ <;> rw [hdisc] <;> rfl
  case ana =>
    intro s c a x h
    rw [exec_getLogPage_host h, exec_getLogPage_host h, exec_getLogPage_host h, hostLog_host h, hostLog_host h, hostLog_host h]
    exact ⟨rfl, rfl, rfl⟩
  case features =>
    intro s c a x v h
    exact ⟨exec_getFeatures_host h 2, exec_getFeatures_host h 0x0B, exec_getFeatures_host h 0x0F, exec_getFeatures_host h 0x10,
      exec_setFeatures_host h 0x0B v, exec_setFeatures_host h 0x0F v, exec_setFeatures_host h 2 v⟩
  case queues =>
    rintro s c a x v n h ⟨hgranted, hioqs, hn, hpos⟩
    rw [exec_setFeatures_host h, featureSet_queues s c a hgranted hioqs hn hpos]
  case events =>
    intro s c a x h hnone
    rw [exec_asyncEventRequest_host h]
    unfold eventRequest
    rw [hnone]
  case abort =>
    rintro s c a k x h ⟨hout, hheld⟩
    rw [exec_abort_host h, abortCommand_host (o := none) h (congrArg List.head? hheld), if_neg (Nat.not_le.mpr hout)]
    simp only [decide_true, Bool.true_and]
  case aborts =>
    refine fun s c a qid k n x y h => ⟨fun hout => ?_, fun hout hheld => ?_⟩
    · rw [exec_abort_host h, abortCommand_host h rfl, if_pos hout]
    · rw [exec_abort_host h, abortCommand_host h hheld, if_neg (Nat.not_le.mpr hout)]
  case free =>
    intro s c a n k x r h
    rw [exec_getLogPage_host h, exec_getLogPage_host h, exec_identify_host h, exec_identify_host h, hostLog_host h, hostLog_host h]
    obtain ⟨_, _, _, _, _, _, _, hdisc, _⟩ := h
    unfold identifyData
    rw [hdisc]
    refine ⟨rfl, rfl, fun hns hatt => ?_, fun hns => ?_⟩
    · simp [hns, hatt, takeFree, Option.filter]
    · simp [hns]
  case other =>
    rintro s c a v w b i ⟨horg, ha⟩ hi
    obtain ⟨t, f, g, hrow⟩ := exec_isAdmin (s := s) horg hi
    rw [hrow]
    exact ⟨fun hidle => congrArg _ (onAdmin_idle f g hidle.1 hidle.2), fun hof => congrArg _ (onAdmin_gone f g horg hof),
      fun hruns ⟨x, hof⟩ hbusy => congrArg _ (onAdmin_conflict f g hruns horg ha hof hbusy)⟩

end Sys2Proof.Machine
end

section
/-! Sanitize and Format NVM (R242, R243, R245). -/

namespace Sys2Proof.Machine

theorem exec_sanitize_host {s : State} {c : Cid} {a : Nat} {x : Assoc} (h : HostAdmin s c a x) (w : Nat) :
    exec (.sanitize c w) s = .next (sanitize s c w x.vss) := congrArg Host.Outcome.next (onAdmin_host _ _ h rfl)
theorem exec_formatNvm_host {s : State} {c : Cid} {a : Nat} {x : Assoc} (h : HostAdmin s c a x) (n w : Nat) :
    exec (.formatNvm c n w) s = .next (formatNvm s c n w x.vss) := congrArg Host.Outcome.next (onAdmin_host _ _ h rfl)

/-- A Sanitize acts by its action and by the state of its virtual subsystem. -/
theorem sanitize_of_vss {s : State} {v : Nat} {r : VssRec} (c : Cid) (w : Nat) (hvss : vssOf s v = some r) : sanitize s c w v =
    if bitAt w 9 || !([1, 2, 4].contains (field w 0 3)) then reply s c .invalidField
    else if field w 0 3 = 1 then
      (if r.state = .sanFailed && r.ause then catCommand s c [.vss v (some { r with state := .active })] 0 0 v
       else reply s c .invalidField)
    else if r.state = .sanitizing then reply s c .sanitizeInProgress
    else catCommand s c (.vss v (some { r with state := .sanitizing, sanAct := field w 0 3, ause := bitAt w 3, sstat := 2,
                                               scdw10 := w % 2 ^ 32, sanDone := 0,
                                               sanTotal := if field w 0 3 = 4 then 1 else vssChunks s v, sanKeys := false })
      :: (nsOfVss s v).map fun (x : Nat × NsRec) => .ns x.1 (some { x.2 with erased := 0 })) 0 0 v := by
  unfold sanitize
  rw [hvss]

/-- A Sanitize of a subsystem that is gone has no answer. -/
theorem sanitize_gone {s : State} {v : Nat} (c : Cid) (w : Nat) (hvss : vssOf s v = none) : sanitize s c w v = s := by
  unfold sanitize
  rw [hvss]

/-- With no admitted command left a sanitize that runs replaces the keys, and ends where nothing is to be erased (R242, R243). -/
theorem sanitizeQuiesced_ready {s : State} {v : Nat} {r : VssRec} (hvss : vssOf s v = some r) (hstate : r.state = .sanitizing)
    (hkeys : r.sanKeys = false) (hslots : slotsOf s v = 0) : sanitizeQuiesced s v =
      let ks := rekeyEdits s ((nsOfVss s v).map Prod.fst)
      let r := { r with sanKeys := true, sanDone := if r.sanAct = 4 then 1 else 0 }
      if r.sanTotal ≤ r.sanDone then
        writeEvent (catOwn ks.2 (ks.1 ++ [.vss v (some (sanitizeEnd r))]) 0 v) { num := 0x0516, vss := v, detail := [v] }
      else catOwn ks.2 (ks.1 ++ [.vss v (some r)]) 0 v := by
  unfold sanitizeQuiesced
  rw [hvss]
  exact if_neg (by simp [sanRuns, hstate, hkeys, hslots])

/-- While a command is left, or once the keys are replaced, nothing happens. -/
theorem sanitizeQuiesced_waits {s : State} {v : Nat} {r : VssRec} (hvss : vssOf s v = some r) (h : r.sanKeys = true ∨ slotsOf s v ≠ 0) :
    sanitizeQuiesced s v = s := by
  unfold sanitizeQuiesced
  rw [hvss]
  refine if_pos ?_
  rcases h with h | h <;> simp [h]

/-- A chunk erased for a sanitize is the one after its namespace's checkpoint. -/
theorem chunkErased_sanitize {s : State} {n k : Nat} {r : NsRec} {v : VssRec} (failed : Option Nat) (hns : nsOf s n = some r)
    (howned : (grpOf s r.group).owned = true) (hchunk : k < r.chunks) (hfmt : r.fmt = false) (hnext : k = r.erased)
    (hvss : vssOf s r.vss = some v) (hstate : v.state = .sanitizing) (hkeys : v.sanKeys = true) (hact : v.sanAct = 2) :
    chunkErased s n k failed = sanitizeChunk s r.vss v n r failed := by
  unfold chunkErased
  rw [hns]
  dsimp only
  rw [if_neg (by simp [howned, Nat.not_le.mpr hchunk]), if_neg (by simp [hfmt]), hvss]
  exact if_pos (by simp [sanRuns, hstate, hkeys, hact, hnext])

/-- A chunk erased for a format is the one after its checkpoint. -/
theorem chunkErased_format {s : State} {n k : Nat} {r : NsRec} (failed : Option Nat) (hns : nsOf s n = some r)
    (howned : (grpOf s r.group).owned = true) (hchunk : k < r.chunks) (hfmt : r.fmt = true) (hkeys : r.fmtKeys = true) (hses : r.ses = 1) :
    chunkErased s n k failed = if k = r.fmtDone then formatChunk s n r failed else s := by
  unfold chunkErased
  rw [hns]
  exact (if_neg (by simp [howned, Nat.not_le.mpr hchunk])).trans (if_pos (by simp [hfmt, hkeys, hses]))

/-- Once no command of a formatting namespace is left, its key and format change. -/
theorem formatQuiesced_ready {s : State} {n : Nat} {r : NsRec} (hns : nsOf s n = some r) (hfmt : r.fmt = true) (hkeys : r.fmtKeys = false)
    (hleft : nsInflight s n = 0) : formatQuiesced s n =
      let ks := rekeyEdits s [n]
      let r := { r with fmtKeys := true, lbaf := r.fmtTo % 2, pi := r.fmtTo / 2, blank := (tget ks.2.cat.keys {} n).epoch + 1 }
      if r.ses = 1 && r.chunks ≠ 0 then catOwn ks.2 (ks.1 ++ [.ns n (some r)]) 1 n else formatEnd ks.2 n r ks.1 := by
  unfold formatQuiesced
  rw [hns]
  exact if_neg (by simp [hfmt, hkeys, hleft])

/-- A format the controller has, on namespaces that are there, with no sanitize running. -/
theorem formatNvm_known {s : State} {c : Cid} {n w v : Nat} (hlbaf : field w 0 4 = 0) (hpi : field w 5 3 = 0) (hses : field w 9 3 ≤ 2)
    (hn : n ≠ 0xFFFFFFFF) : formatNvm s c n w v =
      let nss := (nsByNsid s v n).toList.filter fun x => x.2.attached
      if nss.isEmpty then reply s c .invalidNs
      else if (match vssOf s v with | some r => decide (r.state = VssState.sanitizing) | none => false) then reply s c .sanitizeInProgress
      else if nss.any fun x => x.2.fmt then reply s c .formatInProgress
      else if nss.isEmpty then reply s c .success
      else catCommand s c (nss.map fun (x : Nat × NsRec) =>
        CatEdit.ns x.1 (some { x.2 with fmt := true, ses := field w 9 3, fmtDone := 0, fmtKeys := false, fmtTo := 0 })) 0 1 n := by
  unfold formatNvm
  dsimp only
  rw [if_neg (by simp [hlbaf, hpi, Nat.not_lt.mpr hses]), hlbaf, hpi, if_neg hn]
  simp only [show decide (n ≠ 0xFFFFFFFF) = true from decide_eq_true hn, Bool.true_and] <;> rfl

/-- A format that the controller does not have. -/
theorem formatNvm_unknown {s : State} {w : Nat} (c : Cid) (n v : Nat) (h : 1 < field w 0 4 ∨ 2 < field w 9 3) :
    formatNvm s c n w v = reply s c .invalidField := by
  refine if_pos ?_
  rcases h with h | h <;> simp [h]

/-- Settles O27: each row by the state of its subsystem or namespace and by where the erase stands. -/
theorem sanitizeAndFormat : Obligations.SanitizeAndFormat := by
  unfold Obligations.SanitizeAndFormat
  refine ⟨?start, ?refused, ?format, ?quiesced, ?chunk, ?formatEnds, ?exit, ?formatRefused, ?ends, ?formatGoes, ?formatChunk⟩
  case start =>
    rintro s c a w x r h ⟨hvss, hstate, hbit, hact⟩
    rw [exec_sanitize_host h, sanitize_of_vss c w hvss]
    refine congrArg _ ((if_neg ?_).trans ((if_neg ?_).trans (if_neg hstate)))
    · rcases hact with hact | hact <;> simp [hbit, hact]
    · omega
  case refused =>
    rintro s c a w x r h ⟨hvss, hstate, hbit⟩
    rw [exec_sanitize_host h, sanitize_of_vss c w hvss]
    refine ⟨fun hact => congrArg _ (if_pos ?_), fun hact => congrArg _ ((if_neg ?_).trans ((if_neg ?_).trans (if_pos hstate)))⟩
    · rcases hact with hact | hact <;> simp [hbit, hact]
    · simp [hbit, hact]
    · omega
  case format =>
    rintro s c a n w k x r v h ⟨hn, hns, hatt, hfmt, hvss, hstate⟩ ⟨hlbaf, hpi, hses⟩
    rw [exec_formatNvm_host h, formatNvm_known hlbaf hpi hses hn, hns, hvss]
    simp [hatt, hfmt, hstate]
  case quiesced =>
    rintro s v r ⟨hvss, hstate, hact⟩
    refine ⟨fun h => congrArg Host.Outcome.next (sanitizeQuiesced_waits hvss h), fun hkeys hslots htotal => ?_⟩
    refine congrArg Host.Outcome.next ((sanitizeQuiesced_ready hvss hstate hkeys hslots).trans ?_)
    dsimp only
    rw [hact, if_neg (show ¬ 2 = 4 by decide), if_neg (Nat.not_le.mpr htotal)]
  case chunk =>
    rintro s n k r v ⟨hns, howned, hchunk, hfmt, hnext⟩ ⟨hvss, hstate, hkeys, hact⟩
    have hrow : ∀ failed, exec (.sanitizeChunkErased n k failed) s = .next (sanitizeChunk s r.vss v n r failed) := fun failed =>
      congrArg Host.Outcome.next (chunkErased_sanitize failed hns howned hchunk hfmt hnext hvss hstate hkeys hact)
    exact ⟨fun h => (hrow none).trans (congrArg _ (if_neg (Nat.not_le.mpr h))), fun h => (hrow none).trans (congrArg _ (if_pos h)),
      fun b => hrow (some b)⟩
  case formatEnds =>
    rintro s n r ⟨hns, hfmt, hkeys, hleft, hses⟩
    exact congrArg Host.Outcome.next ((formatQuiesced_ready hns hfmt hkeys hleft).trans (if_neg (by simp [hses])))
  case exit =>
    intro s c a w x h
    rw [exec_sanitize_host h]
    refine ⟨fun r hvss hbit hact => ?_, fun r hvss hbit => ?_, fun hvss => congrArg _ (sanitize_gone c w hvss)⟩
    · rw [sanitize_of_vss c w hvss, if_neg (by simp [hbit, hact]), if_pos hact]
      simp only [Bool.and_eq_true, decide_eq_true_eq]
    · rw [sanitize_of_vss c w hvss, if_pos (by simp [hbit])]
  case formatRefused =>
    intro s c a n w k x r h
    rw [exec_formatNvm_host h]
    refine ⟨fun hbad => congrArg _ (formatNvm_unknown c n x.vss hbad), fun hlbaf hpi hses hn => ?_⟩
    rw [formatNvm_known hlbaf hpi hses hn]
    refine ⟨fun hns => ?_, fun hns hatt => ⟨fun v hvss hstate => ?_, fun v hvss hstate hfmt => ?_⟩⟩
    · rw [hns] <;> rfl
    · rw [hns, hvss]
      simp [hatt, hstate]
    · rw [hns, hvss]
      simp [hatt, hstate, hfmt]
  case ends =>
    rintro s v r ⟨hvss, hstate, hkeys, hslots, htotal⟩
    refine congrArg Host.Outcome.next ((sanitizeQuiesced_ready hvss hstate hkeys hslots).trans (if_pos ?_))
    rcases htotal with ⟨hact, htotal⟩ | htotal
    · simpa [hact] using htotal
    · simp [htotal]
  case formatGoes =>
    refine fun s n => ⟨fun r hns hfmt hkeys hleft hses hchunks => ?_, fun r hns h => ?_, fun hns => ?_⟩
    · exact congrArg Host.Outcome.next ((formatQuiesced_ready hns hfmt hkeys hleft).trans (if_pos (by simp [hses, hchunks])))
    · rw [exec_formatNvmQuiesced, execFormatNvmQuiesced, formatQuiesced, hns]
      refine congrArg _ (if_pos ?_)
      rcases h with h | h | h <;> simp [h]
    · rw [exec_formatNvmQuiesced, execFormatNvmQuiesced, formatQuiesced, hns]
  case formatChunk =>
    rintro s n k r ⟨hns, howned, hchunk, hfmt, hkeys, hses⟩
    have hrow : ∀ failed, exec (.sanitizeChunkErased n k failed) s = .next (if k = r.fmtDone then formatChunk s n r failed else s) :=
      fun failed => congrArg Host.Outcome.next (chunkErased_format failed hns howned hchunk hfmt hkeys hses)
    refine ⟨fun hnext hlast => ?_, fun hnext hmore => ?_, fun hother b => (hrow b).trans (congrArg _ (if_neg hother)), fun b => ?_⟩
    · exact (hrow none).trans (congrArg _ ((if_pos hnext).trans (if_pos hlast)))
    · exact (hrow none).trans (congrArg _ ((if_pos hnext).trans (if_neg (Nat.not_le.mpr hmore))))
    · refine (hrow (some b)).trans (congrArg _ ?_)
      split <;> rfl

end Sys2Proof.Machine
end

section
/-! The six I/O commands of a host, the reopening of a tenant and the idle levels (R169, R170, R193, R211, R212, R261). -/

namespace Sys2Proof.Machine

/-- With no injector at a point an item goes on. -/
theorem atPoint_none {s : State} {point inst : Nat} (k : HeldCmd) (f : State → State) (h : injectorAt s point inst = none) :
    atPoint s point inst k f = f s := by
  unfold atPoint
  rw [h]

/-- With the test bench away an I/O command goes to the front end by its class. -/
theorem exec_nvmRow {s : State} {cls : Nat} (h : HostCmd) (hcls : cls < 6) (hbench : s.ptb.available = false) :
    exec (nvmRow cls h) s = .next (hostCommand s cls h) := by
  have hgo : ∀ k, atPoint s 2 (senderVss s h) k (fun s => hostCommand s cls h) = hostCommand s cls h :=
    fun k => atPoint_none k _ (injectorAt_unavailable 2 _ hbench)
  obtain rfl | rfl | rfl | rfl | rfl | rfl : cls = 0 ∨ cls = 1 ∨ cls = 2 ∨ cls = 3 ∨ cls = 4 ∨ cls = 5 := by omega
  all_goals exact congrArg Host.Outcome.next (hgo _)

/-- A command on an I/O queue that stands, by its first packet, its queue and its checks. -/
theorem hostCommand_ioq {s : State} {a qid : Nat} {h : HostCmd} {x : Assoc} {i : IoQ} (cls : Nat) (hruns : frontRuns s = true)
    (horg : h.c.org = .ioq a qid) (hof : assocOf s a = some x) (hq : (x.ioqs.find? fun i => i.qid == qid) = some i) :
    hostCommand s cls h =
      if (headMsg (qpOf s i.qp)).isNone then s
      else if i.auth then reply (takeMsg s i.qp none) h.c .authRequired
      else if cidBusy s h.c then reply (takeMsg s i.qp none) h.c .cidConflict
      else match admitCheck s x.vss cls (1024 * i.icd) h false with
        | .bad st => reply (takeMsg s i.qp none) h.c st
        | .refuse => refuseMsg (countRefusal (stopTenant s x.vss (needBytes cls h)) x.vss) i.qp
        | .accept => takeMsg (admitCmd s x.vss a cls h i.qp 0 none) i.qp (if h.inl then freeCtx s else none) := by
  unfold hostCommand
  rw [hruns, horg]
  dsimp only
  unfold capsule
  rw [hof]
  dsimp only
  rw [hq] <;> rfl

/-- A command that may be admitted goes by its checks alone. -/
theorem hostCommand_io {s : State} {a qid : Nat} {h : HostCmd} {x : Assoc} {i : IoQ} (cls : Nat) (hio : HostIo s h a qid x i) :
    hostCommand s cls h = match admitCheck s x.vss cls (1024 * i.icd) h false with
      | .bad st => reply (takeMsg s i.qp none) h.c st
      | .refuse => refuseMsg (countRefusal (stopTenant s x.vss (needBytes cls h)) x.vss) i.qp
      | .accept => takeMsg (admitCmd s x.vss a cls h i.qp 0 none) i.qp (if h.inl then freeCtx s else none) := by
  obtain ⟨hruns, _, horg, hof, hq, hauth, hbusy, hhead⟩ := hio
  exact (hostCommand_ioq cls hruns horg hof hq).trans ((if_neg (by simp [hhead])).trans ((if_neg (by simp [hauth])).trans
    (if_neg (by simp [hbusy]))))

/-- A command whose front end does not run, or whose association or queue does not stand, does nothing. -/
theorem hostCommand_none {s : State} {a qid : Nat} {h : HostCmd} (cls : Nat) (horg : h.c.org = .ioq a qid)
    (hnone : frontRuns s = false ∨ assocOf s a = none) : hostCommand s cls h = s := by
  unfold hostCommand
  rw [horg]
  dsimp only
  unfold capsule
  rcases hnone with hnone | hnone
  · exact if_pos (by simp [hnone])
  · rw [hnone]
    exact ite_self s

/-- A stopped tenant whose waiting entries were tried again reopens where there is room for it (R212). -/
theorem reopen_stopped {s : State} {v : Nat} (h : (rtOf s v).stopped = true) : reopen s v =
    let s := retryWaits s v
    if mayReopen s v && (tqKeys s fun t => t.vss == v && !t.wait.isEmpty && t.state == .paused).isEmpty then
      let s := setRt s v { rtOf s v with stopped := false, pending := 0 }
      joinFetch { s with cfe := { s.cfe with tqs := s.cfe.tqs.map fun x =>
        if x.2.vss = v && x.2.state = .paused && !x.2.frozen then (x.1, { x.2 with state := .active }) else x } } v
    else s := if_neg (by simp [h])

/-- Settles O28: an I/O command by its queue and its checks; a tenant by its room; the idle levels in their order. -/
theorem nvmCommands : Obligations.NvmCommands := by
  unfold Obligations.NvmCommands
  refine ⟨?bad, ?accept, ?refuse, ?queue, ?fn, ?reopens, ?stays, ?idle⟩
  case bad =>
    rintro s cls a qid h x i st ⟨hcls, hio⟩ hcheck
    rw [exec_nvmRow h hcls hio.2.1, hostCommand_io cls hio, hcheck]
  case accept =>
    rintro s cls a qid h x i ⟨hcls, hio⟩ hcheck
    rw [exec_nvmRow h hcls hio.2.1, hostCommand_io cls hio, hcheck]
  case refuse =>
    rintro s cls a qid h x i ⟨hcls, hio⟩ hcheck
    rw [exec_nvmRow h hcls hio.2.1, hostCommand_io cls hio, hcheck]
  case queue =>
    rintro s cls a qid h ⟨hcls, hbench, horg⟩
    rw [exec_nvmRow h hcls hbench]
    refine ⟨fun hnone => congrArg _ (hostCommand_none cls horg hnone), fun x hruns hof hq => congrArg _ ?_, fun x i hruns hof hq => ?_⟩
    · unfold hostCommand
      rw [hruns, horg]
      dsimp only
      unfold capsule
      rw [hof]
      dsimp only
      rw [hq] <;> rfl
    · exact congrArg _ (hostCommand_ioq cls hruns horg hof hq)
  case fn =>
    rintro s cls n h x ⟨hcls, hbench, horg, hruns, hof⟩
    rw [exec_nvmRow h hcls hbench]
    refine congrArg _ ?_
    unfold hostCommand
    rw [hruns, horg]
    dsimp only
    unfold fnCommand
    rw [hof]
    simp only [Bool.not_eq_true', Bool.not_true, Bool.false_eq_true, if_false] <;> rfl
  case reopens =>
    refine fun s v hruns => ⟨fun h => ?_, fun h hroom hwait => ?_⟩
    · exact congrArg Host.Outcome.next ((if_pos hruns).trans (if_pos (by simp [h])))
    · exact congrArg Host.Outcome.next ((if_pos hruns).trans ((reopen_stopped h).trans (if_pos (by rw [hroom, hwait]; rfl))))
  case stays =>
    refine fun s v => ⟨fun hruns => ?_, fun hruns h hfull => ?_, fun hruns => ?_⟩
    · exact congrArg Host.Outcome.next (if_neg (by simp [hruns]))
    · refine congrArg Host.Outcome.next ((if_pos hruns).trans ((reopen_stopped h).trans (if_neg ?_)))
      rcases hfull with hfull | hfull
      · simp [hfull]
      · rw [Bool.and_eq_true, List.isEmpty_iff]
        exact fun hboth => hfull hboth.2
    · exact congrArg Host.Outcome.next (if_neg (by simp [hruns]))
  case idle =>
    intro s hruns
    rw [exec_idleLevel1Entry, execIdleLevel1Entry, exec_idleLevel2Entry, execIdleLevel2Entry]
    simp only [hruns, Bool.true_and, Bool.and_eq_true, bne_iff_ne, beq_iff_eq, and_assoc, and_self]

end Sys2Proof.Machine
end

section
/-! The tenant queues: creation, doorbells, fetch, notification and end (R202 to R210). -/

namespace Sys2Proof.Machine

theorem exec_vdqCreate_host {s : State} {c : Cid} {a : Nat} {x : Assoc} (h : HostAdmin s c a x) (d : List Byte) :
    exec (.vdqCreate c d) s = .next (vdqCreate s c d a x) := congrArg Host.Outcome.next (onAdmin_host _ _ h rfl)
theorem exec_vdqDelete_host {s : State} {c : Cid} {a : Nat} {x : Assoc} (h : HostAdmin s c a x) (w : Nat) :
    exec (.vdqDelete c w) s = .next (vdqDelete s c w a) := congrArg Host.Outcome.next (onAdmin_host _ _ h rfl)

/-- VDQ Create of a descriptor that names a VDQ queue pair goes by that queue pair, its queue and the quotas (R202). -/
theorem vdqCreate_named {s : State} {d : List Byte} {n : Nat} (c : Cid) (a : Nat) (x : Assoc) (hdesc : vdqDescBad d = false)
    (hqp : vdqQp s (leAt d 32 4) = some n) : vdqCreate s c d a x =
      let k := 16 * n + leAt d 35 1
      if (qpOf s n).assoc ≠ some a then reply s c (.vendor 0xD2)
      else if (tqOf s k).state ≠ .free then reply s c (.vendor 0xD1)
      else if tqMax s ≤ tqCount s (fun _ => true) || tqQuota s x.vss ≤ tqCount s (fun t => t.vss == x.vss) then reply s c (.vendor 0xD0)
      else reply (vdqBind s k x.vss a d).2 c .success (vdqBind s k x.vss a d).1 := by
  unfold vdqCreate
  rw [if_neg (by simp [hdesc]), hqp]

/-! ### Doorbells -/

/-- A doorbell that has been delivered acts while the front end runs. -/
theorem onBell_delivered {s : State} {q imm : Nat} (f : State → State) (hq : q < 65536) (hruns : frontRuns s = true)
    (hdel : delivered s q (· == imm) = true) : onBell q imm s f = .next (f s) :=
  (onQp_exists _ hq).trans (congrArg _ (if_pos (by rw [hruns, hdel]; rfl)))

/-- Any other does nothing. -/
theorem onBell_not {s : State} {q imm : Nat} (f : State → State) (hq : q < 65536)
    (h : frontRuns s = false ∨ delivered s q (· == imm) = false) : onBell q imm s f = .next s := by
  refine (onQp_exists _ hq).trans (congrArg _ (if_neg ?_))
  rcases h with h | h <;> simp [h]

theorem onBell_absent {s : State} {q imm : Nat} (f : State → State) (hq : 65536 ≤ q) :
    onBell q imm s f = .fault (.noSuchInstance "queue pair") := onQp_absent _ hq

/-- A push to a queue in service (R207, R209). -/
theorem pushBell_queue {s : State} {q imm k : Nat} {m : InMsg} {e : List Byte} {bs : List Blk} {rs : List DsmRange} {g : HostCmd}
    (hhead : headMsg (qpOf s q) = some m) (hqueue : bellQueue s q imm = some k)
    (hg : g = { (sqEntry k e).2 with inl := true, push := some (field imm 16 6), payload := bs, ranges := rs }) :
    pushBell s q imm e bs rs =
      if vssStopped s (tqOf s k).vss || (tqOf s k).frozen then
        refuseMsg (countRefusal (notePending s (tqOf s k).vss ((nvmClass (sqEntry k e).1).elim 0 fun cls => needBytes cls g)) (tqOf s k).vss) q
      else if (tqOf s k).busy.contains (field imm 16 6) then tqError (takeMsg s q none) k 3
      else
        let busy := setTq s k { tqOf s k with busy := (tqOf s k).busy ++ [field imm 16 6] }
        let bad := fun st => replyD (takeMsg busy q none) g.c (some (field imm 16 6)) st (statusDnr st) 0 []
        if m.va ≠ pushSlotBytes * field imm 16 6 || m.len ≠ 64 + g.len then bad .invalidField
        else match nvmClass (sqEntry k e).1 with
          | none => bad .invalidOpcode
          | some cls => match admitCheck s (tqOf s k).vss cls 16384 g false with
            | .bad st => bad st
            | .refuse => refuseMsg (countRefusal (stopTenant s (tqOf s k).vss (needBytes cls g)) (tqOf s k).vss) q
            | .accept => takeMsg (admitCmd busy (tqOf s k).vss (tqOf s k).assoc cls g q (k % 16) (some k)) q (freeCtx busy) := by
  subst hg
  unfold pushBell
  rw [hqueue, hhead] <;> rfl

/-- A push into a slot that is free, to a queue that takes it. -/
theorem pushBell_taken {s : State} {q imm k : Nat} {m : InMsg} {e : List Byte} {bs : List Blk} {rs : List DsmRange} {g : HostCmd} {b : State}
    (hhead : headMsg (qpOf s q) = some m) (hqueue : bellQueue s q imm = some k)
    (hg : g = { (sqEntry k e).2 with inl := true, push := some (field imm 16 6), payload := bs, ranges := rs })
    (hb : b = setTq s k { tqOf s k with busy := (tqOf s k).busy ++ [field imm 16 6] })
    (hstop : vssStopped s (tqOf s k).vss = false) (hfrozen : (tqOf s k).frozen = false) (hfree : (tqOf s k).busy.contains (field imm 16 6) = false) :
    pushBell s q imm e bs rs =
      if m.va ≠ pushSlotBytes * field imm 16 6 || m.len ≠ 64 + g.len then
        replyD (takeMsg b q none) g.c (some (field imm 16 6)) .invalidField (statusDnr .invalidField) 0 []
      else match nvmClass (sqEntry k e).1 with
        | none => replyD (takeMsg b q none) g.c (some (field imm 16 6)) .invalidOpcode (statusDnr .invalidOpcode) 0 []
        | some cls => match admitCheck s (tqOf s k).vss cls 16384 g false with
          | .bad st => replyD (takeMsg b q none) g.c (some (field imm 16 6)) st (statusDnr st) 0 []
          | .refuse => refuseMsg (countRefusal (stopTenant s (tqOf s k).vss (needBytes cls g)) (tqOf s k).vss) q
          | .accept => takeMsg (admitCmd b (tqOf s k).vss (tqOf s k).assoc cls g q (k % 16) (some k)) q (freeCtx b) := by
  subst hb
  exact (pushBell_queue hhead hqueue hg).trans ((if_neg (by rw [hstop, hfrozen]; exact Bool.false_ne_true)).trans
    (if_neg (by rw [hfree]; exact Bool.false_ne_true)))

/-- A push of a whole slot of a known class goes by its checks. -/
theorem pushBell_class {s : State} {q imm k cls : Nat} {m : InMsg} {e : List Byte} {bs : List Blk} {rs : List DsmRange} {g : HostCmd} {b : State}
    (hhead : headMsg (qpOf s q) = some m) (hqueue : bellQueue s q imm = some k)
    (hg : g = { (sqEntry k e).2 with inl := true, push := some (field imm 16 6), payload := bs, ranges := rs })
    (hb : b = setTq s k { tqOf s k with busy := (tqOf s k).busy ++ [field imm 16 6] })
    (hstop : vssStopped s (tqOf s k).vss = false) (hfrozen : (tqOf s k).frozen = false) (hfree : (tqOf s k).busy.contains (field imm 16 6) = false)
    (hva : m.va = pushSlotBytes * field imm 16 6) (hlen : m.len = 64 + g.len) (hclass : nvmClass (sqEntry k e).1 = some cls) :
    pushBell s q imm e bs rs = match admitCheck s (tqOf s k).vss cls 16384 g false with
      | .bad st => replyD (takeMsg b q none) g.c (some (field imm 16 6)) st (statusDnr st) 0 []
      | .refuse => refuseMsg (countRefusal (stopTenant s (tqOf s k).vss (needBytes cls g)) (tqOf s k).vss) q
      | .accept => takeMsg (admitCmd b (tqOf s k).vss (tqOf s k).assoc cls g q (k % 16) (some k)) q (freeCtx b) := by
  rw [pushBell_taken hhead hqueue hg hb hstop hfrozen hfree, if_neg (by simp [hva, hlen]), hclass]

/-- A doorbell of a queue out of service is counted where it is stale. -/
theorem pushBell_stale {s : State} {q imm : Nat} (e : List Byte) (bs : List Blk) (rs : List DsmRange) (h : bellQueue s q imm = none) :
    pushBell s q imm e bs rs = staleBell (takeMsg s q none) q imm := by
  unfold pushBell
  rw [h]

/-! ### Fetch and notification -/

/-- The fetch of the tenant picked is one read of its ring, or a refusal (R207). -/
theorem vdqFetch_picked {s t u : State} {v k n : Nat}
    (hpick : drrPick s 0 (fun v => if (readyTqs s v).isEmpty then none else some 1) (drrFuel s 0) = (t, some v))
    (hnext : nextTq t v = some k) (hu : u = { t with cfe := { t.cfe with rr := tput t.cfe.rr 0 v (k + 1) } }) (hn : n = fetchCount u (tqOf t k)) :
    vdqFetch s = if n = 0 then countRefusal (stopTenant u v 0) v
      else sendMsg (setTq u k { tqOf t k with fetch := n, turn := turnLeft u (tqOf t k) - n }) (tqQp k)
        { kind := .read, len := 64 * n, va := leAt (tqOf t k).desc 0 8 + 64 * (tqOf t k).head, rkey := leAt (tqOf t k).desc 16 4, fetch := some k } := by
  subst hn hu
  unfold vdqFetch
  rw [hpick]
  dsimp only
  rw [hnext]

/-- The notification timer of a queue in service with completions not yet notified (R210). -/
theorem notifyLate_due {s : State} {k : Nat} (hsince : (tqOf s k).since ≠ 0)
    (hstate : (tqOf s k).state = .active ∨ (tqOf s k).state = .paused) : notifyLate s k =
      let t := tqOf s k
      let s := setTq s k { t with since := 0 }
      let imm := 0xC0000000 + 2 ^ 26 * (k % 16) + t.cqTail
      let q := (qpOf s (tqQp k)).sendq
      match q.reverse.findIdx? (cqWaits t) with
      | some i => setQp s (tqQp k) { qpOf s (tqQp k) with
          sendq := (q.reverse.modify i fun m => { m with kind := .writeImm, imm := imm }).reverse }
      | none => sendMsg s (tqQp k) { kind := .writeImm, len := 0, imm := imm, cpl := true } := by
  refine if_neg ?_
  rcases hstate with h | h <;> simp [hsince, h]

/-- Otherwise it does nothing. -/
theorem notifyLate_idle {s : State} {k : Nat}
    (h : (tqOf s k).since = 0 ∨ ((tqOf s k).state ≠ .active ∧ (tqOf s k).state ≠ .paused)) : notifyLate s k = s := by
  refine if_pos ?_
  rcases h with h | ⟨h, h'⟩
  · simp [h]
  · simp [h, h']

/-- Settles O29: a creation by its descriptor, a doorbell and a fetch by their queue. -/
theorem virtualDeviceQueues : Obligations.VirtualDeviceQueues := by
  unfold Obligations.VirtualDeviceQueues
  refine ⟨?create, ?createBad, ?delete, ?createRefused, ?bell, ?bellStale, ?push, ?pushRefused, ?fetch, ?noFetch, ?response, ?stall, ?notify,
    ?free, ?absent⟩
  case create =>
    rintro s c d a n x h ⟨hdesc, hqp, hassoc⟩ hfree ⟨hmax, hquota⟩
    rw [exec_vdqCreate_host h, vdqCreate_named c a x hdesc hqp]
    exact congrArg _ ((if_neg (by simp [hassoc])).trans ((if_neg (by simp [hfree])).trans
      (if_neg (by simp [Nat.not_le.mpr hmax, Nat.not_le.mpr hquota]))))
  case createBad =>
    intro s c d a x h
    rw [exec_vdqCreate_host h]
    refine ⟨fun hdesc => congrArg _ (if_pos hdesc), fun hdesc hqp => congrArg _ ((if_neg (by simp [hdesc])).trans ?_)⟩
    rw [hqp]
  case delete =>
    intro s c w a k x h hnamed
    rw [exec_vdqDelete_host h, vdqDelete, hnamed]
  case createRefused =>
    rintro s c d a n w x h ⟨hdesc, hqp⟩
    rw [exec_vdqCreate_host h, exec_vdqDelete_host h, vdqCreate_named c a x hdesc hqp]
    refine ⟨fun hassoc => congrArg _ (if_pos hassoc), fun hassoc hstate => ?_, fun hassoc hstate hfull => ?_, fun hnone => ?_⟩
    · exact congrArg _ ((if_neg (by simp [hassoc])).trans (if_pos hstate))
    · exact congrArg _ ((if_neg (by simp [hassoc])).trans ((if_neg (by simp [hstate])).trans (if_pos (by simpa using hfull))))
    · rw [vdqDelete, hnone]
  case bell =>
    rintro s t q imm k ⟨hq, hruns, hdel⟩ ⟨rfl, hqueue⟩
    rw [exec_sqTailDoorbell, execSqTailDoorbell, exec_cqHeadDoorbell, execCqHeadDoorbell, onBell_delivered _ hq hruns hdel,
      onBell_delivered _ hq hruns hdel, sqTail, cqHeadBell, hqueue]
    exact ⟨rfl, rfl⟩
  case bellStale =>
    rintro s t q imm e bs rs ⟨hq, rfl⟩
    refine ⟨fun hruns hdel hnone => ?_, fun hruns hdel hnone => ?_, fun h => ?_⟩
    · rw [exec_sqTailDoorbell, execSqTailDoorbell, exec_cqHeadDoorbell, execCqHeadDoorbell, onBell_delivered _ hq hruns hdel,
        onBell_delivered _ hq hruns hdel, sqTail, cqHeadBell, hnone]
      exact ⟨rfl, rfl⟩
    · rw [exec_pushDoorbell, execPushDoorbell, onBell_delivered _ hq hruns hdel, pushBell_stale e bs rs hnone]
    · rw [exec_sqTailDoorbell, execSqTailDoorbell, exec_cqHeadDoorbell, execCqHeadDoorbell, exec_pushDoorbell, execPushDoorbell]
      exact ⟨onBell_not _ hq h, onBell_not _ hq h, onBell_not _ hq h⟩
  case push =>
    rintro s q imm k cls m e bs rs g ⟨hq, hruns, hdel, hhead, hqueue⟩ ⟨hstop, hfrozen⟩ hg
    rw [exec_pushDoorbell, execPushDoorbell, onBell_delivered _ hq hruns hdel]
    refine ⟨fun hbusy => congrArg _ ?_, fun hfree hva hlen hclass hcheck => congrArg _ ?_⟩
    · exact (pushBell_queue hhead hqueue hg).trans ((if_neg (by rw [hstop, hfrozen]; exact Bool.false_ne_true)).trans (if_pos hbusy))
    · rw [pushBell_class hhead hqueue hg rfl hstop hfrozen hfree hva hlen hclass, hcheck]
  case pushRefused =>
    rintro s q imm k m e bs rs g b ⟨hq, hruns, hdel, hhead, hqueue⟩ hg hb
    rw [exec_pushDoorbell, execPushDoorbell, onBell_delivered _ hq hruns hdel]
    refine ⟨fun h => congrArg _ ((pushBell_queue hhead hqueue hg).trans (if_pos (by simpa using h))), fun hstop hfrozen hfree =>
      ⟨fun hshape => congrArg _ ((pushBell_taken hhead hqueue hg hb hstop hfrozen hfree).trans (if_pos (by simpa using hshape))),
        fun hva hlen => ⟨fun hnone => congrArg _ ?_, fun cls st hclass hcheck => congrArg _ ?_, fun cls hclass hcheck => congrArg _ ?_⟩⟩⟩
    · rw [pushBell_taken hhead hqueue hg hb hstop hfrozen hfree, if_neg (by simp [hva, hlen]), hnone]
    · rw [pushBell_class hhead hqueue hg hb hstop hfrozen hfree hva hlen hclass, hcheck]
    · rw [pushBell_class hhead hqueue hg hb hstop hfrozen hfree hva hlen hclass, hcheck]
  case fetch =>
    rintro s t u v k n hruns hpick ⟨hnext, hu, hn⟩
    exact congrArg Host.Outcome.next ((if_pos hruns).trans (vdqFetch_picked hpick hnext hu hn))
  case noFetch =>
    refine fun s t => ⟨fun hruns => congrArg Host.Outcome.next (if_neg (by simp [hruns])), fun hruns hpick => ?_⟩
    refine congrArg Host.Outcome.next ((if_pos hruns).trans ?_)
    unfold vdqFetch
    rw [hpick]
  case response =>
    rintro s q i tag es l hd ⟨hq, hi⟩ ⟨rfl, rfl⟩
    rw [exec_vdqFetchResponse, execVdqFetchResponse, onQp_exists _ hq]
    refine ⟨fun hruns hstale hfetch => congrArg _ ((if_pos (by simp [hruns, hi])).trans (if_neg (by simp [hstale, hfetch]))),
      fun hruns h => congrArg _ ((if_pos (by simp [hruns, hi])).trans (if_pos (by simpa using h))),
      fun hruns => congrArg _ (if_neg (by simp [hruns]))⟩
  case stall =>
    rintro s q i ⟨hq, hi⟩
    rw [exec_cqStallExpiry, execCqStallExpiry, onQp_exists _ hq, if_pos hi, cqStalled]
  case notify =>
    rintro s q i l ⟨hq, hi⟩ rfl
    rw [exec_notifyTimerExpiry, execNotifyTimerExpiry, onQp_exists _ hq, if_pos hi]
    exact ⟨fun hsince hstate => congrArg _ (notifyLate_due hsince hstate), fun h => congrArg _ (notifyLate_idle h)⟩
  case free =>
    rintro s q i ⟨hq, hi⟩
    rw [exec_tenantQueueFree, execTenantQueueFree, onQp_exists _ hq, if_pos hi, tqFree]
    simp only [Bool.and_eq_true, decide_eq_true_eq]
  case absent =>
    intro s q imm i tag e bs rs es
    rw [exec_sqTailDoorbell, execSqTailDoorbell, exec_cqHeadDoorbell, execCqHeadDoorbell, exec_pushDoorbell, execPushDoorbell,
      exec_vdqFetchResponse, execVdqFetchResponse, exec_cqStallExpiry, execCqStallExpiry, exec_notifyTimerExpiry, execNotifyTimerExpiry,
      exec_tenantQueueFree, execTenantQueueFree]
    refine ⟨fun hq => ⟨onBell_absent _ hq, onBell_absent _ hq, onBell_absent _ hq, onQp_absent _ hq, onQp_absent _ hq, onQp_absent _ hq,
      onQp_absent _ hq⟩, fun hq hi => ?_⟩
    have hno : ¬ i < 16 := by omega
    rw [onQp_exists _ hq, onQp_exists _ hq, onQp_exists _ hq, onQp_exists _ hq]
    exact ⟨congrArg _ (if_neg (by simp [hno])), congrArg _ (if_neg hno), congrArg _ (if_neg hno), congrArg _ (if_neg hno)⟩

end Sys2Proof.Machine
end

section
/-! How a management association proves an anchor (R223, R224). -/

namespace Sys2Proof.Machine

/-- A negated test swaps its branches. -/
theorem ite_bnot {α : Type} (b : Bool) (x y : α) : (if !b then x else y) = if b then y else x := by cases b <;> rfl

/-- A command of the proof acts for a management association that stands. -/
theorem onAdmin_proving {s : State} {c : Cid} {a : Nat} {x : Assoc} (f : Nat → Assoc → State → State) (g : State → State)
    (hruns : dataRuns s = true) (horg : c.org = .assoc a) (ha : a < 65536) (hof : assocOf s a = some x) (hbusy : cidBusy s c = false)
    (hauth : x.auth = false) (hmgmt : x.mgmt = true) (hcap : capBad x c.cid = none) : onAdmin s c provingSet f g = f a x s := by
  unfold onAdmin
  rw [if_neg (by simp [hruns]), horg]
  simp [ha, hof, hbusy, hauth, hmgmt, hcap, provingSet]

/-- A command of the proof is not a host's. -/
theorem onAdmin_provingHost {s : State} {c : Cid} {a : Nat} {x : Assoc} (f : Nat → Assoc → State → State) (g : State → State)
    (h : HostAdmin s c a x) : onAdmin s c provingSet f g = reply s c .invalidOpcode := by
  obtain ⟨hruns, horg, ha, hof, hbusy, hauth, hmgmt, hdisc, hcap⟩ := h
  unfold onAdmin
  rw [if_neg (by simp [hruns]), horg]
  simp [ha, hof, hbusy, hauth, hmgmt, hdisc, hcap, provingSet]

/-- For PF0 a command of the proof runs by itself. -/
theorem onAdmin_provingPf0 {s : State} {c : Cid} (f : Nat → Assoc → State → State) (g : State → State) (hruns : dataRuns s = true)
    (horg : c.org = .pf0) : onAdmin s c provingSet f g = g s := by
  unfold onAdmin
  rw [if_neg (by simp [hruns]), horg]
  exact if_pos rfl

/-- The verification of a proof does not change the anchors. -/
theorem anchorEntry_checkProof (s : State) (e d : List Byte) (msg : List Nat) (k : Nat) :
    anchorEntry (checkProof s e msg d) k = anchorEntry s k := by
  unfold anchorEntry checkProof
  simp only [emit_cfg]

/-- A proof is taken when a challenge stands, its anchor is known, its length is right and both signatures are good. -/
theorem mgmtProve_eq {s u : State} {c : Cid} {k : Nat} {d : List Byte} {v : AuthVerdict} {a : Nat} {x : Assoc}
    (hu : u = (match x.nonce, anchorEntry s k with
      | some n, some e => checkProof s e (manageMessage n a x.host) d
      | _, _ => s)) : mgmtProve s c k d v a x =
      match x.nonce, anchorRoles s k, d.length == 3376 && v.ed && v.ml with
      | some _, some r, true => reply (setAssoc u a (some { x with nonce := none, roles := some r })) c .success
      | _, _, _ =>
        let t := reply (writeEvent (setAssoc u a (some { x with nonce := none, proofs := x.proofs + 1 }))
          { num := 0x0510, inst := a, detail := [k, a] }) c (.vendor 0xE4)
        if 2 ≤ x.proofs then assocEnd t a else t := by
  subst hu
  unfold mgmtProve anchorRoles
  cases hnonce : x.nonce with
  | none => rfl
  | some n => cases hentry : anchorEntry s k with
    | none => simp only [hentry, Option.map_none]
    | some e => simp only [anchorEntry_checkProof, hentry, Option.map_some] <;> rfl

/-- Settles O30: the proof by its nonce, its anchor, its length and its two signatures. -/
theorem managementProof : Obligations.ManagementProof := by
  unfold Obligations.ManagementProof
  refine ⟨?challenge, ?good, ?fails, ?late, ?others⟩
  case challenge =>
    rintro s c a x ⟨hruns, horg, ha, hof, hbusy, hauth, hmgmt, hcap⟩
    refine congrArg Host.Outcome.next ((onAdmin_proving _ _ hruns horg ha hof hbusy hauth hmgmt hcap).trans ?_)
    have hof' : assocOf (freshNonce s).2 a = some x := hof
    unfold mgmtChallenge
    dsimp only
    simp only [Option.bind_some, hof', Option.map_some] <;> rfl
  case good =>
    rintro s c a n k x e d ⟨hruns, horg, ha, hof, hbusy, hauth, hmgmt, hcap⟩ ⟨hnonce, hentry, hlen⟩
    refine congrArg Host.Outcome.next ((onAdmin_proving _ _ hruns horg ha hof hbusy hauth hmgmt hcap).trans ((mgmtProve_eq rfl).trans ?_))
    have hroles : anchorRoles s k = some (field (leAt e 1 1) 0 3) := by
      unfold anchorRoles
      rw [hentry] <;> rfl
    rw [hnonce, hentry, hroles, hlen] <;> rfl
  case fails =>
    rintro s u c a k x d v ⟨hruns, horg, ha, hof, hbusy, hauth, hmgmt, hcap⟩ hbad hu
    refine ⟨_, rfl, congrArg Host.Outcome.next ((onAdmin_proving _ _ hruns horg ha hof hbusy hauth hmgmt hcap).trans ((mgmtProve_eq hu).trans ?_))⟩
    split
    case h_1 n r hnonce hroles hgood =>
      simp only [Bool.and_eq_true, beq_iff_eq] at hgood
      obtain ⟨⟨hlen, hed⟩, hml⟩ := hgood
      rw [hnonce, hroles, hlen, hed, hml] at hbad
      simp at hbad
    case h_2 => rfl
  case late =>
    intro s a
    rw [exec_mgmtAuthTimeout, execMgmtAuthTimeout, mgmtLate]
    refine ⟨fun x hof => ?_, fun hof => ?_⟩
    · rw [hof]
      simp only [Bool.and_eq_true, Option.isNone_iff_eq_none]
    · rw [hof]
  case others =>
    refine fun s c k d v hruns => ⟨fun horg => ⟨?_, ?_⟩, fun a x h => ⟨?_, ?_⟩⟩
    · exact congrArg Host.Outcome.next (onAdmin_provingPf0 _ _ hruns horg)
    · exact congrArg Host.Outcome.next (onAdmin_provingPf0 _ _ hruns horg)
    · exact congrArg Host.Outcome.next (onAdmin_provingHost _ _ h)
    · exact congrArg Host.Outcome.next (onAdmin_provingHost _ _ h)

end Sys2Proof.Machine
end

section
/-! The management commands on virtual subsystems, hosts and namespaces (R225 to R236). -/

namespace Sys2Proof.Machine

/-- The catalog's row of a host: the entry it has, else the lowest free one of its subsystem. -/
theorem hostSet_entry {s : State} {c : Cid} {d : List Byte} {l : List Nat} (hbad : hostBad d = false) (hvss : (vssOf s (leAt d 0 2)).isSome = true)
    (hop : leAt d 2 1 = 1) (hl : l = (pendEdits s).filterMap fun e => match e with | .host i (some _) => some i | _ => none) :
    hostSet s c d = match (match hostIndex s (leAt d 0 2) (cString ((d.drop 64).take 256)) with
        | some i => some i
        | none => if 65536 ≤ hostCount s then none
            else ((List.range 256).find? fun i => (tget s.cat.hosts none (256 * leAt d 0 2 + i)).isNone && !l.contains (256 * leAt d 0 2 + i)).map
              fun i => 256 * leAt d 0 2 + i) with
      | none => reply s c (.vendor 0xE0)
      | some i => catCommand s c [.host i (some { vss := leAt d 0 2, nqn := cString ((d.drop 64).take 256), hasHost := bitAt (leAt d 3 1) 0, hasCtrl := bitAt (leAt d 3 1) 1, host := if bitAt (leAt d 3 1) 0 then (d.drop 320).take 32 else [], ctrl := if bitAt (leAt d 3 1) 1 then (d.drop 352).take 32 else [] })] 0 2 i := by
  subst hl
  refine (if_neg (by simp [hbad])).trans ((if_neg (by simpa [Option.isSome_iff_ne_none] using hvss)).trans ?_)
  rw [hop] <;> rfl

/-- The removal of a host's entry. -/
theorem hostSet_remove {s : State} {c : Cid} {d : List Byte} (hbad : hostBad d = false) (hvss : (vssOf s (leAt d 0 2)).isSome = true)
    (hop : leAt d 2 1 = 2) : hostSet s c d = match hostIndex s (leAt d 0 2) (cString ((d.drop 64).take 256)) with
      | none => reply s c (.vendor 0xE2)
      | some i => catCommand s c [.host i none] 0 2 i := by
  refine (if_neg (by simp [hbad])).trans ((if_neg (by simpa [Option.isSome_iff_ne_none] using hvss)).trans ?_)
  rw [hop]
  cases hostIndex s (leAt d 0 2) (cString ((d.drop 64).take 256)) <;> rfl

/-- A Namespace Create in an owned group and an Active subsystem (R233, R235). -/
theorem nsCreate_active {s : State} {d : List Byte} {y : VssRec} (c : Cid) (hbad : nsBad s d = false) (hfed : bitAt (leAt d 7 1) 1 = false)
    (howned : (grpOf s (leAt d 4 1)).owned = true) (hvss : vssOf s (leAt d 0 2) = some y) (hstate : y.state = .active) :
    nsCreate s c d =
      if (nsAll s).any fun x => x.2.vss == leAt d 0 2 && x.2.nsid == leAt d 2 2 then reply s c (.vendor 0xE1)
      else match freeNsNumber s, freeRun s ((leAt d 8 8 + 65535) / 65536), catWay s with
        | _, _, .refused st => reply s c st
        | some n, some first, _ =>
          let r : NsRec := { vss := leAt d 0 2, nsid := leAt d 2 2, group := leAt d 4 1, lbaf := leAt d 5 1, pi := leAt d 6 1, mirror := bitAt (leAt d 7 1) 0, fed := bitAt (leAt d 7 1) 1, nsze := leAt d 8 8, profile := leAt d 16 2, first := first, chunks := (leAt d 8 8 + 65535) / 65536 }
          match allocChunks s n r (profileK s (leAt d 16 2)) (profileM s (leAt d 16 2)) (List.range ((leAt d 8 8 + 65535) / 65536)) with
          | none => reply s c (.vendor 0xE0)
          | some s =>
            let s := if s.tdm.linkUp then (nsChunks r).foldl (fun s e => tdmSend s (.tandem 16 [e])) s else s
            createBegin s ⟨n, r, c, presentBays s r.group⟩
        | _, _, _ => reply s c (.vendor 0xE0) := by
  unfold nsCreate
  dsimp only
  rw [if_neg (by simp [hbad]), if_neg (by simp [hfed]), if_neg (by simp [howned]), hvss]
  exact if_neg (by simp [hstate])

/-- An attachment with the namespace's own controller list. -/
theorem nsAttach_named {s : State} {nsid n : Nat} {r : NsRec} (c : Cid) (cs : List Nat) (on : Bool) (h : nsNamed s nsid = some (n, r)) :
    nsAttach s c nsid cs on = if cs ≠ [r.vss] then reply s c .invalidField
      else if r.attached = on then reply s c (if on then .nsAlreadyAttached else .nsNotAttached)
      else catCommand s c [.ns n (some { r with attached := on })] 0 1 n := by
  unfold nsAttach
  rw [h]

theorem nsAttach_none {s : State} {nsid : Nat} (c : Cid) (cs : List Nat) (on : Bool) (h : nsNamed s nsid = none) :
    nsAttach s c nsid cs on = reply s c (.vendor 0xE2) := by
  unfold nsAttach
  rw [h]

/-- Each of these rows is a command of a manager, for role 0 unless it is the Catalog Read. -/
theorem exec_isManaged {s : State} {c : Cid} {d : List Byte} {w n k : Nat} {cs : List Nat} {i : Instr}
    (hi : i ∈ [Instr.vssCreate c d, .vssChangeShare c d, .vssReset c w, .vssRemove c w, .hostEntrySet c d, .namespaceCreate c d,
      .namespaceDelete c w, .namespaceAttach c w cs, .namespaceDetach c w cs, .virtualControllerReset c w, .catalogRead c w n k]) :
    ∃ r f, exec i s = .next (asManager s c r f) ∧ (r = 0 ∨ i = .catalogRead c w n k) := by
  simp only [List.mem_cons, List.not_mem_nil, or_false] at hi
  rcases hi with rfl | rfl | rfl | rfl | rfl | rfl | rfl | rfl | rfl | rfl | rfl
  iterate 10 exact ⟨_, _, rfl, .inl rfl⟩
  exact ⟨_, _, rfl, .inr rfl⟩

/-- Settles O31: each command by what it names, as one catalog change or one status. -/
theorem vssCommands : Obligations.VssCommands := by
  unfold Obligations.VssCommands
  refine ⟨?create, ?share, ?reset, ?host, ?attach, ?delete, ?nsCreate, ?read, ?vc, ?layout, ?hostNew, ?nsRefused, ?absent, ?unserved⟩
  case create =>
    rintro s c d h ⟨hlen, hshare, hnqn⟩
    refine congrArg Host.Outcome.next ((asManager_granted _ h).trans ((if_neg (by simp [hlen, hshare, hnqn])).trans ?_))
    rw [ite_bnot]
  case share =>
    rintro s c d h ⟨hlen, hshare⟩
    have hrow : exec (.vssChangeShare c d) s = .next (vssShare s c d) := congrArg Host.Outcome.next (asManager_granted _ h)
    rw [hrow, vssShare, if_neg (by simp [hlen, hshare])]
    refine ⟨fun hvss => ?_, fun o hvss hflags => ?_⟩
    · rw [hvss]
    · rw [hvss]
      dsimp only
      rw [if_neg (by simp [hflags]), ite_bnot]
  case reset =>
    intro s c w r h
    have hreset : exec (.vssReset c w) s = .next (vssReset s c (field w 0 12)) := congrArg Host.Outcome.next (asManager_granted _ h)
    have hremove : exec (.vssRemove c w) s = .next (vssRemove s c (field w 0 12)) := congrArg Host.Outcome.next (asManager_granted _ h)
    rw [hreset, hremove, vssReset, vssRemove]
    refine ⟨fun hvss => ?_, fun hvss => ?_⟩
    · rw [hvss]
      exact ⟨rfl, rfl⟩
    · rw [hvss]
      simp only [Bool.or_eq_true, decide_eq_true_eq, and_self]
  case host =>
    rintro s c d i h ⟨hbad, hvss, hindex⟩
    have hrow : exec (.hostEntrySet c d) s = .next (hostSet s c d) := congrArg Host.Outcome.next (asManager_granted _ h)
    rw [hrow]
    refine ⟨fun hop => ?_, fun hop => ?_⟩
    · rw [hostSet_remove hbad hvss hop, hindex]
    · rw [hostSet_entry hbad hvss hop rfl, hindex]
  case attach =>
    intro s c nsid n r h hnamed
    have hrow : ∀ on, asManager s c 0 (fun s => nsAttach s c nsid [r.vss] on) = _ :=
      fun on => (asManager_granted _ h).trans ((nsAttach_named c [r.vss] on hnamed).trans (if_neg (by simp)))
    refine ⟨congrArg Host.Outcome.next (hrow true), congrArg Host.Outcome.next ((hrow false).trans ?_)⟩
    cases r.attached <;> rfl
  case delete =>
    intro s c nsid n r h hnamed
    refine congrArg Host.Outcome.next ((asManager_granted _ h).trans ?_)
    rw [nsDelete, hnamed]
    simp only [Bool.or_eq_true, decide_eq_true_eq]
  case nsCreate =>
    rintro s u c d y n first r h ⟨hbad, hfed, hvss, hstate⟩ ⟨hnumber, hrun, hway, _⟩ rfl ⟨halloc, hlink⟩
    refine congrArg Host.Outcome.next ((asManager_granted _ h).trans ?_)
    cases howned : (grpOf s (leAt d 4 1)).owned with
    | false => exact (if_neg (by simp [hbad])).trans ((if_neg (by simp [hfed])).trans (if_pos (by simp [howned])))
    | true =>
      rw [nsCreate_active c hbad hfed howned hvss hstate, hnumber, hrun, hway]
      dsimp only
      rw [halloc]
      dsimp only
      simp only [hlink, Bool.false_eq_true, Bool.true_eq_false, if_false]
  case read =>
    intro s c n h
    exact ⟨congrArg Host.Outcome.next (asManager_granted _ h), congrArg Host.Outcome.next (asManager_granted _ h),
      congrArg Host.Outcome.next (asManager_granted _ h)⟩
  case vc =>
    rintro s c w y x h ⟨hvss, hof, hdisc, hk⟩
    refine congrArg Host.Outcome.next ((asManager_granted _ h).trans ?_)
    rw [vcResetCommand, hvss, hof]
    simp only [hdisc, hk, Bool.not_false, Bool.and_true, decide_true, decide_eq_true_eq]
  case layout =>
    refine fun s c d h => ⟨fun hbad => ?_, fun hbad => ?_, fun o hvss hflags hlen hshare => ?_, fun hbad => ?_, fun hbad => ?_⟩
    · exact congrArg Host.Outcome.next ((asManager_granted _ h).trans (if_pos (by simpa [or_assoc] using hbad)))
    · exact congrArg Host.Outcome.next ((asManager_granted _ h).trans (if_pos (by simpa using hbad)))
    · refine congrArg Host.Outcome.next ((asManager_granted _ h).trans ((if_neg (by simp [hlen, hshare])).trans ?_))
      rw [hvss]
      exact if_pos hflags
    · exact congrArg Host.Outcome.next ((asManager_granted _ h).trans (if_pos hbad))
    · exact congrArg Host.Outcome.next ((asManager_granted _ h).trans (if_pos hbad))
  case hostNew =>
    rintro s c d l h ⟨hbad, hl⟩
    have hrow : exec (.hostEntrySet c d) s = .next (hostSet s c d) := congrArg Host.Outcome.next (asManager_granted _ h)
    rw [hrow]
    refine ⟨fun hvss => congrArg _ ((if_neg (by simp [hbad])).trans (if_pos (by simp [hvss]))), fun hvss hindex => ?_⟩
    have hstands := Option.isSome_iff_ne_none.mpr hvss
    refine ⟨fun hop => ?_, fun hop => ?_⟩
    · rw [hostSet_remove hbad hstands hop, hindex]
    · rw [hostSet_entry hbad hstands hop hl, hindex] <;> rfl
  case nsRefused =>
    intro s c d h hbad
    have hrow : exec (.namespaceCreate c d) s = .next (nsCreate s c d) := congrArg Host.Outcome.next (asManager_granted _ h)
    rw [hrow]
    refine ⟨fun hfed hoff => ?_, fun hfed howned => ⟨fun hvss => ?_, fun y hvss hstate => ?_, fun y hvss hstate hany => ⟨fun e hway => ?_,
      fun hway hnone => ?_⟩⟩⟩
    · exact congrArg _ ((if_neg (by simp [hbad])).trans (if_pos (by simp [hfed, hoff])))
    · refine congrArg _ ((if_neg (by simp [hbad])).trans ((if_neg (by simp [hfed])).trans ((if_neg (by simp [howned])).trans ?_)))
      rw [hvss]
    · refine congrArg _ ((if_neg (by simp [hbad])).trans ((if_neg (by simp [hfed])).trans ((if_neg (by simp [howned])).trans ?_)))
      rw [hvss]
      exact if_pos hstate
    · rw [nsCreate_active c hbad hfed howned hvss hstate, if_neg (by rw [hany]; exact Bool.false_ne_true), hway]
    · rw [nsCreate_active c hbad hfed howned hvss hstate, if_neg (by rw [hany]; exact Bool.false_ne_true), hway]
      rcases hnone with hnone | hnone
      · rw [hnone]
      · rw [hnone]
        cases freeNsNumber s <;> rfl
  case absent =>
    refine fun s c nsid w n k cs hfull => ⟨fun hrole => ?_, fun hrole => ?_⟩
    · refine ⟨fun hnone => ⟨?_, ?_, ?_⟩, fun m r hnamed hcs => ⟨?_, ?_⟩, fun hnone => ?_⟩
      · exact congrArg Host.Outcome.next ((asManager_granted _ ⟨hfull, hrole⟩).trans (nsAttach_none c cs true hnone))
      · exact congrArg Host.Outcome.next ((asManager_granted _ ⟨hfull, hrole⟩).trans (nsAttach_none c cs false hnone))
      · refine congrArg Host.Outcome.next ((asManager_granted _ ⟨hfull, hrole⟩).trans ?_)
        rw [nsDelete, hnone]
      · exact congrArg Host.Outcome.next ((asManager_granted _ ⟨hfull, hrole⟩).trans ((nsAttach_named c cs true hnamed).trans (if_pos hcs)))
      · exact congrArg Host.Outcome.next ((asManager_granted _ ⟨hfull, hrole⟩).trans ((nsAttach_named c cs false hnamed).trans (if_pos hcs)))
      · refine congrArg Host.Outcome.next ((asManager_granted _ ⟨hfull, hrole⟩).trans ?_)
        rw [vcResetCommand]
        rcases hnone with hnone | hnone
        · rw [hnone]
        · rw [hnone]
          cases vssOf s (field w 0 12) <;> rfl
    · have hrow : exec (.catalogRead c 2 n k) s = .next (catalogRead s c 2 n k) :=
        congrArg Host.Outcome.next (asManager_granted _ ⟨hfull, hrole⟩)
      rw [hrow, catalogRead]
      dsimp only
      refine ⟨fun hnone => ?_, fun r hk hhost => ?_⟩
      · rcases hnone with hk | hnone
        · rw [if_pos hk]
        · rw [hnone, ite_self]
      · rw [if_neg (Nat.not_le.mpr hk), hhost] <;> rfl
  case unserved =>
    intro s c d w n k cs i hi
    obtain ⟨r, f, hrow, hrole⟩ := exec_isManaged (s := s) hi
    refine ⟨fun hfull => ?_, fun e hfull hi' he => ?_, fun e hfull he => congrArg Host.Outcome.next (asManager_refused _ hfull he)⟩
    · rw [hrow, asManager_unserved f hfull]
    · rcases hrole with rfl | hread
      · rw [hrow, asManager_refused f hfull he]
      · exact absurd hread hi'

end Sys2Proof.Machine
end

section
/-! Freezing, saving, restoring and thawing a tenant queue, and the dirty log of a subsystem (R183, R238 to R241). -/

namespace Sys2Proof.Machine

/-- A freeze with a limit in range goes by its queue (R238). -/
theorem tqFreeze_named {s : State} {c : Cid} {w l k : Nat} (hmin : 1 ≤ l) (hmax : l ≤ 10000) (h : tqNamed s w = some k) :
    tqFreeze s c w l = if (tqOf s k).frozen = true ∨ ((tqOf s k).state ≠ .active ∧ (tqOf s k).state ≠ .paused) then reply s c (.vendor 0xE3)
      else setTq s k { tqOf s k with state := .paused, frozen := true, freezer := some c } := by
  unfold tqFreeze
  rw [if_neg (by simp [show l ≠ 0 by omega, Nat.not_lt.mpr hmax]), h]
  simp only [Bool.or_eq_true, Bool.not_eq_true', Bool.or_eq_false_iff, decide_eq_false_iff_not, ne_eq]

/-- A save of a queue that has been frozen answers a part of its saved state (R239). -/
theorem tqSave_frozen {s : State} {c : Cid} {w off len k : Nat} (h : tqNamed s w = some k) (hfrozen : (tqOf s k).frozen = true)
    (hfreezer : (tqOf s k).freezer = none) (hstate : (tqOf s k).state = .paused) : tqSave s c w off len =
      if 2 ^ 20 < len || (savedState (tqOf s k)).length < off then reply s c .invalidField
      else reply (if (savedState (tqOf s k)).length ≤ off + len then tqDelete s k else s) c .success (savedState (tqOf s k)).length
        (((savedState (tqOf s k)).drop off).take len) := by
  unfold tqSave
  rw [h]
  exact if_neg (by simp [hfrozen, hfreezer, hstate])

/-- A save of any other queue is 0xEB. -/
theorem tqSave_notFrozen {s : State} {c : Cid} {w off len k : Nat} (h : tqNamed s w = some k)
    (hnot : (tqOf s k).frozen = false ∨ (tqOf s k).freezer ≠ none) : tqSave s c w off len = reply s c (.vendor 0xEB) := by
  unfold tqSave
  rw [h]
  refine if_pos ?_
  rcases hnot with hnot | hnot
  · simp [hnot]
  · simp [Option.isSome_iff_ne_none.mpr hnot]

/-- A thaw ends the freeze of a frozen queue (R240). -/
theorem tqThaw_frozen {s : State} {c : Cid} {w k : Nat} (h : tqNamed s w = some k) (hfrozen : (tqOf s k).frozen = true)
    (hstate : (tqOf s k).state = .paused) : tqThaw s c w =
      reply (joinFetch (setTq (endFreeze s k) k { tqOf (endFreeze s k) k with
        frozen := false, state := if vssStopped (endFreeze s k) (tqOf (endFreeze s k) k).vss then .paused else .active })
        (tqOf (endFreeze s k) k).vss) c .success := by
  unfold tqThaw
  rw [h]
  exact if_neg (by simp [hfrozen, hstate])

/-- No freeze that waits, none to end. -/
theorem endFreeze_none {s : State} {k : Nat} (h : (tqOf s k).freezer = none) : endFreeze s k = s := by
  unfold endFreeze
  rw [h]

/-- A number below 128 is its own low seven bits. -/
theorem field_self {n : Nat} (h : n ≤ 64) : field n 0 7 = n := by
  unfold field
  omega

/-- A part of a restore when none is kept. -/
theorem tqRestore_first {s : State} {c : Cid} {data : List Byte} (last : Bool) (hlen : data.length ≤ 2 ^ 20) (hnone : s.cfe.restore = []) :
    tqRestore s c 0 last data = if !last then reply { s with cfe := { s.cfe with restore := [⟨c.org, data⟩] } } c .success
      else tqRestored { s with cfe := { s.cfe with restore := [] } } c (data.take 64) (data.drop 64) := by
  unfold tqRestore
  dsimp only
  rw [if_pos rfl, if_neg, hnone]
  · rfl
  · simp only [List.nil_append, List.length_nil]
    simp
    omega

/-- A slot and a base in range, with ENABLE (R183). -/
theorem dlogControl_enable {s u : State} {c : Cid} {w a p : Nat} (hmin : 1 ≤ field w 0 7) (hmax : field w 0 7 ≤ 64) (hen : bitAt w 8 = true)
    (hu : u = setDlog s (field w 0 7) { dlogOf s (field w 0 7) with page2m := bitAt w 9, base := a, pages := p, overflow := false }) :
    dlogControl s c w a p =
      if p = 0 || a % (if bitAt w 9 then 2 ^ 21 else 4096) ≠ 0 then reply s c .invalidField
      else if (vssOf s (field w 16 12)).isNone then reply s c (.vendor 0xE2)
      else if (dlogOf s (field w 0 7)).enable then reply s c (.vendor 0xE3)
      else if (dlogStart u (field w 0 7)).2 then
        reply ((tenantQps (setDlog (dlogStart u (field w 0 7)).1 (field w 0 7) { dlogOf (dlogStart u (field w 0 7)).1 (field w 0 7) with vss := some (field w 16 12) }) (field w 16 12)).foldl (fun s q => setQp s q { qpOf s q with dlog := field w 0 7 }) (setDlog (dlogStart u (field w 0 7)).1 (field w 0 7) { dlogOf (dlogStart u (field w 0 7)).1 (field w 0 7) with vss := some (field w 16 12) })) c .success
      else reply (dlogStart u (field w 0 7)).1 c (.vendor 0xE0) := by
  subst hu
  exact (if_neg (by simp [show field w 0 7 ≠ 0 by omega, Nat.not_lt.mpr hmax])).trans (if_neg (by simp [hen]))

/-- Each of these rows is a command of a manager with role 0. -/
theorem exec_isTqMove {s : State} {c : Cid} {w l m n : Nat} {b : Bool} {d : List Byte} {i : Instr}
    (hi : i ∈ [Instr.tenantQueueFreeze c w l, .tenantQueueSave c w l m, .tenantQueueRestore c w b d, .tenantQueueThaw c w,
      .dirtyLogControl c w l m n, .dirtyLogHarvest c w l m]) : ∃ f, exec i s = .next (asManager s c 0 f) := by
  simp only [List.mem_cons, List.not_mem_nil, or_false] at hi
  rcases hi with rfl | rfl | rfl | rfl | rfl | rfl <;> exact ⟨_, rfl⟩

section Rows
variable {s : State} {c : Cid} (h : Manager s c 0)
include h

theorem exec_freeze_manager (w l : Nat) : exec (.tenantQueueFreeze c w l) s = .next (tqFreeze s c w l) :=
  congrArg Host.Outcome.next (asManager_granted _ h)
theorem exec_save_manager (w off len : Nat) : exec (.tenantQueueSave c w off len) s = .next (tqSave s c w off len) :=
  congrArg Host.Outcome.next (asManager_granted _ h)
theorem exec_restore_manager (off : Nat) (last : Bool) (d : List Byte) :
    exec (.tenantQueueRestore c off last d) s = .next (tqRestore s c off last d) := congrArg Host.Outcome.next (asManager_granted _ h)
theorem exec_thaw_manager (w : Nat) : exec (.tenantQueueThaw c w) s = .next (tqThaw s c w) :=
  congrArg Host.Outcome.next (asManager_granted _ h)
theorem exec_dlogControl_manager (w a b p : Nat) : exec (.dirtyLogControl c w a b p) s =
    .next (dlogControl s c w (a % 2 ^ 32 + 2 ^ 32 * (b % 2 ^ 32)) (p % 2 ^ 32)) := congrArg Host.Outcome.next (asManager_granted _ h)
theorem exec_dlogHarvest_manager (n f k : Nat) : exec (.dirtyLogHarvest c n f k) s = .next (dlogHarvestCommand s c (field n 0 7) f k) :=
  congrArg Host.Outcome.next (asManager_granted _ h)

end Rows

/-- Settles O32: each command by the queue or slot it names and where its freeze, save or restore stands. -/
theorem tenantQueueMoves : Obligations.TenantQueueMoves := by
  unfold Obligations.TenantQueueMoves
  refine ⟨?freeze, ?ends, ?save, ?part, ?last, ?thaw, ?disable, ?harvest, ?refused, ?noFreeze, ?long, ?enable, ?words, ?unserved⟩
  case freeze =>
    rintro s c w l k h ⟨hmin, hmax, hnamed⟩
    rw [exec_freeze_manager h, tqFreeze_named hmin hmax hnamed]
  case ends =>
    rintro s q i c ⟨hq, hi, hfreezer⟩
    rw [exec_tqFreezeComplete, execTqFreezeComplete, exec_tqFreezeTimeout, execTqFreezeTimeout, onQp_exists _ hq, onQp_exists _ hq,
      if_pos hi, if_pos hi, tqFrozen, tqFreezeLate]
    dsimp only
    rw [hfreezer]
    simp only [Bool.and_eq_true, decide_eq_true_eq, List.isEmpty_iff, and_assoc, and_self]
  case save =>
    intro s c w off len k h hnamed
    rw [exec_save_manager h]
    refine ⟨fun hnot => congrArg _ (tqSave_notFrozen hnamed (.inl hnot)), fun hfrozen hfreezer hstate hlen hoff => ?_⟩
    rw [tqSave_frozen hnamed hfrozen hfreezer hstate, if_neg (by simp; omega)]
  case part =>
    rintro s c data off h ⟨hlen, hoff, hnone⟩
    rw [exec_restore_manager h, exec_restore_manager h, tqRestore_first false hlen hnone]
    refine ⟨rfl, congrArg _ (if_pos ?_)⟩
    rw [if_neg hoff, hnone]
    simp [Ne.symm hoff]
  case last =>
    rintro s c data h ⟨hlen, hnone⟩
    rw [exec_restore_manager h, tqRestore_first true hlen hnone] <;> rfl
  case thaw =>
    intro s c w k h hnamed
    rw [exec_thaw_manager h]
    refine ⟨fun hnot => ?_, fun hfrozen hstate hfreezer => ⟨_, rfl, ?_⟩⟩
    · rw [tqThaw, hnamed]
      exact congrArg _ (if_pos (by simp [hnot]))
    · rw [tqThaw_frozen hnamed hfrozen hstate, endFreeze_none hfreezer]
  case disable =>
    intro s c w a b p h
    rw [exec_dlogControl_manager h]
    refine ⟨fun hslot => congrArg _ (if_pos (by simpa using hslot)), fun hmin hmax hoff => congrArg _ ((if_neg ?_).trans (if_pos (by simp [hoff])))⟩
    simp [show field w 0 7 ≠ 0 by omega, Nat.not_lt.mpr hmax]
  case harvest =>
    rintro s c n w h ⟨hmin, hmax⟩
    rw [exec_dlogHarvest_manager h, exec_dlogHarvest_manager h, field_self hmax]
    refine ⟨congrArg _ (if_neg (by simp [show n ≠ 0 by omega, Nat.not_lt.mpr hmax])), congrArg _ (if_pos (by simp))⟩
  case refused =>
    intro s c w l off len h
    rw [exec_freeze_manager h, exec_save_manager h, exec_thaw_manager h]
    refine ⟨fun hl => congrArg _ (if_pos (by simpa using hl)), fun hnone => ⟨fun hl => ?_, ?_, ?_⟩, fun k hnamed hfrozen hstate =>
      ⟨fun hwaits => congrArg _ (tqSave_notFrozen hnamed (.inr hwaits)), fun hfreezer hbad => ?_, fun f hwaits => ?_⟩⟩
    · refine congrArg _ ((if_neg (by simp; omega)).trans ?_)
      rw [hnone]
    · rw [tqSave, hnone]
    · rw [tqThaw, hnone]
    · rw [tqSave_frozen hnamed hfrozen hfreezer hstate, if_pos (by simpa using hbad)]
    · rw [tqThaw_frozen hnamed hfrozen hstate]
  case noFreeze =>
    intro s q i
    rw [exec_tqFreezeComplete, execTqFreezeComplete, exec_tqFreezeTimeout, execTqFreezeTimeout]
    refine ⟨fun hq hnone => ?_, fun hq => ⟨onQp_absent _ hq, onQp_absent _ hq⟩⟩
    rw [onQp_exists _ hq, onQp_exists _ hq]
    rcases hnone with hnone | hi
    · have hfrozen : tqFrozen s (16 * q + i) = s := by
        unfold tqFrozen
        dsimp only
        rw [hnone]
      have hlate : tqFreezeLate s (16 * q + i) = s := by
        unfold tqFreezeLate
        dsimp only
        rw [hnone]
      rw [hfrozen, hlate, ite_self]
      exact ⟨rfl, rfl⟩
    · rw [if_neg (Nat.not_lt.mpr hi), if_neg (Nat.not_lt.mpr hi)]
      exact ⟨rfl, rfl⟩
  case long =>
    intro s c data off last h hlong
    rw [exec_restore_manager h]
    refine congrArg _ (if_pos ?_)
    rw [Bool.or_eq_true, Bool.or_eq_true]
    exact .inl (.inr (decide_eq_true hlong))
  case enable =>
    rintro s u c w a p h ⟨hmin, hmax, hen, ha, hp⟩ hu
    have hbase : a % 2 ^ 32 % 2 ^ 32 + 2 ^ 32 * (a / 2 ^ 32 % 2 ^ 32) = a := by omega
    rw [exec_dlogControl_manager h, hbase, Nat.mod_eq_of_lt hp, dlogControl_enable hmin hmax hen hu]
    refine ⟨fun hbad => congrArg _ (if_pos (by simpa using hbad)), fun hpages halign => ?_⟩
    rw [if_neg (by simp only [hpages, halign, ne_eq, not_true_eq_false, decide_false, Bool.or_self, Bool.false_eq_true, not_false_eq_true])]
    refine ⟨fun hvss => congrArg _ (if_pos (by simp [hvss])), fun hvss => congrArg _ (if_neg ?_)⟩
    simpa [Option.isNone_iff_eq_none] using hvss
  case words =>
    intro s c n f k h
    rw [exec_dlogHarvest_manager h]
    refine ⟨fun hbad => congrArg _ (if_pos (by simpa [or_assoc] using hbad)), fun hmin hmax hmink hmaxk => congrArg _ (if_neg ?_)⟩
    simp
    omega
  case unserved =>
    intro s c w l m n b d i hi
    obtain ⟨f, hrow⟩ := exec_isTqMove (s := s) hi
    rw [hrow]
    exact ⟨fun hfull => congrArg _ (asManager_unserved f hfull), fun e hfull he => congrArg _ (asManager_refused f hfull he)⟩

end Sys2Proof.Machine
end

section
/-! Catalog changes between the two controllers (R225, R226, R231). -/

namespace Sys2Proof.Machine

/-- The comparison of the two catalogs leaves one of them in force (R226). -/
theorem compareDone_eq {s t : State} {k : CatCopy} (ht : t =
    if min s.cat.sync k.cat.sync < s.cat.gen ∧ (¬ min s.cat.sync k.cat.sync < k.cat.gen ∨ isSideA s = true) then
      writeEvent s { num := 0x0512, detail := [Config.code 0x0512 0, s.cat.gen, k.cat.gen] }
    else if ¬ min s.cat.sync k.cat.sync < k.cat.gen then s
    else if min s.cat.sync k.cat.sync < s.cat.gen then
      writeEvent (writeEvent (takeCopy s k) { num := 0x0512, detail := [Config.code 0x0512 1, s.cat.gen, k.cat.gen] })
        { num := 0x0513, detail := [s.cat.gen, k.cat.gen] }
    else writeEvent (takeCopy s k) { num := 0x0512, detail := [Config.code 0x0512 1, s.cat.gen, k.cat.gen] }) :
    compareDone s k = pairAfter (pairAfter { t with cat := { t.cat with sync := t.cat.gen }, tdm := { t.tdm with compared := true } } 0) 1 := by
  subst ht
  unfold compareDone
  by_cases hown : min s.cat.sync k.cat.sync < s.cat.gen <;> by_cases hother : min s.cat.sync k.cat.sync < k.cat.gen <;>
    simp [hown, hother]

/-- A change that arrives under an identifier that is pending. -/
theorem catArrive_pending {s : State} {id : Nat} {es : List CatEdit} {p : CatPend} (h : catPending s id = some p) :
    catArrive s false id es = if p.fwd && es.isEmpty then turnedAway (catUnpend s id) p
      else if p.fwd then catDone (catUnpend (tdmSend (catFollowAll s (catApply s es) es) (.tandem 7 [id])) id) p.who p.dw0 p.kind p.obj
      else tdmSend (catFollowAll s (catApply s es) es) (.tandem 7 [id]) := by
  unfold catArrive
  rw [h] <;> rfl

/-- A change that arrives under any other identifier is applied and echoed. -/
theorem catArrive_other {s : State} {id : Nat} (es : List CatEdit) (h : catPending s id = none) :
    catArrive s false id es = tdmSend (catFollowAll s (catApply s es) es) (.tandem 7 [id]) := by
  unfold catArrive
  rw [h] <;> rfl

/-- The time of a change that waits for its echo ends. -/
theorem catLate_pending {s : State} {id : Nat} {p : CatPend} (h : catPending s id = some p) : catLate s id =
    match p.who with
    | some c => reply (catUnpend { s with tdm := { s.tdm with compared := false } } id) c (.vendor 0xE6)
    | none => catUnpend { s with tdm := { s.tdm with compared := false } } id := by
  unfold catLate
  rw [h] <;> rfl

/-- Settles O33: a change by its direction and its identifier, the copy by what has advanced. -/
theorem catalogBetweenControllers : Obligations.CatalogBetweenControllers := by
  unfold Obligations.CatalogBetweenControllers
  refine ⟨?receive, ?echo, ?late, ?unknown, ?copy, ?forward, ?others, ?ends⟩
  case receive =>
    refine fun s id es => ⟨fun hlink => congrArg Host.Outcome.next (if_neg (by simp [hlink])), fun hlink hnone => ?_⟩
    exact congrArg Host.Outcome.next ((if_pos hlink).trans (catArrive_other es hnone))
  case echo =>
    rintro s id p ⟨hpend, hfwd⟩
    rw [exec_catalogEchoReceive, execCatalogEchoReceive, catEcho, hpend]
    exact congrArg _ (if_neg (by simp [hfwd]))
  case late =>
    rintro s id p c ⟨hpend, hwho⟩
    rw [exec_catalogPartnerTimeout, execCatalogPartnerTimeout, catLate_pending hpend, hwho]
  case unknown =>
    intro s id hnone
    rw [exec_catalogEchoReceive, execCatalogEchoReceive, catEcho, exec_catalogPartnerTimeout, execCatalogPartnerTimeout, catLate, hnone]
    exact ⟨rfl, rfl⟩
  case copy =>
    intro s t k hlink ht
    exact congrArg Host.Outcome.next ((if_pos hlink).trans (compareDone_eq ht))
  case forward =>
    rintro s id es t ⟨hlink, rfl⟩
    have hrow : ∀ fwd, exec (.catalogChangeReceive fwd id es) s = .next (catArrive s fwd id es) :=
      fun fwd => congrArg Host.Outcome.next (if_pos hlink)
    rw [hrow, hrow]
    refine ⟨fun hside => congrArg _ (if_pos (by simp [hside])), fun hside => congrArg _ ((if_neg (by simp [hside])).trans (ite_bnot ..)),
      fun p hpend => ?_⟩
    rw [catArrive_pending hpend]
    simp only [Bool.and_eq_true, List.isEmpty_iff]
  case others =>
    intro s id v k
    refine ⟨fun p hpend hfwd => ?_, fun p hpend hwho => ?_, fun hlink => congrArg Host.Outcome.next (if_neg (by simp [hlink])), fun hvss => ?_⟩
    · rw [exec_catalogEchoReceive, execCatalogEchoReceive, catEcho, hpend]
      exact congrArg _ (if_pos hfwd)
    · rw [exec_catalogPartnerTimeout, execCatalogPartnerTimeout, catLate_pending hpend, hwho]
    · rw [exec_vssResetDone, execVssResetDone, vssResetDone, exec_vssRemoveDone, execVssRemoveDone, vssRemoveDone, hvss]
      exact ⟨rfl, rfl⟩
  case ends =>
    intro s v r hvss
    rw [exec_vssResetDone, execVssResetDone, vssResetDone, exec_vssRemoveDone, execVssRemoveDone, vssRemoveDone, hvss]
    simp only [Bool.and_eq_true, decide_eq_true_eq, List.isEmpty_iff, and_assoc, and_self]

end Sys2Proof.Machine
end

section
/-! The steps that move a context through its lists, and the arithmetic ones (R252 to R257, R275). -/

namespace Sys2Proof.Machine

/-- A row that is a step of a context: what it does for a context away from the step, and at its step limit. -/
theorem step_elsewhere {s : State} {n opc : Nat} {w : StepW} {i : Instr} {f : Ctx → State → State}
    (hrow : exec i s = .next (runStep s n opc w f)) :
    (ctxOf s n = none → exec i s = .next s)
    ∧ (∀ c, ctxOf s n = some c → (onThread c = false ∨ stepHere s c opc w = false ∨ dataRuns s = false) → exec i s = .next s)
    ∧ (∀ c, ctxOf s n = some c → onThread c = true → stepHere s c opc w = true → dataRuns s = true → stepLimit s ≤ c.steps →
        c.cmd.isSome = true → exec i s = .next (listFault (rcAdd s 0x70010 0 1) n c)) := by
  rw [hrow]
  exact ⟨fun hnone => congrArg _ (runStep_none hnone f), fun c hof haway => congrArg _ (runStep_away hof haway f),
    fun c hof hthread hhere hruns hlimit hcmd => congrArg _ (runStep_limit hof hthread hhere hruns hlimit hcmd f)⟩

/-- What an END leaves of the writes it has committed: they count as durable where no echo is awaited any more (R252). -/
theorem endAny_command {s : State} {n : Nat} {c : Ctx} (hop : c.op = none) : endAny s n c =
    let s := if c.committed && !c.durable then durableNow s c else s
    if c.cmd.isSome && !c.done then listFault s n c
    else if c.lock = .taken then freeCtxNow (listFaultEvent s n c) n c
    else freeCtxNow s n c := by
  unfold endAny
  rw [hop] <;> rfl

/-- Settles O34: each step on its context moved on, with what it does to the place where the context goes on. -/
theorem stepControlFlow : Obligations.StepControlFlow := by
  unfold Obligations.StepControlFlow
  refine ⟨?nop, ?jmp, ?br, ?call, ?ret, ?ends, ?fail, ?wait, ?endOther, ?elsewhere⟩
  case nop => exact fun s n w c h => congrArg Host.Outcome.next (runStep_at h _)
  case jmp => exact fun s n w c h => congrArg Host.Outcome.next (runStep_at h _)
  case br => exact fun s n w c h => congrArg Host.Outcome.next (runStep_at h _)
  case call => exact fun s n w c h => congrArg Host.Outcome.next (runStep_at h _)
  case ret =>
    intro s n w c l k r h
    have hrow : exec (.ret n w) s = .next (retList (ticked s c n) n (advanced c)) := congrArg Host.Outcome.next (runStep_at h _)
    have hstack : (advanced c).stack = c.stack := rfl
    rw [hrow, retList, hstack]
    refine ⟨fun hs => ?_, fun hs => ?_⟩
    · rw [hs]
    · rw [hs]
  case ends =>
    rintro s n w c h ⟨hop, hdone, hlock⟩
    refine congrArg Host.Outcome.next ((runStep_at h _).trans ((endAny_command (c := advanced c) hop).trans ?_))
    exact (if_neg (by simp [advanced, hdone])).trans (if_neg (by simp [advanced, hlock]))
  case fail => exact fun s n w c h => congrArg Host.Outcome.next (runStep_at h _)
  case wait => exact fun s n w c h => congrArg Host.Outcome.next (runStep_at h _)
  case endOther =>
    intro s n w c h
    have hrow : exec (.end_ n w) s = .next (endAny (ticked s c n) n (advanced c)) := congrArg Host.Outcome.next (runStep_at h _)
    rw [hrow]
    refine ⟨fun op hop => congrArg _ ?_, fun hop hcmd hdone => congrArg _ ?_, fun hop hdone hlock => congrArg _ ?_,
      fun hop hdone hlock => congrArg _ ?_⟩
    · have hop' : (advanced c).op = some op := hop
      unfold endAny
      rw [hop']
    · exact (endAny_command (c := advanced c) hop).trans (if_pos (by simp [advanced, hcmd, hdone]))
    · exact (endAny_command (c := advanced c) hop).trans ((if_neg (by simp [advanced, hdone])).trans (if_pos hlock))
    · refine (endAny_command (c := advanced c) hop).trans ((if_neg ?_).trans (if_neg hlock))
      rcases hdone with hdone | hdone <;> simp [advanced, hdone]
  case elsewhere =>
    intro s n w x hx
    simp only [List.mem_cons, List.not_mem_nil, or_false] at hx
    rcases hx with rfl | rfl | rfl | rfl | rfl | rfl | rfl | rfl <;> exact step_elsewhere rfl

/-- Settles O35: each step writes its register, or the flags, of its context moved on. -/
theorem stepArithmetic : Obligations.StepArithmetic := by
  unfold Obligations.StepArithmetic
  refine ⟨?ldi, ?mov, ?add, ?addi, ?sub, ?and, ?shr, ?shl, ?cmp, ?cmpi, ?mark, ?elsewhere⟩
  case elsewhere =>
    intro s n w x hx
    simp only [List.mem_cons, List.not_mem_nil, or_false] at hx
    rcases hx with rfl | rfl | rfl | rfl | rfl | rfl | rfl | rfl | rfl | rfl | rfl <;> exact step_elsewhere rfl
  all_goals exact fun s n w c h => congrArg Host.Outcome.next (runStep_at h _)

end Sys2Proof.Machine
end

section
/-! The steps that order commands and those of the cocoon (R258, R276 to R280, R288 to R298). -/

namespace Sys2Proof.Machine

/-- TREF of a table that stands, by what the table answers for the key. -/
theorem trefStep_inRange {s : State} {n : Nat} {c : Ctx} {w : StepW} (ht : w.imm % 8 < 5) (hk : creg c w.a < tableKeys (w.imm % 8)) :
    trefStep s n c w = match tableRef s (w.imm % 8) (creg c w.a) with
      | (some v, s) => setCtx s n (some (setReg { (okHold c) with refs := c.refs ++ [(w.imm % 8, creg c w.a, v)] } w.b
          (handleOf (w.imm % 8) (creg c w.a) v)))
      | (none, s) => setCtx s n (some (failWith c .internalError)) :=
  if_neg (by simp; omega)

/-- TREF of a table or of a key that does not exist. -/
theorem trefStep_outside {s : State} {n : Nat} {c : Ctx} {w : StepW} (h : 5 ≤ w.imm % 8 ∨ tableKeys (w.imm % 8) ≤ creg c w.a) :
    trefStep s n c w = setCtx s n (some (failWith c .internalError)) :=
  if_pos (by simp; exact h)

/-- The place where COUNT's sample says the context goes on: a skid of 0 counts as 1 (R274). -/
theorem advanced_step_pred (c : Ctx) : (advanced c).step - 1 = c.step := Nat.add_sub_cancel c.step 1

/-- Settles O36: each step on its context moved on, by the condition it waits for. -/
theorem stepOrder : Obligations.StepOrder := by
  unfold Obligations.StepOrder
  refine ⟨?ilock, ?iwait, ?irel, ?nsfence, ?tref, ?tdrop, ?count, ?event, ?elsewhere⟩
  case ilock =>
    exact fun s n w c h => ⟨congrArg Host.Outcome.next (runStep_at h _), congrArg Host.Outcome.next (runStep_at h _)⟩
  case iwait =>
    intro s n w c h
    have hrow : exec (.iwait n w) s = .next (iwaitStep (ticked s c n) n (advanced c) w) := congrArg Host.Outcome.next (runStep_at h _)
    rw [hrow]
    refine ⟨fun hw => congrArg _ (if_pos hw), fun hw => congrArg _ ((if_neg hw).trans ?_)⟩
    exact ite_congr (propext (Bool.or_eq_true_iff.trans (or_congr_left decide_eq_true_iff))) (fun _ => rfl) fun _ => rfl
  case irel => exact fun s n w c h => congrArg Host.Outcome.next (runStep_at h _)
  case nsfence => exact fun s n w c h => congrArg Host.Outcome.next (runStep_at h _)
  case tref =>
    intro s n w c v u h
    have hrow : exec (.tref n w) s = .next (trefStep (ticked s c n) n (advanced c) w) := congrArg Host.Outcome.next (runStep_at h _)
    have hreg : creg (advanced c) w.a = creg c w.a := rfl
    rw [hrow]
    refine ⟨fun hout => congrArg _ (trefStep_outside hout), fun ht hk hv => ?_, fun ht hk hv => ?_⟩
    · rw [trefStep_inRange (c := advanced c) ht hk, hreg, hv] <;> rfl
    · rw [trefStep_inRange (c := advanced c) ht hk, hreg, hv]
  case tdrop =>
    rintro s n w c r h rfl
    exact congrArg Host.Outcome.next (runStep_at h _)
  case count =>
    intro s n w c k pk h
    refine congrArg Host.Outcome.next ((runStep_at h _).trans ?_)
    rw [advanced_step_pred]
  case event => exact fun s n w c h => congrArg Host.Outcome.next (runStep_at h _)
  case elsewhere =>
    intro s n w lost k pk x hx
    simp only [List.mem_cons, List.not_mem_nil, or_false] at hx
    rcases hx with rfl | rfl | rfl | rfl | rfl | rfl | rfl | rfl <;> exact step_elsewhere rfl

/-- CSTAGE that no stall holds. -/
theorem cstage_row {s u : State} {n : Nat} {w : StepW} {c : Ctx} {tk : Bool} (h : AtStep s n c 0x31 w)
    (hst : stallAt (ticked s c n) 5 (((freePage (ticked s c n)).getD 0) % 2) = (false, u)) :
    exec (.cstage n w tk) s = .next (cstageStep u n (advanced c) w tk) := by
  refine congrArg Host.Outcome.next ((runStep_at h _).trans ?_)
  dsimp only
  rw [hst] <;> rfl

/-- CSTAGE of a context without a command, or of a namespace that is gone. -/
theorem cstageStep_missing {s : State} {c : Ctx} (n : Nat) (w : StepW) (tk : Bool) (h : c.cmd = none ∨ nsOf s c.ns = none) :
    cstageStep s n c w tk = setCtx s n (some (failWith c .internalError)) := by
  unfold cstageStep
  rcases hcmd : c.cmd with _ | g <;> rcases hns : nsOf s c.ns with _ | r <;> simp_all

/-- CSTAGE of zeros, from the pages its range takes. -/
theorem cstageStep_zeros {s : State} {n : Nat} {c : Ctx} {w : StepW} {tk : Bool} {g : HostCmd} {r : NsRec} (hcmd : c.cmd = some g)
    (hns : nsOf s c.ns = some r) (hz : bitAt w.flags 1 = true) :
    cstageStep s n c w tk = match stagePages s c.vss [(rangeRec r c.ns g.slba (g.nlb + 1) 2 0 0, {})] with
      | some (s, ps) => staged s n c r ps
      | none => s := by
  unfold cstageStep
  rw [hcmd, hns]
  exact if_pos hz

/-- CSTAGE of a payload that it is staging already. -/
theorem cstageStep_again {s : State} {n : Nat} {c : Ctx} {w : StepW} {tk : Bool} {g : HostCmd} {r : NsRec} (hcmd : c.cmd = some g)
    (hns : nsOf s c.ns = some r) (hz : bitAt w.flags 1 = false) (hs : c.staging = true) :
    cstageStep s n c w tk = stageOn s n c r tk := by
  unfold cstageStep
  rw [hcmd, hns]
  exact (if_neg (by simp [hz])).trans (if_pos hs)

/-- The first CSTAGE of a payload, by the counters it is given. -/
theorem cstageStep_first {s : State} {n : Nat} {c : Ctx} {w : StepW} {tk : Bool} {g : HostCmd} {r : NsRec} (hcmd : c.cmd = some g)
    (hns : nsOf s c.ns = some r) (hz : bitAt w.flags 1 = false) (hs : c.staging = false) :
    cstageStep s n c w tk = match takeCtrs s c.ns (g.nlb + 1) with
      | (.exhausted, s) => setCtx (rcAdd s 0x90038 0 1) n (some (failWith c (.vendor 0xEF)))
      | (.wait, s) => parkRetry s n c .counter 3
      | (.from_ ctr, s') =>
        match stagePages s' c.vss ((List.range (g.nlb + 1)).map fun i =>
            (writeRec s r c.ns g.slba (g.nlb + 1) i ctr (bitAt w.flags 0) ((g.payload[i]?).getD {}), (g.payload[i]?).getD {})) with
        | some (s, ps) =>
          stageOn (noteOccupancy (keyWarn (count (count s 0x0801 none none (g.nlb + 1)) 0x0503 none (some c.vss) g.len) c.ns)) n
            { c with pages := c.pages ++ ps } r tk
        | none => s := by
  unfold cstageStep
  rw [hcmd, hns]
  exact (if_neg (by simp [hz])).trans (if_neg (by simp [hs]))

/-- A fold of operations that keep the tandem unit keeps it. -/
theorem tdm_foldl {α : Type} (f : State → α → State) (l : List α) (s : State) (h : ∀ s x, (f s x).tdm = s.tdm) :
    (l.foldl f s).tdm = s.tdm := by
  induction l generalizing s with
  | nil => rfl
  | cons x l ih => exact (ih (f s x)).trans (h s x)

@[simp] theorem supersede_tdm (s : State) (p : Nat) (r : CommitRec) : (supersede s p r).tdm = s.tdm := by
  unfold supersede
  split
  · rfl
  · refine tdm_foldl _ _ _ fun s x => ?_
    split
    · split <;> rfl
    · rfl

@[simp] theorem commitPage_tdm (s : State) (p b : Nat) (m : Bool) : (commitPage s p b m).tdm = s.tdm := by
  unfold commitPage
  dsimp only
  split
  · rfl
  · exact (supersede_tdm _ _ _).trans (count_tdm _ _ _ _ _)

/-- Whether a record is sent on is a matter of the tandem unit alone. -/
theorem mirrorSend_congr {s t : State} (r : NsRec) (h : s.tdm = t.tdm) : mirrorSend s r = mirrorSend t r := by
  simp only [mirrorSend, mirrorOn, grpOf, h]

/-- CCOMMIT while the cocoon does not protect itself, of a namespace that stands. -/
theorem ccommitStep_standing {s : State} {n : Nat} {c : Ctx} {r : NsRec} (hp : s.coc.protect = false) (hns : nsOf s c.ns = some r) :
    ccommitStep s n c =
      let ps := c.pages.filter fun p => (ownPg s p).st == .staged
      let base := nextSeq s r.group
      let m := mirrorOn s r
      let s := ps.foldl (fun s p => commitPage s p base m) (setSeq s r.group (base + ps.length))
      let s := if mirrorSend s r then ps.foldl (fun s p =>
        tdmSend s (.tandem 2 [p, match (ownPg s p).rc with | some x => x.seq | none => 0])) s else s
      setCtx s n (some { (okHold c) with committed := true, echo := if m then ps else [] }) := by
  unfold ccommitStep
  rw [hns]
  exact if_neg (by simp [hp])

/-- CCOMMIT of a namespace that is gone. -/
theorem ccommitStep_gone {s : State} {c : Ctx} (n : Nat) (hp : s.coc.protect = false) (hns : nsOf s c.ns = none) :
    ccommitStep s n c = setCtx s n (some (failWith c .internalError)) := by
  unfold ccommitStep
  rw [hns]
  exact if_neg (by simp [hp])

/-- CREAD of a range of which the cocoon holds no page: the blocks it is given have no line to check. -/
theorem creadStep_noPages {s : State} {n : Nat} {c : Ctx} (hp : cocoonPages s c.ns (ctxBlocks c) = [])
    (hb : ((ctxBlocks c).map fun b => (cocoonBlk s c.ns b).getD {}).any (fun b => b.st == 5) = false) :
    creadStep s n c [] true = setCtx (count s 0x0802 none none 0) n
      (some { (okHold c) with buf := (ctxBlocks c).map fun b => (cocoonBlk s c.ns b).getD {} }) := by
  unfold creadStep
  rw [hp]
  exact (if_neg (by simp)).trans (if_neg (Bool.eq_false_iff.mp hb))

/-- CREAD whose tag fails on a page of this controller that is fetched again: it waits for the repair. -/
theorem creadStep_repair {s : State} {n : Nat} {c : Ctx} {p : Nat} {l : List (Bool × Nat)}
    (hp : cocoonPages s c.ns (ctxBlocks c) = (false, p) :: l)
    (hf : (pageFault s false p false).coc.fetches.contains (p, false) = true) :
    creadStep s n c [] false = parkRetry (pageFault s false p false) n c .repair 3 := by
  unfold creadStep
  rw [hp]
  exact if_pos (by rw [List.any_cons]; exact Bool.or_eq_true_iff.mpr (.inl hf))

/-- CDEALLOC with the index whole, from the pages its ranges take. -/
theorem cdeallocStep_standing {s : State} {n : Nat} {c : Ctx} {g : HostCmd} {r : NsRec} (hcmd : c.cmd = some g)
    (hns : nsOf s c.ns = some r) :
    cdeallocStep s n c = if s.coc.rebuildIx then parkRetry s n c .index 3 else
      match stagePages s c.vss (g.ranges.zipIdx.map fun x =>
          (rangeRec r c.ns x.1.lba x.1.len 3 (g.ranges.length - 1) x.2, {})) with
      | some (s, ps) => staged s n c r ps
      | none => s := by
  unfold cdeallocStep
  rw [hcmd, hns] <;> rfl

/-- CDEALLOC of a context without a command, or of a namespace that is gone. -/
theorem cdeallocStep_missing {s : State} {c : Ctx} (n : Nat) (hix : s.coc.rebuildIx = false) (h : c.cmd = none ∨ nsOf s c.ns = none) :
    cdeallocStep s n c = setCtx s n (some (failWith c .internalError)) := by
  unfold cdeallocStep
  refine (if_neg (by simp [hix])).trans ?_
  rcases hcmd : c.cmd with _ | g <;> rcases hns : nsOf s c.ns with _ | r <;> simp_all

/-- Settles O37: the row of each step is its one operation on the context moved on; the cases are those of the operation. -/
theorem stepCocoon : Obligations.StepCocoon := by
  unfold Obligations.StepCocoon
  have hcommit (s : State) (n : Nat) (w : StepW) (c : Ctx) (h : AtStep s n c 0x32 w) :
      exec (.ccommit n w) s = .next (ccommitStep (ticked s c n) n (advanced c)) := congrArg Host.Outcome.next (runStep_at h _)
  have hread (s : State) (n : Nat) (w : StepW) (c : Ctx) (reads : List LineRead) (tagOk : Bool) (h : AtStep s n c 0x33 w) :
      exec (.cread n w reads tagOk) s = .next (creadStep (ticked s c n) n (advanced c) reads tagOk) :=
    congrArg Host.Outcome.next (runStep_at h _)
  have hdealloc (s : State) (n : Nat) (w : StepW) (c : Ctx) (h : AtStep s n c 0x34 w) :
      exec (.cdealloc n w) s = .next (cdeallocStep (ticked s c n) n (advanced c)) := congrArg Host.Outcome.next (runStep_at h _)
  refine ⟨?clook, ?cstage, ?zeros, ?arriving, ?first, ?commits, ?protects, ?reads, ?deallocs, ?echowait, ?commitGone, ?tagFails,
    ?deallocGone, ?total, ?elsewhere⟩
  case clook =>
    intro s n w c bad h
    exact congrArg Host.Outcome.next ((runStep_at h _).trans (ite_congr (by simp) (fun _ => rfl) fun _ => rfl))
  case cstage =>
    intro s n w c tk u h hst
    rw [cstage_row h hst]
    refine ⟨fun hgone => congrArg _ (cstageStep_missing n w tk hgone), fun g r hcmd hns hz hs => congrArg _ ?_,
      fun g r v hcmd hns hz hs hv => ?_, fun g r v hcmd hns hz hs hv => ?_⟩
    · exact cstageStep_again (c := advanced c) hcmd hns hz hs
    · have hns' : (advanced c).ns = c.ns := rfl
      rw [cstageStep_first (c := advanced c) hcmd hns hz hs, hns', hv]
    · have hns' : (advanced c).ns = c.ns := rfl
      rw [cstageStep_first (c := advanced c) hcmd hns hz hs, hns', hv]
  case zeros =>
    rintro s n w c tk u v g r ps h ⟨hst, hcmd, hns, hz⟩ hps
    have hns' : (advanced c).ns = c.ns := rfl
    have hvss : (advanced c).vss = c.vss := rfl
    rw [cstage_row h hst, cstageStep_zeros (c := advanced c) hcmd hns hz, hns', hvss, hps]
  case arriving =>
    rintro s n c r tk rfl
    refine ⟨fun hw hc => if_pos (by simp [hw, hc]), fun hw hc => ?_, fun hw => ?_⟩
    · exact (if_neg (by simp [hc])).trans (if_pos (by simp [hw]))
    · exact (if_neg (by simp [hw])).trans ((if_neg (by simp [hw])).trans (if_pos rfl))
  case first =>
    rintro s n w c tk g r k t u v ps h ⟨hst, hcmd, hns, hz, hs⟩ hk hps
    have hns' : (advanced c).ns = c.ns := rfl
    have hvss : (advanced c).vss = c.vss := rfl
    rw [cstage_row h hst, cstageStep_first (c := advanced c) hcmd hns hz hs, hns', hvss, hk]
    dsimp only
    rw [hps]
    rfl
  case commits =>
    rintro s n w c r ps b h ⟨hp, hns⟩ ⟨rfl, rfl⟩ hm
    refine (hcommit s n w c h).trans (congrArg _ ((ccommitStep_standing (c := advanced c) hp hns).trans ?_))
    refine congrArg (setCtx · n _) (if_neg (Bool.eq_false_iff.mp ((mirrorSend_congr r ?_).trans hm)))
    exact (tdm_foldl _ _ _ fun s p => commitPage_tdm s p _ _).trans (tdm_foldl _ _ _ fun s p => commitPage_tdm s p _ _).symm
  case protects => exact fun s n w c h hp => (hcommit s n w c h).trans (congrArg _ (if_pos hp))
  case reads => exact fun s n w c h hp hb => (hread s n w c [] true h).trans (congrArg _ (creadStep_noPages (c := advanced c) hp hb))
  case deallocs =>
    rintro s n w c g r v ps h ⟨hcmd, hns⟩ hps
    have hns' : (advanced c).ns = c.ns := rfl
    have hvss : (advanced c).vss = c.vss := rfl
    rw [hdealloc s n w c h, cdeallocStep_standing (c := advanced c) hcmd hns, hns', hvss, hps]
  case echowait =>
    intro s n w c h
    refine congrArg Host.Outcome.next ((runStep_at h _).trans (ite_congr ?_ (fun _ => rfl) fun _ => rfl))
    simp [advanced]
  case commitGone => exact fun s n w c h hg => (hcommit s n w c h).trans (congrArg _ (ccommitStep_gone (c := advanced c) n hg.1 hg.2))
  case tagFails =>
    rintro s n w c m p l h hp ⟨rfl, hf⟩
    exact (hread s n w c [] false h).trans (congrArg _ (creadStep_repair (c := advanced c) hp hf))
  case deallocGone =>
    exact fun s n w c h hg => (hdealloc s n w c h).trans (congrArg _ (cdeallocStep_missing (c := advanced c) n hg.1 hg.2))
  case total =>
    intro s n w c reads tagOk x hx h
    simp only [List.mem_cons, List.not_mem_nil, or_false] at hx
    rcases hx with rfl | rfl | rfl
    · exact hcommit s n w c h
    · exact hread s n w c reads tagOk h
    · exact hdealloc s n w c h
  case elsewhere =>
    intro s n w bad tagOk reads x hx
    simp only [List.mem_cons, List.not_mem_nil, or_false] at hx
    rcases hx with rfl | rfl | rfl | rfl | rfl | rfl <;> exact step_elsewhere rfl

/-- PICHK of a command whose blocks are whole, by the first block that fails a check. -/
theorem pichkStep_blocks {s : State} {n : Nat} {c : Ctx} {g : HostCmd} {r : NsRec} (hcmd : c.cmd = some g) (hns : nsOf s c.ns = some r)
    (hw : c.opc = 1 → c.whole = true) :
    pichkStep s n c =
      match (((if c.opc = 1 then g.payload.map (fun b => ({ st := 3, blk := b } : BufBlk)) else c.buf).zipIdx.map fun x =>
          piFails r.pi g.prchk (creg c 7 % 2 ^ 32) (field (creg c 7) 32 16) (field (creg c 7) 48 16) x.2 x.1).find? (· != 0)) with
      | none => setCtx s n (some (okHold c))
      | some 1 => setCtx (rcAdd s 0x9002C 0 1) n (some (failWith c .guardCheck))
      | some 2 => setCtx (rcAdd s 0x90030 0 1) n (some (failWith c .appTagCheck))
      | some _ => setCtx (rcAdd s 0x90034 0 1) n (some (failWith c .refTagCheck)) := by
  unfold pichkStep
  rw [hcmd, hns]
  refine (if_neg ?_).trans rfl
  rw [Bool.and_eq_true, beq_iff_eq, Bool.not_eq_true']
  rintro ⟨hop, hwhole⟩
  exact Bool.noConfusion ((hw hop).symm.trans hwhole)

/-- PICHK of a context with no command, or whose namespace is gone, once its payload is whole. -/
theorem pichkStep_missing {s : State} {c : Ctx} (n : Nat) (hw : c.opc ≠ 1 ∨ c.whole = true) (h : c.cmd = none ∨ nsOf s c.ns = none) :
    pichkStep s n c = setCtx s n (some (okHold c)) := by
  unfold pichkStep
  refine (if_neg (by rcases hw with hw | hw <;> simp [hw])).trans ?_
  rcases hcmd : c.cmd with _ | g <;> rcases hns : nsOf s c.ns with _ | r <;> simp_all

/-- HREAD and HWRITE of a command of the fabric: one message on its queue pair. -/
theorem hreadStep_fabric {s : State} {n : Nat} {c : Ctx} {w : StepW} (h : ctxFn c = none) :
    hreadStep s n c w = parkCtx (sendMsg s (hostQp c)
      { kind := .read, len := creg c 2, va := creg c 3, rkey := creg c 4 % 2 ^ 32, ctx := some n }) n c .host w.tmo := by
  unfold hreadStep
  rw [h]

/-- HREAD of a command of a function: its DMA reads, while it may issue them. -/
theorem hreadStep_function {s : State} {n k : Nat} {c : Ctx} {w : StepW} (h : ctxFn c = some k) :
    hreadStep s n c w = if fnDmaOn s k then
      parkCtx (setFn s k { fnOf s k with dma := (fnOf s k).dma ++ [(tagOfInstar (fnOf s k).instar, n)] }) n c .host w.tmo
    else setCtx (rcAdd s 0xD0018 0 1) n (some (setReg { c with flg := flgPark c.flg false false false } 15
      (statusWord .dataTransferError))) := by
  unfold hreadStep
  rw [h]

/-- HWRITE of a command of the fabric: the buffer by one RDMA WRITE. -/
theorem hwriteStep_fabric {s : State} {n : Nat} {c : Ctx} (h : ctxFn c = none) :
    hwriteStep s n c = setCtx (sendMsg (count (emit s (.hostWrite (hostQp c) (creg c 3) (creg c 4 % 2 ^ 32) (c.buf.map BufBlk.blk)))
      0x0504 none (some c.vss) (creg c 2)) (hostQp c)
      { kind := .write, len := creg c 2, va := creg c 3, rkey := creg c 4 % 2 ^ 32, ctx := some n }) n (some (okHold c)) := by
  unfold hwriteStep
  rw [h]

/-- HWRITE of a command of a function: the buffer by DMA, while it may issue it. -/
theorem hwriteStep_function {s : State} {n k : Nat} {c : Ctx} (h : ctxFn c = some k) :
    hwriteStep s n c = if fnDmaOn s k then
      setCtx (count (emit s (.hostWrite (hostQp c) (creg c 3) (creg c 4 % 2 ^ 32) (c.buf.map BufBlk.blk)))
        0x0504 none (some c.vss) (creg c 2)) n (some (okHold c))
    else setCtx (rcAdd s 0xD0018 0 1) n (some (failWith c .dataTransferError)) := by
  unfold hwriteStep
  rw [h]

/-- COMPARE with its host data whole. -/
theorem compareStep_whole {s : State} {n : Nat} {c : Ctx} (h : c.whole = true) :
    compareStep s n c = setCtx s n (some (if ((c.buf.zip ((c.cmd.map (·.payload)).getD [])).all fun x =>
        if condHolds s c 13 then x.1.blk == x.2 else x.1.blk.data == x.2.data)
      && c.buf.length == ((c.cmd.map (·.payload)).getD []).length then okHold c else failWith c .compareFailure)) := by
  unfold compareStep
  refine (if_neg (by simp [h])).trans ?_
  cases c.cmd <;> rfl

/-- Settles O38: each step on its context moved on, by where the command comes from and what its blocks pass. -/
theorem stepHost : Obligations.StepHost := by
  unfold Obligations.StepHost
  have hread (s : State) (n : Nat) (w : StepW) (c : Ctx) (h : AtStep s n c 0x40 w) :
      exec (.hread n w) s = .next (hreadStep (ticked s c n) n (advanced c) w) := congrArg Host.Outcome.next (runStep_at h _)
  have hwrite (s : State) (n : Nat) (w : StepW) (c : Ctx) (h : AtStep s n c 0x41 w) :
      exec (.hwrite n w) s = .next (hwriteStep (ticked s c n) n (advanced c)) := congrArg Host.Outcome.next (runStep_at h _)
  have hcheck (s : State) (n : Nat) (w : StepW) (c : Ctx) (h : AtStep s n c 0x44 w) :
      exec (.pichk n w) s = .next (pichkStep (ticked s c n) n (advanced c)) := congrArg Host.Outcome.next (runStep_at h _)
  have hcmp (s : State) (n : Nat) (w : StepW) (c : Ctx) (h : AtStep s n c 0x43 w) :
      exec (.compare n w) s = .next (compareStep (ticked s c n) n (advanced c)) := congrArg Host.Outcome.next (runStep_at h _)
  refine ⟨?reads, ?writes, ?writesFn, ?cpl, ?compares, ?pichk, ?pichkBlocks, ?readsFn, ?elsewhere⟩
  case reads => exact fun s n w c h hf => (hread s n w c h).trans (congrArg _ (hreadStep_fabric (c := advanced c) hf))
  case writes => exact fun s n w c h hf => (hwrite s n w c h).trans (congrArg _ (hwriteStep_fabric (c := advanced c) hf))
  case writesFn =>
    intro s n w c k h hf
    rw [hwrite s n w c h]
    refine ⟨fun hd => congrArg _ ?_, fun hd => congrArg _ ?_⟩
    · exact (hwriteStep_function (c := advanced c) hf).trans (if_pos hd)
    · exact (hwriteStep_function (c := advanced c) hf).trans (if_neg (by simp [hd]))
  case cpl => exact fun s n w c h => congrArg Host.Outcome.next (runStep_at h _)
  case compares =>
    intro s n w c h
    rw [hcmp s n w c h]
    refine ⟨fun hw => congrArg _ (if_pos (by simp [advanced, hw])), ?_⟩
    rintro hw p rfl
    exact congrArg _ (compareStep_whole (c := advanced c) hw)
  case pichk =>
    intro s n w c h
    rw [hcheck s n w c h]
    refine ⟨fun hop hw => congrArg _ (if_pos (by simp [advanced, hop, hw])), fun hw hgone => congrArg _ ?_⟩
    exact pichkStep_missing (c := advanced c) n hw hgone
  case pichkBlocks =>
    rintro s n w c g r bs h ⟨hcmd, hns, hw⟩ rfl
    exact (hcheck s n w c h).trans (congrArg _ ((pichkStep_blocks (c := advanced c) hcmd hns hw).trans rfl))
  case readsFn =>
    intro s n w c k h hf
    rw [hread s n w c h]
    refine ⟨fun hd => congrArg _ ?_, fun hd => congrArg _ ?_⟩
    · exact (hreadStep_function (c := advanced c) hf).trans (if_pos hd)
    · exact (hreadStep_function (c := advanced c) hf).trans (if_neg (by simp [hd]))
  case elsewhere =>
    intro s n w x hx
    simp only [List.mem_cons, List.not_mem_nil, or_false] at hx
    rcases hx with rfl | rfl | rfl | rfl | rfl <;> exact step_elsewhere rfl

end Sys2Proof.Machine
end

section
/-! The steps that read and write the drives, and what resumes, starts and times out the contexts (R250 to R274, R324 to R337). -/

namespace Sys2Proof.Machine

/-- MAP of chunks whose entries are whole: the references it takes. -/
theorem mapRefs_whole {s : State} {n : Nat} {c : Ctx} {es : List Nat} (h : (es.any fun e => s.xfm.reload.contains e) = false) :
    mapRefs s n c es = setCtx (es.foldl mapRef (s, [])).1 n (some { (okHold c) with refs := c.refs ++ (es.foldl mapRef (s, [])).2 }) :=
  if_neg (Bool.eq_false_iff.mp h)

/-- DREAD of a host read that finds room. -/
theorem dreadStep_issued {s u : State} {n : Nat} {c : Ctx} {w : StepW} {rows : List RowRead}
    (h : issueRds s c.refs n .host (mergeRd (dreadPlan s c.refs c.ns c.buf rows (ctxBlocks c)).1) = some u) :
    dreadStep s n c w rows = parkReads (rcAdd u 0x90028 0 (dreadPlan s c.refs c.ns c.buf rows (ctxBlocks c)).2.2) n
      { c with buf := (dreadPlan s c.refs c.ns c.buf rows (ctxBlocks c)).2.1 } .drives w.tmo
      (mergeRd (dreadPlan s c.refs c.ns c.buf rows (ctxBlocks c)).1).length := by
  unfold dreadStep
  dsimp only
  rw [h]

/-- DREAD of a host read that finds none. -/
theorem dreadStep_full {s : State} {n : Nat} {c : Ctx} {w : StepW} {rows : List RowRead}
    (h : issueRds s c.refs n .host (mergeRd (dreadPlan s c.refs c.ns c.buf rows (ctxBlocks c)).1) = none) :
    dreadStep s n c w rows = s := by
  unfold dreadStep
  dsimp only
  rw [h]

/-- DREAD of a flush that finds room for the reads of its stripe. -/
theorem dreadOp_flush_issued {s u : State} {n e k : Nat} {c : Ctx} {w : StepW} {ps : List (Bool × Nat)}
    (h : issueRds s c.refs n (useOf c) (mergeRd (opReads s c.refs (.flush e k ps))) = some u) :
    dreadOp s n c w (.flush e k ps) = parkReads u n c .drives w.tmo (mergeRd (opReads s c.refs (.flush e k ps))).length := by
  unfold dreadOp
  dsimp only
  rw [h]

/-- DREAD of a hosted request that is gone. -/
theorem dreadOp_inbound_gone {s : State} {n q k : Nat} {c : Ctx} {w : StepW} (h : hostedOf s q k = none) :
    dreadOp s n c w (.inbound q k) = setCtx s n (some (okHold c)) := by
  unfold dreadOp
  dsimp only
  rw [h]

/-- RECON that finds no room. -/
theorem reconStep_full {s : State} {n : Nat} {c : Ctx} {w : StepW} {rows : List RowRead}
    (h : issueRds s c.refs n .host (mergeRd (reconPlan s c.refs c.ns c.buf rows (ctxBlocks c)).1) = none) :
    reconStep s n c w rows = s := by
  unfold reconStep
  dsimp only
  rw [h]

/-- RECON that finds room for what its plan names. -/
theorem reconStep_issued {s u : State} {n : Nat} {c : Ctx} {w : StepW} {rows : List RowRead}
    (h : issueRds s c.refs n .host (mergeRd (reconPlan s c.refs c.ns c.buf rows (ctxBlocks c)).1) = some u) :
    reconStep s n c w rows =
      let rds := mergeRd (reconPlan s c.refs c.ns c.buf rows (ctxBlocks c)).1
      let c := { c with plan := (reconPlan s c.refs c.ns c.buf rows (ctxBlocks c)).2 }
      if rds.isEmpty then reconArrive (parkCtx u n c .recon w.tmo) n c
      else parkCtx u n { c with out := rds.length, bad := false } .recon w.tmo := by
  unfold reconStep
  dsimp only
  rw [h]

/-- DWRITE of an operation of this shelf. -/
theorem dwriteStep_own {s : State} {n : Nat} {c : Ctx} {w : StepW} (h : ∀ q k, c.op ≠ some (.inbound q k)) :
    dwriteStep s n c w = writeGroups s n c w.tmo (stripGroups s c false) .writes := by
  unfold dwriteStep
  split
  case h_1 q k hop => exact absurd hop (h q k)
  case h_2 => rfl

/-- DWRITE of a hosted request that is gone. -/
theorem dwriteStep_gone {s : State} {n q k : Nat} {c : Ctx} {w : StepW} (hop : c.op = some (.inbound q k)) (h : hostedOf s q k = none) :
    dwriteStep s n c w = setCtx s n (some (okHold c)) := by
  unfold dwriteStep
  rw [hop]
  dsimp only
  rw [h]

/-- DWRITE of a hosted request that its spoke takes. -/
theorem dwriteStep_hosted {s u : State} {n q k : Nat} {c : Ctx} {w : StepW} {g : Hosted} (hop : c.op = some (.inbound q k))
    (h : hostedOf s q k = some g) (hr : g.reading = false) (hw : hostedWrite s n g = (u, true)) :
    dwriteStep s n c w = parkCtx u n { c with out := 1, bad := false } .writes w.tmo := by
  unfold dwriteStep
  rw [hop]
  dsimp only
  rw [h]
  refine (if_neg (by simp [hr])).trans ?_
  rw [hw]

/-- PARITY of a flush, by what its stripe encodes to. -/
theorem parityStep_flush {s : State} {n e k : Nat} {c : Ctx} {ps : List (Bool × Nat)} {olds : List DriveBlk}
    (hop : c.op = some (.flush e k ps)) :
    parityStep s n c olds = match encodeRows s (opRows s c.refs (.flush e k ps)) olds with
      | some (l, ms) => setCtx (lostPages (countStripes s ms) ps) n
          (some { (okHold c) with strips := writableStrips (lostPages (countStripes s ms) ps) c.refs l none })
      | none => setCtx s n (some (failWith c .unrecoveredRead)) := by
  unfold parityStep
  rw [hop] <;> rfl

/-- PARITY of a range record, by what its partly covered stripes encode to. -/
theorem parityStep_range {s : State} {n p : Nat} {c : Ctx} {m : Bool} {sts : List (Nat × Nat)} {olds : List DriveBlk}
    (hop : c.op = some (.range m p sts)) :
    parityStep s n c olds = match encodeRows s (opRows s c.refs (.range m p sts)) olds with
      | some (l, ms) => setCtx (countStripes s ms) n (some { (okHold c) with
          strips := writableStrips (countStripes s ms) c.refs (remoteZeros s c.refs m p sts ++ l) none })
      | none => setCtx s n (some (failWith c .unrecoveredRead)) := by
  unfold parityStep
  rw [hop] <;> rfl

/-- PARITY of a context with no operation. -/
theorem parityStep_none {s : State} {n : Nat} {c : Ctx} {olds : List DriveBlk} (hop : c.op = none) :
    parityStep s n c olds = setCtx s n (some (okHold c)) := by
  unfold parityStep
  rw [hop]

/-- DZERO of a range record with no whole stripe to deallocate. -/
theorem dzeroStep_noWhole {s : State} {n p : Nat} {c : Ctx} {w : StepW} {m : Bool} {sts : List (Nat × Nat)} {r : CommitRec}
    (hop : c.op = some (.range m p sts)) (hrc : (anyPg s m p).rc = some r) (h : (rangeSplit s c.refs r sts).1 = []) :
    dzeroStep s n c w = setCtx s n (some { c with committed := true, flg := flgPark c.flg true false false }) := by
  unfold dzeroStep
  rw [hop]
  dsimp only
  rw [hrc]
  dsimp only
  rw [h] <;> rfl

/-- DZERO of a range whose record is gone. -/
theorem dzeroStep_gone {s : State} {n p : Nat} {c : Ctx} {w : StepW} {m : Bool} {sts : List (Nat × Nat)}
    (hop : c.op = some (.range m p sts)) (hrc : (anyPg s m p).rc = none) : dzeroStep s n c w = setCtx s n (some (okHold c)) := by
  unfold dzeroStep
  rw [hop]
  dsimp only
  rw [hrc]

/-- DZERO of an operation without a range. -/
theorem dzeroStep_other {s : State} {n : Nat} {c : Ctx} {w : StepW} (h : ∀ m p sts, c.op ≠ some (.range m p sts)) :
    dzeroStep s n c w = setCtx s n (some (okHold c)) := by
  unfold dzeroStep
  split
  case h_1 m p sts hop => exact absurd hop (h m p sts)
  case h_2 => rfl

/-- CRELEASE of a flush: it clears the records of its pages once it is durable. -/
theorem creleaseStep_flush {s : State} {n e k : Nat} {c : Ctx} {ps : List (Bool × Nat)} (hop : c.op = some (.flush e k ps)) :
    creleaseStep s n c =
      if c.durable then setCtx (ps.foldl releaseFlushed s) n (some { (okHold c) with op := some (.flush e k []) })
      else setCtx s n (some (okHold c)) := by
  unfold creleaseStep
  rw [hop]

/-- CRELEASE of a range record: it releases its page once the record is applied whole. -/
theorem creleaseStep_range {s : State} {n p : Nat} {c : Ctx} {m : Bool} {sts : List (Nat × Nat)} {r : CommitRec}
    (hop : c.op = some (.range m p sts)) (hrc : (anyPg s m p).rc = some r) :
    creleaseStep s n c =
      if ((rangeSplit s c.refs r sts).1.isEmpty || c.committed)
        && (((rangeSplit s c.refs r sts).2.isEmpty && (remoteZeros s c.refs m p sts).isEmpty) || c.durable)
      then setCtx (releaseFlushed (vacate s (.range m p sts)) (m, p)) n (some { (okHold c) with op := some .nothing })
      else setCtx s n (some (okHold c)) := by
  unfold creleaseStep
  rw [hop]
  dsimp only
  rw [hrc]

/-- CRELEASE of a context with no operation. -/
theorem creleaseStep_none {s : State} {n : Nat} {c : Ctx} (hop : c.op = none) : creleaseStep s n c = setCtx s n (some (okHold c)) := by
  unfold creleaseStep
  rw [hop]

/-- Settles O39: the row of each step is its one operation on the context moved on; the cases are those of the operation. -/
theorem stepDrives : Obligations.StepDrives := by
  unfold Obligations.StepDrives
  have hop (c : Ctx) : (advanced c).op = c.op := rfl
  have hmap (s : State) (n : Nat) (w : StepW) (c : Ctx) (r : MapRead) (h : AtStep s n c 0x50 w) :
      exec (.map n w r) s = .next (mapStep (ticked s c n) n (advanced c) r) := congrArg Host.Outcome.next (runStep_at h _)
  have hread (s : State) (n : Nat) (w : StepW) (c : Ctx) (rows : List RowRead) (h : AtStep s n c 0x51 w) :
      exec (.dread n w rows) s = .next (match c.op with
        | some op => dreadOp (ticked s c n) n (advanced c) w op
        | none => dreadStep (ticked s c n) n (advanced c) w rows) := congrArg Host.Outcome.next ((runStep_at h _).trans rfl)
  have hverify (s : State) (n : Nat) (w : StepW) (c : Ctx) (found : List DriveBlk) (h : AtStep s n c 0x52 w) :
      exec (.dverify n w found) s = .next (dverifyStep (ticked s c n) n (advanced c) w found) := congrArg Host.Outcome.next (runStep_at h _)
  have hrecon (s : State) (n : Nat) (w : StepW) (c : Ctx) (rows : List RowRead) (h : AtStep s n c 0x53 w) :
      exec (.recon n w rows) s = .next (reconStep (ticked s c n) n (advanced c) w rows) := congrArg Host.Outcome.next (runStep_at h _)
  have hwrite (s : State) (n : Nat) (w : StepW) (c : Ctx) (h : AtStep s n c 0x54 w) :
      exec (.dwrite n w) s = .next (dwriteStep (ticked s c n) n (advanced c) w) := congrArg Host.Outcome.next (runStep_at h _)
  have hparity (s : State) (n : Nat) (w : StepW) (c : Ctx) (olds : List DriveBlk) (h : AtStep s n c 0x55 w) :
      exec (.parity n w olds) s = .next (parityStep (ticked s c n) n (advanced c) olds) := congrArg Host.Outcome.next (runStep_at h _)
  have hzero (s : State) (n : Nat) (w : StepW) (c : Ctx) (h : AtStep s n c 0x56 w) :
      exec (.dzero n w) s = .next (dzeroStep (ticked s c n) n (advanced c) w) := congrArg Host.Outcome.next (runStep_at h _)
  have hrelease (s : State) (n : Nat) (w : StepW) (c : Ctx) (h : AtStep s n c 0x58 w) :
      exec (.crelease n w) s = .next (creleaseStep (ticked s c n) n (advanced c)) := congrArg Host.Outcome.next (runStep_at h _)
  refine ⟨?maps, ?reads, ?readsOp, ?verifies, ?recons, ?writes, ?parityFlush, ?parityRange, ?zeroes, ?frags, ?releases, ?total, ?elsewhere⟩
  case maps =>
    intro s n w c a h
    rw [hmap s n w c .good h, hmap s n w c (.entryLost a) h, hmap s n w c (.tableLost a) h]
    exact ⟨fun hr => congrArg _ (if_pos hr), fun hr => congrArg _ (mapRefs_whole (c := advanced c) hr), rfl, rfl⟩
  case reads =>
    intro s n w c rows h hnone
    rw [hread s n w c rows h, hnone]
    exact ⟨fun u hu => congrArg _ (dreadStep_issued (c := advanced c) hu), fun hu => congrArg _ (dreadStep_full (c := advanced c) hu)⟩
  case readsOp =>
    intro s n w c rows op h hsome
    rw [hread s n w c rows h, hsome]
    refine ⟨rfl, ?_, ?_⟩
    · rintro e k ps u rfl hu
      exact congrArg _ (dreadOp_flush_issued (c := advanced c) hu)
    · rintro q k rfl hgone
      exact congrArg _ (dreadOp_inbound_gone hgone)
  case verifies =>
    rintro s n w c found buf u h rfl rfl
    rw [hverify s n w c found h]
    refine ⟨fun hfirst => congrArg _ ?_, fun hagain hok => congrArg _ ?_, fun hagain hbad => congrArg _ ?_⟩
    · have hns : (advanced c).ns = c.ns := rfl
      have hbuf : (advanced c).buf = c.buf := rfl
      cases hok : (verifyBufs (ticked s c n) c.ns c.buf found).all fun b => b.st == 1 || b.st == 3 <;>
        simp only [dverifyStep, hfirst, hns, hbuf, hok] <;> rfl
    · have hok' : (verifyBufs (ticked s c n) (advanced c).ns (advanced c).buf found).all (fun b => b.st == 1 || b.st == 3) = true := hok
      simp only [dverifyStep, hagain, hok']
      rfl
    · have hbad' : (verifyBufs (ticked s c n) (advanced c).ns (advanced c).buf found).all (fun b => b.st == 1 || b.st == 3) = false := hbad
      simp only [dverifyStep, hagain, hbad']
      rfl
  case recons =>
    rintro s n w c rows pl h rfl
    rw [hrecon s n w c rows h]
    refine ⟨fun hu => congrArg _ (reconStep_full (c := advanced c) hu), fun u hu he => congrArg _ ?_, fun u hu he => congrArg _ ?_⟩
    · exact (reconStep_issued (c := advanced c) hu).trans (if_pos he)
    · exact (reconStep_issued (c := advanced c) hu).trans (if_neg (Bool.eq_false_iff.mp he))
  case writes =>
    intro s n w c q k g u h
    rw [hwrite s n w c h]
    exact ⟨fun hown => congrArg _ (dwriteStep_own (c := advanced c) hown),
      fun hin hgone => congrArg _ (dwriteStep_gone (c := advanced c) hin hgone),
      fun hin hg hr hw => congrArg _ (dwriteStep_hosted (c := advanced c) hin hg hr hw)⟩
  case parityFlush =>
    intro s n w c e k ps olds h hf
    have hrefs : (advanced c).refs = c.refs := rfl
    rw [hparity s n w c olds h, parityStep_flush (c := advanced c) hf, hrefs]
    refine ⟨fun l ms hl => ?_, fun hl => ?_⟩ <;> rw [hl]
  case parityRange =>
    intro s n w c m p sts olds h
    have hrefs : (advanced c).refs = c.refs := rfl
    rw [hparity s n w c olds h]
    refine ⟨fun l ms hr hl => ?_, fun hr hl => ?_, fun hnone => congrArg _ (parityStep_none (c := advanced c) hnone)⟩
    · rw [parityStep_range (c := advanced c) hr, hrefs, hl]
    · rw [parityStep_range (c := advanced c) hr, hrefs, hl]
  case zeroes =>
    intro s n w c m p sts r h
    rw [hzero s n w c h]
    exact ⟨fun hr hrc hsp => congrArg _ (dzeroStep_noWhole (c := advanced c) hr hrc hsp),
      fun hr hrc => congrArg _ (dzeroStep_gone (c := advanced c) hr hrc),
      fun hother => congrArg _ (dzeroStep_other (c := advanced c) hother)⟩
  case frags => exact fun s n w c h => congrArg Host.Outcome.next (runStep_at h _)
  case releases =>
    intro s n w c e k ps m p sts r h
    rw [hrelease s n w c h]
    exact ⟨fun hf => congrArg _ (creleaseStep_flush (c := advanced c) hf),
      fun hr hrc => congrArg _ (creleaseStep_range (c := advanced c) hr hrc),
      fun hnone => congrArg _ (creleaseStep_none (c := advanced c) hnone)⟩
  case total =>
    intro s n w c olds x hx h
    simp only [List.mem_cons, List.not_mem_nil, or_false] at hx
    rcases hx with rfl | rfl | rfl | rfl
    · exact hwrite s n w c h
    · exact hparity s n w c olds h
    · exact hzero s n w c h
    · exact hrelease s n w c h
  case elsewhere =>
    intro s n w r rows found olds x hx
    simp only [List.mem_cons, List.not_mem_nil, or_false] at hx
    rcases hx with rfl | rfl | rfl | rfl | rfl | rfl | rfl | rfl | rfl <;> exact step_elsewhere rfl

end Sys2Proof.Machine
end

section
/-! What resumes, starts and times out the contexts of the sequencers (R250, R254, R255, R260 to R274). -/

namespace Sys2Proof.Machine

/-- A core's next context is the first ready one whose class may have a thread now. -/
theorem nextReady_eq (s : State) (k : Nat) : nextReady s k = (readyQ s k).find? (readyFor s k) := rfl

/-- With no context ready nothing is resumed, whatever would be lost on the way. -/
theorem resumeRead_none {s : State} {k : Nat} (l : Option ResumeLoss) (h : nextReady s k = none) : resumeRead s k l = s := by
  have hcore : resumeCore s k = s := by
    unfold resumeCore
    rw [h]
  cases l <;> simp only [resumeRead, h, hcore]

/-- The next context on its core, with nothing lost on the way. -/
theorem resumeCore_next {s : State} {k n : Nat} {c : Ctx} (h : nextReady s k = some n) (hof : ctxOf s n = some c) :
    resumeCore s k = bindThread (setReadyQ s k ((readyQ s k).filter (· != n))) n c := by
  unfold resumeCore
  rw [h]
  dsimp only
  rw [hof]

/-- The next context on its core, with a loss on the way. -/
theorem resumeRead_lost {s : State} {k n : Nat} {c : Ctx} (l : ResumeLoss) (h : nextReady s k = some n) (hof : ctxOf s n = some c) :
    resumeRead s k (some l) = resumeLost s k n c l := by
  simp only [resumeRead, h, hof]

/-- A lost step memory word acts where the list is an image's. -/
theorem resumeLost_steps {s : State} {k n : Nat} {c : Ctx} :
    resumeLost s k n c .steps = if c.list < 256 then fatal s 0x08 1 else resumeCore s k := by
  unfold resumeLost
  cases c.op <;> rfl

/-- A lost context memory word acts where the context is a command's. -/
theorem resumeLost_context {s : State} {k n : Nat} {c : Ctx} (hop : c.op = none) : resumeLost s k n c .context = fatal s 0x08 5 := by
  unfold resumeLost
  rw [hop] <;> rfl

/-- A poisoned line of pool 2 acts where the context is an operation's. -/
theorem resumeLost_spill {s : State} {k n a : Nat} {c : Ctx} {op : IntOp} (hop : c.op = some op) :
    resumeLost s k n c (.spill a) = spillLost (setReadyQ s k ((readyQ s k).filter (· != n))) a n c op := by
  unfold resumeLost
  rw [hop]

/-- Without a free internal context, or an operation that may start, nothing starts. -/
theorem startRead_idle {s : State} (l : Option Nat) (h : freeInternal s = none ∨ s.seq.queue.find? (opStartable s) = none) :
    startRead s l = s := by
  have hwait : startWaiting s = s := by
    unfold startWaiting
    rcases h with h | h
    · rw [h]
    · rw [h]
      cases freeInternal s <;> rfl
  unfold startRead
  rcases h with h | h
  · rw [h]
    cases l <;> exact hwait
  · rw [h]
    cases l <;> cases freeInternal s <;> exact hwait

/-- The operation that starts, by what is lost of it. -/
theorem startRead_first {s : State} {n : Nat} {op : IntOp} (l : Option Nat) (hfree : freeInternal s = some n)
    (hop : s.seq.queue.find? (opStartable s) = some op) :
    startRead s l = match l with
      | some a => listFaultEvent (consumePoison s a 5 n) n { op := some op, list := internalList op }
      | none => beginOp { s with seq := { s.seq with queue := s.seq.queue.erase op } } n op := by
  unfold startRead startWaiting
  rw [hfree, hop]
  cases l <;> rfl

/-- A timeout of the wait that is in force. -/
theorem waitTimeout_inForce {s : State} {n : Nat} {c : Ctx} {w : Wait} (hof : ctxOf s n = some c) (hw : waitOf c = some w) :
    waitTimeout s n c.waitNo c.vci = if w = .echo then echoTimeout s n
      else waitEnds (writeEvent (rcAdd s 0x70014 0 1)
        { num := 0x0602, vss := if c.vss = 0 then 0xFFFF else c.vss, detail := [c.list, parkedStep c w, c.cls] }) n c w := by
  unfold waitTimeout
  rw [hof]
  dsimp only
  rw [hw]
  refine (if_neg (by simp)).trans ?_
  cases w <;> rfl

/-- A timeout of a context that is not there, or of a wait that is not in force, is stale. -/
theorem waitTimeout_stale {s : State} {n k i : Nat} (h : ∀ c, ctxOf s n = some c → ∀ w, waitOf c = some w → c.waitNo ≠ k ∨ c.vci ≠ i) :
    waitTimeout s n k i = rcAdd s 0x70018 0 1 := by
  unfold waitTimeout
  split
  · rfl
  next c hof =>
    split
    · rfl
    next w hw => exact if_pos (by simpa using h c hof w hw)

/-- A parked context, by what it waits for. -/
theorem interlockGrant_parked {s : State} {n : Nat} {c : Ctx} (hof : ctxOf s n = some c) :
    interlockGrant s n = match waitOf c with
      | some .ilock => if ilockFree s c then arrive s n { c with lock := .taken, flg := flgPark c.flg true false false } c.drain else s
      | some .iwait => if iwaitFree s c then arrive s n { c with flg := flgPark c.flg true false false } c.drain else s
      | _ => rcAdd s 0x70018 0 1 := by
  unfold interlockGrant
  rw [hof] <;> rfl

/-- A grant for a context that waits for neither step of the interlock is stale. -/
theorem interlockGrant_other {s : State} {n : Nat} {c : Ctx} (hof : ctxOf s n = some c) (hl : waitOf c ≠ some .ilock)
    (hw : waitOf c ≠ some .iwait) : interlockGrant s n = rcAdd s 0x70018 0 1 := by
  rw [interlockGrant_parked hof]
  split
  · contradiction
  · contradiction
  · rfl

/-- The end of a fence, by what the context waits for. -/
theorem nsfenceDone_parked {s : State} {n : Nat} {c : Ctx} (hof : ctxOf s n = some c) (hw : waitOf c = some .nsfence) :
    nsfenceDone s n = if (fenceLeft s c).isEmpty then
      arrive s n { c with fence := [], flg := flgPark c.flg true false false } c.drain else s := by
  unfold nsfenceDone
  rw [hof]
  dsimp only
  rw [hw]

/-- The end of a fence for a context that does not wait for one is stale. -/
theorem nsfenceDone_other {s : State} {n : Nat} {c : Ctx} (hof : ctxOf s n = some c) (hw : waitOf c ≠ some .nsfence) :
    nsfenceDone s n = rcAdd s 0x70018 0 1 := by
  unfold nsfenceDone
  rw [hof]
  dsimp only
  split
  · contradiction
  · rfl

/-- A grant or the end of a fence for a context that does not exist is stale. -/
theorem interlockGrant_gone {s : State} {n : Nat} (hof : ctxOf s n = none) : interlockGrant s n = rcAdd s 0x70018 0 1 := by
  unfold interlockGrant
  rw [hof] <;> rfl

theorem nsfenceDone_gone {s : State} {n : Nat} (hof : ctxOf s n = none) : nsfenceDone s n = rcAdd s 0x70018 0 1 := by
  unfold nsfenceDone
  rw [hof] <;> rfl

/-- Host data for a command of the fabric that waits for it. -/
theorem hostTransfer_fabric {s : State} {n : Nat} {c : Ctx} {g : HostCmd} {ok : Bool} {d : List Blk} {rs : List DsmRange}
    (hof : ctxOf s n = some c) (hw : waitOf c = some .host) (hcmd : c.cmd = some g) (hf : ctxFn c = none) :
    hostTransfer s n ok d rs =
      if ok then arrive s n { c with cmd := some { g with payload := d, ranges := rs }, flg := flgPark c.flg true false false } 2
      else arrive s n (setReg { c with flg := flgPark c.flg false false false } 15 (statusWord .dataTransferError)) 2 := by
  unfold hostTransfer
  rw [hof]
  dsimp only
  rw [hw, hcmd, hf]
  cases ok <;> rfl

/-- Host data for a command of a function that waits for it. -/
theorem hostTransfer_function {s : State} {n f : Nat} {c : Ctx} {g : HostCmd} {ok : Bool} {d : List Blk} {rs : List DsmRange}
    (hof : ctxOf s n = some c) (hw : waitOf c = some .host) (hcmd : c.cmd = some g) (hf : ctxFn c = some f) :
    hostTransfer s n ok d rs =
      if ok && (fnOf s f).bme then
        arrive (dmaOver s f n) n { c with cmd := some { g with payload := d, ranges := rs }, flg := flgPark c.flg true false false } 2
      else arrive (dmaOver (rcAdd s 0xD0018 0 1) f n) n
        (setReg { c with flg := flgPark c.flg false false false } 15 (statusWord .dataTransferError)) 2 := by
  unfold hostTransfer
  rw [hof]
  dsimp only
  rw [hw, hcmd, hf]
  dsimp only
  cases ok && (fnOf s f).bme <;> rfl

/-- Host data that no context waits for is stale. -/
theorem hostTransfer_stale {s : State} {n : Nat} (ok : Bool) (d : List Blk) (rs : List DsmRange)
    (h : ∀ c, ctxOf s n = some c → waitOf c ≠ some .host) : hostTransfer s n ok d rs = rcAdd s 0x70018 0 1 := by
  unfold hostTransfer
  split
  · rfl
  next c hof =>
    have hw := h c hof
    split
    · contradiction
    · rfl

/-- A transfer issued under the instar in force of its virtual controller, and one issued under an old one. -/
theorem hostArrival_vc {s : State} {n a tag : Nat} {ok : Bool} {d : List Blk} {rs : List DsmRange} :
    hostArrival s n (.vc a tag) ok d rs = if stale (vcInstar s a) tag then vcStale s a else hostTransfer s n ok d rs := rfl

/-- The first word of the oldest sample. -/
theorem sampleRead_nil {s : State} {p : Path} (h : s.seq.fifo = []) :
    sampleRead s p = (0, snapWords s p 0x70064 0 false [0, 0, 0]) := by
  unfold sampleRead
  rw [h]

theorem sampleRead_cons {s : State} {p : Path} {r : SampleRec} {l : List SampleRec} (h : s.seq.fifo = r :: l) :
    sampleRead s p = ((sampleWords r).headD 0,
      snapWords { s with seq := { s.seq with fifo := l } } p 0x70064 0 false ((sampleWords r).drop 1)) := by
  unfold sampleRead
  rw [h]

/-- Settles O40: each row on the context, the operation or the table it names. -/
theorem sequencerEvents : Obligations.SequencerEvents := by
  unfold Obligations.SequencerEvents
  refine ⟨?resume, ?absent, ?starts, ?timeout, ?timer, ?grant, ?fence, ?arrives, ?stales, ?retry, ?sample⟩
  case resume =>
    intro s k n c l hk
    have hrow (l : Option ResumeLoss) : exec (.contextResume k l) s = .next (resumeRead s k l) := if_pos hk
    rw [hrow, hrow, hrow, hrow]
    refine ⟨fun hn => congrArg _ (resumeRead_none l hn), fun hof hn => congrArg _ ?_, fun hof hn => congrArg _ ?_,
      fun hof hn hop => congrArg _ ?_, fun a op hof hn hop => ?_⟩
    · exact resumeCore_next hn hof
    · rw [resumeRead_lost .steps hn hof, resumeLost_steps, resumeCore_next hn hof]
    · rw [resumeRead_lost .context hn hof, resumeLost_context hop]
    · rw [hrow, resumeRead_lost (.spill a) hn hof, resumeLost_spill hop]
  case absent =>
    intro s k l hk
    exact ⟨if_neg (Nat.not_lt.mpr hk), fun t ht => if_neg (Nat.not_lt.mpr ht)⟩
  case starts =>
    intro s n a op l
    exact ⟨fun hfree => congrArg _ (startRead_idle l (.inl hfree)), fun _ hop => congrArg _ (startRead_idle l (.inr hop)),
      fun hfree hop => congrArg _ (startRead_first none hfree hop), fun hfree hop => congrArg _ (startRead_first (some a) hfree hop)⟩
  case timeout =>
    intro s n k i c w
    refine ⟨fun hof => congrArg _ (waitTimeout_stale ?_), fun hof hw => congrArg _ (waitTimeout_stale ?_),
      fun hof hw hold => congrArg _ (waitTimeout_stale ?_), ?_⟩
    · simp [hof]
    · simp [hof, hw]
    · rintro c' hof' w' -
      rwa [Option.some.inj (hof'.symm.trans hof)]
    · rintro hof hw rfl rfl
      exact congrArg _ (waitTimeout_inForce hof hw)
  case timer =>
    rintro s n c ⟨hof, hrun⟩
    have hw : waitOf c = some .timer := by rw [waitOf, hrun]
    exact ⟨_, congrArg _ (waitTimeout_inForce hof hw), rfl⟩
  case grant =>
    intro s n c
    have hrow : exec (.interlockGrant n) s = .next (interlockGrant s n) := rfl
    rw [hrow]
    refine ⟨fun hof hw => ?_, fun hof hw => ?_, fun hof hl hw => congrArg _ (interlockGrant_other hof hl hw),
      fun hof => congrArg _ (interlockGrant_gone hof)⟩
    · rw [interlockGrant_parked hof, hw]
    · rw [interlockGrant_parked hof, hw]
  case fence =>
    exact fun s n c => ⟨fun hof hw => congrArg _ (nsfenceDone_parked hof hw), fun hof hw => congrArg _ (nsfenceDone_other hof hw),
      fun hof => congrArg _ (nsfenceDone_gone hof)⟩
  case arrives =>
    rintro s n a tag c g d rs hst ⟨hof, hw, hcmd⟩
    have hrow (ok : Bool) : exec (.hostTransferComplete n (.vc a tag) ok d rs) s = .next (hostTransfer s n ok d rs) :=
      congrArg Host.Outcome.next (if_neg (by simp [hst]))
    rw [hrow, hrow]
    refine ⟨fun hf => congrArg _ (hostTransfer_fabric hof hw hcmd hf), fun hf => congrArg _ (hostTransfer_fabric hof hw hcmd hf),
      fun f hf hb => congrArg _ ?_, fun f hf hb ok => ?_⟩
    · exact (hostTransfer_function hof hw hcmd hf).trans (if_pos (by simp [hb]))
    · rw [hrow]
      exact congrArg _ ((hostTransfer_function hof hw hcmd hf).trans (if_neg (by simp [hb])))
  case stales =>
    intro s n a tag ok d rs
    refine ⟨fun hst => congrArg Host.Outcome.next (if_pos hst), fun hst => congrArg Host.Outcome.next (if_pos hst),
      fun hst => congrArg Host.Outcome.next (if_neg (by simp [hst])), fun hst hgone => congrArg Host.Outcome.next ?_⟩
    refine (if_neg (by simp [hst])).trans (hostTransfer_stale ok d rs ?_)
    rintro c hof
    rcases hgone with hnone | ⟨c', hof', hw⟩
    · simp [hnone] at hof
    · rwa [Option.some.inj (hof.symm.trans hof')]
  case retry => exact fun s k hk => if_pos hk
  case sample =>
    intro s p r l
    refine ⟨fun hm => congrArg Host.Outcome.next (if_pos hm), fun hm hfifo => congrArg Host.Outcome.next ?_,
      fun hm hfifo => congrArg Host.Outcome.next ?_⟩
    · rw [sampleRead_nil hfifo]
      exact if_neg hm
    · rw [sampleRead_cons hfifo]
      exact if_neg hm

end Sys2Proof.Machine
end

section
/-! The upkeep of the cocoon, and what passes between the mirror partitions of two controllers (R283 to R317, R503). -/

namespace Sys2Proof.Machine

/-- A stack that does not answer, by the mode, where no fatal fault of the tick stands before it. -/
theorem stackTimeout_byMode {s : State} {k : Nat} {m : Moment} (h : outranked m.rivals .fatal = false) :
    stackTimeout s k m = match s.glb.mode with
      | .held => s
      | .boot =>
        if s.glb.bootHalted then s
        else if s.glb.bootStep = 7 && !s.glb.stageLate then { s with glb := { s.glb with stageLate := true } }
        else if s.glb.bootStep < 7 then s
        else bootFail (stackFail s k) 7 k
      | _ => stackFail s k := if_neg (Bool.eq_false_iff.mp h)

/-- In the operational modes, and in Safe, the stack fails. -/
theorem stackTimeout_running {s : State} {k : Nat} {m : Moment} (h : outranked m.rivals .fatal = false)
    (hm : s.glb.mode = .active ∨ s.glb.mode = .standby ∨ s.glb.mode = .drain ∨ s.glb.mode = .safe) :
    stackTimeout s k m = stackFail s k := by
  rw [stackTimeout_byMode h]
  rcases hm with hm | hm | hm | hm <;> rw [hm]

/-- In Boot the stack counts from step 7 on, after one retry of that step. -/
theorem stackTimeout_boot {s : State} {k : Nat} {m : Moment} (h : outranked m.rivals .fatal = false) (hm : s.glb.mode = .boot) :
    stackTimeout s k m =
      if s.glb.bootHalted then s
      else if s.glb.bootStep = 7 && !s.glb.stageLate then { s with glb := { s.glb with stageLate := true } }
      else if s.glb.bootStep < 7 then s
      else bootFail (stackFail s k) 7 k := by
  rw [stackTimeout_byMode h, hm]

/-- Settles O41: each row by the mode and by what of the cocoon stands. -/
theorem cocoonUpkeep : Obligations.CocoonUpkeep := by
  unfold Obligations.CocoonUpkeep
  refine ⟨?format, ?persist, ?tick, ?rebuilt, ?scrub, ?stack, ?record, ?absent, ?refused⟩
  case format =>
    intro s c w h
    refine congrArg Host.Outcome.next ((asManager_granted _ h).trans (ite_congr ?_ (fun _ => rfl) fun _ => ?_))
    · simp [or_assoc]
    · refine ite_congr (by simp) (fun _ => rfl) fun _ => ite_congr (by simp) (fun _ => rfl) fun _ => ?_
      exact ite_congr (by simp) (fun _ => rfl) fun _ => rfl
  case persist =>
    intro s
    refine congrArg Host.Outcome.next ?_
    by_cases hm : s.glb.mode = .safe
    · exact (if_pos hm).trans (if_neg (by simp [hm])).symm
    · exact (if_neg hm).trans (ite_congr (by simp [hm, and_assoc]) (fun _ => rfl) fun _ => rfl)
  case tick => exact fun s => rfl
  case rebuilt => exact fun s => rfl
  case scrub =>
    intro s a r ha
    have hrow : exec (.cocoonScrubLine a r) s = .next (if s.coc.up && s.glb.mode != .safe then cocoonScrub s a r else s) := if_pos ha
    rw [hrow]
    refine ⟨fun h => congrArg _ (if_neg ?_), fun hup hm => ⟨_, rfl, congrArg _ (if_pos (by simp [hup, hm]))⟩⟩
    rcases h with h | h <;> simp [h]
  case stack =>
    intro s k m hk
    have hrow : exec (.stackAccessTimeout k m) s = .next (stackTimeout s k m) := if_pos hk
    rw [hrow]
    refine ⟨fun h => congrArg _ (if_pos h), fun hm => congrArg _ ?_, fun h hm => congrArg _ (stackTimeout_running h hm),
      fun h hm hearly => congrArg _ ?_, fun h hm hh h7 hl => congrArg _ ?_, fun h hm hh h7 hl => congrArg _ ?_⟩
    · cases h : outranked m.rivals .fatal
      · rw [stackTimeout_byMode h, hm]
      · exact if_pos h
    · rw [stackTimeout_boot h hm]
      rcases hearly with hh | hs
      · exact if_pos hh
      · rw [if_neg (by simp; omega : ¬(decide (s.glb.bootStep = 7) && !s.glb.stageLate) = true), if_pos hs, ite_self]
    · rw [stackTimeout_boot h hm, if_neg (by simp [hh]), if_pos (by simp [h7, hl])]
    · rw [stackTimeout_boot h hm, if_neg (by simp [hh]), if_neg (by simpa using hl), if_neg (Nat.not_lt.mpr h7)]
  case record => exact fun s p => rfl
  case absent => exact fun s a k r m h => ⟨if_neg (Nat.not_lt.mpr h.1), if_neg (Nat.not_lt.mpr h.2)⟩
  case refused =>
    exact fun s c w => ⟨fun h => congrArg Host.Outcome.next (asManager_unserved _ h),
      fun e h he => congrArg Host.Outcome.next (asManager_refused _ h he)⟩

/-- A record of the partner, while the mirror is open. -/
theorem mirrorRecord_open {s : State} {p x : Nat} {r : CommitRec} (h : mirrorOpen s = true) (hp : p < pageCount) :
    mirrorRecord s p r x = if recCrc p r = x then
      tdmSend (setMir s p { mirPg s p with st := .held, rc := some r, unus := false }) (.tandem 4 [p, r.seq])
    else writeEvent s { num := 0x0709, detail := [p] } :=
  if_neg (by simp [h, Nat.not_le.mpr hp])

/-- What the partner sends does nothing with the mirror closed, or for a page that does not exist. -/
theorem mirror_closed {s : State} {p : Nat} (h : mirrorOpen s = false ∨ pageCount ≤ p) (r : CommitRec) (x : Nat) (b : Blk) :
    mirrorRecord s p r x = s ∧ mirrorLine s p b = s := by
  refine ⟨if_pos ?_, if_neg ?_⟩
  · rcases h with h | h <;> simp [h]
  · rcases h with h | h <;> simp [h]

/-- The next flush candidate, where an internal context is free for it. -/
theorem flushStart_begins {s : State} {n : Nat} {x : Cand} (hx : bestCand ((flushCands s).filter fun c => opStartable s c.op) = some x)
    (hn : freeInternal s = some n) : flushStart s = beginOp s n x.op := by
  unfold flushStart
  rw [hx, hn]

/-- Without a candidate, or without a context free for it, no flush starts. -/
theorem flushStart_idle {s : State} (h : freeInternal s = none ∨ bestCand ((flushCands s).filter fun c => opStartable s c.op) = none) :
    flushStart s = s := by
  unfold flushStart
  rcases h with h | h
  · rw [h]
    cases bestCand ((flushCands s).filter fun c => opStartable s c.op) <;> rfl
  · rw [h]

/-- The state with a fetch no longer outstanding. -/
def fetchEnded (s : State) (p : Nat) (x : Bool) : State :=
  { s with coc := { s.coc with fetches := s.coc.fetches.filter (· != (p, x)) } }

/-- What the answer to a fetch makes of its page (R312). -/
def fetchLeaves (s : State) (p : Nat) (x : Bool) (o : Option PageMsg) : State :=
  let g := ownPg s p
  if g.st = .free then s else match o with
    | some m =>
      if g.unus then
        if 1 ≤ m.r.kind ∧ m.r.kind ≤ 3 then lineRepaired (unusBack s p m) (pageAddr false p true) else recordLost s p
      else if x then lineRepaired (setOwn s p { g with rc := some m.r }) (pageAddr false p true)
      else lineRepaired (setOwn s p { g with blk := m.blk, poison := false }) (pageAddr false p false)
    | none => if x then recordLost s p else setOwn s p { g with poison := true }

/-- A response to a fetch that is outstanding: the page as its answer leaves it, and every read that waited goes on. -/
theorem lineFetchResponse_outstanding {s v : State} {p : Nat} {x : Bool} {o : Option PageMsg}
    (h : s.coc.fetches.contains (p, x) = true) (hv : fetchLeaves (fetchEnded s p x) p x o = v) :
    exec (.lineFetchResponse p x o) s = .next (resumeAll v .repair fun _ => true) := by
  subst hv
  exact congrArg Host.Outcome.next (if_neg (by rw [h]; decide))

/-- A reservation that is awaited, once it is usable. -/
theorem reserveReady_awaited {s : State} {k x : Nat} (h : (ctrRun s k).await = some x) :
    reserveReady s k = resumeAll (setRun s k { ctrRun s k with limit := x, await := none }) .counter fun c => c.ns == k := by
  unfold reserveReady
  dsimp only
  rw [h]

/-- With no reservation awaited nothing becomes usable. -/
theorem reserveReady_none {s : State} {k : Nat} (h : (ctrRun s k).await = none) : reserveReady s k = s := by
  unfold reserveReady
  dsimp only
  rw [h]

/-- Adoption of an owned group not adopted yet: it ends with the adoption's event and the opening of the group. -/
theorem adoptPages_owned {s : State} {g : Nat} (ho : (grpOf s g).owned = true) (hp : (grpOf s g).pagesDone = false) :
    ∃ t u k, adoptPages s g = openGroup (setGrp t g { grpOf t g with pagesDone := true, fromPartner := false }) g
      ∧ t = writeEvent u { num := 0x070B, inst := g, detail := [g, k] } :=
  ⟨_, _, _, if_neg (by simp [ho, hp]), rfl⟩

/-- Settles O42: each row acts while the mirror is open, on the page, the group, the fetch or the reservation it names. -/
theorem mirrorAndHandback : Obligations.MirrorAndHandback := by
  unfold Obligations.MirrorAndHandback
  refine ⟨?line, ?record, ?reset, ?flush, ?adopt, ?handback, ?confirm, ?fetch, ?reserve, ?reload, ?aged⟩
  case line =>
    intro s p b hp
    exact congrArg Host.Outcome.next (ite_congr (by simp [hp]) (fun _ => rfl) fun _ => rfl)
  case record =>
    intro s p x r b
    exact ⟨fun h hp => congrArg Host.Outcome.next (mirrorRecord_open h hp),
      fun h => ⟨congrArg Host.Outcome.next (mirror_closed h r x b).1, congrArg Host.Outcome.next (mirror_closed h r x b).2⟩⟩
  case reset =>
    intro s g ns ps
    refine ⟨fun hg h => ?_, fun hg h => ⟨?_, ?_, ?_⟩, fun hg i hi => ?_, fun hns => if_neg (Nat.not_lt.mpr hns)⟩
    · exact (if_pos hg).trans (congrArg Host.Outcome.next (if_pos h))
    · exact (if_pos hg).trans (congrArg Host.Outcome.next (if_neg (Bool.eq_false_iff.mp h)))
    · exact (if_pos hg).trans (congrArg Host.Outcome.next (if_neg (Bool.eq_false_iff.mp h)))
    · exact (if_pos hg).trans (congrArg Host.Outcome.next (if_neg (Bool.eq_false_iff.mp h)))
    · simp only [List.mem_cons, List.not_mem_nil, or_false] at hi
      rcases hi with rfl | rfl | rfl | rfl <;> exact if_neg (Nat.not_lt.mpr hg)
  case flush =>
    intro s n x
    refine ⟨fun h => congrArg Host.Outcome.next (if_neg ?_), fun h => congrArg Host.Outcome.next ?_,
      fun h => congrArg Host.Outcome.next ?_, fun hr hp hx hn => congrArg Host.Outcome.next ?_⟩
    · rcases h with h | h <;> simp [h]
    · rw [flushStart_idle (.inl h), ite_self]
    · rw [flushStart_idle (.inr h), ite_self]
    · exact (if_pos (by simp [hr, hp])).trans (flushStart_begins hx hn)
  case adopt =>
    intro s g hg
    have hrow : exec (.mirrorAdoptionDone g) s = .next (adoptPages s g) := if_pos hg
    rw [hrow]
    refine ⟨fun h => congrArg _ (if_pos ?_), fun ho hp => ?_⟩
    · rcases h with h | h <;> simp [h]
    · obtain ⟨t, u, k, hadopt, ht⟩ := adoptPages_owned ho hp
      exact ⟨t, u, k, congrArg _ hadopt, ht⟩
  case handback =>
    rintro s g ns ps ⟨hg, h⟩
    refine (if_pos hg).trans (congrArg Host.Outcome.next ((if_pos h).trans (ite_congr ?_ (fun _ => rfl) fun _ => rfl)))
    simp [or_assoc]
  case confirm =>
    rintro s g ps ⟨hg, h⟩ rfl
    exact (if_pos hg).trans (congrArg Host.Outcome.next (if_pos h))
  case fetch =>
    intro s p m x o
    refine ⟨fun h => congrArg Host.Outcome.next (if_pos (by rw [h]; decide)), fun h => ⟨_, rfl, ?_⟩⟩
    refine ⟨fun hf => lineFetchResponse_outstanding h (if_pos hf),
      fun hf hu hx => lineFetchResponse_outstanding h ((if_neg hf).trans ?_),
      fun hf hu hx => lineFetchResponse_outstanding h ((if_neg hf).trans ?_),
      fun hf hx => lineFetchResponse_outstanding h ((if_neg hf).trans ?_),
      fun hf hx => lineFetchResponse_outstanding h ((if_neg hf).trans ?_),
      fun hf hu => lineFetchResponse_outstanding h ((if_neg hf).trans ?_)⟩
    · exact (if_neg (ne_true_of_eq_false hu)).trans (if_neg (ne_true_of_eq_false hx))
    · exact (if_neg (ne_true_of_eq_false hu)).trans (if_pos hx)
    · exact if_neg (ne_true_of_eq_false hx)
    · exact if_pos hx
    · exact if_pos hu
  case reserve =>
    intro s k x y
    refine ⟨fun h => ⟨congrArg Host.Outcome.next ((if_pos h).trans (reserveReady_awaited h)),
      congrArg Host.Outcome.next (reserveReady_awaited h)⟩, fun h => congrArg Host.Outcome.next (if_neg h),
      fun h => congrArg Host.Outcome.next (reserveReady_none h)⟩
  case reload =>
    intro s e he
    refine (if_pos he).trans (congrArg Host.Outcome.next ?_)
    cases h : s.xfm.reload.contains e
    · exact if_pos (by rw [h]; decide)
    · exact if_neg (by rw [h]; decide)
  case aged => exact fun s e k => rfl

end Sys2Proof.Machine
end

section
/-! Rebuilds, the chunk map, key rotation, the rekey pass and write-backs (R334, R336, R338, R342, R346, R348). -/

namespace Sys2Proof.Machine

/-- The row of a bay that exists, and of a remote member. -/
theorem rebuildDelayExpiry_exists {s : State} {b : Nat} (h : b < 576) : exec (.rebuildDelayExpiry b) s = .next (rebuildDelay s b) := if_pos h

/-- A bay, or a key slot, that does not exist is a fault. -/
theorem rebuildDelayExpiry_absent {s : State} {b : Nat} (h : 576 ≤ b) : exec (.rebuildDelayExpiry b) s = .fault (.noSuchInstance "bay") :=
  if_neg (Nat.not_lt.mpr h)

theorem rekeyPassStart_absent {s : State} {k : Nat} (h : 65536 ≤ k) : exec (.rekeyPassStart k) s = .fault (.noSuchInstance "key slot") :=
  if_neg (Nat.not_lt.mpr h)

/-- A bay of a group whose drive stays away starts a rebuild where none has it in hand and a spare is there. -/
theorem rebuildDelay_bay {s : State} {b g : Nat} (hb : b < 64) (hg : groupOfBay s b = some g) :
    rebuildDelay s b =
      if !(grpOf s g).owned || drivePresent s b || !bayIsMember s b || ((rbOf s g).active && (rbOf s g).bay == b)
        || (s.xfm.rbWait.any fun x => x.1 == b) then s
      else match spareFor s g with
        | none => s
        | some t => rebuildAsk s g b t := by
  unfold rebuildDelay
  rw [hg]
  exact if_neg (by omega)

/-- A bay of no group starts none. -/
theorem rebuildDelay_ungrouped {s : State} {b : Nat} (hb : b < 64) (hg : groupOfBay s b = none) : rebuildDelay s b = s := by
  unfold rebuildDelay
  rw [hg]
  exact if_neg (by omega)

/-- Chunk Map Read, by the entry it finds. -/
theorem chunkMapRead_entry {s : State} {c : Cid} {d : Nat} {v : VEnt MapEnt} (h : mapEnt s (field d 0 23) = some v) :
    chunkMapRead s c d = if v.cur.valid then reply s c .success (v.ver % 65536) (mapBytes s v.cur) else reply s c (.vendor 0xE2) := by
  unfold chunkMapRead
  rw [h]

theorem chunkMapRead_absent {s : State} {c : Cid} {d : Nat} (h : mapEnt s (field d 0 23) = none) :
    chunkMapRead s c d = reply s c (.vendor 0xE2) := by
  unfold chunkMapRead
  rw [h]

/-- Key Rotate of a namespace that stands. -/
theorem keyRotate_standing {s : State} {c : Cid} {d : Nat} {n : NsRec} (h : nsOf s (field d 0 16) = some n) :
    keyRotate s c d =
      let slot := field d 0 16
      let k := tget s.cat.keys {} slot
      if k.prev.isSome then reply s c (.vendor 0xED)
      else if k.epoch = 0xFFFFFFFF then reply s c .invalidField
      else if !(grpOf s n.group).owned then reply s c (.vendor 0xEA)
      else catChange (rotateEdit s slot).1 (some c) [(rotateEdit s slot).2] (k.epoch + 1) 3 slot := by
  unfold keyRotate
  dsimp only
  rw [h]

/-- Key Rotate of a key slot whose namespace is gone. -/
theorem keyRotate_gone {s : State} {c : Cid} {d : Nat} (h : nsOf s (field d 0 16) = none) :
    keyRotate s c d = if (tget s.cat.keys {} (field d 0 16)).prev.isSome then reply s c (.vendor 0xED) else reply s c (.vendor 0xE2) := by
  unfold keyRotate
  dsimp only
  rw [h]

/-- A pass of the slot waits among the operations, or runs in a context. -/
def RekeyBusy (s : State) (k : Nat) : Prop :=
  (∃ y z, IntOp.rekey k y z ∈ s.seq.queue) ∨ ∃ x ∈ s.seq.ctxs, ∃ y z, x.2.bind Ctx.op = some (.rekey k y z)

/-- A rekey pass of a slot with a previous key does nothing for a group not owned, under a record of the previous epoch, or while
one runs. -/
theorem rekeyStart_idle {s : State} {k : Nat} {p : Nat × Nat} {n : NsRec} (hp : (tget s.cat.keys {} k).prev = some p)
    (hn : nsOf s k = some n) (h : (grpOf s n.group).owned = false ∨ epochStaged s k p.1 = true ∨ RekeyBusy s k) : rekeyStart s k = s := by
  unfold rekeyStart
  dsimp only
  rw [hp, hn]
  refine if_pos ?_
  simp only [Bool.or_eq_true, Bool.not_eq_true']
  rcases h with h | h | ⟨y, z, h⟩ | ⟨x, hx, y, z, h⟩
  · exact .inl (.inl (.inl h))
  · exact .inl (.inl (.inr h))
  · exact .inl (.inr (List.any_eq_true.mpr ⟨_, h, by simp⟩))
  · exact .inr (List.any_eq_true.mpr ⟨x, hx, by simp [h]⟩)

/-- A rekey pass that starts, or goes on where it was. -/
theorem rekeyStart_starts {s : State} {k : Nat} {p : Nat × Nat} {n : NsRec} (hp : (tget s.cat.keys {} k).prev = some p)
    (hn : nsOf s k = some n) (ho : (grpOf s n.group).owned = true) (he : epochStaged s k p.1 = false)
    (hq : ∀ y z, IntOp.rekey k y z ∉ s.seq.queue) (hc : ∀ x ∈ s.seq.ctxs, ∀ y z, x.2.bind Ctx.op ≠ some (.rekey k y z)) :
    rekeyStart s k = if (tget s.cat.keys {} k).pass then rekeyChunk s k
      else rekeyChunk (catRecord { s with xfm := { s.xfm with bgPct := none } }
        [.key k { tget s.cat.keys {} k with pass := true, done := 0 }] 3 k) k := by
  unfold rekeyStart
  dsimp only
  rw [hp, hn]
  refine if_neg ?_
  simp only [ho, he, Bool.not_true, Bool.false_or, Bool.or_eq_true, List.any_eq_true, not_or]
  refine ⟨?_, ?_⟩
  · rintro ⟨o, ho, hk⟩
    cases o <;> simp at hk
    subst hk
    exact hq _ _ ho
  · rintro ⟨x, hx, hk⟩
    split at hk
    case h_1 y z w hop =>
      rw [beq_iff_eq] at hk
      subst hk
      exact hc x hx _ _ hop
    case h_2 => simp at hk

/-- A slot without a previous key, or without its namespace, has no pass to start. -/
theorem rekeyStart_none {s : State} {k : Nat} (h : (tget s.cat.keys {} k).prev = none ∨ nsOf s k = none) : rekeyStart s k = s := by
  unfold rekeyStart
  dsimp only
  rcases h with h | h
  · rw [h]
  · rw [h]
    cases (tget s.cat.keys {} k).prev <;> rfl

/-- A write-back whose operation is there and whose chunk stands, with nothing left to write. -/
theorem writeBack_done {s : State} {e k r n : Nat} {c : Ctx} {x : MapEnt} {l : List Nat}
    (hf : (s.seq.ctxs.find? fun y => (y.2.bind Ctx.op) == some (.writeback e k r)) = some (n, some c)) (hx : chunkEnt s e = some x)
    (hl : (l.filter fun p => decide (p < x.k + x.m) && memWritable s e k x (memberAt x.k x.m k p)) = []) :
    writeBack s e k r l = finishOp (rcAdd s 0x90024 0 0) n c (.writeback e k r) := by
  unfold writeBack
  rw [hf, hx]
  dsimp only
  rw [hl] <;> rfl

/-- A write-back without its operation, or whose chunk is gone. -/
theorem writeBack_gone {s : State} {e k r : Nat} (l : List Nat)
    (h : (s.seq.ctxs.find? fun y => (y.2.bind Ctx.op) == some (.writeback e k r)) = none ∨ chunkEnt s e = none) :
    writeBack s e k r l = s := by
  unfold writeBack
  rcases h with h | h
  · rw [h]
  · rw [h]
    rcases s.seq.ctxs.find? _ with _ | ⟨n, _ | c⟩ <;> rfl

/-- A write-back ends its operation or stays as it is. -/
theorem writeBack_stays_or_ends (s : State) (e k r : Nat) (l : List Nat) :
    writeBack s e k r l = s ∨ ∃ t m d, writeBack s e k r l = finishOp t m d (.writeback e k r) := by
  unfold writeBack
  split
  · dsimp only
    split
    · exact .inr ⟨_, _, _, rfl⟩
    · exact .inl rfl
  · exact .inl rfl

/-- A write-back of one position that still takes writes, by whether its member is here. -/
theorem writeBack_one {s : State} {e k r n q : Nat} {c : Ctx} {x : MapEnt}
    (hf : (s.seq.ctxs.find? fun y => (y.2.bind Ctx.op) == some (.writeback e k r)) = some (n, some c)) (hx : chunkEnt s e = some x)
    (hq : q < x.k + x.m) (hw : memWritable s e k x (memberAt x.k x.m k q) = true) :
    writeBack s e k r [q] =
      match (if isRemote (memOf x (memberAt x.k x.m k q)) then
          (fragSend s { plainFrag 1 (x.place % 65536) (memberAt x.k x.m k q) ((memOf x (memberAt x.k x.m k q)).bay - 64) [] with
            chunk := e, stripe := k, lba := driveLba (memOf x (memberAt x.k x.m k q)).start k 0, rows := 2 ^ r } [], true)
        else issueDrive s (memOf x (memberAt x.k x.m k q)).bay .flush { opcode := 0x01, bytes := 4160 }
          [driveLba (memOf x (memberAt x.k x.m k q)).start k r, 2 ^ r]) with
      | (t, true) => finishOp (writeEvent (rcAdd t 0x90024 0 1) { num := 0x0805, detail := [e, k, r, q] }) n c (.writeback e k r)
      | (_, false) => s := by
  have hpos : ([q].filter fun p => decide (p < x.k + x.m) && memWritable s e k x (memberAt x.k x.m k p)) = [q] :=
    List.filter_cons_of_pos (by simp [hq, hw])
  unfold writeBack
  rw [hf, hx]
  dsimp only
  rw [hpos, List.foldl_cons, List.foldl_nil]
  cases isRemote (memOf x (memberAt x.k x.m k q))
  · simp only [Bool.false_eq_true, if_false, Bool.true_and]
    rcases issueDrive s _ _ _ _ with ⟨t, _ | _⟩ <;> rfl
  · rfl

/-- Settles O43: each row by the group, the entry, the key slot or the operation it finds. -/
theorem rebuildsAndKeys : Obligations.RebuildsAndKeys := by
  unfold Obligations.RebuildsAndKeys
  refine ⟨?begins, ?stays, ?remote, ?control, ?cancel, ?mapRead, ?rotate, ?rotateGone, ?pass, ?passStays, ?back, ?backLocal,
    ?backOther, ?refused⟩
  case begins =>
    rintro s b g t ⟨hb, hg, ho, hd, hm⟩ ⟨hr, hw, hs⟩
    rw [rebuildDelayExpiry_exists (by omega), rebuildDelay_bay hb hg, if_neg (by simp only [ho, hd, hm, hr, hw]; decide), hs]
    rfl
  case stays =>
    intro s b g hb
    rw [rebuildDelayExpiry_exists (by omega)]
    refine ⟨fun hg => congrArg _ (rebuildDelay_ungrouped hb hg), fun hg h => congrArg _ ?_,
      rebuildDelayExpiry_absent (Nat.le_add_left 576 b)⟩
    rw [rebuildDelay_bay hb hg]
    rcases h with h | h | h | ⟨ha, h⟩ | h | h
    · exact if_pos (by simp [h])
    · exact if_pos (by simp [h])
    · exact if_pos (by simp [h])
    · exact if_pos (by simp [ha, h])
    · exact if_pos (by rw [h, Bool.or_true])
    · rw [h, ite_self]
  case remote =>
    intro s k hk
    refine (rebuildDelayExpiry_exists (by omega)).trans (congrArg _ ((if_pos (by omega)).trans ?_))
    rw [Nat.add_sub_cancel_left]
    exact ite_congr (by simp) (fun _ => rfl) fun _ => rfl
  case control =>
    rintro s c d g b t ⟨h, rfl, rfl, rfl⟩
    refine congrArg Host.Outcome.next ((asManager_granted _ h).trans ?_)
    refine ite_congr (by simp) (fun _ => rfl) fun _ => ite_congr (by simp) (fun _ => rfl) fun _ => ?_
    exact ite_congr (by simp) (fun _ => rfl) fun _ => rfl
  case cancel =>
    intro s c d h
    exact congrArg Host.Outcome.next ((asManager_granted _ h).trans (ite_congr (by simp) (fun _ => rfl) fun _ => rfl))
  case mapRead =>
    intro s c d v h
    exact ⟨fun hv => congrArg Host.Outcome.next ((asManager_granted _ h).trans (chunkMapRead_entry hv)),
      fun hv => congrArg Host.Outcome.next ((asManager_granted _ h).trans (chunkMapRead_absent hv))⟩
  case rotate =>
    rintro s c d n k ⟨h, hn, rfl⟩
    refine congrArg Host.Outcome.next ((asManager_granted _ h).trans ((keyRotate_standing hn).trans ?_))
    refine ite_congr rfl (fun _ => rfl) fun _ => ite_congr rfl (fun _ => rfl) fun _ => ?_
    exact ite_congr (by simp) (fun _ => rfl) fun _ => rfl
  case rotateGone =>
    exact fun s c d h => congrArg Host.Outcome.next ((asManager_granted _ h.1).trans (keyRotate_gone h.2))
  case pass =>
    rintro s k r p n ⟨hk, rfl, hp, hn, ho, he⟩ ⟨hq, hc⟩
    exact (if_pos hk).trans (congrArg Host.Outcome.next (rekeyStart_starts hp hn ho he hq hc))
  case passStays =>
    intro s k p n hk
    refine ⟨fun h => (if_pos hk).trans (congrArg Host.Outcome.next (rekeyStart_none h)),
      fun hp hn h => (if_pos hk).trans (congrArg Host.Outcome.next (rekeyStart_idle hp hn h)),
      rekeyPassStart_absent (Nat.le_add_left 65536 k)⟩
  case back =>
    intro s e k r n c x l
    have hrow : exec (.reconWriteback e k r l) s = .next (writeBack s e k r l) := rfl
    rw [hrow]
    refine ⟨fun hf hx hl => congrArg _ (writeBack_done hf hx hl), fun hf => congrArg _ (writeBack_gone l (.inl hf)),
      fun hx => congrArg _ (writeBack_gone l (.inr hx)), ?_⟩
    rcases writeBack_stays_or_ends s e k r l with h | ⟨t, m, d, h⟩
    · exact .inl (congrArg _ h)
    · exact .inr ⟨t, m, d, congrArg _ h⟩
  case backLocal =>
    rintro s e k r n q c x ⟨hf, hx⟩ ⟨hq, hw, hl⟩ hroom
    refine congrArg Host.Outcome.next ((writeBack_one hf hx hq hw).trans ?_)
    rw [hl, if_neg Bool.false_ne_true]
    revert hroom
    rcases issueDrive s _ _ _ _ with ⟨t, _ | _⟩
    · simp
    · simp
  case backOther =>
    rintro s e k r n q c x ⟨hf, hx⟩ ⟨hq, hw⟩
    refine ⟨fun hl hroom => congrArg Host.Outcome.next ((writeBack_one hf hx hq hw).trans ?_),
      fun hr => ⟨_, rfl, congrArg Host.Outcome.next ((writeBack_one hf hx hq hw).trans ?_)⟩⟩
    · rw [hl, if_neg Bool.false_ne_true]
      revert hroom
      rcases issueDrive s _ _ _ _ with ⟨t, _ | _⟩
      · simp
      · simp
    · rw [hr, if_pos rfl]
  case refused =>
    intro s c d e x hx
    simp only [List.mem_cons, List.not_mem_nil, or_false] at hx
    rcases hx with rfl | rfl | rfl | rfl <;>
      exact ⟨fun h => congrArg Host.Outcome.next (asManager_unserved _ h),
        fun h he => congrArg Host.Outcome.next (asManager_refused _ h he)⟩

end Sys2Proof.Machine
end

section
/-! The requests of another controller of the federation, and the answers to one of this controller (R354 to R371). -/

namespace Sys2Proof.Machine

/-- A message of a Porpor queue pair that lies untaken is taken and served. -/
theorem onPorpor_taken {q op : Nat} {s u : State} (f : State → State) (hq : q < 65536) (h : porporTake s q op = some u) :
    onPorpor q op s f = .next (f u) := by
  rw [onPorpor, onQp_exists _ hq, h]

/-- Without one nothing happens. -/
theorem onPorpor_untaken {q op : Nat} {s : State} (f : State → State) (hq : q < 65536) (h : porporTake s q op = none) :
    onPorpor q op s f = .next s := by
  rw [onPorpor, onQp_exists _ hq, h]

/-- A queue pair that does not exist is a fault. -/
theorem onPorpor_absent {q op : Nat} {s : State} (f : State → State) (hq : 65536 ≤ q) :
    onPorpor q op s f = .fault (.noSuchInstance "queue pair") := onQp_absent _ hq

/-- A slot that is still being served is not served again. -/
theorem hostStrip_serving {s : State} {q n : Nat} {m : PorporMsg} {rd : Bool} (h : (hostedOf s q n).isSome = true) :
    hostStrip s q n m rd = s := if_pos h

/-- A strip request of a slot not being served, by its checks, its drive and its group. -/
theorem hostStrip_free {s : State} {q n : Nat} {m : PorporMsg} {rd : Bool} (h : hostedOf s q n = none) :
    hostStrip s q n m rd =
      if hostCheck s q m true (!rd) ≠ 0 then porporAnswer s q n 3 (hostCheck s q m true (!rd))
      else if !drivePresent s (hostBay s m) then porporAnswer s q n 3 6
      else if !hosts s m.group then porporAnswer s q n 3 7
      else startInternal { s with fed := { s.fed with hosted := s.fed.hosted ++
        [{ qp := q, slot := n, spoke := hostBay s m, lba := m.lba, rows := m.rows, retried := false, reading := rd, msg := m }] } }
        (.inbound q n) :=
  if_neg (by simp [h])

/-- A strip request that passes its checks and finds its drive and its group here. -/
theorem hostStrip_served {s : State} {q n : Nat} {m : PorporMsg} {rd : Bool} (h : hostedOf s q n = none)
    (hc : hostCheck s q m true (!rd) = 0) (hd : drivePresent s (hostBay s m) = true) (hg : hosts s m.group = true) :
    hostStrip s q n m rd = startInternal { s with fed := { s.fed with hosted := s.fed.hosted ++
      [{ qp := q, slot := n, spoke := hostBay s m, lba := m.lba, rows := m.rows, retried := false, reading := rd, msg := m }] } }
      (.inbound q n) := by
  rw [hostStrip_free h, if_neg (not_not_intro hc), if_neg (by simp [hd]), if_neg (by simp [hg])]

/-- A check whose failure would answer otherwise has passed. -/
theorem ite_passed {α : Type} {p : Prop} [Decidable p] {x y z : α} (h : (if p then x else y) = z) (hx : x ≠ z) : ¬p ∧ y = z := by
  by_cases hp : p
  · exact absurd ((if_pos hp).symm.trans h) hx
  · exact ⟨hp, (if_neg hp).symm.trans h⟩

/-- One answer for either of two conditions. -/
theorem ite_or_nested {α : Type} (p r : Prop) [Decidable p] [Decidable r] (x y : α) :
    (if p ∨ r then x else y) = if p then x else if r then x else y := by
  by_cases hp : p
  · rw [if_pos (.inl hp), if_pos hp]
  · rw [if_neg hp]
    exact ite_congr (propext ⟨fun h => h.resolve_left hp, .inr⟩) (fun _ => rfl) fun _ => rfl

/-- A check leaves the message with its flag of metadata aside for a read. -/
theorem hostCheck_read {s : State} {q : Nat} {m : PorporMsg} (h : hostCheck s q m true true = 0) : hostCheck s q m true false = 0 := by
  unfold hostCheck at h ⊢
  obtain ⟨hown, h⟩ := ite_passed h (by decide)
  obtain ⟨hhead, h⟩ := ite_passed h (by decide)
  obtain ⟨hlease, -⟩ := ite_passed h (by decide)
  exact (if_neg hown).trans ((if_neg hhead).trans ((if_neg hlease).trans (if_neg Bool.false_ne_true)))

/-- An ALLOC that passes its checks, by the extent and the entry that are free. -/
theorem hostAlloc_checked {s : State} {q n : Nat} {m : PorporMsg} (hc : hostCheck s q m false false = 0) :
    hostAlloc s q n m = match chooseExtent s m.group ((m.params[2]?).getD 0 * (m.params[3]?).getD 0), freePlace s with
      | some (b, a), some e =>
        if !hosts s m.group then porporAnswer s q n 3 7
        else
          let x : PlaceEnt := { valid := true, hosted := true, k := (m.params[0]?).getD 0, m := (m.params[1]?).getD 0, group := m.group,
                                chunks := (m.params[2]?).getD 0, stripes := (m.params[3]?).getD 0, origin := m.origin, oent := m.entry,
                                slots := [{ shelf := ownShelf s, bay := b, start := a }] }
          porporReply (tabUpdate s (.place e x)) q 5 { m with reqSlot := n, params := [b, a] }
      | _, _ => porporAnswer s q n 3 5 :=
  if_neg (not_not_intro hc)

/-- A LEASE_FREE that passes its checks, by the entry it finds. -/
theorem hostFree_checked {s : State} {q n : Nat} {m : PorporMsg} (hc : hostCheck s q m false false = 0) :
    hostFree s q n m = match hostedEntry s m with
      | none => porporAnswer s q n 3 3
      | some x => porporAnswer (dropPlace s x.1) q n 2 0 :=
  if_neg (not_not_intro hc)

/-- A queue pair that is no Porpor one that receives has no message to take. -/
theorem porporTake_off {s : State} {q : Nat} (op : Nat) (h : porporOn s q = false) : porporTake s q op = none :=
  if_neg (by simp [h])

/-- Settles O44: each request with its message taken, by its checks and what it finds. -/
theorem hostedRequests : Obligations.HostedRequests := by
  unfold Obligations.HostedRequests
  refine ⟨?strip, ?stripRefused, ?alloc, ?free, ?none_⟩
  case strip =>
    rintro s u q n d m ⟨hq, ht, rfl⟩ ⟨hh, hc, hd, hg⟩
    exact ⟨(onPorpor_taken _ hq ht).trans (congrArg _ (hostStrip_served hh hc hd hg)),
      (onPorpor_taken _ hq ht).trans (congrArg _ (hostStrip_served (rd := true) hh (hostCheck_read hc) hd hg))⟩
  case stripRefused =>
    rintro s u q n k d m rd i ⟨hq, ht, rfl, rfl⟩
    have hrow : exec (if rd then .stripRead q n d else .stripWrite q n d) s = .next (hostStrip u q n (readMsg d) rd) := by
      cases rd <;> exact onPorpor_taken _ hq ht
    rw [hrow]
    refine ⟨fun hh hc hk => congrArg _ ?_, fun hh hc hd => congrArg _ ?_, fun hh hc hd hg => congrArg _ ?_,
      fun hh => congrArg _ (hostStrip_serving hh)⟩
    · rw [hostStrip_free hh, hc, if_pos hk]
    · rw [hostStrip_free hh, if_neg (not_not_intro hc), if_pos (by simp [hd])]
    · rw [hostStrip_free hh, if_neg (not_not_intro hc), if_neg (by simp [hd]), if_pos (by simp [hg])]
  case alloc =>
    rintro s u q n b a e k d m sz ⟨hq, ht, rfl, rfl⟩
    have hrow : exec (.alloc q n d) s = .next (hostAlloc u q n (readMsg d)) := onPorpor_taken _ hq ht
    rw [hrow]
    refine ⟨fun hc hk => congrArg _ ?_, fun hc hx he hg => congrArg _ ?_, fun hc hx he hg => congrArg _ ?_, fun hc hno => congrArg _ ?_⟩
    · subst hc
      exact if_pos hk
    · rw [hostAlloc_checked hc, hx, he]
      exact if_pos (by simp [hg])
    · rw [hostAlloc_checked hc, hx, he]
      exact if_neg (by simp [hg])
    · rw [hostAlloc_checked hc]
      rcases hno with hno | hno
      · rw [hno]
      · rw [hno]
        cases chooseExtent u (readMsg d).group _ <;> rfl
  case free =>
    rintro s u q n k d m x ⟨hq, ht, rfl⟩
    have hrow : exec (.leaseFree q n d) s = .next (hostFree u q n (readMsg d)) := onPorpor_taken _ hq ht
    rw [hrow]
    refine ⟨fun hc hk => congrArg _ ?_, fun hc hx => congrArg _ ?_, fun hc hx => congrArg _ ?_⟩
    · subst hc
      exact if_pos hk
    · rw [hostFree_checked hc, hx]
    · rw [hostFree_checked hc, hx]
  case none_ =>
    intro s q n d i hi
    simp only [List.mem_cons, List.not_mem_nil, or_false] at hi
    rcases hi with rfl | rfl | rfl | rfl <;>
      exact ⟨fun hq ht => onPorpor_untaken _ hq ht, fun hq => onPorpor_absent _ hq, fun h => porporTake_off 1 h⟩

/-- An accept or a refusal of a request that is outstanding, and of none. -/
theorem porporAccept_outstanding {s : State} {q n : Nat} {f : Frag} (h : fragAt s q n = some f) :
    porporAccept s q n = fedSettle (fragAccept s f) := by
  unfold porporAccept
  rw [h]

theorem porporAccept_none {s : State} {q n : Nat} (h : fragAt s q n = none) : porporAccept s q n = s := by
  unfold porporAccept
  rw [h]

theorem porporRefuse_outstanding {s : State} {q n k : Nat} {f : Frag} (h : fragAt s q n = some f) :
    porporRefuse s q n k = fedSettle (fragRefuse s f k) := by
  unfold porporRefuse
  rw [h]

theorem porporRefuse_none {s : State} {q n k : Nat} (h : fragAt s q n = none) : porporRefuse s q n k = s := by
  unfold porporRefuse
  rw [h]

/-- READ_DATA, by the read it answers. -/
theorem readDataArrives_matching {s : State} {q : Nat} {m : PorporMsg} {f : Frag} (h : replyFrag s q m 2 = some f) :
    readDataArrives s q m = fedSettle (remoteRead (fragDrop s f) f ((m.params[0]?).getD 0 == 0)) := by
  unfold readDataArrives
  rw [h]

theorem readDataArrives_none {s : State} {q : Nat} {m : PorporMsg} (h : replyFrag s q m 2 = none) : readDataArrives s q m = s := by
  unfold readDataArrives
  rw [h]

/-- ALLOC_REPLY, by the request it answers and the lease that asked for it. -/
theorem allocReply_matching {s : State} {q : Nat} {m : PorporMsg} {f : Frag} (h : replyFrag s q m 4 = some f) :
    allocReply s q m = fedSettle (match leaseOf (fragDrop s f) f.entry with
      | some l => leaseGot (fragDrop s f) l f.member f.shelf ((m.params[0]?).getD 0) ((m.params[1]?).getD 0)
      | none => if (placeEnt (fragDrop s f) f.entry).any fun v => v.cur.valid then
          spareTaken (fragDrop s f) f ((m.params[0]?).getD 0) ((m.params[1]?).getD 0)
        else sendFree (fragDrop s f) f.entry f.shelf) := by
  unfold allocReply
  rw [h] <;> rfl

theorem allocReply_none {s : State} {q : Nat} {m : PorporMsg} (h : replyFrag s q m 4 = none) : allocReply s q m = s := by
  unfold allocReply
  rw [h]

/-- A request that times out, by its TAG. -/
theorem fragTimeout_found {s : State} {t : Nat} {b : Bool} {f : Frag} (h : (s.fed.frags.find? fun f => f.tag == t) = some f) :
    fragTimeout s t b = if fragHeld f then s else fedSettle (if b then fragAccept s f else fragLate s f) := by
  unfold fragTimeout
  rw [h]

theorem fragTimeout_gone {s : State} {t : Nat} {b : Bool} (h : (s.fed.frags.find? fun f => f.tag == t) = none) : fragTimeout s t b = s := by
  unfold fragTimeout
  rw [h]

/-- Settles O45: each answer with its signal taken, by the request it is for. -/
theorem federationAnswers : Obligations.FederationAnswers := by
  unfold Obligations.FederationAnswers
  refine ⟨?accept, ?refuse, ?none_, ?data, ?reply, ?timeout⟩
  case accept =>
    rintro s u q n ⟨hq, ht⟩
    have hrow : exec (.porporAccept q n) s = .next (atPoint u 8 (qpOf u q).member (.accept q n) fun t => porporAccept t q n) :=
      onPorpor_taken _ hq ht
    rw [hrow]
    refine ⟨fun f hi hf => congrArg _ ?_, fun hi hf => congrArg _ ?_, rfl⟩
    · rw [atPoint_none _ _ hi, porporAccept_outstanding hf]
    · rw [atPoint_none _ _ hi, porporAccept_none hf]
  case refuse =>
    rintro s u q n k ⟨hq, ht⟩
    have hrow : exec (.porporRefuse q n k) s = .next (atPoint u 8 (qpOf u q).member (.refuse q n k) fun t => porporRefuse t q n k) :=
      onPorpor_taken _ hq ht
    rw [hrow]
    refine ⟨fun f hi hf => congrArg _ ?_, fun hi hf => congrArg _ ?_, rfl⟩
    · rw [atPoint_none _ _ hi, porporRefuse_outstanding hf]
      refine congrArg fedSettle (ite_congr rfl (fun _ => rfl) fun _ => ?_)
      exact ite_congr (by simp) (fun _ => rfl) fun _ => rfl
    · rw [atPoint_none _ _ hi, porporRefuse_none hf]
  case none_ =>
    intro s q n k d x hx
    simp only [List.mem_cons, List.not_mem_nil, or_false] at hx
    rcases hx with rfl | rfl | rfl | rfl <;> exact ⟨fun hq ht => onPorpor_untaken _ hq ht, fun hq => onPorpor_absent _ hq⟩
  case data =>
    rintro s u q d m f ⟨hq, ht, rfl⟩
    exact ⟨fun hf => (onPorpor_taken _ hq ht).trans (congrArg _ (readDataArrives_matching hf)),
      fun hf => (onPorpor_taken _ hq ht).trans (congrArg _ (readDataArrives_none hf))⟩
  case reply =>
    rintro s u q d m f l ⟨hq, ht, rfl⟩
    have hrow : exec (.allocReply q d) s = .next (allocReply u q (readMsg d)) := onPorpor_taken _ hq ht
    rw [hrow]
    refine ⟨fun hf => congrArg _ (allocReply_none hf), fun hf hl => ?_, fun hf hl => ?_⟩
    · rw [allocReply_matching hf, hl]
    · rw [allocReply_matching hf, hl]
  case timeout =>
    intro s t f b
    have hrow (b : Bool) : exec (.fragTimeout t b) s = .next (fragTimeout s t b) := rfl
    rw [hrow, hrow, hrow]
    refine ⟨fun hf => congrArg _ (fragTimeout_gone hf), fun hf hh => congrArg _ ((fragTimeout_found hf).trans (if_pos hh)),
      fun hf hh => ⟨congrArg _ ?_, congrArg _ ?_⟩⟩
    · rw [fragTimeout_found hf, if_neg (by simp [hh]), if_pos rfl]
    · rw [fragTimeout_found hf, if_neg (by simp [hh]), if_neg Bool.false_ne_true]
      exact congrArg fedSettle ((ite_congr (by simp) (fun _ => rfl) fun _ => rfl).trans (ite_or_nested ..).symm)

end Sys2Proof.Machine
end

section
/-! Peer windows, the members of the federation and its leases (R353 to R360, R373, R375). -/

namespace Sys2Proof.Machine

/-- A fold of an operation that keeps a part of the state keeps that part. -/
theorem foldl_keeps {α β : Type} (g : State → β) (f : State → α → State) (l : List α) (s : State) (h : ∀ s x, g (f s x) = g s) :
    g (l.foldl f s) = g s := by
  induction l generalizing s with
  | nil => rfl
  | cons x l ih => exact (ih (f s x)).trans (h s x)

/-- The shelf this controller stands in is a matter of its configuration. -/
theorem ownShelf_congr {s t : State} (h : s.cfg = t.cfg) : ownShelf s = ownShelf t := by
  simp only [ownShelf, par, h]

@[simp] theorem sendMsg_cfg (s : State) (q : Nat) (m : Msg) : (sendMsg s q m).cfg = s.cfg := by
  unfold sendMsg
  dsimp only
  split <;> simp

@[simp] theorem fragPost_cfg (s : State) (f : Frag) (l : List Nat) : (fragPost s f l).1.cfg = s.cfg := by
  unfold fragPost
  dsimp only
  split
  · rfl
  split
  · rfl
  · dsimp only
    split <;> simp

@[simp] theorem fragSend_cfg (s : State) (f : Frag) (l : List Nat) : (fragSend s f l).cfg = s.cfg := by
  unfold fragSend
  dsimp only
  rw [fragPost_cfg]

@[simp] theorem tdmSend_cfg (s : State) (o : Out) : (tdmSend s o).cfg = s.cfg := by
  unfold tdmSend
  exact (emit_cfg _ _).trans (count_cfg _ _ _ _ _)

@[simp] theorem issueDrive_cfg (s : State) (b : Nat) (u : DrvUse) (d : DriveSlot) (l : List Nat) : (issueDrive s b u d l).1.cfg = s.cfg := by
  unfold issueDrive
  dsimp only
  split
  · rfl
  split
  · rfl
  · exact (emit_cfg _ _).trans ((count_cfg _ _ _ _ _).trans rfl)

/-- A record of the journal names a placement entry: the catalog takes it and nothing of the configuration moves. -/
theorem catRecord_journal_place_cfg (s : State) (q e : Nat) (x : PlaceEnt) (w : List Nat) (k o : Nat) :
    (catRecord s [.journal ⟨q, .place e x, w⟩] k o).cfg = s.cfg := by
  have hdone : (catDone (catApply s [.journal ⟨q, .place e x, w⟩]) none 0 k o).cfg = s.cfg := writeEvent_cfg _ _
  unfold catRecord
  dsimp only
  split
  · exact (tdmSend_cfg _ _).trans hdone
  · exact hdone

/-- A change of a placement entry leaves the configuration. -/
theorem tabUpdate_place_cfg (s : State) (e : Nat) (x : PlaceEnt) : (tabUpdate s (.place e x)).cfg = s.cfg := by
  unfold tabUpdate
  split
  · refine (foldl_keeps State.cfg _ _ _ fun t b => issueDrive_cfg t b _ _ _).trans ?_
    dsimp only [putPlace, setPlace]
    split
    · rfl
    · exact catRecord_journal_place_cfg _ _ _ _ _ _ _
  · rfl

/-- A catalog command where this controller writes the catalog itself, and where it does not. -/
theorem catCommand_here {s : State} (c : Cid) (es : List CatEdit) (w k o : Nat) (h : catWay s = .alone ∨ catWay s = .sideA) :
    catCommand s c es w k o = catFollowAll s (catChange s (some c) es w k o) es := by
  unfold catCommand
  rcases h with h | h <;> rw [h]

theorem catCommand_elsewhere {s : State} (c : Cid) (es : List CatEdit) (w k o : Nat) (h : catWay s ≠ .alone) (h' : catWay s ≠ .sideA) :
    catCommand s c es w k o = catChange s (some c) es w k o := by
  unfold catCommand
  dsimp only
  split
  · contradiction
  · contradiction
  · rfl
  · rfl

/-- Federation Member Set with the federation on, by its entry. -/
theorem memberSet_on {s : State} {c : Cid} {d : List Byte} (h : fedOn s = true) :
    memberSet s c d = match memberEntry d with
      | none => reply s c .invalidField
      | some (k, m) => catCommand s c [.member k m] 0 4 k := if_neg (by simp [h])

/-- A write of a window's control with APPLY, by whether its shadow range may stand. -/
theorem pwinCtlWrite_apply {s : State} {v w : Nat} {x : PWin} (hw : w = field (rwGet s 0x80200 0) 0 10)
    (hx : x = { winOf s w with sCtl := field v 0 13 }) (hm : authMode s = true) (ha : bitAt v 31 = true) :
    pwinCtlWrite s v =
      if decide (x.sLimit ≤ x.sBase) || decide (131072 < x.sLimit)
        || (winTaken (setWin s w x) w).any fun r => rangesMeet x.sBase x.sLimit r.1 r.2 then
        writeEvent (setWin (setWin s w x) w { x with rejected := true }) { num := 0x0720, inst := w, detail := [w] }
      else
        let i := bumpInstar x.instar s.now (ticksMs 1)
        let t := setWin (setWin s w x) w { x with rejected := false, instar := i, kept := x.kept ++ keptSlots (setWin s w x) w x x.sBase x.sLimit }
        if i.val = x.instar.val then t else tabUpdate t (.win w) := by
  subst hw hx
  exact (if_neg (by simp [hm])).trans (if_neg (by simp [ha]))

/-- The geometry of a lease and the shelves it names are right (R359). -/
structure LeaseSound (s : State) (k m n : Nat) (l sp : List Nat) : Prop where
  fed : fedOn s = true
  geometry : 2 ≤ k ∧ k ≤ 28 ∧ 1 ≤ m ∧ m ≤ 4 ∧ n ≠ 0 ∧ l.contains 0xFFFF = false
  members : (l ++ sp).any (fun h => (memberOf s h).state != 1) = false
  once : l.eraseDups.length = l.length

/-- The placement entry a Lease Create enters. -/
def leasePlace (s : State) (k m g n e : Nat) (l sp : List Nat) : PlaceEnt :=
  { valid := true, k := k, m := m, group := g, chunks := n, stripes := stripesOf k, origin := ownMember s, oent := e, spares := sp,
    slots := l.map fun h => { shelf := h } }

/-- A lease with its entry taken, its ALLOCs to be sent. -/
def leaseBegun (s : State) (c : Cid) (e : Nat) (l : List Nat) (x : PlaceEnt) : State :=
  let t := tabUpdate s (.place e x)
  { t with fed := { t.fed with leases := t.fed.leases ++ [⟨c, e, l, [], none⟩] } }

/-- Lease Create with a sound lease, a free entry and the group owned. -/
theorem leaseCreate_sound {s : State} {c : Cid} {a b e : Nat} {d : List Byte} {l sp : List Nat}
    (hl : l = shelfIds d 0 (field a 8 8 + field a 16 8)) (hsp : sp = (shelfIds d 64 4).filter (· != 0xFFFF))
    (h : LeaseSound s (field a 8 8) (field a 16 8) (field b 0 16) l sp) (he : freePlace s = some e)
    (ho : (grpOf s (field a 0 1)).owned = true) :
    leaseCreate s c a b d =
      let own := if l.contains (ownShelf s) then chooseExtent s (field a 0 1) (field b 0 16 * stripesOf (field a 8 8)) else none
      if l.contains (ownShelf s) && own.isNone then
        reply (writeEvent s { num := 0x0824, inst := e, detail := [ownShelf s, 5] }) c (.vendor 0xF1)
      else l.zipIdx.foldl (fun s i =>
          if i.1 = ownShelf s then match leaseOf s e, own with
            | some x, some (y, z) => leaseGot s x i.2 i.1 y z
            | _, _ => s
          else fragSend s (plainFrag 4 e i.2 i.1 []) [field a 8 8, field a 16 8, field b 0 16, stripesOf (field a 8 8)])
        (leaseBegun s c e l (leasePlace s (field a 8 8) (field a 16 8) (field a 0 1) (field b 0 16) e l sp)) := by
  obtain ⟨hfed, ⟨hk, hk', hm, hm', hn, hall⟩, hmem, honce⟩ := h
  subst hl hsp
  unfold leaseCreate
  dsimp only
  rw [if_neg (by simp [hfed]), if_neg, if_neg (Bool.eq_false_iff.mp hmem), if_neg (not_not_intro honce), he]
  · exact if_neg (by simp [ho])
  · simp only [hall, Bool.or_eq_true, decide_eq_true_eq, Bool.false_eq_true, or_false]
    omega

/-- The ALLOCs of a lease that names none of its own shelf go out to every shelf: sending them leaves the own shelf. -/
theorem leaseSends {e : Nat} {u : State} {fs : List Nat} (f : State → Nat × Nat → State) (l : List (Nat × Nat))
    (h : ∀ i ∈ l, i.1 ≠ ownShelf u) :
    l.foldl (fun s i => if i.1 = ownShelf s then f s i else fragSend s (plainFrag 4 e i.2 i.1 []) fs) u
      = l.foldl (fun s i => fragSend s (plainFrag 4 e i.2 i.1 []) fs) u := by
  induction l generalizing u with
  | nil => rfl
  | cons i l ih =>
    rw [List.foldl_cons, List.foldl_cons, if_neg (h i List.mem_cons_self)]
    refine ih fun j hj => ?_
    rw [ownShelf_congr (fragSend_cfg u _ _)]
    exact h j (List.mem_cons_of_mem i hj)

/-- Entering a lease leaves the own shelf. -/
theorem leaseBegun_ownShelf (s : State) (c : Cid) (e : Nat) (l : List Nat) (x : PlaceEnt) : ownShelf (leaseBegun s c e l x) = ownShelf s :=
  ownShelf_congr (tabUpdate_place_cfg s e x)

/-- Lease Read, by the entry it finds. -/
theorem leaseRead_entry {s : State} {c : Cid} {d : Nat} {v : VEnt PlaceEnt} (h : placeEnt s (field d 0 16) = some v) :
    leaseRead s c d = if v.cur.valid && (leaseOf s (field d 0 16)).isNone then reply s c .success (v.ver % 65536) (placeBytes v.cur)
      else reply s c (.vendor 0xE2) := by
  unfold leaseRead
  dsimp only
  rw [h]

theorem leaseRead_absent {s : State} {c : Cid} {d : Nat} (h : placeEnt s (field d 0 16) = none) :
    leaseRead s c d = reply s c (.vendor 0xE2) := by
  unfold leaseRead
  dsimp only
  rw [h]

/-- Lease Release, by the entry it finds. -/
theorem leaseRelease_entry {s : State} {c : Cid} {d : Nat} {v : VEnt PlaceEnt} (h : placeEnt s (field d 0 16) = some v) :
    leaseRelease s c d =
      if !v.cur.valid || v.cur.hosted || (leaseOf s (field d 0 16)).isSome then reply s c (.vendor 0xE2)
      else if !(fedChunks s (field d 0 16)).isEmpty then reply s c (.vendor 0xE3)
      else reply (dropPlace (v.cur.slots.foldl (fun s q => if q.shelf = ownShelf s then s else sendFree s (field d 0 16) q.shelf) s)
        (field d 0 16)) c .success := by
  unfold leaseRelease
  dsimp only
  rw [h]

theorem leaseRelease_absent {s : State} {c : Cid} {d : Nat} (h : placeEnt s (field d 0 16) = none) :
    leaseRelease s c d = reply s c (.vendor 0xE2) := by
  unfold leaseRelease
  dsimp only
  rw [h]

/-- Settles O46: each command by its checks in order, the lease's ALLOCs by the shelves it names. -/
theorem federationManagement : Obligations.FederationManagement := by
  unfold Obligations.FederationManagement
  refine ⟨?window, ?member, ?leaseFails, ?leaseRemote, ?leaseOwn, ?reads, ?releases, ?refused⟩
  case window =>
    rintro s v w x ⟨hw, hx⟩
    refine ⟨fun hm => congrArg Host.Outcome.next (if_pos (by simp [hm])), fun hm ha => congrArg Host.Outcome.next ?_,
      fun hm ha hbad => congrArg Host.Outcome.next ?_, fun hm ha h1 h2 h3 => ⟨_, _, rfl, rfl, congrArg Host.Outcome.next ?_⟩⟩
    · subst hw hx
      exact (if_neg (by simp [hm])).trans (if_pos (by simp [ha]))
    · refine (pwinCtlWrite_apply hw hx hm ha).trans (if_pos ?_)
      simp only [Bool.or_eq_true, decide_eq_true_eq]
      rwa [or_assoc]
    · refine (pwinCtlWrite_apply hw hx hm ha).trans (if_neg ?_)
      simp only [h3, Bool.or_eq_true, decide_eq_true_eq, Bool.false_eq_true, or_false]
      omega
  case member =>
    intro s c d k m h
    have hrow : exec (.federationMemberSet c d) s = .next (memberSet s c d) := congrArg Host.Outcome.next (asManager_granted _ h)
    rw [hrow]
    refine ⟨fun hf => congrArg _ (if_pos (by simp [hf])), fun hf he => congrArg _ ?_, fun hf he hw => congrArg _ ?_,
      fun hf he hw hw' => congrArg _ ?_⟩
    · rw [memberSet_on hf, he]
    · rw [memberSet_on hf, he]
      exact catCommand_here c _ _ _ _ hw
    · rw [memberSet_on hf, he]
      exact catCommand_elsewhere c _ _ _ _ hw hw'
  case leaseFails =>
    rintro s c a b k m d l ⟨h, rfl, rfl, rfl⟩ hfail
    refine congrArg Host.Outcome.next ((asManager_granted _ h).trans ?_)
    rw [apply_ite (reply s c ·), apply_ite (reply s c ·), apply_ite (reply s c ·), apply_ite (reply s c ·), apply_ite (reply s c ·)]
    unfold leaseCreate
    dsimp only
    refine ite_congr (by simp) (fun _ => rfl) fun hfed => ite_congr ?_ (fun _ => rfl) fun hgeo => ?_
    · simp only [Bool.or_eq_true, decide_eq_true_eq, or_assoc]
    refine ite_congr rfl (fun _ => rfl) fun hmem => ite_congr rfl (fun _ => rfl) fun honce => ?_
    cases he : freePlace s with
    | none => exact (if_pos rfl).symm
    | some e =>
      refine (if_pos ?_).trans (if_neg (by simp)).symm
      rcases hfail with hf | hg | hg | hg | hg | hg | hg | hf | hf | hf | hf
      · simp [hf] at hfed
      iterate 5 exact absurd (by simp [hg]) hgeo
      · exact absurd (.inr (.inr (.inr (.inr (.inr hg))))) hgeo
      · exact absurd hf hmem
      · exact absurd hf honce
      · simp [he] at hf
      · rw [hf, Bool.not_false]
  case leaseRemote =>
    rintro s c a b k m e d l sp ⟨h, rfl, rfl, hl, hsp⟩ ⟨hfed, hk, hk', hm, hm', hn, hall, hmem, honce, he, ho, hown⟩
    refine ⟨_, rfl, congrArg Host.Outcome.next ((asManager_granted _ h).trans ?_)⟩
    refine (leaseCreate_sound hl hsp ⟨hfed, ⟨hk, hk', hm, hm', hn, hall⟩, hmem, honce⟩ he ho).trans ((if_neg ?_).trans ?_)
    · rw [hown, Bool.false_and]
      exact Bool.false_ne_true
    refine leaseSends _ _ fun i hi heq => ?_
    have hmine : ownShelf s ∈ l := heq.trans (leaseBegun_ownShelf s c e l _) ▸ List.fst_mem_of_mem_zipIdx hi
    simp [hmine] at hown
  case leaseOwn =>
    rintro s c a b k m e d l sp ⟨h, rfl, rfl, hl, hsp⟩ ⟨hfed, hk, hk', hm, hm', hn, hall, hmem, honce, he, ho, hown⟩
    have hcreate := leaseCreate_sound (c := c) hl hsp ⟨hfed, ⟨hk, hk', hm, hm', hn, hall⟩, hmem, honce⟩ he ho
    refine ⟨fun hx => congrArg Host.Outcome.next ((asManager_granted _ h).trans (hcreate.trans ?_)),
      fun y z hx => ⟨_, rfl, congrArg Host.Outcome.next ((asManager_granted _ h).trans (hcreate.trans ?_))⟩⟩
    · rw [hown, hx]
      rfl
    · rw [hown, hx]
      refine (if_neg (by simp)).trans (congrArg (List.foldl · _ _) (funext fun u => funext fun i => ?_))
      exact ite_congr rfl (fun _ => by cases leaseOf u e <;> rfl) fun _ => rfl
  case reads =>
    intro s c d h
    refine ⟨fun v hv => congrArg Host.Outcome.next ((asManager_granted _ h).trans ((leaseRead_entry hv).trans ?_)),
      fun hv => congrArg Host.Outcome.next ((asManager_granted _ h).trans (leaseRead_absent hv))⟩
    exact ite_congr (by simp) (fun _ => rfl) fun _ => rfl
  case releases =>
    rintro s c d e ⟨h, rfl⟩
    refine ⟨fun v hv => congrArg Host.Outcome.next ((asManager_granted _ h).trans ((leaseRelease_entry hv).trans ?_)),
      fun hv => congrArg Host.Outcome.next ((asManager_granted _ h).trans (leaseRelease_absent hv))⟩
    exact ite_congr (by simp [or_assoc]) (fun _ => rfl) fun _ => ite_congr (by simp) (fun _ => rfl) fun _ => rfl
  case refused =>
    intro s c a b d e x hx
    simp only [List.mem_cons, List.not_mem_nil, or_false] at hx
    rcases hx with rfl | rfl | rfl | rfl <;>
      exact ⟨fun h => congrArg Host.Outcome.next (asManager_unserved _ h),
        fun h he => congrArg Host.Outcome.next (asManager_refused _ h he)⟩

end Sys2Proof.Machine
end

section
/-! The timers of the switch (R377 to R399), and the scan chain, the link and the containment of a spoke (R404 to R428). -/

namespace Sys2Proof.Machine

/-- A timeout of a destination the record waits for, that did not accept in the same cycle. -/
theorem mcastTimeout_late {s : State} {tandem : Bool} {n : Nat} {c : Ctx} (hof : ctxOf s n = some c)
    (hw : mcastWaits c (if tandem then 2 else 1) = true) :
    mcastTimeout s tandem n false =
      let t := if tandem then mcastTandemFail s n c
        else stackFail (rcAdd s 0x4002C 0 1) (field (pageAddr false (c.pages.headD 0) false) 12 1)
      match ctxOf t n with
      | some d => mcastDone t n d (if tandem then 2 else 1)
      | none => t := by
  unfold mcastTimeout
  rw [hof]
  exact (if_neg (by simp [hw])).trans (if_neg Bool.false_ne_true)

/-- A timeout of a destination that accepted in the same cycle, and of one the record does not wait for. -/
theorem mcastTimeout_accepted {s : State} {tandem : Bool} {n : Nat} {c : Ctx} (hof : ctxOf s n = some c)
    (hw : mcastWaits c (if tandem then 2 else 1) = true) : mcastTimeout s tandem n true = mcastDone s n c (if tandem then 2 else 1) := by
  unfold mcastTimeout
  rw [hof]
  exact (if_neg (by simp [hw])).trans (if_pos rfl)

theorem mcastTimeout_done {s : State} {tandem : Bool} {n : Nat} {c : Ctx} (a : Bool) (hof : ctxOf s n = some c)
    (hw : mcastWaits c (if tandem then 2 else 1) = false) : mcastTimeout s tandem n a = s := by
  unfold mcastTimeout
  rw [hof]
  exact if_pos (by simp [hw])

theorem mcastTimeout_gone {s : State} {tandem : Bool} {n : Nat} (a : Bool) (hof : ctxOf s n = none) : mcastTimeout s tandem n a = s := by
  unfold mcastTimeout
  rw [hof]

/-- A destination that is done with a record: the other is still wanted, or its cells are freed. -/
theorem mcastDone_record {s : State} {n need got d : Nat} {c : Ctx} (h : c.mcast = some (need, got)) :
    mcastDone s n c d = if need &&& (got ||| d) = need then setCtx (freeCells s c.cells) n (some { c with cells := 0, mcast := none })
      else setCtx s n (some { c with mcast := some (need, got ||| d) }) := by
  unfold mcastDone
  rw [h]

/-- A bucket that was placed. -/
theorem bucketBack_placed {s : State} {b : Nat} {e : VEnt Bucket} (h : tget s.swc.derail none b = some e) :
    bucketBack s b = if e.cur.sub ≠ e.cur.init && (subOf s e.cur.init).up && decide (tget s.swc.used 0 b + rebalIdle s ≤ s.now) then
      tabUpdate s (.derail b { e.cur with sub := e.cur.init }) else s := by
  unfold bucketBack
  rw [h]

theorem bucketBack_unplaced {s : State} {b : Nat} (h : tget s.swc.derail none b = none) : bucketBack s b = s := by
  unfold bucketBack
  rw [h]

/-- A pass of the leak audit, by what it finds marked. -/
theorem auditPass_nil {s : State} {l : List (Nat × Nat)} (h : (l.filter fun x => s.swc.marked.contains x.1) = []) :
    auditPass s l = { s with swc := { s.swc with
      passes := min 65535 (s.swc.passes + 1), marked := (l.filter fun x => !s.swc.marked.contains x.1).map Prod.fst } } := by
  unfold auditPass
  dsimp only
  rw [h]

theorem auditPass_cons {s : State} {l r : List (Nat × Nat)} {x : Nat × Nat} (h : (l.filter fun x => s.swc.marked.contains x.1) = x :: r) :
    auditPass s l = writeEvent (rcAdd ((l.filter fun x => s.swc.marked.contains x.1).foldl (fun u y => reclaimCell u y.1)
      { s with swc := { s.swc with
        passes := min 65535 (s.swc.passes + 1), marked := (l.filter fun x => !s.swc.marked.contains x.1).map Prod.fst } })
      0x40030 0 (l.filter fun x => s.swc.marked.contains x.1).length)
      { num := 0x0305, detail := [(l.filter fun x => s.swc.marked.contains x.1).length, x.2] } := by
  unfold auditPass
  dsimp only
  rw [h]

/-- Settles O47: each row by the queue, the record, the bucket or the register it names. -/
theorem switchTimers : Obligations.SwitchTimers := by
  unfold Obligations.SwitchTimers
  refine ⟨?pfc, ?mcast, ?mcastDone, ?mcastGone, ?bucket, ?audit, ?shaper, ?policer, ?select⟩
  case pfc =>
    refine fun s b p => ⟨fun hb hp => if_pos ⟨hb, hp⟩, fun h => ⟨_, if_neg ?_⟩⟩
    omega
  case mcast =>
    intro s n c b hof
    exact ⟨fun hw a => congrArg Host.Outcome.next (mcastTimeout_done a hof hw),
      fun hw => congrArg Host.Outcome.next (mcastTimeout_accepted hof hw), fun hw => ⟨_, rfl,
        fun d hd => congrArg Host.Outcome.next ((mcastTimeout_late hof hw).trans (by dsimp only; rw [hd])),
        fun hd => congrArg Host.Outcome.next ((mcastTimeout_late hof hw).trans (by dsimp only; rw [hd]))⟩⟩
  case mcastDone =>
    exact fun s n d need got c h => ⟨fun hn => (mcastDone_record h).trans (if_pos hn), fun hn => (mcastDone_record h).trans (if_neg hn)⟩
  case mcastGone => exact fun s n a b hof => congrArg Host.Outcome.next (mcastTimeout_gone b hof)
  case bucket =>
    refine fun s b => ⟨fun hb h => (if_pos hb).trans (congrArg Host.Outcome.next (bucketBack_unplaced h)), fun e hb h => ?_,
      fun hb => if_neg (Nat.not_lt.mpr hb)⟩
    refine (if_pos hb).trans (congrArg Host.Outcome.next ((bucketBack_placed h).trans (ite_congr ?_ (fun _ => rfl) fun _ => rfl)))
    simp [and_assoc]
  case audit =>
    rintro s l m t ⟨rfl, rfl⟩
    exact ⟨fun h => congrArg Host.Outcome.next (auditPass_nil h), fun x r h => congrArg Host.Outcome.next (auditPass_cons h)⟩
  case shaper => exact fun s => rfl
  case policer => exact fun s => rfl
  case select =>
    intro s v
    exact congrArg Host.Outcome.next (ite_congr (by simp) (fun _ => rfl) fun _ => rfl)

/-- What a spoke's record reads as after it was written, where it is not that of a disabled spoke. -/
theorem spkOf_setSpk {s : State} {b : Nat} {p : Spoke} (h : p.state ≠ .disabled) : spkOf (setSpk s b p) b = p :=
  tget_tput_new _ _ (by rintro rfl; exact h rfl)

/-- A bay of which neither sample reaches the filter only counts. -/
theorem scanBay_counts {s : State} {l m : List Nat} {b : Nat} {p q : Spoke} (hp : p = spkOf s b)
    (hq : q = { p with presCnt := if l.contains b = p.present then 0 else p.presCnt + 1, btnCnt := if m.contains b = p.button then 0 else p.btnCnt + 1 })
    (h1 : q.presCnt < scanFilter s ∨ q.presCnt = 0) (h2 : q.btnCnt < scanFilter s ∨ q.btnCnt = 0) : scanBay s l m b = setSpk s b q := by
  have hfilter : scanFilter (setSpk s b q) = scanFilter s := rfl
  have hpres : ¬(decide (scanFilter (setSpk s b q) ≤ q.presCnt) && q.presCnt != 0) = true := by
    rcases h1 with h1 | h1
    · rw [hfilter, decide_eq_false (Nat.not_le.mpr h1)]
      exact Bool.false_ne_true
    · simp [h1]
  have hbtn : ¬(decide (scanFilter (setSpk s b q) ≤ q.btnCnt) && q.btnCnt != 0) = true := by
    rcases h2 with h2 | h2
    · rw [hfilter, decide_eq_false (Nat.not_le.mpr h2)]
      exact Bool.false_ne_true
    · simp [h2]
  subst hp hq
  unfold scanBay
  dsimp only at hpres hbtn ⊢
  rw [if_neg hpres, if_neg hbtn]

/-- A link at a speed and width its spoke trains to, outside Safe, by the spoke's state. -/
theorem linkUpSpoke_trains {s : State} {b g w : Nat} (hm : s.glb.mode ≠ .safe) (ht : spkTrains s b g w = true) :
    linkUpSpoke s b g w = match (spkOf s b).state with
      | .training =>
        let t := writeEvent (w1cSet (setSpk s b { spkOf s b with state := .initializing, gts := g, width := w, dl := true }) 0xA0018 b 0x100)
          { num := 0x0901, inst := b, detail := [b, g, w] }
        startBring (if (spkOf s b).tries = 0 then t else transient t 9 b 1 0x0902) b
      | .resetting =>
        startBring (writeEvent (setSpk s b { spkOf s b with gts := g, width := w, dl := true, fenced := false })
          { num := 0x0901, inst := b, detail := [b, g, w] }) b
      | _ => s := by
  unfold linkUpSpoke
  exact if_neg (by simp [hm, ht])

/-- A link in Safe, at another speed or width, or of a spoke in another state. -/
theorem linkUpSpoke_ignored {s : State} {b g w : Nat}
    (h : s.glb.mode = .safe ∨ spkTrains s b g w = false ∨ (spkOf s b).state ≠ .training ∧ (spkOf s b).state ≠ .resetting) :
    linkUpSpoke s b g w = s := by
  by_cases hs : s.glb.mode = .safe ∨ spkTrains s b g w = false
  · exact if_pos (by simpa using hs)
  · obtain ⟨hm, ht⟩ := not_or.mp hs
    rw [linkUpSpoke_trains hm (by simpa using ht)]
    obtain ⟨h1, h2⟩ := (h.resolve_left hm).resolve_left ht
    split
    · contradiction
    · contradiction
    · rfl

/-- A port that trains, initializes, is ready or resets is contained. -/
theorem spkContain_live {s : State} {b k : Nat}
    (h : (spkOf s b).state = .training ∨ (spkOf s b).state = .initializing ∨ (spkOf s b).state = .ready ∨ (spkOf s b).state = .resetting) :
    spkContain s b k =
      let t := bumpSpoke (writeEvent s { num := 0x0905, inst := b, detail := [b, Config.code 0x0905 k] }) b
      w1cSet (reclaimSlots (setSpk t b { spkOf t b with
        state := .contained, dl := false, bring := 0, removal := 0, reclaimed := slotsUsed (spkOf s b),
        rcause := if k = 3 then (spkOf s b).rcause else 0 }) b) 0xA0018 b 0x100 := by
  unfold spkContain
  dsimp only
  rcases h with h | h | h | h <;> rw [h]

/-- Any other port is not. -/
theorem spkContain_other {s : State} {b k : Nat} (h1 : (spkOf s b).state ≠ .training) (h2 : (spkOf s b).state ≠ .initializing)
    (h3 : (spkOf s b).state ≠ .ready) (h4 : (spkOf s b).state ≠ .resetting) : spkContain s b k = s := by
  unfold spkContain
  dsimp only
  split <;> first | contradiction | rfl

/-- The release of a containment. -/
theorem containmentRelease_row {s : State} {b : Nat} (hb : b < 64) :
    exec (.containmentRelease b) s = .next (
      if (spkOf s b).state = .contained then
        if (spkOf s b).present then
          let t := if (spkOf s b).rcause = 0 then resetBegin s b 6 else spkTo s b .resetting
          if (spkOf t b).state = .resetting then emit (resetEvent t b) (.drive b 0x101 []) else t
        else spkGone s b true
      else s) := if_pos hb

/-- An orderly removal of a ready spoke, by how far it is. -/
theorem removalStep_ready {s : State} {b : Nat} {d : Bool} (h : (spkOf s b).state = .ready) :
    removalStep s b d = match (spkOf s b).removal with
      | 1 => if slotsUsed (spkOf s b) = 0 then emit (setSpk s b { spkOf s b with removal := 2 }) (.drive b 0x103 [1]) else s
      | 2 => if d then
          writeEvent (mapGone (setSpk (chanOffRequest s b) b { spkOf (chanOffRequest s b) b with
            state := if (spkOf s b).disabling then .disabled else .off, removal := 0, disabling := false, dl := false }) b)
            { num := 0x090B, inst := b, detail := [b] }
        else s
      | _ => s := if_neg (not_not_intro h)

/-- A press that still stands, by the spoke's state. -/
theorem buttonTimerExpiry_standing {s : State} {b : Nat} (hb : b < 64) (h : (spkOf s b).pendBtn = true) :
    exec (.buttonTimerExpiry b) s = .next (match (spkOf s b).state with
      | .ready => startRemoval s b false
      | .off => spkInsert (setSpk s b { spkOf s b with pendBtn := false }) b
      | _ => setSpk s b { spkOf s b with pendBtn := false }) :=
  (if_pos hb).trans (congrArg Host.Outcome.next (if_neg (by simp [h])))

/-- Settles O48: each row by the state of the spoke. -/
theorem spokeLink : Obligations.SpokeLink := by
  unfold Obligations.SpokeLink
  refine ⟨?frame, ?bay, ?timeout, ?up, ?contain, ?release, ?button, ?removal, ?absent⟩
  case frame => exact fun s l m => congrArg Host.Outcome.next (ite_congr (by simp) (fun _ => rfl) fun _ => rfl)
  case bay => exact fun s l m b p q h h1 h2 => scanBay_counts h.1 h.2 h1 h2
  case timeout =>
    rintro s b p ⟨hb, rfl⟩
    exact (if_pos hb).trans (congrArg Host.Outcome.next (ite_not ..).symm)
  case up =>
    rintro s b g w p ⟨hb, rfl⟩
    refine ⟨fun hm ht hs => ⟨_, rfl, ?_⟩, fun hm ht hs => ?_,
      fun h => (if_pos hb).trans (congrArg Host.Outcome.next (linkUpSpoke_ignored h))⟩
    · refine (if_pos hb).trans (congrArg Host.Outcome.next ((linkUpSpoke_trains hm ht).trans ?_))
      split
      next => rfl
      next h => exact absurd (h.symm.trans hs) (by decide)
      next h _ => exact absurd hs h
    · refine (if_pos hb).trans (congrArg Host.Outcome.next ((linkUpSpoke_trains hm ht).trans ?_))
      split
      next h => exact absurd (h.symm.trans hs) (by decide)
      next => rfl
      next _ h => exact absurd hs h
  case contain =>
    rintro s b k p ⟨hb, rfl, hk⟩
    refine ⟨(if_pos hb).trans rfl, fun h => ⟨_, rfl, ?_⟩, fun h1 h2 h3 h4 => ?_⟩
    · exact (if_pos hb).trans (congrArg Host.Outcome.next ((if_neg hk).trans (spkContain_live h)))
    · exact (if_pos hb).trans (congrArg Host.Outcome.next ((if_neg hk).trans (spkContain_other h1 h2 h3 h4)))
  case release =>
    rintro s b p l ⟨hb, rfl, rfl⟩
    rw [containmentRelease_row hb]
    refine ⟨fun hs => congrArg _ (if_neg hs), fun hs hp => congrArg _ ((if_pos hs).trans (if_neg (by simp [hp]))),
      fun hs hp hr hl hf => congrArg _ ((if_pos hs).trans ((if_pos hp).trans ?_)),
      fun hs hp hr hl => ⟨_, rfl, congrArg _ ((if_pos hs).trans ((if_pos hp).trans ?_))⟩,
      fun hs hp hr => congrArg _ ((if_pos hs).trans ((if_pos hp).trans ?_))⟩
    · have hbegin : resetBegin s b 6 = spkFail (setSpk s b { spkOf s b with resets := hourResets s b, rcause := 0 }) b 0x0909 := if_pos hl
      rw [if_pos hr, hbegin]
      exact if_neg hf
    · have hbegin : resetBegin s b 6 = rcAdd (setSpk s b { spkOf s b with
          state := .resetting, resets := hourResets s b ++ [s.now], rcause := 6, bring := 0, removal := 0 }) 0xA0030 b 1 :=
        if_neg (Nat.not_le.mpr hl)
      rw [if_pos hr, hbegin]
      exact if_pos (congrArg Spoke.state (spkOf_setSpk (by simp)))
    · rw [if_neg hr]
      exact if_pos (congrArg Spoke.state (spkOf_setSpk (by simp)))
  case button =>
    rintro s b p ⟨hb, rfl⟩
    by_cases hp : (spkOf s b).pendBtn = false
    · exact (if_pos hb).trans (congrArg Host.Outcome.next ((if_pos (by simp [hp])).trans (if_pos hp).symm))
    · rw [buttonTimerExpiry_standing hb (by simpa using hp), if_neg hp]
      refine congrArg _ ?_
      split
      next h => exact (if_pos h).symm
      next h => exact ((if_neg (by simp [h])).trans (if_pos h)).symm
      next h1 h2 => exact ((if_neg h1).trans (if_neg h2)).symm
  case removal =>
    rintro s b d p ⟨hb, rfl⟩
    have hrow (d : Bool) : exec (.orderlyRemovalProgress b d) s = .next (removalStep s b d) := if_pos hb
    rw [hrow, hrow, hrow]
    refine ⟨fun hs hr => ?_, fun hs hr => ⟨?_, ?_⟩, fun h => congrArg _ ?_⟩
    · rw [removalStep_ready hs, hr] <;> rfl
    · rw [removalStep_ready hs, hr] <;> rfl
    · rw [removalStep_ready hs, hr] <;> rfl
    · by_cases hs : (spkOf s b).state = .ready
      · obtain ⟨h1, h2⟩ := h.resolve_left (not_not_intro hs)
        rw [removalStep_ready hs]
        split
        · contradiction
        · contradiction
        · rfl
      · exact if_pos hs
  case absent =>
    intro s b g w x hb i hi
    simp only [List.mem_cons, List.not_mem_nil, or_false] at hi
    rcases hi with rfl | rfl | rfl | rfl | rfl | rfl <;> exact if_neg (Nat.not_lt.mpr hb)

end Sys2Proof.Machine
end

section
/-! The control registers of a spoke and Drive Format (R411 to R429), and the drive's own protocol (R416 to R428, R451). -/

namespace Sys2Proof.Machine

/-- RESET of an Unusable or Failed spoke: the insertion again, with the latch cleared first. -/
theorem ctlReset_unusable {s : State} {b : Nat} (h : (spkOf s b).state = .unusable ∨ (spkOf s b).state = .failed) :
    ctlReset s b =
      let t := if (chanOf s b).state = .latched then chanUnlatch s b 2 else s
      if (spkOf s b).present then
        if (chanOf t b).state = .on && (spkInsert t b).glb.mode ≠ .safe then
          setSpk (spkInsert t b) b { spkOf (spkInsert t b) b with state := .training }
        else spkInsert t b
      else t := by
  unfold ctlReset
  dsimp only
  rcases h with h | h <;> rw [h]

/-- RESET of any other spoke only clears a latch. -/
theorem ctlReset_other {s : State} {b : Nat} (h1 : (spkOf s b).state ≠ .ready) (h2 : (spkOf s b).state ≠ .unusable)
    (h3 : (spkOf s b).state ≠ .failed) : ctlReset s b = if (chanOf s b).state = .latched then chanUnlatch s b 2 else s := by
  unfold ctlReset
  dsimp only
  split <;> first | contradiction | rfl

/-- DISABLE of a spoke, by its state. -/
theorem ctlDisable_eq (s : State) (b : Nat) :
    ctlDisable s b = if (spkOf s b).state = .ready then startRemoval s b true
      else if (spkOf s b).state = .disabled then s
      else reclaimSlots (setSpk (chanOffRequest s b) b { spkOf (chanOffRequest s b) b with
        state := .disabled, dl := false, bring := 0, pendBtn := false, heldBtn := false, rcause := 0 }) b := by
  unfold ctlDisable
  split
  next h => exact (if_pos h).symm
  next h => exact ((if_neg (by simp [h])).trans (if_pos h)).symm
  next h1 h2 => exact ((if_neg h1).trans (if_neg h2)).symm

/-- Settles O49: each register by the state of the spoke, Drive Format by its checks in order. -/
theorem spokeControl : Obligations.SpokeControl := by
  unfold Obligations.SpokeControl
  refine ⟨?reset, ?power, ?disable, ?attn, ?idle, ?format, ?unserved, ?refused⟩
  case reset =>
    rintro s b p t ⟨hb, hm, rfl, rfl⟩
    have hrow : exec (.spokeCtlReset b) s = .next (ctlReset s b) := (if_pos hb).trans (congrArg Host.Outcome.next (if_pos hm))
    rw [hrow]
    refine ⟨fun hs => congrArg _ ?_, fun hs => congrArg _ ((ctlReset_unusable hs).trans ?_), fun h1 h2 h3 => congrArg _ (ctlReset_other h1 h2 h3)⟩
    · unfold ctlReset
      dsimp only
      rw [hs]
    · by_cases hp : (spkOf s b).present = true
      · exact (if_pos hp).trans ((ite_congr (by simp) (fun _ => rfl) fun _ => rfl).trans (if_neg (by simp [hp])).symm)
      · exact (if_neg hp).trans (if_pos (by simpa using hp)).symm
  case power =>
    rintro s b p ⟨hb, hm, rfl⟩
    exact ⟨(if_pos hb).trans (congrArg Host.Outcome.next (if_pos hm)), (if_pos hb).trans (congrArg Host.Outcome.next (if_pos hm))⟩
  case disable =>
    rintro s b p ⟨hb, hm, rfl⟩
    have henable : exec (.spokeCtlEnable b) s = .next (ctlEnable s b) := (if_pos hb).trans (congrArg Host.Outcome.next (if_pos hm))
    rw [henable]
    refine ⟨?_, fun hs hg => congrArg _ (if_pos (by simp [hs, hg])), fun h => congrArg _ (if_neg ?_)⟩
    · exact (if_pos hb).trans (congrArg Host.Outcome.next ((if_pos hm).trans (ctlDisable_eq s b)))
    · rcases h with h | h <;> simp [h]
  case attn =>
    rintro s b v ⟨hb, hm⟩
    exact (if_pos hb).trans (congrArg Host.Outcome.next (if_neg (by simp [hm])))
  case idle =>
    rintro s b n p ⟨hb, rfl⟩
    refine ⟨(if_pos hb).trans (congrArg Host.Outcome.next (ite_congr ?_ (fun _ => rfl) fun _ => rfl)), if_pos hb⟩
    simp [and_assoc]
  case format =>
    rintro s c d b o p ⟨h, rfl, rfl⟩
    refine congrArg Host.Outcome.next ((asManager_granted _ h).trans (ite_congr rfl (fun _ => rfl) fun _ => ?_))
    refine ite_congr (by simp) (fun _ => rfl) fun _ => ite_congr (by simp) (fun _ => rfl) fun _ => ?_
    exact ite_congr (by simp) (fun _ => rfl) fun _ => rfl
  case unserved =>
    refine fun s b v o => ⟨fun hb hm i hi => ?_, fun hb i hi => ?_⟩
    · have hoff : ¬authMode s = true := by simp [hm]
      have hslot : (!authMode s) = true := by simp [hm]
      simp only [List.mem_cons, List.not_mem_nil, or_false] at hi
      rcases hi with rfl | rfl | rfl | rfl | rfl | rfl
      iterate 5 exact (if_pos hb).trans (congrArg Host.Outcome.next (if_neg hoff))
      exact (if_pos hb).trans (congrArg Host.Outcome.next (if_pos hslot))
    · simp only [List.mem_cons, List.not_mem_nil, or_false] at hi
      rcases hi with rfl | rfl | rfl | rfl | rfl | rfl | rfl <;> exact if_neg (Nat.not_lt.mpr hb)
  case refused =>
    exact fun s c d o e => ⟨fun h => congrArg Host.Outcome.next (asManager_unserved _ h),
      fun h he => congrArg Host.Outcome.next (asManager_refused _ h he)⟩

/-- A drive's DMA of a spoke that is neither contained nor fenced, to an address that is not its own. -/
theorem dmaRequest_violation {s : State} {b a : Nat} {g : DmaTarget} (hs : (spkOf s b).state ≠ .contained) (hf : (spkOf s b).fenced = false)
    (hbuf : ∀ n, g = .buffer n → tget (spkOf s b).slots none n = none) (hq : g ≠ .queueMem) :
    dmaRequest s b a g =
      let t := writeEvent (emit (rcAdd s 0xA0038 b 1) (.drive b 0x102 [0, a])) { num := 0x090A, inst := b, detail := [b, a] }
      let u := setSpk t b { spkOf t b with violAt := some t.now }
      if (match (spkOf s b).violAt with
        | some v => decide (t.now < v + ticksS 1)
        | none => false) then spkReset u b 4 else u := by
  unfold dmaRequest
  dsimp only
  refine (if_neg hs).trans ((if_neg (by simp [hf])).trans (if_neg ?_))
  cases g with
  | queueMem => exact absurd rfl hq
  | buffer n => simp [hbuf n rfl]
  | other => exact Bool.false_ne_true

/-- A drive's DMA that is its own. -/
theorem dmaRequest_own {s : State} {b a : Nat} {g : DmaTarget} (hs : (spkOf s b).state ≠ .contained) (hf : (spkOf s b).fenced = false)
    (h : g = .queueMem ∨ ∃ n, g = .buffer n ∧ (tget (spkOf s b).slots none n).isSome = true) :
    dmaRequest s b a g = emit s (.drive b 0x102 [1, a]) := by
  unfold dmaRequest
  dsimp only
  rw [if_neg hs, if_neg (by simp [hf]), if_pos]
  rcases h with rfl | ⟨n, rfl, hn⟩
  · rfl
  · exact hn

/-- A reset of a spoke that is ready or resets and had none in the last second, by the resets of the last hour. -/
theorem spkReset_quiet {s : State} {b k : Nat} (hs : (spkOf s b).state = .ready ∨ (spkOf s b).state = .resetting)
    (hq : (hourResets s b).any (fun t => decide (s.now < t + ticksS 1)) = false) :
    spkReset s b k = if (spkOf (resetBegin s b k) b).state = .resetting then emit (resetBegin s b k) (.drive b 0x100 [0])
      else resetBegin s b k :=
  (if_pos (by simpa using hs)).trans (if_neg (Bool.eq_false_iff.mp hq))

/-- A spoke in another state, or reset in the last second, is not reset. -/
theorem spkReset_ignored {s : State} {b k : Nat} (h : (spkOf s b).state ≠ .ready ∧ (spkOf s b).state ≠ .resetting
      ∨ (hourResets s b).any (fun t => decide (s.now < t + ticksS 1)) = true) : spkReset s b k = s := by
  by_cases hs : (spkOf s b).state = .ready ∨ (spkOf s b).state = .resetting
  · exact (if_pos (by simpa using hs)).trans (if_pos (h.resolve_left fun hn => hs.elim hn.1 hn.2))
  · exact if_neg (by simpa using hs)

/-- A completion of a used slot that is in force: what it reports, each to the state the last report leaves. -/
theorem driveDone_io {s : State} {b n : Nat} {ok : Bool} {d : DriveSlot} (hd : tget (spkOf s b).slots none n = some d)
    (hi : stale (spkOf s b).instar d.spoke = false) (hi' : stale (spkOf s b).drive d.drive = false) :
    ∃ r t u v w, r = (match d.vc with | some a => vcStale (dropSlot s b n) a | none => dropSlot s b n) ∧
      t = (match d.ctx with | some c => if d.timedOut then r else wakeCtx r c (if ok then .ok else .fail) | none => r) ∧
      u = (match d.strip with | some y => stripDone t y ok | none => t) ∧
      v = (match d.journal with | some j => journalDone u b j ok | none => u) ∧
      w = (match d.create with | some m => createDone v b m ok | none => v) ∧
      driveDone s b n (slotTag d.spoke d.drive) (.io ok) = journalKick (count w 0x0902 (some b) none d.bytes) b := by
  refine ⟨_, _, _, _, _, rfl, rfl, rfl, rfl, rfl, ?_⟩
  unfold driveDone
  dsimp only
  rw [hd]
  exact if_neg (by simp [hi, hi'])

/-- A completion of a slot that is not in use. -/
theorem driveDone_io_unused {s : State} {b n x : Nat} {ok : Bool} (hd : tget (spkOf s b).slots none n = none) :
    driveDone s b n x (.io ok) =
      if x ≠ slotTag (tagOfInstar (spkOf s b).instar) (tagOfInstar (spkOf s b).drive) then spkStale s b else rcAdd s 0x70018 0 1 := by
  unfold driveDone
  dsimp only
  rw [hd] <;> rfl

/-- A completion of a used slot that another command, or another instar, sent. -/
theorem driveDone_io_stale {s : State} {b n x : Nat} {ok : Bool} {d : DriveSlot} (hd : tget (spkOf s b).slots none n = some d)
    (h : x ≠ slotTag d.spoke d.drive ∨ stale (spkOf s b).instar d.spoke = true ∨ stale (spkOf s b).drive d.drive = true) :
    driveDone s b n x (.io ok) = spkStale s b := by
  unfold driveDone
  dsimp only
  rw [hd]
  exact if_pos (by simpa [or_assoc] using h)

/-- The completion of an Abort, and that of a Drive Format. -/
theorem driveDone_aborted (s : State) (b n x : Nat) :
    driveDone s b n x .aborted = if (tget (spkOf s b).slots none n).any (·.timedOut) then dropSlot s b n else s := by
  unfold driveDone
  dsimp only
  cases tget (spkOf s b).slots none n <;> rfl

theorem driveDone_formatted_none {s : State} {b n x : Nat} {ok : Bool} (h : (spkOf s b).format = none) :
    driveDone s b n x (.formatted ok) = s := by
  unfold driveDone
  dsimp only
  rw [h]

theorem driveDone_formatted {s : State} {b n x : Nat} {ok : Bool} {c : Cid} (h : (spkOf s b).format = some c) :
    driveDone s b n x (.formatted ok) = if ok then startBring (setSpk s b { spkOf s b with state := .initializing }) b
      else reply (setSpk s b { spkOf s b with format := none }) c .internalError := by
  unfold driveDone
  dsimp only
  rw [h]

/-- The row of a completion, with no injector at its point. -/
theorem driveCompletion_plain {s : State} {b n x : Nat} (r : DriveResult) (hb : b < 64) (hi : injectorAt s 4 b = none) :
    exec (.driveCompletion b n x r) s = .next (driveDone s b n x r) :=
  (if_pos hb).trans (congrArg Host.Outcome.next (atPoint_none _ _ hi))

/-- Settles O50: each row by the state of the spoke, a completion by the slot it names. -/
theorem driveProtocol : Obligations.DriveProtocol := by
  unfold Obligations.DriveProtocol
  refine ⟨?dma, ?violation, ?done, ?stale_, ?ready, ?aborts, ?reset, ?resetting, ?other, ?absent⟩
  case dma =>
    rintro s b a p g ⟨hb, rfl⟩
    have hrow (g : DmaTarget) : exec (.driveDmaRequest b a g) s = .next (dmaRequest s b a g) := if_pos hb
    refine ⟨fun hs => (hrow g).trans (congrArg _ (if_pos hs)), fun hs hf => (hrow g).trans (congrArg _ ((if_neg hs).trans (if_pos hf))),
      fun hs hf => ⟨(hrow _).trans (congrArg _ (dmaRequest_own hs hf (.inl rfl))), fun n hn =>
        (hrow _).trans (congrArg _ (dmaRequest_own hs hf (.inr ⟨n, rfl, hn⟩)))⟩⟩
  case violation =>
    rintro s b a g p t u ⟨hb, rfl, hs, hf, hbuf, hq⟩ ⟨rfl, rfl⟩
    have hrow := (if_pos hb : exec (.driveDmaRequest b a g) s = _).trans
      (congrArg Host.Outcome.next (dmaRequest_violation (a := a) hs hf hbuf hq))
    refine ⟨fun hv => hrow.trans (congrArg _ ?_), fun v hv => hrow.trans (congrArg _ ?_)⟩
    · dsimp only
      rw [hv] <;> rfl
    · dsimp only
      rw [hv]
      exact ite_congr (by simp) (fun _ => rfl) fun _ => rfl
  case done =>
    rintro s b n x ok p d ⟨hb, hi, rfl, hd, rfl, h1, h2⟩
    rw [driveCompletion_plain _ hb hi]
    obtain ⟨r, t, u, v, w, hr, ht, hu, hv, hw, hdone⟩ := driveDone_io (ok := ok) hd h1 h2
    exact ⟨r, t, u, v, w, hr, ht, hu, hv, hw, congrArg _ hdone⟩
  case stale_ =>
    rintro s b n x ok p r ⟨hb, rfl⟩
    refine ⟨fun hi hd hx => ?_, fun hi h => ⟨_, _, rfl, ?_⟩, if_pos hb⟩
    · rw [driveCompletion_plain _ hb hi, driveDone_io_unused hd, if_neg (not_not_intro hx)]
    · rw [driveCompletion_plain _ hb hi]
      rcases h with ⟨hd, hx⟩ | ⟨d, hd, hx⟩
      · rw [driveDone_io_unused hd, if_pos hx]
        rfl
      · rw [driveDone_io_stale hd hx]
        rfl
  case ready =>
    rintro s b p ⟨hb, rfl⟩
    exact ⟨if_pos hb, (if_pos hb).trans (congrArg Host.Outcome.next (ite_congr (by simp) (fun _ => rfl) fun _ => rfl))⟩
  case aborts =>
    rintro s b p ⟨hb, rfl⟩
    refine ⟨(if_pos hb).trans (congrArg Host.Outcome.next (ite_congr (congrArg (· = true) ?_) (fun _ => rfl) fun _ => rfl)),
      fun hs => ⟨?_, ?_⟩, fun hs => ⟨?_, ?_⟩⟩
    · exact congrArg (List.any _) (funext fun x => by cases x.2 <;> rfl)
    · exact (if_pos hb).trans (congrArg Host.Outcome.next (if_pos hs))
    · exact (if_pos hb).trans (congrArg Host.Outcome.next (if_pos hs))
    · exact (if_pos hb).trans (congrArg Host.Outcome.next (if_neg hs))
    · exact (if_pos hb).trans (congrArg Host.Outcome.next (if_neg hs))
  case reset =>
    rintro s b k p l ⟨rfl, rfl⟩
    refine ⟨fun hs hq hl => (spkReset_quiet hs hq).trans ?_, fun hs hq hl hf => (spkReset_quiet hs hq).trans ?_, fun h => spkReset_ignored h⟩
    · have hbegin : resetBegin s b k = rcAdd (setSpk s b { spkOf s b with
          state := .resetting, resets := hourResets s b ++ [s.now], rcause := k, bring := 0, removal := 0 }) 0xA0030 b 1 :=
        if_neg (Nat.not_le.mpr hl)
      rw [hbegin]
      exact if_pos (congrArg Spoke.state (spkOf_setSpk (by simp)))
    · have hbegin : resetBegin s b k = spkFail (setSpk s b { spkOf s b with resets := hourResets s b, rcause := 0 }) b 0x0909 := if_pos hl
      rw [hbegin]
      exact if_neg hf
  case resetting =>
    rintro s b p ⟨hb, rfl⟩
    refine ⟨fun hs => ⟨?_, ?_, ?_⟩, fun hs => ⟨?_, ?_, ?_⟩⟩
    · exact (if_pos hb).trans (congrArg Host.Outcome.next (if_neg hs))
    · exact (if_pos hb).trans (congrArg Host.Outcome.next (if_neg hs))
    · exact (if_pos hb).trans (congrArg Host.Outcome.next (if_neg hs))
    · exact (if_pos hb).trans (congrArg Host.Outcome.next (if_pos hs))
    · exact (if_pos hb).trans (congrArg Host.Outcome.next (if_pos hs))
    · exact (if_pos hb).trans (congrArg Host.Outcome.next (if_pos hs))
  case other =>
    rintro s b n x ok p i ⟨hb, hi, rfl⟩
    rw [driveCompletion_plain _ hb hi, driveCompletion_plain _ hb hi, driveCompletion_plain _ hb hi]
    exact ⟨congrArg _ (driveDone_aborted s b n x), fun h => congrArg _ (driveDone_formatted_none h),
      fun c h => congrArg _ (driveDone_formatted h), fun h => congrArg _ (if_pos h), rfl⟩
  case absent =>
    intro s b n x g r hb i hi
    simp only [List.mem_cons, List.not_mem_nil, or_false] at hi
    rcases hi with rfl | rfl | rfl | rfl | rfl | rfl | rfl | rfl | rfl | rfl <;> exact if_neg (Nat.not_lt.mpr hb)

end Sys2Proof.Machine
end

section
/-! The power channels of the bays and the feeds of a group (R431 to R443, R528). -/

namespace Sys2Proof.Machine

/-- A spoke that is Powering trains. -/
def trainsNow (s : State) (b : Nat) : State := if (spkOf s b).state = .powering then spkTo s b .training else s

/-- Power good of a Ramping channel whose gate is fully on, with the outputs not held. -/
theorem powerGood_full {s : State} {b : Nat} (hs : (chanOf s b).state = .ramping) (ho : s.bay.outHold = false)
    (hg : (chanOf s b).gate = .full) :
    powerGood s b none =
      let c := chanOf s b
      let t := writeEvent (setChan s b { c with
        state := .on, gate := driveGate s b .full, transients := if c.taken = 1 then satAdd 0xFFFF c.transients 1 else c.transients })
        { num := 0x0A01, inst := b, detail := [b, c.iPeak] }
      trainsNow (if c.taken = 1 then transient t 0x0A b c.lastTrip 0x0A03
        else if 2 ≤ c.taken then writeEvent t { num := 0x0A03, inst := b, detail := [b] } else t) b :=
  (if_pos (by simp [hs, ho])).trans (if_neg (not_not_intro hg))

/-- Power good of a channel that is not Ramping, or is held. -/
theorem powerGood_other {s : State} {b : Nat} (o : Option Nat) (h : (chanOf s b).state ≠ .ramping ∨ s.bay.outHold = true) :
    powerGood s b o = if drivesBay s b = false ∧ (spkOf s b).state = .powering then spkTo s b .training else s := by
  have hoff : powerGood s b o = if !drivesBay s b then trainsNow s b else s :=
    if_neg (by rcases h with h | h <;> simp [h])
  rw [hoff]
  cases drivesBay s b <;> simp [trainsNow]

/-- The end of the cool-down of a Cooling channel, with the outputs not held. -/
theorem coolEnd_cooling {s : State} {b : Nat} {k : Bool} (hs : (chanOf s b).state = .cooling) (ho : s.bay.outHold = false) :
    coolEnd s b k =
      let c := chanOf s b
      let off := setChan s b { c with state := .off, cancelled := false, offReq := false, gate := driveGate s b .sink }
      if c.cancelled then
        if c.offReq || !(spkOf s b).present || s.glb.mode = .safe then off
        else
          let c := { c with cancelled := false, retries := retryCount s, taken := 0 }
          if k then startRamp s b c else setChan s b { c with state := .waiting }
      else if c.retries = 0 then
        let t := writeEvent (setChan s b { c with state := .latched }) { num := 0x0A04, inst := b, detail := [b] }
        if (spkOf t b).state = .powering then heldPress (spkTo t b .failed) b else t
      else if s.glb.mode = .safe then off
      else startRamp s b { c with retries := c.retries - 1, taken := c.taken + 1 } :=
  if_neg (by simp [hs, ho])

/-- A sample of a bay in no group, and of one in a group. -/
theorem telemetry_ungrouped {s : State} {b i v p x y : Nat}
    (h : groupOfBay (setChan s b { chanOf s b with
      iMa := i % 65536, vMv := v % 65536, iPeak := max (chanOf s b).iPeak (max (p % 65536) (i % 65536)),
      vMin := min (chanOf s b).vMin (v % 65536) }) b = none) :
    telemetry s b i v p x y = setChan s b { chanOf s b with
      iMa := i % 65536, vMv := v % 65536, iPeak := max (chanOf s b).iPeak (max (p % 65536) (i % 65536)),
      vMin := min (chanOf s b).vMin (v % 65536) } := by
  unfold telemetry
  dsimp only
  rw [h]

theorem telemetry_grouped {s t : State} {b i v p x y g : Nat}
    (ht : t = setChan s b { chanOf s b with
      iMa := i % 65536, vMv := v % 65536, iPeak := max (chanOf s b).iPeak (max (p % 65536) (i % 65536)),
      vMin := min (chanOf s b).vMin (v % 65536) }) (h : groupOfBay t b = some g) :
    telemetry s b i v p x y = setFeed t g { feedOf t g with
      aMv := x % 65536, bMv := y % 65536, aMin := min (feedOf t g).aMin (x % 65536), bMin := min (feedOf t g).bMin (y % 65536) } := by
  subst ht
  unfold telemetry
  dsimp only
  rw [h]

/-- BAY_CTL CLEAR in a mode that serves it, by the channel's state. -/
theorem bayClearAt_eq (s : State) (b v : Nat) :
    bayClearAt s b v = if authMode s = false ∨ bitAt v 0 = false then s
      else if (chanOf s b).state = .latched then chanUnlatch s b 1
      else if (chanOf s b).state = .cooling then setChan s b { chanOf s b with retries := retryCount s, taken := 0 } else s := by
  unfold bayClearAt
  dsimp only
  by_cases hm : authMode s = false
  · exact (if_pos (by simp [hm])).trans (if_pos (.inl hm)).symm
  by_cases hv : bitAt v 0 = false
  · exact (if_neg (by simpa using hm)).trans ((if_pos (by simp [hv])).trans (if_pos (.inr hv)).symm)
  rw [if_neg (by simpa using hm), if_neg (by simpa using hv), if_neg (not_or.mpr ⟨hm, hv⟩)]
  split
  next h => exact (if_pos h).symm
  next h => exact ((if_neg (by simp [h])).trans (if_pos h)).symm
  next h1 h2 => exact ((if_neg h1).trans (if_neg h2)).symm

/-- The selector of a group once the rails are back. -/
def feedAgain (s : State) (g : Nat) : State :=
  if (feedOf s g).state = .off then feedStart s g else setFeed s g { feedOf s g with driving := drivesGroup s g }

/-- The rails' return: bay by bay, then feed by feed. -/
theorem railsBack_eq (s : State) (l : List Nat) :
    railsBack s l = feedAgain (feedAgain (s.bay.chans.foldl (fun a x => if (chanOf a x.1).state = .on then
        (if l.contains x.1 then setChan a x.1 { chanOf a x.1 with gate := driveGate a x.1 .full }
         else setChan a x.1 { chanOf a x.1 with state := .off, gate := driveGate a x.1 .sink }) else a)
      { s with bay := { s.bay with rails := true } }) 0) 1 := by
  refine congrArg (fun u => feedAgain (feedAgain u 0) 1) (congrArg (List.foldl · _ _) (funext fun a => funext fun x => ?_))
  dsimp only
  split
  next h => exact (if_pos h).symm
  next h => exact (if_neg h).symm

/-- Settles O51: each row by the state of the channel and whether the outputs are held. -/
theorem bayChannels : Obligations.BayChannels := by
  unfold Obligations.BayChannels
  refine ⟨?stable, ?ramp, ?good, ?goodAgain, ?trips, ?trip, ?cool, ?refresh, ?clear, ?hold, ?held, ?absent⟩
  case stable =>
    rintro s b c ⟨hb, rfl, ho⟩
    exact (if_pos hb).trans (congrArg Host.Outcome.next (ite_congr (by simp [ho]) (fun _ => rfl) fun _ => rfl))
  case ramp =>
    rintro s b c ⟨hb, rfl, ho⟩
    exact (if_pos hb).trans (congrArg Host.Outcome.next (ite_congr (by simp [ho]) (fun _ => rfl) fun _ => rfl))
  case good =>
    rintro s b k c t ⟨hb, rfl, ho, hs⟩ rfl
    have hrow (o : Option Nat) : exec (.bayPowerGood b o) s = .next (powerGood s b o) := if_pos hb
    refine ⟨(hrow _).trans (congrArg _ (if_pos (by simp [hs, ho]))), fun hg => (hrow _).trans (congrArg _ ?_),
      fun hg ht => (hrow _).trans (congrArg _ ((powerGood_full hs ho hg).trans ?_))⟩
    · exact (if_pos (by simp [hs, ho])).trans (if_pos hg)
    · simp only [ht, Nat.zero_ne_one, if_false, Nat.reduceLeDiff]
      rfl
  case goodAgain =>
    rintro s b c t o ⟨hb, rfl⟩
    have hrow (o : Option Nat) : exec (.bayPowerGood b o) s = .next (powerGood s b o) := if_pos hb
    refine ⟨?_, ?_, fun h => (hrow _).trans (congrArg _ (powerGood_other o h))⟩
    · rintro ho hs hg ht rfl
      refine ⟨_, rfl, (hrow _).trans (congrArg _ ((powerGood_full hs ho hg).trans ?_))⟩
      simp only [ht, if_true]
      rfl
    · rintro ho hs hg ht rfl
      have h1 : (chanOf s b).taken ≠ 1 := by omega
      refine ⟨_, rfl, (hrow _).trans (congrArg _ ((powerGood_full hs ho hg).trans ?_))⟩
      simp only [h1, ht, if_true, if_false]
      rfl
  case trips =>
    rintro s b i c ⟨hb, rfl, ho⟩
    have hheld : ¬s.bay.outHold = true := by simp [ho]
    refine ⟨(if_pos hb).trans (congrArg Host.Outcome.next (if_neg hheld)), ?_, ?_⟩
    · exact (if_pos hb).trans (congrArg Host.Outcome.next (ite_congr (by simp [ho]) (fun _ => rfl) fun _ => rfl))
    · exact (if_pos hb).trans (congrArg Host.Outcome.next (ite_congr (by simp [ho]) (fun _ => rfl) fun _ => rfl))
  case trip =>
    rintro s b k i c rfl
    exact ite_congr (by simp) (fun _ => rfl) fun _ => rfl
  case cool =>
    rintro s b k c ⟨hb, rfl, ho⟩
    have hrow : exec (.coolDownEnd b k) s = .next (coolEnd s b k) := if_pos hb
    rw [hrow]
    refine ⟨fun hs => congrArg _ (if_pos (by simp [hs])), fun hs hc hr => congrArg _ ?_, fun hs hc hr => ⟨_, rfl, congrArg _ ?_⟩,
      fun hs hc => congrArg _ ?_⟩
    · exact (coolEnd_cooling hs ho).trans ((if_neg (by simp [hc])).trans ((if_neg hr).trans rfl))
    · exact (coolEnd_cooling hs ho).trans ((if_neg (by simp [hc])).trans (if_pos hr))
    · refine (coolEnd_cooling hs ho).trans ((if_pos hc).trans (ite_congr ?_ (fun _ => rfl) fun _ => rfl))
      simp [or_assoc]
  case refresh =>
    rintro s b i v p x y c t g ⟨hb, rfl⟩ rfl
    exact ⟨if_pos hb, fun h => (if_pos hb).trans (congrArg Host.Outcome.next (telemetry_ungrouped h)),
      fun h => (if_pos hb).trans (congrArg Host.Outcome.next (telemetry_grouped rfl h))⟩
  case clear =>
    rintro s b v c ⟨hb, rfl⟩
    exact (if_pos hb).trans (congrArg Host.Outcome.next (bayClearAt_eq s b v.toNat))
  case hold =>
    rintro s l t u ⟨rfl, rfl⟩
    exact ⟨fun ho => congrArg Host.Outcome.next (if_neg (by simp [ho])), fun ho => congrArg Host.Outcome.next (if_pos ho), rfl, _, rfl,
      congrArg Host.Outcome.next (railsBack_eq s l)⟩
  case held =>
    rintro s b i k c ⟨hb, rfl, ho⟩
    refine ⟨(if_pos hb).trans (congrArg Host.Outcome.next (if_pos ho)), ?_, ?_, ?_, ?_, ?_⟩
    · exact (if_pos hb).trans (congrArg Host.Outcome.next (if_pos (by simp [ho])))
    · exact (if_pos hb).trans (congrArg Host.Outcome.next (if_neg (by simp [ho])))
    · exact (if_pos hb).trans (congrArg Host.Outcome.next (if_neg (by simp [ho])))
    · exact (if_pos hb).trans (congrArg Host.Outcome.next (if_neg (by simp [ho])))
    · exact (if_pos hb).trans (congrArg Host.Outcome.next (if_pos (by simp [ho])))
  case absent =>
    intro s b i x y z m k o v hb a ha
    simp only [List.mem_cons, List.not_mem_nil, or_false] at ha
    rcases ha with rfl | rfl | rfl | rfl | rfl | rfl | rfl | rfl | rfl | rfl <;> exact if_neg (Nat.not_lt.mpr hb)

/-- Feed A that becomes good, by the selector's state. -/
theorem feedGoodAt_A {s : State} {g : Nat} {f : Feed} (hf : f = { feedOf s g with aGood := true, bothBad := false }) :
    feedGoodAt s g false = match f.state with
      | .off => feedStart (setFeed s g f) g
      | .onB => if !f.bGood then feedSwitchTo (setFeed s g f) g false 1 else setFeed s g f
      | .toB => if !f.bGood then setFeed (setFeed s g f) g { f with state := .onA } else setFeed s g f
      | _ => setFeed s g f := by
  subst hf
  unfold feedGoodAt
  dsimp only
  cases (feedOf s g).state <;> rfl

/-- Feed B that becomes good. -/
theorem feedGoodAt_B {s : State} {g : Nat} {f : Feed} (hf : f = { feedOf s g with bGood := true, bothBad := false }) :
    feedGoodAt s g true = match f.state with
      | .off => feedStart (setFeed s g f) g
      | .onA => if !f.aGood then feedSwitchTo (setFeed s g f) g true 1 else setFeed s g f
      | .toA => if !f.aGood then setFeed (setFeed s g f) g { f with state := .onB } else setFeed s g f
      | _ => setFeed s g f := by
  subst hf
  unfold feedGoodAt
  dsimp only
  cases (feedOf s g).state <;> rfl

/-- A feed that becomes bad, by the selector's state. -/
theorem feedBadAt_eq {s : State} {g : Nat} {b : Bool} {f : Feed}
    (hf : f = if b then { feedOf s g with bGood := false } else { feedOf s g with aGood := false }) :
    feedBadAt s g b =
      let t := setFeed s g f
      let both := if f.bothBad then t else feedBothBad t g f
      match f.state with
      | .onA => if b then t else if feedIsGood f (!b) then feedSwitchTo t g true 1 else both
      | .onB => if !b then t else if feedIsGood f (!b) then feedSwitchTo t g false 1 else both
      | .toA => if !b && feedIsGood f (!b) then setFeed t g { f with state := .onB } else t
      | .toB => if b && feedIsGood f (!b) then setFeed t g { f with state := .onA } else t
      | .off => if !feedIsGood f (!b) && drivesGroup t g && feedEnabled t g then both else t := by
  subst hf
  rfl

/-- FEED_CTL in a mode that serves it. -/
theorem feedCtlWrite_eq (s : State) (g v : Nat) :
    feedCtlWrite s g v = if authMode s = false then s
      else if bitAt v 0 = true ∧ bitAt v 1 = false ∧ (feedOf s g).state = .onB ∧ (feedOf s g).aGood = true then feedSwitchTo s g false 3
      else if bitAt v 1 = true ∧ bitAt v 0 = false ∧ (feedOf s g).state = .onA ∧ (feedOf s g).bGood = true then feedSwitchTo s g true 3
      else s := by
  refine ite_congr (by simp) (fun _ => rfl) fun _ => ?_
  dsimp only
  cases bitAt v 0 <;> cases bitAt v 1 <;> simp

/-- The revert of a group that reverts, with its preferred feed good. -/
theorem feedRevertAt_eq {s : State} {g : Nat} {f : Feed} {p : Bool} (hf : f = feedOf s g) (hp : p = feedPrefersB s g) :
    feedRevertAt s g = if feedReverts s g = true ∧ feedIsGood f p = true ∧ ((f.state = .onA ∧ p = true) ∨ (f.state = .onB ∧ p = false))
      then feedSwitchTo s g p 2 else s := by
  subst hf hp
  unfold feedRevertAt
  dsimp only
  cases feedReverts s g <;> cases feedIsGood (feedOf s g) (feedPrefersB s g) <;>
    cases (feedOf s g).state <;> cases feedPrefersB s g <;> simp

/-- Settles O52: each row by the state of the selector and which feed is good. -/
theorem powerFeeds : Obligations.PowerFeeds := by
  unfold Obligations.PowerFeeds
  refine ⟨?good, ?start, ?badA, ?badB, ?bbm, ?revert, ?control, ?settle, ?absent, ?off⟩
  case good =>
    rintro s g f h t u ⟨hg, hf, rfl⟩ ⟨hh, rfl⟩
    refine ⟨(if_pos hg).trans (congrArg Host.Outcome.next ((feedGoodAt_A hf).trans ?_)),
      (if_pos hg).trans (congrArg Host.Outcome.next ((feedGoodAt_B hh).trans ?_))⟩
    · cases f.state <;> simp
    · cases h.state <;> simp
  case start =>
    rintro s g f p ⟨rfl, rfl⟩
    exact ite_congr (by simp [and_assoc]) (fun _ => rfl) fun _ => rfl
  case badA =>
    rintro s g f t ⟨hg, hf, rfl⟩
    have hrow : exec (.feedBad g false) s = _ := (if_pos hg).trans (congrArg Host.Outcome.next (feedBadAt_eq (b := false) hf))
    rw [hrow]
    dsimp only
    refine ⟨fun hs => ?_, fun hs => ?_, fun hs => ?_, fun hs => ?_⟩ <;> rw [hs] <;> rfl
  case badB =>
    rintro s g f t ⟨hg, hf, rfl⟩
    have hrow : exec (.feedBad g true) s = _ := (if_pos hg).trans (congrArg Host.Outcome.next (feedBadAt_eq (b := true) hf))
    rw [hrow]
    dsimp only
    refine ⟨fun hs => ?_, fun hs => ?_, fun hs => ?_, fun hs => ?_⟩ <;> rw [hs] <;> rfl
  case bbm =>
    rintro s g f ⟨hg, rfl⟩
    have hrow : exec (.feedBbmEnd g) s = .next (feedBbm s g) := if_pos hg
    rw [hrow]
    unfold feedBbm
    dsimp only
    refine ⟨fun hs => congrArg _ ?_, fun hs => congrArg _ ?_, fun h1 h2 => congrArg _ ?_⟩
    · rw [hs]
    · rw [hs]
    · split
      · contradiction
      · contradiction
      · rfl
  case revert =>
    rintro s g f p ⟨hg, hf, hp⟩
    exact (if_pos hg).trans (congrArg Host.Outcome.next (feedRevertAt_eq hf hp))
  case control =>
    rintro s g v f ⟨hg, rfl⟩
    exact ⟨(if_pos hg).trans (congrArg Host.Outcome.next (feedCtlWrite_eq s g v.toNat)), rfl⟩
  case settle =>
    rintro s g f ⟨hg, rfl⟩
    exact if_pos hg
  case absent =>
    intro s g b v hg i hi
    simp only [List.mem_cons, List.not_mem_nil, or_false] at hi
    rcases hi with rfl | rfl | rfl | rfl | rfl | rfl | rfl <;> exact if_neg (Nat.not_lt.mpr hg)
  case off =>
    rintro s g b f t ⟨hg, hf, rfl, hs⟩
    refine (if_pos hg).trans (congrArg Host.Outcome.next ((feedBadAt_eq hf).trans ?_))
    dsimp only
    rw [hs]
    cases feedIsGood f (!b) <;> cases drivesGroup (setFeed s g f) g <;> cases feedEnabled (setFeed s g f) g <;> cases f.bothBad <;> rfl

end Sys2Proof.Machine
end

section
/-! The ownership lines and the tandem link (R449 to R467). -/

namespace Sys2Proof.Machine

/-- Whether a controller is alone is a matter of its image. -/
@[simp] theorem setGrp_unpaired (s : State) (g : Nat) (x : Grp) : unpaired (setGrp s g x) = unpaired s := by
  unfold setGrp
  split <;> rfl

/-- A lapse of a held line in time, that nothing outranks. -/
theorem heartbeatLapse_held {s : State} {g : Nat} {m : Moment} (hl : (grpOf s g).line = .mine)
    (ht : (grpOf s g).fedAt + hbTimeout s ≤ s.now) (hm : outranked m.rivals .group = false) :
    heartbeatLapse s g false m = match (grpOf s g).releasing with
      | some c => reply (releaseGroup s g 1) c .success
      | none => releaseGroup s g 1 :=
  if_neg (by simp [hl, ht, hm])

/-- The opening of admission for a group whose bays, map and pages are done. -/
theorem openGroup_ready {s : State} {g : Nat} (ho : (grpOf s g).owned = true) (hb : (grpOf s g).bayDone = true)
    (hm : (grpOf s g).mapDone = true) (hp : (grpOf s g).pagesDone = true) (hc : (grpOf s g).open_ = false) :
    openGroup s g =
      let x := grpOf s g
      let t := setGrp s g { x with open_ := true, taking := false }
      if x.taking then
        let gap := min (2 ^ 24 - 1) ((t.now - x.takeAt) / 100)
        let u := writeEvent { t with tdm := { t.tdm with lastGroup := g, lastFromDrives := x.fromDrives, gapUs := gap } }
          { num := 0x0B06, inst := g, detail := [g, gap, bit x.fromDrives] }
        noteAna (if x.await.isEmpty then (if partnerAnswers u then tdmSend u (.tandem 11 [g]) else u)
          else writeEvent u { num := 0x0B0A, inst := g, detail := [g, x.await.length] })
      else noteAna t :=
  if_pos (by simp [ho, hb, hm, hp, hc])

@[simp] theorem setGrp_now (s : State) (g : Nat) (x : Grp) : (setGrp s g x).now = s.now := by
  unfold setGrp
  split <;> rfl

/-! The rows of the lines, on a controller that has lines. -/

section
variable {s : State} {g : Nat} (hg : g < 2) (hu : unpaired s = false)
include hg hu

theorem exec_heartbeatGap_paired : exec (.heartbeatGap g) s = .next (heartbeatGap s g) :=
  (if_pos hg).trans (congrArg Host.Outcome.next (if_neg (ne_true_of_eq_false hu)))

theorem exec_heartbeatLapse_paired (b : Bool) (m : Moment) : exec (.heartbeatLapse g b m) s = .next (heartbeatLapse s g b m) :=
  (if_pos hg).trans (congrArg Host.Outcome.next (if_neg (ne_true_of_eq_false hu)))

theorem exec_lineReleasedSeen_paired : exec (.lineReleasedSeen g) s = .next (releasedSeen s g) :=
  (if_pos hg).trans (congrArg Host.Outcome.next (if_neg (ne_true_of_eq_false hu)))

theorem exec_lineGapSeen_paired : exec (.lineGapSeen g) s = .next (gapSeen s g) :=
  (if_pos hg).trans (congrArg Host.Outcome.next (if_neg (ne_true_of_eq_false hu)))

theorem exec_lineStuck_paired : exec (.lineStuck g) s = .next (lineStuckAt s g) :=
  (if_pos hg).trans (congrArg Host.Outcome.next (if_neg (ne_true_of_eq_false hu)))

theorem exec_lineQuietExpiry_paired : exec (.lineQuietExpiry g) s = .next (tryAcquire s g) :=
  (if_pos hg).trans (congrArg Host.Outcome.next (if_neg (ne_true_of_eq_false hu)))

theorem exec_bootClaimExpiry_paired : exec (.bootClaimExpiry g) s = .next (bootClaim s g) :=
  (if_pos hg).trans (congrArg Host.Outcome.next (if_neg (ne_true_of_eq_false hu)))

theorem exec_checkGapSample_paired (b : Bool) (m : Moment) (w : List Nat) (f : Option Bool) (a : AreaRead) : exec (.checkGapSample g b m w f a) s = .next (checkGap s g b m w f a) :=
  (if_pos hg).trans (congrArg Host.Outcome.next (if_neg (ne_true_of_eq_false hu)))

theorem exec_outputHandoverRelease_paired : exec (.outputHandoverRelease g) s = .next (handoverRelease s g) :=
  (if_pos hg).trans (congrArg Host.Outcome.next (if_neg (ne_true_of_eq_false hu)))

end

/-- Settles O53: each row by the class of the group's line. -/
theorem ownershipLines : Obligations.OwnershipLines := by
  unfold Obligations.OwnershipLines
  refine ⟨?gap, ?lapse, ?released, ?seen, ?quiet, ?check, ?hand, ?opens, ?alone⟩
  case gap =>
    rintro s g x p v t ⟨hg, hu, rfl, rfl⟩
    exact ⟨exec_heartbeatGap_paired hg hu, congrArg Host.Outcome.next (ite_not ..).symm⟩
  case lapse =>
    rintro s g x b m ⟨hg, hu, rfl⟩
    refine ⟨fun h => (exec_heartbeatLapse_paired hg hu b m).trans (congrArg _ (if_pos ?_)),
      fun hl ht hm => (exec_heartbeatLapse_paired hg hu false m).trans (congrArg _ (heartbeatLapse_held hl ht hm))⟩
    rcases h with h | h | h | h <;> simp [h]
  case released =>
    rintro s g x ⟨hg, hu, rfl⟩
    refine (exec_lineReleasedSeen_paired hg hu).trans (congrArg _ (ite_congr rfl (fun _ => rfl) fun _ => ?_))
    exact ite_congr (by simp) (fun _ => rfl) fun _ => rfl
  case seen =>
    rintro s g x ⟨hg, hu, rfl⟩
    exact ⟨(exec_lineGapSeen_paired hg hu).trans (congrArg _ (ite_congr (by simp) (fun _ => rfl) fun _ => rfl)),
      exec_lineStuck_paired hg hu⟩
  case quiet =>
    rintro s g x ⟨hg, hu, rfl⟩
    refine ⟨(exec_lineQuietExpiry_paired hg hu).trans (congrArg _ (ite_congr (by simp) (fun _ => rfl) fun _ => rfl)),
      (exec_bootClaimExpiry_paired hg hu).trans ?_⟩
    rw [exec_lineQuietExpiry_paired hg (by simpa using hu), ← apply_ite Host.Outcome.next]
    rfl
  case check =>
    rintro s g x m w f a t ⟨hg, hu, rfl, rfl⟩
    refine ⟨fun hl b => (exec_checkGapSample_paired hg hu b m w f a).trans (congrArg _ (if_pos hl)),
      fun hl => ⟨(exec_checkGapSample_paired hg hu true m w f a).trans (congrArg _ ?_),
        (exec_checkGapSample_paired hg hu false m w f a).trans (congrArg _ ?_)⟩⟩
    · exact (if_neg (not_not_intro hl)).trans ((if_pos rfl).trans (ite_congr (by simp) (fun _ => rfl) fun _ => rfl))
    · exact (if_neg (not_not_intro hl)).trans (if_neg Bool.false_ne_true)
  case hand =>
    rintro s g x ⟨hg, hu, rfl⟩
    have hrow : exec (.takeoverAdmissionOpen g) s = .next (openGroup s g) := if_pos hg
    refine ⟨(exec_outputHandoverRelease_paired hg hu).trans (congrArg _ (ite_congr (by simp) (fun _ => rfl) fun _ => rfl)),
      fun h => hrow.trans (congrArg _ (if_neg ?_)), fun ho hb hm hp hc ht => hrow.trans (congrArg _ ((openGroup_ready ho hb hm hp hc).trans ?_))⟩
    · rcases h with h | h | h | h | h <;> simp [h]
    · exact if_neg (by simp [ht])
  case opens =>
    rintro s g d x t u ⟨hg, rfl, ho, hb, hm, hp, hc, ht, rfl⟩ ⟨rfl, rfl⟩
    refine (if_pos hg).trans (congrArg _ ((openGroup_ready ho hb hm hp hc).trans ((if_pos ht).trans ?_)))
    dsimp only
    rw [setGrp_now]
    exact congrArg noteAna (ite_congr (by simp) (fun _ => rfl) fun _ => rfl)
  case alone =>
    rintro s g b m w f a ⟨hg, hu⟩
    refine ⟨fun i hi => ?_, fun i hi => ?_⟩
    · simp only [List.mem_cons, List.not_mem_nil, or_false] at hi
      rcases hi with rfl | rfl | rfl | rfl | rfl | rfl | rfl | rfl | rfl <;> exact (if_pos hg).trans (congrArg Host.Outcome.next (if_pos hu))
    · have habsent : 2 ≤ g + 2 := Nat.le_add_left 2 g
      generalize g + 2 = k at hi habsent
      simp only [List.mem_cons, List.not_mem_nil, or_false] at hi
      rcases hi with rfl | rfl | rfl | rfl | rfl | rfl | rfl | rfl | rfl | rfl <;> exact if_neg (Nat.not_lt.mpr habsent)

/-- A flit in sequence, on a link that is up. -/
theorem flitReceive_good {s : State} {a : Nat} (h : s.tdm.linkUp = true) :
    flitReceive s true s.tdm.rxFlit a =
      let u := { s with tdm := { s.tdm with rxFlit := (s.tdm.rxFlit + 1) % 4096, replays := 0, txOut := s.tdm.txOut - a } }
      tdmSend (if u.tdm.txOut < 1024 then mcastTandem u else u) (.tandem 14 [s.tdm.rxFlit]) :=
  (if_neg (by simp [h])).trans ((if_pos (by simp)).trans
    (congrArg (tdmSend · _) (ite_congr (propext decide_eq_true_iff) (fun _ => rfl) fun _ => rfl)))

/-- A flit with a bad CRC, or out of sequence. -/
theorem flitReceive_bad {s : State} {k : Bool} {n a : Nat} (h : s.tdm.linkUp = true) (hbad : k = false ∨ n ≠ s.tdm.rxFlit) :
    flitReceive s k n a =
      let t := if k then s else rcAdd s 0xC0024 0 1
      if 16 ≤ s.tdm.replays then tandemDown t 2
      else tdmSend { (rcAdd t 0xC0028 0 1) with tdm := { s.tdm with replays := s.tdm.replays + 1 } } (.tandem 15 [s.tdm.rxFlit]) := by
  refine (if_neg (by simp [h])).trans ((if_neg ?_).trans ?_)
  · rcases hbad with hbad | hbad <;> simp [hbad]
  · cases k <;> exact ite_congr (propext Nat.lt_succ_iff) (fun _ => rfl) fun _ => rfl

@[simp] theorem tdmSend_glb (s : State) (o : Out) : (tdmSend s o).glb = s.glb := by
  unfold tdmSend
  exact (emit_glb _ _).trans (count_glb _ _ _ _ _)

/-- The state in which this controller has sent its identities over a link that trains. -/
def identitySent (s : State) : State :=
  tdmSend s (.tandem 19 [if s.glb.straps.tdmSide then 1 else 0, fedId s, ownShelf s])

/-- Training that completes, with a partner of the same side and with one of the other. -/
theorem linkTrained_same {s : State} {f h n : Nat} (hr : linkRuns s = true) (hd : s.tdm.linkUp = false) :
    linkTrained s s.glb.straps.tdmSide f h n =
      let t := { identitySent s with tdm := { (identitySent s).tdm with sideConflict := true } }
      if (identitySent s).tdm.sideConflict then t else writeEvent t { num := 0x0B0C } :=
  (if_neg (by simp [hr, hd])).trans (if_pos (congrArg (·.straps.tdmSide) (tdmSend_glb s _)).symm)

theorem linkTrained_other {s : State} {f h n : Nat} (hr : linkRuns s = true) (hd : s.tdm.linkUp = false) :
    linkTrained s (!s.glb.straps.tdmSide) f h n =
      let t := identitySent s
      let u := writeEvent { t with tdm := { t.tdm with
        linkUp := true, half := n != 32, sideConflict := false, rxFlit := 0, replays := 0, missed := 0, compared := false } }
        { num := 0x0B01, detail := [n] }
      notePair (sendStanding (sendStanding (checkIdentity (if n != 32 then writeEvent u { num := 0x0B0E, detail := [n] } else u) f h) 0) 1) := by
  refine (if_neg (by simp [hr, hd])).trans (if_neg ?_)
  change ¬(!s.glb.straps.tdmSide) = (identitySent s).glb.straps.tdmSide
  rw [identitySent, tdmSend_glb]
  cases s.glb.straps.tdmSide <;> decide

/-- The state with a frame's items kept. -/
def frameKept (s : State) (f : FrameItems) : State :=
  { s with tdm := { s.tdm with frame :=
    { tick := f.tick, mode := f.mode, owned := f.owned, seq0 := f.seq0, seq1 := f.seq1, catGen := f.catGen, unmirrored := f.unmirrored,
      latched := f.latched, retries := f.retries.foldl (fun t x => tput t 0 x.1 (x.2 + 1)) [], awaiting := f.awaiting,
      orphans := f.orphans, addrs := f.addrs } } }

/-- What a kept frame names, applied in its order. -/
def frameApplied (f : FrameItems) (s : State) : State :=
  orphansIn (orphansIn (f.awaiting.foldl awaitIn (f.endings.foldl endingIn (f.repairs.foldl repairIn
    (f.releases.foldl (fun t x => releaseIn t x.1 x.2) s)))) f 0) f 1

/-- A newer frame, on a link that is up, with the addresses it had before and with new ones. -/
theorem frameReceive_newer {s : State} {f : FrameItems} (h : s.tdm.linkUp = true) (hn : ¬f.tick ≤ s.tdm.frame.tick) :
    frameReceive s true f = frameApplied f (if f.addrs = s.tdm.frame.addrs then frameKept s f else discNote (frameKept s f)) := by
  have hkept : (if f.addrs != s.tdm.frame.addrs then discNote (frameKept s f) else frameKept s f)
      = if f.addrs = s.tdm.frame.addrs then frameKept s f else discNote (frameKept s f) :=
    (ite_congr (by simp) (fun _ => rfl) fun _ => rfl).trans (ite_not ..)
  rw [← hkept]
  exact (if_neg (by simp [h])).trans ((if_neg (by decide)).trans (if_neg hn))

/-- Settles O54: each row by whether the link is up. -/
theorem tandemLink : Obligations.TandemLink := by
  unfold Obligations.TandemLink
  refine ⟨?flit, ?same, ?other, ?idle, ?silence, ?down, ?tick, ?frame, ?standing, ?frameDown⟩
  case flit =>
    rintro s k n a t u ⟨rfl, rfl⟩
    exact ⟨fun h => congrArg Host.Outcome.next (if_pos (by simp [h])), fun h => congrArg Host.Outcome.next (flitReceive_good h),
      fun h hbad => congrArg Host.Outcome.next (flitReceive_bad h hbad)⟩
  case same =>
    rintro s f h n t ⟨hr, hd, rfl⟩
    exact congrArg Host.Outcome.next (linkTrained_same hr hd)
  case other =>
    rintro s f h n t u ⟨hr, hd, rfl⟩ rfl
    refine congrArg Host.Outcome.next ((linkTrained_other hr hd).trans ?_)
    refine congrArg (fun v => notePair (sendStanding (sendStanding (checkIdentity v f h) 0) 1)) ?_
    exact (ite_congr (by simp) (fun _ => rfl) fun _ => rfl).trans (ite_not ..)
  case idle =>
    intro s b f h n
    refine ⟨fun hoff => ⟨congrArg Host.Outcome.next (if_pos ?_), congrArg Host.Outcome.next (if_neg ?_)⟩,
      fun hr hd => congrArg Host.Outcome.next (if_pos (by simp [hr, hd]))⟩
    · rcases hoff with hoff | hoff <;> simp [hoff]
    · rcases hoff with hoff | hoff <;> simp [hoff]
  case silence =>
    rintro s t rfl
    exact ⟨rfl, rfl, rfl⟩
  case down =>
    rintro s k t ⟨h, rfl⟩
    exact if_neg (by simp [h])
  case tick =>
    intro s b
    refine congrArg Host.Outcome.next (ite_congr (by simp) (fun _ => rfl) fun _ => ?_)
    exact ite_congr (by simp) (fun _ => rfl) fun _ => rfl
  case frame =>
    rintro s f t u ⟨h, rfl⟩ rfl
    refine ⟨congrArg Host.Outcome.next ((if_neg (by simp [h])).trans (if_pos rfl)), congrArg Host.Outcome.next ?_⟩
    by_cases hn : f.tick ≤ s.tdm.frame.tick
    · exact (if_neg (by simp [h])).trans ((if_neg (by decide)).trans ((if_pos hn).trans (if_pos hn).symm))
    · exact (frameReceive_newer h hn).trans (if_neg hn).symm
  case standing =>
    rintro s g x a b t ⟨hg, rfl, rfl⟩
    refine ⟨(if_pos hg).trans (congrArg Host.Outcome.next (ite_congr (by simp) (fun _ => rfl) fun _ => rfl)), ?_⟩
    have habsent : 2 ≤ g + 2 := Nat.le_add_left 2 g
    generalize g + 2 = k at habsent
    exact if_neg (Nat.not_lt.mpr habsent)
  case frameDown => exact fun s b f h => congrArg Host.Outcome.next (if_pos (by simp [h]))

end Sys2Proof.Machine
end

section
/-! The echoes of the mirror and the releases (R26, R458, R459, R471). -/

namespace Sys2Proof.Machine

/-- The pages of the own partition are no matter of the counters. -/
@[simp] theorem count_ownPg (s : State) (n p : Nat) : ownPg (count s n) p = ownPg s p :=
  congrArg (fun c : Coc => tget c.own {} p) (count_coc s n none none 1)

@[simp] theorem count_remirLeft (s : State) (n g : Nat) : remirLeft (count s n) g = remirLeft s g :=
  congrArg (fun c : Coc => if g = 0 then c.remir0 else c.remir1) (count_coc s n none none 1)

theorem ite_eq_false {α : Type} (b : Bool) (x y : α) : (if b then x else y) = if b = false then y else x := by cases b <;> rfl

/-- A page as an echo in force leaves it: mirrored, and no more waited for. -/
def echoedPage (g : Page) : Page :=
  { g with unmir := false, late := false, st := if g.st = .committed then .mirrored else g.st,
           prior := if g.st = .flushing then .mirrored else g.prior }

/-- An echo in force: the page is mirrored and every context that waits for it is told. -/
def echoTold (s : State) (p n : Nat) : State :=
  let t := setOwn (rcMax (count s 0x0B02) 0xC0034 0 (min n 0xFFFF)) p (echoedPage (ownPg s p))
  (ctxFilter t fun c => c.echo.contains p).foldl (echoCtx p) t

/-- The page that has been echoed goes off what its group's re-mirroring has left. -/
def remirrorTold (u : State) (p g : Nat) : State :=
  let left := (remirLeft u g).filter (· != p)
  let v := unpinPage (setRemir u g left (remirCount u g)) false p
  if left.isEmpty then remirrorEnd v g else v

theorem echoArrive_unrecorded {s : State} {p q n : Nat} (h : (ownPg s p).rc = none) : echoArrive s p q n = count s 0x0B02 := by
  unfold echoArrive
  simp only [count_ownPg, h]

/-- An echo of a recorded page, before it is read any further. -/
theorem echoArrive_recorded {s : State} {p q n : Nat} {r : CommitRec} (h : (ownPg s p).rc = some r) :
    echoArrive s p q n =
      if (ownPg s p).st = .free ∨ (ownPg s p).st = .staged ∨ r.seq ≠ q then count s 0x0B02
      else if (ownPg s p).late && !(remirLeft s r.group).contains p then staleArrival (count s 0x0B02)
      else if (remirLeft (echoTold s p n) r.group).contains p then remirrorTold (echoTold s p n) p r.group else echoTold s p n := by
  unfold echoArrive
  dsimp only
  rw [count_ownPg]
  split
  next h' => exact absurd (h'.symm.trans h) nofun
  next r' h' =>
    obtain rfl : r' = r := Option.some.inj (h'.symm.trans h)
    rw [count_remirLeft]
    exact ite_congr (by simp [or_assoc]) (fun _ => rfl) fun _ => rfl

/-- An echo that no record, no page in use or another sequence number answers is only counted. -/
theorem echoArrive_unmatched {s : State} {p q n : Nat} {r : CommitRec} (h : (ownPg s p).rc = some r)
    (hno : r.seq ≠ q ∨ (ownPg s p).st = .free ∨ (ownPg s p).st = .staged) : echoArrive s p q n = count s 0x0B02 :=
  (echoArrive_recorded h).trans (if_pos (hno.elim (fun hq => .inr (.inr hq)) fun hst => hst.imp_right .inl))

/-- Tandem Control OP 1 on a group. -/
theorem releaseStart_eq (s : State) (c : Cid) (g : Nat) (m : Moment) :
    releaseStart s c g m =
      if (grpOf s g).owned = false then reply s c (.vendor 0xEA)
      else if s.tdm.linkUp = false then reply s c (.vendor 0xEB)
      else if (grpOf s g).releasing.isSome = true then reply s c (.vendor 0xE3)
      else
        let t := noteAna (setGrp s g { grpOf s g with releasing := some c })
        if outranked m.rivals .group = true then t else releaseEnd t g false :=
  ite_congr (by simp) (fun _ => rfl) fun _ => ite_congr (by simp [partnerAnswers]) (fun _ => rfl) fun _ => rfl

/-- Tandem Control OP 2 looks for the namespace in group 0 first. -/
theorem abandon_eq (s : State) (c : Cid) (n : Nat) :
    abandon s c n =
      let done (g : Nat) := reply (awaitEnd (writeEvent s { num := 0x0B0B, inst := g, detail := [n] }) g n true) c .success
      if (grpOf s 0).await.contains n = true then done 0
      else if (grpOf s 1).await.contains n = true then done 1
      else reply s c (.vendor 0xE2) := by
  have hsplit : [0, 1].find? (fun g => (grpOf s g).await.contains n) =
      if (grpOf s 0).await.contains n = true then some 0 else if (grpOf s 1).await.contains n = true then some 1 else none := by
    simp only [List.find?]
    cases (grpOf s 0).await.contains n <;> cases (grpOf s 1).await.contains n <;> rfl
  unfold abandon
  rw [hsplit]
  cases (grpOf s 0).await.contains n <;> cases (grpOf s 1).await.contains n <;> rfl

/-- A release of a group without a limit, once it is drained. -/
theorem releaseEnd_drained (s : State) (g : Nat) :
    releaseEnd s g false = match (grpOf s g).releasing with
      | none => s
      | some e => if groupDrained s g = true then reply (releaseGroup s g 5) e .success else s := rfl

/-- A context told of an echo, while it is parked for echoes. -/
theorem echoCtx_parked {s : State} {p n : Nat} {c : Ctx} (h : c.run = .parked .echo) :
    echoCtx p s (n, c) =
      let d := { c with echo := c.echo.filter (· != p) }
      if d.echo.isEmpty = false then setCtx s n (some d)
      else
        let e := { d with durable := c.committed, flg := flgPark c.flg true false false }
        arrive (if c.committed = true then durableNow s e else s) n e 4 := by
  have hw : waitOf { c with echo := c.echo.filter (· != p) } = some .echo := by simp [waitOf, h]
  unfold echoCtx
  dsimp only
  rw [hw]
  cases (c.echo.filter (· != p)).isEmpty <;> rfl

/-- The timeout of an echo for which a context stands. -/
theorem echoTimeout_standing {s : State} {n : Nat} {c : Ctx} (h : ctxOf s n = some c) :
    echoTimeout s n = if c.run = .parked .echo then pairLost (echoEnd (rcAdd s 0xC002C 0 1) n c) (ctxGroup s c) (c.echo.headD 0)
      else rcAdd s 0x70018 0 1 := by
  unfold echoTimeout
  rw [h]
  refine ite_congr (propext ⟨fun hw => ?_, fun hr => by simp [waitOf, hr]⟩) (fun _ => rfl) fun _ => rfl
  revert hw
  unfold waitOf
  split
  next w hr => exact fun hw => hr.trans (congrArg Run.parked (Option.some.inj hw))
  next => exact nofun

/-- Settles O55: an echo by its page, its timeouts by who waits, and Tandem Control by its OP. -/
theorem echoesAndReleases : Obligations.EchoesAndReleases := by
  unfold Obligations.EchoesAndReleases
  refine ⟨?counted, ?taken, ?told, ?late, ?remirror, ?release, ?abandon, ?refused⟩
  case counted =>
    rintro s p q n t g ⟨rfl, rfl⟩
    refine ⟨rfl, echoArrive_unrecorded, fun r hr => echoArrive_unmatched hr, fun r hr hq hf hs hl hm => ?_⟩
    have hm : (remirLeft s r.group).contains p = false := (congrArg (·.contains p) (count_remirLeft s 0x0B02 r.group)).symm.trans hm
    refine (echoArrive_recorded hr).trans ((if_neg (by simp [hf, hs, hq])).trans (if_pos ?_))
    rw [hl, hm]
    rfl
  case taken =>
    rintro s p n r g t u ⟨rfl, hr, hf, hs, rfl, hl⟩ rfl
    refine (echoArrive_recorded hr).trans ((if_neg (by simp [hf, hs])).trans ((if_neg ?_).trans ?_))
    · rcases hl with hl | hl
      · simp [hl]
      · rw [hl]
        simp
    · exact ite_eq_false _ _ _
  case told =>
    rintro s p n c d ⟨hc, rfl⟩
    exact echoCtx_parked hc
  case late =>
    refine fun s n c => ⟨fun h => congrArg Host.Outcome.next ?_, fun h => congrArg Host.Outcome.next (echoTimeout_standing h)⟩
    unfold echoTimeout
    rw [h]
    rfl
  case remirror =>
    rintro s g x ⟨hg, rfl⟩
    refine ⟨if_pos hg, (if_pos hg).trans (congrArg Host.Outcome.next (ite_congr (by simp [and_assoc]) (fun _ => rfl) fun _ => rfl)), fun i hi => ?_⟩
    have habsent : 2 ≤ g + 2 := Nat.le_add_left 2 g
    generalize g + 2 = k at hi habsent
    simp only [List.mem_cons, List.not_mem_nil, or_false] at hi
    rcases hi with rfl | rfl <;> exact if_neg (Nat.not_lt.mpr habsent)
  case release =>
    rintro s c d g x m t ⟨hm, rfl, rfl, rfl⟩
    refine congrArg Host.Outcome.next ((asManager_granted _ hm).trans ((ite_not _ _ _).symm.trans (ite_congr rfl (fun _ => rfl) fun _ => ?_)))
    exact (releaseStart_eq s c _ m).trans (ite_congr rfl (fun _ => rfl) fun _ => ite_congr rfl (fun _ => rfl) fun _ =>
      ite_congr rfl (fun _ => rfl) fun _ => ite_congr rfl (fun _ => rfl) fun _ => releaseEnd_drained _ _)
  case abandon =>
    rintro s c d e n ⟨hm, rfl⟩
    refine congrArg Host.Outcome.next ((asManager_granted _ hm).trans ((ite_not _ _ _).symm.trans (ite_congr rfl (fun _ => rfl) fun _ => ?_)))
    exact abandon_eq s c _
  case refused =>
    intro s c d e m w i hi
    simp only [List.mem_cons, List.not_mem_nil, or_false] at hi
    rcases hi with rfl | rfl
    · exact ⟨fun h => congrArg Host.Outcome.next (asManager_unserved _ h), fun h hw => congrArg Host.Outcome.next (asManager_refused _ h hw)⟩
    · exact ⟨fun h => congrArg Host.Outcome.next (asManager_unserved _ h), fun h hw => congrArg Host.Outcome.next (asManager_refused _ h hw)⟩

/-- The link trains with PERST released, outside Held and after step 2 of Boot. -/
theorem svcTrains_iff (s : State) :
    svcTrains s = true ↔ s.svc.perst = false ∧ s.glb.mode ≠ .held ∧ (s.glb.mode = .boot → 2 < s.glb.bootStep) := by
  unfold svcTrains
  cases s.svc.perst <;> cases s.glb.mode <;> simp

theorem svcLinkTrained_eq (s : State) (g w : Nat) :
    svcLinkTrained s g w = if svcTrains s = true ∧ g ≠ 0 ∧ g ≤ maxGts s ∧ w ∈ [1, 2, 4, 8] then
        writeEvent { s with svc := { s.svc with linkUp := true, gts := g, width := w } } { num := 0x0E01, inst := 0, detail := [0, g, w] }
      else s := by
  unfold svcLinkTrained
  by_cases ht : svcTrains s = true ∧ g ≠ 0 ∧ g ≤ maxGts s ∧ w ∈ [1, 2, 4, 8]
  · rw [if_pos ht, if_neg]
    obtain ⟨h1, h2, h3, h4⟩ := ht
    rw [h1, List.contains_iff_mem.mpr h4]
    simpa using ⟨h2, h3⟩
  · rw [if_neg ht, if_pos]
    refine Classical.byContradiction fun hno => ?_
    simp only [Bool.or_eq_true, Bool.not_eq_true', decide_eq_true_eq, not_or, Bool.not_eq_false, Nat.not_lt, List.contains_iff_mem] at hno
    obtain ⟨⟨⟨h1, h2⟩, h3⟩, h4⟩ := hno
    exact ht ⟨h1, h2, h3, h4⟩

/-- A row of a function in force, outside its FLR and with PERST released, and one of any other function. -/
theorem onLiveFn_live {n : Nat} {s : State} (f : State → State) (hn : n < 66) (hl : fnLive s n = true)
    (hf : (fnOf s n).flr = false) (hp : s.svc.perst = false) : onLiveFn n s f = .next (f s) :=
  (if_pos hn).trans (congrArg Host.Outcome.next (if_pos (by simp [hl, hf, hp])))

theorem onLiveFn_other {n : Nat} {s : State} (f : State → State) (hn : n < 66)
    (h : fnLive s n = false ∨ (fnOf s n).flr = true ∨ s.svc.perst = true) : onLiveFn n s f = .next s :=
  (if_pos hn).trans (congrArg Host.Outcome.next (if_neg (by rcases h with h | h | h <;> simp [h])))

/-- Bus Master Enable cleared where it was set. -/
theorem bmeCleared_set {s : State} {n : Nat} (c : FnCfg) (h : (fnOf s n).bme = true) :
    bmeCleared s n c =
      let f := fnOf s n
      setFnCfg (if f.dma = [] ∧ f.fetching = [] then setFn s n { f with bme := false, hold := false }
        else writeEvent (setFn s n { f with bme := false, hold := true })
          { num := 0x0E04, inst := n, instar := f.instar.val.toNat, detail := [n] }) n c := by
  refine congrArg (setFnCfg · n c) ((if_neg (by simp [h])).trans ?_)
  by_cases hq : (fnOf s n).dma = [] ∧ (fnOf s n).fetching = []
  · simp [hq]
  · have hout : ((fnOf s n).dma.isEmpty && (fnOf s n).fetching.isEmpty) = false := by simpa using hq
    rw [hout, if_neg hq]
    rfl

/-- A message of a function, by what keeps it from being sent. -/
theorem raiseVec_released {s : State} {n : Nat} (v : Nat) (hp : s.svc.perst = false) (hm : (fnOf s n).msixEn = true) :
    raiseVec s n v =
      let f := fnOf s n
      let t := setFn s n { f with holding := f.holding ++ [.msix n v] }
      if f.fnMask || f.masked.contains v then setFn s n { f with pending := if f.pending.contains v then f.pending else f.pending ++ [v] }
      else if f.d3hot then (if f.pmeEn then emit (rcAdd t 0xD001C 0 1) (.pme n) else t)
      else if !f.bme then t
      else emit s (.msix n v) :=
  (if_neg (by simp [hp])).trans (if_neg (by simp [hm]))

/-- Settles O56: each row by whether the function is in force, and what keeps its messages. -/
theorem serviceLink : Obligations.ServiceLink := by
  unfold Obligations.ServiceLink
  refine ⟨?perst, ?link, ?bme, ?config, ?dead, ?hold, ?flr, ?flrOne, ?vfs, ?unmask, ?message, ?power, ?flush, ?absent⟩
  case perst =>
    rintro s t rfl
    exact ⟨rfl, rfl, rfl⟩
  case link =>
    refine fun s g w => ⟨congrArg Host.Outcome.next ((svcLinkTrained_eq s g w).trans (ite_congr ?_ (fun _ => rfl) fun _ => rfl)), rfl⟩
    rw [svcTrains_iff, and_assoc, and_assoc]
  case bme =>
    rintro s n f c ⟨hn, rfl, hl, hf, hp⟩
    have hrow := onLiveFn_live (fun t => bmeCleared t n c) hn hl hf hp
    refine ⟨fun h => hrow.trans (congrArg Host.Outcome.next (congrArg (setFnCfg · n c) (if_pos (by simp [h])))),
      fun h => hrow.trans (congrArg Host.Outcome.next (bmeCleared_set c h)), onLiveFn_live (fun t => bmeSetAgain t n c) hn hl hf hp⟩
  case config =>
    rintro s n f c l t ⟨rfl, hl, rfl⟩
    have hopen : (if (fnOf s n).fnMask && !c.fnMask then (fnOf s n).pending.filter fun v => !(fnOf s n).masked.contains v else []) = l :=
      (ite_congr (by simp) (fun _ => rfl) fun _ => rfl).trans hl.symm
    unfold setFnCfg
    dsimp only
    rw [hopen]
  case dead =>
    rintro s n c b ⟨hn, h⟩
    exact ⟨onLiveFn_other (fun t => bmeCleared t n c) hn h, onLiveFn_other (fun t => bmeSetAgain t n c) hn h,
      onLiveFn_other (fun t => setFn t n { fnOf t n with d3hot := true, pmeEn := b }) hn h,
      onLiveFn_other (fun t => flushHolding (setFn t n { fnOf t n with d3hot := false, pmeEn := b }) n) hn h⟩
  case hold =>
    rintro s n f t ⟨hn, rfl, rfl⟩
    exact (if_pos hn).trans (congrArg Host.Outcome.next (ite_congr (by simp) (fun _ => rfl) fun _ => rfl))
  case flr =>
    rintro s n f ⟨hn, rfl⟩
    exact ⟨(if_pos hn).trans (congrArg Host.Outcome.next (ite_congr (by simp) (fun _ => rfl) fun _ => rfl)), if_pos hn⟩
  case flrOne =>
    rintro s n t u v w ⟨rfl, rfl, rfl, rfl⟩
    by_cases h0 : n = 0
    · exact (if_pos h0).trans (if_neg (not_not_intro h0)).symm
    · exact (if_neg h0).trans (if_pos h0).symm
  case vfs =>
    rintro s k t rfl
    rfl
  case unmask =>
    rintro s n v f b t ⟨hn, rfl, rfl⟩
    exact (if_pos hn).trans (congrArg Host.Outcome.next (ite_congr (by simp) (fun _ => rfl) fun _ => rfl))
  case message =>
    rintro s n v f rfl
    refine ⟨fun hp hm h => ?_, fun hp hm h1 h2 h3 => ?_, ?_, fun hp hm => ?_, fun hp => ?_⟩
    · exact (raiseVec_released v hp hm).trans (if_pos (by simpa using h))
    · refine (raiseVec_released v hp hm).trans ((if_neg ?_).trans ((if_neg (by simp [h3])).trans (ite_bnot _ _ _)))
      rw [h1, h2]
      decide
    · rintro t rfl hp hm h1 h2 h3
      refine (raiseVec_released v hp hm).trans ((if_neg ?_).trans (if_pos h3))
      rw [h1, h2]
      decide
    · exact (if_neg (by simp [hp])).trans (if_pos (by simp [hm]))
    · exact if_pos hp
  case power =>
    rintro s n b ⟨hn, hl, hf, hp⟩
    exact ⟨onLiveFn_live (fun t => setFn t n { fnOf t n with d3hot := true, pmeEn := b }) hn hl hf hp,
      onLiveFn_live (fun t => flushHolding (setFn t n { fnOf t n with d3hot := false, pmeEn := b }) n) hn hl hf hp⟩
  case flush =>
    rintro s n f rfl
    exact ite_congr (by simp) (fun _ => rfl) fun _ => rfl
  case absent =>
    intro s n k g c b v d hn i hi
    simp only [List.mem_cons, List.not_mem_nil, or_false] at hi
    rcases hi with rfl | rfl | rfl | rfl | rfl | rfl | rfl | rfl | rfl | rfl <;> exact if_neg (Nat.not_lt.mpr hn)

end Sys2Proof.Machine
end

section
/-! The register block of a function, its DMA reads, MCTP and Service Function Bind (R476 to R479, R481, R483). -/

namespace Sys2Proof.Machine

/-- A function whose register block is written: in force, awake and outside its reset, with PERST released, outside Held. -/
def FnAwake (s : State) (n : Nat) : Prop :=
  fnLive s n = true ∧ (fnOf s n).flr = false ∧ (fnOf s n).d3hot = false ∧ s.svc.perst = false ∧ s.glb.mode ≠ .held

theorem fnAsleep_of_not_awake {s : State} {n : Nat} (h : ¬FnAwake s n) :
    fnLive s n = false ∨ (fnOf s n).flr = true ∨ (fnOf s n).d3hot = true ∨ s.svc.perst = true ∨ s.glb.mode = .held := by
  simpa only [FnAwake, Classical.not_and_iff_not_or_not, Bool.not_eq_true, Bool.not_eq_false, ne_eq, Classical.not_not] using h

/-- A write to the controller registers of a function. -/
def fnRegWrite (s : State) (n off v : Nat) : State :=
  let f := fnOf s n
  match off with
  | 0x14 => ccWrite s n v
  | 0x24 => if bitAt f.cc 0 then s else setFn s n { f with aqa := v }
  | 0x28 => if bitAt f.cc 0 then s else setFn s n { f with asq := f.asq / 2 ^ 32 * 2 ^ 32 + v }
  | 0x2C => if bitAt f.cc 0 then s else setFn s n { f with asq := f.asq % 2 ^ 32 + v * 2 ^ 32 }
  | 0x30 => if bitAt f.cc 0 then s else setFn s n { f with acq := f.acq / 2 ^ 32 * 2 ^ 32 + v }
  | 0x34 => if bitAt f.cc 0 then s else setFn s n { f with acq := f.acq % 2 ^ 32 + v * 2 ^ 32 }
  | _ => s

/-- The register block by its areas: the doorbells, the MSI-X table, the registers. -/
theorem fnWrite_areas (s : State) (n off v : Nat) :
    fnWrite s n off v =
      if !fnLive s n || (fnOf s n).flr || (fnOf s n).d3hot || s.svc.perst || s.glb.mode == .held then s
      else if 0x1000 ≤ off && off < 0x2000 then bellWrite s n ((off - 0x1000) / 4) v
      else if (msixTable n).1 ≤ off && off < (msixTable n).1 + 16 * (msixTable n).2 then
        (if (off - (msixTable n).1) % 16 = 12 then vectorControl s n ((off - (msixTable n).1) / 16) v else s)
      else fnRegWrite s n off v := rfl

/-- The MSI-X table stands above the doorbells. -/
theorem msixTable_above (n : Nat) : 0x2000 ≤ (msixTable n).1 := by
  unfold msixTable
  split
  · decide
  · split <;> decide

theorem fnWrite_asleep {s : State} {n : Nat} (off v : Nat)
    (h : fnLive s n = false ∨ (fnOf s n).flr = true ∨ (fnOf s n).d3hot = true ∨ s.svc.perst = true ∨ s.glb.mode = .held) :
    fnWrite s n off v = s :=
  (fnWrite_areas s n off v).trans (if_pos (by rcases h with h | h | h | h | h <;> simp [h]))

section
variable {s : State} {n : Nat} (h : FnAwake s n)
include h

theorem fnWrite_awake (off v : Nat) :
    fnWrite s n off v =
      if 0x1000 ≤ off && off < 0x2000 then bellWrite s n ((off - 0x1000) / 4) v
      else if (msixTable n).1 ≤ off && off < (msixTable n).1 + 16 * (msixTable n).2 then
        (if (off - (msixTable n).1) % 16 = 12 then vectorControl s n ((off - (msixTable n).1) / 16) v else s)
      else fnRegWrite s n off v := by
  obtain ⟨hl, hf, hd, hp, hm⟩ := h
  exact (fnWrite_areas s n off v).trans (if_neg (by simp [hl, hf, hd, hp, hm]))

theorem fnWrite_register {off : Nat} (v : Nat) (ho : off < 0x1000) : fnWrite s n off v = fnRegWrite s n off v := by
  have habove := msixTable_above n
  refine (fnWrite_awake h off v).trans ((if_neg ?_).trans (if_neg ?_))
  · simp only [Bool.and_eq_true, decide_eq_true_eq]
    omega
  · simp only [Bool.and_eq_true, decide_eq_true_eq]
    omega

theorem fnWrite_bell {k : Nat} (v : Nat) (hk : k < 1024) : fnWrite s n (0x1000 + 4 * k) v = bellWrite s n k v := by
  refine (fnWrite_awake h _ v).trans ((if_pos ?_).trans ?_)
  · simp only [Bool.and_eq_true, decide_eq_true_eq]
    omega
  · rw [Nat.add_sub_cancel_left, Nat.mul_div_cancel_left k (by decide)]

/-- A word of the MSI-X table. -/
theorem fnWrite_vector {k j : Nat} (v : Nat) (hk : k < (msixTable n).2) (hj : j < 16) :
    fnWrite s n ((msixTable n).1 + 16 * k + j) v = if j = 12 then vectorControl s n k v else s := by
  have habove := msixTable_above n
  have hmod : ((msixTable n).1 + 16 * k + j - (msixTable n).1) % 16 = j := by omega
  have hdiv : ((msixTable n).1 + 16 * k + j - (msixTable n).1) / 16 = k := by omega
  refine (fnWrite_awake h _ v).trans ((if_neg ?_).trans ((if_pos ?_).trans ?_))
  · simp only [Bool.and_eq_true, decide_eq_true_eq]
    omega
  · simp only [Bool.and_eq_true, decide_eq_true_eq]
    omega
  · rw [hmod, hdiv]

end

/-- A register that is written only while the function is disabled. -/
theorem fnRegWrite_enabled {s : State} {n o : Nat} (v : Nat) (h : bitAt (fnOf s n).cc 0 = true) (ho : o ∈ [0x24, 0x28, 0x2C, 0x30, 0x34]) :
    fnRegWrite s n o v = s := by
  simp only [List.mem_cons, List.not_mem_nil, or_false] at ho
  rcases ho with rfl | rfl | rfl | rfl | rfl <;> exact if_pos h

/-- An offset of no register. -/
theorem fnRegWrite_none {s : State} {n o : Nat} (v : Nat) (ho : o ∉ [0x14, 0x24, 0x28, 0x2C, 0x30, 0x34]) : fnRegWrite s n o v = s := by
  unfold fnRegWrite
  split
  case h_7 => rfl
  all_goals exact absurd (by decide) ho

/-- Enabling a function bound to a tenant. -/
theorem fnEnable_bound {s : State} {n : Nat} {r : VssRec} (hn : n ≠ 0) (hv : vssOf s (fnVss s n) = some r) :
    fnEnable s n = if fnVss s n ≠ 0 ∧ r.state = .active ∧ dataRuns s = true then
        setFn (setAssoc s (65536 + n) (some { vss := fnVss s n, qp := 65536, cc := (fnOf s n).cc, rdy := true, maxQd := maxQd s, maxIo := maxIoQueues s, icd := icdKib s }))
          n { fnOf s n with rdy := true }
      else s := by
  refine (if_neg hn).trans ?_
  rw [hv]
  exact ite_congr (by simp [and_assoc]) (fun _ => rfl) fun _ => rfl

/-- A doorbell: the value is stored and a moved submission tail starts fetching. -/
theorem bellWrite_eq (s : State) (n k v : Nat) :
    bellWrite s n k v =
      let f := fnOf s n
      if f.rdy = true ∧ k < 2 * fnQueues s n ∧ v < fnMaxQd s n then
        setFn s n { f with bells := tput f.bells 0 k v, fetching := if k % 2 = 0 ∧ tget f.bells 0 k ≠ v ∧ fnDmaOn s n = true ∧ f.fetching.contains (k / 2) = false then f.fetching ++ [k / 2] else f.fetching }
      else s := by
  unfold bellWrite
  dsimp only
  by_cases hb : (fnOf s n).rdy = true ∧ k < 2 * fnQueues s n ∧ v < fnMaxQd s n
  · rw [if_pos hb, if_neg]
    · refine congrArg (fun l => setFn s n { fnOf s n with bells := tput (fnOf s n).bells 0 k v, fetching := l }) ?_
      exact ite_congr (by simp [and_assoc]) (fun _ => rfl) fun _ => rfl
    · obtain ⟨h1, h2, h3⟩ := hb
      simpa [h1] using ⟨h2, h3⟩
  · rw [if_neg hb, if_pos]
    refine Classical.byContradiction fun hno => ?_
    exact hb (by simpa [and_assoc] using hno)

/-- MCTP control commands that the model does not know. -/
theorem mctpControlMsg_other {s : State} {k : Nat} (a : Nat) (h : mctpServed s = true) (h1 : k ≠ 1) (h2 : k ≠ 2) (h4 : k ≠ 4) (h5 : k ≠ 5) :
    mctpControlMsg s k a = emit s (.mctp 0 [k, 0x105]) := by
  refine (if_neg (by simp [h])).trans ?_
  split
  case h_5 => rfl
  all_goals contradiction

/-- A vendor-defined message of an opcode without a row of its own carries the command of that opcode. -/
theorem exec_mctpVendor_command {s : State} {e n o : Nat} (i a b c d f : Nat) (m : Moment) (hm : mctpServed s = true) (hn : n ≤ 8128)
    (ho : ownRowOpcodes.contains o = false) :
    exec (.mctpVendorManagement e n o i a b c d f m) s = mctpCommand ⟨.mctp e, i⟩ o a b c d f m s :=
  (if_neg (by simp [hm])).trans ((if_neg (Nat.not_lt.mpr hn)).trans (if_neg (ne_true_of_eq_false ho)))

/-- Service Function Bind that names no tenant. -/
theorem fnBind_unbind {s : State} {c : Cid} {d : Nat} (h : field d 16 12 = 0) :
    fnBind s c d =
      let n := field d 0 7
      if n = 0 ∨ fnExists s n = false then reply s c (.vendor 0xE2)
      else if bitAt (fnOf s n).cc 0 = true then reply s c (.vendor 0xE3)
      else catCommand s c [.bind s.glb.straps.tdmSide n 0] 0 7 n := by
  unfold fnBind
  dsimp only
  rw [h]
  exact ite_congr (by simp) (fun _ => rfl) fun _ => ite_congr rfl (fun _ => rfl) fun _ => if_neg (by simp)

/-- Service Function Bind that names a tenant of the catalog. -/
theorem fnBind_bind {s : State} {c : Cid} {d : Nat} {r : VssRec} (h : field d 16 12 ≠ 0) (hv : vssOf s (field d 16 12) = some r) :
    fnBind s c d =
      let n := field d 0 7
      let v := field d 16 12
      if r.state ≠ .active ∨ n = 0 ∨ fnExists s n = false then reply s c (.vendor 0xE2)
      else if bitAt (fnOf s n).cc 0 = true then reply s c (.vendor 0xE3)
      else if fnVss s n ≠ v ∧ r.maxAssoc ≤ tenantAssocs s v then reply s c (.vendor 0xE0)
      else catCommand s c [.bind s.glb.straps.tdmSide n v] 0 7 n := by
  unfold fnBind
  dsimp only
  rw [hv]
  refine ite_congr (by simp [h, or_assoc]) (fun _ => rfl) fun _ => ite_congr rfl (fun _ => rfl) fun _ =>
    ite_congr (propext (Bool.and_eq_true_iff.trans (and_congr (by simp [h]) decide_eq_true_iff))) (fun _ => rfl) fun _ => rfl

theorem fnBind_absent {s : State} {c : Cid} {d : Nat} (h : field d 16 12 ≠ 0) (hv : vssOf s (field d 16 12) = none) :
    fnBind s c d = reply s c (.vendor 0xE2) := by
  unfold fnBind
  dsimp only
  rw [hv]
  exact if_pos (by simp [h])

/-- Settles O57: the register block by its areas, the messages by their opcode. -/
theorem serviceRegistersAndMctp : Obligations.ServiceRegistersAndMctp := by
  unfold Obligations.ServiceRegistersAndMctp
  refine ⟨?config, ?enable, ?areas, ?dma, ?control, ?spdm, ?vendor, ?vendorMore, ?vendorNone, ?unserved, ?unbind, ?bind, ?refused⟩
  case config =>
    rintro s n v f t ⟨hn, rfl, hl, hf, hd, hp, hm⟩ rfl
    have hrow {o : Nat} (ho : o < 0x1000) : exec (.svcNvmeRegisterWrite n o v) s = .next (fnRegWrite s n o v.toNat) :=
      (if_pos hn).trans (congrArg Host.Outcome.next (fnWrite_register ⟨hl, hf, hd, hp, hm⟩ v.toNat ho))
    refine ⟨(hrow (by decide)).trans (congrArg Host.Outcome.next ?_), fun he o ho => (hrow ?_).trans (congrArg Host.Outcome.next (fnRegWrite_enabled _ he ho)), fun he => ?_⟩
    · exact ite_congr (by simp) (fun _ => rfl) fun _ => ite_congr (by simp) (fun _ => rfl) fun _ => rfl
    · simp only [List.mem_cons, List.not_mem_nil, or_false] at ho
      omega
    · have he := ne_true_of_eq_false he
      exact ⟨(hrow (by decide)).trans (congrArg Host.Outcome.next (if_neg he)), (hrow (by decide)).trans (congrArg Host.Outcome.next (if_neg he)),
        (hrow (by decide)).trans (congrArg Host.Outcome.next (if_neg he)), (hrow (by decide)).trans (congrArg Host.Outcome.next (if_neg he)),
        (hrow (by decide)).trans (congrArg Host.Outcome.next (if_neg he))⟩
  case enable =>
    rintro s n r t ⟨hv, rfl⟩
    exact ⟨rfl, fun hn => fnEnable_bound hn hv, rfl⟩
  case areas =>
    rintro s n i v f ⟨hn, rfl⟩
    have hrow : exec (.svcNvmeRegisterWrite n i v) s = .next (fnWrite s n i v.toNat) := if_pos hn
    refine ⟨?_, ?_, ?_, fun hi ho => hrow.trans (congrArg _ ?_), fun h => hrow.trans (congrArg _ (fnWrite_asleep i _ h))⟩
    · rintro k rfl hk hl hf hd hp hm
      exact hrow.trans (congrArg _ ((fnWrite_bell ⟨hl, hf, hd, hp, hm⟩ _ hk).trans (bellWrite_eq s n k _)))
    · rintro k rfl hk hl hf hd hp hm
      have hu : exec (.msixUnmask n k false) s = .next (unmask s n k false) := if_pos hn
      rw [hrow, hu, fnWrite_vector ⟨hl, hf, hd, hp, hm⟩ _ hk (by decide), if_pos rfl]
      unfold vectorControl
      dsimp only
      split
      next h => rfl
      next h => rfl
    · rintro k j rfl hk hj
      by_cases ha : FnAwake s n
      · exact hrow.trans (congrArg _ ((fnWrite_vector ha _ hk (by omega)).trans (if_neg (by omega))))
      · exact hrow.trans (congrArg _ (fnWrite_asleep _ _ (fnAsleep_of_not_awake ha)))
    · by_cases ha : FnAwake s n
      · exact (fnWrite_register ha _ hi).trans (fnRegWrite_none _ ho)
      · exact fnWrite_asleep _ _ (fnAsleep_of_not_awake ha)
  case dma =>
    rintro s n g k f b d ⟨hn, rfl⟩
    refine ⟨if_pos hn, fun hg => ⟨if_neg (ne_true_of_eq_false hg), (if_neg (ne_true_of_eq_false hg)).trans ?_⟩, fun hg => ⟨_, _, rfl, if_pos hg⟩⟩
    exact ite_congr (by simp) (fun _ => rfl) fun _ => rfl
  case control =>
    intro s a n h
    have hs : ¬(!mctpServed s) = true := by simp [h]
    exact ⟨congrArg Host.Outcome.next (if_neg hs), congrArg Host.Outcome.next (if_neg hs), congrArg Host.Outcome.next (if_neg hs),
      congrArg Host.Outcome.next (if_neg hs), fun h1 h2 h4 h5 => congrArg Host.Outcome.next (mctpControlMsg_other a h h1 h2 h4 h5)⟩
  case spdm =>
    intro s e n q h
    refine ⟨fun hn => congrArg Host.Outcome.next (if_neg ?_), fun hn ha => congrArg Host.Outcome.next ((if_pos ?_).trans (if_pos ha)),
      fun ha => congrArg Host.Outcome.next ?_⟩
    · simpa using fun _ => hn
    · simpa [h] using hn
    · split
      next => exact if_neg (ne_true_of_eq_false ha)
      next => rfl
  case vendor =>
    rintro s e n i a b c d f m ⟨hm, hn⟩
    have hrow {o : Nat} (ho : ownRowOpcodes.contains o = false) := exec_mctpVendor_command (e := e) i a b c d f m hm hn ho
    exact ⟨hrow rfl, hrow rfl, hrow rfl, hrow rfl, hrow rfl, hrow rfl, hrow rfl, hrow rfl, hrow rfl, hrow rfl, hrow rfl⟩
  case vendorMore =>
    rintro s e n i a b c d f m ⟨hm, hn⟩
    have hrow {o : Nat} (ho : ownRowOpcodes.contains o = false) := exec_mctpVendor_command (e := e) i a b c d f m hm hn ho
    refine ⟨hrow rfl, hrow rfl, hrow rfl, hrow rfl, hrow rfl, hrow rfl, hrow rfl, hrow rfl, hrow rfl, hrow rfl, hrow rfl, hrow rfl, fun o ho => ?_⟩
    simp only [List.mem_cons, List.not_mem_nil, or_false] at ho
    rcases ho with rfl | rfl | rfl | rfl | rfl | rfl | rfl <;> exact hrow rfl
  case vendorNone =>
    intro s e n o i a b c d f m hm
    have hs : ¬(!mctpServed s) = true := by simp [hm]
    exact ⟨fun hn => (if_neg hs).trans (if_pos hn),
      fun hn ho => (if_neg hs).trans ((if_neg (Nat.not_lt.mpr hn)).trans (if_pos (List.contains_iff_mem.mpr ho)))⟩
  case unserved =>
    intro s e n o i a b c d f m q h
    have hs : (!mctpServed s) = true := by simp [h]
    exact ⟨congrArg Host.Outcome.next (if_pos hs), congrArg Host.Outcome.next (if_neg (by simp [h])), if_pos hs⟩
  case unbind =>
    rintro s c d n ⟨hm, rfl, h⟩
    exact congrArg Host.Outcome.next ((asManager_granted _ hm).trans (fnBind_unbind h))
  case bind =>
    rintro s c d n v r ⟨hm, rfl, rfl, h, hv⟩
    exact congrArg Host.Outcome.next ((asManager_granted _ hm).trans (fnBind_bind h hv))
  case refused =>
    exact fun s c d w => ⟨fun h => congrArg Host.Outcome.next (asManager_unserved _ h), fun h hw => congrArg Host.Outcome.next (asManager_refused _ h hw),
      fun hm h hv => congrArg Host.Outcome.next ((asManager_granted _ hm).trans (fnBind_absent h hv))⟩

end Sys2Proof.Machine
end

section
/-! The event ring, the counters, the memories and the test bench (R491 to R516). -/

namespace Sys2Proof.Machine

theorem drainOne_empty {s : State} (h : s.evr.queue = []) : drainOne s = s := by
  unfold drainOne
  rw [h]

theorem drainOne_queued {s : State} {r : EvRec} {l : List EvRec} (h : s.evr.queue = r :: l) :
    drainOne s = freezeOn (ringPut { s with evr := { s.evr with queue := l } } { r with late := true }) r.num := by
  unfold drainOne
  rw [h]

/-- The queue drains only into a ring that can be written and has been scanned. -/
theorem drainQueue_waits {s : State} (h : ringWritable s = false ∨ s.evr.scanned = false) : drainQueue s = s :=
  if_pos (by rcases h with h | h <;> simp [h])

theorem drainQueue_writable {s : State} (hw : ringWritable s = true) (hs : s.evr.scanned = true) :
    drainQueue s =
      let t := (List.range (s.evr.queue.length + 1)).foldl (fun u _ => drainOne u) s
      if t.evr.lostNew = 0 then t
      else writeEvent { t with evr := { t.evr with lostNew := 0 } } { num := 0x0C31, detail := [t.evr.lostNew] } :=
  if_neg (by simp [hw, hs])

/-- Event Read answers the live records from a first sequence, and how many it skipped. -/
theorem eventRead_eq (s : State) (c : Cid) (f k : Nat) :
    eventRead s c f k =
      let l := liveSeqs s f
      if k = 0 ∨ 4096 < k then reply s c .invalidField
      else reply s c .success ((l.take k).length + 65536 * min 0xFFFF (match l with | q :: _ => q - f | [] => s.evr.head - f))
        ((l.take k).flatMap (readBytes s)) :=
  ite_congr (by simp) (fun _ => rfl) fun _ => rfl

/-- Settles O58: the ring and its reads, and the counters' controls by their bits. -/
theorem recordsAndCounters : Obligations.RecordsAndCounters := by
  unfold Obligations.RecordsAndCounters
  refine ⟨?drain, ?one, ?summary, ?read, ?window, ?control, ?freeze, ?windowEnd⟩
  case drain =>
    rintro s t rfl
    exact ⟨fun h => congrArg Host.Outcome.next (drainQueue_waits h), fun hw hs => congrArg Host.Outcome.next (drainQueue_writable hw hs)⟩
  case one => exact fun s r l => ⟨drainOne_empty, drainOne_queued⟩
  case summary =>
    exact fun s => congrArg Host.Outcome.next (ite_congr (propext List.isEmpty_iff) (fun _ => rfl) fun _ => rfl)
  case read =>
    rintro s c a b n f k l ⟨rfl, rfl, rfl⟩
    exact ⟨fun hm hr => congrArg Host.Outcome.next ((asManagerIn_granted _ hm hr).trans (eventRead_eq s c _ _)),
      fun hm => congrArg Host.Outcome.next (asManagerIn_unserved _ hm), fun e hm he => congrArg Host.Outcome.next (asManagerIn_refused _ hm he)⟩
  case window =>
    rintro s p l rfl
    rfl
  case control =>
    rintro s v t u ⟨rfl, rfl⟩
    exact ⟨congrArg Host.Outcome.next (ite_congr (by simp [regsWritable]) (fun _ => rfl) fun _ => rfl), rfl, rfl⟩
  case freeze =>
    intro s k b
    exact ⟨fun h => if_pos h, fun h => if_neg (ne_true_of_eq_false h),
      congrArg Host.Outcome.next (ite_congr (by simp [and_assoc]) (fun _ => rfl) fun _ => rfl)⟩
  case windowEnd => exact fun s => rfl

/-- The read of a line, by the flip armed on it. -/
theorem flipRead_eq (s : State) (r a : Nat) (x : LineRead) :
    flipRead s r a x = match s.mem.flips.find? fun f => f.1 == r && f.2.1 == a with
      | none => (x, s)
      | some f => (if f.2.2 = true then .badTwice else if x = .badTwice then x else .corrected, unflip s r a) := rfl

/-- What the scrubber does with a data line as it was read. -/
def lineScrubbed (u : State) (r a : Nat) (y : LineRead) : State :=
  if (regionOf u r).init = false then writeEvent u { num := 0x0F04, inst := r, detail := [r] }
  else match y with
    | .clean => unpoison u r a
    | .corrected => dramCorrected (unpoison u r a) r a
    | .badThenGood => transient (unpoison u r a) 15 r 1 0x0F02
    | .badTwice => if (regionOf u r).poison.contains a = true then u else dramPoison u r a

/-- The scrubber's read of a data line of a declared region. -/
theorem dramScrub_line {s : State} {r a k : Nat} {x : LineRead} {z : LineRead × State} (hd : dataLine (regionOf s r) a = true)
    (hz : z = flipRead (setRegion s r { regionOf s r with scrubPct := min 100 k }) r a x) :
    dramScrub s r a x k = lineScrubbed z.2 r a z.1 := by
  subst hz
  exact (if_neg (by simp [hd])).trans (ite_congr (Bool.not_eq_true' _) (fun _ => rfl) fun _ => rfl)

/-- A write of PTB_CFG where the registers are written and the test bench is available. -/
theorem ptbCfgWrite_available {s : State} {i v : Nat} (hm : authMode s = true) (ha : s.ptb.available = true) :
    ptbCfgWrite s i v =
      let j := { injOf s i with point := field v 0 4, kind := field v 4 3, instFilter := bitAt v 8, inst := field v 16 16 }
      let t := setInj s i j
      if bitAt v 7 = false then injDisarm t i
      else if (pointKinds j.point).contains j.kind = true ∧ paramFits j = true then
        writeEvent (setInj { t with ptb := { t.ptb with badCfg := false } } i { j with armed := true, seen := 0 })
          { num := 0x0D70, inst := i, detail := [i, j.point, j.kind] }
      else injDisarm { t with ptb := { t.ptb with badCfg := true } } i :=
  (if_neg (by simp [regsWritable, hm, ha])).trans
    (ite_congr (by simp) (fun _ => rfl) fun _ => ite_congr (propext Bool.and_eq_true_iff) (fun _ => rfl) fun _ => rfl)

/-- The release of an item that may go, and of one that may not or is not held. -/
theorem injRelease_held {s : State} {i n : Nat} {x : HeldItem} (hx : (injOf s i).items[n]? = some x) (hn : (injOf s i).kind = 2 ∨ n = 0) :
    injRelease s i n = deliver (setInj s i { injOf s i with items := (injOf s i).items.eraseIdx n }) x.cmd := by
  refine (if_neg (by rcases hn with hn | hn <;> simp [hn])).trans ?_
  rw [hx]

theorem injRelease_none {s : State} {i n : Nat} (h : (injOf s i).items[n]? = none ∨ ((injOf s i).kind ≠ 2 ∧ n ≠ 0)) : injRelease s i n = s := by
  by_cases hn : (injOf s i).kind ≠ 2 ∧ n ≠ 0
  · exact if_pos (by simpa using hn)
  · refine (if_neg (by simpa using hn)).trans ?_
    rw [h.resolve_right hn]

/-- Settles O59: each row by the mode, the field lock and what the injector holds. -/
theorem memoryAndTestBench : Obligations.MemoryAndTestBench := by
  unfold Obligations.MemoryAndTestBench
  refine ⟨?flip, ?scrub, flipRead_eq, ?lock, ?config, ?disarm, ?release, ?capture, ?refused⟩
  case flip =>
    exact fun s v => congrArg Host.Outcome.next (ite_congr (by simp [regsWritable]) (fun _ => rfl) fun _ =>
      ite_congr (propext Bool.and_eq_true_iff) (fun _ => rfl) fun _ => rfl)
  case scrub =>
    rintro s r a k x y t u ⟨hr, rfl, hu⟩
    have hrow : exec (.dramScrubLine r a x k) s = .next (dramScrub s r a x k) := if_pos hr
    refine ⟨fun hd => hrow.trans (congrArg _ (if_pos (by simp [hd]))), fun hd => hrow.trans (congrArg _ (dramScrub_line hd hu)), ?_⟩
    have habsent : 16 ≤ r + 16 := Nat.le_add_left 16 r
    generalize r + 16 = q at habsent
    exact if_neg (Nat.not_lt.mpr habsent)
  case lock =>
    rintro s c d t ⟨hm, ht⟩
    rw [ht]
    exact congrArg Host.Outcome.next (asManager_granted _ hm)
  case config =>
    rintro s i v j t ⟨hi, hm, ha, rfl, rfl⟩
    exact ⟨(if_pos hi).trans (congrArg Host.Outcome.next (ptbCfgWrite_available hm ha)), rfl,
      (if_pos hi).trans (congrArg Host.Outcome.next (if_pos (by simp)))⟩
  case disarm => exact fun s i => rfl
  case release =>
    rintro s i n j x ⟨hi, rfl⟩
    refine ⟨fun hx hn => (if_pos hi).trans (congrArg Host.Outcome.next (injRelease_held hx hn)),
      fun h => (if_pos hi).trans (congrArg Host.Outcome.next (injRelease_none h)), ?_⟩
    have habsent : 8 ≤ i + 8 := Nat.le_add_left 8 i
    generalize i + 8 = q at habsent
    exact if_neg (Nat.not_lt.mpr habsent)
  case capture =>
    rintro s p r l t ⟨rfl, rfl, rfl⟩
    rfl
  case refused =>
    intro s c d i v e
    have hrow (hi : i < 8) (hm : authMode s = false) : exec (.ptbArm i v) s = .next s :=
      (if_pos hi).trans (congrArg Host.Outcome.next (if_pos (by simp [regsWritable, hm])))
    exact ⟨fun h => congrArg Host.Outcome.next (asManager_unserved _ h), fun h he => congrArg Host.Outcome.next (asManager_refused _ h he),
      fun hi hm => ⟨hrow hi hm, hrow hi hm⟩, fun hi => ⟨if_neg (Nat.not_lt.mpr hi), if_neg (Nat.not_lt.mpr hi)⟩⟩

end Sys2Proof.Machine
end

section
/-! Temperatures, rails, the reference clock, the PLLs and JTAG (R48, R527, R535, R541). -/

namespace Sys2Proof.Machine

/-- A fatal fault enters Safe in Standby, Active and a drain that is not a power failure's. -/
theorem fatal_eq (s : State) (k d : Nat) :
    fatal s k d = if (s.glb.mode = .standby ∨ s.glb.mode = .active ∨ s.glb.mode = .drain) ∧ s.glb.drainReason ≠ .powerFail then
      enterSafe s k d else s := by
  unfold fatal
  split
  case h_4 h1 h2 h3 => exact (if_neg fun h => h.1.elim h1 fun h => h.elim h2 h3).symm
  all_goals
    next h => exact (ite_not _ _ _).symm.trans (ite_congr (by simp [h]) (fun _ => rfl) fun _ => rfl)

/-- The links of a PLL go down. -/
theorem pllLinksDown_eq (s : State) (k : Nat) :
    pllLinksDown s k = if k = 0 then (List.range 32).foldl linkGoesDown s
      else if k = 1 then (List.range 64).foldl (fun u b => spkContain u b 0) s
      else if k = 2 then tandemDown s 2 else svcLinkLost s := by
  unfold pllLinksDown
  split
  case h_4 h0 h1 h2 => exact ((if_neg h0).trans ((if_neg h1).trans (if_neg h2))).symm
  all_goals rfl

/-- What the bay die's trip does to one bay. -/
def bayTripOne (s : State) (b : Nat) : State :=
  if ownsBay s b = true ∧ (chanOf s b).state ≠ .disabled then
    writeEvent (setChan s b { chanOf s b with state := .latched, gate := driveGate s b .sink }) { num := 0x0A04, inst := b, detail := [b] }
  else if drivesBay s b = true ∧ (chanOf s b).gate ≠ .hiZ then setChan s b { chanOf s b with gate := .sink } else s

/-- The bay die's trip, bay by bay. -/
theorem bayTrip_eq (s : State) : bayTrip s = (List.range 64).foldl bayTripOne s := by
  refine congrArg (List.foldl · s _) (funext fun t => funext fun b => ?_)
  exact ite_congr (by simp) (fun _ => rfl) fun _ => ite_congr (by simp) (fun _ => rfl) fun _ => rfl

/-- Settles O60: each row by the mode and what outranks it. -/
theorem electricalEvents : Obligations.ElectricalEvents := by
  unfold Obligations.ElectricalEvents
  refine ⟨?temp, ?limit, ?trip, ?rail, ?powerFail, ?refclk, ?pll, ?jtag⟩
  case temp =>
    rintro s d k b t ⟨hm, rfl⟩
    exact ⟨congrArg Host.Outcome.next ((if_neg hm).trans (ite_congr (by simp) (fun _ => rfl) fun _ => rfl)), congrArg Host.Outcome.next (if_pos rfl)⟩
  case limit =>
    intro s d m
    refine congrArg Host.Outcome.next ?_
    cases outranked m.rivals .fatal
    · exact (fatal_eq s 0x0C (dieNo d)).trans (ite_congr (by simp) (fun _ => rfl) fun _ => rfl)
    · exact (if_neg (by simp)).symm
  case trip =>
    exact fun s => ⟨fun hm => congrArg Host.Outcome.next (if_pos hm), fun hm => congrArg Host.Outcome.next (if_neg hm),
      congrArg Host.Outcome.next (bayTrip_eq s)⟩
  case rail =>
    intro s k m hk
    refine ⟨if_neg (Nat.not_le.mpr hk), ?_⟩
    have habsent : 4 ≤ k + 4 := Nat.le_add_left 4 k
    generalize k + 4 = j at habsent
    exact if_pos habsent
  case powerFail =>
    rintro s l t u ⟨rfl, rfl⟩
    exact ⟨fun h => h.elim (powerFail_again l) (powerFail_held l), fun hl hm => powerFail_operational l hm hl,
      fun hl hm w hw => powerFail_boot l hl hm rfl hw, fun hl hm => powerFail_safe l hl hm⟩
  case refclk =>
    exact fun s b m => ⟨congrArg Host.Outcome.next (ite_congr (by simp) (fun _ => rfl) fun _ => rfl),
      congrArg Host.Outcome.next (ite_congr (by simp [and_assoc]) (fun _ => rfl) fun _ => rfl)⟩
  case pll =>
    rintro s k t ⟨hk, rfl⟩
    refine ⟨(if_pos hk).trans (congrArg Host.Outcome.next (ite_congr rfl (fun _ => rfl) fun _ => pllLinksDown_eq _ k)), ?_⟩
    have habsent : 4 ≤ k + 4 := Nat.le_add_left 4 k
    generalize k + 4 = j at habsent
    exact if_neg (Nat.not_lt.mpr habsent)
  case jtag =>
    rintro s t rfl
    exact ⟨rfl, rfl, rfl, fun h => ⟨congrArg Host.Outcome.next (if_pos h), congrArg Host.Outcome.next (if_pos h)⟩,
      fun h => ⟨congrArg Host.Outcome.next (if_neg (ne_true_of_eq_false h)), congrArg Host.Outcome.next (if_neg (ne_true_of_eq_false h))⟩⟩

end Sys2Proof.Machine
end
